-- ==== Sys2Proof/Word.lean ====
section
/-! DEFINITION. The byte and the tick, the two plain units of the block. -/
namespace Sys2Proof

/-- One byte of the frame store or of the flash. -/
abbrev Byte := BitVec 8

/-- A number of 1 us ticks since the power came on. -/
abbrev Tick := Nat

end Sys2Proof
end

