-- ==== Sys2Proof/Syntax.lean ====
section
/-! DEFINITION. The commands of the block: one constructor for each row of spec/opcode_table.json, with what the surroundings hand
over at that moment as operands. -/
namespace Sys2Proof

/-- A datagram as it arrives at a control port, or a message at the SPI target (`port` 2): the address and UDP port it came from, those it
was sent to (R62; an IPv4 address as ::ffff:a.b.c.d), and the header fields of R65 but OP, which the row names. `len` is the LEN field;
the payload's own length is what arrived. -/
structure Req where
  port : Nat
  addr : Nat
  udp : Nat
  dst : Nat
  dport : Nat
  magic : Nat
  gen : Nat
  flags : Nat
  session : Nat
  seq : Nat
  status : Nat
  len : Nat
  payload : List Nat
deriving DecidableEq, Repr

/-- A burst at a BMX port (R232, R234, R235): master, ordering tag, address, write or read, 0 plain, 1 OPEN_LOCK or 2 CLOSE_LOCK, and
its beats: for a write the 64-bit byte mask (bit i for byte i) and the 64 bytes of each beat, for a read one entry a beat. -/
structure Burst where
  master : Nat
  tag : Nat
  addr : Nat
  write : Bool
  lock : Nat
  beats : List (Nat × List Nat)
deriving DecidableEq, Repr

/-- What a receiver measured over one frame (R136): samples per line, total and active lines, interlaced by the F bit, mapping (codes of
STAT.MAPPING), sampling (codes of STAT.SAMPLING), frame period in ps, estimated loss in 0.5 dB steps. -/
structure Meas where
  spl : Nat
  lines : Nat
  active : Nat
  interlaced : Bool
  mapping : Nat
  sampling : Nat
  period : Nat
  loss : Nat
deriving DecidableEq, Repr

/-- An ANC packet as received (R140 to R144): link, data stream, line, in vertical blanking, DID, SDID, DC and checksum as 10-bit
words, the UDW, and where the parser found it: 0 in blanking, 3 running out of blanking, 4 in the active picture. -/
structure Anc where
  link : Nat
  stream : Nat
  line : Nat
  vert : Bool
  did : Nat
  sdid : Nat
  dc : Nat
  udw : List Nat
  cs : Nat
  fault : Nat
deriving DecidableEq, Repr

/-- An embedded audio packet as de-embedded (R312, R313): group 0 to 7 (the second stream of level B-DL counts from 4), a control or a data
packet, 0 good, 1 corrected or 2 discarded, data block number in sequence, the source instant in ns of its first sample, its sample
frames of four values as received (24 bits, or 20 in an SD group without extended data packets), the declared rate code (1: 48 kHz) and synchronous flag of a control packet, 24-bit samples, the measured
audio rate in ppb, the ST 337 bursts that begin in it (pair 0 or 1 of the group, data type, word length, first and last sample instants),
and the channel status blocks completed in it (pair, 24 bytes). -/
structure AudioPkt where
  group : Nat
  control : Bool
  result : Nat
  dbnOk : Bool
  at' : Nat
  frames : List (List Nat)
  rate : Nat
  sync : Bool
  word24 : Bool
  ppb : Int
  bursts : List (Nat × Nat × Nat × Nat × Nat)
  cs : List (Nat × Nat)
deriving DecidableEq, Repr

/-- What an Announce message tells of UTC (R108): the offset, and from the metadata TLV the second of the offset's next jump and the jump's
size; second 0 where none is announced. -/
structure UtcData where
  offset : Int
  leapAt : Nat
  leap : Int
deriving DecidableEq, Repr

/-- How a family gained lock (R115): for how many us its phase error has stayed within 1 ns, and its first switch-line instant in ns. -/
structure LockSeen where
  held : Nat
  first : Nat
deriving DecidableEq, Repr

/-- The commands. -/
inductive Instr where
  /-- HELLO, R84. -/
  | hello (q : Req)
  /-- HELLO_RESUME, R87. -/
  | helloResume (q : Req)
  /-- AUTH, R75. -/
  | auth (q : Req)
  /-- PING, R69. -/
  | ping (q : Req)
  /-- BYE, R72. -/
  | bye (q : Req)
  /-- READ, R56. -/
  | read (q : Req)
  /-- WRITE, R40. -/
  | write (q : Req) (x : List Int)
  /-- BLOCK_READ, R70. -/
  | blockRead (q : Req)
  /-- BLOCK_WRITE, R37. -/
  | blockWrite (q : Req) (x : List Int)
  /-- COMMIT, R47. -/
  | commit (q : Req)
  /-- COMMIT_AT, R51. -/
  | commitAt (q : Req)
  /-- COMMIT_AT_TIME_REACHED, R54. -/
  | commitAtTimeReached (v : Fin 64)
  /-- SUBSCRIBE, R79. -/
  | subscribe (q : Req)
  /-- UNSUBSCRIBE, R69. -/
  | unsubscribe (q : Req)
  /-- NOTIFY, R79. -/
  | notify (i : Fin 17) (h : Nat)
  /-- NOTIFY_ACK, R81. -/
  | notifyAck (q : Req)
  /-- NOTIFY_RETRY, R81. -/
  | notifyRetry (i : Fin 17) (seq : Nat)
  /-- SESSION_TIMEOUT, R72. -/
  | sessionTimeout (i : Fin 16)
  /-- RESUME_WINDOW_EXPIRY, R72. -/
  | resumeWindowExpiry (i : Fin 16)
  /-- REPLAY_EXPIRY, R77. -/
  | replayExpiry
  /-- SPI_STATUS, R88. -/
  | spiStatus
  /-- SPI_WRITE_MSG, R88. -/
  | spiWriteMsg (l : List Nat) (x : List Int)
  /-- SPI_READ_MSG, R88. -/
  | spiReadMsg (n : Nat)
  /-- SPI_BAD_COMMAND, R88. -/
  | spiBadCommand
  /-- LATENT_DISCARD, R50. -/
  | latentDiscard (q : Req) (mask : Nat)
  /-- SLV_CANCEL, R55. -/
  | slvCancel (q : Req) (v : Fin 64) (x : Nat)
  /-- SALVO_TRIGGER, R190. -/
  | salvoTrigger (p : Fin 32)
  /-- TRIGGER_HOLDOFF_END, R190. -/
  | triggerHoldoffEnd (p : Fin 32)
  /-- DEVELOPMENT_POINT, R48. -/
  | developmentPoint (n : Fin 48)
  /-- GSYN_DEVELOPMENT, R45. -/
  | gsynDevelopment (g : Fin 8) (t : Nat)
  /-- GSYN_RATE_CHANGE, R114. -/
  | gsynRateChange (g : Fin 8) (d : Int)
  /-- REF_SIGNAL_DETECTED, R96. -/
  | refSignalDetected (k : Fin 54) (code lines num den : Nat)
  /-- REF_LOSS_OF_SIGNAL, R92. -/
  | refLossOfSignal (k : Fin 54)
  /-- QUAL_TIME_EXPIRY, R96. -/
  | qualTimeExpiry (k : Fin 54)
  /-- WTR_EXPIRY, R96. -/
  | wtrExpiry (k : Fin 54)
  /-- REF_MEASUREMENT, R94. -/
  | refMeasurement (offs : List Int)
  /-- SELECTOR_EVALUATION, R99. -/
  | selectorEvaluation (j : Fin 2) (d : Int)
  /-- LOCK_HOLD_EXPIRY, R102. -/
  | lockHoldExpiry (j : Fin 2)
  /-- PHASE_MEASUREMENT, R102. -/
  | phaseMeasurement (j : Fin 2) (e : Int)
  /-- SEL_MODE_WRITE, R100. -/
  | selModeWrite (q : Req) (j : Fin 2) (v : Nat) (d : Int)
  /-- NCO_WRITE, R105. -/
  | ncoWrite (q : Req) (j : Fin 2) (v : Nat)
  /-- TOD_SET, R107. -/
  | todSet (q : Req) (t : Nat)
  /-- PTP_SYNC, R108. -/
  | ptpSync (p : Fin 2) (off delay : Int) (log : Int)
  /-- PTP_ANNOUNCE, R108. -/
  | ptpAnnounce (p : Fin 2) (domain prio1 cls acc var prio2 gm steps : Nat) (utc : UtcData) (log d : Int)
  /-- PTP_ANNOUNCE_TIMEOUT, R108. -/
  | ptpAnnounceTimeout (p : Fin 2)
  /-- PPS_IN_EDGE, R106. -/
  | ppsInEdge
  /-- PPS_OUT_SECOND, R107. -/
  | ppsOutSecond
  /-- GSYN_BAND_SEARCH, R115. -/
  | gsynBandSearch (g : Fin 8) (band word : Nat)
  /-- GSYN_LOCK, R115. -/
  | gsynLock (g : Fin 8) (gain : Int) (t : LockSeen)
  /-- GSYN_LOL, R116. -/
  | gsynLol (g : Fin 8) (word : Nat)
  /-- PLL_LOL, R116. -/
  | pllLol (x : Nat) (word : Nat)
  /-- RELOCK_1, R116. -/
  | relock1 (q : Req) (g : Fin 8)
  /-- RELOCK_TIMEOUT, R116. -/
  | relockTimeout (g : Fin 8)
  /-- RELOCK_2, R116. -/
  | relock2 (q : Req) (g : Fin 8)
  /-- LOL_CLEAR, R116. -/
  | lolClear (q : Req)
  /-- SLEW_DONE, R112. -/
  | slewDone (g : Fin 8)
  /-- RAMP_RUN, R117. -/
  | rampRun (q : Req) (g : Fin 8)
  /-- RAMP_HOLD, R117. -/
  | rampHold (q : Req) (g : Fin 8)
  /-- RAMP_RETURN, R117. -/
  | rampReturn (q : Req) (g : Fin 8)
  /-- RAMP_SEGMENT_END, R117. -/
  | rampSegmentEnd (g : Fin 8)
  /-- DIVSYNC_EDGE, R118. -/
  | divsyncEdge (moves : List Int)
  /-- OUT_GENERATOR_START, R124. -/
  | outGeneratorStart (n : Fin 48) (t : Nat)
  /-- SWITCH_LINE, R123. -/
  | switchLine (n : Fin 48) (ns : Nat)
  /-- LINE_START, R130. -/
  | lineStart (n : Fin 48) (line : Nat) (lam : Int) (room : Nat)
  /-- FRAME_DONE, R128. -/
  | frameDone (n : Fin 48)
  /-- IRQ_ACK, R128. -/
  | irqAck (q : Req) (n : Fin 48) (v : Nat)
  /-- FETCH_COMPLETION, R129. -/
  | fetchCompletion (n : Fin 48) (k : Nat)
  /-- RX_ENERGY_PRESENT, R135. -/
  | rxEnergyPresent (n : Fin 48)
  /-- RX_ENERGY_LOST, R135. -/
  | rxEnergyLost (n : Fin 48)
  /-- CDR_LOCK, R135. -/
  | cdrLock (n : Fin 48) (rate : Nat)
  /-- CDR_DWELL_EXPIRY, R135. -/
  | cdrDwellExpiry (n : Fin 48)
  /-- CDR_UNLOCK, R135. -/
  | cdrUnlock (n : Fin 48)
  /-- RATE_MODE_WRITE, R135. -/
  | rateModeWrite (q : Req) (n : Fin 48) (v : Nat)
  /-- TRS_ALIGNED, R135. -/
  | trsAligned (n : Fin 48) (mapping lines samples : Nat)
  /-- RX_FRAME_MEASURED, R136. -/
  | rxFrameMeasured (n : Fin 48) (m : Meas)
  /-- RX_TRS_LOSS, R92. -/
  | rxTrsLoss (n : Fin 48)
  /-- RX_LINE, R138. -/
  | rxLine (n : Fin 48) (line trs : Nat) (off : Int) (ln : Nat) (crcOk : Bool) (px : List Nat)
  /-- ANC_PACKET, R140. -/
  | ancPacket (n : Fin 48) (a : Anc)
  /-- RX_SWITCH_LINE_STAMP, R151. -/
  | rxSwitchLineStamp (q : Fin 12) (k : Fin 4) (ns : Nat)
  /-- RX_INTERVAL_LATCH, R59. -/
  | rxIntervalLatch (n : Fin 48)
  /-- BRACKET_SELECT, R150. -/
  | bracketSelect (q : Req) (n : Fin 48) (v : Nat)
  /-- BRACKET_REVERT, R150. -/
  | bracketRevert (p : Fin 48)
  /-- BRACKET_TAKEOVER, R170. -/
  | bracketTakeover (n : Fin 48) (cause : Nat)
  /-- BRACKET_RELEASE, R170. -/
  | bracketRelease (q : Req) (n : Fin 48)
  /-- SLATE_INSERT, R171. -/
  | slateInsert (q : Req) (n : Fin 48)
  /-- SLATE_REMOVE, R171. -/
  | slateRemove (q : Req) (n : Fin 48)
  /-- SLATE_AUTO_CLEAR, R171. -/
  | slateAutoClear (n : Fin 48)
  /-- SEGMENT_RECEIVED, R22. -/
  | segmentReceived (d : Fin 72) (row seg : Nat) (a b : Option (List (Nat × Nat)))
  /-- PLANE_RETURN_FRAME, R23. -/
  | planeReturnFrame (p : Fin 2) (d : Fin 72)
  /-- XBAR_RETEST, R349. -/
  | xbarRetest (q : Req) (v : Nat)
  /-- BURST_GRANT, R233. -/
  | burstGrant (t : Nat) (waiting : List Burst)
  /-- BURST_COMPLETION, R232. -/
  | burstCompletion (t : Nat) (ecc : List Nat)
  /-- LOCK_TIMEOUT, R235. -/
  | lockTimeout (t : Nat)
  /-- MASTER_DRAIN, R236. -/
  | masterDrain (m : Nat) (accepted : List Nat)
  /-- SCRUB, R216. -/
  | scrub (st : Fin 2) (off ecc : Nat)
  /-- PC_FAIL, R229. -/
  | pcFail (st : Fin 2) (q : Fin 32) (test : Option Nat)
  /-- PC_REBUILD_DONE, R354. -/
  | pcRebuildDone (st : Fin 2) (sl : Fin 31)
  /-- MIRROR_SYNCED, R228. -/
  | mirrorSynced (id : Nat)
  /-- BUF_ALLOC, R220. -/
  | bufAlloc (q : Req) (b : Fin 2048)
  /-- BUF_STATE_WRITE, R221. -/
  | bufStateWrite (q : Req) (b : Fin 2048) (v : Nat)
  /-- BUF_FORCED, R223. -/
  | bufForced (q : Req) (b : Fin 2048)
  /-- WIN_DATA_READ, R226. -/
  | winDataRead (q : Req) (block : Bool) (first last : Fin 256)
  /-- WIN_DATA_WRITE, R226. -/
  | winDataWrite (q : Req) (block : Bool) (first last : Fin 256) (bytes : List Nat)
  /-- CANVAS_SWITCH_LINE, R256. -/
  | canvasSwitchLine (e : Fin 16) (ns : Nat) (lam : Int)
  /-- CANVAS_DEVELOPMENT, R273. -/
  | canvasDevelopment (e : Fin 16)
  /-- FENCE_DONE_WRITE, R273. -/
  | fenceDoneWrite (q : Req) (x : Fin 128) (v : Nat)
  /-- WB_DONE, R278. -/
  | wbDone (e : Fin 16)
  /-- PROOF_SIGNATURE, R280. -/
  | proofSignature (p : Fin 64)
  /-- PROOF_LEARN, R281. -/
  | proofLearn (q : Req) (p : Fin 64)
  /-- FRC_SWITCH_LINE, R295. -/
  | frcSwitchLine (f : Fin 16) (ns : Nat)
  /-- FRC_DEVELOPMENT, R45. -/
  | frcDevelopment (f : Fin 16)
  /-- MOTION_ESTIMATION, R297. -/
  | motionEstimation (f : Fin 16) (k : Fin 4) (j : Fin 16)
  /-- CADENCE_FRAME, R301. -/
  | cadenceFrame (f : Fin 16) (k : Fin 4) (stamp : Nat)
  /-- AUDIO_PACKET, R313. -/
  | audioPacket (n : Fin 48) (p : AudioPkt)
  /-- CHANNEL_ABSENT, R313. -/
  | channelAbsent (n : Fin 48) (c : Fin 32)
  /-- AUDIO_SAMPLE, R314. -/
  | audioSample (d : Fin 1536) (ns : Nat)
  /-- ASRC_RECOVER, R316. -/
  | asrcRecover (d : Fin 1536)
  /-- AUDIO_SLEW_END, R320. -/
  | audioSlewEnd (d : Fin 1536)
  /-- NONPCM_END, R323. -/
  | nonpcmEnd (n : Fin 48) (j : Fin 16)
  /-- NONPCM_FORCED_SWITCH, R324. -/
  | nonpcmForcedSwitch (d : Fin 1536)
  /-- CST_GO, R339. -/
  | cstGo (q : Req)
  /-- CST_ABORT, R341. -/
  | cstAbort (q : Req)
  /-- CST_RESERVE_WRITE, R342. -/
  | cstReserveWrite (q : Req) (v : Nat)
  /-- CST_LINE_COMPLETE, R344. -/
  | cstLineComplete (bad : List Nat) (fault : Bool)
  /-- CST_IRQ_ACK, R346. -/
  | cstIrqAck (q : Req) (v : Nat)
  /-- CLUSTER_FAULT, R348. -/
  | clusterFault (p : Fin 9) (cause : Nat)
  /-- LINE_WATCHDOG_EXPIRY, R348. -/
  | lineWatchdogExpiry (p : Fin 9)
  /-- FAILOVER, R350. -/
  | failover (us : Nat)
  /-- CLUSTERS_RETEST, R353. -/
  | clustersRetest (q : Req) (p : Nat)
  /-- RETEST_DONE, R353. -/
  | retestDone (p : Fin 9) (pass : Bool)
  /-- SELF_TEST_DONE, R359. -/
  | selfTestDone (pass : Bool) (test : Nat)
  /-- ROTATION_PERIOD, R360. -/
  | rotationPeriod
  /-- ROTATE_NOW, R360. -/
  | rotateNow (q : Req)
  /-- ROTATION_COMPARE, R360. -/
  | rotationCompare (same : Bool)
  /-- ROTATION_MOVE, R360. -/
  | rotationMove (i : Fin 4)
  /-- MGMT_FAULT, R356. -/
  | mgmtFault
  /-- MGMT_WATCHDOG_EXPIRY, R356. -/
  | mgmtWatchdogExpiry
  /-- MGMT_SWITCHOVER, R356. -/
  | mgmtSwitchover
  /-- MGMT_FORCE_SWITCHOVER, R356. -/
  | mgmtForceSwitchover (q : Req)
  /-- POWER_ON_RESET, R367. -/
  | powerOnReset (pwrgood : Bool)
  /-- PIN_RESET, R366. -/
  | pinReset
  /-- WARM_RESET, R367. -/
  | warmReset (q : Req)
  /-- IMAGE_LOAD, R375. -/
  | imageLoad (p : Fin 2) (cause version sec : Nat)
  /-- DOMAIN_ENABLE, R370. -/
  | domainEnable (q : Req) (i : Fin 56)
  /-- DOMAIN_DISABLE, R370. -/
  | domainDisable (q : Req) (i : Fin 56)
  /-- FORCE_OFF, R371. -/
  | forceOff (q : Req) (i : Fin 56)
  /-- DOMAIN_READY, R369. -/
  | domainReady (i : Fin 56)
  /-- FUNC_READY, R369. -/
  | funcReady (i : Fin 56) (b : Fin 32)
  /-- DOMAIN_FAULT, R369. -/
  | domainFault (i : Fin 56) (cause : Nat)
  /-- FW_VERIFY, R376. -/
  | fwVerify (q : Req) (v : Nat)
  /-- FW_ACTIVATE, R376. -/
  | fwActivate (q : Req) (v cause version : Nat)
  /-- FW_CONFIRM, R376. -/
  | fwConfirm (q : Req)
  /-- FLASH_ERASE, R376. -/
  | flashErase (q : Req)
  /-- FLASH_ERASE_DONE, R376. -/
  | flashEraseDone
  /-- FLASH_DATA_WRITE, R376. -/
  | flashDataWrite (q : Req) (v : Nat)
  /-- FLASH_DATA_READ, R376. -/
  | flashDataRead (q : Req)
  /-- NEG_POST_DONE, R384. -/
  | negPostDone
  /-- NEG_RELEASE, R385. -/
  | negRelease (q : Req)
  /-- NEG_PRINT, R387. -/
  | negPrint (q : Req) (v : Nat)
  /-- NEG_PRINT_START, R387. -/
  | negPrintStart
  /-- NEG_PRINTED, R388. -/
  | negPrinted (ok : Bool)
  /-- PIN_FUNC_WRITE, R397. -/
  | pinFuncWrite (q : Req) (p : Fin 32) (v : Nat)
  /-- EVENT_OUT_PULSE_END, R397. -/
  | eventOutPulseEnd (p : Fin 32)
  /-- CTL_LINK, R90. -/
  | ctlLink (c : Fin 2) (link : Fin 3)
  /-- STATS_CLEAR, R58. -/
  | statsClear (q : Req) (b : Fin 176)
  /-- MEASURED_CLEAR, R208. -/
  | measuredClear (q : Req) (n : Fin 48)
  /-- ADM_CHECK, R210. -/
  | admCheck (q : Req) (mask : Nat)
  /-- RESET_RELEASE, R366. -/
  | resetRelease
  /-- DOMAIN_OFF, R370. -/
  | domainOff (i : Fin 56)
  /-- FW_VERIFY_DONE, R376. -/
  | fwVerifyDone (cause version : Nat)
  /-- PPS_OUT_WIDTH_END, R107. -/
  | ppsOutWidthEnd
  /-- GPIO_INPUT_LEVEL, R396. -/
  | gpioInputLevel (p : Fin 32) (high : Bool)
  /-- REF_PHASE_EVENT, R92. -/
  | refPhaseEvent (k : Fin 54) (e : Int)
deriving DecidableEq, Repr

end Sys2Proof
end

