-- ==== Sys2Proof/Decode.lean ====
section
/-! DEFINITION. The command table gives no row any bits: commands arrive as datagrams, events and edges, not as words. -/
namespace Sys2Proof

/-- The command a word of the table spells: no row has bits, so none. -/
def decodeTableWord (_nbits _w : Nat) : Option Instr := none

end Sys2Proof
end

