-- ==== Sys2Proof/Config.lean ====
section
/-! DEFINITION. What the spec leaves to the image, the factory, the board or chance: constants without a body, so that no proof can
lean on a value (notes/assumptions/2.md, 3.md). -/
namespace Sys2Proof

/-- The `n`-th value the part takes at random or that the spec does not state (log 2). -/
opaque Config.free : Nat → Nat

/-- IDENT.SERIAL, an OCT(8) written at the factory (R57, log 3). -/
opaque Config.serial : Nat

/-- What the factory chose for the MAC address of control port c (R64, log 3). -/
opaque Config.macRaw : Nat → Nat

/-- CTL[c].MAC: unicast (bit 0 of its first octet is 0), and that of CTL_B is not that of CTL_A (R64, log 3). -/
def Config.mac (c : Nat) : Nat :=
  let u (m : Nat) : Nat := m % 2 ^ 40 + m / 2 ^ 41 % 2 ^ 7 * 2 ^ 41
  if c = 1 ∧ u (Config.macRaw 1) = u (Config.macRaw 0) then u (Config.macRaw 1) ^^^ 1 else u (Config.macRaw c)

/-- The NCO value a cleanup loop sets after a phase sample: from the present raw value, PHASE_ERR, bandwidth code and damping (R101
names bandwidth and damping, not the filter; log 14). -/
opaque Config.loopNco : Nat → Nat → Nat → Nat → Nat

/-- Pixel word of the SMPTE RP 198 check field at column x, row y of a picture of w by h, at a frame counter (R194 names the standard;
log 16). -/
opaque Config.checkField : Nat → Nat → Nat → Nat → Nat → Nat

/-- A field of an ST 352 identifier (four bytes, the first highest), whose layout is the standard's (R137, log 18): 0 mapping as
STAT.MAPPING, 1 scanning (0 progressive, 1 interlaced, 2 PsF), 2 picture rate as a family rate code, 3 sampling as STAT.SAMPLING, 4 link
number 1 to 4, 5 division (1 square, 2 two-sample interleave), 6 colour as STAT.COLOR. -/
opaque Config.pidField : Nat → Nat → Nat

/-- The four bytes of the ST 352 identifier of a FORMAT, MAPPING, SAMPLING, COLOR_TAG, link and division (R164, log 18). -/
opaque Config.pidBytes : Nat → Nat → Nat → Nat → Nat → Nat → Nat

/-- The 24-bit output of the sample-rate converter over source samples around an instant and the position of the instant in ns after the
first of them (R316 bounds its response, not its filter; log 21). -/
opaque Config.asrc : List Nat → Nat → Nat

/-- The 24 bytes of channel status of a pair: the source's bytes (0 for generated), the non-audio flag, the word length sent (R325 names
the fields, whose places are AES3's; log 18). -/
opaque Config.channelStatus : Nat → Nat → Nat → Nat

end Sys2Proof
end

