-- ==== Sys2Proof/Machine/CoefTables.lean ====
section
/-! DEFINITION. The default members of the loadable scaler tables: set 1, NEUTRAL, at ratio 1 by the formula of R244 (R254); each phase
packed as its OCT value. -/
namespace Sys2Proof.Machine

/-- HCOEF[k].PHASE, by phase (R244, R245, R254). -/
def hcoefDflt : List Nat :=
  [0xFFFFFFFB0016FFCF0054FF89009003680090FF890054FFCF0016FFFBFFFF0000,
   0xFFFFFFFA0016FFCE0053FF8E00820369009FFF840055FFCF0015FFFCFFFF0000,
   0xFFFA0017FFCE0052FF930074036800ADFF800056FFCF0014FFFCFFFE0000,
   0xFFF90018FFCE0050FF980067036500BCFF7C0057FFD00013FFFDFFFE0000,
   0xFFF90018FFCE004EFF9D0059036600CBFF770058FFD00012FFFDFFFE0000,
   0xFFF80019FFCE004DFFA2004C036300DAFF730059FFD10011FFFEFFFD0000,
   0x1FFF80019FFCF004BFFA7003F035E00E9FF6F0059FFD20011FFFFFFFD0000,
   0x1FFF70019FFCF0049FFAD0033035B00F8FF6C0059FFD3000F0000FFFD0000,
   0x1FFF7001AFFCF0047FFB2002603580108FF680059FFD4000E0000FFFC0001,
   0x1FFF7001AFFD00044FFB7001A03540117FF650059FFD5000D0001FFFC0001,
   0x1FFF6001AFFD00042FFBD000F034E0127FF620059FFD6000C0002FFFC0001,
   0x2FFF6001AFFD10040FFC2000303480136FF5F0059FFD8000B0003FFFB0001,
   0x2FFF6001AFFD2003DFFC8FFF803430146FF5C0058FFD9000A0003FFFB0001,
   0x2FFF5001BFFD2003BFFCDFFED033D0156FF5A0058FFDA00080004FFFB0001,
   0x2FFF5001BFFD30038FFD3FFE303350166FF580057FFDC00070005FFFA0001,
   0x2FFF5001AFFD40036FFD8FFD9032D0176FF560056FFDE00060006FFFA0001] ++
  [0x2FFF5001AFFD50033FFDEFFCF03270185FF540055FFDF00040007FFFA0001,
   0x2FFF5001AFFD60030FFE3FFC6031F0195FF530053FFE100030008FFF90001,
   0x2FFF4001AFFD7002EFFE8FFBD031601A5FF520052FFE300010008FFF90002,
   0x3FFF4001AFFD8002BFFEEFFB4030B01B5FF510050FFE500000009FFF90002,
   0x3FFF4001AFFDA0028FFF3FFAC030301C4FF50004EFFE7FFFE000AFFF80002,
   0x3FFF40019FFDB0025FFF8FFA402F901D4FF50004CFFE9FFFD000BFFF80002,
   0x3FFF40019FFDC0022FFFDFF9C02EF01E3FF50004AFFECFFFB000CFFF80002,
   0x3FFF40019FFDD001F0002FF9502E401F3FF510047FFEEFFFA000DFFF70002,
   0x3FFF40018FFDF001C0007FF8E02DA0202FF520045FFF0FFF8000DFFF70002,
   0x3FFF40018FFE00019000CFF8702CF0211FF530042FFF3FFF6000EFFF70002,
   0x3FFF40017FFE200160010FF8102C40220FF54003FFFF5FFF5000FFFF70002,
   0x3FFF40017FFE300140015FF7B02B7022FFF56003CFFF8FFF30010FFF60002,
   0x3FFF50016FFE50011001AFF7602A9023EFF580039FFFAFFF10011FFF60002,
   0x3FFF50015FFE6000E001EFF71029F024CFF5A0035FFFDFFF00011FFF60002,
   0x3FFF50015FFE8000B0022FF6C0290025AFF5D00320000FFEE0012FFF60003,
   0x3FFF50014FFE900080026FF6802850268FF60002E0002FFED0013FFF50003] ++
  [0x3FFF50013FFEB0005002AFF6402780276FF64002A0005FFEB0013FFF50003,
   0x3FFF50013FFED0002002EFF6002680285FF6800260008FFE90014FFF50003,
   0x3FFF60012FFEE00000032FF5D025A0290FF6C0022000BFFE80015FFF50003,
   0x2FFF60011FFF0FFFD0035FF5A024C029FFF71001E000EFFE60015FFF50003,
   0x2FFF60011FFF1FFFA0039FF58023E02A9FF76001A0011FFE50016FFF50003,
   0x2FFF60010FFF3FFF8003CFF56022F02B7FF7B00150014FFE30017FFF40003,
   0x2FFF7000FFFF5FFF5003FFF54022002C4FF8100100016FFE20017FFF40003,
   0x2FFF7000EFFF6FFF30042FF53021102CFFF87000C0019FFE00018FFF40003,
   0x2FFF7000DFFF8FFF00045FF52020202DAFF8E0007001CFFDF0018FFF40003,
   0x2FFF7000DFFFAFFEE0047FF5101F302E4FF950002001FFFDD0019FFF40003,
   0x2FFF8000CFFFBFFEC004AFF5001E302EFFF9CFFFD0022FFDC0019FFF40003,
   0x2FFF8000BFFFDFFE9004CFF5001D402F9FFA4FFF80025FFDB0019FFF40003,
   0x2FFF8000AFFFEFFE7004EFF5001C40303FFACFFF30028FFDA001AFFF40003,
   0x2FFF900090000FFE50050FF5101B5030BFFB4FFEE002BFFD8001AFFF40003,
   0x2FFF900080001FFE30052FF5201A50316FFBDFFE8002EFFD7001AFFF40002,
   0x1FFF900080003FFE10053FF530195031FFFC6FFE30030FFD6001AFFF50002] ++
  [0x1FFFA00070004FFDF0055FF5401850327FFCFFFDE0033FFD5001AFFF50002,
   0x1FFFA00060006FFDE0056FF560176032DFFD9FFD80036FFD4001AFFF50002,
   0x1FFFA00050007FFDC0057FF5801660335FFE3FFD30038FFD3001BFFF50002,
   0x1FFFB00040008FFDA0058FF5A0156033DFFEDFFCD003BFFD2001BFFF50002,
   0x1FFFB0003000AFFD90058FF5C01460343FFF8FFC8003DFFD2001AFFF60002,
   0x1FFFB0003000BFFD80059FF5F013603480003FFC20040FFD1001AFFF60002,
   0x1FFFC0002000CFFD60059FF620127034E000FFFBD0042FFD0001AFFF60001,
   0x1FFFC0001000DFFD50059FF6501170354001AFFB70044FFD0001AFFF70001,
   0x1FFFC0000000EFFD40059FF68010803580026FFB20047FFCF001AFFF70001,
   0xFFFD0000000FFFD30059FF6C00F8035B0033FFAD0049FFCF0019FFF70001,
   0xFFFDFFFF0011FFD20059FF6F00E9035E003FFFA7004BFFCF0019FFF80001,
   0xFFFDFFFE0011FFD10059FF7300DA0363004CFFA2004DFFCE0019FFF80000,
   0xFFFEFFFD0012FFD00058FF7700CB03660059FF9D004EFFCE0018FFF90000,
   0xFFFEFFFD0013FFD00057FF7C00BC03650067FF980050FFCE0018FFF90000,
   0xFFFEFFFC0014FFCF0056FF8000AD03680074FF930052FFCE0017FFFA0000,
   0xFFFFFFFC0015FFCF0055FF84009F03690082FF8E0053FFCE0016FFFAFFFF]

/-- VCOEF[k].PHASE, by phase, 8 taps (R244, R245, R254). -/
def vcoefDflt : List Nat :=
  [0x20FFAD0084035E0084FFAD00200000,
   0x1FFFB10077035D0092FFA900210000,
   0x1EFFB5006A035E009FFFA50022FFFF,
   0x1DFFB8005D035D00ADFFA20023FFFF,
   0x1CFFBC0051035C00BBFF9E0023FFFF,
   0x1BFFC00045035900CAFF9A0024FFFF,
   0x1AFFC40039035700D8FF970025FFFE,
   0x19FFC8002E035300E7FF940025FFFE,
   0x18FFCC0023034F00F6FF900026FFFE,
   0x17FFD00018034B0105FF8D0026FFFE,
   0x15FFD4000D03470115FF8A0027FFFD,
   0x14FFD8000303420124FF870027FFFD,
   0x13FFDCFFF9033B0134FF850027FFFD,
   0x12FFDFFFF003350143FF820028FFFD,
   0x11FFE3FFE6032E0153FF800028FFFD,
   0x10FFE7FFDE03250163FF7E0028FFFD] ++
  [0xFFFEAFFD5031E0173FF7C0028FFFD,
   0xEFFEEFFCD03160183FF7A0027FFFD,
   0xDFFF1FFC5030E0193FF780027FFFD,
   0xCFFF5FFBE030301A3FF770027FFFD,
   0xBFFF8FFB702FB01B2FF760026FFFD,
   0xAFFFBFFB002F101C2FF750026FFFD,
   0x9FFFEFFAA02E601D2FF750025FFFD,
   0x80001FFA402DC01E2FF740024FFFD,
   0x70004FF9E02D101F1FF740023FFFE,
   0x60007FF9902C50201FF740022FFFE,
   0x5000AFF9402B90210FF750021FFFE,
   0x4000CFF9002AB0220FF760020FFFF,
   0x4000FFF8C029E022FFF77001EFFFF,
   0x30011FF880292023EFF78001DFFFF,
   0x20013FF840286024CFF7A001B0000,
   0x20015FF810278025BFF7C00190000] ++
  [0x10017FF7F02690269FF7F00170001,
   0x19FF7C025B0278FF8100150002,
   0x1BFF7A024C0286FF8400130002,
   0xFFFF001DFF78023E0292FF8800110003,
   0xFFFF001EFF77022F029EFF8C000F0004,
   0xFFFF0020FF76022002ABFF90000C0004,
   0xFFFE0021FF75021002B9FF94000A0005,
   0xFFFE0022FF74020102C5FF9900070006,
   0xFFFE0023FF7401F102D1FF9E00040007,
   0xFFFD0024FF7401E202DCFFA400010008,
   0xFFFD0025FF7501D202E6FFAAFFFE0009,
   0xFFFD0026FF7501C202F1FFB0FFFB000A,
   0xFFFD0026FF7601B202FBFFB7FFF8000B,
   0xFFFD0027FF7701A30303FFBEFFF5000C,
   0xFFFD0027FF780193030EFFC5FFF1000D,
   0xFFFD0027FF7A01830316FFCDFFEE000E] ++
  [0xFFFD0028FF7C0173031EFFD5FFEA000F,
   0xFFFD0028FF7E01630325FFDEFFE70010,
   0xFFFD0028FF800153032EFFE6FFE30011,
   0xFFFD0028FF8201430335FFF0FFDF0012,
   0xFFFD0027FF850134033BFFF9FFDC0013,
   0xFFFD0027FF87012403420003FFD80014,
   0xFFFD0027FF8A01150347000DFFD40015,
   0xFFFE0026FF8D0105034B0018FFD00017,
   0xFFFE0026FF9000F6034F0023FFCC0018,
   0xFFFE0025FF9400E70353002EFFC80019,
   0xFFFE0025FF9700D803570039FFC4001A,
   0xFFFF0024FF9A00CA03590045FFC0001B,
   0xFFFF0023FF9E00BB035C0051FFBC001C,
   0xFFFF0023FFA200AD035D005DFFB8001D,
   0xFFFF0022FFA5009F035E006AFFB5001E,
   0x21FFA90092035D0077FFB1001F]

end Sys2Proof.Machine
end

