-- ==== Sys2Proof/Machine/Hidden.lean ====
section
/-! DEFINITION. Registers the spec names or implies outside the object dictionary. Each family of them has a number `c` and stands at
`hk c i`, above every dictionary address; each holds 0 at reset (a list: nothing). -/
namespace Sys2Proof.Machine.H

/-- Register `i` of family `c`. -/
def hk (c i : Nat) : Nat := (c + 1) * 16777216 + i

/-- 1 us ticks since the power came on (R92, R381). -/
def now : Nat := hk 0 0
/-- The timescale TS[j] of selector j, in ns (R91, R106). -/
def tsNs (j : Nat) : Nat := hk 1 j
/-- The fraction of a ns of TS[j], in units of 1/(2^32 * 10^6) ns (R91). -/
def tsFrac (j : Nat) : Nat := hk 2 j
/-- Warm resets since the last power-on or pin reset (R382). -/
def warm : Nat := hk 3 0
/-- The event sequence number of the newest event (R383). -/
def evSeq : Nat := hk 4 0
/-- Occurrences since the last event of a source limited to one event a second. -/
def limCnt (i : Nat) : Nat := hk 5 i
/-- One more than the tick of the last event of a source limited to one event a second; 0 before the first. -/
def limLast (i : Nat) : Nat := hk 6 i
/-- The challenge last sent to session i (R75). -/
def chal (i : Nat) : Nat := hk 7 i
/-- 1 while the challenge of session i may serve one AUTH (R75). -/
def chalLive (i : Nat) : Nat := hk 8 i
/-- The token of session i (R87). -/
def token (i : Nat) : Nat := hk 9 i
/-- Consecutive failed AUTH of session i (R76). -/
def fails (i : Nat) : Nat := hk 10 i
/-- Tick of the last valid request of session i (R72). -/
def lastReq (i : Nat) : Nat := hk 11 i
/-- Tick at which session i was suspended (R72). -/
def suspAt (i : Nat) : Nat := hk 12 i
/-- One more than the session record that committed salvo i; 0 for none (R82). -/
def slvSess (i : Nat) : Nat := hk 13 i
/-- Bits 2 to 4 of the SPI status byte: CRC_ERR, OVERRUN, FRAME_ERR (R88). -/
def spiErr : Nat := hk 14 0
/-- 1 when candidate k has been QUALIFIED since power-on or since a rank of 0 was last changed to non-zero (R96). -/
def refQual (k : Nat) : Nat := hk 15 k
/-- Tick at which the QUAL_TIME or WTR timer of candidate k expires (R96). -/
def refTimer (k : Nat) : Nat := hk 16 k
/-- Tick at which the loss period of candidate k expires (R92). -/
def refLoss (k : Nat) : Nat := hk 17 k
/-- Tick at which candidate k last left QUALIFIED (R103). -/
def refLeft (k : Nat) : Nat := hk 18 k
/-- List: the last 10 OFFSET readings of candidate k, newest first (R94). -/
def refHist (k : Nat) : Nat := hk 19 k
/-- One more than the tick from which PHASE_ERR has stayed within LOCK_PHASE; 0 outside (R102). -/
def lockFrom (j : Nat) : Nat := hk 20 j
/-- Tick at which the selector entered holdover (R103). -/
def holdAt (j : Nat) : Nat := hk 21 j
/-- Tick at which the announce receipt timeout of port p expires; 0 none (R108). -/
def annEnd (p : Nat) : Nat := hk 22 p
/-- The data set of the best master of port p, as priority1, class, accuracy, variance, priority2, identity and steps, packed (R108). -/
def ptpBest (p : Nat) : Nat := hk 23 p
/-- 1 while PPS_OUT is high (R107). -/
def ppsOut : Nat := hk 24 0
/-- Tick at which PPS_OUT falls (R107). -/
def ppsOff : Nat := hk 25 0
/-- Tick at which GSYN[g] entered ACQUIRING (R115). -/
def gAcq (g : Nat) : Nat := hk 26 g
/-- Tick at which a RELOCK 1 of GSYN[g] ends without lock; 0 none (R116). -/
def gRelock (g : Nat) : Nat := hk 27 g
/-- One more than the RATE in effect at GSYN[g]; 0 before the first start (R114). -/
def gRate (g : Nat) : Nat := hk 28 g
/-- 1 while a developed RATE or PHASE_OFFSET waits for the switch-line instant (R114). -/
def gPend (g : Nat) : Nat := hk 29 g
/-- Tick from which the frequency profile of GSYN[g] runs (R112, R117). -/
def gAt (g : Nat) : Nat := hk 30 g
/-- List: the profile's pieces, each duration in us, first and last offset in ppb as 64-bit two's complement (R112, R117). -/
def gProf (g : Nat) : Nat := hk 31 g
/-- The offset in ppb, 64-bit two's complement, a slew adds to (R112). -/
def gBase (g : Nat) : Nat := hk 32 g
/-- The distance in ns, 64-bit two's complement, the running slew covers (R112). -/
def gDist (g : Nat) : Nat := hk 33 g
/-- Tick at which the running slew or ramp segment ends (R112, R117). -/
def gEnd (g : Nat) : Nat := hk 34 g
/-- Tick at which the running slew began (R112). -/
def gStart (g : Nat) : Nat := hk 35 g
/-- Phase step in ns, 64-bit two's complement, that waits for a ramp profile to end (R117). -/
def gWait (g : Nat) : Nat := hk 36 g
/-- Displacement in ns, 64-bit two's complement, that a GSYN absorbs once LOCKED (R116). -/
def gLate (g : Nat) : Nat := hk 37 g
/-- 1 once GSYN[g] has taken its frame phase from DIVSYNC (R118). -/
def gDivsync (g : Nat) : Nat := hk 38 g
/-- One more than the tick of the last accepted DIVSYNC edge; 0 before the first (R118). -/
def divAt : Nat := hk 39 0
/-- Tick of the last DIVSYNC restart of the divider of CLKOUT[c] (R118). -/
def divRestart (c : Nat) : Nat := hk 40 c
/-- 1 while the PLL of TXQ[q] is frozen (R116). -/
def txFrozen (q : Nat) : Nat := hk 41 q
/-- The frozen control word of SYSPLL (0), AUDPLL (1) and the TX quad PLLs (16 + q) (R116). -/
def pllWord (x : Nat) : Nat := hk 42 x
/-- List: the phase steps OUT[n] has to absorb, each the frame that absorbs it (2^48: the first one it sends) and its ns as 64-bit two's
complement (R111). -/
def outStep (n : Nat) : Nat := hk 43 n
/-- 1 while a management pair is active (R35, R356). -/
def mgmtOn : Nat := hk 44 0
/-- List: the frame store's allocations, each id, address, bytes; id b buffer, 4096 + b its mirror, 8192 + i RING[i], 12288 + i its mirror (R220, R227, R228). -/
def allocs : Nat := hk 45 0
/-- 1 while a free of BUF[b] is pending (R222). -/
def bufFree (b : Nat) : Nat := hk 46 b
/-- 1 while BUF[b].PITCH was written as 0, the minimum (R220). -/
def bufMin (b : Nat) : Nat := hk 47 b
/-- The STACK last written for BUF[b] (R220). -/
def bufStk (b : Nat) : Nat := hk 48 b
/-- Readers that left BUF[b] and whose switch line has not come (R221). -/
def leaveCnt (b : Nat) : Nat := hk 49 b
/-- List: buffers reader r (output r, or 64 + e for canvas e) has left since its last switch line (R221). -/
def outLeave (r : Nat) : Nat := hk 50 r
/-- One more than the stamp in ns of slot x mod 4 of the ring of IN[x / 4]; 0 while the slot holds no frame (R180). -/
def slotAt (x : Nat) : Nat := hk 51 x
/-- Format of the frame in that slot (R184). -/
def slotFmt (x : Nat) : Nat := hk 52 x
/-- 1 once that slot is written completely (R184). -/
def slotFull (x : Nat) : Nat := hk 53 x
/-- Bytes used in the ANC area of that slot (R227). -/
def slotAnc (x : Nat) : Nat := hk 54 x
/-- Frames written since the mirror of RING[i] was placed (R228). -/
def ringSince (i : Nat) : Nat := hk 55 i
/-- One more than the master a target port granted last (R233). -/
def lastGrant (t : Nat) : Nat := hk 56 t
/-- One more than the master that holds a lock at a target (R235). -/
def lockBy (t : Nat) : Nat := hk 57 t
/-- Bursts of the locked sequence at a target (R235). -/
def lockCnt (t : Nat) : Nat := hk 58 t
/-- Tick at which LOCK_TIMEOUT of the lock at a target expires (R235). -/
def lockEnd (t : Nat) : Nat := hk 59 t
/-- 1 while the next burst of master x / 128 to target x mod 128 gets FAULT (R235). -/
def lockBroken (x : Nat) : Nat := hk 60 x
/-- 1 while pseudo-channel x mod 32 of stack x / 32 has failed (R229). -/
def pcFailed (x : Nat) : Nat := hk 61 x
/-- 1 while slot x mod 32 of stack x / 32 has no pseudo-channel (R229). -/
def slotDead (x : Nat) : Nat := hk 62 x
/-- 1 while slot x mod 32 of stack x / 32 is being rebuilt and is read from mirrors (R229). -/
def slotRebuild (x : Nat) : Nat := hk 63 x
/-- Stack offset the scrubber has reached (R216). -/
def scrubPos : Nat := hk 64 0
/-- List: the ticks, newest first, of the uncorrectable reads of pseudo-channel i mod 32 of stack i / 32 within the last second (R347). -/
def pcErr (i : Nat) : Nat := hk 65 i
/-- One more than the buffer a Copy Stand operation began to write while it was not guarded; 0 none (R225, R340). -/
def cstExempt : Nat := hk 66 0
/-- List: the bytes of the last read burst closed for master m (R232). -/
def busData (m : Nat) : Nat := hk 67 m
/-- List: the objects unit u (its bit in UMASK) has developed since its last switch line (R127, R185). -/
def airDue (u : Nat) : Nat := hk 68 u
/-- List: the pixel words of picture row x mod 8192 that crossbar destination x / 8192 last took (R16, R22). -/
def xbRow (x : Nat) : Nat := hk 69 x
/-- One more than the ring slot layer x shows in the present canvas frame; 0 none (R260). -/
def laySlot (x : Nat) : Nat := hk 70 x
/-- One more than the slot of the key input's ring layer x shows; 0 none (R260). -/
def layKeySlot (x : Nat) : Nat := hk 71 x
/-- The field layer x shows of its slot, of a deinterlaced ring: 0 first, 1 second (R260). -/
def layField (x : Nat) : Nat := hk 72 x
/-- Fields of one source layer x has shown since its history began (R249). -/
def layHist (x : Nat) : Nat := hk 73 x
/-- 1 while the source of layer x is lost (R262). -/
def layLost (x : Nat) : Nat := hk 74 x
/-- Canvas frames layer x has been lost (R285). -/
def layLostCnt (x : Nat) : Nat := hk 75 x
/-- List: the pictures stream x = 4 f + k holds, oldest first, each content time and stamp in ns and the slot it lies in (R294). -/
def frcPics (x : Nat) : Nat := hk 76 x
/-- List: the pixel words of row x mod 8192 of slot x / 8192 mod 16 of stream x / 131072 (R289, R305). -/
def frcRow (x : Nat) : Nat := hk 77 x
/-- List: the forward vector field of the pair whose picture A lies in slot x mod 16 of stream x / 16 (R297). -/
def frcFwd (x : Nat) : Nat := hk 78 x
/-- List: the backward vector field of that pair (R297). -/
def frcBwd (x : Nat) : Nat := hk 79 x
/-- List: the confidence of each block of that pair (R298). -/
def frcConf (x : Nat) : Nat := hk 80 x
/-- One more than the slot of picture A of the last output frame of stream x; 0 black (R295, R303). -/
def frcA (x : Nat) : Nat := hk 81 x
/-- One more than the slot of picture B of that frame (R295). -/
def frcB (x : Nat) : Nat := hk 82 x
/-- List: the repeat flags of the last wire frames of stream x, newest first (R301). -/
def frcFlags (x : Nat) : Nat := hk 83 x
/-- The content time in ns that opened the present 3:2 grid of stream x (R301). -/
def frcBase (x : Nat) : Nat := hk 84 x
/-- Distinct pictures since then (R301). -/
def frcCount (x : Nat) : Nat := hk 85 x
/-- One more than the content time in ns of the newest picture stream x has taken as B (R308). -/
def frcLastB (x : Nat) : Nat := hk 86 x
/-- One more than the content time in ns of the picture the last SYNC or PASS frame of stream x showed (R296). -/
def frcShown (x : Nat) : Nat := hk 87 x
/-- Output frames of stream x still to be made in BLEND (R303, R305). -/
def frcBlend (x : Nat) : Nat := hk 88 x
/-- Frames stream x has sent under its loss policy since it was lost (R309). -/
def frcLostCnt (x : Nat) : Nat := hk 89 x
/-- 1 from the loss of the source of stream x until it is RUNNING again (R304). -/
def frcWasLost (x : Nat) : Nat := hk 90 x
/-- One more than the slot of the last wire frame's picture of stream x (R301). -/
def frcPrev (x : Nat) : Nat := hk 91 x
/-- The path of R24 admission gave the route of OUT[n]: 0 none, 1 DIRECT, 2 STORED, 3 PROCESSED (R176). -/
def outPath (n : Nat) : Nat := hk 92 n
/-- Member x mod 16 of the contract the developed route of OUT[x / 16] will have from its cut (R207). -/
def con (x : Nat) : Nat := hk 93 x
/-- 1 while a developed route of OUT[n] waits for a slot (R182). -/
def prime (n : Nat) : Nat := hk 94 n
/-- Output frames since then (R195). -/
def primeCnt (n : Nat) : Nat := hk 95 n
/-- 1 from the development of a route change of OUT[n] to its cut (R185). -/
def cutDue (n : Nat) : Nat := hk 96 n
/-- Loss of the source of OUT[n]: 0 none, 1 declared in the present frame, 2 under the loss policy (R184). -/
def lossPh (n : Nat) : Nat := hk 97 n
/-- One more than the slot frozen by a loss at OUT[n]; 0 none (R184). -/
def lossSlot (n : Nat) : Nat := hk 98 n
/-- 1 while the key input of the route of OUT[n] is lost (R192). -/
def keyLost (n : Nat) : Nat := hk 99 n
/-- One more than the slot OUT[n] reads in the present frame; 0 none (R181). -/
def outSlot (n : Nat) : Nat := hk 100 n
/-- One more than the slot of the key input's ring OUT[n] reads (R192). -/
def outKeySlot (n : Nat) : Nat := hk 101 n
/-- One more than the slot of the backup's or primary's ring that stands for it (R149). -/
def outPartSlot (n : Nat) : Nat := hk 102 n
/-- One more than the time of day in ns at which IN[i] last became VALID; 0 while it is not (R184). -/
def validAt (i : Nat) : Nat := hk 103 i
/-- List: tick and PHASE of input x / 8 for family x mod 8, over the last second, newest first (R177). -/
def phaseHist (x : Nat) : Nat := hk 104 x
/-- One more than the frame counter of OUT[n] whose window loss was counted as a violation (R208). -/
def violFrame (n : Nat) : Nat := hk 105 n
/-- One more than the input whose ring layer x reads; 0 its own source's (R148, R260). -/
def layRing (x : Nat) : Nat := hk 106 x
/-- One more than the input whose ring OUT[n] reads in the present frame; 0 none (R148, R181). -/
def outRing (n : Nat) : Nat := hk 107 n
/-- One more than the other input of the pair OUT[n] reads; 0 none (R149). -/
def outPartRing (n : Nat) : Nat := hk 108 n
/-- The rate class IN[n] tries now, 0 for 11.88 Gb/s to 4 for 270 Mb/s (R135). -/
def cdrTry (n : Nat) : Nat := hk 109 n
/-- Tick from which it tries it (R135). -/
def cdrAt (n : Nat) : Nat := hk 110 n
/-- List: the last frame's measurement of IN[n]: samples, lines, active lines, interlaced, mapping, sampling, format code (R136). -/
def meas (n : Nat) : Nat := hk 111 n
/-- The frame period in ps measured with it (R136). -/
def measPs (n : Nat) : Nat := hk 112 n
/-- One more than the format code IN[n] itself measured over 2 frames; 0 none (R136, R145). -/
def linkFmt (n : Nat) : Nat := hk 113 n
/-- The format code IN[n] had when it was last VALID (R148). -/
def lastFmt (n : Nat) : Nat := hk 114 n
/-- Frames since the last valid payload identifier of IN[n], at most 3 (R137). -/
def pidAge (n : Nat) : Nat := hk 115 n
/-- Tick of the last valid TRS of IN[n] (R92). -/
def trsAt (n : Nat) : Nat := hk 116 n
/-- Offset from its expected position of the last misplaced TRS of IN[n], 32-bit two's complement (R138). -/
def trsOff (n : Nat) : Nat := hk 117 n
/-- Consecutive lines on which it was found there (R138). -/
def trsRun (n : Nat) : Nat := hk 118 n
/-- Lines of the present frame of IN[n] with a failing CRC (R148). -/
def crcFrame (n : Nat) : Nat := hk 119 n
/-- Active lines written to the present slot of the ring of IN[n] (R180). -/
def rxRows (n : Nat) : Nat := hk 120 n
/-- List: the pixel words of the line IN[n] received last (R19). -/
def rxLine (n : Nat) : Nat := hk 121 n
/-- List: the pixel words of the last active line of field x mod 2 of IN[x / 2] (R139). -/
def rxAct (x : Nat) : Nat := hk 122 x
/-- Line on which packets of link x mod 16 of IN[x / 16] are counted (R142). -/
def ancLine (x : Nat) : Nat := hk 123 x
/-- Non-audio packets forwarded of that line (R142). -/
def ancCnt (x : Nat) : Nat := hk 124 x
/-- Audio packets of that line (R142). -/
def ancAud (x : Nat) : Nat := hk 125 x
/-- List: the packets IN[n] has forwarded in the present frame, as the bytes of R227 (R141). -/
def ancFwd (n : Nat) : Nat := hk 126 n
/-- Frames of IN[n] since it was reset (R58). -/
def inFrame (n : Nat) : Nat := hk 127 n
/-- 2 in the frame in which IN[n] failed, 1 in the next, else 0 (R148). -/
def brFail (n : Nat) : Nat := hk 128 n
/-- Consecutive healthy frames of the primary IN[n] (R150). -/
def brHealthy (n : Nat) : Nat := hk 129 n
/-- Frame counter of the last complete frame of IN[n] (R153). -/
def brFrame (n : Nat) : Nat := hk 130 n
/-- How many frames in a row carried the timecode label of IN[n] (x = 2 n, LTC; 2 n + 1, VITC), 8 more while the first of them may have been
missed; 0 none (R144). -/
def tcHold (x : Nat) : Nat := hk 131 x
/-- The Enlargers admission gave layer x: 64 times (64 times the taps plus the stripe partner plus 1) plus the single or lead Enlarger plus 1; 0 none (R203, R251). -/
def layEnl (x : Nat) : Nat := hk 132 x
/-- List: salvo and grant number of the commits unit u (its bit in UMASK) has developed and not yet counted (R187). -/
def devWait (u : Nat) : Nat := hk 133 u
/-- One more than the salvo unit u developed last, until its record is written (R52). -/
def devSalvo (u : Nat) : Nat := hk 134 u
/-- 1 while DEV.FRAME and DEV.TIME of unit u wait for its switch line (R52, R187). -/
def devFrame (u : Nat) : Nat := hk 135 u
/-- List: grant number and predicted frame of the commits unit u has not developed (R52, R69). -/
def pred (u : Nat) : Nat := hk 136 u
/-- 1 from the development point of unit u to its switch line (R48). -/
def devPassed (u : Nat) : Nat := hk 137 u
/-- 1 once the pending flip of layer x has raised LAYER_FLIP_PENDING (R275). -/
def layRaised (x : Nat) : Nat := hk 138 x
/-- One more than the LAST_OUTCOME of layer x that returns after a canvas frame of REPLACED; 0 none (R274). -/
def layOut (x : Nat) : Nat := hk 139 x
/-- 1 from a flip of layer x to its canvas switch line (R277). -/
def layFlip (x : Nat) : Nat := hk 140 x
/-- 1 from a development of OUT[n] to its switch line (R127). -/
def outDev (n : Nat) : Nat := hk 141 n
/-- 1 while PRF[p] learns the next signature (R281). -/
def prfLearn (p : Nat) : Nat := hk 142 p
/-- 1 once a ONE_FRAME write-back of EAS[e] has ended and its claim is released (R278). -/
def wbDone (e : Nat) : Nat := hk 143 e
/-- The line OUT[n] sends now (R123). -/
def outLineNo (n : Nat) : Nat := hk 144 n
/-- List: the wire samples of the active part of the line OUT[n] sends now; link k of a quad stands at n + k (R168). -/
def outLine (n : Nat) : Nat := hk 145 n
/-- List: the wire samples of the last active line sent of field x mod 2 of OUT[x / 2] (R130). -/
def lastAct (x : Nat) : Nat := hk 146 x
/-- Held lines of the present frame of OUT[n] (R173). -/
def heldCnt (n : Nat) : Nat := hk 147 n
/-- 16,384 minus the lowest FETCH.LEVEL of the present frame of OUT[n] (R129). -/
def fetchLow (n : Nat) : Nat := hk 148 n
/-- Slate of OUT[n] at the next switch line: 1 insert, 2 remove (R171). -/
def slatePend (n : Nat) : Nat := hk 149 n
/-- Cause of the slate of OUT[n] as SLATE_ON gives it (R173). -/
def slateCause (n : Nat) : Nat := hk 150 n
/-- Frames OUT[n] has been on slate (R173). -/
def slateCnt (n : Nat) : Nat := hk 151 n
/-- Consecutive frames in which the Proof regions of OUT[n] have matched (R171). -/
def slateClean (n : Nat) : Nat := hk 152 n
/-- Frames OUT[n] has been in takeover (R173). -/
def tkCnt (n : Nat) : Nat := hk 153 n
/-- One more than the cause of the takeover of OUT[n] while that cause persists (R170). -/
def tkCause (n : Nat) : Nat := hk 154 n
/-- 1 while a release of OUT[n] waits for its switch line (R170). -/
def tkRel (n : Nat) : Nat := hk 155 n
/-- N of the frame OUT[n] sends, 64-bit two's complement (R131). -/
def outAdj (n : Nat) : Nat := hk 156 n
/-- 1 while the frame OUT[n] sends is adjusted (R131). -/
def outAdjOn (n : Nat) : Nat := hk 157 n
/-- The timecode OUT[n] sends in the present frame, as TC.LTC; TC_MODE 1 to 3 (R166). -/
def outTc (n : Nat) : Nat := hk 158 n
/-- One more than the buffer OUT[n] scans in the present frame; 0 none (R127). -/
def outBuf (n : Nat) : Nat := hk 159 n
/-- List: the forwarded packets embedded on the line OUT[n] sends now, as the bytes of R227 (R165). -/
def outAnc (n : Nat) : Nat := hk 160 n
/-- List: the packets IN[n] forwarded in its last whole frame (R165). -/
def ancPrev (n : Nat) : Nat := hk 161 n
/-- One more than the frame counter of OUT[n] in which LINE_MATCH was raised (R128). -/
def lmFrame (n : Nat) : Nat := hk 162 n
/-- The CRC register of PRF[p] over the rows of the present frame so far (R280). -/
def prfCrc (p : Nat) : Nat := hk 163 p
/-- Rows of the SHADOW region PRF[p] that no shadow composed in the present frame (R281, R283). -/
def prfRows (p : Nat) : Nat := hk 164 p
/-- The CRC register of the shadow composition of PRF[p] (R283). -/
def prfShadow (p : Nat) : Nat := hk 165 p
/-- List: the picture rows crossbar destination d has taken in full and not yet sent on (R22). -/
def xbFresh (d : Nat) : Nat := hk 166 d
/-- List: the stamps in ns of the live sources in the frame canvas e shows (R208). -/
def eStamps (e : Nat) : Nat := hk 167 e
/-- One more than the lowest layer of EAS[e] that flipped at its last canvas switch line; 0 none (R127). -/
def easFlip (e : Nat) : Nat := hk 168 e
/-- One more than the output whose candidate state claimed the class of TXQ[q] (R158). -/
def txqClaim (q : Nat) : Nat := hk 169 q
/-- List: the wire samples of the last active programme line of field x mod 2 of OUT[x / 2], slate and takeover aside (R280). -/
def progAct (x : Nat) : Nat := hk 170 x
/-- Preferred plane of crossbar destination d: 0 XBA, 1 XBB, 2 none, while no plane may be (R22, R23). -/
def xbPref (d : Nat) : Nat := hk 171 d
/-- List: the ticks, newest first, at which segments of plane p failed within the last second while the other plane's passed (R349). -/
def xbFail (p : Nat) : Nat := hk 172 p
/-- The destinations, bit d for destination d, that plane p has carried one full frame of since its return (R23). -/
def xbRet (p : Nat) : Nat := hk 173 p
/-- The destinations, bit d for destination d, that changed preferred plane since the last PLANE_SWITCH (R364). -/
def xbMoved : Nat := hk 174 0
/-- Fields layer x has had computed intra-field since its history began (R249, R255). -/
def layIntra (x : Nat) : Nat := hk 175 x
/-- List: the samples of source channel c in its history line, newest first, each its source instant in ns and its 24-bit value (R314). -/
def audHist (c : Nat) : Nat := hk 176 c
/-- One more than the tick at which source channel c last received a valid sample (R313). -/
def ainLast (c : Nat) : Nat := hk 177 c
/-- Rate of group x mod 8 of AIN[x / 8]: 0 no control packet, 1 48 kHz, 2 another (R312). -/
def ainRate (x : Nat) : Nat := hk 178 x
/-- 1 once group x mod 8 of AIN[x / 8] has missed a sample period in the present frame (R313). -/
def ainGap (x : Nat) : Nat := hk 179 x
/-- 1 once that group has carried a sample in the present frame (R313). -/
def ainGot (x : Nat) : Nat := hk 180 x
/-- Consecutive frames in which that group was present throughout (R313). -/
def ainRun (x : Nat) : Nat := hk 181 x
/-- One more than the tick of the last ST 337 preamble of pair x mod 16 of AIN[x / 16] (R323). -/
def npAt (x : Nat) : Nat := hk 182 x
/-- Bursts seen since that pair became NONPCM (R331). -/
def npBursts (x : Nat) : Nat := hk 183 x
/-- Word length of the last burst of that pair: 16, 20 or 24 (R324). -/
def npMode (x : Nat) : Nat := hk 184 x
/-- List: the bursts of that pair, newest first, each the instants in ns of its first sample and after its last one (R324). -/
def npHist (x : Nat) : Nat := hk 185 x
/-- One more than the tick at which the rate of input x / 8 was last seen more than 1 ppm off the audio clock of family x mod 8 (R315). -/
def rateBad (x : Nat) : Nat := hk 186 x
/-- One more than the tick from which the audio rate of input i is measured (R315). -/
def rateFrom (i : Nat) : Nat := hk 187 i
/-- One more than the source AUD.DST[d] has had since its last switch line; 0 before the first (R321). -/
def audSrc (d : Nat) : Nat := hk 188 d
/-- List: what AUD.DST[d] mixes, oldest first, each source, delay in ns, 1 SYNC or 2 ASYNC, samples of its crossfade and samples done (R322). -/
def audMix (d : Nat) : Nat := hk 189 d
/-- One more than the gain factor a ramp of AUD.DST[d] starts from; 0 is 0 dB (R317). -/
def audGOld (d : Nat) : Nat := hk 190 d
/-- One more than the gain factor it goes to; 0 is 0 dB (R317). -/
def audGNew (d : Nat) : Nat := hk 191 d
/-- Samples of the gain ramp done (R317). -/
def audGK (d : Nat) : Nat := hk 192 d
/-- One more than the delay in ns a slew of AUD.DST[d] goes to; 0 no slew (R320). -/
def audGoal (d : Nat) : Nat := hk 193 d
/-- Delay in ns the slew started from. -/
def audFrom (d : Nat) : Nat := hk 194 d
/-- Tick at which the slew started. -/
def audAt (d : Nat) : Nat := hk 195 d
/-- One more than the DELAY of AUD.DST[d] at its last switch line (R320). -/
def audUsed (d : Nat) : Nat := hk 196 d
/-- One more than the cause while the source of AUD.DST[d] is lost (R322). -/
def audLost (d : Nat) : Nat := hk 197 d
/-- Samples AUD.DST[d] has been silent for a lost source (R331). -/
def audSilent (d : Nat) : Nat := hk 198 d
/-- One more than the tick from which the ratio of AUD.DST[d] has stayed within 1,900 ppm; 0 outside (R316). -/
def audIn (d : Nat) : Nat := hk 199 d
/-- One more than the input of a Bracket pair AUD.DST[d] reads (R322). -/
def audAct (d : Nat) : Nat := hk 200 d
/-- Phase of a tone at a destination that reads it, TONE[x mod 16] at AUD.DST[x / 16], in 1/48,000,000 of a turn (R318). -/
def tonePh (x : Nat) : Nat := hk 201 x
/-- The 24-bit sample AUD.DST[d] made last (R314). -/
def audOut (d : Nat) : Nat := hk 202 d
/-- One more than the sample the embedder sends for AUD.DST[d], as embedded; 0 none (R325). -/
def audWire (d : Nat) : Nat := hk 203 d
/-- The 24 bytes of channel status sent with the pair of AUD.DST[d], d even (R325). -/
def csOut (d : Nat) : Nat := hk 204 d
/-- One more than the samples a switch of the non-PCM pair of AUD.DST[d] has waited for a guard band; 0 none waits (R324). -/
def npPend (d : Nat) : Nat := hk 205 d
/-- List: source, delay in ns and clock of that switch. -/
def npCfg (d : Nat) : Nat := hk 206 d
/-- One more than the instant in ns from which AUD.DST[d] sends zero until its source's next burst; 0 none (R324). -/
def npZero (d : Nat) : Nat := hk 207 d
/-- 1 once AUD.DST[d] has raised NONPCM_ASYNC for its present block (R324). -/
def audAsync (d : Nat) : Nat := hk 208 d
/-- One more than the address of the first read of the running Copy Stand operation that failed; 0 none (R341). -/
def cstErr : Nat := hk 209 0
/-- Bytes in the Copy Stand's bucket of stack q (R343). -/
def cstBucket (q : Nat) : Nat := hk 210 q
/-- One more than the first row of the present frame that the live-layer port of logical cluster c took after a failover; 1,048,576 until that row arrives, 0 none (R351). -/
def liveFrom (c : Nat) : Nat := hk 211 c
/-- One more than the ROTATING Easel the Test Strip shadows in free shadow slot x; 0 none (R359). -/
def shTurn (x : Nat) : Nat := hk 212 x
/-- Canvas frames left to it (R359). -/
def shLeft (x : Nat) : Nat := hk 213 x
/-- The ROTATING Easel whose turn began last (R359). -/
def shLast : Nat := hk 214 0
/-- One more than the failed physical cluster a failover runs for; 0 none (R350). -/
def foFrom : Nat := hk 215 0
/-- The spare that loads its state. -/
def foTo : Nat := hk 216 0
/-- One more than the physical cluster T a rotation takes over; 0 none (R360). -/
def rotT : Nat := hk 217 0
/-- The spare P it moves to. -/
def rotP : Nat := hk 218 0
/-- The logical cluster it moves. -/
def rotC : Nat := hk 219 0
/-- 1 shadow frames, 2 moving, 3 moving after P passed its self-test and T was declared failed (R360, R361). -/
def rotPhase : Nat := hk 220 0
/-- Tick at which the rotation started. -/
def rotAt : Nat := hk 221 0
/-- Units of the logical cluster that have moved, bits 0 and 1 its Easels, 2 and 3 its FRCs (R360). -/
def rotMoved : Nat := hk 222 0
/-- One more than T after a mismatch, while P runs its self-test; 0 none (R361). -/
def rotMis : Nat := hk 223 0
/-- 1 once the spare has passed its last self-test (R360). -/
def spareOk : Nat := hk 224 0
/-- Order in which physical cluster p was last the spare; 0 never (R360). -/
def wasSpare (p : Nat) : Nat := hk 225 p
/-- The last order given. -/
def wasCtr : Nat := hk 226 0
/-- One more than the cause of a switchover that has begun and not completed; 0 none (R356). -/
def mgmtCause : Nat := hk 227 0
/-- 1 while a ONE_FRAME write-back of EAS[e] is to be repeated after a failover (R351). -/
def wbRedo (e : Nat) : Nat := hk 228 e
/-- The level of GPIO ball p from outside, after the filter, 1 high (R396). -/
def pinIn (p : Nat) : Nat := hk 229 p
/-- The ARG in effect at GPIO pin p (R397). -/
def pinArg (p : Nat) : Nat := hk 230 p
/-- The POLARITY in effect at GPIO pin p (R397). -/
def pinPol (p : Nat) : Nat := hk 231 p
/-- One more than the tick at which the EVENT_OUT pulse of pin p ends; 0 none (R396). -/
def pinEnd (p : Nat) : Nat := hk 232 p
/-- What a REFSTAT_COPY or SPI_ATTN pin showed at its last edge: 1 more than the code (R397). -/
def pinSeen (p : Nat) : Nat := hk 233 p
/-- Entries POST still records (R384). -/
def negLeft : Nat := hk 234 0
/-- 1 while a RELEASE waits for the end of its tick (R385). -/
def negRel : Nat := hk 235 0
/-- 1 while an automatic print waits for another print to end (R387). -/
def negAuto : Nat := hk 236 0
/-- The slot a print goes to (R387). -/
def printSlot : Nat := hk 237 0
/-- 0 command, 1 freeze (R388). -/
def printCause : Nat := hk 238 0
/-- WRITTEN when the print began (R388). -/
def printFrom : Nat := hk 239 0
/-- Prints since the part was made, kept in flash (R388). -/
def printSeq : Nat := hk 240 0
/-- The tick from which the next domain's switch may close (R369). -/
def pdNext : Nat := hk 241 0
/-- One more than the tick of the last ENABLE 1 of domain i (R372). -/
def pdOn (i : Nat) : Nat := hk 242 i
/-- The time of day in ns at which the history lines of audio half h were cleared (R314, R369). -/
def audSince (h : Nat) : Nat := hk 243 h
/-- The tick at which the last reset was released (R377). -/
def relAt : Nat := hk 244 0
/-- 1 once RESET_RELEASE has ended a reset (R366). -/
def running : Nat := hk 245 0
/-- The cause of the reset that holds or held the part (R367). -/
def rstCause : Nat := hk 246 0
/-- The image slot management pair p runs or loads (R375). -/
def pairSlot (p : Nat) : Nat := hk 247 p
/-- FW_VERSION of the image pair p runs (R376). -/
def pairVer (p : Nat) : Nat := hk 248 p
/-- Security version of the image pair p runs (R375). -/
def pairSec (p : Nat) : Nat := hk 249 p
/-- Failed image loads of pair p since it started (R375). -/
def loadTry (p : Nat) : Nat := hk 250 p
/-- The tick until which an unconfirmed activation rolls back (R376). -/
def pendEnd : Nat := hk 251 0
/-- The image slot it rolls back to (R376). -/
def pendOld : Nat := hk 252 0
/-- FW_VERSION of that image (R376). -/
def pendOldVer : Nat := hk 253 0
/-- 1 while the part serves in RECOVERY (R375). -/
def recov : Nat := hk 254 0
/-- 1 once BOOT_DONE has been raised since the reset (R377). -/
def booted : Nat := hk 255 0
/-- 1 while a warm reset waits for its answer to be sent (R367). -/
def warmPend : Nat := hk 256 0
/-- One more than the slot FW.VERIFY checks; 0 none (R376). -/
def verify : Nat := hk 257 0
/-- The sector being erased (R376). -/
def eraseAt : Nat := hk 258 0
/-- The format of IN[i] when RING[i] was placed (R180, R200). -/
def ringFmt (i : Nat) : Nat := hk 259 i
/-- One more than the output that holds TPG[t]; 0 none (R194). -/
def tpgHold (t : Nat) : Nat := hk 260 t
/-- One more than the tick of the last trigger of GPIO pin p; 0 once its 10 ms are over (R190).. -/
def trigHold (p : Nat) : Nat := hk 261 p
/-- 1 while session i is sent nothing, its address of the port having changed (R64). -/
def sessMute (i : Nat) : Nat := hk 262 i
/-- One more than the tick at whose switch-line instant the family of the stopped OUT[n] changed its grid (R114); 0 none. -/
def outStepAt (n : Nat) : Nat := hk 263 n
/-- The part's address the last valid request of session i was sent to (R63). -/
def sessOwn (i : Nat) : Nat := hk 264 i
/-- One more than the identity of the grandmaster PTP port p last followed; 0 none (R109). -/
def ptpGm (p : Nat) : Nat := hk 265 p
/-- The second of the time of day at which the UTC offset that port p's master announced jumps; 0 none (R108). -/
def ptpJumpAt (p : Nat) : Nat := hk 266 p
/-- By how many seconds it jumps, 16-bit two's complement (R108). -/
def ptpJump (p : Nat) : Nat := hk 267 p
/-- One more than the UTC offset, 16-bit two's complement, that port p's master announced; 0 none (R107, R108). -/
def ptpUtc (p : Nat) : Nat := hk 268 p
/-- List, while WCKOUT moves its phase after a step of the time of day: the instant of its next edge, its level until then, and the
instant of the edge at which it is in phase, both in thirds of a ns (R112). -/
def wck : Nat := hk 269 0
/-- List: the clock CLKOUT[c] carries, as the numerator and denominator of its frequency in Hz and the ns of a rising edge, and, of the
change to it, the ns until which the pin stays high and then low (R119). -/
def clkWas (c : Nat) : Nat := hk 270 c
/-- The ns since the power came on at which the frame OUT[n] sends began (R111). -/
def outAt (n : Nat) : Nat := hk 271 n
/-- 1 once the slot x mod 32 of stack x / 32 has lost what no mirror keeps, the pseudo-channel it was on having failed (R229). -/
def slotLost (x : Nat) : Nat := hk 272 x
/-- List: the 32-byte units, address over 32, of that slot written since then (R229). -/
def slotHealed (x : Nat) : Nat := hk 273 x
/-- List: the 32-byte units, address over 32, whose last read was uncorrectable and has no mirror (R216). -/
def eccBad : Nat := hk 274 0
/-- List: the buffers whose retiring the end of the tick looks at (R224). -/
def retire : Nat := hk 275 0
/-- List: the buffers reader r (output r, or 64 + e for canvas e) still counts for, though a forced free has cancelled its reference
(R223). -/
def outForced (r : Nat) : Nat := hk 276 r
/-- 1 from the grant of the burst that ends the lock at a target to its completion (R235). -/
def lockClose (t : Nat) : Nat := hk 277 t
/-- Bursts of the locked sequence at a target that have completed (R239). -/
def lockDone (t : Nat) : Nat := hk 278 t
/-- List: the requests seen waiting at a target, each master, tag, address and the escalation class it was made with (R233, R234). -/
def waits (t : Nat) : Nat := hk 279 t
/-- How many lines numbered 1 the frame OUT[n] sends has begun: the inserted ones and the first one (R131). -/
def outOnes (n : Nat) : Nat := hk 280 n
/-- One more than the tick in which the event `b` of OUT[n] last set its PENDING bit; x = 4 n + b (R128). -/
def irqAt (x : Nat) : Nat := hk 281 x
/-- One more than the line OUT[n] sends, while that is a held line (R130, R170). -/
def heldAt (n : Nat) : Nat := hk 282 n
/-- The tick of the last frame boundary or interval latch of IN[n] (R59). -/
def inBoundAt (n : Nat) : Nat := hk 283 n
/-- The frame counter of OUT[n] when its timing generator started (R166). -/
def genFrame (n : Nat) : Nat := hk 284 n
/-- List: the four bytes of the payload identifier packet on the line that lane n sends; empty without one (R164, R168). -/
def outPid (n : Nat) : Nat := hk 285 n
/-- List: the measurement of IN[n] its format was taken from, as `meas` (R136). -/
def measOk (n : Nat) : Nat := hk 286 n
/-- One more than the frame counter of the last frame of OUT[n] in which the window of an elastic-FIFO hop was lost (R179, R208). -/
def violWin (n : Nat) : Nat := hk 287 n
/-- 1 while the slot RING[i].SLOT takes the lines of the present frame of IN[i] (R180). -/
def ringLive (i : Nat) : Nat := hk 288 i
/-- One more than the ns of the time of day at which link IN[n] of a quad last had its switch line (R145). -/
def linkAt (n : Nat) : Nat := hk 289 n
/-- One more than the ns of the time of day at which the stream assembled in RXQ[q] last began a frame (R145). -/
def quadAt (q : Nat) : Nat := hk 290 q
/-- List: the pairs whose inputs failed in this tick, each its primary and the cause (R148). -/
def brDue : Nat := hk 291 0
/-- List: row x mod 8192 of key input x / 8192 as its key FIFOs hold it, in crossbar words (R192). -/
def keyRow (x : Nat) : Nat := hk 292 x
/-- One more than the key slot that goes with the slot before the one layer x shows; 0 none (R248, R260). -/
def layPrevKey (x : Nat) : Nat := hk 293 x
/-- List: the canvases whose development point lies in this tick (R273). -/
def easDev : Nat := hk 294 0
/-- Signatures in a row of PRF[p] that did not match (R282, R285). -/
def prfBad (p : Nat) : Nat := hk 295 p
/-- 1 while the unit of crossbar source u, an Easel or FRC whose cluster has come back, waits for its next development point (R353). -/
def unitWait (u : Nat) : Nat := hk 297 u
/-- 1 after a stream has lost its source because no picture came, until one comes (R304). -/
def frcStale (x : Nat) : Nat := hk 298 x
/-- The format of a stream's source when its settings developed or its FRC started; 0 none (R292, R304). -/
def frcFmt (x : Nat) : Nat := hk 299 x
/-- List: what the audio control packets of OUT[n] declare: 1 for 48 kHz, 1 for synchronous, the audio frame number of a 1/1.001 rate
from 1 on or 0, the delay fields (R325). -/
def audCtl (n : Nat) : Nat := hk 300 n
/-- One more than the tick in which event `b` of the Copy Stand last set its bit of IRQ.PENDING (R128, R346). -/
def cstIrqAt (b : Nat) : Nat := hk 301 b
/-- 1 while the held load of stack st exceeds its reduced limit (R355). -/
def overLoad (st : Nat) : Nat := hk 302 st
/-- What the running counter at address `k` held before the tick in which it last rose (R379). -/
def cntWas (k : Nat) : Nat := hk 303 k
/-- One more than the tick in which the statistics whose TOTAL begins at address `k` were cleared (R379). -/
def clrAt (k : Nat) : Nat := hk 304 k
/-- One more than the tick in which the running counter at address `k` last rose; 0 none since its latch (R379). -/
def cntAt (k : Nat) : Nat := hk 306 k
/-- 1 from the end of the pulse of GPIO pin p to the end of that tick (R397). -/
def pinDue (p : Nat) : Nat := hk 305 p
end Sys2Proof.Machine.H
end

