-- ==== Sys2Proof/Machine/Keys.lean ====
section
/-! DEFINITION. The address of every object by the manual's own name (index times 256 plus subindex, R36), block by block.
An instance number comes first, then the number of a repeated member. -/
namespace Sys2Proof.Machine.K

/-- Address of `index.sub`. -/
def at' (index sub : Nat) : Nat := index * 256 + sub

/-- R27, RO. -/
def CLMAP_PHYS (j : Nat) : Nat := at' 0x1A00 (0x1 + j)
/-- R27, RO. -/
def CLMAP_SPARE : Nat := at' 0x1A00 0x9
/-- R27, RO. -/
def CLMAP_SEQ : Nat := at' 0x1A00 0xA
/-- R53, RO. -/
def COMMIT_NEXT_SEQ : Nat := at' 0x1400 0x1
/-- R53, RO. -/
def COMMIT_LAST_SALVO : Nat := at' 0x1400 0x2
/-- R53, RO. -/
def COMMIT_ADMITTED : Nat := at' 0x1400 0x3
/-- R53, RO. -/
def COMMIT_REFUSED : Nat := at' 0x1400 0x4
/-- R53, RW. -/
def COMMIT_AT_HORIZON : Nat := at' 0x1400 0x5
/-- R53, CMD. -/
def LATENT_DISCARD : Nat := at' 0x1401 0x0
/-- R53, RO. -/
def SLV_STATE (n : Nat) : Nat := at' (0x1440 + n) 0x1
/-- R53, RO. -/
def SLV_UNITS (n : Nat) : Nat := at' (0x1440 + n) 0x2
/-- R53, RO. -/
def SLV_SEQ (n : Nat) : Nat := at' (0x1440 + n) 0x3
/-- R53, RO. -/
def SLV_REASON (n : Nat) : Nat := at' (0x1440 + n) 0x4
/-- R53, RO. -/
def SLV_REFUSER (n : Nat) : Nat := at' (0x1440 + n) 0x5
/-- R53, RO. -/
def SLV_HOLDER (n : Nat) : Nat := at' (0x1440 + n) 0x6
/-- R53, RO. -/
def SLV_AT (n : Nat) : Nat := at' (0x1440 + n) 0x7
/-- R53, RO. -/
def SLV_FLAGS (n : Nat) : Nat := at' (0x1440 + n) 0x8
/-- R53, RO. -/
def SLV_DEV_COUNT (n : Nat) : Nat := at' (0x1440 + n) 0x9
/-- R53, RO. -/
def SLV_SUPERSEDED_COUNT (n : Nat) : Nat := at' (0x1440 + n) 0xA
/-- R53, RO. -/
def SLV_COMPLETE_TIME (n : Nat) : Nat := at' (0x1440 + n) 0xB
/-- R53, RW. -/
def SLV_TRIGGER (n : Nat) : Nat := at' (0x1440 + n) 0xC
/-- R53, CMD. -/
def SLV_CANCEL (n : Nat) : Nat := at' (0x1440 + n) 0xD
/-- R57, RO. -/
def IDENT_VENDOR : Nat := at' 0x1000 0x1
/-- R57, RO. -/
def IDENT_PART : Nat := at' 0x1000 0x2
/-- R57, RO. -/
def IDENT_STEPPING : Nat := at' 0x1000 0x3
/-- R57, RO. -/
def IDENT_FW_VERSION : Nat := at' 0x1000 0x4
/-- R57, RO. -/
def IDENT_FW_SLOT : Nat := at' 0x1000 0x5
/-- R57, RO. -/
def IDENT_GEN_MAX : Nat := at' 0x1000 0x6
/-- R57, RO. -/
def IDENT_GEN_MIN : Nat := at' 0x1000 0x7
/-- R57, RO. -/
def IDENT_SERIAL : Nat := at' 0x1000 0x8
/-- R57, RO. -/
def IDENT_CFG_SEQ : Nat := at' 0x1000 0x9
/-- R64, RW. -/
def CTL_MODE (n : Nat) : Nat := at' (0x1130 + 0x8 * n) 0x1
/-- R64, RW. -/
def CTL_ENABLE (n : Nat) : Nat := at' (0x1130 + 0x8 * n) 0x2
/-- R64, RO. -/
def CTL_MAC (n : Nat) : Nat := at' (0x1130 + 0x8 * n) 0x3
/-- R64, RO. -/
def CTL_LINK (n : Nat) : Nat := at' (0x1130 + 0x8 * n) 0x4
/-- R64, RW. -/
def CTL_IPV4_ADDR (n : Nat) : Nat := at' (0x1130 + 0x8 * n) 0x5
/-- R64, RW. -/
def CTL_IPV4_MASK (n : Nat) : Nat := at' (0x1130 + 0x8 * n) 0x6
/-- R64, RW. -/
def CTL_IPV4_GW (n : Nat) : Nat := at' (0x1130 + 0x8 * n) 0x7
/-- R64, RW. -/
def CTL_IPV6_ADDR (n : Nat) : Nat := at' (0x1130 + 0x8 * n) 0x8
/-- R64, RW. -/
def CTL_IPV6_PREFIX (n : Nat) : Nat := at' (0x1130 + 0x8 * n) 0x9
/-- R64, RW. -/
def CTL_IPV6_GW (n : Nat) : Nat := at' (0x1130 + 0x8 * n) 0xA
/-- R64, RO. -/
def CTL_QCP_PORT (n : Nat) : Nat := at' (0x1130 + 0x8 * n) 0xB
/-- R64, RO. -/
def CTL_RX_DISCARD (n : Nat) : Nat := at' (0x1130 + 0x8 * n) 0xC
/-- R73, RO. -/
def QCP_SESSIONS_OPEN : Nat := at' 0x1100 0x1
/-- R73, RW. -/
def QCP_SESSION_TIMEOUT : Nat := at' 0x1100 0x2
/-- R73, RW. -/
def QCP_RESUME_WINDOW : Nat := at' 0x1100 0x3
/-- R73, RW. -/
def QCP_VIEW_OPEN : Nat := at' 0x1100 0x4
/-- R73, RW. -/
def QCP_AUTH_FAIL_LIMIT : Nat := at' 0x1100 0x5
/-- R73, RW. -/
def QCP_REPLAY_WINDOW : Nat := at' 0x1100 0x6
/-- R73, RO. -/
def QCP_STALE_SEQ : Nat := at' 0x1100 0x7
/-- R73, WO. -/
def KEY (j : Nat) : Nat := at' (0x1101 + j) 0x0
/-- R74, RO. -/
def SESS_STATE (n : Nat) : Nat := at' (0x1110 + n) 0x1
/-- R74, RO. -/
def SESS_ID (n : Nat) : Nat := at' (0x1110 + n) 0x2
/-- R74, RO. -/
def SESS_GEN (n : Nat) : Nat := at' (0x1110 + n) 0x3
/-- R74, RO. -/
def SESS_RIGHTS (n : Nat) : Nat := at' (0x1110 + n) 0x4
/-- R74, RO. -/
def SESS_PORT (n : Nat) : Nat := at' (0x1110 + n) 0x5
/-- R74, RO. -/
def SESS_ADDR (n : Nat) : Nat := at' (0x1110 + n) 0x6
/-- R74, RO. -/
def SESS_UDP (n : Nat) : Nat := at' (0x1110 + n) 0x7
/-- R74, RO. -/
def SESS_LAST_SEQ (n : Nat) : Nat := at' (0x1110 + n) 0x8
/-- R74, RO. -/
def SESS_NOTIFY_SEQ (n : Nat) : Nat := at' (0x1110 + n) 0x9
/-- R74, RO. -/
def SESS_SUBS (n : Nat) : Nat := at' (0x1110 + n) 0xA
/-- R74, RO. -/
def SESS_IDLE (n : Nat) : Nat := at' (0x1110 + n) 0xB
/-- R83, RO. -/
def NOTIF_SUBS_IN_USE : Nat := at' 0x1200 0x1
/-- R83, RO. -/
def NOTIF_LOST : Nat := at' 0x1200 0x2
/-- R83, RO. -/
def EVLOG_HEAD : Nat := at' 0x1201 0x1
/-- R83, RO. -/
def EVLOG_DEPTH : Nat := at' 0x1201 0x2
/-- R83, RO. -/
def EVLOG_BANK (j : Nat) : Nat := at' (0x1240 + j) 0x0
/-- R83, RO. -/
def EVLOG_ENTRY (j : Nat) : Nat := at' (0x1240 + j / 128) (0x1 + j % 128)
/-- R89, RO. -/
def SPI_RX_DISCARD : Nat := at' 0x1140 0x1
/-- R107, RW. -/
def TOD_SEL : Nat := at' 0x9C10 0x1
/-- R107, RO. -/
def TOD_NOW : Nat := at' 0x9C10 0x2
/-- R107, CMD. -/
def TOD_SET : Nat := at' 0x9C10 0x3
/-- R107, RW. -/
def TOD_UTC_OFFSET : Nat := at' 0x9C10 0x4
/-- R107, RW. -/
def TOD_PPS_MODE : Nat := at' 0x9C10 0x5
/-- R107, RW. -/
def TOD_PPS_WIDTH : Nat := at' 0x9C10 0x6
/-- R109, RO. -/
def REF_TYPE (n : Nat) : Nat := at' (0x9000 + 0x20 * n) 0x1
/-- R109, RW. -/
def REF_RANK0 (n : Nat) : Nat := at' (0x9000 + 0x20 * n) 0x2
/-- R109, RW. -/
def REF_RANK1 (n : Nat) : Nat := at' (0x9000 + 0x20 * n) 0x3
/-- R109, RO. -/
def REF_STATE (n : Nat) : Nat := at' (0x9000 + 0x20 * n) 0x4
/-- R109, RO. -/
def REF_NOM_NUM (n : Nat) : Nat := at' (0x9000 + 0x20 * n) 0x5
/-- R109, RO. -/
def REF_NOM_DEN (n : Nat) : Nat := at' (0x9000 + 0x20 * n) 0x6
/-- R109, RO. -/
def REF_OFFSET (n : Nat) : Nat := at' (0x9000 + 0x20 * n) 0x7
/-- R109, RO. -/
def REF_DRIFT (n : Nat) : Nat := at' (0x9000 + 0x20 * n) 0x8
/-- R109, RW. -/
def REF_SOFT (n : Nat) : Nat := at' (0x9000 + 0x20 * n) 0x9
/-- R109, RW. -/
def REF_HARD (n : Nat) : Nat := at' (0x9000 + 0x20 * n) 0xA
/-- R109, RW. -/
def REF_DRIFT_LIMIT (n : Nat) : Nat := at' (0x9000 + 0x20 * n) 0xB
/-- R109, RW. -/
def REF_QUAL_TIME (n : Nat) : Nat := at' (0x9000 + 0x20 * n) 0xC
/-- R109, RW. -/
def REF_WTR (n : Nat) : Nat := at' (0x9000 + 0x20 * n) 0xD
/-- R109, RO. -/
def REF_WTR_LEFT (n : Nat) : Nat := at' (0x9000 + 0x20 * n) 0xE
/-- R109, RW. -/
def REF_BW (n : Nat) : Nat := at' (0x9000 + 0x20 * n) 0xF
/-- R109, RW. -/
def REF_DAMP (n : Nat) : Nat := at' (0x9000 + 0x20 * n) 0x10
/-- R109, RW. -/
def REF_SYNC_FORMAT (n : Nat) : Nat := at' (0x9008 + 0x20 * n) 0x1
/-- R109, RW. -/
def REF_SYNC_LINES (n : Nat) : Nat := at' (0x9008 + 0x20 * n) 0x2
/-- R109, RW. -/
def REF_PTP_DOMAIN (n : Nat) : Nat := at' (0x9008 + 0x20 * n) 0x1
/-- R109, RW. -/
def REF_PTP_DELAY (n : Nat) : Nat := at' (0x9008 + 0x20 * n) 0x2
/-- R109, RW. -/
def REF_PTP_TRANSPORT (n : Nat) : Nat := at' (0x9008 + 0x20 * n) 0x3
/-- R109, RW. -/
def REF_PTP_ANN_TIMEOUT (n : Nat) : Nat := at' (0x9008 + 0x20 * n) 0x4
/-- R109, RO. -/
def REF_PTP_PORT_STATE (n : Nat) : Nat := at' (0x9008 + 0x20 * n) 0x5
/-- R109, RO. -/
def REF_PTP_GM_ID (n : Nat) : Nat := at' (0x9008 + 0x20 * n) 0x6
/-- R109, RO. -/
def REF_PTP_MEAN_DELAY (n : Nat) : Nat := at' (0x9008 + 0x20 * n) 0x7
/-- R109, RO. -/
def REF_PTP_OFFSET_NS (n : Nat) : Nat := at' (0x9008 + 0x20 * n) 0x8
/-- R109, RO. -/
def REF_PTP_SYNC_LOG (n : Nat) : Nat := at' (0x9008 + 0x20 * n) 0x9
/-- R109, RW. -/
def SEL_MODE (n : Nat) : Nat := at' (0x9800 + 0x20 * n) 0x1
/-- R109, RW. -/
def SEL_FORCE_K (n : Nat) : Nat := at' (0x9800 + 0x20 * n) 0x2
/-- R109, RO. -/
def SEL_ACTIVE (n : Nat) : Nat := at' (0x9800 + 0x20 * n) 0x3
/-- R109, RO. -/
def SEL_STATE (n : Nat) : Nat := at' (0x9800 + 0x20 * n) 0x4
/-- R109, RW. -/
def SEL_REVERTIVE (n : Nat) : Nat := at' (0x9800 + 0x20 * n) 0x5
/-- R109, RW. -/
def SEL_DISAGREE (n : Nat) : Nat := at' (0x9800 + 0x20 * n) 0x6
/-- R109, RO. -/
def SEL_STATUS (n : Nat) : Nat := at' (0x9800 + 0x20 * n) 0x7
/-- R109, RO. -/
def SEL_BW_ACTIVE (n : Nat) : Nat := at' (0x9800 + 0x20 * n) 0x8
/-- R109, RO. -/
def SEL_DAMP_ACTIVE (n : Nat) : Nat := at' (0x9800 + 0x20 * n) 0x9
/-- R109, RW. -/
def SEL_LOCK_PHASE (n : Nat) : Nat := at' (0x9800 + 0x20 * n) 0xA
/-- R109, RW. -/
def SEL_LOCK_HOLD (n : Nat) : Nat := at' (0x9800 + 0x20 * n) 0xB
/-- R109, RO. -/
def SEL_PHASE_ERR (n : Nat) : Nat := at' (0x9800 + 0x20 * n) 0xC
/-- R109, RW. -/
def SEL_NCO (n : Nat) : Nat := at' (0x9800 + 0x20 * n) 0xD
/-- R109, RW. -/
def SEL_HOLD_AVG (n : Nat) : Nat := at' (0x9800 + 0x20 * n) 0xE
/-- R109, RO. -/
def SEL_HOLD_TIME (n : Nat) : Nat := at' (0x9800 + 0x20 * n) 0xF
/-- R109, RO. -/
def SEL_SWITCHES (n : Nat) : Nat := at' (0x9800 + 0x20 * n) 0x10
/-- R109, RO. -/
def SEL_LAST_STEP (n : Nat) : Nat := at' (0x9800 + 0x20 * n) 0x11
/-- R119, RW. -/
def GSYN_SEL (n : Nat) : Nat := at' (0x9A00 + 0x20 * n) 0x1
/-- R119, RL. -/
def GSYN_RATE (n : Nat) : Nat := at' (0x9A00 + 0x20 * n) 0x2
/-- R119, RO. -/
def GSYN_CLASS (n : Nat) : Nat := at' (0x9A00 + 0x20 * n) 0x3
/-- R119, RL. -/
def GSYN_PHASE_OFFSET (n : Nat) : Nat := at' (0x9A00 + 0x20 * n) 0x4
/-- R119, RW. -/
def GSYN_ALIGN (n : Nat) : Nat := at' (0x9A00 + 0x20 * n) 0x5
/-- R119, RW. -/
def GSYN_SLEW_MAX (n : Nat) : Nat := at' (0x9A00 + 0x20 * n) 0x6
/-- R119, RW. -/
def GSYN_SLEW_SLOPE (n : Nat) : Nat := at' (0x9A00 + 0x20 * n) 0x7
/-- R119, RW. -/
def GSYN_PRESCALE (n : Nat) : Nat := at' (0x9A00 + 0x20 * n) 0x8
/-- R119, RO. -/
def GSYN_STATE (n : Nat) : Nat := at' (0x9A00 + 0x20 * n) 0x9
/-- R119, RO. -/
def GSYN_LOL (n : Nat) : Nat := at' (0x9A00 + 0x20 * n) 0xA
/-- R119, RO. -/
def GSYN_CTRL_WORD (n : Nat) : Nat := at' (0x9A00 + 0x20 * n) 0xB
/-- R119, RO. -/
def GSYN_BAND (n : Nat) : Nat := at' (0x9A00 + 0x20 * n) 0xC
/-- R119, RO. -/
def GSYN_OFFSET (n : Nat) : Nat := at' (0x9A00 + 0x20 * n) 0xD
/-- R119, RO. -/
def GSYN_PHASE_NS (n : Nat) : Nat := at' (0x9A00 + 0x20 * n) 0xE
/-- R119, CMD. -/
def GSYN_RELOCK (n : Nat) : Nat := at' (0x9A00 + 0x20 * n) 0xF
/-- R119, RO. -/
def GSYN_CONSUMERS (n : Nat) : Nat := at' (0x9A00 + 0x20 * n) 0x10
/-- R119, RW. -/
def GSYN_DIVSYNC (n : Nat) : Nat := at' (0x9A00 + 0x20 * n) 0x11
/-- R119, RL. -/
def GSYN_RAMP_COUNT (n : Nat) : Nat := at' (0x9A10 + 0x20 * n) 0x1
/-- R119, RL. -/
def GSYN_RAMP_TARGET (n j : Nat) : Nat := at' (0x9A10 + 0x20 * n) (0x2 + 3 * j)
/-- R119, RL. -/
def GSYN_RAMP_SLOPE (n j : Nat) : Nat := at' (0x9A10 + 0x20 * n) (0x3 + 3 * j)
/-- R119, RL. -/
def GSYN_RAMP_DWELL (n j : Nat) : Nat := at' (0x9A10 + 0x20 * n) (0x4 + 3 * j)
/-- R119, CMD. -/
def GSYN_RAMP_RUN (n : Nat) : Nat := at' (0x9A11 + 0x20 * n) 0x0
/-- R119, RO. -/
def GSYN_RAMP_STATUS_STATE (n : Nat) : Nat := at' (0x9A12 + 0x20 * n) 0x1
/-- R119, RO. -/
def GSYN_RAMP_STATUS_SEG (n : Nat) : Nat := at' (0x9A12 + 0x20 * n) 0x2
/-- R119, RO. -/
def XO_FREQ : Nat := at' 0x9C00 0x1
/-- R119, RO. -/
def SYSPLL_STATE : Nat := at' 0x9C00 0x2
/-- R119, RW. -/
def AUDPLL_SEL : Nat := at' 0x9C00 0x3
/-- R119, RO. -/
def AUDPLL_STATE : Nat := at' 0x9C00 0x4
/-- R119, RO. -/
def LOL : Nat := at' 0x9C00 0x5
/-- R119, RO. -/
def TXPLL_LOL : Nat := at' 0x9C00 0x6
/-- R119, CMD. -/
def LOL_CLEAR : Nat := at' 0x9C00 0x7
/-- R119, RW. -/
def WCKOUT_EN : Nat := at' 0x9C00 0x8
/-- R119, RW. -/
def CLKOUT_SRC (n : Nat) : Nat := at' (0x9C20 + 0x8 * n) 0x1
/-- R119, RW. -/
def CLKOUT_DIV (n : Nat) : Nat := at' (0x9C20 + 0x8 * n) 0x2
/-- R119, RW. -/
def CLKOUT_SYNC (n : Nat) : Nat := at' (0x9C20 + 0x8 * n) 0x3
/-- R119, RO. -/
def CLKOUT_FREQ (n : Nat) : Nat := at' (0x9C20 + 0x8 * n) 0x4
/-- R132, RL. -/
def OUT_FAMILY (n : Nat) : Nat := at' (0x3010 + 0x40 * n) 0x0
/-- R132, RL. -/
def OUT_TIMING_OFFSET (n : Nat) : Nat := at' (0x3011 + 0x40 * n) 0x0
/-- R132, RL. -/
def OUT_DEV_GUARD (n : Nat) : Nat := at' (0x3012 + 0x40 * n) 0x0
/-- R132, RW. -/
def OUT_LINE_MATCH (n : Nat) : Nat := at' (0x3013 + 0x40 * n) 0x0
/-- R132, RO. -/
def OUT_TSTATE (n : Nat) : Nat := at' (0x3014 + 0x40 * n) 0x0
/-- R132, RO. -/
def OUT_EVT_FRAME (n : Nat) : Nat := at' (0x3015 + 0x40 * n) 0x1
/-- R132, RO. -/
def OUT_EVT_FRAME_TIME (n : Nat) : Nat := at' (0x3015 + 0x40 * n) 0x2
/-- R132, RO. -/
def OUT_EVT_FLIP_FRAME (n : Nat) : Nat := at' (0x3015 + 0x40 * n) 0x3
/-- R132, RO. -/
def OUT_EVT_FLIP_TIME (n : Nat) : Nat := at' (0x3015 + 0x40 * n) 0x4
/-- R132, RO. -/
def OUT_EVT_FLIP_SRC (n : Nat) : Nat := at' (0x3015 + 0x40 * n) 0x5
/-- R132, RO. -/
def OUT_EVT_ADJ_FRAME (n : Nat) : Nat := at' (0x3015 + 0x40 * n) 0x6
/-- R132, RO. -/
def OUT_EVT_ADJ_SAMPLES (n : Nat) : Nat := at' (0x3015 + 0x40 * n) 0x7
/-- R132, RW. -/
def OUT_FETCH_W1 (n : Nat) : Nat := at' (0x3016 + 0x40 * n) 0x1
/-- R132, RW. -/
def OUT_FETCH_W2 (n : Nat) : Nat := at' (0x3016 + 0x40 * n) 0x2
/-- R132, RO. -/
def OUT_FETCH_LEVEL (n : Nat) : Nat := at' (0x3016 + 0x40 * n) 0x3
/-- R132, RO. -/
def OUT_FETCH_CLASS (n : Nat) : Nat := at' (0x3016 + 0x40 * n) 0x4
/-- R132, RO. -/
def OUT_FETCH_MIN_LEVEL (n : Nat) : Nat := at' (0x3016 + 0x40 * n) 0x5
/-- R132, RW. -/
def OUT_IRQ_MASK (n : Nat) : Nat := at' (0x3017 + 0x40 * n) 0x1
/-- R132, RW. -/
def OUT_IRQ_PIN (n : Nat) : Nat := at' (0x3017 + 0x40 * n) 0x2
/-- R132, RO. -/
def OUT_IRQ_PENDING (n : Nat) : Nat := at' (0x3017 + 0x40 * n) 0x3
/-- R132, CMD. -/
def OUT_IRQ_ACK (n : Nat) : Nat := at' (0x3017 + 0x40 * n) 0x4
/-- R132, RO. -/
def IRQSUM_PIN0 : Nat := at' 0x1E10 0x1
/-- R132, RO. -/
def IRQSUM_PIN1 : Nat := at' 0x1E10 0x2
/-- R154, RO. -/
def IN_STAT_STATE (n : Nat) : Nat := at' (0x2000 + 0x40 * n) 0x1
/-- R154, RO. -/
def IN_STAT_RATE (n : Nat) : Nat := at' (0x2000 + 0x40 * n) 0x2
/-- R154, RO. -/
def IN_STAT_MAPPING (n : Nat) : Nat := at' (0x2000 + 0x40 * n) 0x3
/-- R154, RO. -/
def IN_STAT_FORMAT (n : Nat) : Nat := at' (0x2000 + 0x40 * n) 0x4
/-- R154, RO. -/
def IN_STAT_SCAN (n : Nat) : Nat := at' (0x2000 + 0x40 * n) 0x5
/-- R154, RO. -/
def IN_STAT_SAMPLING (n : Nat) : Nat := at' (0x2000 + 0x40 * n) 0x6
/-- R154, RO. -/
def IN_STAT_COLOR (n : Nat) : Nat := at' (0x2000 + 0x40 * n) 0x7
/-- R154, RO. -/
def IN_STAT_LINES (n : Nat) : Nat := at' (0x2000 + 0x40 * n) 0x8
/-- R154, RO. -/
def IN_STAT_SAMPLES (n : Nat) : Nat := at' (0x2000 + 0x40 * n) 0x9
/-- R154, RO. -/
def IN_STAT_FORMAT_SEQ (n : Nat) : Nat := at' (0x2000 + 0x40 * n) 0xA
/-- R154, RO. -/
def IN_STAT_EQ_LOSS (n : Nat) : Nat := at' (0x2000 + 0x40 * n) 0xB
/-- R154, RW. -/
def IN_CFG_RATE_MODE (n : Nat) : Nat := at' (0x2001 + 0x40 * n) 0x1
/-- R154, RW. -/
def IN_CFG_EQ_MODE (n : Nat) : Nat := at' (0x2001 + 0x40 * n) 0x2
/-- R154, RW. -/
def IN_CFG_KEY_INPUT (n : Nat) : Nat := at' (0x2001 + 0x40 * n) 0x3
/-- R154, RW. -/
def IN_CFG_BAD_LINE (n : Nat) : Nat := at' (0x2001 + 0x40 * n) 0x4
/-- R154, RW. -/
def IN_CFG_COLOR_OVERRIDE (n : Nat) : Nat := at' (0x2001 + 0x40 * n) 0x5
/-- R154, RO. -/
def IN_PID_VALID (n : Nat) : Nat := at' (0x2002 + 0x40 * n) 0x1
/-- R154, RO. -/
def IN_PID_RAW (n : Nat) : Nat := at' (0x2002 + 0x40 * n) 0x2
/-- R154, RO. -/
def IN_PID_MISMATCH (n : Nat) : Nat := at' (0x2002 + 0x40 * n) 0x3
/-- R154, RO. -/
def IN_PID_RAW_LINKS (n : Nat) : Nat := at' (0x2002 + 0x40 * n) 0x4
/-- R154, RW. -/
def IN_ANC_MAX_PER_LINE (n : Nat) : Nat := at' (0x2003 + 0x40 * n) 0x1
/-- R154, RW. -/
def IN_ANC_CHECKSUM (n : Nat) : Nat := at' (0x2003 + 0x40 * n) 0x2
/-- R154, RW. -/
def IN_ANC_FILTER_DEFAULT (n : Nat) : Nat := at' (0x2003 + 0x40 * n) 0x3
/-- R154, RW. -/
def IN_ANC_FILTER (n j : Nat) : Nat := at' (0x2003 + 0x40 * n) (0x4 + j)
/-- R154, RO. -/
def IN_TC_LTC (n : Nat) : Nat := at' (0x2004 + 0x40 * n) 0x1
/-- R154, RO. -/
def IN_TC_VITC (n : Nat) : Nat := at' (0x2004 + 0x40 * n) 0x2
/-- R154, RO. -/
def IN_TC_VALID (n : Nat) : Nat := at' (0x2004 + 0x40 * n) 0x3
/-- R154, RO. -/
def IN_TC_FLAGS (n : Nat) : Nat := at' (0x2004 + 0x40 * n) 0x4
/-- R154, RW. -/
def IN_BRACKET_PARTNER (n : Nat) : Nat := at' (0x2005 + 0x40 * n) 0x1
/-- R154, RW. -/
def IN_BRACKET_CRC_LIMIT (n : Nat) : Nat := at' (0x2005 + 0x40 * n) 0x2
/-- R154, RW. -/
def IN_BRACKET_REVERT (n : Nat) : Nat := at' (0x2005 + 0x40 * n) 0x3
/-- R154, RW. -/
def IN_BRACKET_REVERT_FRAMES (n : Nat) : Nat := at' (0x2005 + 0x40 * n) 0x4
/-- R154, CMD. -/
def IN_BRACKET_SELECT (n : Nat) : Nat := at' (0x2005 + 0x40 * n) 0x5
/-- R154, RO. -/
def IN_BRACKET_STATE (n : Nat) : Nat := at' (0x2005 + 0x40 * n) 0x6
/-- R154, RO. -/
def IN_BRACKET_ACTIVE (n : Nat) : Nat := at' (0x2005 + 0x40 * n) 0x7
/-- R154, RO. -/
def IN_BRACKET_SKEW (n : Nat) : Nat := at' (0x2005 + 0x40 * n) 0x8
/-- R154, RW. -/
def IN_BRACKET_SKEW_MAX (n : Nat) : Nat := at' (0x2005 + 0x40 * n) 0x9
/-- R154, RO. -/
def IN_BRACKET_ROLE (n : Nat) : Nat := at' (0x2005 + 0x40 * n) 0xA
/-- R154, RW. -/
def IN_QUAD_MODE (n : Nat) : Nat := at' (0x2006 + 0x40 * n) 0x1
/-- R154, RO. -/
def IN_QUAD_STATE (n : Nat) : Nat := at' (0x2006 + 0x40 * n) 0x2
/-- R154, RO. -/
def IN_QUAD_SKEW (n j : Nat) : Nat := at' (0x2006 + 0x40 * n) (0x3 + j)
/-- R154, RO. -/
def IN_TIMING_FRAME_TIME (n : Nat) : Nat := at' (0x2033 + 0x40 * n) 0x1
/-- R154, RO. -/
def IN_TIMING_PHASE (n j : Nat) : Nat := at' (0x2033 + 0x40 * n) (0x2 + j)
/-- R154, RO. -/
def IN_QUAR_HEAD (n : Nat) : Nat := at' (0x2034 + 0x40 * n) 0x1
/-- R154, RO. -/
def IN_QUAR_ENTRY (n j : Nat) : Nat := at' (0x2034 + 0x40 * n) (0x2 + j)
/-- R174, RL. -/
def OUT_FORMAT (n : Nat) : Nat := at' (0x3000 + 0x40 * n) 0x0
/-- R174, RL. -/
def OUT_MAPPING (n : Nat) : Nat := at' (0x3001 + 0x40 * n) 0x0
/-- R174, RL. -/
def OUT_SAMPLING (n : Nat) : Nat := at' (0x3002 + 0x40 * n) 0x0
/-- R174, RL. -/
def OUT_CONV_MODE (n : Nat) : Nat := at' (0x3003 + 0x40 * n) 0x1
/-- R174, RL. -/
def OUT_CONV_PRESET (n : Nat) : Nat := at' (0x3003 + 0x40 * n) 0x2
/-- R174, RL. -/
def OUT_CONV_CHROMA (n : Nat) : Nat := at' (0x3003 + 0x40 * n) 0x3
/-- R174, RL. -/
def OUT_CONV_COLOR_TAG (n : Nat) : Nat := at' (0x3003 + 0x40 * n) 0x4
/-- R174, RL. -/
def OUT_CONV_KEY_OUT (n : Nat) : Nat := at' (0x3003 + 0x40 * n) 0x5
/-- R174, RL. -/
def OUT_CONV_COEF (n j : Nat) : Nat := at' (0x3003 + 0x40 * n) (0x6 + j)
/-- R174, RL. -/
def OUT_CONV_INOFF (n j : Nat) : Nat := at' (0x3003 + 0x40 * n) (0xF + j)
/-- R174, RL. -/
def OUT_CONV_OUTOFF (n j : Nat) : Nat := at' (0x3003 + 0x40 * n) (0x12 + j)
/-- R174, RL. -/
def OUT_PID_MODE (n : Nat) : Nat := at' (0x3004 + 0x40 * n) 0x1
/-- R174, RO. -/
def OUT_PID_RAW (n : Nat) : Nat := at' (0x3004 + 0x40 * n) 0x2
/-- R174, RL. -/
def OUT_ANC_PASS (n : Nat) : Nat := at' (0x3005 + 0x40 * n) 0x1
/-- R174, RL. -/
def OUT_ANC_TC_MODE (n : Nat) : Nat := at' (0x3005 + 0x40 * n) 0x2
/-- R174, RL. -/
def OUT_ANC_TC_SRC (n : Nat) : Nat := at' (0x3005 + 0x40 * n) 0x3
/-- R174, RL. -/
def OUT_BRACKET_PARTNER (n : Nat) : Nat := at' (0x3006 + 0x40 * n) 0x1
/-- R174, RO. -/
def OUT_BRACKET_ROLE (n : Nat) : Nat := at' (0x3006 + 0x40 * n) 0x2
/-- R174, RO. -/
def OUT_BRACKET_STATE (n : Nat) : Nat := at' (0x3006 + 0x40 * n) 0x3
/-- R174, CMD. -/
def OUT_BRACKET_RELEASE (n : Nat) : Nat := at' (0x3006 + 0x40 * n) 0x4
/-- R174, RL. -/
def OUT_SLATE_BUF (n : Nat) : Nat := at' (0x3007 + 0x40 * n) 0x1
/-- R174, CMD. -/
def OUT_SLATE_CMD (n : Nat) : Nat := at' (0x3007 + 0x40 * n) 0x2
/-- R174, RO. -/
def OUT_SLATE_STATE (n : Nat) : Nat := at' (0x3007 + 0x40 * n) 0x3
/-- R174, RW. -/
def OUT_SLATE_CLEAR_FRAMES (n : Nat) : Nat := at' (0x3007 + 0x40 * n) 0x4
/-- R174, RL. -/
def OUT_QUAD_MODE (n : Nat) : Nat := at' (0x3008 + 0x40 * n) 0x1
/-- R174, RO. -/
def OUT_QUAD_STATE (n : Nat) : Nat := at' (0x3008 + 0x40 * n) 0x2
/-- R174, RO. -/
def OUT_TXQ_CLASS (n : Nat) : Nat := at' (0x3009 + 0x40 * n) 0x1
/-- R174, RO. -/
def OUT_TXQ_PLL_GSYN (n : Nat) : Nat := at' (0x3009 + 0x40 * n) 0x2
/-- R174, RO. -/
def OUT_TXQ_HOLDER (n : Nat) : Nat := at' (0x3009 + 0x40 * n) 0x3
/-- R175, RL. -/
def OUT_ROUTE_SRC (n : Nat) : Nat := at' (0x3020 + 0x40 * n) 0x1
/-- R175, RL. -/
def OUT_ROUTE_BUF (n : Nat) : Nat := at' (0x3020 + 0x40 * n) 0x2
/-- R175, RL. -/
def OUT_ROUTE_PATH (n : Nat) : Nat := at' (0x3020 + 0x40 * n) 0x3
/-- R175, RL. -/
def OUT_ROUTE_MAX_LAT_REQ (n : Nat) : Nat := at' (0x3020 + 0x40 * n) 0x4
/-- R175, RL. -/
def OUT_ROUTE_LOSS (n : Nat) : Nat := at' (0x3020 + 0x40 * n) 0x5
/-- R175, RL. -/
def OUT_ROUTE_KEY_SRC (n : Nat) : Nat := at' (0x3020 + 0x40 * n) 0x6
/-- R175, RL. -/
def OUT_ROUTE_PAIR (n : Nat) : Nat := at' (0x3020 + 0x40 * n) 0x7
/-- R175, RL. -/
def OUT_ROUTE_PATTERN (n : Nat) : Nat := at' (0x3020 + 0x40 * n) 0x8
/-- R175, RO. -/
def OUT_ROUTE_STAT_STATE (n : Nat) : Nat := at' (0x3021 + 0x40 * n) 0x1
/-- R175, RO. -/
def OUT_ROUTE_STAT_PATH (n : Nat) : Nat := at' (0x3021 + 0x40 * n) 0x2
/-- R175, RO. -/
def OUT_ROUTE_STAT_LEAD (n : Nat) : Nat := at' (0x3021 + 0x40 * n) 0x3
/-- R175, RO. -/
def OUT_ROUTE_STAT_SYNC_LAT (n : Nat) : Nat := at' (0x3021 + 0x40 * n) 0x4
/-- R175, RO. -/
def OUT_ROUTE_STAT_REPEATS (n : Nat) : Nat := at' (0x3021 + 0x40 * n) 0x5
/-- R175, RO. -/
def OUT_ROUTE_STAT_DROPS (n : Nat) : Nat := at' (0x3021 + 0x40 * n) 0x6
/-- R175, RO. -/
def OUT_ROUTE_STAT_LOSS_FRAMES (n : Nat) : Nat := at' (0x3021 + 0x40 * n) 0x7
/-- R175, RO. -/
def OUT_ROUTE_STAT_CUT_FRAME (n : Nat) : Nat := at' (0x3021 + 0x40 * n) 0x8
/-- R208, RO. -/
def OUT_CONTRACT_PATH (n : Nat) : Nat := at' (0x3022 + 0x40 * n) 0x1
/-- R208, RO. -/
def OUT_CONTRACT_MAX_LAT (n : Nat) : Nat := at' (0x3022 + 0x40 * n) 0x2
/-- R208, RO. -/
def OUT_CONTRACT_NOMINAL_LAT (n : Nat) : Nat := at' (0x3022 + 0x40 * n) 0x3
/-- R208, RO. -/
def OUT_CONTRACT_LIVE_SRC (n : Nat) : Nat := at' (0x3022 + 0x40 * n) 0x4
/-- R208, RO. -/
def OUT_CONTRACT_BW (n : Nat) : Nat := at' (0x3022 + 0x40 * n) 0x5
/-- R208, RO. -/
def OUT_CONTRACT_BW_S0 (n : Nat) : Nat := at' (0x3022 + 0x40 * n) 0x6
/-- R208, RO. -/
def OUT_CONTRACT_BW_S1 (n : Nat) : Nat := at' (0x3022 + 0x40 * n) 0x7
/-- R208, RO. -/
def OUT_CONTRACT_ENL (n : Nat) : Nat := at' (0x3022 + 0x40 * n) 0x8
/-- R208, RO. -/
def OUT_CONTRACT_EAS (n : Nat) : Nat := at' (0x3022 + 0x40 * n) 0x9
/-- R208, RO. -/
def OUT_CONTRACT_FRC (n : Nat) : Nat := at' (0x3022 + 0x40 * n) 0xA
/-- R208, RO. -/
def OUT_CONTRACT_RINGS (n : Nat) : Nat := at' (0x3022 + 0x40 * n) 0xB
/-- R208, RO. -/
def OUT_CONTRACT_PROTECTED (n : Nat) : Nat := at' (0x3022 + 0x40 * n) 0xC
/-- R208, RO. -/
def OUT_CONTRACT_GRANT (n : Nat) : Nat := at' (0x3022 + 0x40 * n) 0xD
/-- R208, RO. -/
def OUT_CONTRACT_STATE (n : Nat) : Nat := at' (0x3022 + 0x40 * n) 0xE
/-- R208, RO. -/
def OUT_CONTRACT_FRAME (n : Nat) : Nat := at' (0x3022 + 0x40 * n) 0xF
/-- R208, RO. -/
def OUT_MEASURED_LAST (n : Nat) : Nat := at' (0x3023 + 0x40 * n) 0x1
/-- R208, RO. -/
def OUT_MEASURED_MAX (n : Nat) : Nat := at' (0x3023 + 0x40 * n) 0x2
/-- R208, RO. -/
def OUT_MEASURED_MIN (n : Nat) : Nat := at' (0x3023 + 0x40 * n) 0x3
/-- R208, RO. -/
def OUT_MEASURED_VIOLATIONS (n : Nat) : Nat := at' (0x3023 + 0x40 * n) 0x4
/-- R208, RO. -/
def OUT_MEASURED_VIOL_FRAME (n : Nat) : Nat := at' (0x3023 + 0x40 * n) 0x5
/-- R208, CMD. -/
def OUT_MEASURED_CLEAR (n : Nat) : Nat := at' (0x3023 + 0x40 * n) 0x6
/-- R211, RO. -/
def ADM_LIMIT_TOTAL : Nat := at' 0xA000 0x1
/-- R211, RO. -/
def ADM_LIMIT_S0 : Nat := at' 0xA000 0x2
/-- R211, RO. -/
def ADM_LIMIT_S1 : Nat := at' 0xA000 0x3
/-- R211, RO. -/
def ADM_LOAD_TOTAL : Nat := at' 0xA000 0x4
/-- R211, RO. -/
def ADM_LOAD_S0 : Nat := at' 0xA000 0x5
/-- R211, RO. -/
def ADM_LOAD_S1 : Nat := at' 0xA000 0x6
/-- R211, RO. -/
def ADM_FIXED : Nat := at' 0xA000 0x7
/-- R211, RO. -/
def ADM_FREE_S0 : Nat := at' 0xA000 0x8
/-- R211, RO. -/
def ADM_FREE_S1 : Nat := at' 0xA000 0x9
/-- R211, RO. -/
def ADM_SHADOW_FREE : Nat := at' 0xA000 0xA
/-- R211, CMD. -/
def ADM_CHECK : Nat := at' 0xA001 0x0
/-- R211, RO. -/
def CHECK_RESULT_REASON : Nat := at' 0xA002 0x1
/-- R211, RO. -/
def CHECK_RESULT_REFUSER : Nat := at' 0xA002 0x2
/-- R211, RO. -/
def CHECK_RESULT_HOLDER : Nat := at' 0xA002 0x3
/-- R211, RO. -/
def CHECK_RESULT_LOAD_TOTAL : Nat := at' 0xA002 0x4
/-- R211, RO. -/
def CHECK_RESULT_LOAD_S0 : Nat := at' 0xA002 0x5
/-- R211, RO. -/
def CHECK_RESULT_LOAD_S1 : Nat := at' 0xA002 0x6
/-- R211, RO. -/
def CHECK_RESULT_CFG_SEQ : Nat := at' 0xA002 0x7
/-- R211, RO. -/
def REFLOG_HEAD : Nat := at' 0xA010 0x1
/-- R211, RO. -/
def REFLOG_ENTRY (j : Nat) : Nat := at' 0xA010 (0x2 + j)
/-- R220, RW. -/
def BUF_STATE (n : Nat) : Nat := at' (0x6000 + n) 0x1
/-- R220, RW. -/
def BUF_FORMAT (n : Nat) : Nat := at' (0x6000 + n) 0x2
/-- R220, RW. -/
def BUF_WIDTH (n : Nat) : Nat := at' (0x6000 + n) 0x3
/-- R220, RW. -/
def BUF_HEIGHT (n : Nat) : Nat := at' (0x6000 + n) 0x4
/-- R220, RW. -/
def BUF_PITCH (n : Nat) : Nat := at' (0x6000 + n) 0x5
/-- R220, RW. -/
def BUF_STACK (n : Nat) : Nat := at' (0x6000 + n) 0x6
/-- R220, RW. -/
def BUF_PROTECT (n : Nat) : Nat := at' (0x6000 + n) 0x7
/-- R220, RW. -/
def BUF_AUTO_FREE (n : Nat) : Nat := at' (0x6000 + n) 0x8
/-- R220, CMD. -/
def BUF_ALLOC (n : Nat) : Nat := at' (0x6000 + n) 0x9
/-- R220, RO. -/
def BUF_ADDR (n : Nat) : Nat := at' (0x6000 + n) 0xA
/-- R220, RO. -/
def BUF_SIZE (n : Nat) : Nat := at' (0x6000 + n) 0xB
/-- R220, RO. -/
def BUF_REFCOUNT (n : Nat) : Nat := at' (0x6000 + n) 0xC
/-- R220, RO. -/
def BUF_PENDING (n : Nat) : Nat := at' (0x6000 + n) 0xD
/-- R220, RO. -/
def BUF_MIRROR (n : Nat) : Nat := at' (0x6000 + n) 0xE
/-- R220, RO. -/
def BUF_MIRROR_ADDR (n : Nat) : Nat := at' (0x6000 + n) 0xF
/-- R220, RO. -/
def BUF_RETIRE_TIME (n : Nat) : Nat := at' (0x6000 + n) 0x10
/-- R220, RO. -/
def BUF_DAMAGED (n : Nat) : Nat := at' (0x6000 + n) 0x11
/-- R220, RO. -/
def BUF_WRITER (n : Nat) : Nat := at' (0x6000 + n) 0x12
/-- R227, RO. -/
def RING_STATE (n : Nat) : Nat := at' (0x6840 + n) 0x1
/-- R227, RO. -/
def RING_STACK (n : Nat) : Nat := at' (0x6840 + n) 0x2
/-- R227, RO. -/
def RING_ADDR (n : Nat) : Nat := at' (0x6840 + n) 0x3
/-- R227, RO. -/
def RING_SLOT_BYTES (n : Nat) : Nat := at' (0x6840 + n) 0x4
/-- R227, RO. -/
def RING_FORMAT (n : Nat) : Nat := at' (0x6840 + n) 0x5
/-- R227, RO. -/
def RING_SLOT (n : Nat) : Nat := at' (0x6840 + n) 0x6
/-- R227, RO. -/
def RING_MIRROR (n : Nat) : Nat := at' (0x6840 + n) 0x7
/-- R227, RO. -/
def RING_MIRROR_ADDR (n : Nat) : Nat := at' (0x6840 + n) 0x8
/-- R237, RO. -/
def FS_CAP_S0 : Nat := at' 0x6800 0x1
/-- R237, RO. -/
def FS_CAP_S1 : Nat := at' 0x6800 0x2
/-- R237, RO. -/
def FS_LARGEST_S0 : Nat := at' 0x6800 0x3
/-- R237, RO. -/
def FS_LARGEST_S1 : Nat := at' 0x6800 0x4
/-- R237, RO. -/
def FS_USABLE_S0 : Nat := at' 0x6800 0x5
/-- R237, RO. -/
def FS_USABLE_S1 : Nat := at' 0x6800 0x6
/-- R237, RW. -/
def FS_GUARD_POLICY : Nat := at' 0x6800 0x7
/-- R237, RW. -/
def FS_SCRUB_PERIOD : Nat := at' 0x6800 0x8
/-- R237, RO. -/
def FS_ECC_CORRECTED : Nat := at' 0x6800 0x9
/-- R237, RO. -/
def FS_ECC_UNCORRECTABLE : Nat := at' 0x6800 0xA
/-- R237, RO. -/
def FS_PCMAP_S0 : Nat := at' 0x6800 0xB
/-- R237, RO. -/
def FS_PCMAP_S1 : Nat := at' 0x6800 0xC
/-- R237, RW. -/
def WIN_ADDR : Nat := at' 0x6810 0x1
/-- R237, RW. -/
def WIN_AUTO_INC : Nat := at' 0x6810 0x2
/-- R237, RW. -/
def WIN_DATA (j : Nat) : Nat := at' 0x6811 (0x1 + j)
/-- R238, RW. -/
def BMX_LOCK_TIMEOUT : Nat := at' 0xE000 0x1
/-- R238, RO. -/
def BMX_NOMAP : Nat := at' 0xE000 0x2
/-- R238, RO. -/
def BMX_GUARD_HITS : Nat := at' 0xE000 0x3
/-- R238, RO. -/
def BMX_LOCK_TIMEOUTS : Nat := at' 0xE000 0x4
/-- R238, RO. -/
def BMX_DRAINS : Nat := at' 0xE000 0x5
/-- R238, RO. -/
def ERRLOG_HEAD : Nat := at' 0xE010 0x1
/-- R238, RO. -/
def ERRLOG_ENTRY (j : Nat) : Nat := at' 0xE010 (0x2 + j)
/-- R238, RW. -/
def PRIO (n : Nat) : Nat := at' (0xE100 + n) 0x0
/-- R238, RO. -/
def PORT_STATE (n : Nat) : Nat := at' (0xE200 + n) 0x1
/-- R238, RO. -/
def PORT_OUTSTANDING (n : Nat) : Nat := at' (0xE200 + n) 0x2
/-- R238, RO. -/
def PORT_LAST_DRAIN (n : Nat) : Nat := at' (0xE200 + n) 0x3
/-- R254, RL. -/
def ENL_CFG_VTAPS (n : Nat) : Nat := at' (0x5000 + 0x20 * n) 0x1
/-- R254, RL. -/
def ENL_CFG_HSET (n : Nat) : Nat := at' (0x5000 + 0x20 * n) 0x2
/-- R254, RL. -/
def ENL_CFG_VSET (n : Nat) : Nat := at' (0x5000 + 0x20 * n) 0x3
/-- R254, RL. -/
def ENL_CFG_DEINT (n : Nat) : Nat := at' (0x5000 + 0x20 * n) 0x4
/-- R254, RL. -/
def ENL_CFG_MOT_LO (n : Nat) : Nat := at' (0x5000 + 0x20 * n) 0x5
/-- R254, RL. -/
def ENL_CFG_MOT_HI (n : Nat) : Nat := at' (0x5000 + 0x20 * n) 0x6
/-- R254, RO. -/
def ENL_STATE_ROLE (n : Nat) : Nat := at' (0x5001 + 0x20 * n) 0x1
/-- R254, RO. -/
def ENL_STATE_LAYER (n : Nat) : Nat := at' (0x5001 + 0x20 * n) 0x2
/-- R254, RO. -/
def ENL_STATE_PARTNER (n : Nat) : Nat := at' (0x5001 + 0x20 * n) 0x3
/-- R254, RO. -/
def ENL_STATE_VTAPS (n : Nat) : Nat := at' (0x5001 + 0x20 * n) 0x4
/-- R254, RO. -/
def ENL_STATE_ORDER (n : Nat) : Nat := at' (0x5001 + 0x20 * n) 0x5
/-- R254, RO. -/
def ENL_STATE_W_STORE (n : Nat) : Nat := at' (0x5001 + 0x20 * n) 0x6
/-- R254, RO. -/
def ENL_STATE_LS_USED (n : Nat) : Nat := at' (0x5001 + 0x20 * n) 0x7
/-- R254, RO. -/
def ENL_STATE_HSTEP (n : Nat) : Nat := at' (0x5001 + 0x20 * n) 0x8
/-- R254, RO. -/
def ENL_STATE_VSTEP (n : Nat) : Nat := at' (0x5001 + 0x20 * n) 0x9
/-- R254, RO. -/
def ENL_STATE_SRC_X0 (n : Nat) : Nat := at' (0x5001 + 0x20 * n) 0xA
/-- R254, RO. -/
def ENL_STATE_SRC_X1 (n : Nat) : Nat := at' (0x5001 + 0x20 * n) 0xB
/-- R254, RO. -/
def ENL_STATE_DST_X0 (n : Nat) : Nat := at' (0x5001 + 0x20 * n) 0xC
/-- R254, RO. -/
def ENL_STATE_DST_X1 (n : Nat) : Nat := at' (0x5001 + 0x20 * n) 0xD
/-- R254, RO. -/
def ENL_STATE_PIX_RATE (n : Nat) : Nat := at' (0x5001 + 0x20 * n) 0xE
/-- R254, RO. -/
def ENL_STATE_LAT_LINES (n : Nat) : Nat := at' (0x5001 + 0x20 * n) 0xF
/-- R254, RO. -/
def ENL_STATE_DEINT_ACTIVE (n : Nat) : Nat := at' (0x5001 + 0x20 * n) 0x10
/-- R254, RO. -/
def ENL_HCOEF (n j : Nat) : Nat := at' ((0x5010 + 0x20 * n) + j) 0x0
/-- R254, RL. -/
def ENL_HCOEF_PHASE (n j : Nat) : Nat := at' ((0x5010 + 0x20 * n) + j / 64) (0x1 + j % 64)
/-- R254, RO. -/
def ENL_VCOEF (n j : Nat) : Nat := at' ((0x5014 + 0x20 * n) + j) 0x0
/-- R254, RL. -/
def ENL_VCOEF_PHASE (n j : Nat) : Nat := at' ((0x5014 + 0x20 * n) + j / 64) (0x1 + j % 64)
/-- R286, RL. -/
def EAS_CANVAS_FORMAT (n : Nat) : Nat := at' (0x4000 + 0x40 * n) 0x1
/-- R286, RL. -/
def EAS_CANVAS_FAMILY (n : Nat) : Nat := at' (0x4000 + 0x40 * n) 0x2
/-- R286, RL. -/
def EAS_CANVAS_TIMING_OFFSET (n : Nat) : Nat := at' (0x4000 + 0x40 * n) 0x3
/-- R286, RL. -/
def EAS_CANVAS_DEV_GUARD (n : Nat) : Nat := at' (0x4000 + 0x40 * n) 0x4
/-- R286, RL. -/
def EAS_CANVAS_WIDTH (n : Nat) : Nat := at' (0x4000 + 0x40 * n) 0x5
/-- R286, RL. -/
def EAS_CANVAS_HEIGHT (n : Nat) : Nat := at' (0x4000 + 0x40 * n) 0x6
/-- R286, RL. -/
def EAS_CANVAS_COLOR (n : Nat) : Nat := at' (0x4000 + 0x40 * n) 0x7
/-- R286, RL. -/
def EAS_CANVAS_KEY_MODE (n : Nat) : Nat := at' (0x4000 + 0x40 * n) 0x8
/-- R286, RL. -/
def EAS_BG_Y (n : Nat) : Nat := at' (0x4001 + 0x40 * n) 0x1
/-- R286, RL. -/
def EAS_BG_CB (n : Nat) : Nat := at' (0x4001 + 0x40 * n) 0x2
/-- R286, RL. -/
def EAS_BG_CR (n : Nat) : Nat := at' (0x4001 + 0x40 * n) 0x3
/-- R286, RL. -/
def EAS_BG_ALPHA (n : Nat) : Nat := at' (0x4001 + 0x40 * n) 0x4
/-- R286, RL. -/
def EAS_WB_MODE (n : Nat) : Nat := at' (0x4002 + 0x40 * n) 0x1
/-- R286, RL. -/
def EAS_WB_BUF (n : Nat) : Nat := at' (0x4002 + 0x40 * n) 0x2
/-- R286, RO. -/
def EAS_WB_STATE (n : Nat) : Nat := at' (0x4002 + 0x40 * n) 0x3
/-- R286, RL. -/
def EAS_SHADOW (n : Nat) : Nat := at' (0x4003 + 0x40 * n) 0x0
/-- R286, RO. -/
def EAS_STATE_TSTATE (n : Nat) : Nat := at' (0x4004 + 0x40 * n) 0x1
/-- R286, RO. -/
def EAS_STATE_PHYS_CLUSTER (n : Nat) : Nat := at' (0x4004 + 0x40 * n) 0x2
/-- R286, RO. -/
def EAS_STATE_SHADOW (n : Nat) : Nat := at' (0x4004 + 0x40 * n) 0x3
/-- R286, RO. -/
def EAS_STATE_LLP_HOLDER (n : Nat) : Nat := at' (0x4004 + 0x40 * n) 0x4
/-- R286, RO. -/
def EAS_STATE_LIVE_LEAD (n : Nat) : Nat := at' (0x4004 + 0x40 * n) 0x5
/-- R286, RO. -/
def EAS_CANVAS_EVT_FRAME (n : Nat) : Nat := at' (0x4033 + 0x40 * n) 0x1
/-- R286, RO. -/
def EAS_CANVAS_EVT_FRAME_TIME (n : Nat) : Nat := at' (0x4033 + 0x40 * n) 0x2
/-- R287, RL. -/
def LAYER_SRC_KIND (n : Nat) : Nat := at' (0x4400 + 0x10 * n) 0x1
/-- R287, RL. -/
def LAYER_SRC_ID (n : Nat) : Nat := at' (0x4400 + 0x10 * n) 0x2
/-- R287, RL. -/
def LAYER_SRC_KEY (n : Nat) : Nat := at' (0x4400 + 0x10 * n) 0x3
/-- R287, RL. -/
def LAYER_SRC_LOSS (n : Nat) : Nat := at' (0x4400 + 0x10 * n) 0x4
/-- R287, RL. -/
def LAYER_SRC_IN_SPACE (n : Nat) : Nat := at' (0x4400 + 0x10 * n) 0x5
/-- R287, RL. -/
def LAYER_GEOM_CROP_X (n : Nat) : Nat := at' (0x4401 + 0x10 * n) 0x1
/-- R287, RL. -/
def LAYER_GEOM_CROP_Y (n : Nat) : Nat := at' (0x4401 + 0x10 * n) 0x2
/-- R287, RL. -/
def LAYER_GEOM_CROP_W (n : Nat) : Nat := at' (0x4401 + 0x10 * n) 0x3
/-- R287, RL. -/
def LAYER_GEOM_CROP_H (n : Nat) : Nat := at' (0x4401 + 0x10 * n) 0x4
/-- R287, RL. -/
def LAYER_GEOM_DST_X (n : Nat) : Nat := at' (0x4401 + 0x10 * n) 0x5
/-- R287, RL. -/
def LAYER_GEOM_DST_Y (n : Nat) : Nat := at' (0x4401 + 0x10 * n) 0x6
/-- R287, RL. -/
def LAYER_GEOM_DST_W (n : Nat) : Nat := at' (0x4401 + 0x10 * n) 0x7
/-- R287, RL. -/
def LAYER_GEOM_DST_H (n : Nat) : Nat := at' (0x4401 + 0x10 * n) 0x8
/-- R287, RL. -/
def LAYER_BLEND_OPACITY (n : Nat) : Nat := at' (0x4402 + 0x10 * n) 0x1
/-- R287, RL. -/
def LAYER_BLEND_ALPHA_MODE (n : Nat) : Nat := at' (0x4402 + 0x10 * n) 0x2
/-- R287, RL. -/
def LAYER_BLEND_ALPHA_SRC (n : Nat) : Nat := at' (0x4402 + 0x10 * n) 0x3
/-- R287, RL. -/
def LAYER_COLOR_PRESET (n : Nat) : Nat := at' (0x4403 + 0x10 * n) 0x1
/-- R287, RL. -/
def LAYER_COLOR_MATRIX (n j : Nat) : Nat := at' (0x4403 + 0x10 * n) (0x2 + j)
/-- R287, RL. -/
def LAYER_COLOR_INOFF (n j : Nat) : Nat := at' (0x4403 + 0x10 * n) (0xB + j)
/-- R287, RL. -/
def LAYER_COLOR_OUTOFF (n j : Nat) : Nat := at' (0x4403 + 0x10 * n) (0xE + j)
/-- R287, RL. -/
def LAYER_LUT_A_PART (n j : Nat) : Nat := at' (0x4404 + 0x10 * n) (0x1 + j)
/-- R287, RL. -/
def LAYER_LUT_B_PART (n j : Nat) : Nat := at' (0x4405 + 0x10 * n) (0x1 + j)
/-- R287, RL. -/
def LAYER_ENL_NAME (n : Nat) : Nat := at' (0x4406 + 0x10 * n) 0x1
/-- R287, RL. -/
def LAYER_ENL_QUALITY_FLOOR (n : Nat) : Nat := at' (0x4406 + 0x10 * n) 0x2
/-- R287, RL. -/
def LAYER_FENCE_WAIT (n : Nat) : Nat := at' (0x4407 + 0x10 * n) 0x0
/-- R287, RW. -/
def LAYER_FENCE_DONE (n : Nat) : Nat := at' (0x4408 + 0x10 * n) 0x0
/-- R287, RL. -/
def LAYER_FENCE_TIMEOUT (n : Nat) : Nat := at' (0x4409 + 0x10 * n) 0x0
/-- R287, RL. -/
def LAYER_FENCE_ACTION (n : Nat) : Nat := at' (0x440A + 0x10 * n) 0x0
/-- R287, RL. -/
def LAYER_GROUP (n : Nat) : Nat := at' (0x440B + 0x10 * n) 0x0
/-- R287, RO. -/
def LAYER_LSTAT_FLIP_STATE (n : Nat) : Nat := at' (0x440C + 0x10 * n) 0x1
/-- R287, RO. -/
def LAYER_LSTAT_PENDING_FRAMES (n : Nat) : Nat := at' (0x440C + 0x10 * n) 0x2
/-- R287, RO. -/
def LAYER_LSTAT_FLIP_FRAME (n : Nat) : Nat := at' (0x440C + 0x10 * n) 0x3
/-- R287, RO. -/
def LAYER_LSTAT_BUF_ON_AIR (n : Nat) : Nat := at' (0x440C + 0x10 * n) 0x4
/-- R287, RO. -/
def LAYER_LSTAT_SRC_STATE (n : Nat) : Nat := at' (0x440C + 0x10 * n) 0x5
/-- R287, RO. -/
def LAYER_LSTAT_LAST_OUTCOME (n : Nat) : Nat := at' (0x440C + 0x10 * n) 0x6
/-- R288, RW. -/
def PRF_CFG_OUT (n : Nat) : Nat := at' (0x5C00 + 0x10 * n) 0x1
/-- R288, RL. -/
def PRF_CFG_LINK (n : Nat) : Nat := at' (0x5C00 + 0x10 * n) 0x2
/-- R288, RL. -/
def PRF_CFG_X0 (n : Nat) : Nat := at' (0x5C00 + 0x10 * n) 0x3
/-- R288, RL. -/
def PRF_CFG_Y0 (n : Nat) : Nat := at' (0x5C00 + 0x10 * n) 0x4
/-- R288, RL. -/
def PRF_CFG_W (n : Nat) : Nat := at' (0x5C00 + 0x10 * n) 0x5
/-- R288, RL. -/
def PRF_CFG_H (n : Nat) : Nat := at' (0x5C00 + 0x10 * n) 0x6
/-- R288, RL. -/
def PRF_CFG_MODE (n : Nat) : Nat := at' (0x5C00 + 0x10 * n) 0x7
/-- R288, RL. -/
def PRF_CFG_ACTION (n : Nat) : Nat := at' (0x5C00 + 0x10 * n) 0x8
/-- R288, RL. -/
def PRF_CFG_MISMATCH_FRAMES (n : Nat) : Nat := at' (0x5C00 + 0x10 * n) 0x9
/-- R288, RW. -/
def PRF_EXPECTED (n : Nat) : Nat := at' (0x5C01 + 0x10 * n) 0x0
/-- R288, CMD. -/
def PRF_LEARN (n : Nat) : Nat := at' (0x5C02 + 0x10 * n) 0x0
/-- R288, RO. -/
def PRF_STATUS_STATE (n : Nat) : Nat := at' (0x5C03 + 0x10 * n) 0x1
/-- R288, RO. -/
def PRF_STATUS_SIG (n : Nat) : Nat := at' (0x5C03 + 0x10 * n) 0x2
/-- R288, RO. -/
def PRF_STATUS_SIG_FRAME (n : Nat) : Nat := at' (0x5C03 + 0x10 * n) 0x3
/-- R288, RO. -/
def PRF_STATUS_SHADOW_SIG (n : Nat) : Nat := at' (0x5C03 + 0x10 * n) 0x4
/-- R288, RO. -/
def PRF_STATUS_RUN (n : Nat) : Nat := at' (0x5C03 + 0x10 * n) 0x5
/-- R288, RO. -/
def PRF_STATUS_MISMATCHES (n : Nat) : Nat := at' (0x5C03 + 0x10 * n) 0x6
/-- R288, RO. -/
def PRF_STATUS_ACTION_FRAME (n : Nat) : Nat := at' (0x5C03 + 0x10 * n) 0x7
/-- R307, RL. -/
def OUT_ROUTE_FRC_STREAM (n : Nat) : Nat := at' (0x3020 + 0x40 * n) 0x9
/-- R310, RL. -/
def FRC_OTIM_FORMAT (n : Nat) : Nat := at' (0x5800 + 0x40 * n) 0x1
/-- R310, RL. -/
def FRC_OTIM_FAMILY (n : Nat) : Nat := at' (0x5800 + 0x40 * n) 0x2
/-- R310, RL. -/
def FRC_OTIM_TIMING_OFFSET (n : Nat) : Nat := at' (0x5800 + 0x40 * n) 0x3
/-- R310, RL. -/
def FRC_EST_CONF_THR (n : Nat) : Nat := at' (0x5801 + 0x40 * n) 0x1
/-- R310, RL. -/
def FRC_EST_CONF_LO (n : Nat) : Nat := at' (0x5801 + 0x40 * n) 0x2
/-- R310, RL. -/
def FRC_EST_OCC_THR (n : Nat) : Nat := at' (0x5801 + 0x40 * n) 0x3
/-- R310, RL. -/
def FRC_EST_REPEAT_DIFF (n : Nat) : Nat := at' (0x5801 + 0x40 * n) 0x4
/-- R310, RO. -/
def FRC_STREAM (n j : Nat) : Nat := at' ((0x5810 + 0x40 * n) + j) 0x0
/-- R310, RL. -/
def FRC_STREAM_KIND (n j : Nat) : Nat := at' ((0x5810 + 0x40 * n) + j) 0x1
/-- R310, RL. -/
def FRC_STREAM_SRC (n j : Nat) : Nat := at' ((0x5810 + 0x40 * n) + j) 0x2
/-- R310, RL. -/
def FRC_STREAM_MODE (n j : Nat) : Nat := at' ((0x5810 + 0x40 * n) + j) 0x3
/-- R310, RL. -/
def FRC_STREAM_CADENCE (n j : Nat) : Nat := at' ((0x5810 + 0x40 * n) + j) 0x4
/-- R310, RL. -/
def FRC_STREAM_LOSS (n j : Nat) : Nat := at' ((0x5810 + 0x40 * n) + j) 0x5
/-- R310, RO. -/
def FRC_STATE_TSTATE (n : Nat) : Nat := at' (0x5820 + 0x40 * n) 0x1
/-- R310, RO. -/
def FRC_STATE_PHYS_CLUSTER (n : Nat) : Nat := at' (0x5820 + 0x40 * n) 0x2
/-- R310, RO. -/
def FRC_STATE_STACK (n : Nat) : Nat := at' (0x5820 + 0x40 * n) 0x3
/-- R310, RO. -/
def FRC_STATE_PIX_RATE (n : Nat) : Nat := at' (0x5820 + 0x40 * n) 0x4
/-- R310, RO. -/
def FRC_FRC_EVT_FRAME (n : Nat) : Nat := at' (0x5833 + 0x40 * n) 0x1
/-- R310, RO. -/
def FRC_FRC_EVT_FRAME_TIME (n : Nat) : Nat := at' (0x5833 + 0x40 * n) 0x2
/-- R310, RO. -/
def FRC_SSTAT (n j : Nat) : Nat := at' ((0x5834 + 0x40 * n) + j) 0x0
/-- R310, RO. -/
def FRC_SSTAT_STATE (n j : Nat) : Nat := at' ((0x5834 + 0x40 * n) + j) 0x1
/-- R310, RO. -/
def FRC_SSTAT_MODE_ACTIVE (n j : Nat) : Nat := at' ((0x5834 + 0x40 * n) + j) 0x2
/-- R310, RO. -/
def FRC_SSTAT_CADENCE_STATE (n j : Nat) : Nat := at' ((0x5834 + 0x40 * n) + j) 0x3
/-- R310, RO. -/
def FRC_SSTAT_IN_RATE (n j : Nat) : Nat := at' ((0x5834 + 0x40 * n) + j) 0x4
/-- R310, RO. -/
def FRC_SSTAT_W (n j : Nat) : Nat := at' ((0x5834 + 0x40 * n) + j) 0x5
/-- R310, RO. -/
def FRC_SSTAT_DELAY (n j : Nat) : Nat := at' ((0x5834 + 0x40 * n) + j) 0x6
/-- R310, RO. -/
def FRC_SSTAT_LAST_LAT (n j : Nat) : Nat := at' ((0x5834 + 0x40 * n) + j) 0x7
/-- R310, RO. -/
def FRC_SSTAT_LOW_CONF (n j : Nat) : Nat := at' ((0x5834 + 0x40 * n) + j) 0x8
/-- R328, RL. -/
def DST_SRC (n : Nat) : Nat := at' (0x7000 + n) 0x1
/-- R328, RL. -/
def DST_GAIN (n : Nat) : Nat := at' (0x7000 + n) 0x2
/-- R328, RL. -/
def DST_MUTE (n : Nat) : Nat := at' (0x7000 + n) 0x3
/-- R328, RL. -/
def DST_DELAY (n : Nat) : Nat := at' (0x7000 + n) 0x4
/-- R328, RL. -/
def DST_FOLLOW (n : Nat) : Nat := at' (0x7000 + n) 0x5
/-- R328, RL. -/
def DST_XFADE (n : Nat) : Nat := at' (0x7000 + n) 0x6
/-- R328, RL. -/
def DST_CS_MODE (n : Nat) : Nat := at' (0x7000 + n) 0x7
/-- R328, RO. -/
def DST_DELAY_ACTIVE (n : Nat) : Nat := at' (0x7000 + n) 0x8
/-- R328, RO. -/
def DST_V (n : Nat) : Nat := at' (0x7000 + n) 0x9
/-- R328, RO. -/
def DST_STATE (n : Nat) : Nat := at' (0x7000 + n) 0xA
/-- R328, RO. -/
def DST_CLOCK (n : Nat) : Nat := at' (0x7000 + n) 0xB
/-- R328, RO. -/
def DST_RATIO (n : Nat) : Nat := at' (0x7000 + n) 0xC
/-- R328, RO. -/
def DST_FOLLOW_STATE (n : Nat) : Nat := at' (0x7000 + n) 0xD
/-- R328, RO. -/
def DST_SWITCHES (n : Nat) : Nat := at' (0x7000 + n) 0xE
/-- R329, RO. -/
def AIN_STAT_PRESENT (n : Nat) : Nat := at' (0x7800 + 0x10 * n) 0x1
/-- R329, RO. -/
def AIN_STAT_GROUPS (n : Nat) : Nat := at' (0x7800 + 0x10 * n) 0x2
/-- R329, RO. -/
def AIN_STAT_SYNC (n : Nat) : Nat := at' (0x7800 + 0x10 * n) 0x3
/-- R329, RO. -/
def AIN_STAT_RATE (n : Nat) : Nat := at' (0x7800 + 0x10 * n) 0x4
/-- R329, RO. -/
def AIN_STAT_NONPCM (n : Nat) : Nat := at' (0x7800 + 0x10 * n) 0x5
/-- R329, RO. -/
def AIN_STAT_WORD24 (n : Nat) : Nat := at' (0x7800 + 0x10 * n) 0x6
/-- R329, RO. -/
def AIN_STAT_RATE_OFFSET (n : Nat) : Nat := at' (0x7800 + 0x10 * n) 0x7
/-- R329, RO. -/
def AIN_CS_PAIR (n j : Nat) : Nat := at' (0x7801 + 0x10 * n) (0x1 + j)
/-- R329, RO. -/
def AIN_DATATYPE_PAIR (n j : Nat) : Nat := at' (0x7802 + 0x10 * n) (0x1 + j)
/-- R330, RW. -/
def AUD_GAIN_RAMP : Nat := at' 0x7C00 0x1
/-- R330, RW. -/
def AUD_SLEW_LIMIT : Nat := at' 0x7C00 0x2
/-- R330, RW. -/
def AUD_SLEW_RATE : Nat := at' 0x7C00 0x3
/-- R330, RW. -/
def AUD_NONPCM_HOLD : Nat := at' 0x7C00 0x4
/-- R330, RW. -/
def AUD_NONPCM_WAIT : Nat := at' 0x7C00 0x5
/-- R330, RW. -/
def AUD_SD_EXT : Nat := at' 0x7C00 0x6
/-- R330, RO. -/
def AUD_A_MIN_ASRC : Nat := at' 0x7C00 0x7
/-- R330, RO. -/
def AUD_A_MIN_SYNC : Nat := at' 0x7C00 0x8
/-- R330, RW. -/
def TONE_ENABLE (n : Nat) : Nat := at' (0x7C10 + n) 0x1
/-- R330, RW. -/
def TONE_FREQ (n : Nat) : Nat := at' (0x7C10 + n) 0x2
/-- R330, RW. -/
def TONE_LEVEL (n : Nat) : Nat := at' (0x7C10 + n) 0x3
/-- R346, RW. -/
def CST_OP : Nat := at' 0x8000 0x1
/-- R346, RW. -/
def CST_SRC_KIND : Nat := at' 0x8000 0x2
/-- R346, RW. -/
def CST_SRC_BUF : Nat := at' 0x8000 0x3
/-- R346, RW. -/
def CST_SRC_ADDR : Nat := at' 0x8000 0x4
/-- R346, RW. -/
def CST_SRC_PITCH : Nat := at' 0x8000 0x5
/-- R346, RW. -/
def CST_SRC_FORMAT : Nat := at' 0x8000 0x6
/-- R346, RW. -/
def CST_SRC_X : Nat := at' 0x8000 0x7
/-- R346, RW. -/
def CST_SRC_Y : Nat := at' 0x8000 0x8
/-- R346, RW. -/
def CST_W : Nat := at' 0x8000 0x9
/-- R346, RW. -/
def CST_H : Nat := at' 0x8000 0xA
/-- R346, RW. -/
def CST_DST_BUF : Nat := at' 0x8000 0xB
/-- R346, RW. -/
def CST_DST_X : Nat := at' 0x8000 0xC
/-- R346, RW. -/
def CST_DST_Y : Nat := at' 0x8000 0xD
/-- R346, RW. -/
def CST_ROT : Nat := at' 0x8000 0xE
/-- R346, RW. -/
def CST_FLIP : Nat := at' 0x8000 0xF
/-- R346, RW. -/
def CST_FILL : Nat := at' 0x8000 0x10
/-- R346, RW. -/
def CST_WM_LINE : Nat := at' 0x8000 0x11
/-- R346, RW. -/
def CST_FENCE_LAYER : Nat := at' 0x8000 0x12
/-- R346, RW. -/
def CST_FENCE_VALUE : Nat := at' 0x8000 0x13
/-- R346, RW. -/
def CST_DST_READY : Nat := at' 0x8000 0x14
/-- R346, CMD. -/
def CST_GO : Nat := at' 0x8001 0x0
/-- R346, CMD. -/
def CST_ABORT : Nat := at' 0x8002 0x0
/-- R346, RW. -/
def CST_RESERVE : Nat := at' 0x8003 0x0
/-- R346, RO. -/
def CST_STATUS_STATE : Nat := at' 0x8004 0x1
/-- R346, RO. -/
def CST_STATUS_RESULT : Nat := at' 0x8004 0x2
/-- R346, RO. -/
def CST_STATUS_LINES_DONE : Nat := at' 0x8004 0x3
/-- R346, RO. -/
def CST_STATUS_TOP_DONE : Nat := at' 0x8004 0x4
/-- R346, RO. -/
def CST_STATUS_START_TIME : Nat := at' 0x8004 0x5
/-- R346, RO. -/
def CST_STATUS_END_TIME : Nat := at' 0x8004 0x6
/-- R346, RO. -/
def CST_STATUS_OPS : Nat := at' 0x8004 0x7
/-- R346, RO. -/
def CST_STATUS_BYTES : Nat := at' 0x8004 0x8
/-- R346, RW. -/
def CST_IRQ_MASK : Nat := at' 0x8005 0x1
/-- R346, RW. -/
def CST_IRQ_PIN : Nat := at' 0x8005 0x2
/-- R346, RO. -/
def CST_IRQ_PENDING : Nat := at' 0x8005 0x3
/-- R346, CMD. -/
def CST_IRQ_ACK : Nat := at' 0x8005 0x4
/-- R363, RO. -/
def XBAR_XBA_STATE : Nat := at' 0x1A01 0x1
/-- R363, RO. -/
def XBAR_XBB_STATE : Nat := at' 0x1A01 0x2
/-- R363, RO. -/
def XBAR_PLANE_SWITCHES : Nat := at' 0x1A01 0x3
/-- R363, RO. -/
def XBAR_SEGMENTS_LOST : Nat := at' 0x1A01 0x4
/-- R363, RO. -/
def XBAR_DISAGREE : Nat := at' 0x1A01 0x5
/-- R363, RW. -/
def XBAR_FAIL_LIMIT : Nat := at' 0x1A01 0x6
/-- R363, CMD. -/
def XBAR_RETEST : Nat := at' 0x1A01 0x7
/-- R363, RO. -/
def CLUSTERS_CL_STATE (j : Nat) : Nat := at' 0x1A02 (0x1 + j)
/-- R363, RO. -/
def CLUSTERS_FAILOVERS : Nat := at' 0x1A02 0xA
/-- R363, RO. -/
def CLUSTERS_LAST_FAILOVER : Nat := at' 0x1A02 0xB
/-- R363, RO. -/
def CLUSTERS_LAST_INTERRUPT : Nat := at' 0x1A02 0xC
/-- R363, CMD. -/
def CLUSTERS_RETEST : Nat := at' 0x1A02 0xD
/-- R363, RO. -/
def PROT_PROTECTED_OUT : Nat := at' 0x1A03 0x1
/-- R363, RO. -/
def PROT_EXPOSED_OUT : Nat := at' 0x1A03 0x2
/-- R363, RO. -/
def PROT_REDUNDANCY : Nat := at' 0x1A03 0x3
/-- R363, RW. -/
def PROT_PC_FAIL_LIMIT : Nat := at' 0x1A03 0x4
/-- R363, RW. -/
def TSTRIP_ENABLE : Nat := at' 0x1A04 0x1
/-- R363, RW. -/
def TSTRIP_ROT_PERIOD : Nat := at' 0x1A04 0x2
/-- R363, RO. -/
def TSTRIP_STATE : Nat := at' 0x1A04 0x3
/-- R363, RO. -/
def TSTRIP_ROT_TARGET : Nat := at' 0x1A04 0x4
/-- R363, RO. -/
def TSTRIP_NEXT_ROT : Nat := at' 0x1A04 0x5
/-- R363, RO. -/
def TSTRIP_ROTATIONS : Nat := at' 0x1A04 0x6
/-- R363, RO. -/
def TSTRIP_ROT_ABORTS : Nat := at' 0x1A04 0x7
/-- R363, RO. -/
def TSTRIP_PASSES : Nat := at' 0x1A04 0x8
/-- R363, RO. -/
def TSTRIP_LAST_PASS : Nat := at' 0x1A04 0x9
/-- R363, RO. -/
def TSTRIP_SHADOWED : Nat := at' 0x1A04 0xA
/-- R363, CMD. -/
def TSTRIP_ROTATE_NOW : Nat := at' 0x1A04 0xB
/-- R363, RO. -/
def MGMT_ACTIVE : Nat := at' 0x1A05 0x1
/-- R363, RO. -/
def MGMT_STANDBY_STATE : Nat := at' 0x1A05 0x2
/-- R363, RW. -/
def MGMT_WDT : Nat := at' 0x1A05 0x3
/-- R363, RO. -/
def MGMT_SWITCHOVERS : Nat := at' 0x1A05 0x4
/-- R363, RO. -/
def MGMT_LAST_SWITCH : Nat := at' 0x1A05 0x5
/-- R363, CMD. -/
def MGMT_SWITCHOVER : Nat := at' 0x1A05 0x6
/-- R372, RO. -/
def PD_NAME (n : Nat) : Nat := at' (0x1800 + n) 0x1
/-- R372, RW. -/
def PD_ENABLE (n : Nat) : Nat := at' (0x1800 + n) 0x2
/-- R372, RO. -/
def PD_STATE (n : Nat) : Nat := at' (0x1800 + n) 0x3
/-- R372, RO. -/
def PD_FUNCS (n : Nat) : Nat := at' (0x1800 + n) 0x4
/-- R372, RO. -/
def PD_FUNCS_MASK (n : Nat) : Nat := at' (0x1800 + n) 0x5
/-- R372, RO. -/
def PD_READY_TIME (n : Nat) : Nat := at' (0x1800 + n) 0x6
/-- R372, RO. -/
def PD_LAST_ON (n : Nat) : Nat := at' (0x1800 + n) 0x7
/-- R372, CMD. -/
def PD_FORCE_OFF (n : Nat) : Nat := at' (0x1800 + n) 0x8
/-- R372, RO. -/
def PD_FAULTS (n : Nat) : Nat := at' (0x1800 + n) 0x9
/-- R376, RO. -/
def FW_SLOT_A_VER : Nat := at' 0x1010 0x1
/-- R376, RO. -/
def FW_SLOT_B_VER : Nat := at' 0x1010 0x2
/-- R376, RO. -/
def FW_SLOT_A_STATE : Nat := at' 0x1010 0x3
/-- R376, RO. -/
def FW_SLOT_B_STATE : Nat := at' 0x1010 0x4
/-- R376, RO. -/
def FW_BOOT_SLOT : Nat := at' 0x1010 0x5
/-- R376, RO. -/
def FW_PENDING : Nat := at' 0x1010 0x6
/-- R376, CMD. -/
def FW_ACTIVATE : Nat := at' 0x1010 0x7
/-- R376, CMD. -/
def FW_CONFIRM : Nat := at' 0x1010 0x8
/-- R376, RO. -/
def FW_SEC_VERSION : Nat := at' 0x1010 0x9
/-- R376, CMD. -/
def FW_VERIFY : Nat := at' 0x1010 0xA
/-- R376, RW. -/
def FLASH_ADDR : Nat := at' 0x1020 0x1
/-- R376, CMD. -/
def FLASH_ERASE : Nat := at' 0x1020 0x2
/-- R376, RW. -/
def FLASH_DATA : Nat := at' 0x1020 0x3
/-- R376, RO. -/
def FLASH_STATE : Nat := at' 0x1020 0x4
/-- R376, RO. -/
def RESET_CAUSE : Nat := at' 0x1840 0x1
/-- R376, CMD. -/
def RESET_WARM : Nat := at' 0x1840 0x2
/-- R376, RO. -/
def RESET_READY_MASK : Nat := at' 0x1840 0x3
/-- R376, RO. -/
def RESET_BOOT_TIME : Nat := at' 0x1840 0x4
/-- R389, RO. -/
def NEG_STATE : Nat := at' 0x1C00 0x1
/-- R389, RO. -/
def NEG_WRITTEN : Nat := at' 0x1C00 0x2
/-- R389, RW. -/
def NEG_RECORD_MASK : Nat := at' 0x1C00 0x3
/-- R389, RW. -/
def NEG_FREEZE_MASK : Nat := at' 0x1C00 0x4
/-- R389, RW. -/
def NEG_FREEZE_CODE (j : Nat) : Nat := at' 0x1C00 (0x5 + j)
/-- R389, RW. -/
def NEG_POST : Nat := at' 0x1C00 0x9
/-- R389, RO. -/
def NEG_FREEZE_SEQ : Nat := at' 0x1C00 0xA
/-- R389, RO. -/
def NEG_MISSED : Nat := at' 0x1C00 0xB
/-- R389, RW. -/
def NEG_AUTO_PRINT : Nat := at' 0x1C00 0xC
/-- R389, CMD. -/
def NEG_RELEASE : Nat := at' 0x1C00 0xD
/-- R389, CMD. -/
def NEG_PRINT : Nat := at' 0x1C00 0xE
/-- R389, RW. -/
def NEG_LOCK : Nat := at' 0x1C00 0xF
/-- R389, RO. -/
def NEG_PRINT_STATE : Nat := at' 0x1C00 0x10
/-- R389, RO. -/
def SLOT_STATE (n : Nat) : Nat := at' (0x1C10 + n) 0x1
/-- R389, RO. -/
def SLOT_PRINT_SEQ (n : Nat) : Nat := at' (0x1C10 + n) 0x2
/-- R389, RO. -/
def SLOT_CAUSE (n : Nat) : Nat := at' (0x1C10 + n) 0x3
/-- R389, RO. -/
def SLOT_ENTRIES (n : Nat) : Nat := at' (0x1C10 + n) 0x4
/-- R389, RO. -/
def SLOT_NEWEST (n : Nat) : Nat := at' (0x1C10 + n) 0x5
/-- R389, RO. -/
def NEG_NEG_ENTRY (n j : Nat) : Nat := at' (0x1C40 + n) (0x1 + j)
/-- R397, RO. -/
def GPIO_LEVEL : Nat := at' 0x1E00 0x1
/-- R397, RW. -/
def GPIO_OUT : Nat := at' 0x1E00 0x2
/-- R397, RO. -/
def GPIO_ACTIVE : Nat := at' 0x1E00 0x3
/-- R397, RW. -/
def PIN_FUNC (n : Nat) : Nat := at' (0x1E20 + n) 0x1
/-- R397, RW. -/
def PIN_ARG (n : Nat) : Nat := at' (0x1E20 + n) 0x2
/-- R397, RW. -/
def PIN_POLARITY (n : Nat) : Nat := at' (0x1E20 + n) 0x3
/-- R397, RW. -/
def PIN_FILTER (n : Nat) : Nat := at' (0x1E20 + n) 0x4
/-- R397, RW. -/
def PIN_PULL (n : Nat) : Nat := at' (0x1E20 + n) 0x5
/-- R397, RW. -/
def PIN_PULSE (n : Nat) : Nat := at' (0x1E20 + n) 0x6
/-- R58, member m of STATS.RUN. -/
def IN_RUN (n m : Nat) : Nat := at' (0x2030 + 0x40 * n) m
/-- R58, member m of STATS.LAST. -/
def IN_LAST (n m : Nat) : Nat := at' (0x2031 + 0x40 * n) m
/-- R58, member m of STATS.TOTAL. -/
def IN_TOTAL (n m : Nat) : Nat := at' (0x2032 + 0x40 * n) m
/-- R58, STATS.CLEAR. -/
def IN_STATS_CLEAR (n : Nat) : Nat := at' (0x203F + 0x40 * n) 0
/-- R58, member m of STATS.RUN. -/
def OUT_RUN (n m : Nat) : Nat := at' (0x3030 + 0x40 * n) m
/-- R58, member m of STATS.LAST. -/
def OUT_LAST (n m : Nat) : Nat := at' (0x3031 + 0x40 * n) m
/-- R58, member m of STATS.TOTAL. -/
def OUT_TOTAL (n m : Nat) : Nat := at' (0x3032 + 0x40 * n) m
/-- R58, STATS.CLEAR. -/
def OUT_STATS_CLEAR (n : Nat) : Nat := at' (0x303F + 0x40 * n) 0
/-- R58, member m of STATS.RUN. -/
def EAS_RUN (n m : Nat) : Nat := at' (0x4030 + 0x40 * n) m
/-- R58, member m of STATS.LAST. -/
def EAS_LAST (n m : Nat) : Nat := at' (0x4031 + 0x40 * n) m
/-- R58, member m of STATS.TOTAL. -/
def EAS_TOTAL (n m : Nat) : Nat := at' (0x4032 + 0x40 * n) m
/-- R58, STATS.CLEAR. -/
def EAS_STATS_CLEAR (n : Nat) : Nat := at' (0x403F + 0x40 * n) 0
/-- R58, member m of STATS.RUN. -/
def FRC_RUN (n m : Nat) : Nat := at' (0x5830 + 0x40 * n) m
/-- R58, member m of STATS.LAST. -/
def FRC_LAST (n m : Nat) : Nat := at' (0x5831 + 0x40 * n) m
/-- R58, member m of STATS.TOTAL. -/
def FRC_TOTAL (n m : Nat) : Nat := at' (0x5832 + 0x40 * n) m
/-- R58, STATS.CLEAR. -/
def FRC_STATS_CLEAR (n : Nat) : Nat := at' (0x583F + 0x40 * n) 0
/-- R58, member m of STATS.RUN. -/
def AIN_RUN (n m : Nat) : Nat := at' (0x780C + 0x10 * n) m
/-- R58, member m of STATS.LAST. -/
def AIN_LAST (n m : Nat) : Nat := at' (0x780D + 0x10 * n) m
/-- R58, member m of STATS.TOTAL. -/
def AIN_TOTAL (n m : Nat) : Nat := at' (0x780E + 0x10 * n) m
/-- R58, STATS.CLEAR. -/
def AIN_STATS_CLEAR (n : Nat) : Nat := at' (0x780F + 0x10 * n) 0
/-- R92, R109, RO: FREQ of the FREQIN candidate. -/
def REF_FREQ (n : Nat) : Nat := at' (0x9008 + 0x20 * n) 0

end Sys2Proof.Machine.K
end

