-- ==== Sys2Proof/Machine/ObjTypes.lean ====
section
/-! DEFINITION. What the object dictionary says of one object: its type (R39), access code (R40), levels (R41), default (R42) and
range. -/
namespace Sys2Proof.Machine

/-- The type encodings of R39; the number is the length in bytes. -/
inductive Ty where
  | bool
  | u (n : Nat)
  | i (n : Nat)
  | ptime
  | str (n : Nat)
  | oct (n : Nat)
deriving DecidableEq, Repr

/-- Bytes a value of the type takes (R39). -/
def Ty.size : Ty → Nat
  | .bool => 1
  | .u n => n
  | .i n => n
  | .ptime => 10
  | .str n => n
  | .oct n => n

/-- The access codes of R40. -/
inductive Acc where
  | ro | rw | wo | rl | cmd
deriving DecidableEq, Repr

/-- The range an object's Meaning states for a written value. -/
inductive Rng where
  /-- Every value of the type. -/
  | any
  /-- From `lo` to `hi`. -/
  | rng (lo hi : Nat)
  /-- From `lo` to `hi`, signed. -/
  | srng (lo hi : Int)
  /-- No bit outside the mask (R39). -/
  | mask (m : Nat)
  /-- One of the listed values. -/
  | set (l : List Nat)
  /-- A multiple of `m` from `lo` to `hi`. -/
  | mul (m lo hi : Nat)
  /-- From `lo` to `hi`, or one of the listed values. -/
  | rngOr (lo hi : Nat) (l : List Nat)
  /-- 64 entries of two bytes, each at most 4,095. -/
  | lut
deriving DecidableEq, Repr

/-- A run of neighbouring objects: offset in the block, first sub, how many subs, type, access, read and write level (4: none),
default, range. -/
structure Row where
  off : Nat
  sub : Nat
  n : Nat
  ty : Ty
  acc : Acc
  rd : Nat
  wr : Nat
  dflt : Nat
  rng : Rng
deriving DecidableEq, Repr

/-- The blocks of the index map (R38); `glob` stands for the single objects. -/
inductive Kind where
  | glob | slv | ctl | sess | pd | slot | negb | pin | inp | out | eas | lay | enl | frc | prf | buf | ring | dst | ain | tone
  | ref | sel | gsyn | clko | prio | port
deriving DecidableEq, Repr

/-- A block of the index map: kind, base index, stride, instances, objects. -/
structure Blk where
  kind : Kind
  base : Nat
  stride : Nat
  count : Nat
  rows : List Row
deriving DecidableEq, Repr

end Sys2Proof.Machine
end

