-- ==== Sys2Proof/Machine/ObjTables.lean ====
section
/-! DEFINITION. The object dictionary as tables: one `Row` for each run of neighbouring objects of one type and default, in the
order of the object tables of spec/02 to spec/19 (R36 to R42, R52, R53, R57, R58, R71, R82 to R90, R119, R120, R132, R154, R174,
R193, R212, R237, R238, R255, R286 to R288, R310, R328 to R331, R346, R363, R377, R391, R397).
Fields of a row: offset, first sub, number of subs, type, access, read level, write level, default, range. -/
namespace Sys2Proof.Machine

/-- Objects of the global block, part 0. -/
def globRows0 : List Row := [
  ⟨0x1000, 0x0, 1, .u 1, .ro, 0, 4, 9, .any⟩, -- IDENT
  ⟨0x1000, 0x1, 1, .str 8, .ro, 0, 4, 0x5a414c4e414e0000, .any⟩, -- IDENT.VENDOR
  ⟨0x1000, 0x2, 1, .str 8, .ro, 0, 4, 0x5a48343834380000, .any⟩, -- IDENT.PART
  ⟨0x1000, 0x3, 1, .str 4, .ro, 0, 4, 0x42300000, .any⟩, -- IDENT.STEPPING
  ⟨0x1000, 0x4, 1, .u 4, .ro, 0, 4, 0, .any⟩, -- IDENT.FW_VERSION
  ⟨0x1000, 0x5, 1, .u 1, .ro, 0, 4, 0, .any⟩, -- IDENT.FW_SLOT
  ⟨0x1000, 0x6, 1, .u 1, .ro, 0, 4, 3, .any⟩, -- IDENT.GEN_MAX
  ⟨0x1000, 0x7, 1, .u 1, .ro, 0, 4, 2, .any⟩, -- IDENT.GEN_MIN
  ⟨0x1000, 0x8, 1, .oct 8, .ro, 0, 4, 0, .any⟩, -- IDENT.SERIAL
  ⟨0x1000, 0x9, 1, .u 8, .ro, 0, 4, 0, .any⟩, -- IDENT.CFG_SEQ
  ⟨0x1010, 0x0, 1, .u 1, .ro, 0, 4, 10, .any⟩, -- FW
  ⟨0x1010, 0x1, 1, .u 4, .ro, 0, 4, 0, .any⟩, -- FW.SLOT_A_VER
  ⟨0x1010, 0x2, 1, .u 4, .ro, 0, 4, 0, .any⟩, -- FW.SLOT_B_VER
  ⟨0x1010, 0x3, 1, .u 1, .ro, 0, 4, 0, .any⟩, -- FW.SLOT_A_STATE
  ⟨0x1010, 0x4, 1, .u 1, .ro, 0, 4, 0, .any⟩, -- FW.SLOT_B_STATE
  ⟨0x1010, 0x5, 1, .u 1, .ro, 0, 4, 0, .any⟩, -- FW.BOOT_SLOT
  ⟨0x1010, 0x6, 1, .u 1, .ro, 0, 4, 255, .any⟩, -- FW.PENDING
  ⟨0x1010, 0x7, 1, .u 1, .cmd, 0, 3, 0, .rng 0 1⟩, -- FW.ACTIVATE
  ⟨0x1010, 0x8, 1, .u 1, .cmd, 0, 3, 0, .set [1]⟩, -- FW.CONFIRM
  ⟨0x1010, 0x9, 1, .u 2, .ro, 0, 4, 0, .any⟩, -- FW.SEC_VERSION
  ⟨0x1010, 0xA, 1, .u 1, .cmd, 0, 3, 0, .rng 0 1⟩, -- FW.VERIFY
  ⟨0x1020, 0x0, 1, .u 1, .ro, 0, 4, 4, .any⟩, -- FLASH
  ⟨0x1020, 0x1, 1, .u 4, .rw, 0, 3, 0, .mul 1024 0 0x1FFFC00⟩, -- FLASH.ADDR
  ⟨0x1020, 0x2, 1, .u 1, .cmd, 0, 3, 0, .set [1]⟩, -- FLASH.ERASE
  ⟨0x1020, 0x3, 1, .oct 1024, .rw, 3, 3, 0, .any⟩, -- FLASH.DATA
  ⟨0x1020, 0x4, 1, .u 1, .ro, 0, 4, 0, .any⟩, -- FLASH.STATE
  ⟨0x1100, 0x0, 1, .u 1, .ro, 0, 4, 7, .any⟩, -- QCP
  ⟨0x1100, 0x1, 1, .u 1, .ro, 0, 4, 0, .any⟩, -- QCP.SESSIONS_OPEN
  ⟨0x1100, 0x2, 1, .u 2, .rw, 0, 2, 30, .rng 5 3600⟩, -- QCP.SESSION_TIMEOUT
  ⟨0x1100, 0x3, 1, .u 2, .rw, 0, 2, 60, .rng 0 3600⟩, -- QCP.RESUME_WINDOW
  ⟨0x1100, 0x4, 1, .bool, .rw, 0, 3, 1, .any⟩, -- QCP.VIEW_OPEN
  ⟨0x1100, 0x5, 1, .u 1, .rw, 0, 3, 4, .rng 1 16⟩, -- QCP.AUTH_FAIL_LIMIT
  ⟨0x1100, 0x6, 1, .u 2, .rw, 0, 2, 2000, .rng 100 10000⟩, -- QCP.REPLAY_WINDOW
  ⟨0x1100, 0x7, 1, .u 4, .ro, 0, 4, 0, .any⟩, -- QCP.STALE_SEQ
  ⟨0x1101, 0x0, 1, .oct 32, .wo, 0, 3, 0, .any⟩, -- KEY[L]
  ⟨0x1102, 0x0, 1, .oct 32, .wo, 0, 3, 0, .any⟩, -- KEY[L]
  ⟨0x1103, 0x0, 1, .oct 32, .wo, 0, 3, 0, .any⟩, -- KEY[L]
  ⟨0x1104, 0x0, 1, .oct 32, .wo, 0, 3, 0, .any⟩, -- KEY[L]
  ⟨0x1140, 0x0, 1, .u 1, .ro, 0, 4, 1, .any⟩, -- SPI
  ⟨0x1140, 0x1, 1, .u 4, .ro, 0, 4, 0, .any⟩ -- SPI.RX_DISCARD
]
/-- Objects of the global block, part 1. -/
def globRows1 : List Row := [
  ⟨0x1200, 0x0, 1, .u 1, .ro, 0, 4, 2, .any⟩, -- NOTIF
  ⟨0x1200, 0x1, 1, .u 2, .ro, 0, 4, 0, .any⟩, -- NOTIF.SUBS_IN_USE
  ⟨0x1200, 0x2, 1, .u 4, .ro, 0, 4, 0, .any⟩, -- NOTIF.LOST
  ⟨0x1201, 0x0, 1, .u 1, .ro, 0, 4, 2, .any⟩, -- EVLOG
  ⟨0x1201, 0x1, 1, .u 4, .ro, 0, 4, 0, .any⟩, -- EVLOG.HEAD
  ⟨0x1201, 0x2, 1, .u 2, .ro, 0, 4, 1024, .any⟩, -- EVLOG.DEPTH
  ⟨0x1240, 0x0, 1, .u 1, .ro, 0, 4, 128, .any⟩, -- EVLOG.BANK[j]
  ⟨0x1240, 0x1, 128, .oct 32, .ro, 0, 4, 0, .any⟩, -- EVLOG.ENTRY
  ⟨0x1241, 0x0, 1, .u 1, .ro, 0, 4, 128, .any⟩, -- EVLOG.BANK[j]
  ⟨0x1241, 0x1, 128, .oct 32, .ro, 0, 4, 0, .any⟩, -- EVLOG.ENTRY
  ⟨0x1242, 0x0, 1, .u 1, .ro, 0, 4, 128, .any⟩, -- EVLOG.BANK[j]
  ⟨0x1242, 0x1, 128, .oct 32, .ro, 0, 4, 0, .any⟩, -- EVLOG.ENTRY
  ⟨0x1243, 0x0, 1, .u 1, .ro, 0, 4, 128, .any⟩, -- EVLOG.BANK[j]
  ⟨0x1243, 0x1, 128, .oct 32, .ro, 0, 4, 0, .any⟩, -- EVLOG.ENTRY
  ⟨0x1244, 0x0, 1, .u 1, .ro, 0, 4, 128, .any⟩, -- EVLOG.BANK[j]
  ⟨0x1244, 0x1, 128, .oct 32, .ro, 0, 4, 0, .any⟩, -- EVLOG.ENTRY
  ⟨0x1245, 0x0, 1, .u 1, .ro, 0, 4, 128, .any⟩, -- EVLOG.BANK[j]
  ⟨0x1245, 0x1, 128, .oct 32, .ro, 0, 4, 0, .any⟩, -- EVLOG.ENTRY
  ⟨0x1246, 0x0, 1, .u 1, .ro, 0, 4, 128, .any⟩, -- EVLOG.BANK[j]
  ⟨0x1246, 0x1, 128, .oct 32, .ro, 0, 4, 0, .any⟩, -- EVLOG.ENTRY
  ⟨0x1247, 0x0, 1, .u 1, .ro, 0, 4, 128, .any⟩, -- EVLOG.BANK[j]
  ⟨0x1247, 0x1, 128, .oct 32, .ro, 0, 4, 0, .any⟩, -- EVLOG.ENTRY
  ⟨0x1400, 0x0, 1, .u 1, .ro, 0, 4, 5, .any⟩, -- COMMIT
  ⟨0x1400, 0x1, 1, .u 4, .ro, 0, 4, 1, .any⟩, -- COMMIT.NEXT_SEQ
  ⟨0x1400, 0x2, 1, .u 1, .ro, 0, 4, 255, .any⟩, -- COMMIT.LAST_SALVO
  ⟨0x1400, 0x3, 1, .u 4, .ro, 0, 4, 0, .any⟩, -- COMMIT.ADMITTED
  ⟨0x1400, 0x4, 1, .u 4, .ro, 0, 4, 0, .any⟩, -- COMMIT.REFUSED
  ⟨0x1400, 0x5, 1, .u 4, .rw, 0, 2, 3600, .rng 1 86400⟩, -- COMMIT.AT_HORIZON
  ⟨0x1401, 0x0, 1, .oct 216, .cmd, 0, 1, 0, .any⟩, -- LATENT_DISCARD
  ⟨0x1840, 0x0, 1, .u 1, .ro, 0, 4, 4, .any⟩, -- RESET
  ⟨0x1840, 0x1, 1, .u 1, .ro, 0, 4, 0, .any⟩, -- RESET.CAUSE
  ⟨0x1840, 0x2, 1, .u 1, .cmd, 0, 3, 0, .set [1]⟩, -- RESET.WARM
  ⟨0x1840, 0x3, 1, .u 8, .ro, 0, 4, 0, .any⟩, -- RESET.READY_MASK
  ⟨0x1840, 0x4, 1, .u 4, .ro, 0, 4, 0, .any⟩, -- RESET.BOOT_TIME
  ⟨0x1A00, 0x0, 1, .u 1, .ro, 0, 4, 10, .any⟩, -- CLMAP
  ⟨0x1A00, 0x1, 1, .u 1, .ro, 0, 4, 0, .any⟩, -- CLMAP.PHYS[c]
  ⟨0x1A00, 0x2, 1, .u 1, .ro, 0, 4, 1, .any⟩, -- CLMAP.PHYS[c]
  ⟨0x1A00, 0x3, 1, .u 1, .ro, 0, 4, 2, .any⟩, -- CLMAP.PHYS[c]
  ⟨0x1A00, 0x4, 1, .u 1, .ro, 0, 4, 3, .any⟩, -- CLMAP.PHYS[c]
  ⟨0x1A00, 0x5, 1, .u 1, .ro, 0, 4, 4, .any⟩ -- CLMAP.PHYS[c]
]
/-- Objects of the global block, part 2. -/
def globRows2 : List Row := [
  ⟨0x1A00, 0x6, 1, .u 1, .ro, 0, 4, 5, .any⟩, -- CLMAP.PHYS[c]
  ⟨0x1A00, 0x7, 1, .u 1, .ro, 0, 4, 6, .any⟩, -- CLMAP.PHYS[c]
  ⟨0x1A00, 0x8, 1, .u 1, .ro, 0, 4, 7, .any⟩, -- CLMAP.PHYS[c]
  ⟨0x1A00, 0x9, 1, .u 1, .ro, 0, 4, 8, .any⟩, -- CLMAP.SPARE
  ⟨0x1A00, 0xA, 1, .u 4, .ro, 0, 4, 0, .any⟩, -- CLMAP.SEQ
  ⟨0x1A01, 0x0, 1, .u 1, .ro, 0, 4, 7, .any⟩, -- XBAR
  ⟨0x1A01, 0x1, 1, .u 1, .ro, 0, 4, 0, .any⟩, -- XBAR.XBA_STATE
  ⟨0x1A01, 0x2, 1, .u 1, .ro, 0, 4, 0, .any⟩, -- XBAR.XBB_STATE
  ⟨0x1A01, 0x3, 1, .u 4, .ro, 0, 4, 0, .any⟩, -- XBAR.PLANE_SWITCHES
  ⟨0x1A01, 0x4, 1, .u 4, .ro, 0, 4, 0, .any⟩, -- XBAR.SEGMENTS_LOST
  ⟨0x1A01, 0x5, 1, .u 4, .ro, 0, 4, 0, .any⟩, -- XBAR.DISAGREE
  ⟨0x1A01, 0x6, 1, .u 2, .rw, 0, 3, 16, .rng 1 65535⟩, -- XBAR.FAIL_LIMIT
  ⟨0x1A01, 0x7, 1, .u 1, .cmd, 0, 2, 0, .rng 0 1⟩, -- XBAR.RETEST
  ⟨0x1A02, 0x0, 1, .u 1, .ro, 0, 4, 13, .any⟩, -- CLUSTERS
  ⟨0x1A02, 0x1, 9, .u 1, .ro, 0, 4, 0, .any⟩, -- CLUSTERS.CL_STATE[p]
  ⟨0x1A02, 0xA, 1, .u 4, .ro, 0, 4, 0, .any⟩, -- CLUSTERS.FAILOVERS
  ⟨0x1A02, 0xB, 1, .ptime, .ro, 0, 4, 0, .any⟩, -- CLUSTERS.LAST_FAILOVER
  ⟨0x1A02, 0xC, 1, .u 4, .ro, 0, 4, 0, .any⟩, -- CLUSTERS.LAST_INTERRUPT
  ⟨0x1A02, 0xD, 1, .u 1, .cmd, 0, 2, 255, .rng 0 8⟩, -- CLUSTERS.RETEST
  ⟨0x1A03, 0x0, 1, .u 1, .ro, 0, 4, 4, .any⟩, -- PROT
  ⟨0x1A03, 0x1, 1, .u 8, .ro, 0, 4, 0, .any⟩, -- PROT.PROTECTED_OUT
  ⟨0x1A03, 0x2, 1, .u 8, .ro, 0, 4, 0, .any⟩, -- PROT.EXPOSED_OUT
  ⟨0x1A03, 0x3, 1, .u 1, .ro, 0, 4, 63, .any⟩, -- PROT.REDUNDANCY
  ⟨0x1A03, 0x4, 1, .u 2, .rw, 0, 3, 4, .rng 1 1000⟩, -- PROT.PC_FAIL_LIMIT
  ⟨0x1A04, 0x0, 1, .u 1, .ro, 0, 4, 11, .any⟩, -- TSTRIP
  ⟨0x1A04, 0x1, 1, .bool, .rw, 0, 3, 1, .any⟩, -- TSTRIP.ENABLE
  ⟨0x1A04, 0x2, 1, .u 2, .rw, 0, 2, 15, .rng 0 1440⟩, -- TSTRIP.ROT_PERIOD
  ⟨0x1A04, 0x3, 1, .u 1, .ro, 0, 4, 0, .any⟩, -- TSTRIP.STATE
  ⟨0x1A04, 0x4, 1, .u 1, .ro, 0, 4, 0, .any⟩, -- TSTRIP.ROT_TARGET
  ⟨0x1A04, 0x5, 1, .ptime, .ro, 0, 4, 0, .any⟩, -- TSTRIP.NEXT_ROT
  ⟨0x1A04, 0x6, 1, .u 4, .ro, 0, 4, 0, .any⟩, -- TSTRIP.ROTATIONS
  ⟨0x1A04, 0x7, 1, .u 4, .ro, 0, 4, 0, .any⟩, -- TSTRIP.ROT_ABORTS
  ⟨0x1A04, 0x8, 1, .u 4, .ro, 0, 4, 0, .any⟩, -- TSTRIP.PASSES
  ⟨0x1A04, 0x9, 1, .ptime, .ro, 0, 4, 0, .any⟩, -- TSTRIP.LAST_PASS
  ⟨0x1A04, 0xA, 1, .u 2, .ro, 0, 4, 0, .any⟩, -- TSTRIP.SHADOWED
  ⟨0x1A04, 0xB, 1, .u 1, .cmd, 0, 2, 0, .set [1]⟩, -- TSTRIP.ROTATE_NOW
  ⟨0x1A05, 0x0, 1, .u 1, .ro, 0, 4, 6, .any⟩, -- MGMT
  ⟨0x1A05, 0x1, 1, .u 1, .ro, 0, 4, 0, .any⟩, -- MGMT.ACTIVE
  ⟨0x1A05, 0x2, 1, .u 1, .ro, 0, 4, 0, .any⟩, -- MGMT.STANDBY_STATE
  ⟨0x1A05, 0x3, 1, .u 2, .rw, 0, 3, 50, .rng 20 100⟩ -- MGMT.WDT
]
/-- Objects of the global block, part 3. -/
def globRows3 : List Row := [
  ⟨0x1A05, 0x4, 1, .u 4, .ro, 0, 4, 0, .any⟩, -- MGMT.SWITCHOVERS
  ⟨0x1A05, 0x5, 1, .ptime, .ro, 0, 4, 0, .any⟩, -- MGMT.LAST_SWITCH
  ⟨0x1A05, 0x6, 1, .u 1, .cmd, 0, 3, 0, .set [1]⟩, -- MGMT.SWITCHOVER
  ⟨0x1C00, 0x0, 1, .u 1, .ro, 0, 4, 16, .any⟩, -- NEG
  ⟨0x1C00, 0x1, 1, .u 1, .ro, 0, 4, 0, .any⟩, -- NEG.STATE
  ⟨0x1C00, 0x2, 1, .u 4, .ro, 0, 4, 0, .any⟩, -- NEG.WRITTEN
  ⟨0x1C00, 0x3, 1, .u 2, .rw, 0, 2, 1022, .mask 0x03FE⟩, -- NEG.RECORD_MASK
  ⟨0x1C00, 0x4, 1, .u 2, .rw, 0, 2, 0, .mask 0x03FE⟩, -- NEG.FREEZE_MASK
  ⟨0x1C00, 0x5, 1, .u 2, .rw, 0, 2, 0x7006, .any⟩, -- NEG.FREEZE_CODE[i]
  ⟨0x1C00, 0x6, 1, .u 2, .rw, 0, 2, 0x5003, .any⟩, -- NEG.FREEZE_CODE[i]
  ⟨0x1C00, 0x7, 1, .u 2, .rw, 0, 2, 0x3010, .any⟩, -- NEG.FREEZE_CODE[i]
  ⟨0x1C00, 0x8, 1, .u 2, .rw, 0, 2, 0x7001, .any⟩, -- NEG.FREEZE_CODE[i]
  ⟨0x1C00, 0x9, 1, .u 2, .rw, 0, 2, 256, .rng 0 4096⟩, -- NEG.POST
  ⟨0x1C00, 0xA, 1, .u 4, .ro, 0, 4, 0, .any⟩, -- NEG.FREEZE_SEQ
  ⟨0x1C00, 0xB, 1, .u 4, .ro, 0, 4, 0, .any⟩, -- NEG.MISSED
  ⟨0x1C00, 0xC, 1, .bool, .rw, 0, 2, 1, .any⟩, -- NEG.AUTO_PRINT
  ⟨0x1C00, 0xD, 1, .u 1, .cmd, 0, 1, 0, .set [1]⟩, -- NEG.RELEASE
  ⟨0x1C00, 0xE, 1, .u 1, .cmd, 0, 1, 255, .rngOr 0 3 [0xFF]⟩, -- NEG.PRINT
  ⟨0x1C00, 0xF, 1, .u 1, .rw, 0, 3, 0, .mask 0x0F⟩, -- NEG.LOCK
  ⟨0x1C00, 0x10, 1, .u 1, .ro, 0, 4, 0, .any⟩, -- NEG.PRINT_STATE
  ⟨0x1E00, 0x0, 1, .u 1, .ro, 0, 4, 3, .any⟩, -- GPIO
  ⟨0x1E00, 0x1, 1, .u 4, .ro, 0, 4, 0, .any⟩, -- GPIO.LEVEL
  ⟨0x1E00, 0x2, 1, .u 4, .rw, 0, 1, 0, .any⟩, -- GPIO.OUT
  ⟨0x1E00, 0x3, 1, .u 4, .ro, 0, 4, 0, .any⟩, -- GPIO.ACTIVE
  ⟨0x1E10, 0x0, 1, .u 1, .ro, 0, 4, 2, .any⟩, -- IRQSUM
  ⟨0x1E10, 0x1, 1, .u 8, .ro, 0, 4, 0, .any⟩, -- IRQSUM.PIN0
  ⟨0x1E10, 0x2, 1, .u 8, .ro, 0, 4, 0, .any⟩, -- IRQSUM.PIN1
  ⟨0x6800, 0x0, 1, .u 1, .ro, 0, 4, 12, .any⟩, -- FS
  ⟨0x6800, 0x1, 1, .u 8, .ro, 0, 4, 0x3c0000000, .any⟩, -- FS.CAP_S0
  ⟨0x6800, 0x2, 1, .u 8, .ro, 0, 4, 0x3c0000000, .any⟩, -- FS.CAP_S1
  ⟨0x6800, 0x3, 1, .u 8, .ro, 0, 4, 0x3c0000000, .any⟩, -- FS.LARGEST_S0
  ⟨0x6800, 0x4, 1, .u 8, .ro, 0, 4, 0x3c0000000, .any⟩, -- FS.LARGEST_S1
  ⟨0x6800, 0x5, 1, .u 1, .ro, 0, 4, 31, .any⟩, -- FS.USABLE_S0
  ⟨0x6800, 0x6, 1, .u 1, .ro, 0, 4, 31, .any⟩, -- FS.USABLE_S1
  ⟨0x6800, 0x7, 1, .u 1, .rw, 0, 2, 0, .rng 0 1⟩, -- FS.GUARD_POLICY
  ⟨0x6800, 0x8, 1, .u 4, .rw, 0, 3, 3600, .rng 600 86400⟩, -- FS.SCRUB_PERIOD
  ⟨0x6800, 0x9, 1, .u 8, .ro, 0, 4, 0, .any⟩, -- FS.ECC_CORRECTED
  ⟨0x6800, 0xA, 1, .u 8, .ro, 0, 4, 0, .any⟩, -- FS.ECC_UNCORRECTABLE
  ⟨0x6800, 0xB, 1, .oct 32, .ro, 0, 4, 0, .any⟩, -- FS.PCMAP_S0
  ⟨0x6800, 0xC, 1, .oct 32, .ro, 0, 4, 0, .any⟩ -- FS.PCMAP_S1
]
/-- Objects of the global block, part 4. -/
def globRows4 : List Row := [
  ⟨0x6810, 0x0, 1, .u 1, .ro, 0, 4, 2, .any⟩, -- WIN
  ⟨0x6810, 0x1, 1, .u 8, .rw, 0, 2, 0, .mul 32 0 0xFFFFFFFFFFFFFFFF⟩, -- WIN.ADDR
  ⟨0x6810, 0x2, 1, .bool, .rw, 0, 2, 1, .any⟩, -- WIN.AUTO_INC
  ⟨0x6811, 0x0, 1, .u 1, .ro, 0, 4, 40, .any⟩, -- WIN.DATA
  ⟨0x6811, 0x1, 40, .oct 32, .rw, 2, 2, 0, .any⟩, -- WIN.DATA[k]
  ⟨0x7C00, 0x0, 1, .u 1, .ro, 0, 4, 8, .any⟩, -- AUD
  ⟨0x7C00, 0x1, 1, .u 2, .rw, 0, 2, 64, .rng 1 4096⟩, -- AUD.GAIN_RAMP
  ⟨0x7C00, 0x2, 1, .u 4, .rw, 0, 2, 2000, .rng 0 100000⟩, -- AUD.SLEW_LIMIT
  ⟨0x7C00, 0x3, 1, .u 2, .rw, 0, 2, 500, .rng 10 2000⟩, -- AUD.SLEW_RATE
  ⟨0x7C00, 0x4, 1, .u 2, .rw, 0, 2, 0x2000, .rng 1024 65535⟩, -- AUD.NONPCM_HOLD
  ⟨0x7C00, 0x5, 1, .u 2, .rw, 0, 2, 0x1000, .rng 480 65535⟩, -- AUD.NONPCM_WAIT
  ⟨0x7C00, 0x6, 1, .bool, .rw, 0, 2, 0, .any⟩, -- AUD.SD_EXT
  ⟨0x7C00, 0x7, 1, .u 4, .ro, 0, 4, 0xb71b0, .any⟩, -- AUD.A_MIN_ASRC
  ⟨0x7C00, 0x8, 1, .u 4, .ro, 0, 4, 0x3d090, .any⟩, -- AUD.A_MIN_SYNC
  ⟨0x8000, 0x0, 1, .u 1, .ro, 0, 4, 20, .any⟩, -- CST
  ⟨0x8000, 0x1, 1, .u 1, .rw, 0, 1, 0, .rng 0 3⟩, -- CST.OP
  ⟨0x8000, 0x2, 1, .u 1, .rw, 0, 1, 0, .rng 0 1⟩, -- CST.SRC_KIND
  ⟨0x8000, 0x3, 1, .u 2, .rw, 0, 1, 0xffff, .rng 0 2047⟩, -- CST.SRC_BUF
  ⟨0x8000, 0x4, 1, .u 4, .rw, 0, 1, 0, .rng 0 0x3FFFC0⟩, -- CST.SRC_ADDR
  ⟨0x8000, 0x5, 1, .u 4, .rw, 0, 1, 64, .rng 64 1048576⟩, -- CST.SRC_PITCH
  ⟨0x8000, 0x6, 1, .u 1, .rw, 0, 1, 4, .rng 0 5⟩, -- CST.SRC_FORMAT
  ⟨0x8000, 0x7, 2, .u 2, .rw, 0, 1, 0, .any⟩, -- CST.SRC_X, SRC_Y
  ⟨0x8000, 0x9, 2, .u 2, .rw, 0, 1, 1, .rng 1 16384⟩, -- CST.W, H
  ⟨0x8000, 0xB, 1, .u 2, .rw, 0, 1, 0xffff, .rng 0 2047⟩, -- CST.DST_BUF
  ⟨0x8000, 0xC, 2, .u 2, .rw, 0, 1, 0, .any⟩, -- CST.DST_X, DST_Y
  ⟨0x8000, 0xE, 1, .u 1, .rw, 0, 1, 0, .rng 0 3⟩, -- CST.ROT
  ⟨0x8000, 0xF, 1, .u 1, .rw, 0, 1, 0, .mask 3⟩, -- CST.FLIP
  ⟨0x8000, 0x10, 1, .u 8, .rw, 0, 1, 0, .any⟩, -- CST.FILL
  ⟨0x8000, 0x11, 1, .u 2, .rw, 0, 1, 0, .any⟩, -- CST.WM_LINE
  ⟨0x8000, 0x12, 1, .u 2, .rw, 0, 1, 0, .any⟩, -- CST.FENCE_LAYER
  ⟨0x8000, 0x13, 1, .u 4, .rw, 0, 1, 0, .any⟩, -- CST.FENCE_VALUE
  ⟨0x8000, 0x14, 1, .bool, .rw, 0, 1, 0, .any⟩, -- CST.DST_READY
  ⟨0x8001, 0x0, 1, .u 1, .cmd, 0, 1, 0, .set [1]⟩, -- CST.GO
  ⟨0x8002, 0x0, 1, .u 1, .cmd, 0, 1, 0, .set [1]⟩, -- CST.ABORT
  ⟨0x8003, 0x0, 1, .u 4, .rw, 0, 2, 0x3e80, .mul 2 0 47520⟩, -- CST.RESERVE
  ⟨0x8004, 0x0, 1, .u 1, .ro, 0, 4, 8, .any⟩, -- CST_STATUS
  ⟨0x8004, 0x1, 1, .u 1, .ro, 0, 4, 0, .any⟩, -- CST_STATUS.STATE
  ⟨0x8004, 0x2, 1, .u 1, .ro, 0, 4, 0, .any⟩, -- CST_STATUS.RESULT
  ⟨0x8004, 0x3, 1, .u 2, .ro, 0, 4, 0, .any⟩, -- CST_STATUS.LINES_DONE
  ⟨0x8004, 0x4, 1, .u 2, .ro, 0, 4, 0, .any⟩ -- CST_STATUS.TOP_DONE
]
/-- Objects of the global block, part 5. -/
def globRows5 : List Row := [
  ⟨0x8004, 0x5, 1, .ptime, .ro, 0, 4, 0, .any⟩, -- CST_STATUS.START_TIME
  ⟨0x8004, 0x6, 1, .ptime, .ro, 0, 4, 0, .any⟩, -- CST_STATUS.END_TIME
  ⟨0x8004, 0x7, 1, .u 4, .ro, 0, 4, 0, .any⟩, -- CST_STATUS.OPS
  ⟨0x8004, 0x8, 1, .u 8, .ro, 0, 4, 0, .any⟩, -- CST_STATUS.BYTES
  ⟨0x8005, 0x0, 1, .u 1, .ro, 0, 4, 4, .any⟩, -- CST_IRQ
  ⟨0x8005, 0x1, 1, .u 1, .rw, 0, 2, 0, .mask 7⟩, -- CST_IRQ.MASK
  ⟨0x8005, 0x2, 1, .u 1, .rw, 0, 2, 0, .rng 0 1⟩, -- CST_IRQ.PIN
  ⟨0x8005, 0x3, 1, .u 1, .ro, 0, 4, 0, .any⟩, -- CST_IRQ.PENDING
  ⟨0x8005, 0x4, 1, .u 1, .cmd, 0, 1, 0, .mask 7⟩, -- CST_IRQ.ACK
  ⟨0x9C00, 0x0, 1, .u 1, .ro, 0, 4, 8, .any⟩, -- SYSPLLS
  ⟨0x9C00, 0x1, 1, .u 4, .ro, 0, 4, 0, .any⟩, -- XO_FREQ
  ⟨0x9C00, 0x2, 1, .u 1, .ro, 0, 4, 1, .any⟩, -- SYSPLL.STATE
  ⟨0x9C00, 0x3, 1, .u 1, .rw, 0, 2, 0, .rng 0 1⟩, -- AUDPLL.SEL
  ⟨0x9C00, 0x4, 1, .u 1, .ro, 0, 4, 0, .any⟩, -- AUDPLL.STATE
  ⟨0x9C00, 0x5, 1, .u 2, .ro, 0, 4, 0, .any⟩, -- LOL
  ⟨0x9C00, 0x6, 1, .u 2, .ro, 0, 4, 0, .any⟩, -- TXPLL_LOL
  ⟨0x9C00, 0x7, 1, .u 1, .cmd, 0, 2, 0, .set [1]⟩, -- LOL_CLEAR
  ⟨0x9C00, 0x8, 1, .bool, .rw, 0, 2, 1, .any⟩, -- WCKOUT_EN
  ⟨0x9C10, 0x0, 1, .u 1, .ro, 0, 4, 6, .any⟩, -- TOD
  ⟨0x9C10, 0x1, 1, .u 1, .rw, 0, 2, 0, .rng 0 1⟩, -- TOD.SEL
  ⟨0x9C10, 0x2, 1, .ptime, .ro, 0, 4, 0, .any⟩, -- TOD.NOW
  ⟨0x9C10, 0x3, 1, .ptime, .cmd, 0, 3, 0, .any⟩, -- TOD.SET
  ⟨0x9C10, 0x4, 1, .i 2, .rw, 0, 2, 0, .any⟩, -- TOD.UTC_OFFSET
  ⟨0x9C10, 0x5, 1, .u 1, .rw, 0, 2, 0, .rng 0 1⟩, -- TOD.PPS_MODE
  ⟨0x9C10, 0x6, 1, .u 2, .rw, 0, 2, 100, .rng 1 60000⟩, -- TOD.PPS_WIDTH
  ⟨0xA000, 0x0, 1, .u 1, .ro, 0, 4, 10, .any⟩, -- ADM
  ⟨0xA000, 0x1, 1, .u 4, .ro, 0, 4, 0xf4240, .any⟩, -- ADM.LIMIT_TOTAL
  ⟨0xA000, 0x2, 1, .u 4, .ro, 0, 4, 0x7a120, .any⟩, -- ADM.LIMIT_S0
  ⟨0xA000, 0x3, 1, .u 4, .ro, 0, 4, 0x7a120, .any⟩, -- ADM.LIMIT_S1
  ⟨0xA000, 0x4, 1, .u 4, .ro, 0, 4, 0x4650, .any⟩, -- ADM.LOAD_TOTAL
  ⟨0xA000, 0x5, 1, .u 4, .ro, 0, 4, 0x2328, .any⟩, -- ADM.LOAD_S0
  ⟨0xA000, 0x6, 1, .u 4, .ro, 0, 4, 0x2328, .any⟩, -- ADM.LOAD_S1
  ⟨0xA000, 0x7, 1, .u 4, .ro, 0, 4, 2000, .any⟩, -- ADM.FIXED
  ⟨0xA000, 0x8, 1, .u 8, .ro, 0, 4, 0x3c0000000, .any⟩, -- ADM.FREE_S0
  ⟨0xA000, 0x9, 1, .u 8, .ro, 0, 4, 0x3c0000000, .any⟩, -- ADM.FREE_S1
  ⟨0xA000, 0xA, 1, .u 1, .ro, 0, 4, 2, .any⟩, -- ADM.SHADOW_FREE
  ⟨0xA001, 0x0, 1, .oct 216, .cmd, 0, 1, 0, .any⟩, -- ADM.CHECK
  ⟨0xA002, 0x0, 1, .u 1, .ro, 0, 4, 7, .any⟩, -- ADM.CHECK_RESULT
  ⟨0xA002, 0x1, 1, .u 1, .ro, 0, 4, 0, .any⟩, -- CHECK_RESULT.REASON
  ⟨0xA002, 0x2, 1, .u 2, .ro, 0, 4, 0, .any⟩ -- CHECK_RESULT.REFUSER
]
/-- Objects of the global block, part 6. -/
def globRows6 : List Row := [
  ⟨0xA002, 0x3, 1, .u 4, .ro, 0, 4, 0, .any⟩, -- CHECK_RESULT.HOLDER
  ⟨0xA002, 0x4, 1, .u 4, .ro, 0, 4, 0, .any⟩, -- CHECK_RESULT.LOAD_TOTAL
  ⟨0xA002, 0x5, 1, .u 4, .ro, 0, 4, 0, .any⟩, -- CHECK_RESULT.LOAD_S0
  ⟨0xA002, 0x6, 1, .u 4, .ro, 0, 4, 0, .any⟩, -- CHECK_RESULT.LOAD_S1
  ⟨0xA002, 0x7, 1, .u 8, .ro, 0, 4, 0, .any⟩, -- CHECK_RESULT.CFG_SEQ
  ⟨0xA010, 0x0, 1, .u 1, .ro, 0, 4, 33, .any⟩, -- REFLOG
  ⟨0xA010, 0x1, 1, .u 4, .ro, 0, 4, 0, .any⟩, -- REFLOG.HEAD
  ⟨0xA010, 0x2, 32, .oct 24, .ro, 0, 4, 0, .any⟩, -- REFLOG.ENTRY[i]
  ⟨0xE000, 0x0, 1, .u 1, .ro, 0, 4, 5, .any⟩, -- BMX
  ⟨0xE000, 0x1, 1, .u 2, .rw, 0, 3, 10, .rng 1 1000⟩, -- BMX.LOCK_TIMEOUT
  ⟨0xE000, 0x2, 1, .u 4, .ro, 0, 4, 0, .any⟩, -- BMX.NOMAP
  ⟨0xE000, 0x3, 1, .u 4, .ro, 0, 4, 0, .any⟩, -- BMX.GUARD_HITS
  ⟨0xE000, 0x4, 1, .u 4, .ro, 0, 4, 0, .any⟩, -- BMX.LOCK_TIMEOUTS
  ⟨0xE000, 0x5, 1, .u 4, .ro, 0, 4, 0, .any⟩, -- BMX.DRAINS
  ⟨0xE010, 0x0, 1, .u 1, .ro, 0, 4, 17, .any⟩, -- ERRLOG
  ⟨0xE010, 0x1, 1, .u 4, .ro, 0, 4, 0, .any⟩, -- ERRLOG.HEAD
  ⟨0xE010, 0x2, 16, .oct 24, .ro, 0, 4, 0, .any⟩ -- ERRLOG.ENTRY[i]
]
/-- All objects of the global block. -/
def globRows : List Row := globRows0 ++ globRows1 ++ globRows2 ++ globRows3 ++ globRows4 ++ globRows5 ++ globRows6
/-- Objects of the SLV block. -/
def slvRows : List Row := [
  ⟨0x0, 0x0, 1, .u 1, .ro, 0, 4, 13, .any⟩, -- SLV[s]
  ⟨0x0, 0x1, 1, .u 1, .ro, 0, 4, 0, .any⟩, -- SLV[s].STATE
  ⟨0x0, 0x2, 1, .oct 216, .ro, 0, 4, 0, .any⟩, -- SLV[s].UNITS
  ⟨0x0, 0x3, 1, .u 4, .ro, 0, 4, 0, .any⟩, -- SLV[s].SEQ
  ⟨0x0, 0x4, 1, .u 1, .ro, 0, 4, 0, .any⟩, -- SLV[s].REASON
  ⟨0x0, 0x5, 1, .u 2, .ro, 0, 4, 0, .any⟩, -- SLV[s].REFUSER
  ⟨0x0, 0x6, 1, .u 4, .ro, 0, 4, 0, .any⟩, -- SLV[s].HOLDER
  ⟨0x0, 0x7, 1, .ptime, .ro, 0, 4, 0, .any⟩, -- SLV[s].AT
  ⟨0x0, 0x8, 1, .u 1, .ro, 0, 4, 0, .any⟩, -- SLV[s].FLAGS
  ⟨0x0, 0x9, 1, .u 2, .ro, 0, 4, 0, .any⟩, -- SLV[s].DEV_COUNT
  ⟨0x0, 0xA, 1, .u 2, .ro, 0, 4, 0, .any⟩, -- SLV[s].SUPERSEDED_COUNT
  ⟨0x0, 0xB, 1, .ptime, .ro, 0, 4, 0, .any⟩, -- SLV[s].COMPLETE_TIME
  ⟨0x0, 0xC, 1, .u 1, .rw, 0, 2, 255, .rng 0 31⟩, -- SLV[s].TRIGGER
  ⟨0x0, 0xD, 1, .u 1, .cmd, 0, 1, 0, .set [1]⟩ -- SLV[s].CANCEL
]
/-- Objects of the CTL block. -/
def ctlRows : List Row := [
  ⟨0x0, 0x0, 1, .u 1, .ro, 0, 4, 12, .any⟩, -- CTL[c]
  ⟨0x0, 0x1, 1, .u 1, .rw, 0, 2, 1, .rng 0 2⟩, -- CTL[c].MODE
  ⟨0x0, 0x2, 1, .bool, .rw, 0, 2, 1, .any⟩, -- CTL[c].ENABLE
  ⟨0x0, 0x3, 1, .oct 6, .ro, 0, 4, 0, .any⟩, -- CTL[c].MAC
  ⟨0x0, 0x4, 1, .u 1, .ro, 0, 4, 0, .any⟩, -- CTL[c].LINK
  ⟨0x0, 0x5, 1, .oct 4, .rw, 0, 2, 0, .any⟩, -- CTL[c].IPV4_ADDR
  ⟨0x0, 0x6, 1, .oct 4, .rw, 0, 2, 0xffffff00, .any⟩, -- CTL[c].IPV4_MASK
  ⟨0x0, 0x7, 1, .oct 4, .rw, 0, 2, 0, .any⟩, -- CTL[c].IPV4_GW
  ⟨0x0, 0x8, 1, .oct 16, .rw, 0, 2, 0, .any⟩, -- CTL[c].IPV6_ADDR
  ⟨0x0, 0x9, 1, .u 1, .rw, 0, 2, 64, .rng 1 128⟩, -- CTL[c].IPV6_PREFIX
  ⟨0x0, 0xA, 1, .oct 16, .rw, 0, 2, 0, .any⟩, -- CTL[c].IPV6_GW
  ⟨0x0, 0xB, 1, .u 2, .ro, 0, 4, 0xbeaa, .any⟩, -- CTL[c].QCP_PORT
  ⟨0x0, 0xC, 1, .u 4, .ro, 0, 4, 0, .any⟩ -- CTL[c].RX_DISCARD
]
/-- Objects of the SESS block. -/
def sessRows : List Row := [
  ⟨0x0, 0x0, 1, .u 1, .ro, 0, 4, 11, .any⟩, -- SESS[i]
  ⟨0x0, 0x1, 1, .u 1, .ro, 0, 4, 0, .any⟩, -- SESS[i].STATE
  ⟨0x0, 0x2, 1, .u 4, .ro, 0, 4, 0, .any⟩, -- SESS[i].ID
  ⟨0x0, 0x3, 1, .u 1, .ro, 0, 4, 0, .any⟩, -- SESS[i].GEN
  ⟨0x0, 0x4, 1, .u 1, .ro, 0, 4, 255, .any⟩, -- SESS[i].RIGHTS
  ⟨0x0, 0x5, 1, .u 1, .ro, 0, 4, 255, .any⟩, -- SESS[i].PORT
  ⟨0x0, 0x6, 1, .oct 16, .ro, 0, 4, 0, .any⟩, -- SESS[i].ADDR
  ⟨0x0, 0x7, 1, .u 2, .ro, 0, 4, 0, .any⟩, -- SESS[i].UDP
  ⟨0x0, 0x8, 1, .u 4, .ro, 0, 4, 0, .any⟩, -- SESS[i].LAST_SEQ
  ⟨0x0, 0x9, 1, .u 4, .ro, 0, 4, 0, .any⟩, -- SESS[i].NOTIFY_SEQ
  ⟨0x0, 0xA, 1, .u 1, .ro, 0, 4, 0, .any⟩, -- SESS[i].SUBS
  ⟨0x0, 0xB, 1, .u 4, .ro, 0, 4, 0, .any⟩ -- SESS[i].IDLE
]
/-- Objects of the PD block. -/
def pdRows : List Row := [
  ⟨0x0, 0x0, 1, .u 1, .ro, 0, 4, 9, .any⟩, -- PD[i]
  ⟨0x0, 0x1, 1, .str 8, .ro, 0, 4, 0, .any⟩, -- NAME
  ⟨0x0, 0x2, 1, .u 1, .rw, 0, 2, 0, .rng 0 1⟩, -- ENABLE
  ⟨0x0, 0x3, 1, .u 1, .ro, 0, 4, 0, .any⟩, -- STATE
  ⟨0x0, 0x4, 1, .u 4, .ro, 0, 4, 0, .any⟩, -- FUNCS
  ⟨0x0, 0x5, 1, .u 4, .ro, 0, 4, 0, .any⟩, -- FUNCS_MASK
  ⟨0x0, 0x6, 1, .ptime, .ro, 0, 4, 0, .any⟩, -- READY_TIME
  ⟨0x0, 0x7, 1, .u 4, .ro, 0, 4, 0, .any⟩, -- LAST_ON
  ⟨0x0, 0x8, 1, .u 1, .cmd, 0, 3, 0, .set [1]⟩, -- FORCE_OFF
  ⟨0x0, 0x9, 1, .u 4, .ro, 0, 4, 0, .any⟩ -- FAULTS
]
/-- Objects of the SLOT block. -/
def slotRows : List Row := [
  ⟨0x0, 0x0, 1, .u 1, .ro, 0, 4, 5, .any⟩, -- SLOT[j]
  ⟨0x0, 0x1, 1, .u 1, .ro, 0, 4, 0, .any⟩, -- SLOT[j].STATE
  ⟨0x0, 0x2, 1, .u 4, .ro, 0, 4, 0, .any⟩, -- SLOT[j].PRINT_SEQ
  ⟨0x0, 0x3, 1, .u 1, .ro, 0, 4, 0, .any⟩, -- SLOT[j].CAUSE
  ⟨0x0, 0x4, 1, .u 2, .ro, 0, 4, 0, .any⟩, -- SLOT[j].ENTRIES
  ⟨0x0, 0x5, 1, .u 4, .ro, 0, 4, 0, .any⟩ -- SLOT[j].NEWEST
]
/-- Objects of the NEG block. -/
def negbRows : List Row := [
  ⟨0x0, 0x0, 1, .u 1, .ro, 0, 4, 128, .any⟩, -- NEG.BANK[x]
  ⟨0x0, 0x1, 128, .oct 32, .ro, 0, 4, 0, .any⟩ -- NEG.ENTRY
]
/-- Objects of the PIN block. -/
def pinRows : List Row := [
  ⟨0x0, 0x0, 1, .u 1, .ro, 0, 4, 6, .any⟩, -- PIN[p]
  ⟨0x0, 0x1, 1, .u 1, .rw, 0, 2, 0, .rng 0 9⟩, -- FUNC
  ⟨0x0, 0x2, 1, .u 2, .rw, 0, 2, 0, .any⟩, -- ARG
  ⟨0x0, 0x3, 1, .u 1, .rw, 0, 2, 0, .rng 0 1⟩, -- POLARITY
  ⟨0x0, 0x4, 1, .u 2, .rw, 0, 2, 1, .rng 0 10000⟩, -- FILTER
  ⟨0x0, 0x5, 1, .u 1, .rw, 0, 2, 1, .rng 0 2⟩, -- PULL
  ⟨0x0, 0x6, 1, .u 2, .rw, 0, 2, 10, .rng 1 60000⟩ -- PULSE
]
/-- Objects of the IN block, part 0. -/
def inpRows0 : List Row := [
  ⟨0x0, 0x0, 1, .u 1, .ro, 0, 4, 11, .any⟩, -- STAT
  ⟨0x0, 0x1, 1, .u 1, .ro, 0, 4, 0, .any⟩, -- STAT.STATE
  ⟨0x0, 0x2, 1, .u 1, .ro, 0, 4, 0, .any⟩, -- STAT.RATE
  ⟨0x0, 0x3, 1, .u 1, .ro, 0, 4, 0, .any⟩, -- STAT.MAPPING
  ⟨0x0, 0x4, 1, .u 1, .ro, 0, 4, 0, .any⟩, -- STAT.FORMAT
  ⟨0x0, 0x5, 1, .u 1, .ro, 0, 4, 0, .any⟩, -- STAT.SCAN
  ⟨0x0, 0x6, 1, .u 1, .ro, 0, 4, 0, .any⟩, -- STAT.SAMPLING
  ⟨0x0, 0x7, 1, .u 1, .ro, 0, 4, 0, .any⟩, -- STAT.COLOR
  ⟨0x0, 0x8, 1, .u 2, .ro, 0, 4, 0, .any⟩, -- STAT.LINES
  ⟨0x0, 0x9, 1, .u 2, .ro, 0, 4, 0, .any⟩, -- STAT.SAMPLES
  ⟨0x0, 0xA, 1, .u 4, .ro, 0, 4, 0, .any⟩, -- STAT.FORMAT_SEQ
  ⟨0x0, 0xB, 1, .u 1, .ro, 0, 4, 0, .any⟩, -- STAT.EQ_LOSS
  ⟨0x1, 0x0, 1, .u 1, .ro, 0, 4, 5, .any⟩, -- CFG
  ⟨0x1, 0x1, 1, .u 1, .rw, 0, 2, 0, .rng 0 5⟩, -- CFG.RATE_MODE
  ⟨0x1, 0x2, 1, .u 1, .rw, 0, 2, 0, .rng 0 1⟩, -- CFG.EQ_MODE
  ⟨0x1, 0x3, 1, .bool, .rw, 0, 2, 0, .any⟩, -- CFG.KEY_INPUT
  ⟨0x1, 0x4, 1, .u 1, .rw, 0, 2, 0, .rng 0 1⟩, -- CFG.BAD_LINE
  ⟨0x1, 0x5, 1, .u 1, .rw, 0, 2, 255, .mask 0x13⟩, -- CFG.COLOR_OVERRIDE
  ⟨0x2, 0x0, 1, .u 1, .ro, 0, 4, 4, .any⟩, -- PID
  ⟨0x2, 0x1, 1, .bool, .ro, 0, 4, 0, .any⟩, -- PID.VALID
  ⟨0x2, 0x2, 1, .oct 4, .ro, 0, 4, 0, .any⟩, -- PID.RAW
  ⟨0x2, 0x3, 1, .u 1, .ro, 0, 4, 0, .any⟩, -- PID.MISMATCH
  ⟨0x2, 0x4, 1, .oct 16, .ro, 0, 4, 0, .any⟩, -- PID.RAW_LINKS
  ⟨0x3, 0x0, 1, .u 1, .ro, 0, 4, 19, .any⟩, -- ANC
  ⟨0x3, 0x1, 1, .u 1, .rw, 0, 2, 8, .rng 0 16⟩, -- ANC.MAX_PER_LINE
  ⟨0x3, 0x2, 1, .u 1, .rw, 0, 2, 0, .rng 0 1⟩, -- ANC.CHECKSUM
  ⟨0x3, 0x3, 1, .u 1, .rw, 0, 2, 0, .rng 0 1⟩, -- ANC.FILTER_DEFAULT
  ⟨0x3, 0x4, 16, .u 4, .rw, 0, 2, 0, .mask 0xC0FFFFFF⟩, -- ANC.FILTER[i]
  ⟨0x4, 0x0, 1, .u 1, .ro, 0, 4, 4, .any⟩, -- TC
  ⟨0x4, 0x1, 1, .u 4, .ro, 0, 4, 0, .any⟩, -- TC.LTC
  ⟨0x4, 0x2, 1, .u 4, .ro, 0, 4, 0, .any⟩, -- TC.VITC
  ⟨0x4, 0x3, 1, .u 1, .ro, 0, 4, 0, .any⟩, -- TC.VALID
  ⟨0x4, 0x4, 1, .u 1, .ro, 0, 4, 0, .any⟩, -- TC.FLAGS
  ⟨0x5, 0x0, 1, .u 1, .ro, 0, 4, 10, .any⟩, -- BRACKET
  ⟨0x5, 0x1, 1, .u 1, .rw, 0, 2, 255, .rng 0 47⟩, -- BRACKET.PARTNER
  ⟨0x5, 0x2, 1, .u 2, .rw, 0, 2, 16, .rng 1 4500⟩, -- BRACKET.CRC_LIMIT
  ⟨0x5, 0x3, 1, .bool, .rw, 0, 2, 0, .any⟩, -- BRACKET.REVERT
  ⟨0x5, 0x4, 1, .u 2, .rw, 0, 2, 250, .rng 1 65535⟩, -- BRACKET.REVERT_FRAMES
  ⟨0x5, 0x5, 1, .u 1, .cmd, 0, 1, 0, .rng 0 1⟩, -- BRACKET.SELECT
  ⟨0x5, 0x6, 1, .u 1, .ro, 0, 4, 0, .any⟩ -- BRACKET.STATE
]
/-- Objects of the IN block, part 1. -/
def inpRows1 : List Row := [
  ⟨0x5, 0x7, 1, .u 1, .ro, 0, 4, 255, .any⟩, -- BRACKET.ACTIVE
  ⟨0x5, 0x8, 1, .i 4, .ro, 0, 4, 0, .any⟩, -- BRACKET.SKEW
  ⟨0x5, 0x9, 1, .u 1, .rw, 0, 2, 2, .rng 1 4⟩, -- BRACKET.SKEW_MAX
  ⟨0x5, 0xA, 1, .u 1, .ro, 0, 4, 0, .any⟩, -- BRACKET.ROLE
  ⟨0x6, 0x0, 1, .u 1, .ro, 0, 4, 6, .any⟩, -- QUAD
  ⟨0x6, 0x1, 1, .u 1, .rw, 0, 2, 0, .rng 0 5⟩, -- QUAD.MODE
  ⟨0x6, 0x2, 1, .u 1, .ro, 0, 4, 0, .any⟩, -- QUAD.STATE
  ⟨0x6, 0x3, 4, .u 4, .ro, 0, 4, 0, .any⟩, -- QUAD.SKEW[k]
  ⟨0x30, 0x0, 1, .u 1, .ro, 0, 4, 11, .any⟩, -- STATS.RUN
  ⟨0x30, 0x1, 1, .u 8, .ro, 0, 4, 0, .any⟩, -- STATS.RUN.FRAME
  ⟨0x30, 0x2, 10, .u 4, .ro, 0, 4, 0, .any⟩, -- STATS.RUN.x
  ⟨0x31, 0x0, 1, .u 1, .ro, 0, 4, 11, .any⟩, -- STATS.LAST
  ⟨0x31, 0x1, 1, .u 8, .ro, 0, 4, 0, .any⟩, -- STATS.LAST.FRAME
  ⟨0x31, 0x2, 10, .u 4, .ro, 0, 4, 0, .any⟩, -- STATS.LAST.x
  ⟨0x32, 0x0, 1, .u 1, .ro, 0, 4, 11, .any⟩, -- STATS.TOTAL
  ⟨0x32, 0x1, 1, .u 8, .ro, 0, 4, 0, .any⟩, -- STATS.TOTAL.FRAMES
  ⟨0x32, 0x2, 10, .u 8, .ro, 0, 4, 0, .any⟩, -- STATS.TOTAL.x
  ⟨0x33, 0x0, 1, .u 1, .ro, 0, 4, 9, .any⟩, -- TIMING
  ⟨0x33, 0x1, 1, .ptime, .ro, 0, 4, 0, .any⟩, -- TIMING.FRAME_TIME
  ⟨0x33, 0x2, 8, .i 4, .ro, 0, 4, 0x80000000, .any⟩, -- TIMING.PHASE[g]
  ⟨0x34, 0x0, 1, .u 1, .ro, 0, 4, 17, .any⟩, -- QUAR
  ⟨0x34, 0x1, 1, .u 4, .ro, 0, 4, 0, .any⟩, -- QUAR.HEAD
  ⟨0x34, 0x2, 16, .oct 32, .ro, 0, 4, 0, .any⟩, -- QUAR.ENTRY
  ⟨0x3F, 0x0, 1, .u 1, .cmd, 0, 1, 0, .set [1]⟩ -- STATS.CLEAR
]
/-- All objects of the IN block. -/
def inpRows : List Row := inpRows0 ++ inpRows1
/-- Objects of the OUT block, part 0. -/
def outRows0 : List Row := [
  ⟨0x0, 0x0, 1, .u 1, .rl, 0, 2, 0, .rng 0 35⟩, -- FORMAT
  ⟨0x1, 0x0, 1, .u 1, .rl, 0, 2, 0, .rng 0 2⟩, -- MAPPING
  ⟨0x2, 0x0, 1, .u 1, .rl, 0, 2, 0, .rng 0 2⟩, -- SAMPLING
  ⟨0x3, 0x0, 1, .u 1, .ro, 0, 4, 20, .any⟩, -- CONV
  ⟨0x3, 0x1, 1, .u 1, .rl, 0, 2, 0, .rng 0 1⟩, -- CONV.MODE
  ⟨0x3, 0x2, 1, .u 1, .rl, 0, 2, 0, .rng 0 7⟩, -- CONV.PRESET
  ⟨0x3, 0x3, 1, .u 1, .rl, 0, 2, 0, .rng 0 1⟩, -- CONV.CHROMA
  ⟨0x3, 0x4, 1, .u 1, .rl, 0, 2, 0, .mask 0x13⟩, -- CONV.COLOR_TAG
  ⟨0x3, 0x5, 1, .bool, .rl, 0, 2, 0, .any⟩, -- CONV.KEY_OUT
  ⟨0x3, 0x6, 1, .i 2, .rl, 0, 2, 0x1000, .any⟩, -- CONV.COEF[i]
  ⟨0x3, 0x7, 3, .i 2, .rl, 0, 2, 0, .any⟩, -- CONV.COEF[i]
  ⟨0x3, 0xA, 1, .i 2, .rl, 0, 2, 0x1000, .any⟩, -- CONV.COEF[i]
  ⟨0x3, 0xB, 3, .i 2, .rl, 0, 2, 0, .any⟩, -- CONV.COEF[i]
  ⟨0x3, 0xE, 1, .i 2, .rl, 0, 2, 0x1000, .any⟩, -- CONV.COEF[i]
  ⟨0x3, 0xF, 1, .i 2, .rl, 0, 2, 256, .srng (-4095) 4095⟩, -- CONV.INOFF[j]
  ⟨0x3, 0x10, 2, .i 2, .rl, 0, 2, 2048, .srng (-4095) 4095⟩, -- CONV.INOFF[j]
  ⟨0x3, 0x12, 1, .i 2, .rl, 0, 2, 256, .srng (-4095) 4095⟩, -- CONV.OUTOFF[k]
  ⟨0x3, 0x13, 2, .i 2, .rl, 0, 2, 2048, .srng (-4095) 4095⟩, -- CONV.OUTOFF[k]
  ⟨0x4, 0x0, 1, .u 1, .ro, 0, 4, 2, .any⟩, -- PID
  ⟨0x4, 0x1, 1, .u 1, .rl, 0, 2, 0, .rng 0 1⟩, -- PID.MODE
  ⟨0x4, 0x2, 1, .oct 4, .ro, 0, 4, 0, .any⟩, -- PID.RAW
  ⟨0x5, 0x0, 1, .u 1, .ro, 0, 4, 3, .any⟩, -- ANC
  ⟨0x5, 0x1, 1, .u 1, .rl, 0, 2, 1, .rng 0 1⟩, -- ANC.PASS
  ⟨0x5, 0x2, 1, .u 1, .rl, 0, 2, 0, .rng 0 3⟩, -- ANC.TC_MODE
  ⟨0x5, 0x3, 1, .u 1, .rl, 0, 2, 0, .rng 0 47⟩, -- ANC.TC_SRC
  ⟨0x6, 0x0, 1, .u 1, .ro, 0, 4, 4, .any⟩, -- BRACKET
  ⟨0x6, 0x1, 1, .u 1, .rl, 0, 2, 255, .rng 0 47⟩, -- BRACKET.PARTNER
  ⟨0x6, 0x2, 1, .u 1, .ro, 0, 4, 0, .any⟩, -- BRACKET.ROLE
  ⟨0x6, 0x3, 1, .u 1, .ro, 0, 4, 0, .any⟩, -- BRACKET.STATE
  ⟨0x6, 0x4, 1, .u 1, .cmd, 0, 1, 0, .set [1]⟩, -- BRACKET.RELEASE
  ⟨0x7, 0x0, 1, .u 1, .ro, 0, 4, 4, .any⟩, -- SLATE
  ⟨0x7, 0x1, 1, .u 2, .rl, 0, 2, 0xffff, .rng 0 2047⟩, -- SLATE.BUF
  ⟨0x7, 0x2, 1, .u 1, .cmd, 0, 1, 0, .rng 0 1⟩, -- SLATE.CMD
  ⟨0x7, 0x3, 1, .u 1, .ro, 0, 4, 0, .any⟩, -- SLATE.STATE
  ⟨0x7, 0x4, 1, .u 2, .rw, 0, 2, 0, .any⟩, -- SLATE.CLEAR_FRAMES
  ⟨0x8, 0x0, 1, .u 1, .ro, 0, 4, 2, .any⟩, -- QUAD
  ⟨0x8, 0x1, 1, .u 1, .rl, 0, 2, 0, .rng 0 4⟩, -- QUAD.MODE
  ⟨0x8, 0x2, 1, .u 1, .ro, 0, 4, 0, .any⟩, -- QUAD.STATE
  ⟨0x9, 0x0, 1, .u 1, .ro, 0, 4, 3, .any⟩, -- TXQ
  ⟨0x9, 0x1, 1, .u 1, .ro, 0, 4, 255, .any⟩ -- TXQ.CLASS
]
/-- Objects of the OUT block, part 1. -/
def outRows1 : List Row := [
  ⟨0x9, 0x2, 1, .u 1, .ro, 0, 4, 255, .any⟩, -- TXQ.PLL_GSYN
  ⟨0x9, 0x3, 1, .u 1, .ro, 0, 4, 255, .any⟩, -- TXQ.HOLDER
  ⟨0x10, 0x0, 1, .u 1, .rl, 0, 2, 0, .rng 0 7⟩, -- FAMILY
  ⟨0x11, 0x0, 1, .i 4, .rl, 0, 2, 0, .srng (-3093750) 3093749⟩, -- TIMING_OFFSET
  ⟨0x12, 0x0, 1, .u 1, .rl, 0, 2, 2, .rng 1 16⟩, -- DEV_GUARD
  ⟨0x13, 0x0, 1, .u 2, .rw, 0, 1, 1, .rng 1 0xFFFF⟩, -- LINE_MATCH
  ⟨0x14, 0x0, 1, .u 1, .ro, 0, 4, 0, .any⟩, -- TSTATE
  ⟨0x15, 0x0, 1, .u 1, .ro, 0, 4, 7, .any⟩, -- EVT
  ⟨0x15, 0x1, 1, .u 8, .ro, 0, 4, 0, .any⟩, -- EVT.FRAME
  ⟨0x15, 0x2, 1, .ptime, .ro, 0, 4, 0, .any⟩, -- EVT.FRAME_TIME
  ⟨0x15, 0x3, 1, .u 8, .ro, 0, 4, 0, .any⟩, -- EVT.FLIP_FRAME
  ⟨0x15, 0x4, 1, .ptime, .ro, 0, 4, 0, .any⟩, -- EVT.FLIP_TIME
  ⟨0x15, 0x5, 1, .u 2, .ro, 0, 4, 0, .any⟩, -- EVT.FLIP_SRC
  ⟨0x15, 0x6, 1, .u 8, .ro, 0, 4, 0, .any⟩, -- EVT.ADJ_FRAME
  ⟨0x15, 0x7, 1, .i 4, .ro, 0, 4, 0, .any⟩, -- EVT.ADJ_SAMPLES
  ⟨0x16, 0x0, 1, .u 1, .ro, 0, 4, 5, .any⟩, -- FETCH
  ⟨0x16, 0x1, 1, .u 2, .rw, 0, 2, 0x2000, .mul 256 0 16128⟩, -- FETCH.W1
  ⟨0x16, 0x2, 1, .u 2, .rw, 0, 2, 0x1000, .mul 256 4096 16128⟩, -- FETCH.W2
  ⟨0x16, 0x3, 1, .u 2, .ro, 0, 4, 0, .any⟩, -- FETCH.LEVEL
  ⟨0x16, 0x4, 1, .u 1, .ro, 0, 4, 0, .any⟩, -- FETCH.CLASS
  ⟨0x16, 0x5, 1, .u 2, .ro, 0, 4, 0x4000, .any⟩, -- FETCH.MIN_LEVEL
  ⟨0x17, 0x0, 1, .u 1, .ro, 0, 4, 4, .any⟩, -- IRQ
  ⟨0x17, 0x1, 1, .u 1, .rw, 0, 2, 0, .mask 0x0F⟩, -- IRQ.MASK
  ⟨0x17, 0x2, 1, .u 1, .rw, 0, 2, 0, .rng 0 1⟩, -- IRQ.PIN
  ⟨0x17, 0x3, 1, .u 1, .ro, 0, 4, 0, .any⟩, -- IRQ.PENDING
  ⟨0x17, 0x4, 1, .u 1, .cmd, 0, 1, 0, .mask 0x0F⟩, -- IRQ.ACK
  ⟨0x1F, 0x0, 1, .u 1, .ro, 0, 4, 6, .any⟩, -- DEV
  ⟨0x1F, 0x1, 1, .u 8, .ro, 0, 4, 0, .any⟩, -- DEV.FRAME
  ⟨0x1F, 0x2, 1, .ptime, .ro, 0, 4, 0, .any⟩, -- DEV.TIME
  ⟨0x1F, 0x3, 1, .u 1, .ro, 0, 4, 255, .any⟩, -- DEV.SALVO
  ⟨0x1F, 0x4, 1, .u 8, .ro, 0, 4, 0, .any⟩, -- DEV.PRED_FRAME
  ⟨0x1F, 0x5, 1, .u 2, .ro, 0, 4, 0, .any⟩, -- DEV.LATENT_COUNT
  ⟨0x1F, 0x6, 1, .u 2, .ro, 0, 4, 0, .any⟩, -- DEV.SUPERSEDED
  ⟨0x20, 0x0, 1, .u 1, .ro, 0, 4, 9, .any⟩, -- ROUTE
  ⟨0x20, 0x1, 1, .u 1, .rl, 0, 1, 255, .rngOr 0 83 [0xFE, 0xFF]⟩, -- ROUTE.SRC
  ⟨0x20, 0x2, 1, .u 2, .rl, 0, 1, 0xffff, .rng 0 2047⟩, -- ROUTE.BUF
  ⟨0x20, 0x3, 1, .u 1, .rl, 0, 1, 0, .rng 0 2⟩, -- ROUTE.PATH
  ⟨0x20, 0x4, 1, .u 4, .rl, 0, 1, 0, .any⟩, -- ROUTE.MAX_LAT_REQ
  ⟨0x20, 0x5, 1, .u 1, .rl, 0, 1, 0, .rng 0 2⟩, -- ROUTE.LOSS
  ⟨0x20, 0x6, 1, .u 1, .rl, 0, 2, 255, .rng 0 47⟩ -- ROUTE.KEY_SRC
]
/-- Objects of the OUT block, part 2. -/
def outRows2 : List Row := [
  ⟨0x20, 0x7, 1, .u 1, .rl, 0, 2, 255, .rng 0 47⟩, -- ROUTE.PAIR
  ⟨0x20, 0x8, 1, .u 1, .rl, 0, 1, 0, .rng 0 5⟩, -- ROUTE.PATTERN
  ⟨0x20, 0x9, 1, .u 1, .rl, 0, 1, 0, .rng 0 3⟩, -- ROUTE.FRC_STREAM
  ⟨0x21, 0x0, 1, .u 1, .ro, 0, 4, 8, .any⟩, -- ROUTE_STAT
  ⟨0x21, 0x1, 1, .u 1, .ro, 0, 4, 0, .any⟩, -- ROUTE_STAT.STATE
  ⟨0x21, 0x2, 1, .u 1, .ro, 0, 4, 0, .any⟩, -- ROUTE_STAT.PATH
  ⟨0x21, 0x3, 1, .i 4, .ro, 0, 4, 0x80000000, .any⟩, -- ROUTE_STAT.LEAD
  ⟨0x21, 0x4, 1, .i 4, .ro, 0, 4, 0x80000000, .any⟩, -- ROUTE_STAT.SYNC_LAT
  ⟨0x21, 0x5, 1, .u 4, .ro, 0, 4, 0, .any⟩, -- ROUTE_STAT.REPEATS
  ⟨0x21, 0x6, 1, .u 4, .ro, 0, 4, 0, .any⟩, -- ROUTE_STAT.DROPS
  ⟨0x21, 0x7, 1, .u 4, .ro, 0, 4, 0, .any⟩, -- ROUTE_STAT.LOSS_FRAMES
  ⟨0x21, 0x8, 1, .u 8, .ro, 0, 4, 0, .any⟩, -- ROUTE_STAT.CUT_FRAME
  ⟨0x22, 0x0, 1, .u 1, .ro, 0, 4, 15, .any⟩, -- CONTRACT
  ⟨0x22, 0x1, 1, .u 1, .ro, 0, 4, 0, .any⟩, -- CONTRACT.PATH
  ⟨0x22, 0x2, 1, .u 4, .ro, 0, 4, 0, .any⟩, -- CONTRACT.MAX_LAT
  ⟨0x22, 0x3, 1, .u 4, .ro, 0, 4, 0, .any⟩, -- CONTRACT.NOMINAL_LAT
  ⟨0x22, 0x4, 1, .u 1, .ro, 0, 4, 255, .any⟩, -- CONTRACT.LIVE_SRC
  ⟨0x22, 0x5, 1, .u 4, .ro, 0, 4, 0, .any⟩, -- CONTRACT.BW
  ⟨0x22, 0x6, 1, .u 4, .ro, 0, 4, 0, .any⟩, -- CONTRACT.BW_S0
  ⟨0x22, 0x7, 1, .u 4, .ro, 0, 4, 0, .any⟩, -- CONTRACT.BW_S1
  ⟨0x22, 0x8, 1, .u 4, .ro, 0, 4, 0, .any⟩, -- CONTRACT.ENL
  ⟨0x22, 0x9, 1, .u 2, .ro, 0, 4, 0, .any⟩, -- CONTRACT.EAS
  ⟨0x22, 0xA, 1, .u 2, .ro, 0, 4, 0, .any⟩, -- CONTRACT.FRC
  ⟨0x22, 0xB, 1, .u 8, .ro, 0, 4, 0, .any⟩, -- CONTRACT.RINGS
  ⟨0x22, 0xC, 1, .bool, .ro, 0, 4, 0, .any⟩, -- CONTRACT.PROTECTED
  ⟨0x22, 0xD, 1, .u 4, .ro, 0, 4, 0, .any⟩, -- CONTRACT.GRANT
  ⟨0x22, 0xE, 1, .u 1, .ro, 0, 4, 0, .any⟩, -- CONTRACT.STATE
  ⟨0x22, 0xF, 1, .u 8, .ro, 0, 4, 0, .any⟩, -- CONTRACT.FRAME
  ⟨0x23, 0x0, 1, .u 1, .ro, 0, 4, 6, .any⟩, -- MEASURED
  ⟨0x23, 0x1, 1, .u 4, .ro, 0, 4, 0xffffffff, .any⟩, -- MEASURED.LAST
  ⟨0x23, 0x2, 1, .u 4, .ro, 0, 4, 0, .any⟩, -- MEASURED.MAX
  ⟨0x23, 0x3, 1, .u 4, .ro, 0, 4, 0xffffffff, .any⟩, -- MEASURED.MIN
  ⟨0x23, 0x4, 1, .u 4, .ro, 0, 4, 0, .any⟩, -- MEASURED.VIOLATIONS
  ⟨0x23, 0x5, 1, .u 8, .ro, 0, 4, 0, .any⟩, -- MEASURED.VIOL_FRAME
  ⟨0x23, 0x6, 1, .u 1, .cmd, 0, 1, 0, .set [1]⟩, -- MEASURED.CLEAR
  ⟨0x30, 0x0, 1, .u 1, .ro, 0, 4, 8, .any⟩, -- STATS.RUN
  ⟨0x30, 0x1, 1, .u 8, .ro, 0, 4, 0, .any⟩, -- STATS.RUN.FRAME
  ⟨0x30, 0x2, 7, .u 4, .ro, 0, 4, 0, .any⟩, -- STATS.RUN.x
  ⟨0x31, 0x0, 1, .u 1, .ro, 0, 4, 8, .any⟩, -- STATS.LAST
  ⟨0x31, 0x1, 1, .u 8, .ro, 0, 4, 0, .any⟩ -- STATS.LAST.FRAME
]
/-- Objects of the OUT block, part 3. -/
def outRows3 : List Row := [
  ⟨0x31, 0x2, 7, .u 4, .ro, 0, 4, 0, .any⟩, -- STATS.LAST.x
  ⟨0x32, 0x0, 1, .u 1, .ro, 0, 4, 8, .any⟩, -- STATS.TOTAL
  ⟨0x32, 0x1, 1, .u 8, .ro, 0, 4, 0, .any⟩, -- STATS.TOTAL.FRAMES
  ⟨0x32, 0x2, 7, .u 8, .ro, 0, 4, 0, .any⟩, -- STATS.TOTAL.x
  ⟨0x3F, 0x0, 1, .u 1, .cmd, 0, 1, 0, .set [1]⟩ -- STATS.CLEAR
]
/-- All objects of the OUT block. -/
def outRows : List Row := outRows0 ++ outRows1 ++ outRows2 ++ outRows3
/-- Objects of the EAS block, part 0. -/
def easRows0 : List Row := [
  ⟨0x0, 0x0, 1, .u 1, .ro, 0, 4, 8, .any⟩, -- CANVAS
  ⟨0x0, 0x1, 1, .u 1, .rl, 0, 2, 0, .rng 0 27⟩, -- CANVAS.FORMAT
  ⟨0x0, 0x2, 1, .u 1, .rl, 0, 2, 0, .rng 0 7⟩, -- CANVAS.FAMILY
  ⟨0x0, 0x3, 1, .i 4, .rl, 0, 2, 0, .srng (-3093750) 3093749⟩, -- CANVAS.TIMING_OFFSET
  ⟨0x0, 0x4, 1, .u 1, .rl, 0, 2, 2, .rng 1 16⟩, -- CANVAS.DEV_GUARD
  ⟨0x0, 0x5, 1, .u 2, .rl, 0, 2, 0, .rng 0 4096⟩, -- CANVAS.WIDTH
  ⟨0x0, 0x6, 1, .u 2, .rl, 0, 2, 0, .rng 0 2160⟩, -- CANVAS.HEIGHT
  ⟨0x0, 0x7, 1, .u 1, .rl, 0, 2, 0, .mask 0x13⟩, -- CANVAS.COLOR
  ⟨0x0, 0x8, 1, .u 1, .rl, 0, 2, 1, .rng 0 1⟩, -- CANVAS.KEY_MODE
  ⟨0x1, 0x0, 1, .u 1, .ro, 0, 4, 4, .any⟩, -- BG
  ⟨0x1, 0x1, 1, .u 2, .rl, 0, 1, 256, .rng 0 4095⟩, -- BG.Y
  ⟨0x1, 0x2, 1, .u 2, .rl, 0, 1, 2048, .rng 0 4095⟩, -- BG.CB
  ⟨0x1, 0x3, 1, .u 2, .rl, 0, 1, 2048, .rng 0 4095⟩, -- BG.CR
  ⟨0x1, 0x4, 1, .u 2, .rl, 0, 1, 1023, .rng 0 1023⟩, -- BG.ALPHA
  ⟨0x2, 0x0, 1, .u 1, .ro, 0, 4, 3, .any⟩, -- WB
  ⟨0x2, 0x1, 1, .u 1, .rl, 0, 1, 0, .rng 0 2⟩, -- WB.MODE
  ⟨0x2, 0x2, 1, .u 2, .rl, 0, 1, 0xffff, .rng 0 2047⟩, -- WB.BUF
  ⟨0x2, 0x3, 1, .u 1, .ro, 0, 4, 0, .any⟩, -- WB.STATE
  ⟨0x3, 0x0, 1, .u 1, .rl, 0, 2, 0, .rng 0 2⟩, -- SHADOW
  ⟨0x4, 0x0, 1, .u 1, .ro, 0, 4, 5, .any⟩, -- STATE
  ⟨0x4, 0x1, 1, .u 1, .ro, 0, 4, 0, .any⟩, -- STATE.TSTATE
  ⟨0x4, 0x2, 1, .u 1, .ro, 0, 4, 0, .any⟩, -- STATE.PHYS_CLUSTER
  ⟨0x4, 0x3, 1, .u 1, .ro, 0, 4, 0, .any⟩, -- STATE.SHADOW
  ⟨0x4, 0x4, 1, .u 2, .ro, 0, 4, 0, .any⟩, -- STATE.LLP_HOLDER
  ⟨0x4, 0x5, 1, .i 4, .ro, 0, 4, 0x80000000, .any⟩, -- STATE.LIVE_LEAD
  ⟨0x1F, 0x0, 1, .u 1, .ro, 0, 4, 6, .any⟩, -- DEV
  ⟨0x1F, 0x1, 1, .u 8, .ro, 0, 4, 0, .any⟩, -- DEV.FRAME
  ⟨0x1F, 0x2, 1, .ptime, .ro, 0, 4, 0, .any⟩, -- DEV.TIME
  ⟨0x1F, 0x3, 1, .u 1, .ro, 0, 4, 255, .any⟩, -- DEV.SALVO
  ⟨0x1F, 0x4, 1, .u 8, .ro, 0, 4, 0, .any⟩, -- DEV.PRED_FRAME
  ⟨0x1F, 0x5, 1, .u 2, .ro, 0, 4, 0, .any⟩, -- DEV.LATENT_COUNT
  ⟨0x1F, 0x6, 1, .u 2, .ro, 0, 4, 0, .any⟩, -- DEV.SUPERSEDED
  ⟨0x30, 0x0, 1, .u 1, .ro, 0, 4, 10, .any⟩, -- STATS.RUN
  ⟨0x30, 0x1, 1, .u 8, .ro, 0, 4, 0, .any⟩, -- STATS.RUN.FRAME
  ⟨0x30, 0x2, 9, .u 4, .ro, 0, 4, 0, .any⟩, -- STATS.RUN.x
  ⟨0x31, 0x0, 1, .u 1, .ro, 0, 4, 10, .any⟩, -- STATS.LAST
  ⟨0x31, 0x1, 1, .u 8, .ro, 0, 4, 0, .any⟩, -- STATS.LAST.FRAME
  ⟨0x31, 0x2, 9, .u 4, .ro, 0, 4, 0, .any⟩, -- STATS.LAST.x
  ⟨0x32, 0x0, 1, .u 1, .ro, 0, 4, 10, .any⟩, -- STATS.TOTAL
  ⟨0x32, 0x1, 1, .u 8, .ro, 0, 4, 0, .any⟩ -- STATS.TOTAL.FRAMES
]
/-- Objects of the EAS block, part 1. -/
def easRows1 : List Row := [
  ⟨0x32, 0x2, 9, .u 8, .ro, 0, 4, 0, .any⟩, -- STATS.TOTAL.x
  ⟨0x33, 0x0, 1, .u 1, .ro, 0, 4, 2, .any⟩, -- CANVAS_EVT
  ⟨0x33, 0x1, 1, .u 8, .ro, 0, 4, 0, .any⟩, -- CANVAS_EVT.FRAME
  ⟨0x33, 0x2, 1, .ptime, .ro, 0, 4, 0, .any⟩, -- CANVAS_EVT.FRAME_TIME
  ⟨0x3F, 0x0, 1, .u 1, .cmd, 0, 1, 0, .set [1]⟩ -- STATS.CLEAR
]
/-- All objects of the EAS block. -/
def easRows : List Row := easRows0 ++ easRows1
/-- Objects of the LAYER block, part 0. -/
def layRows0 : List Row := [
  ⟨0x0, 0x0, 1, .u 1, .ro, 0, 4, 5, .any⟩, -- SRC
  ⟨0x0, 0x1, 1, .u 1, .rl, 0, 1, 0, .rng 0 3⟩, -- SRC.KIND
  ⟨0x0, 0x2, 1, .u 2, .rl, 0, 1, 0xffff, .any⟩, -- SRC.ID
  ⟨0x0, 0x3, 1, .u 2, .rl, 0, 1, 0xffff, .any⟩, -- SRC.KEY
  ⟨0x0, 0x4, 1, .u 1, .rl, 0, 1, 0, .rng 0 2⟩, -- SRC.LOSS
  ⟨0x0, 0x5, 1, .u 1, .rl, 0, 2, 255, .mask 0x13⟩, -- SRC.IN_SPACE
  ⟨0x1, 0x0, 1, .u 1, .ro, 0, 4, 8, .any⟩, -- GEOM
  ⟨0x1, 0x1, 4, .u 2, .rl, 0, 1, 0, .any⟩, -- GEOM.CROP_X, CROP_Y, CROP_W, CROP_H
  ⟨0x1, 0x5, 2, .i 2, .rl, 0, 1, 0, .srng (-8192) 8191⟩, -- GEOM.DST_X, DST_Y
  ⟨0x1, 0x7, 2, .u 2, .rl, 0, 1, 0, .any⟩, -- GEOM.DST_W, DST_H
  ⟨0x2, 0x0, 1, .u 1, .ro, 0, 4, 3, .any⟩, -- BLEND
  ⟨0x2, 0x1, 1, .u 2, .rl, 0, 1, 1023, .rng 0 1023⟩, -- BLEND.OPACITY
  ⟨0x2, 0x2, 1, .u 1, .rl, 0, 1, 0, .rng 0 1⟩, -- BLEND.ALPHA_MODE
  ⟨0x2, 0x3, 1, .u 1, .rl, 0, 1, 0, .rng 0 1⟩, -- BLEND.ALPHA_SRC
  ⟨0x3, 0x0, 1, .u 1, .ro, 0, 4, 16, .any⟩, -- COLOR
  ⟨0x3, 0x1, 1, .u 1, .rl, 0, 2, 0, .rng 0 2⟩, -- COLOR.PRESET
  ⟨0x3, 0x2, 1, .i 2, .rl, 0, 2, 0x1000, .any⟩, -- COLOR.MATRIX[i]
  ⟨0x3, 0x3, 3, .i 2, .rl, 0, 2, 0, .any⟩, -- COLOR.MATRIX[i]
  ⟨0x3, 0x6, 1, .i 2, .rl, 0, 2, 0x1000, .any⟩, -- COLOR.MATRIX[i]
  ⟨0x3, 0x7, 3, .i 2, .rl, 0, 2, 0, .any⟩, -- COLOR.MATRIX[i]
  ⟨0x3, 0xA, 1, .i 2, .rl, 0, 2, 0x1000, .any⟩, -- COLOR.MATRIX[i]
  ⟨0x3, 0xB, 3, .i 2, .rl, 0, 2, 0, .srng (-4095) 4095⟩, -- COLOR.INOFF[j]
  ⟨0x3, 0xE, 3, .i 2, .rl, 0, 2, 0, .srng (-4095) 4095⟩, -- COLOR.OUTOFF[k]
  ⟨0x4, 0x0, 1, .u 1, .ro, 0, 4, 64, .any⟩, -- LUT_A
  ⟨0x4, 0x1, 64, .oct 128, .rl, 0, 2, 0, .lut⟩, -- LUT_A.PART
  ⟨0x5, 0x0, 1, .u 1, .ro, 0, 4, 64, .any⟩, -- LUT_B
  ⟨0x5, 0x1, 64, .oct 128, .rl, 0, 2, 0, .lut⟩, -- LUT_B.PART
  ⟨0x6, 0x0, 1, .u 1, .ro, 0, 4, 2, .any⟩, -- ENL
  ⟨0x6, 0x1, 1, .u 1, .rl, 0, 2, 255, .rng 0 31⟩, -- ENL.NAME
  ⟨0x6, 0x2, 1, .u 1, .rl, 0, 2, 4, .rng 2 8⟩, -- ENL.QUALITY_FLOOR
  ⟨0x7, 0x0, 1, .u 4, .rl, 0, 1, 0, .any⟩, -- FENCE_WAIT
  ⟨0x8, 0x0, 1, .u 4, .rw, 0, 1, 0, .any⟩, -- FENCE_DONE
  ⟨0x9, 0x0, 1, .u 1, .rl, 0, 1, 4, .any⟩, -- FENCE_TIMEOUT
  ⟨0xA, 0x0, 1, .u 1, .rl, 0, 1, 0, .rng 0 1⟩, -- FENCE_ACTION
  ⟨0xB, 0x0, 1, .u 1, .rl, 0, 1, 0, .rng 0 7⟩, -- GROUP
  ⟨0xC, 0x0, 1, .u 1, .ro, 0, 4, 6, .any⟩, -- LSTAT
  ⟨0xC, 0x1, 1, .u 1, .ro, 0, 4, 0, .any⟩, -- LSTAT.FLIP_STATE
  ⟨0xC, 0x2, 1, .u 1, .ro, 0, 4, 0, .any⟩, -- LSTAT.PENDING_FRAMES
  ⟨0xC, 0x3, 1, .u 8, .ro, 0, 4, 0, .any⟩, -- LSTAT.FLIP_FRAME
  ⟨0xC, 0x4, 1, .u 2, .ro, 0, 4, 0xffff, .any⟩ -- LSTAT.BUF_ON_AIR
]
/-- Objects of the LAYER block, part 1. -/
def layRows1 : List Row := [
  ⟨0xC, 0x5, 1, .u 1, .ro, 0, 4, 0, .any⟩, -- LSTAT.SRC_STATE
  ⟨0xC, 0x6, 1, .u 1, .ro, 0, 4, 0, .any⟩ -- LSTAT.LAST_OUTCOME
]
/-- All objects of the LAYER block. -/
def layRows : List Row := layRows0 ++ layRows1
/-- Objects of the ENL block. -/
def enlRows : List Row := [
  ⟨0x0, 0x0, 1, .u 1, .ro, 0, 4, 6, .any⟩, -- CFG
  ⟨0x0, 0x1, 1, .u 1, .rl, 0, 2, 8, .rng 2 8⟩, -- CFG.VTAPS
  ⟨0x0, 0x2, 1, .u 1, .rl, 0, 2, 1, .rng 0 7⟩, -- CFG.HSET
  ⟨0x0, 0x3, 1, .u 1, .rl, 0, 2, 1, .rng 0 7⟩, -- CFG.VSET
  ⟨0x0, 0x4, 1, .u 1, .rl, 0, 2, 1, .rng 0 3⟩, -- CFG.DEINT
  ⟨0x0, 0x5, 1, .u 2, .rl, 0, 2, 32, .rng 0 4094⟩, -- CFG.MOT_LO
  ⟨0x0, 0x6, 1, .u 2, .rl, 0, 2, 128, .rng 1 4095⟩, -- CFG.MOT_HI
  ⟨0x1, 0x0, 1, .u 1, .ro, 0, 4, 16, .any⟩, -- STATE
  ⟨0x1, 0x1, 1, .u 1, .ro, 0, 4, 0, .any⟩, -- STATE.ROLE
  ⟨0x1, 0x2, 1, .u 2, .ro, 0, 4, 0, .any⟩, -- STATE.LAYER
  ⟨0x1, 0x3, 1, .u 1, .ro, 0, 4, 255, .any⟩, -- STATE.PARTNER
  ⟨0x1, 0x4, 1, .u 1, .ro, 0, 4, 0, .any⟩, -- STATE.VTAPS
  ⟨0x1, 0x5, 1, .u 1, .ro, 0, 4, 0, .any⟩, -- STATE.ORDER
  ⟨0x1, 0x6, 1, .u 2, .ro, 0, 4, 0, .any⟩, -- STATE.W_STORE
  ⟨0x1, 0x7, 1, .u 2, .ro, 0, 4, 0, .any⟩, -- STATE.LS_USED
  ⟨0x1, 0x8, 1, .u 4, .ro, 0, 4, 0, .any⟩, -- STATE.HSTEP
  ⟨0x1, 0x9, 1, .u 4, .ro, 0, 4, 0, .any⟩, -- STATE.VSTEP
  ⟨0x1, 0xA, 1, .u 2, .ro, 0, 4, 0, .any⟩, -- STATE.SRC_X0
  ⟨0x1, 0xB, 1, .u 2, .ro, 0, 4, 0, .any⟩, -- STATE.SRC_X1
  ⟨0x1, 0xC, 1, .u 2, .ro, 0, 4, 0, .any⟩, -- STATE.DST_X0
  ⟨0x1, 0xD, 1, .u 2, .ro, 0, 4, 0, .any⟩, -- STATE.DST_X1
  ⟨0x1, 0xE, 1, .u 4, .ro, 0, 4, 0, .any⟩, -- STATE.PIX_RATE
  ⟨0x1, 0xF, 1, .u 1, .ro, 0, 4, 0, .any⟩, -- STATE.LAT_LINES
  ⟨0x1, 0x10, 1, .u 1, .ro, 0, 4, 0, .any⟩, -- STATE.DEINT_ACTIVE
  ⟨0x10, 0x0, 1, .u 1, .ro, 0, 4, 64, .any⟩, -- HCOEF[k]
  ⟨0x10, 0x1, 64, .oct 32, .rl, 0, 2, 0, .any⟩, -- HCOEF[k].PHASE
  ⟨0x11, 0x0, 1, .u 1, .ro, 0, 4, 64, .any⟩, -- HCOEF[k]
  ⟨0x11, 0x1, 64, .oct 32, .rl, 0, 2, 0, .any⟩, -- HCOEF[k].PHASE
  ⟨0x12, 0x0, 1, .u 1, .ro, 0, 4, 64, .any⟩, -- HCOEF[k]
  ⟨0x12, 0x1, 64, .oct 32, .rl, 0, 2, 0, .any⟩, -- HCOEF[k].PHASE
  ⟨0x13, 0x0, 1, .u 1, .ro, 0, 4, 64, .any⟩, -- HCOEF[k]
  ⟨0x13, 0x1, 64, .oct 32, .rl, 0, 2, 0, .any⟩, -- HCOEF[k].PHASE
  ⟨0x14, 0x0, 1, .u 1, .ro, 0, 4, 64, .any⟩, -- VCOEF[k]
  ⟨0x14, 0x1, 64, .oct 16, .rl, 0, 2, 0, .any⟩, -- VCOEF[k].PHASE
  ⟨0x15, 0x0, 1, .u 1, .ro, 0, 4, 64, .any⟩, -- VCOEF[k]
  ⟨0x15, 0x1, 64, .oct 16, .rl, 0, 2, 0, .any⟩, -- VCOEF[k].PHASE
  ⟨0x16, 0x0, 1, .u 1, .ro, 0, 4, 64, .any⟩, -- VCOEF[k]
  ⟨0x16, 0x1, 64, .oct 16, .rl, 0, 2, 0, .any⟩, -- VCOEF[k].PHASE
  ⟨0x17, 0x0, 1, .u 1, .ro, 0, 4, 64, .any⟩, -- VCOEF[k]
  ⟨0x17, 0x1, 64, .oct 16, .rl, 0, 2, 0, .any⟩ -- VCOEF[k].PHASE
]
/-- Objects of the FRC block, part 0. -/
def frcRows0 : List Row := [
  ⟨0x0, 0x0, 1, .u 1, .ro, 0, 4, 3, .any⟩, -- OTIM
  ⟨0x0, 0x1, 1, .u 1, .rl, 0, 2, 0, .rng 0 35⟩, -- OTIM.FORMAT
  ⟨0x0, 0x2, 1, .u 1, .rl, 0, 2, 0, .rng 0 7⟩, -- OTIM.FAMILY
  ⟨0x0, 0x3, 1, .i 4, .rl, 0, 2, 0, .srng (-3093750) 3093749⟩, -- OTIM.TIMING_OFFSET
  ⟨0x1, 0x0, 1, .u 1, .ro, 0, 4, 4, .any⟩, -- EST
  ⟨0x1, 0x1, 1, .u 1, .rl, 0, 2, 224, .rng 1 255⟩, -- EST.CONF_THR
  ⟨0x1, 0x2, 1, .u 1, .rl, 0, 2, 160, .rng 0 254⟩, -- EST.CONF_LO
  ⟨0x1, 0x3, 1, .u 1, .rl, 0, 2, 8, .rng 1 64⟩, -- EST.OCC_THR
  ⟨0x1, 0x4, 1, .u 2, .rl, 0, 2, 8, .rng 1 4095⟩, -- EST.REPEAT_DIFF
  ⟨0x10, 0x0, 1, .u 1, .ro, 0, 4, 5, .any⟩, -- STREAM[k]
  ⟨0x10, 0x1, 1, .u 1, .rl, 0, 1, 0, .rng 0 2⟩, -- STREAM[k].KIND
  ⟨0x10, 0x2, 1, .u 1, .rl, 0, 1, 255, .any⟩, -- STREAM[k].SRC
  ⟨0x10, 0x3, 1, .u 1, .rl, 0, 1, 3, .rng 0 3⟩, -- STREAM[k].MODE
  ⟨0x10, 0x4, 1, .u 1, .rl, 0, 2, 0, .rng 0 2⟩, -- STREAM[k].CADENCE
  ⟨0x10, 0x5, 1, .u 1, .rl, 0, 1, 0, .rng 0 1⟩, -- STREAM[k].LOSS
  ⟨0x11, 0x0, 1, .u 1, .ro, 0, 4, 5, .any⟩, -- STREAM[k]
  ⟨0x11, 0x1, 1, .u 1, .rl, 0, 1, 0, .rng 0 2⟩, -- STREAM[k].KIND
  ⟨0x11, 0x2, 1, .u 1, .rl, 0, 1, 255, .any⟩, -- STREAM[k].SRC
  ⟨0x11, 0x3, 1, .u 1, .rl, 0, 1, 3, .rng 0 3⟩, -- STREAM[k].MODE
  ⟨0x11, 0x4, 1, .u 1, .rl, 0, 2, 0, .rng 0 2⟩, -- STREAM[k].CADENCE
  ⟨0x11, 0x5, 1, .u 1, .rl, 0, 1, 0, .rng 0 1⟩, -- STREAM[k].LOSS
  ⟨0x12, 0x0, 1, .u 1, .ro, 0, 4, 5, .any⟩, -- STREAM[k]
  ⟨0x12, 0x1, 1, .u 1, .rl, 0, 1, 0, .rng 0 2⟩, -- STREAM[k].KIND
  ⟨0x12, 0x2, 1, .u 1, .rl, 0, 1, 255, .any⟩, -- STREAM[k].SRC
  ⟨0x12, 0x3, 1, .u 1, .rl, 0, 1, 3, .rng 0 3⟩, -- STREAM[k].MODE
  ⟨0x12, 0x4, 1, .u 1, .rl, 0, 2, 0, .rng 0 2⟩, -- STREAM[k].CADENCE
  ⟨0x12, 0x5, 1, .u 1, .rl, 0, 1, 0, .rng 0 1⟩, -- STREAM[k].LOSS
  ⟨0x13, 0x0, 1, .u 1, .ro, 0, 4, 5, .any⟩, -- STREAM[k]
  ⟨0x13, 0x1, 1, .u 1, .rl, 0, 1, 0, .rng 0 2⟩, -- STREAM[k].KIND
  ⟨0x13, 0x2, 1, .u 1, .rl, 0, 1, 255, .any⟩, -- STREAM[k].SRC
  ⟨0x13, 0x3, 1, .u 1, .rl, 0, 1, 3, .rng 0 3⟩, -- STREAM[k].MODE
  ⟨0x13, 0x4, 1, .u 1, .rl, 0, 2, 0, .rng 0 2⟩, -- STREAM[k].CADENCE
  ⟨0x13, 0x5, 1, .u 1, .rl, 0, 1, 0, .rng 0 1⟩, -- STREAM[k].LOSS
  ⟨0x1F, 0x0, 1, .u 1, .ro, 0, 4, 6, .any⟩, -- DEV
  ⟨0x1F, 0x1, 1, .u 8, .ro, 0, 4, 0, .any⟩, -- DEV.FRAME
  ⟨0x1F, 0x2, 1, .ptime, .ro, 0, 4, 0, .any⟩, -- DEV.TIME
  ⟨0x1F, 0x3, 1, .u 1, .ro, 0, 4, 255, .any⟩, -- DEV.SALVO
  ⟨0x1F, 0x4, 1, .u 8, .ro, 0, 4, 0, .any⟩, -- DEV.PRED_FRAME
  ⟨0x1F, 0x5, 1, .u 2, .ro, 0, 4, 0, .any⟩, -- DEV.LATENT_COUNT
  ⟨0x1F, 0x6, 1, .u 2, .ro, 0, 4, 0, .any⟩ -- DEV.SUPERSEDED
]
/-- Objects of the FRC block, part 1. -/
def frcRows1 : List Row := [
  ⟨0x20, 0x0, 1, .u 1, .ro, 0, 4, 4, .any⟩, -- STATE
  ⟨0x20, 0x1, 1, .u 1, .ro, 0, 4, 0, .any⟩, -- STATE.TSTATE
  ⟨0x20, 0x2, 1, .u 1, .ro, 0, 4, 0, .any⟩, -- STATE.PHYS_CLUSTER
  ⟨0x20, 0x3, 1, .u 1, .ro, 0, 4, 0, .any⟩, -- STATE.STACK
  ⟨0x20, 0x4, 1, .u 4, .ro, 0, 4, 0, .any⟩, -- STATE.PIX_RATE
  ⟨0x30, 0x0, 1, .u 1, .ro, 0, 4, 10, .any⟩, -- STATS.RUN
  ⟨0x30, 0x1, 1, .u 8, .ro, 0, 4, 0, .any⟩, -- STATS.RUN.FRAME
  ⟨0x30, 0x2, 9, .u 4, .ro, 0, 4, 0, .any⟩, -- STATS.RUN.x
  ⟨0x31, 0x0, 1, .u 1, .ro, 0, 4, 10, .any⟩, -- STATS.LAST
  ⟨0x31, 0x1, 1, .u 8, .ro, 0, 4, 0, .any⟩, -- STATS.LAST.FRAME
  ⟨0x31, 0x2, 9, .u 4, .ro, 0, 4, 0, .any⟩, -- STATS.LAST.x
  ⟨0x32, 0x0, 1, .u 1, .ro, 0, 4, 10, .any⟩, -- STATS.TOTAL
  ⟨0x32, 0x1, 1, .u 8, .ro, 0, 4, 0, .any⟩, -- STATS.TOTAL.FRAMES
  ⟨0x32, 0x2, 9, .u 8, .ro, 0, 4, 0, .any⟩, -- STATS.TOTAL.x
  ⟨0x33, 0x0, 1, .u 1, .ro, 0, 4, 2, .any⟩, -- FRC_EVT
  ⟨0x33, 0x1, 1, .u 8, .ro, 0, 4, 0, .any⟩, -- FRC_EVT.FRAME
  ⟨0x33, 0x2, 1, .ptime, .ro, 0, 4, 0, .any⟩, -- FRC_EVT.FRAME_TIME
  ⟨0x34, 0x0, 1, .u 1, .ro, 0, 4, 8, .any⟩, -- SSTAT[k]
  ⟨0x34, 0x1, 1, .u 1, .ro, 0, 4, 0, .any⟩, -- SSTAT[k].STATE
  ⟨0x34, 0x2, 1, .u 1, .ro, 0, 4, 0, .any⟩, -- SSTAT[k].MODE_ACTIVE
  ⟨0x34, 0x3, 1, .u 1, .ro, 0, 4, 0, .any⟩, -- SSTAT[k].CADENCE_STATE
  ⟨0x34, 0x4, 1, .u 1, .ro, 0, 4, 255, .any⟩, -- SSTAT[k].IN_RATE
  ⟨0x34, 0x5, 1, .u 2, .ro, 0, 4, 0, .any⟩, -- SSTAT[k].W
  ⟨0x34, 0x6, 1, .u 4, .ro, 0, 4, 0, .any⟩, -- SSTAT[k].DELAY
  ⟨0x34, 0x7, 1, .u 4, .ro, 0, 4, 0xffffffff, .any⟩, -- SSTAT[k].LAST_LAT
  ⟨0x34, 0x8, 1, .u 2, .ro, 0, 4, 0, .any⟩, -- SSTAT[k].LOW_CONF
  ⟨0x35, 0x0, 1, .u 1, .ro, 0, 4, 8, .any⟩, -- SSTAT[k]
  ⟨0x35, 0x1, 1, .u 1, .ro, 0, 4, 0, .any⟩, -- SSTAT[k].STATE
  ⟨0x35, 0x2, 1, .u 1, .ro, 0, 4, 0, .any⟩, -- SSTAT[k].MODE_ACTIVE
  ⟨0x35, 0x3, 1, .u 1, .ro, 0, 4, 0, .any⟩, -- SSTAT[k].CADENCE_STATE
  ⟨0x35, 0x4, 1, .u 1, .ro, 0, 4, 255, .any⟩, -- SSTAT[k].IN_RATE
  ⟨0x35, 0x5, 1, .u 2, .ro, 0, 4, 0, .any⟩, -- SSTAT[k].W
  ⟨0x35, 0x6, 1, .u 4, .ro, 0, 4, 0, .any⟩, -- SSTAT[k].DELAY
  ⟨0x35, 0x7, 1, .u 4, .ro, 0, 4, 0xffffffff, .any⟩, -- SSTAT[k].LAST_LAT
  ⟨0x35, 0x8, 1, .u 2, .ro, 0, 4, 0, .any⟩, -- SSTAT[k].LOW_CONF
  ⟨0x36, 0x0, 1, .u 1, .ro, 0, 4, 8, .any⟩, -- SSTAT[k]
  ⟨0x36, 0x1, 1, .u 1, .ro, 0, 4, 0, .any⟩, -- SSTAT[k].STATE
  ⟨0x36, 0x2, 1, .u 1, .ro, 0, 4, 0, .any⟩, -- SSTAT[k].MODE_ACTIVE
  ⟨0x36, 0x3, 1, .u 1, .ro, 0, 4, 0, .any⟩, -- SSTAT[k].CADENCE_STATE
  ⟨0x36, 0x4, 1, .u 1, .ro, 0, 4, 255, .any⟩ -- SSTAT[k].IN_RATE
]
/-- Objects of the FRC block, part 2. -/
def frcRows2 : List Row := [
  ⟨0x36, 0x5, 1, .u 2, .ro, 0, 4, 0, .any⟩, -- SSTAT[k].W
  ⟨0x36, 0x6, 1, .u 4, .ro, 0, 4, 0, .any⟩, -- SSTAT[k].DELAY
  ⟨0x36, 0x7, 1, .u 4, .ro, 0, 4, 0xffffffff, .any⟩, -- SSTAT[k].LAST_LAT
  ⟨0x36, 0x8, 1, .u 2, .ro, 0, 4, 0, .any⟩, -- SSTAT[k].LOW_CONF
  ⟨0x37, 0x0, 1, .u 1, .ro, 0, 4, 8, .any⟩, -- SSTAT[k]
  ⟨0x37, 0x1, 1, .u 1, .ro, 0, 4, 0, .any⟩, -- SSTAT[k].STATE
  ⟨0x37, 0x2, 1, .u 1, .ro, 0, 4, 0, .any⟩, -- SSTAT[k].MODE_ACTIVE
  ⟨0x37, 0x3, 1, .u 1, .ro, 0, 4, 0, .any⟩, -- SSTAT[k].CADENCE_STATE
  ⟨0x37, 0x4, 1, .u 1, .ro, 0, 4, 255, .any⟩, -- SSTAT[k].IN_RATE
  ⟨0x37, 0x5, 1, .u 2, .ro, 0, 4, 0, .any⟩, -- SSTAT[k].W
  ⟨0x37, 0x6, 1, .u 4, .ro, 0, 4, 0, .any⟩, -- SSTAT[k].DELAY
  ⟨0x37, 0x7, 1, .u 4, .ro, 0, 4, 0xffffffff, .any⟩, -- SSTAT[k].LAST_LAT
  ⟨0x37, 0x8, 1, .u 2, .ro, 0, 4, 0, .any⟩, -- SSTAT[k].LOW_CONF
  ⟨0x3F, 0x0, 1, .u 1, .cmd, 0, 1, 0, .set [1]⟩ -- STATS.CLEAR
]
/-- All objects of the FRC block. -/
def frcRows : List Row := frcRows0 ++ frcRows1 ++ frcRows2
/-- Objects of the PRF block. -/
def prfRows : List Row := [
  ⟨0x0, 0x0, 1, .u 1, .ro, 0, 4, 9, .any⟩, -- CFG
  ⟨0x0, 0x1, 1, .u 1, .rw, 0, 2, 255, .rng 0 47⟩, -- CFG.OUT
  ⟨0x0, 0x2, 1, .u 1, .rl, 0, 2, 0, .rng 0 3⟩, -- CFG.LINK
  ⟨0x0, 0x3, 1, .u 2, .rl, 0, 2, 0, .any⟩, -- CFG.X0
  ⟨0x0, 0x4, 1, .u 2, .rl, 0, 2, 0, .any⟩, -- CFG.Y0
  ⟨0x0, 0x5, 1, .u 2, .rl, 0, 2, 0, .any⟩, -- CFG.W
  ⟨0x0, 0x6, 1, .u 2, .rl, 0, 2, 0, .any⟩, -- CFG.H
  ⟨0x0, 0x7, 1, .u 1, .rl, 0, 2, 0, .rng 0 3⟩, -- CFG.MODE
  ⟨0x0, 0x8, 1, .u 1, .rl, 0, 2, 0, .rng 0 2⟩, -- CFG.ACTION
  ⟨0x0, 0x9, 1, .u 1, .rl, 0, 2, 1, .rng 1 255⟩, -- CFG.MISMATCH_FRAMES
  ⟨0x1, 0x0, 1, .u 4, .rw, 0, 1, 0, .any⟩, -- EXPECTED
  ⟨0x2, 0x0, 1, .u 1, .cmd, 0, 1, 0, .set [1]⟩, -- LEARN
  ⟨0x3, 0x0, 1, .u 1, .ro, 0, 4, 7, .any⟩, -- STATUS
  ⟨0x3, 0x1, 1, .u 1, .ro, 0, 4, 0, .any⟩, -- STATUS.STATE
  ⟨0x3, 0x2, 1, .u 4, .ro, 0, 4, 0, .any⟩, -- STATUS.SIG
  ⟨0x3, 0x3, 1, .u 8, .ro, 0, 4, 0, .any⟩, -- STATUS.SIG_FRAME
  ⟨0x3, 0x4, 1, .u 4, .ro, 0, 4, 0, .any⟩, -- STATUS.SHADOW_SIG
  ⟨0x3, 0x5, 1, .u 1, .ro, 0, 4, 0, .any⟩, -- STATUS.RUN
  ⟨0x3, 0x6, 1, .u 4, .ro, 0, 4, 0, .any⟩, -- STATUS.MISMATCHES
  ⟨0x3, 0x7, 1, .u 8, .ro, 0, 4, 0, .any⟩ -- STATUS.ACTION_FRAME
]
/-- Objects of the BUF block. -/
def bufRows : List Row := [
  ⟨0x0, 0x0, 1, .u 1, .ro, 0, 4, 18, .any⟩, -- BUF[b]
  ⟨0x0, 0x1, 1, .u 1, .rw, 0, 1, 0, .set [0, 1, 2, 0x80]⟩, -- STATE
  ⟨0x0, 0x2, 1, .u 1, .rw, 0, 2, 0, .rng 0 5⟩, -- FORMAT
  ⟨0x0, 0x3, 1, .u 2, .rw, 0, 2, 1920, .rng 1 16384⟩, -- WIDTH
  ⟨0x0, 0x4, 1, .u 2, .rw, 0, 2, 1080, .rng 1 16384⟩, -- HEIGHT
  ⟨0x0, 0x5, 1, .u 4, .rw, 0, 2, 0, .mul 64 0 1048576⟩, -- PITCH
  ⟨0x0, 0x6, 1, .u 1, .rw, 0, 2, 2, .rng 0 2⟩, -- STACK
  ⟨0x0, 0x7, 1, .u 1, .rw, 0, 2, 1, .rng 0 2⟩, -- PROTECT
  ⟨0x0, 0x8, 1, .bool, .rw, 0, 1, 0, .any⟩, -- AUTO_FREE
  ⟨0x0, 0x9, 1, .u 1, .cmd, 0, 2, 0, .set [1]⟩, -- ALLOC
  ⟨0x0, 0xA, 1, .u 8, .ro, 0, 4, 0xffffffffffffffff, .any⟩, -- ADDR
  ⟨0x0, 0xB, 1, .u 8, .ro, 0, 4, 0, .any⟩, -- SIZE
  ⟨0x0, 0xC, 1, .u 2, .ro, 0, 4, 0, .any⟩, -- REFCOUNT
  ⟨0x0, 0xD, 1, .u 2, .ro, 0, 4, 0, .any⟩, -- PENDING
  ⟨0x0, 0xE, 1, .u 1, .ro, 0, 4, 0, .any⟩, -- MIRROR
  ⟨0x0, 0xF, 1, .u 8, .ro, 0, 4, 0xffffffffffffffff, .any⟩, -- MIRROR_ADDR
  ⟨0x0, 0x10, 1, .ptime, .ro, 0, 4, 0, .any⟩, -- RETIRE_TIME
  ⟨0x0, 0x11, 1, .bool, .ro, 0, 4, 0, .any⟩, -- DAMAGED
  ⟨0x0, 0x12, 1, .u 2, .ro, 0, 4, 0, .any⟩ -- WRITER
]
/-- Objects of the RING block. -/
def ringRows : List Row := [
  ⟨0x0, 0x0, 1, .u 1, .ro, 0, 4, 8, .any⟩, -- RING[i]
  ⟨0x0, 0x1, 1, .u 1, .ro, 0, 4, 0, .any⟩, -- STATE
  ⟨0x0, 0x2, 1, .u 1, .ro, 0, 4, 255, .any⟩, -- STACK
  ⟨0x0, 0x3, 1, .u 8, .ro, 0, 4, 0xffffffffffffffff, .any⟩, -- ADDR
  ⟨0x0, 0x4, 1, .u 4, .ro, 0, 4, 0, .any⟩, -- SLOT_BYTES
  ⟨0x0, 0x5, 1, .u 1, .ro, 0, 4, 0, .any⟩, -- FORMAT
  ⟨0x0, 0x6, 1, .u 1, .ro, 0, 4, 0, .any⟩, -- SLOT
  ⟨0x0, 0x7, 1, .u 1, .ro, 0, 4, 0, .any⟩, -- MIRROR
  ⟨0x0, 0x8, 1, .u 8, .ro, 0, 4, 0xffffffffffffffff, .any⟩ -- MIRROR_ADDR
]
/-- Objects of the DST block. -/
def dstRows : List Row := [
  ⟨0x0, 0x0, 1, .u 1, .ro, 0, 4, 20, .any⟩, -- AUD.DST[d]
  ⟨0x0, 0x1, 1, .u 2, .rl, 0, 1, 0xffff, .rngOr 0 1551 [0xFFFF]⟩, -- SRC
  ⟨0x0, 0x2, 1, .i 2, .rl, 0, 1, 0, .srng (-900) 120⟩, -- GAIN
  ⟨0x0, 0x3, 1, .bool, .rl, 0, 1, 0, .any⟩, -- MUTE
  ⟨0x0, 0x4, 1, .u 4, .rl, 0, 1, 0, .rng 0 4000000⟩, -- DELAY
  ⟨0x0, 0x5, 1, .bool, .rl, 0, 2, 1, .any⟩, -- FOLLOW
  ⟨0x0, 0x6, 1, .u 2, .rl, 0, 1, 480, .rng 0 4096⟩, -- XFADE
  ⟨0x0, 0x7, 1, .u 1, .rl, 0, 2, 0, .rng 0 1⟩, -- CS_MODE
  ⟨0x0, 0x8, 1, .u 4, .ro, 0, 4, 0x3d090, .any⟩, -- DELAY_ACTIVE
  ⟨0x0, 0x9, 1, .u 4, .ro, 0, 4, 0, .any⟩, -- V
  ⟨0x0, 0xA, 1, .u 1, .ro, 0, 4, 0, .any⟩, -- STATE
  ⟨0x0, 0xB, 1, .u 1, .ro, 0, 4, 1, .any⟩, -- CLOCK
  ⟨0x0, 0xC, 1, .i 4, .ro, 0, 4, 0, .any⟩, -- RATIO
  ⟨0x0, 0xD, 1, .u 1, .ro, 0, 4, 0, .any⟩, -- FOLLOW_STATE
  ⟨0x0, 0xE, 1, .u 4, .ro, 0, 4, 0, .any⟩, -- SWITCHES
  ⟨0x0, 0xF, 1, .u 8, .ro, 0, 4, 0, .any⟩, -- DEV.FRAME
  ⟨0x0, 0x10, 1, .ptime, .ro, 0, 4, 0, .any⟩, -- DEV.TIME
  ⟨0x0, 0x11, 1, .u 1, .ro, 0, 4, 255, .any⟩, -- DEV.SALVO
  ⟨0x0, 0x12, 1, .u 8, .ro, 0, 4, 0, .any⟩, -- DEV.PRED_FRAME
  ⟨0x0, 0x13, 1, .u 2, .ro, 0, 4, 0, .any⟩, -- DEV.LATENT_COUNT
  ⟨0x0, 0x14, 1, .u 2, .ro, 0, 4, 0, .any⟩ -- DEV.SUPERSEDED
]
/-- Objects of the AIN block. -/
def ainRows : List Row := [
  ⟨0x0, 0x0, 1, .u 1, .ro, 0, 4, 7, .any⟩, -- STAT
  ⟨0x0, 0x1, 1, .u 4, .ro, 0, 4, 0, .any⟩, -- STAT.PRESENT
  ⟨0x0, 0x2, 1, .u 1, .ro, 0, 4, 0, .any⟩, -- STAT.GROUPS
  ⟨0x0, 0x3, 1, .u 1, .ro, 0, 4, 0, .any⟩, -- STAT.SYNC
  ⟨0x0, 0x4, 1, .u 1, .ro, 0, 4, 0, .any⟩, -- STAT.RATE
  ⟨0x0, 0x5, 1, .u 2, .ro, 0, 4, 0, .any⟩, -- STAT.NONPCM
  ⟨0x0, 0x6, 1, .u 1, .ro, 0, 4, 0, .any⟩, -- STAT.WORD24
  ⟨0x0, 0x7, 1, .i 4, .ro, 0, 4, 0, .any⟩, -- STAT.RATE_OFFSET
  ⟨0x1, 0x0, 1, .u 1, .ro, 0, 4, 16, .any⟩, -- CS
  ⟨0x1, 0x1, 16, .oct 24, .ro, 0, 4, 0, .any⟩, -- CS.PAIR[j]
  ⟨0x2, 0x0, 1, .u 1, .ro, 0, 4, 16, .any⟩, -- DATATYPE
  ⟨0x2, 0x1, 16, .u 1, .ro, 0, 4, 0, .any⟩, -- DATATYPE.PAIR[j]
  ⟨0xC, 0x0, 1, .u 1, .ro, 0, 4, 7, .any⟩, -- STATS.RUN
  ⟨0xC, 0x1, 1, .u 8, .ro, 0, 4, 0, .any⟩, -- STATS.RUN.FRAME
  ⟨0xC, 0x2, 6, .u 4, .ro, 0, 4, 0, .any⟩, -- STATS.RUN.x
  ⟨0xD, 0x0, 1, .u 1, .ro, 0, 4, 7, .any⟩, -- STATS.LAST
  ⟨0xD, 0x1, 1, .u 8, .ro, 0, 4, 0, .any⟩, -- STATS.LAST.FRAME
  ⟨0xD, 0x2, 6, .u 4, .ro, 0, 4, 0, .any⟩, -- STATS.LAST.x
  ⟨0xE, 0x0, 1, .u 1, .ro, 0, 4, 7, .any⟩, -- STATS.TOTAL
  ⟨0xE, 0x1, 1, .u 8, .ro, 0, 4, 0, .any⟩, -- STATS.TOTAL.FRAMES
  ⟨0xE, 0x2, 6, .u 8, .ro, 0, 4, 0, .any⟩, -- STATS.TOTAL.x
  ⟨0xF, 0x0, 1, .u 1, .cmd, 0, 1, 0, .set [1]⟩ -- STATS.CLEAR
]
/-- Objects of the TONE block. -/
def toneRows : List Row := [
  ⟨0x0, 0x0, 1, .u 1, .ro, 0, 4, 3, .any⟩, -- TONE[t]
  ⟨0x0, 0x1, 1, .bool, .rw, 0, 1, 1, .any⟩, -- TONE[t].ENABLE
  ⟨0x0, 0x2, 1, .u 4, .rw, 0, 1, 0xf4240, .rng 20000 20000000⟩, -- TONE[t].FREQ
  ⟨0x0, 0x3, 1, .i 2, .rw, 0, 1, 0xff38, .srng (-600) 0⟩ -- TONE[t].LEVEL
]
/-- Objects of the REF block. -/
def refRows : List Row := [
  ⟨0x0, 0x0, 1, .u 1, .ro, 0, 4, 16, .any⟩, -- REF.SRC[k]
  ⟨0x0, 0x1, 1, .u 1, .ro, 0, 4, 0, .any⟩, -- TYPE
  ⟨0x0, 0x2, 1, .u 1, .rw, 0, 2, 0, .rng 0 15⟩, -- RANK0
  ⟨0x0, 0x3, 1, .u 1, .rw, 0, 2, 0, .rng 0 15⟩, -- RANK1
  ⟨0x0, 0x4, 1, .u 1, .ro, 0, 4, 0, .any⟩, -- STATE
  ⟨0x0, 0x5, 1, .u 4, .ro, 0, 4, 0, .any⟩, -- NOM_NUM
  ⟨0x0, 0x6, 1, .u 2, .ro, 0, 4, 1, .any⟩, -- NOM_DEN
  ⟨0x0, 0x7, 1, .i 4, .ro, 0, 4, 0, .any⟩, -- OFFSET
  ⟨0x0, 0x8, 1, .i 4, .ro, 0, 4, 0, .any⟩, -- DRIFT
  ⟨0x0, 0x9, 1, .u 4, .rw, 0, 2, 2000, .rng 1 100000⟩, -- SOFT
  ⟨0x0, 0xA, 1, .u 4, .rw, 0, 2, 0x1388, .rng 1 100000⟩, -- HARD
  ⟨0x0, 0xB, 1, .u 4, .rw, 0, 2, 100, .rng 1 100000⟩, -- DRIFT_LIMIT
  ⟨0x0, 0xC, 1, .u 2, .rw, 0, 2, 2, .rng 1 600⟩, -- QUAL_TIME
  ⟨0x0, 0xD, 1, .u 2, .rw, 0, 2, 10, .rng 0 3600⟩, -- WTR
  ⟨0x0, 0xE, 1, .u 4, .ro, 0, 4, 0, .any⟩, -- WTR_LEFT
  ⟨0x0, 0xF, 1, .u 1, .rw, 0, 2, 255, .rng 0 19⟩, -- BW
  ⟨0x0, 0x10, 1, .i 4, .rw, 0, 2, 0x10000, .rng 45876 327680⟩ -- DAMP
]
/-- Objects of the SEL block. -/
def selRows : List Row := [
  ⟨0x0, 0x0, 1, .u 1, .ro, 0, 4, 17, .any⟩, -- REF.SEL[j]
  ⟨0x0, 0x1, 1, .u 1, .rw, 0, 2, 0, .rng 0 4⟩, -- MODE
  ⟨0x0, 0x2, 1, .u 1, .rw, 0, 2, 255, .rng 0 53⟩, -- FORCE_K
  ⟨0x0, 0x3, 1, .u 1, .ro, 0, 4, 255, .any⟩, -- ACTIVE
  ⟨0x0, 0x4, 1, .u 1, .ro, 0, 4, 0, .any⟩, -- STATE
  ⟨0x0, 0x5, 1, .bool, .rw, 0, 2, 1, .any⟩, -- REVERTIVE
  ⟨0x0, 0x6, 1, .u 4, .rw, 0, 2, 2000, .rng 1 100000⟩, -- DISAGREE
  ⟨0x0, 0x7, 1, .u 1, .ro, 0, 4, 4, .any⟩, -- STATUS
  ⟨0x0, 0x8, 1, .u 1, .ro, 0, 4, 10, .any⟩, -- BW_ACTIVE
  ⟨0x0, 0x9, 1, .i 4, .ro, 0, 4, 0x10000, .any⟩, -- DAMP_ACTIVE
  ⟨0x0, 0xA, 1, .u 4, .rw, 0, 2, 1000, .rng 10 1000000⟩, -- LOCK_PHASE
  ⟨0x0, 0xB, 1, .u 2, .rw, 0, 2, 1000, .rng 10 60000⟩, -- LOCK_HOLD
  ⟨0x0, 0xC, 1, .i 4, .ro, 0, 4, 0, .any⟩, -- PHASE_ERR
  ⟨0x0, 0xD, 1, .i 8, .rw, 0, 3, 0, .srng (-429496729600000) 429496729600000⟩, -- NCO
  ⟨0x0, 0xE, 1, .u 2, .rw, 0, 2, 30, .rng 1 3600⟩, -- HOLD_AVG
  ⟨0x0, 0xF, 1, .u 4, .ro, 0, 4, 0, .any⟩, -- HOLD_TIME
  ⟨0x0, 0x10, 1, .u 4, .ro, 0, 4, 0, .any⟩, -- SWITCHES
  ⟨0x0, 0x11, 1, .i 8, .ro, 0, 4, 0, .any⟩ -- LAST_STEP
]
/-- Objects of the GSYN block, part 0. -/
def gsynRows0 : List Row := [
  ⟨0x0, 0x0, 1, .u 1, .ro, 0, 4, 17, .any⟩, -- GSYN[g]
  ⟨0x0, 0x1, 1, .u 1, .rw, 0, 2, 0, .rng 0 1⟩, -- SEL
  ⟨0x0, 0x2, 1, .u 1, .rl, 0, 2, 9, .rng 0 12⟩, -- RATE
  ⟨0x0, 0x3, 1, .u 1, .ro, 0, 4, 0, .any⟩, -- CLASS
  ⟨0x0, 0x4, 1, .i 4, .rl, 0, 2, 0, .srng (-3093750) 3093749⟩, -- PHASE_OFFSET
  ⟨0x0, 0x5, 1, .u 1, .rw, 0, 2, 0, .rng 0 1⟩, -- ALIGN
  ⟨0x0, 0x6, 1, .u 2, .rw, 0, 2, 0x2710, .rng 100 10000⟩, -- SLEW_MAX
  ⟨0x0, 0x7, 1, .u 4, .rw, 0, 2, 1000, .rng 10 100000⟩, -- SLEW_SLOPE
  ⟨0x0, 0x8, 1, .u 1, .rw, 0, 3, 1, .rng 0 2⟩, -- PRESCALE
  ⟨0x0, 0x9, 1, .u 1, .ro, 0, 4, 0, .any⟩, -- STATE
  ⟨0x0, 0xA, 1, .bool, .ro, 0, 4, 0, .any⟩, -- LOL
  ⟨0x0, 0xB, 1, .i 4, .ro, 0, 4, 0, .any⟩, -- CTRL_WORD
  ⟨0x0, 0xC, 1, .u 1, .ro, 0, 4, 0, .any⟩, -- BAND
  ⟨0x0, 0xD, 1, .i 4, .ro, 0, 4, 0, .any⟩, -- OFFSET
  ⟨0x0, 0xE, 1, .i 8, .ro, 0, 4, 0, .any⟩, -- PHASE_NS
  ⟨0x0, 0xF, 1, .u 1, .cmd, 0, 2, 0, .rng 1 2⟩, -- RELOCK
  ⟨0x0, 0x10, 1, .u 1, .ro, 0, 4, 0, .any⟩, -- CONSUMERS
  ⟨0x0, 0x11, 1, .bool, .rw, 0, 2, 0, .any⟩, -- DIVSYNC
  ⟨0x10, 0x0, 1, .u 1, .ro, 0, 4, 49, .any⟩, -- RAMP
  ⟨0x10, 0x1, 1, .u 1, .rl, 0, 2, 0, .rng 0 16⟩, -- RAMP.COUNT
  ⟨0x10, 0x2, 1, .i 4, .rl, 0, 2, 0, .srng (-10000) 10000⟩, -- RAMP.TARGET[i]
  ⟨0x10, 0x3, 1, .u 4, .rl, 0, 2, 1000, .rng 1 100000⟩, -- RAMP.SLOPE[i]
  ⟨0x10, 0x4, 1, .u 4, .rl, 0, 2, 0, .rng 0 3600000⟩, -- RAMP.DWELL[i]
  ⟨0x10, 0x5, 1, .i 4, .rl, 0, 2, 0, .srng (-10000) 10000⟩, -- RAMP.TARGET[i]
  ⟨0x10, 0x6, 1, .u 4, .rl, 0, 2, 1000, .rng 1 100000⟩, -- RAMP.SLOPE[i]
  ⟨0x10, 0x7, 1, .u 4, .rl, 0, 2, 0, .rng 0 3600000⟩, -- RAMP.DWELL[i]
  ⟨0x10, 0x8, 1, .i 4, .rl, 0, 2, 0, .srng (-10000) 10000⟩, -- RAMP.TARGET[i]
  ⟨0x10, 0x9, 1, .u 4, .rl, 0, 2, 1000, .rng 1 100000⟩, -- RAMP.SLOPE[i]
  ⟨0x10, 0xA, 1, .u 4, .rl, 0, 2, 0, .rng 0 3600000⟩, -- RAMP.DWELL[i]
  ⟨0x10, 0xB, 1, .i 4, .rl, 0, 2, 0, .srng (-10000) 10000⟩, -- RAMP.TARGET[i]
  ⟨0x10, 0xC, 1, .u 4, .rl, 0, 2, 1000, .rng 1 100000⟩, -- RAMP.SLOPE[i]
  ⟨0x10, 0xD, 1, .u 4, .rl, 0, 2, 0, .rng 0 3600000⟩, -- RAMP.DWELL[i]
  ⟨0x10, 0xE, 1, .i 4, .rl, 0, 2, 0, .srng (-10000) 10000⟩, -- RAMP.TARGET[i]
  ⟨0x10, 0xF, 1, .u 4, .rl, 0, 2, 1000, .rng 1 100000⟩, -- RAMP.SLOPE[i]
  ⟨0x10, 0x10, 1, .u 4, .rl, 0, 2, 0, .rng 0 3600000⟩, -- RAMP.DWELL[i]
  ⟨0x10, 0x11, 1, .i 4, .rl, 0, 2, 0, .srng (-10000) 10000⟩, -- RAMP.TARGET[i]
  ⟨0x10, 0x12, 1, .u 4, .rl, 0, 2, 1000, .rng 1 100000⟩, -- RAMP.SLOPE[i]
  ⟨0x10, 0x13, 1, .u 4, .rl, 0, 2, 0, .rng 0 3600000⟩, -- RAMP.DWELL[i]
  ⟨0x10, 0x14, 1, .i 4, .rl, 0, 2, 0, .srng (-10000) 10000⟩, -- RAMP.TARGET[i]
  ⟨0x10, 0x15, 1, .u 4, .rl, 0, 2, 1000, .rng 1 100000⟩ -- RAMP.SLOPE[i]
]
/-- Objects of the GSYN block, part 1. -/
def gsynRows1 : List Row := [
  ⟨0x10, 0x16, 1, .u 4, .rl, 0, 2, 0, .rng 0 3600000⟩, -- RAMP.DWELL[i]
  ⟨0x10, 0x17, 1, .i 4, .rl, 0, 2, 0, .srng (-10000) 10000⟩, -- RAMP.TARGET[i]
  ⟨0x10, 0x18, 1, .u 4, .rl, 0, 2, 1000, .rng 1 100000⟩, -- RAMP.SLOPE[i]
  ⟨0x10, 0x19, 1, .u 4, .rl, 0, 2, 0, .rng 0 3600000⟩, -- RAMP.DWELL[i]
  ⟨0x10, 0x1A, 1, .i 4, .rl, 0, 2, 0, .srng (-10000) 10000⟩, -- RAMP.TARGET[i]
  ⟨0x10, 0x1B, 1, .u 4, .rl, 0, 2, 1000, .rng 1 100000⟩, -- RAMP.SLOPE[i]
  ⟨0x10, 0x1C, 1, .u 4, .rl, 0, 2, 0, .rng 0 3600000⟩, -- RAMP.DWELL[i]
  ⟨0x10, 0x1D, 1, .i 4, .rl, 0, 2, 0, .srng (-10000) 10000⟩, -- RAMP.TARGET[i]
  ⟨0x10, 0x1E, 1, .u 4, .rl, 0, 2, 1000, .rng 1 100000⟩, -- RAMP.SLOPE[i]
  ⟨0x10, 0x1F, 1, .u 4, .rl, 0, 2, 0, .rng 0 3600000⟩, -- RAMP.DWELL[i]
  ⟨0x10, 0x20, 1, .i 4, .rl, 0, 2, 0, .srng (-10000) 10000⟩, -- RAMP.TARGET[i]
  ⟨0x10, 0x21, 1, .u 4, .rl, 0, 2, 1000, .rng 1 100000⟩, -- RAMP.SLOPE[i]
  ⟨0x10, 0x22, 1, .u 4, .rl, 0, 2, 0, .rng 0 3600000⟩, -- RAMP.DWELL[i]
  ⟨0x10, 0x23, 1, .i 4, .rl, 0, 2, 0, .srng (-10000) 10000⟩, -- RAMP.TARGET[i]
  ⟨0x10, 0x24, 1, .u 4, .rl, 0, 2, 1000, .rng 1 100000⟩, -- RAMP.SLOPE[i]
  ⟨0x10, 0x25, 1, .u 4, .rl, 0, 2, 0, .rng 0 3600000⟩, -- RAMP.DWELL[i]
  ⟨0x10, 0x26, 1, .i 4, .rl, 0, 2, 0, .srng (-10000) 10000⟩, -- RAMP.TARGET[i]
  ⟨0x10, 0x27, 1, .u 4, .rl, 0, 2, 1000, .rng 1 100000⟩, -- RAMP.SLOPE[i]
  ⟨0x10, 0x28, 1, .u 4, .rl, 0, 2, 0, .rng 0 3600000⟩, -- RAMP.DWELL[i]
  ⟨0x10, 0x29, 1, .i 4, .rl, 0, 2, 0, .srng (-10000) 10000⟩, -- RAMP.TARGET[i]
  ⟨0x10, 0x2A, 1, .u 4, .rl, 0, 2, 1000, .rng 1 100000⟩, -- RAMP.SLOPE[i]
  ⟨0x10, 0x2B, 1, .u 4, .rl, 0, 2, 0, .rng 0 3600000⟩, -- RAMP.DWELL[i]
  ⟨0x10, 0x2C, 1, .i 4, .rl, 0, 2, 0, .srng (-10000) 10000⟩, -- RAMP.TARGET[i]
  ⟨0x10, 0x2D, 1, .u 4, .rl, 0, 2, 1000, .rng 1 100000⟩, -- RAMP.SLOPE[i]
  ⟨0x10, 0x2E, 1, .u 4, .rl, 0, 2, 0, .rng 0 3600000⟩, -- RAMP.DWELL[i]
  ⟨0x10, 0x2F, 1, .i 4, .rl, 0, 2, 0, .srng (-10000) 10000⟩, -- RAMP.TARGET[i]
  ⟨0x10, 0x30, 1, .u 4, .rl, 0, 2, 1000, .rng 1 100000⟩, -- RAMP.SLOPE[i]
  ⟨0x10, 0x31, 1, .u 4, .rl, 0, 2, 0, .rng 0 3600000⟩, -- RAMP.DWELL[i]
  ⟨0x11, 0x0, 1, .u 1, .cmd, 0, 2, 0, .rng 1 3⟩, -- RAMP_RUN
  ⟨0x12, 0x0, 1, .u 1, .ro, 0, 4, 2, .any⟩, -- RAMP_STATUS
  ⟨0x12, 0x1, 1, .u 1, .ro, 0, 4, 0, .any⟩, -- RAMP_STATUS.STATE
  ⟨0x12, 0x2, 1, .u 1, .ro, 0, 4, 255, .any⟩, -- RAMP_STATUS.SEG
  ⟨0x1F, 0x0, 1, .u 1, .ro, 0, 4, 6, .any⟩, -- DEV
  ⟨0x1F, 0x1, 1, .u 8, .ro, 0, 4, 0, .any⟩, -- DEV.FRAME
  ⟨0x1F, 0x2, 1, .ptime, .ro, 0, 4, 0, .any⟩, -- DEV.TIME
  ⟨0x1F, 0x3, 1, .u 1, .ro, 0, 4, 255, .any⟩, -- DEV.SALVO
  ⟨0x1F, 0x4, 1, .u 8, .ro, 0, 4, 0, .any⟩, -- DEV.PRED_FRAME
  ⟨0x1F, 0x5, 1, .u 2, .ro, 0, 4, 0, .any⟩, -- DEV.LATENT_COUNT
  ⟨0x1F, 0x6, 1, .u 2, .ro, 0, 4, 0, .any⟩ -- DEV.SUPERSEDED
]
/-- All objects of the GSYN block. -/
def gsynRows : List Row := gsynRows0 ++ gsynRows1
/-- Objects of the CLKOUT block. -/
def clkoRows : List Row := [
  ⟨0x0, 0x0, 1, .u 1, .ro, 0, 4, 4, .any⟩, -- CLKOUT[c]
  ⟨0x0, 0x1, 1, .u 1, .rw, 0, 2, 255, .rng 0 7⟩, -- CLKOUT[c].SRC
  ⟨0x0, 0x2, 1, .u 4, .rw, 0, 2, 16, .rng 2 0xFFFFFFFF⟩, -- CLKOUT[c].DIV
  ⟨0x0, 0x3, 1, .bool, .rw, 0, 2, 0, .any⟩, -- CLKOUT[c].SYNC
  ⟨0x0, 0x4, 1, .u 4, .ro, 0, 4, 0, .any⟩ -- CLKOUT[c].FREQ
]
/-- Objects of the PRIO block. -/
def prioRows : List Row := [
  ⟨0x0, 0x0, 1, .u 4, .rw, 0, 3, 0, .mask 0x000FFFFF⟩ -- PRIO[m]
]
/-- Objects of the PORT block. -/
def portRows : List Row := [
  ⟨0x0, 0x0, 1, .u 1, .ro, 0, 4, 3, .any⟩, -- PORT[m]
  ⟨0x0, 0x1, 1, .u 1, .ro, 0, 4, 0, .any⟩, -- PORT[m].STATE
  ⟨0x0, 0x2, 1, .u 1, .ro, 0, 4, 0, .any⟩, -- PORT[m].OUTSTANDING
  ⟨0x0, 0x3, 1, .ptime, .ro, 0, 4, 0, .any⟩ -- PORT[m].LAST_DRAIN
]
/-- Objects of the REF.SRC, SYNCIN only, block. -/
def refSyncRows : List Row := [
  ⟨0x8, 0x0, 1, .u 1, .ro, 0, 4, 2, .any⟩, -- SYNC
  ⟨0x8, 0x1, 1, .u 1, .ro, 0, 4, 0, .any⟩, -- SYNC.FORMAT
  ⟨0x8, 0x2, 1, .u 2, .ro, 0, 4, 0, .any⟩ -- SYNC.LINES
]
/-- Objects of the REF.SRC, FREQIN only, block. -/
def refFreqRows : List Row := [
  ⟨0x8, 0x0, 1, .u 1, .ro, 0, 4, 0, .any⟩ -- FREQ
]
/-- Objects of the REF.SRC, PTP only, block. -/
def refPtpRows : List Row := [
  ⟨0x8, 0x0, 1, .u 1, .ro, 0, 4, 9, .any⟩, -- PTP
  ⟨0x8, 0x1, 1, .u 1, .rw, 0, 2, 127, .rng 0 127⟩, -- PTP.DOMAIN
  ⟨0x8, 0x2, 1, .u 1, .rw, 0, 2, 0, .rng 0 1⟩, -- PTP.DELAY
  ⟨0x8, 0x3, 1, .u 1, .rw, 0, 2, 0, .rng 0 2⟩, -- PTP.TRANSPORT
  ⟨0x8, 0x4, 1, .u 1, .rw, 0, 2, 3, .rng 2 10⟩, -- PTP.ANN_TIMEOUT
  ⟨0x8, 0x5, 1, .u 1, .ro, 0, 4, 0, .any⟩, -- PTP.PORT_STATE
  ⟨0x8, 0x6, 1, .oct 8, .ro, 0, 4, 0, .any⟩, -- PTP.GM_ID
  ⟨0x8, 0x7, 1, .i 4, .ro, 0, 4, 0, .any⟩, -- PTP.MEAN_DELAY
  ⟨0x8, 0x8, 1, .i 4, .ro, 0, 4, 0, .any⟩, -- PTP.OFFSET_NS
  ⟨0x8, 0x9, 1, .i 1, .ro, 0, 4, 0, .any⟩ -- PTP.SYNC_LOG
]

/-- The index map of R38: kind, base index, stride, instances, objects. Single objects stand under `glob`, with absolute offsets. -/
def blks : List Blk := [
  ⟨.slv, 0x1440, 0x1, 64, slvRows⟩,
  ⟨.ctl, 0x1130, 0x8, 2, ctlRows⟩,
  ⟨.sess, 0x1110, 0x1, 17, sessRows⟩,
  ⟨.pd, 0x1800, 0x1, 56, pdRows⟩,
  ⟨.slot, 0x1C10, 0x1, 4, slotRows⟩,
  ⟨.negb, 0x1C40, 0x1, 64, negbRows⟩,
  ⟨.pin, 0x1E20, 0x1, 32, pinRows⟩,
  ⟨.inp, 0x2000, 0x40, 48, inpRows⟩,
  ⟨.out, 0x3000, 0x40, 48, outRows⟩,
  ⟨.eas, 0x4000, 0x40, 16, easRows⟩,
  ⟨.lay, 0x4400, 0x10, 128, layRows⟩,
  ⟨.enl, 0x5000, 0x20, 32, enlRows⟩,
  ⟨.frc, 0x5800, 0x40, 16, frcRows⟩,
  ⟨.prf, 0x5C00, 0x10, 64, prfRows⟩,
  ⟨.buf, 0x6000, 0x1, 2048, bufRows⟩,
  ⟨.ring, 0x6840, 0x1, 48, ringRows⟩,
  ⟨.dst, 0x7000, 0x1, 1536, dstRows⟩,
  ⟨.ain, 0x7800, 0x10, 48, ainRows⟩,
  ⟨.tone, 0x7C10, 0x1, 16, toneRows⟩,
  ⟨.ref, 0x9000, 0x20, 54, refRows⟩,
  ⟨.sel, 0x9800, 0x20, 2, selRows⟩,
  ⟨.gsyn, 0x9A00, 0x20, 8, gsynRows⟩,
  ⟨.clko, 0x9C20, 0x8, 2, clkoRows⟩,
  ⟨.prio, 0xE100, 0x1, 118, prioRows⟩,
  ⟨.port, 0xE200, 0x1, 118, portRows⟩,
  ⟨.glob, 0, 0x10000, 1, globRows⟩]

end Sys2Proof.Machine
end

