-- ==== Sys2Proof/Machine/State.lean ====
section
/-! DEFINITION. The state of the block: plain data. Every scalar the spec names stands in the register file `reg`, under its
dictionary address (Machine/Keys.lean) or, where it has none, under a number of Machine/Hidden.lean. -/
namespace Sys2Proof.Machine

/-- Why the block could stop. Nothing the spec describes stops it: every error is an answer, an event or a state (R60, R347). -/
inductive Fault where
  /-- Raised by no meaning; the type is kept inhabited so that a later rule can name a stop. Safe: it never occurs. -/
  | stopped
deriving DecidableEq, Repr

/-- Commands without a meaning. -/
inductive Refusal where
  /-- The command has no meaning yet; raised by arms of `exec` only. Safe: the block stops where the hardware goes on. -/
  | notModelled (mnemonic : String)
deriving DecidableEq, Repr

/-- An event as it was raised, before it has its sequence number (R381, R382): time, code, source, arguments, FLAGS, WARM. -/
structure Ev where
  time : Nat
  code : Nat
  src : Nat
  a1 : Nat
  a2 : Nat
  flags : Nat
  warm : Nat
deriving DecidableEq, Repr

/-- A value in the committed stage: object, value, the salvo that committed it and its grant number (R47, R49). -/
structure Com where
  key : Nat
  val : Nat
  salvo : Nat
  seq : Nat
deriving DecidableEq, Repr

/-- A unit (by its bit in UMASK) that owes a development: salvo, grant number and the tick of acceptance (R48, R51). -/
structure Due where
  unit : Nat
  salvo : Nat
  seq : Nat
  at' : Nat
deriving DecidableEq, Repr

/-- A message the part sends: port and the part's own address it leaves from, address and UDP port it goes to, then the header fields of
R65 and the payload bytes. -/
structure Msg where
  port : Nat
  own : Nat
  addr : Nat
  udp : Nat
  gen : Nat
  flags : Nat
  session : Nat
  seq : Nat
  op : Nat
  status : Nat
  payload : List Nat
deriving DecidableEq, Repr

/-- An entry of the replay cache (R77, R78): session record (17 for a HELLO without RESUME, which is kept by its source), source
address and port, SEQ, the answer's datagrams and the tick it was first sent. -/
structure Cached where
  slot : Nat
  addr : Nat
  udp : Nat
  seq : Nat
  ans : List Msg
  at' : Nat
deriving DecidableEq, Repr

/-- A subscription (R79): session record, handle, KIND, MIN_INTERVAL in ms, INDEX, FIRST, LAST, CLASSES, whether its NOTIFY ask for
an acknowledgement, the tick of its last NOTIFY (0: none), the values last seen, and the event entries not yet sent. -/
structure Sub where
  slot : Nat
  handle : Nat
  kind : Nat
  minInt : Nat
  index : Nat
  first : Nat
  last : Nat
  classes : Nat
  ack : Bool
  lastAt : Nat
  seen : List Nat
  evs : List Nat
deriving DecidableEq, Repr

/-- A NOTIFY in a session's queue (R80, R81): session record, sequence, header status, whether it asks for an acknowledgement,
payload, whether it was sent, the tick of the last sending, and how many times it was resent. -/
structure Note where
  slot : Nat
  seq : Nat
  status : Nat
  ack : Bool
  payload : List Nat
  sent : Bool
  at' : Nat
  tries : Nat
deriving DecidableEq, Repr

/-- A completed or cancelled salvo whose NOTIFY on handle 0 is still to be made (R82): session record, salvo, STATE, status. -/
structure Done where
  slot : Nat
  salvo : Nat
  state : Nat
  status : Nat
deriving DecidableEq, Repr

/-- A stretch of constant NCO value of a selector (R103): selector, the candidate it used, the tick it began, whether the selector was
LOCKED, and the raw NCO value. -/
structure NuRun where
  sel : Nat
  k : Nat
  at' : Nat
  locked : Bool
  nco : Nat
deriving DecidableEq, Repr

/-- A burst a target port has granted (R232): the burst, the port, the completion code it will get, and for how many of its beats. -/
structure Flight where
  b : Burst
  target : Nat
  code : Nat
deriving DecidableEq, Repr

/-- The state of the block. -/
structure State where
  /-- Commands waiting, first in, first out. -/
  pending : List Instr
  /-- The register file: (key, value), keys rising, no value equal to its default (R42). -/
  reg : List (Nat × Nat)
  /-- The Latent sets (R45): (key, value), keys rising. -/
  lat : List (Nat × Nat)
  /-- The committed stage (R47). -/
  com : List Com
  /-- Units that owe a development (R48). -/
  due : List Due
  /-- Bytes of the frame store and the scratch memory (R213, R230). -/
  mem : List Host.Cell
  /-- Bytes of the configuration flash that are not erased (R373). -/
  flash : List Host.Cell
  /-- Events of the present tick, in the order they were raised (R381). -/
  raised : List Ev
  /-- Messages sent by the control ports in the present tick. -/
  tx : List Msg
  /-- The replay cache (R77), newest first. -/
  cache : List Cached
  /-- Subscriptions (R79). -/
  subs : List Sub
  /-- Queued notifications (R80). -/
  notes : List Note
  /-- Salvo completions to be notified (R82). -/
  done : List Done
  /-- The transmit queue of the SPI target: whole messages, as bytes (R88). -/
  spiTx : List (List Nat)
  /-- Bytes the SPI target returned in the last transaction (R88). -/
  spiOut : List Nat
  /-- Lists of numbers the spec gives the part (lines, queues, histories), under the numbers of Machine/Hidden.lean. -/
  vecs : List (Nat × List Nat)
  /-- The NCO's history, newest first (R103). -/
  nu : List NuRun
  /-- Bursts granted and not yet closed, oldest first (R232, R234). -/
  bursts : List Flight
  /-- Free values taken so far (log 2). -/
  freeCtr : Nat
deriving DecidableEq, Repr

/-- The block held in reset, before RESET_RELEASE: nothing waits, every object and register holds its default, the stores list
nothing (R42, R366, R367; log 5, 6). -/
def State.reset : State where
  pending := []
  reg := []
  lat := []
  com := []
  due := []
  mem := []
  flash := []
  raised := []
  tx := []
  cache := []
  subs := []
  notes := []
  done := []
  spiTx := []
  spiOut := []
  vecs := []
  nu := []
  bursts := []
  freeCtr := 0

end Sys2Proof.Machine
end

