-- ==== Sys2Proof/Machine/Ops.lean ====
section
/-! DEFINITION. The named operations over the register file, the Latent sets, the stores and the free values. -/
namespace Sys2Proof.Machine

/-! ## Sorted lists of (key, value) -/

/-- The value listed under a key. -/
def alGet : List (Nat × Nat) → Nat → Option Nat
  | [], _ => none
  | (k', v) :: t, k => if k' = k then some v else alGet t k

/-- List a value under a key, keeping the keys rising. -/
def alSet : List (Nat × Nat) → Nat → Nat → List (Nat × Nat)
  | [], k, v => [(k, v)]
  | (k', v') :: t, k, v =>
    if k < k' then (k, v) :: (k', v') :: t else if k' = k then (k, v) :: t else (k', v') :: alSet t k v

/-- Drop a key. -/
def alErase (l : List (Nat × Nat)) (k : Nat) : List (Nat × Nat) := l.filter (fun p => p.1 != k)

/-- The keys rise strictly. -/
def alSorted : List (Nat × Nat) → Bool
  | [] => true
  | [_] => true
  | (a, _) :: (b, v) :: t => decide (a < b) && alSorted ((b, v) :: t)

/-! ## The object tables -/

/-- The block an index lies in (R38). -/
def findBlk (idx : Nat) : Option Blk :=
  blks.find? (fun b => decide (b.base ≤ idx) && decide (idx < b.base + b.stride * b.count))

/-- The object at an offset and sub of a block (R36, R37). -/
def findRow (rows : List Row) (off sub : Nat) : Option Row :=
  rows.find? (fun r => r.off == off && decide (r.sub ≤ sub) && decide (sub < r.sub + r.n))

/-- Type of reference candidate k by its number (R92): 0 SDI, 1 SYNCIN, 2 PTP, 3 FREQIN, 4 WCKIN. -/
def refType (k : Nat) : Nat := if k < 48 then 0 else if k < 50 then 1 else if k < 52 then 2 else if k = 52 then 3 else 4

/-- The master IDs of R230. -/
def bmxMaster (m : Nat) : Bool := decide (m ≤ 0x68) || (decide (0x70 ≤ m) && decide (m ≤ 0x75))

/-- The default of PRIO[m] (R238). -/
def prioDflt (m : Nat) : Nat :=
  if m ≤ 0x68 then 0x8 else if m = 0x70 then 0x44 else if m = 0x71 ∨ m = 0x72 then 0x66666 else if m = 0x74 ∨ m = 0x75 then 0xA else 0

/-- The objects of instance `i` of a block; offset 08 of a reference candidate depends on its type
(R109), QUAD and TXQ exist at the first of four only (R154, R174), BMX objects at the master IDs of R230 only (R238). -/
def rowsOf (b : Blk) (i : Nat) : List Row :=
  match b.kind with
  | .ref => b.rows ++
      (match refType i with
       | 1 => refSyncRows
       | 2 => refPtpRows
       | 3 => refFreqRows
       | _ => [])
  | .inp => if i % 4 = 0 then b.rows else b.rows.filter (fun r => r.off != 0x06)
  | .out => if i % 4 = 0 then b.rows else b.rows.filter (fun r => r.off != 0x08 && r.off != 0x09)
  | .prio => if i = 0x73 then prioRows.map (fun r => { r with acc := .ro, wr := 4 }) else if bmxMaster i then b.rows else []
  | .port => if bmxMaster i then b.rows else []
  | _ => b.rows

/-- Where an address lies: block, instance, offset, sub, object. -/
structure Loc where
  kind : Kind
  i : Nat
  off : Nat
  sub : Nat
  row : Row
deriving DecidableEq, Repr

/-- The object at an address, if the part has one there (R37). -/
def locate (k : Nat) : Option Loc :=
  if 16777216 ≤ k then none else
  match findBlk (k / 256) with
  | none => none
  | some b =>
    let i := (k / 256 - b.base) / b.stride
    let off := (k / 256 - b.base) % b.stride
    match findRow (rowsOf b i) off (k % 256) with
    | none => none
    | some r => some ⟨b.kind, i, off, k % 256, r⟩

/-- `n` values of `w` bits each, the first in the highest place. -/
def packBE (w : Nat) (l : List Nat) : Nat := l.foldl (fun a v => a * 2 ^ w + v) 0

/-- Names of the power domains, as STR(8) (R32, R372). -/
def pdNames : List Nat := [
  0x414f4e0000000000, 0x4d474d545f410000, 0x4d474d545f420000, 0x43544c5f41000000, 0x43544c5f42000000,
  0x524546434c4b0000, 0x53594e4100000000, 0x53594e4200000000, 0x5258513000000000, 0x5258513100000000,
  0x5258513200000000, 0x5258513300000000, 0x5258513400000000, 0x5258513500000000, 0x5258513600000000,
  0x5258513700000000, 0x5258513800000000, 0x5258513900000000, 0x5258513130000000, 0x5258513131000000,
  0x5458513000000000, 0x5458513100000000, 0x5458513200000000, 0x5458513300000000, 0x5458513400000000,
  0x5458513500000000, 0x5458513600000000, 0x5458513700000000, 0x5458513800000000, 0x5458513900000000,
  0x5458513130000000, 0x5458513131000000, 0x5842410000000000, 0x5842420000000000, 0x434c300000000000,
  0x434c310000000000, 0x434c320000000000, 0x434c330000000000, 0x434c340000000000, 0x434c350000000000,
  0x434c360000000000, 0x434c370000000000, 0x434c380000000000, 0x48424d305f473000, 0x48424d305f473100,
  0x48424d305f473200, 0x48424d305f473300, 0x48424d315f473000, 0x48424d315f473100, 0x48424d315f473200,
  0x48424d315f473300, 0x4155445f41000000, 0x4155445f42000000, 0x435354414e440000, 0x5453545249500000,
  0x4750494f00000000]

/-- The functions of a power domain, as FUNCS_MASK (R369). -/
def pdFuncs (i : Nat) : Nat :=
  if i = 0 then 0x7 else if i ≤ 2 then 0x1 else if i ≤ 4 then 0x3 else if i = 5 then 0x1F else if i ≤ 7 then 0xF
  else if i ≤ 31 then 0x1F else if i ≤ 42 then 0x1 else if i ≤ 52 then 0x3 else 0x1

/-- Defaults that follow from the instance or the sub, or that the factory sets; `none` where the table's own default holds. -/
def specialDflt (l : Loc) : Option Nat :=
  match l.kind with
  | .glob =>
    if l.off = 0x1000 ∧ l.sub = 8 then some Config.serial
    else if l.off = 0x1A02 ∧ l.sub = 9 then some 1
    else if l.off = 0x6800 ∧ (l.sub = 0xB ∨ l.sub = 0xC) then some (packBE 8 (List.range 32))
    else none
  | .pd => if l.sub = 1 then pdNames[l.i]? else if l.sub = 5 then some (pdFuncs l.i) else none
  | .prio => some (prioDflt l.i)
  | .sess => if l.i ≠ 16 then none else if l.sub = 1 then some 1 else if l.sub = 3 ∨ l.sub = 4 then some 3 else none
  | .ctl => if l.sub = 3 then some (Config.mac l.i) else none
  | .ref => if l.off = 0 ∧ l.sub = 1 then some (refType l.i) else none
  | .enl =>
    if l.sub = 0 then none
    else if 0x10 ≤ l.off ∧ l.off ≤ 0x13 then hcoefDflt[l.sub - 1]?
    else if 0x14 ≤ l.off ∧ l.off ≤ 0x17 then vcoefDflt[l.sub - 1]? else none
  | .lay =>
    if (l.off = 4 ∨ l.off = 5) ∧ l.sub ≠ 0 then some (packBE 16 ((List.range 64).map (fun i => 64 * (l.sub - 1) + i))) else none
  | .eas => if l.off = 4 ∧ l.sub = 2 then some (l.i / 2) else none
  | .frc => if l.off = 0x20 ∧ l.sub = 2 then some (l.i / 2) else if l.off = 0x20 ∧ l.sub = 3 then some (l.i % 2) else none
  | _ => none

/-- The copy of an object that is on air (R127): what an output, canvas or converter has used since its last switch line. -/
def airKey (k : Nat) : Nat := 1000 * 16777216 + k

/-- The default of an address: what it holds when nothing has been written since reset (R42). The copy on air begins as the object. -/
def dflt (k : Nat) : Nat :=
  match locate (if airKey 0 ≤ k then k - airKey 0 else k) with
  | none => 0
  | some l => (specialDflt l).getD l.row.dflt

/-! ## The register file -/

/-- The value of an object or register. -/
def State.rd (s : State) (k : Nat) : Nat := (alGet s.reg k).getD (dflt k)

/-- Set an object or register; a default is not listed, so that equal register files are equal lists. -/
def State.wr (s : State) (k v : Nat) : State :=
  { s with reg := if v = dflt k then alErase s.reg k else alSet s.reg k v }

/-- The value of an object that is on air. -/
def State.air (s : State) (k : Nat) : Nat := s.rd (airKey k)

/-- Put the developed value of an object on air. -/
def State.publish (s : State) (k : Nat) : State := s.wr (airKey k) (s.rd k)

/-- The register file is in its canonical form. -/
def regWf (r : List (Nat × Nat)) : Bool := alSorted r && r.all (fun p => p.2 != dflt p.1)

/-- Change an object or register by a function. -/
def State.up (s : State) (k : Nat) (f : Nat → Nat) : State := s.wr k (f (s.rd k))

/-- A value enters the Latent sets (R39). -/
def State.latPut (s : State) (k v : Nat) : State := { s with lat := alSet s.lat k v }

/-- Set several. -/
def State.wrs (s : State) (l : List (Nat × Nat)) : State := l.foldl (fun t p => t.wr p.1 p.2) s

/-- Add to a counter that wraps at `m`. -/
def State.inc (s : State) (k n m : Nat) : State := s.up k (fun v => (v + n) % m)

/-- Add to a counter that saturates at `m`. -/
def State.incSat (s : State) (k n m : Nat) : State := s.up k (fun v => min (v + n) m)

/-- Back to the default. -/
def State.clr (s : State) (k : Nat) : State := s.wr k (dflt k)

/-- Bit `i` of an object or register. -/
def State.bit (s : State) (k i : Nat) : Bool := (s.rd k).testBit i

/-- Set bit `i` of an object or register. -/
def State.setBit (s : State) (k i : Nat) (b : Bool) : State :=
  s.up k (fun v => if b then v ||| 2 ^ i else if v.testBit i then v - 2 ^ i else v)

/-- A `w`-bit two's complement number as an integer. -/
def toInt (w v : Nat) : Int := if 2 * v < 2 ^ w then (v : Int) else (v : Int) - (2 ^ w : Nat)

/-- An integer as a `w`-bit two's complement number. -/
def ofInt (w : Nat) (i : Int) : Nat := (i % (2 ^ w : Nat)).toNat

/-- A signed object. -/
def State.rdI (s : State) (w k : Nat) : Int := toInt w (s.rd k)

/-- Set a signed object. -/
def State.wrI (s : State) (w k : Nat) (i : Int) : State := s.wr k (ofInt w i)

/-! ## Lists -/

/-- The list under a number. -/
def vecGet : List (Nat × List Nat) → Nat → List Nat
  | [], _ => []
  | (k', v) :: t, k => if k' = k then v else vecGet t k

/-- Put a list under a number, keeping the numbers rising. -/
def vecSet : List (Nat × List Nat) → Nat → List Nat → List (Nat × List Nat)
  | [], k, v => [(k, v)]
  | (k', v') :: t, k, v =>
    if k < k' then (k, v) :: (k', v') :: t else if k' = k then (k, v) :: t else (k', v') :: vecSet t k v

/-- The list under a number; empty where none stands. -/
def State.vec (s : State) (k : Nat) : List Nat := vecGet s.vecs k

/-- Put a list under a number. -/
def State.setVec (s : State) (k : Nat) (v : List Nat) : State := { s with vecs := vecSet s.vecs k v }

/-! ## Free values -/

/-- The next value nothing fixes (log 2). -/
def State.free (s : State) : Nat := Config.free s.freeCtr

/-- Count a free value as taken. -/
def State.tick1 (s : State) : State := { s with freeCtr := s.freeCtr + 1 }

/-! ## Bytes -/

/-- The bytes of a number, most significant first (R39). -/
def bytesBE : Nat → Nat → List Nat
  | 0, _ => []
  | n + 1, v => (v / 256 ^ n) % 256 :: bytesBE n v

/-- The number some bytes spell, most significant first (R39). -/
def ofBytes (l : List Nat) : Nat := l.foldl (fun a b => a * 256 + b) 0

/-- The number in the `n` bytes from offset `o`. -/
def fld (l : List Nat) (o n : Nat) : Nat := ofBytes ((l.drop o).take n)

/-! ## Stores of bytes -/

/-- The byte listed at an address. -/
def cellGet : List Host.Cell → Nat → Option (BitVec 8)
  | [], _ => none
  | (a', b) :: t, a => if a' = a then some b else cellGet t a

/-- List a byte at an address, keeping the addresses rising. -/
def cellSet : List Host.Cell → Nat → BitVec 8 → List Host.Cell
  | [], a, b => [(a, b)]
  | (a', b') :: t, a, b =>
    if a < a' then (a, b) :: (a', b') :: t else if a' = a then (a, b) :: t else (a', b') :: cellSet t a b

/-- Drop an address. -/
def cellErase (l : List Host.Cell) (a : Nat) : List Host.Cell := l.filter (fun p => p.1 != a)

/-- The addresses rise strictly. -/
def cellSorted : List Host.Cell → Bool
  | [] => true
  | [_] => true
  | (a, _) :: (b, v) :: t => decide (a < b) && cellSorted ((b, v) :: t)

/-- What a byte of the frame store that nothing has written reads as (log 6). -/
def memBlank : BitVec 8 := 0

/-- What an erased byte of the flash reads as (R376). -/
def flashBlank : BitVec 8 := 0xFF

/-- A store is in its canonical form: addresses rising, no blank byte listed. -/
def cellsWf (blank : BitVec 8) (l : List Host.Cell) : Bool := cellSorted l && l.all (fun p => p.2 != blank)

/-- The canonical form of the frame store. -/
def Memory.wf (l : List Host.Cell) : Bool := cellsWf memBlank l

/-- Read a byte. -/
def cellRd (blank : BitVec 8) (l : List Host.Cell) (a : Nat) : BitVec 8 := (cellGet l a).getD blank

/-- Write a byte; a blank one is not listed. -/
def cellWr (blank : BitVec 8) (l : List Host.Cell) (a : Nat) (b : BitVec 8) : List Host.Cell :=
  if b = blank then cellErase l a else cellSet l a b

/-- Read a byte of the frame store. -/
def State.rdMem (s : State) (a : Nat) : Nat := (cellRd memBlank s.mem a).toNat

/-- Write a byte of the frame store. -/
def State.wrMem (s : State) (a v : Nat) : State := { s with mem := cellWr memBlank s.mem a (BitVec.ofNat 8 v) }

/-- Read `n` bytes of the frame store. -/
def State.rdMems (s : State) (a : Nat) : Nat → List Nat
  | 0 => []
  | n + 1 => s.rdMem a :: s.rdMems (a + 1) n

/-- Write bytes to the frame store from an address up. -/
def State.wrMems (s : State) (a : Nat) : List Nat → State
  | [] => s
  | b :: t => (s.wrMem a b).wrMems (a + 1) t

/-- Read a byte of the flash. -/
def State.rdFlash (s : State) (a : Nat) : Nat := (cellRd flashBlank s.flash a).toNat

/-- Put a byte into the flash. -/
def State.wrFlash (s : State) (a v : Nat) : State := { s with flash := cellWr flashBlank s.flash a (BitVec.ofNat 8 v) }

/-- Read `n` bytes of the flash. -/
def State.rdFlashes (s : State) (a : Nat) : Nat → List Nat
  | 0 => []
  | n + 1 => s.rdFlash a :: s.rdFlashes (a + 1) n

/-! ## Time -/

/-- 1 us ticks since the power came on. -/
def State.now (s : State) : Nat := s.rd H.now

/-- The time of day in ns (R106, R107). -/
def State.tod (s : State) : Nat := s.rd (H.tsNs (s.rd K.TOD_SEL))

/-- Nanoseconds as a PTIME (R39). -/
def ptime (ns : Nat) : Nat := ns / 1000000000 * 2 ^ 32 + ns % 1000000000

/-- A PTIME as nanoseconds. -/
def ofPtime (p : Nat) : Nat := p / 2 ^ 32 * 1000000000 + p % 2 ^ 32

/-- The time of day as a PTIME. -/
def State.todP (s : State) : Nat := ptime s.tod

/-- Add to a running statistics counter, which saturates, as a count of the frame in progress (R58). -/
def State.countFrame (s : State) (k n : Nat) : State := s.incSat k n 0xFFFFFFFF

/-- What a running counter held before the present tick (R379). -/
def State.runWas (s : State) (k : Nat) : Nat :=
  if s.rd (H.cntAt k) = s.now + 1 then s.rd (H.cntWas k) else s.rd k

/-- Count an occurrence of the present tick: a latch of the same tick leaves it in the new RUN (R58, R379). -/
def State.count (s : State) (k n : Nat) : State :=
  ((s.wr (H.cntWas k) (s.runWas k)).wr (H.cntAt k) (s.now + 1)).countFrame k n

/-- TOTAL of a block's statistics, members 1 to `last'`, is zero (R58). -/
def State.totalClear (s : State) (total : Nat → Nat) (last' : Nat) : State :=
  (List.range last').foldl (fun t i => t.wr (total (i + 1)) 0) s

/-- Latch the statistics of a block (R59): RUN as it stood before this tick into LAST, TOTAL grows by it, RUN restarts for `frame` with what
this tick has counted; members 2 to `last'`. A clear of the same tick acts after the latch (R379). The three functions give the addresses of
RUN, LAST and TOTAL members. -/
def State.latch (s : State) (run last total : Nat → Nat) (last' frame : Nat) : State :=
  let s := ((s.wr (last 1) (s.rd (run 1))).inc (total 1) 1 (2 ^ 64)).wr (run 1) frame
  let s := (List.range (last' - 1)).foldl (fun t i =>
    let m := i + 2
    let v := t.runWas (run m)
    (((t.wr (last m) v).inc (total m) v (2 ^ 64)).wr (run m) (t.rd (run m) - v)).wr (H.cntAt (run m)) 0) s
  if s.rd (H.clrAt (total 1)) = s.now + 1 then s.totalClear total last' else s

/-- `s.upto n f` folds `f i` over `i = 0 … n - 1`, in rising order. -/
def State.upto (s : State) (n : Nat) (f : Nat → State → State) : State := (List.range n).foldl (fun t i => f i t) s

end Sys2Proof.Machine
end

