-- ==== Sys2Proof/Machine/Hmac.lean ====
section
/-! DEFINITION. HMAC-SHA-256, the proof of knowing a key that AUTH carries (R75), and the CRC of the SPI framing (R88). -/
namespace Sys2Proof.Machine

/-- Rotate a 32-bit word right. -/
def rotr (x n : Nat) : Nat := x / 2 ^ n + x % 2 ^ n * 2 ^ (32 - n)

/-- The first primes: those below 312, of which there are 64. -/
def primes64 : List Nat := (List.range 312).filter (fun n => decide (2 ≤ n) && (List.range 17).all (fun d => decide (d + 2 ≥ n) || n % (d + 2) != 0))

/-- The first 32 bits of the fraction of the `k`-th root of `n`. -/
def rootBits (k n : Nat) : Nat :=
  (List.range 37).foldl (fun r i => let g := r + 2 ^ (36 - i); if g ^ k ≤ n * 2 ^ (32 * k) then g else r) 0 % 2 ^ 32

/-- The 64 round constants of SHA-256, from the cube roots of the primes. -/
def shaK : List Nat := primes64.map (rootBits 3)

/-- The initial hash value of SHA-256, from the square roots of the first eight primes. -/
def shaInit : List Nat := (primes64.take 8).map (rootBits 2)

/-- The message schedule of one block: the 16 words, newest first, are extended by `n` more. -/
def shaSchedule : Nat → List Nat → List Nat
  | 0, w => w
  | n + 1, w =>
    let a := w.getD 14 0
    let b := w.getD 1 0
    let s0 := rotr a 7 ^^^ rotr a 18 ^^^ a / 8
    let s1 := rotr b 17 ^^^ rotr b 19 ^^^ b / 1024
    shaSchedule n ((w.getD 15 0 + s0 + w.getD 6 0 + s1) % 2 ^ 32 :: w)

/-- One round. -/
def shaRound (v : List Nat) (kw : Nat × Nat) : List Nat :=
  match v with
  | [a, b, c, d, e, f, g, h] =>
    let t1 := h + (rotr e 6 ^^^ rotr e 11 ^^^ rotr e 25) + ((e &&& f) ^^^ ((2 ^ 32 - 1 - e) &&& g)) + kw.1 + kw.2
    let t2 := (rotr a 2 ^^^ rotr a 13 ^^^ rotr a 22) + ((a &&& b) ^^^ (a &&& c) ^^^ (b &&& c))
    [(t1 + t2) % 2 ^ 32, a, b, c, (d + t1) % 2 ^ 32, e, f, g]
  | _ => v

/-- One block of 64 bytes. -/
def shaBlock (h b : List Nat) : List Nat :=
  let w := (shaSchedule 48 ((List.range 16).map (fun i => fld b (4 * i) 4)).reverse).reverse
  ((shaK.zip w).foldl shaRound h).zipWith (fun x y => (x + y) % 2 ^ 32) h

/-- SHA-256 of some bytes, as bytes. -/
def sha256 (m : List Nat) : List Nat :=
  let n := m.length
  let p := m ++ [0x80] ++ List.replicate ((119 - n % 64) % 64) 0 ++ bytesBE 8 (8 * n)
  ((List.range (p.length / 64)).foldl (fun h i => shaBlock h ((p.drop (64 * i)).take 64)) shaInit).flatMap (bytesBE 4)

/-- HMAC-SHA-256 under a key of at most 64 bytes. -/
def hmac (key m : List Nat) : List Nat :=
  let k := key ++ List.replicate (64 - key.length) 0
  sha256 (k.map (· ^^^ 0x5C) ++ sha256 (k.map (· ^^^ 0x36) ++ m))

/-- CRC-16 with polynomial 0x1021 and initial value 0xFFFF, neither reflected nor inverted (R88). -/
def crc16 (l : List Nat) : Nat :=
  l.foldl (fun c b => (List.range 8).foldl (fun c _ => if c.testBit 15 then (2 * c % 65536) ^^^ 0x1021 else 2 * c) (c ^^^ 256 * b)) 0xFFFF

end Sys2Proof.Machine
end

