-- ==== Sys2Proof/Machine/Flags.lean ====
section
/-! DEFINITION. The block's flags: raising events (R381 to R383) and the interrupt flags of the outputs (R128). -/
namespace Sys2Proof.Machine

/-- Some management pair is active (R35). -/
def State.mgmtOn (s : State) : Bool := s.rd H.mgmtOn == 1

/-- FLAGS of an event as raised now: bit 0 the time of day's selector is LOCKED, bit 1 a management pair is active, bit 2 MGMT_B is
active (R382). -/
def State.evFlags (s : State) : Nat :=
  (if s.rd (K.SEL_STATE (s.rd K.TOD_SEL)) = 2 then 1 else 0) + (if s.mgmtOn then 2 else 0)
    + (if s.mgmtOn && s.rd K.MGMT_ACTIVE == 1 then 4 else 0)

/-- Raise an event: code, source, arguments; it is numbered and recorded at the end of the tick (R381). -/
def State.raise (s : State) (code src a1 a2 : Nat) : State :=
  { s with raised := s.raised ++ [⟨s.todP, code, src, a1 % 2 ^ 32, a2 % 2 ^ 32, s.evFlags, s.rd H.warm % 256⟩] }

/-- Count an occurrence of an event limited to one a second; raise it with the count when a second has passed since the last one
(log 10). `id` tells the limited sources apart; the event's arguments follow from the count. -/
def State.raiseLim (s : State) (id code src : Nat) (args : Nat → Nat × Nat) : State :=
  let s := s.inc (H.limCnt id) 1 (2 ^ 32)
  let last := s.rd (H.limLast id)
  if last = 0 ∨ last + 999999 ≤ s.now then
    let a := args (s.rd (H.limCnt id))
    ((s.raise code src a.1 a.2).wr (H.limCnt id) 0).wr (H.limLast id) (s.now + 1)
  else s

/-- Saturate an integer to 32 bits (R121). -/
def satI32 (i : Int) : Nat := ofInt 32 (max (-2147483648) (min 2147483647 i))

/-- Set a PENDING bit of an output's fall-back events (R128). -/
def State.irqSet (s : State) (n b : Nat) : State := (s.setBit (K.OUT_IRQ_PENDING n) b true).wr (H.irqAt (4 * n + b)) (s.now + 1)

/-- OUT[n] holds its IRQ_N pin low: an enabled bit is pending (R128). -/
def State.irqLow (s : State) (n : Nat) : Bool := (s.rd (K.OUT_IRQ_PENDING n) &&& s.rd (K.OUT_IRQ_MASK n)) != 0

/-- IRQSUM.PINp: the outputs that hold IRQ_N[p] low (R128). -/
def State.irqSum (s : State) (p : Nat) : Nat :=
  (List.range 48).foldl (fun a n => if s.irqLow n && s.rd (K.OUT_IRQ_PIN n) == p then a + 2 ^ n else a) 0

end Sys2Proof.Machine
end

