-- ==== Sys2Proof/Machine/Formats.lean ====
section
/-! DEFINITION. Frame rates (R6, R114), formats (R133, R134, R411) and the arithmetic the chapters share (R13). -/
namespace Sys2Proof.Machine

/-! ## Frame rates -/

/-- Numerator of the rate of family rate code r (R114). -/
def rateNum (r : Nat) : Nat :=
  match r with
  | 0 => 24000 | 1 => 24 | 2 => 25 | 3 => 30000 | 4 => 30 | 5 => 48000 | 6 => 48 | 7 => 50 | 8 => 60000 | 9 => 60 | 10 => 100
  | 11 => 120000 | 12 => 120 | _ => 1

/-- The rate of a code is of the 1/1.001 class (R6, R114). -/
def rateFrac (r : Nat) : Bool := r == 0 || r == 3 || r == 5 || r == 8 || r == 11

/-- Denominator of the rate of a code (R6). -/
def rateDen (r : Nat) : Nat := if rateFrac r then 1001 else 1

/-- Family clock cycles per frame of a rate code (R114). -/
def rateCycles (r : Nat) : Nat :=
  match r with
  | 0 => 6187500 | 1 => 6187500 | 2 => 5940000 | 3 => 4950000 | 4 => 4950000 | 5 => 3093750 | 6 => 3093750 | 7 => 2970000
  | 8 => 2475000 | 9 => 2475000 | 10 => 1485000 | 11 => 1237500 | 12 => 1237500 | _ => 1

/-- Frames in 1,001,000 seconds, to compare rates across classes. -/
def rateScaled (r : Nat) : Nat := rateNum r * 1001000 / rateDen r

/-! ## Formats -/

/-- What the tables of R123, R134 and R411 say of a format: rate code, active width and height, samples and lines per frame,
interlaced, switch line, and twice the samples per family clock cycle (0: 525i and 625i, which count 13.5 MHz samples). -/
structure Fmt where
  rate : Nat
  w : Nat
  h : Nat
  spl : Nat
  lines : Nat
  interlaced : Bool
  sw : Nat
  spc2 : Nat
deriving DecidableEq, Repr

/-- The formats of R134 by code. -/
def fmt (c : Nat) : Option Fmt :=
  match c with
  | 1 => some ⟨3, 720, 486, 858, 525, true, 10, 0⟩
  | 2 => some ⟨2, 720, 576, 864, 625, true, 6, 0⟩
  | 3 => some ⟨7, 1280, 720, 1980, 750, false, 7, 1⟩
  | 4 => some ⟨8, 1280, 720, 1650, 750, false, 7, 1⟩
  | 5 => some ⟨9, 1280, 720, 1650, 750, false, 7, 1⟩
  | 6 => some ⟨2, 1920, 1080, 2640, 1125, true, 7, 1⟩
  | 7 => some ⟨3, 1920, 1080, 2200, 1125, true, 7, 1⟩
  | 8 => some ⟨4, 1920, 1080, 2200, 1125, true, 7, 1⟩
  | 9 => some ⟨0, 1920, 1080, 2750, 1125, false, 7, 1⟩
  | 10 => some ⟨1, 1920, 1080, 2750, 1125, false, 7, 1⟩
  | 11 => some ⟨2, 1920, 1080, 2640, 1125, false, 7, 1⟩
  | 12 => some ⟨3, 1920, 1080, 2200, 1125, false, 7, 1⟩
  | 13 => some ⟨4, 1920, 1080, 2200, 1125, false, 7, 1⟩
  | 14 => some ⟨7, 1920, 1080, 2640, 1125, false, 7, 2⟩
  | 15 => some ⟨8, 1920, 1080, 2200, 1125, false, 7, 2⟩
  | 16 => some ⟨9, 1920, 1080, 2200, 1125, false, 7, 2⟩
  | 17 => some ⟨10, 1920, 1080, 2640, 1125, false, 7, 4⟩
  | 18 => some ⟨11, 1920, 1080, 2200, 1125, false, 7, 4⟩
  | 19 => some ⟨12, 1920, 1080, 2200, 1125, false, 7, 4⟩
  | 20 => some ⟨0, 3840, 2160, 5500, 2250, false, 7, 4⟩
  | 21 => some ⟨1, 3840, 2160, 5500, 2250, false, 7, 4⟩
  | 22 => some ⟨2, 3840, 2160, 5280, 2250, false, 7, 4⟩
  | 23 => some ⟨3, 3840, 2160, 4400, 2250, false, 7, 4⟩
  | 24 => some ⟨4, 3840, 2160, 4400, 2250, false, 7, 4⟩
  | 25 => some ⟨7, 3840, 2160, 5280, 2250, false, 7, 8⟩
  | 26 => some ⟨8, 3840, 2160, 4400, 2250, false, 7, 8⟩
  | 27 => some ⟨9, 3840, 2160, 4400, 2250, false, 7, 8⟩
  | 28 => some ⟨0, 7680, 4320, 5500, 2250, false, 7, 4⟩
  | 29 => some ⟨1, 7680, 4320, 5500, 2250, false, 7, 4⟩
  | 30 => some ⟨2, 7680, 4320, 5280, 2250, false, 7, 4⟩
  | 31 => some ⟨3, 7680, 4320, 4400, 2250, false, 7, 4⟩
  | 32 => some ⟨4, 7680, 4320, 4400, 2250, false, 7, 4⟩
  | 33 => some ⟨7, 7680, 4320, 5280, 2250, false, 7, 8⟩
  | 34 => some ⟨8, 7680, 4320, 4400, 2250, false, 7, 8⟩
  | 35 => some ⟨9, 7680, 4320, 4400, 2250, false, 7, 8⟩
  | _ => none

/-- A 4320p format, carried on four ports (R17, R18). -/
def fmtQuad (c : Nat) : Bool := decide (28 ≤ c) && decide (c ≤ 35)

/-- First and last active line of each field (R411); the lines of 2160p are those of its standard (log 12). -/
def activeLines (c : Nat) : List (Nat × Nat) :=
  match fmt c with
  | none => []
  | some f =>
    if c = 1 then [(21, 263), (283, 525)] else if c = 2 then [(23, 310), (336, 623)]
    else if f.h = 720 then [(26, 745)] else if f.interlaced then [(21, 560), (584, 1123)]
    else if f.h = 1080 then [(42, 1121)] else [(83, 2242)]

/-- The row of the picture a line carries, fields interleaved in picture order (R411, R218); `none` outside the active lines. -/
def lineRow (c line : Nat) : Option Nat :=
  match activeLines c with
  | [(a, b)] => if a ≤ line ∧ line ≤ b then some (line - a) else none
  | [(a, b), (a2, b2)] =>
    -- 525i sends its second field's first line above the first field's (ST 125); the others start with field 1
    let o := if c = 1 then 1 else 0
    if a ≤ line ∧ line ≤ b then some (2 * (line - a) + o)
    else if a2 ≤ line ∧ line ≤ b2 then some (2 * (line - a2) + (1 - o)) else none
  | _ => none

/-- A frame period of rate code r in ns, rounded to the nearest (R6). -/
def periodNs (r : Nat) : Nat := (rateDen r * 1000000000 + rateNum r / 2) / rateNum r

/-- A line period of a format in ns, rounded up. -/
def lineNs (c : Nat) : Nat :=
  match fmt c with
  | none => 0
  | some f => (rateDen f.rate * 1000000000 + rateNum f.rate * f.lines - 1) / (rateNum f.rate * f.lines)

/-- Picoseconds per line of a format, exact to a picosecond. -/
def linePs (c : Nat) : Nat :=
  match fmt c with
  | none => 0
  | some f => rateDen f.rate * 1000000000000 / (rateNum f.rate * f.lines)

/-! ## Arithmetic -/

/-- The integer nearest to `a / b`, halves upward (R13). -/
def divRound (a b : Nat) : Nat := (2 * a + b) / (2 * b)

/-- The integer nearest to `a / b`, halves upward, signed. -/
def divRoundI (a b : Int) : Int := (2 * a + b) / (2 * b)

/-- `a / b` rounded up. -/
def ceilDiv (a b : Nat) : Nat := (a + b - 1) / b

/-- Square root, rounded down, by the bits below `2 ^ b`, from the highest. -/
def isqrtAux (n : Nat) : Nat → Nat → Nat
  | 0, acc => acc
  | b + 1, acc => isqrtAux n b (if (acc + 2 ^ b) * (acc + 2 ^ b) ≤ n then acc + 2 ^ b else acc)

/-- Square root of a number below 2^128, rounded down. -/
def isqrt (n : Nat) : Nat := isqrtAux n 64 0

/-- Clip an integer to a range of naturals. -/
def clipI (lo hi : Nat) (i : Int) : Nat := if i < lo then lo else if (hi : Int) < i then hi else i.toNat

/-- Exchange of a 64-bit two's complement register. -/
def State.rd64 (s : State) (k : Nat) : Int := s.rdI 64 k

/-- Set a 64-bit two's complement register. -/
def State.wr64 (s : State) (k : Nat) (i : Int) : State := s.wrI 64 k i

/-- Twice the family clock cycle in units of 1/297 ns: 1/148.5 MHz, times 1.001 in the fractional class (R113). -/
def cycle297 (r : Nat) : Nat := if rateFrac r then 2002 else 2000

/-- The offset of a receiver's switch line from its family's instant, in ns. -/
def offsetNs (off : Int) (r : Nat) : Int := divRoundI (off * cycle297 r) 297

/-- N of R131 in luma samples for a step of `d` ns that moves the boundary earlier. -/
def adjustSamples (c : Nat) (d : Int) : Int :=
  match fmt c with
  | none => 0
  | some f =>
    if f.spc2 = 0 then divRoundI (-d * 27) 2000
    else
      let cycles := if rateFrac f.rate then divRoundI (-d * 148500) 1001000 else divRoundI (-d * 1485) 10000
      if f.spc2 = 1 then divRoundI cycles 2 else cycles * (f.spc2 / 2 : Nat)

end Sys2Proof.Machine
end

