-- ==== Sys2Proof/Machine/Clocks.lean ====
section
/-! DEFINITION. References, selectors, timescales and genlock synthesizers (spec/04, R91 to R121). -/
namespace Sys2Proof.Machine

/-- PD[i] is READY (R33, R369). -/
def State.pdReady (s : State) (i : Nat) : Bool := s.rd (K.PD_STATE i) == 3

/-- Function `b` of domain i is READY, and the domain with it: what lies behind it is usable (R33, R369). -/
def State.funcReady (s : State) (i b : Nat) : Bool := s.pdReady i && (s.rd (K.PD_FUNCS i)).testBit b

/-- Domain i and all its functions are READY (R33, R377). -/
def State.pdUsable (s : State) (i : Nat) : Bool := s.pdReady i && s.rd (K.PD_FUNCS i) == s.rd (K.PD_FUNCS_MASK i)

/-- The power domain of candidate k (R93): PD.RXQq, PD.CTL_A or PD.CTL_B, PD.REFCLK. -/
def refPd (k : Nat) : Nat := if k < 48 then 8 + k / 4 else if k = 50 then 3 else if k = 51 then 4 else 5

/-- Block index of REF.SRC[k], the source of its events (R121). -/
def refIdx (k : Nat) : Nat := 0x9000 + 0x20 * k
/-- Block index of REF.SEL[j]. -/
def selIdx (j : Nat) : Nat := 0x9800 + 0x20 * j
/-- Block index of GSYN[g]. -/
def gsynIdx (g : Nat) : Nat := 0x9A00 + 0x20 * g

/-! ## Candidates (R92 to R98) -/

/-- Move a candidate to another state, raising REF_STATE (R96). -/
def State.refMove (s : State) (k new : Nat) : State :=
  let old := s.rd (K.REF_STATE k)
  if old = new then s else
  let s : State := if old = 2 then s.wr (H.refLeft k) s.now else s
  let s : State := if new = 2 then s.wr (H.refQual k) 1 else s
  (s.wr (K.REF_STATE k) new).raise 0x1001 (refIdx k) k (old * 256 + new)

/-- The loss period of a candidate in ticks, rounded up (R92): 3 line periods, 3 sync intervals, 4 input periods or 4 periods. -/
def State.lossTicks (s : State) (k : Nat) : Nat :=
  match refType k with
  | 1 => ceilDiv (3000000 * s.rd (K.REF_NOM_DEN k)) (s.rd (K.REF_NOM_NUM k))
  | 2 =>
    let l := toInt 8 (s.rd (K.REF_PTP_SYNC_LOG k))
    if l < 0 then ceilDiv 3000000 (2 ^ (-l).toNat) else 3000000 * 2 ^ l.toNat
  | 3 => if s.rd (K.REF_FREQ k) = 1 then 4 else 1
  | 4 => 84
  | _ => 0

/-- Restart the loss period of a candidate. -/
def State.lossRestart (s : State) (k : Nat) : State := s.wr (H.refLoss k) (s.now + s.lossTicks k)

/-- Start the WTR timer: max(QUAL_TIME, WTR), with its event (R96). -/
def State.wtrStart (s : State) (k : Nat) : State :=
  let t := max (s.rd (K.REF_QUAL_TIME k)) (s.rd (K.REF_WTR k))
  ((s.refMove k 3).wr (H.refTimer k) (s.now + t * 1000000)).raise 0x1004 (refIdx k) k t

/-- A candidate is within its limits: |OFFSET| at most HARD, |DRIFT| at most DRIFT_LIMIT (R96). -/
def State.within (s : State) (k : Nat) : Bool :=
  decide ((s.rdI 32 (K.REF_OFFSET k)).natAbs ≤ s.rd (K.REF_HARD k))
    && decide ((s.rdI 32 (K.REF_DRIFT k)).natAbs ≤ s.rd (K.REF_DRIFT_LIMIT k))

/-- Check a candidate's limits: out of them it becomes DISQUALIFIED; a DISQUALIFIED one within them again waits to restore (R96). -/
def State.limitCheck (s : State) (k : Nat) : State :=
  let st := s.rd (K.REF_STATE k)
  if st = 0 then s
  else if s.within k then (if st = 4 then s.wtrStart k else s)
  else if st = 4 then s
  else
    let why := if (s.rdI 32 (K.REF_OFFSET k)).natAbs ≤ s.rd (K.REF_HARD k) then 2 else 1
    (s.refMove k 4).raise 0x1003 (refIdx k) k why

/-- The soft limit of a selector's active candidate: STATUS bit 1 and REF_SOFT on each rise (R97). -/
def State.softCheck (s : State) (j : Nat) : State :=
  let k := s.rd (K.SEL_ACTIVE j)
  if k = 255 then s.setBit (K.SEL_STATUS j) 1 false
  else if s.rd (K.REF_SOFT k) < (s.rdI 32 (K.REF_OFFSET k)).natAbs then
    if s.bit (K.SEL_STATUS j) 1 then s
    else (s.setBit (K.SEL_STATUS j) 1 true).raise 0x1002 (refIdx k) k (s.rd (K.REF_OFFSET k))
  else s.setBit (K.SEL_STATUS j) 1 false

/-- Loss of signal: the candidate is ABSENT and reports nothing (R92, R94, R96). -/
def State.refLose (s : State) (k : Nat) : State :=
  if s.rd (K.REF_STATE k) = 0 then s else
  let s := s.refMove k 0
  let s := s.wrs [(K.REF_NOM_NUM k, 0), (K.REF_NOM_DEN k, 1), (K.REF_OFFSET k, 0), (K.REF_DRIFT k, 0), (H.refLoss k, 0)]
  let s : State := if refType k = 1 then s.wrs [(K.REF_SYNC_FORMAT k, 0), (K.REF_SYNC_LINES k, 0)] else s
  let s : State := if refType k = 3 then s.wr (K.REF_FREQ k) 0 else s
  (s.setVec (H.refHist k) []).upto 2 (fun j t => if t.rd (K.SEL_ACTIVE j) = k then t.softCheck j else t)

/-- Signal detected of a candidate that is ABSENT: its history starts empty, its loss period and its QUAL_TIME or WTR timer run (R92, R94,
R96). -/
def State.refFound (s : State) (k : Nat) : State :=
  let s := (s.setVec (H.refHist k) []).lossRestart k
  if s.rd (H.refQual k) = 0 then (s.refMove k 1).wr (H.refTimer k) (s.now + s.rd (K.REF_QUAL_TIME k) * 1000000)
  else s.wtrStart k

/-- REF_SIGNAL_DETECTED: candidate k is recognised (R92, R93, R96). `code` is the SYNC.FORMAT or FREQ code, `lines` the lines per
frame, `num / den` the nominal rate of its phase events. Of a candidate that is present, another format or rate is a loss of signal and
a new detection. -/
def execRefSignalDetected (k : Fin 54) (code lines num den : Nat) (s : State) : Host.Outcome State Fault Refusal :=
  let k := k.val
  let known : Bool :=
    match refType k with
    | 0 => s.rd (K.IN_STAT_STATE k) == 4 && decide (1 ≤ s.rd (K.IN_STAT_FORMAT k)) && decide (s.rd (K.IN_STAT_FORMAT k) ≤ 35)
    | 1 => decide (1 ≤ code) && decide (code ≤ 5) && decide (0 < num)
    | 2 => s.rd (K.REF_PTP_PORT_STATE k) == 3
    | 3 => decide (1 ≤ code) && decide (code ≤ 3)
    | _ => true
  if !s.pdReady (refPd k) ∨ !known then .next s else
  let what : List (Nat × Nat) :=
    match refType k with
    | 1 => [(K.REF_NOM_NUM k, num), (K.REF_NOM_DEN k, den), (K.REF_SYNC_FORMAT k, code), (K.REF_SYNC_LINES k, lines)]
    | 3 => [(K.REF_NOM_NUM k, 1000000), (K.REF_NOM_DEN k, 1), (K.REF_FREQ k, code)]
    | 4 => [(K.REF_NOM_NUM k, 48000), (K.REF_NOM_DEN k, 1)]
    | 2 => [(K.REF_NOM_NUM k, 2 ^ (-(toInt 8 (s.rd (K.REF_PTP_SYNC_LOG k)))).toNat), (K.REF_NOM_DEN k, 1)]
    | _ =>
      match fmt (s.rd (K.IN_STAT_FORMAT k)) with
      | some f => [(K.REF_NOM_NUM k, rateNum f.rate * f.lines), (K.REF_NOM_DEN k, rateDen f.rate)]
      | none => []
  if s.rd (K.REF_STATE k) ≠ 0 ∧ what.all (fun p => s.rd p.1 == p.2) then .next s
  else .next (((s.refLose k).wrs what).refFound k)

/-- A command of the present tick that waits behind the one being run is of some kind: within a tick arrivals are evaluated before expiries
(R98, log 67). -/
def State.arrives (s : State) (p : Instr → Bool) : Bool := s.pending.any p

/-- An edge, pulse or Sync message of candidate k. -/
def phaseOf (k : Nat) : Instr → Bool
  | .refPhaseEvent c _ => c.val == k
  | .ptpSync p _ _ _ => 50 + p.val == k
  | _ => false

/-- REF_LOSS_OF_SIGNAL: the loss period of candidate k has expired with no phase event, or the input of an SDI candidate is no longer
VALID (R92, R96). -/
def execRefLossOfSignal (k : Fin 54) (s : State) : Host.Outcome State Fault Refusal :=
  let k := k.val
  let gone : Bool :=
    if k < 48 then s.rd (K.IN_STAT_STATE k) != 4
    else if refType k = 2 then s.rd (K.REF_PTP_PORT_STATE k) != 3 || (decide (s.rd (H.refLoss k) ≤ s.now) && !s.arrives (phaseOf k))
    else decide (s.rd (H.refLoss k) ≤ s.now) && !s.arrives (phaseOf k)
  .next (if gone then s.refLose k else s)

/-- Least-squares slope of 10 readings a second apart, newest first, rounded to the nearest (R94, log 13). -/
def slope10 (l : List Int) : Int :=
  divRoundI ((l.zip (List.range 10)).foldl (fun a p => a + p.1 * (9 - 2 * (p.2 : Int))) 0) 165

/-- The measurement of one present candidate: OFFSET, its history, DRIFT, and its limits (R94, R96). -/
def State.measure (s : State) (k : Nat) (off : Int) : State :=
  if s.rd (K.REF_STATE k) = 0 then s else
  let h := (ofInt 32 off :: s.vec (H.refHist k)).take 10
  let s := (s.wrI 32 (K.REF_OFFSET k) off).setVec (H.refHist k) h
  let s : State := if h.length = 10 then s.wrI 32 (K.REF_DRIFT k) (slope10 (h.map (toInt 32))) else s.wr (K.REF_DRIFT k) 0
  s.limitCheck k

/-- A measurement that takes candidate k out of its limits. -/
def State.breaks (s : State) (k : Nat) : Instr → Bool
  | .refMeasurement offs => (match offs[k]? with | some o => !(s.measure k o).within k | none => false)
  | _ => false

/-- The timer of a candidate has expired with the candidate within limits, by the measurements of this tick too (R96, R98). -/
def State.timerDone (s : State) (k st : Nat) : State :=
  if s.rd (K.REF_STATE k) = st ∧ s.rd (H.refTimer k) ≤ s.now ∧ s.within k ∧ !s.arrives (s.breaks k) then s.refMove k 2 else s

/-- QUAL_TIME_EXPIRY: QUALIFYING becomes QUALIFIED (R96). -/
def execQualTimeExpiry (k : Fin 54) (s : State) : Host.Outcome State Fault Refusal := .next (s.timerDone k.val 1)

/-- WTR_EXPIRY: WTR becomes QUALIFIED (R96). -/
def execWtrExpiry (k : Fin 54) (s : State) : Host.Outcome State Fault Refusal := .next (s.timerDone k.val 3)

/-- REF_MEASUREMENT: the measurements of one second, one offset in ppb for each candidate in turn (R94, R96, R97). -/
def execRefMeasurement (offs : List Int) (s : State) : Host.Outcome State Fault Refusal :=
  let s := s.upto 54 (fun k t => match offs[k]? with | some o => t.measure k o | none => t)
  .next ((s.softCheck 0).softCheck 1)

/-! ## Families (R106, R110 to R119) -/

/-- One piece of a frequency profile (R112, R117): duration in us, first and last offset in ppb. -/
abbrev Piece := Nat × Int × Int

/-- The pieces a list of numbers holds. -/
def pieces : List Nat → List Piece
  | d :: a :: b :: t => (d, toInt 64 a, toInt 64 b) :: pieces t
  | _ => []

/-- Pieces as a list of numbers. -/
def unpieces (l : List Piece) : List Nat := l.flatMap (fun p => [p.1, ofInt 64 p.2.1, ofInt 64 p.2.2])

/-- Offset after `dt` us of a profile, and twice its integral in ppb us; `f` is the offset it starts from. -/
def profAt : List Piece → Nat → Int → Int × Int
  | [], dt, f => (f, 2 * f * dt)
  | (d, a, b) :: t, dt, _ =>
    if d ≤ dt then
      let r := profAt t (dt - d) b
      (r.1, (a + b) * d + r.2)
    else
      let f := a + (b - a) * dt / d
      (f, (a + f) * dt)

/-- Duration of a profile in us. -/
def profDur (l : List Piece) : Nat := l.foldl (fun a p => a + p.1) 0

/-- Offset (ppb) and displacement (ns) of a family now (R112, R117). -/
def State.gNow (s : State) (g : Nat) : Int × Int :=
  let r := profAt (pieces (s.vec (H.gProf g))) (s.now - s.rd (H.gAt g)) (s.rdI 32 (K.GSYN_OFFSET g))
  (r.1, s.rd64 (K.GSYN_PHASE_NS g) + r.2 / 2000000)

/-- Bring OFFSET and PHASE_NS up to now and start another profile from there. -/
def State.gProfile (s : State) (g : Nat) (l : List Piece) : State :=
  let r := s.gNow g
  (((s.wrI 32 (K.GSYN_OFFSET g) r.1).wr64 (K.GSYN_PHASE_NS g) r.2).wr (H.gAt g) s.now).setVec (H.gProf g) (unpieces l)

/-- The profile that travels `d` ns from offset `f0` to offset 0 at slope `sl` ppb/s and peak at most `m` ppb (R112), relative to the
base offset: one ramp up, a plateau if the peak is reached, one ramp down. -/
def slewPieces (f0 d : Int) (sl m : Nat) : List Piece :=
  let ds : Int := f0 * f0.natAbs / (2 * sl)
  let r : Int := d - ds
  let sg : Int := if r < 0 then -1 else 1
  let g0 : Int := sg * f0
  let p := isqrt (sl * r.natAbs + (if 0 < g0 then g0.natAbs * g0.natAbs else 0))
  let top : Int := (min p m : Nat)
  let up := ((top - g0).toNat * 1000000) / sl
  let down := top.toNat * 1000000 / sl
  -- what the two ramps cover, in ns; the plateau covers the rest
  let cov : Int := ((top + g0) * up + top * down) / 2000000
  let flat := if m < p ∧ 0 < m then (((sg * d) - cov).toNat * 1000000) / m else 0
  [(up, f0, sg * top), (flat, sg * top, sg * top), (down, sg * top, 0)]

/-- Frame period of the rate in effect at a family, as numerator (ns) and denominator (R111, R114). -/
def State.gPeriod (s : State) (g : Nat) : Nat × Nat :=
  let r := s.rd (H.gRate g) - 1
  (rateDen r * 1000000000, rateNum r)

/-- The rate code whose grid a family runs on: RATE, but the former one from its development to the instant that ends the old grid (R114). -/
def State.gRateNow (s : State) (g : Nat) : Nat := if s.rd (H.gRate g) = 0 then s.rd (K.GSYN_RATE g) else s.rd (H.gRate g) - 1

/-- Reduce a step to half a frame period either side (R111). -/
def State.reduceStep (s : State) (g : Nat) (d : Int) : Int :=
  let p := s.gPeriod g
  let k := (2 * d * p.2 + p.1) / (2 * (p.1 : Int))
  d - divRoundI (k * p.1) p.2

/-- A family slews `dist` ns from where it is, about the offset `base` (R112). -/
def State.slewTo (s : State) (g : Nat) (base dist : Int) (going : Bool) : State :=
  let l := (slewPieces ((s.gNow g).1 - base) dist (s.rd (K.GSYN_SLEW_SLOPE g)) (s.rd (K.GSYN_SLEW_MAX g))).map
    (fun p => (p.1, p.2.1 + base, p.2.2 + base))
  let s := s.gProfile g l
  let s := ((s.wr64 (H.gBase g) base).wr64 (H.gDist g) dist).wr (H.gEnd g) (s.now + profDur l)
  let s : State := if going then s else s.wr (H.gStart g) s.now
  (s.wr (K.GSYN_RAMP_STATUS_STATE g) 3).raise 0x1010 (gsynIdx g) g (satI32 dist)

/-- Start or extend a slew by `d` ns (R112). -/
def State.slewBy (s : State) (g : Nat) (d : Int) : State :=
  let now := s.gNow g
  let going := s.rd (K.GSYN_RAMP_STATUS_STATE g) == 3
  let base : Int := if going then s.rd64 (H.gBase g) else now.1
  let done : Int := if going then
      now.2 - s.rd64 (K.GSYN_PHASE_NS g) - base * ((s.now - s.rd (H.gAt g) : Nat) : Int) / 1000000 else 0
  let dist : Int := (if going then s.rd64 (H.gDist g) - done else 0) + d
  let s := s.slewTo g base dist going
  s.wr64 (K.GSYN_PHASE_NS g) (s.rd64 (K.GSYN_PHASE_NS g) - d)

/-- The steps a list of pairs frame, ns holds for a frame, added up. -/
def stepSum (f : Nat) : List Nat → Int
  | a :: b :: t => (if a = f then toInt 64 b else 0) + stepSum f t
  | _ => 0

/-- The pairs of such a list from a frame on. -/
def stepsFrom (f : Nat) : List Nat → List Nat
  | a :: b :: t => if f ≤ a then a :: b :: stepsFrom f t else stepsFrom f t
  | _ => []

/-- The steps OUT[n] has for the frame it sends, reduced once and as N of R131: with N not 0 the frame is adjusted (R111). -/
def State.adjustFrame (s : State) (n : Nat) : State :=
  let a := adjustSamples (s.air (K.OUT_FORMAT n))
    (s.reduceStep (s.air (K.OUT_FAMILY n)) (stepSum (s.rd (K.OUT_EVT_FRAME n)) (s.vec (H.outStep n))))
  (s.wr64 (H.outAdj n) a).wr (H.outAdjOn n) (if a = 0 then 0 else 1)

/-- A phase step of `d` ns reaches OUT[n] of family g: the frame that absorbs it is the one that the family's next switch line opens, whose
place in the output's own frames follows from TIMING_OFFSET; `here`: the family is at that line now (R111, R114, R131). -/
def State.outStepBy (s : State) (n g : Nat) (d : Int) (here : Bool) : State :=
  let p := s.gPeriod g
  let e : Int := ((s.now * 1000 : Nat) : Int) - (s.rd (H.outAt n) : Int) + offsetNs (toInt 32 (s.air (K.OUT_TIMING_OFFSET n))) (s.rd (H.gRate g) - 1)
  let m : Nat := if here then (if e < 2000000 then 0 else 1) else (e * p.2 / p.1 + 1).toNat
  let s := s.setVec (H.outStep n) (s.vec (H.outStep n) ++ [s.rd (K.OUT_EVT_FRAME n) + m, ofInt 64 d])
  if m = 0 then s.adjustFrame n else s

/-- A phase step of `d` ns reaches family g (R110 to R112, R117): below half a family clock cycle it is left to the loop; a STEP
family hands it to its outputs; a SLEW family slews it, after a running ramp profile; a family without lock keeps it (R116). -/
def State.famStepAt (s : State) (g : Nat) (d : Int) (here : Bool) : State :=
  if d.natAbs ≤ 3 then s
  else if s.rd (K.GSYN_STATE g) ≠ 3 then s.wr64 (H.gLate g) (s.rd64 (H.gLate g) + d)
  else if s.rd (K.GSYN_ALIGN g) = 0 then
    s.upto 48 (fun n t => if t.rd (K.OUT_FAMILY n) = g ∧ t.rd (K.OUT_TSTATE n) ≠ 0 then t.outStepBy n g d here else t)
  else if s.rd (K.GSYN_RAMP_STATUS_STATE g) = 1 ∨ s.rd (K.GSYN_RAMP_STATUS_STATE g) = 2 then
    s.wr64 (H.gWait g) (s.rd64 (H.gWait g) + s.reduceStep g d)
  else s.slewBy g (s.reduceStep g d)

/-- A phase step that reaches family g between two of its switch lines. -/
def State.famStep (s : State) (g : Nat) (d : Int) : State := s.famStepAt g d false

/-- Content times and stamps, moved by `d` ns: a list of triples time, stamp, slot. -/
def relabel (d : Int) : List Nat → List Nat
  | c :: p :: j :: t => ((c : Int) + d).toNat :: ((p : Int) + d).toNat :: j :: relabel d t
  | _ => []

/-- The first of each pair moved by `d`. -/
def shiftFirst (d : Int) : List Nat → List Nat
  | a :: b :: t => ((a : Int) + d).toNat :: b :: shiftFirst d t
  | l => l

/-- A stored instant moves with the time of day; 0 stands for none (R326). -/
def State.shiftKey (t : State) (k : Nat) (d : Int) : State := if t.rd k = 0 then t else t.wr k (((t.rd k : Int) + d).toNat)

/-- WCKOUT in phase with a time of day of `x` thirds of a ns: 48,000 periods a second, high in the first half of each. -/
def wckWave (x : Nat) : Bool := x / 31250 % 2 == 0

/-- The level of WCKOUT, and the instant of its next edge, at a time of day of `x` thirds of a ns (R112). -/
def State.wckAt (s : State) (x : Nat) : Bool × Nat :=
  match s.vec H.wck with
  | [e, l, y] => if x < e then (l == 1, e) else if x < y then (l != 1, y) else (wckWave x, (x / 31250 + 1) * 31250)
  | _ => (wckWave x, (x / 31250 + 1) * 31250)

/-- The time of day has stepped by `d` ns: WCKOUT keeps its level until the edge that was due, and the one after that until the first edge
of the new phase that leaves it and comes half a period later or more (R112, log 68). -/
def State.wckStep (s : State) (d : Int) : State :=
  let x := (3 * ((s.tod : Int) - d)).toNat
  let r := s.wckAt x
  let e := ((r.2 : Int) + 3 * d).toNat
  let m := ceilDiv (e + 31250) 31250
  s.setVec H.wck [e, if r.1 then 1 else 0, (if (m % 2 == 0) == r.1 then m else m + 1) * 31250]

/-- WCKOUT is high: only while it is enabled and PD.GPIO drives it (R112). -/
def State.wckout (s : State) : Bool := s.rd K.WCKOUT_EN == 1 && s.pdReady 55 && (s.wckAt (3 * s.tod)).1

/-- The time of day steps by `d` ns: WCKOUT moves its phase, and the times the converters and the audio hold are relabelled, so that
nothing moves (R112, R306, R326). -/
def State.todStep (s : State) (d : Int) : State :=
  let s := s.wckStep d
  -- source instants and output instants of audio move together (R326)
  let s := { s with vecs := s.vecs.map (fun (p : Nat × List Nat) =>
    if H.audHist 0 ≤ p.1 ∧ p.1 < H.audHist 1536 then (p.1, shiftFirst d p.2)
    else if H.npHist 0 ≤ p.1 ∧ p.1 < H.npHist 768 then (p.1, p.2.map (fun (v : Nat) => ((v : Int) + d).toNat)) else p) }
  s.upto 64 (fun x t =>
    if t.vec (H.frcPics x) = [] then t else
    (((t.setVec (H.frcPics x) (relabel d (t.vec (H.frcPics x)))).shiftKey (H.frcBase x) d).shiftKey (H.frcShown x) d).shiftKey (H.frcLastB x) d)

/-- TS[j] moves by `d` ns (R110); the time of day may step with it. -/
def State.tsMove (s : State) (j : Nat) (d : Int) : State :=
  let s := s.wr (H.tsNs j) ((s.rd (H.tsNs j) : Int) + d).toNat
  if s.rd K.TOD_SEL ≠ j then s else s.todStep d

/-- Families on selector j that take their frame phase from TS[j] receive a step (R107, R110, R118). -/
def State.famSteps (s : State) (j : Nat) (d : Int) : State :=
  s.upto 8 (fun g t => if t.rd (K.GSYN_SEL g) = j ∧ t.rd (H.gDivsync g) = 0 then t.famStep g d else t)

/-- A phase step of a selector: TS[j] takes the reference's phase in one step, recorded and raised; each family receives it (R110). -/
def State.phaseStep (s : State) (j : Nat) (d : Int) : State :=
  let s := ((s.tsMove j d).wr64 (K.SEL_LAST_STEP j) d).raise 0x1008 (selIdx j) j (satI32 d)
  s.famSteps j d

/-- Outputs, TX quads and CLKOUTs that use a family (CONSUMERS). -/
def State.consumers (s : State) (g : Nat) : Nat :=
  ((List.range 48).filter (fun n => s.rd (K.OUT_FAMILY n) == g && s.rd (K.OUT_FORMAT n) != 0)).length
  + ((List.range 12).filter (fun q => s.rd (K.OUT_TXQ_PLL_GSYN (4 * q)) == g)).length
  + ((List.range 2).filter (fun c => s.rd (K.CLKOUT_SRC c) == g)).length

/-! ## Selectors (R99 to R105) -/

/-- Move a selector to a state, raising SEL_STATE for each transition (R102). -/
def State.selMove (s : State) (j new : Nat) : State :=
  let old := s.rd (K.SEL_STATE j)
  if old = new ∧ new ≠ 1 then s else
  let s := (s.wr (K.SEL_STATE j) new).wr (H.lockFrom j) 0
  let s := { s with nu := ⟨j, s.rd (K.SEL_ACTIVE j), s.now, new == 2, s.rd (K.SEL_NCO j)⟩ :: s.nu }
  s.raise 0x1006 (selIdx j) j (old * 256 + new)

/-- Change ACTIVE, raising SEL_SWITCH and counting; without a candidate no soft limit is exceeded (R97, R99). -/
def State.setActive (s : State) (j k : Nat) : State :=
  let old := s.rd (K.SEL_ACTIVE j)
  if old = k then s else
  let s : State := if k = 255 then s.setBit (K.SEL_STATUS j) 1 false else s
  ((s.wr (K.SEL_ACTIVE j) k).inc (K.SEL_SWITCHES j) 1 (2 ^ 32)).raise 0x1005 (selIdx j) (j * 256 + k) old

/-- Set the NCO and keep its history (R103, R105). -/
def State.setNco (s : State) (j raw : Nat) : State :=
  let s := s.wr (K.SEL_NCO j) raw
  { s with nu := ⟨j, s.rd (K.SEL_ACTIVE j), s.now, s.rd (K.SEL_STATE j) == 2, raw⟩ :: s.nu }

/-- Ticks of LOCKED operation of a selector on candidate k between two ticks, and the integral of the raw NCO value over them; the history
runs from the newest stretch back, the first ending at `till`. -/
def nuSum : List NuRun → Nat → Nat → Nat → Nat → Nat → Nat × Int
  | [], _, _, _, _, _ => (0, 0)
  | r :: t, j, k, till, from', to' =>
    if r.sel = j then
      let a := max r.at' from'
      let b := min till to'
      let d := b - a
      let rest := nuSum t j k r.at' from' to'
      if r.locked ∧ r.k = k then (d + rest.1, toInt 64 r.nco * d + rest.2) else rest
    else nuSum t j k till from' to'

/-- The NCO value a selector had at a tick. -/
def nuAt : List NuRun → Nat → Nat → Nat
  | [], _, _ => 0
  | r :: t, j, at' => if r.sel = j ∧ r.at' ≤ at' then r.nco else nuAt t j at'

/-- The value the NCO freezes at on entering holdover (R103): the average of LOCKED operation on candidate k over HOLD_AVG seconds, in a
window that ends 500 ms before the reference left; the value at the window's end when it holds less than 1 s. -/
def State.holdNco (s : State) (j k left : Nat) : Nat :=
  let e := left - 500000
  let r := nuSum s.nu j k s.now (e - s.rd (K.SEL_HOLD_AVG j) * 1000000) e
  if r.1 < 1000000 then nuAt s.nu j e else ofInt 64 (divRoundI r.2 r.1)

/-- Enter holdover (R102, R103). -/
def State.enterHoldover (s : State) (j : Nat) : State :=
  if s.rd (K.SEL_STATE j) = 3 then s.setActive j 255 else
  let k := s.rd (K.SEL_ACTIVE j)
  let left := if k ≠ 255 ∧ s.rd (K.REF_STATE k) ≠ 2 then s.rd (H.refLeft k) else s.now
  let s : State := if k = 255 then s else s.setNco j (s.holdNco j k left)
  ((s.setActive j 255).selMove j 3).wr (H.holdAt j) s.now

/-- Bandwidth of a loop code in mHz (R101). -/
def bwMilli (c : Nat) : Nat := (match c % 3 with | 0 => 1 | 1 => 2 | _ => 5) * 10 ^ (c / 3)

/-- Default loop code of a candidate's type (R101). -/
def bwDefault (k : Nat) : Nat :=
  match refType k with
  | 2 => 5 | 1 => 10 | 3 => 8 | _ => 11

/-- The code applied: at most the highest whose bandwidth is within 1/20 of the phase-event rate (R101). -/
def State.bwCode (s : State) (k : Nat) : Nat :=
  let c := if s.rd (K.REF_BW k) = 255 then bwDefault k else s.rd (K.REF_BW k)
  let fits := (List.range (c + 1)).filter (fun c => decide (bwMilli c * 20 * s.rd (K.REF_NOM_DEN k) ≤ 1000 * s.rd (K.REF_NOM_NUM k)))
  fits.getLastD 0

/-- BW_ACTIVE and DAMP_ACTIVE follow the active candidate (R101). -/
def State.loopParams (s : State) (j : Nat) : State :=
  let k := s.rd (K.SEL_ACTIVE j)
  if k = 255 then s else s.wrs [(K.SEL_BW_ACTIVE j, s.bwCode k), (K.SEL_DAMP_ACTIVE j, s.rd (K.REF_DAMP k))]

/-- While the time of day follows a PTP master, the UTC offset is the one that master announced (R107, R108). -/
def State.utcFollow (s : State) : State :=
  let k := s.rd (K.SEL_ACTIVE (s.rd K.TOD_SEL))
  if (k = 50 ∨ k = 51) ∧ s.rd (H.ptpUtc (k - 50)) ≠ 0 then s.wr K.TOD_UTC_OFFSET (s.rd (H.ptpUtc (k - 50)) - 1) else s

/-- Take a candidate, whose time is `d` ns ahead of TS[j] (R99, R102, R107, R110). -/
def State.take (s : State) (j k : Nat) (d : Int) : State :=
  (((((s.setActive j k).loopParams j).selMove j 1).phaseStep j d).softCheck j).utcFollow

/-- Rank of candidate k in selector j; 0 is none (R99). -/
def State.rank (s : State) (j k : Nat) : Nat := if j = 0 then s.rd (K.REF_RANK0 k) else s.rd (K.REF_RANK1 k)

/-- |OFFSET| of a candidate. -/
def State.absOff (s : State) (k : Nat) : Nat := (s.rdI 32 (K.REF_OFFSET k)).natAbs

/-- First pair of a list, lowest first, whose OFFSETs differ by more than `lim` (R99). -/
def State.disagree (s : State) (lim : Nat) : List Nat → Option (Nat × Nat × Nat)
  | [] => none
  | a :: t =>
    match t.find? (fun b => decide (lim < (s.rdI 32 (K.REF_OFFSET a) - s.rdI 32 (K.REF_OFFSET b)).natAbs)) with
    | some b => some (a, b, (s.rdI 32 (K.REF_OFFSET a) - s.rdI 32 (K.REF_OFFSET b)).natAbs)
    | none => s.disagree lim t

/-- The member the procedure of R99 picks: the near one of lowest k when several are near, else the smallest |OFFSET|, lowest k. -/
def State.pick (s : State) (set : List Nat) : Nat :=
  let near := set.filter (fun k => decide (s.absOff k ≤ 100))
  if 2 ≤ near.length then near.headD 255
  else
    match set with
    | [] => 255
    | a :: t => t.foldl (fun b k => if s.absOff k < s.absOff b then k else b) a

/-- The QUALIFIED candidates of a selector (R99). -/
def State.qualified (s : State) (j : Nat) : List Nat :=
  (List.range 54).filter (fun k => s.rd (K.REF_STATE k) == 2 && s.rank j k != 0)

/-- STATUS bit 2: no qualified candidate, in every MODE (R109). -/
def State.qualCheck (s : State) (j : Nat) : State := s.setBit (K.SEL_STATUS j) 2 (s.qualified j == [])

/-- The selector's procedure in MODE AUTO (R99). -/
def State.evalAuto (s : State) (j : Nat) (d : Int) : State :=
  let q := s.qualified j
  let act := s.rd (K.SEL_ACTIVE j)
  match q with
  | [] => if act ≠ 255 then s.enterHoldover j else s
  | a :: t =>
    let r := t.foldl (fun m k => min m (s.rank j k)) (s.rank j a)
    let set := q.filter (fun k => s.rank j k == r)
    let dis := s.disagree (s.rd (K.SEL_DISAGREE j)) set
    let s : State :=
      match dis with
      | some (ka, kb, diff) =>
        if s.bit (K.SEL_STATUS j) 0 then s
        else (s.setBit (K.SEL_STATUS j) 0 true).raise 0x1007 (selIdx j) (j * 65536 + ka * 256 + kb) diff
      | none => s.setBit (K.SEL_STATUS j) 0 false
    if q.contains act ∧ (set.contains act ∨ s.rd (K.SEL_REVERTIVE j) = 0) then s
    else s.take j (s.pick set) d

/-- One evaluation of a selector by its MODE (R99, R100). `d` is how far the candidate that may be taken is ahead of TS[j]. -/
def State.evalSel (s : State) (j : Nat) (d : Int) : State :=
  let s := s.qualCheck j
  match s.rd (K.SEL_MODE j) with
  | 0 => s.evalAuto j d
  | 1 =>
    let k := s.rd (K.SEL_FORCE_K j)
    if k ≠ 255 ∧ s.rd (K.REF_STATE k) = 2 then (if s.rd (K.SEL_ACTIVE j) = k then s else s.take j k d)
    else s.enterHoldover j
  | _ => s

/-- SELECTOR_EVALUATION (R99, R100). -/
def execSelectorEvaluation (j : Fin 2) (d : Int) (s : State) : Host.Outcome State Fault Refusal := .next (s.evalSel j.val d)

/-- A phase sample of selector j beyond LOCK_PHASE. -/
def State.excursion (s : State) (j : Nat) : Instr → Bool
  | .phaseMeasurement i e => i.val == j && decide (s.rd (K.SEL_LOCK_PHASE j) < e.natAbs)
  | .refPhaseEvent k e => s.rd (K.SEL_ACTIVE j) == k.val && decide (s.rd (K.SEL_LOCK_PHASE j) < e.natAbs)
  | .ptpSync p off _ _ => s.rd (K.SEL_ACTIVE j) == 50 + p.val && decide (s.rd (K.SEL_LOCK_PHASE j) < off.natAbs)
  | _ => false

/-- LOCK_HOLD_EXPIRY: PHASE_ERR has stayed within LOCK_PHASE for LOCK_HOLD, by the samples of this tick too (R98, R102). -/
def execLockHoldExpiry (j : Fin 2) (s : State) : Host.Outcome State Fault Refusal :=
  let j := j.val
  let f := s.rd (H.lockFrom j)
  if s.rd (K.SEL_STATE j) = 1 ∧ f ≠ 0 ∧ f - 1 + s.rd (K.SEL_LOCK_HOLD j) * 1000 ≤ s.now ∧ !s.arrives (s.excursion j) then .next (s.selMove j 2) else .next s

/-- A phase sample of `e` ns of selector j: PHASE_ERR, the LOCK_HOLD window, and the return to ACQUIRING beyond 4 LOCK_PHASE; the
loop then sets the NCO, by a law the spec does not state (R101, R102, log 14). -/
def State.phaseSample (s : State) (j : Nat) (e : Int) : State :=
  let s := s.wrI 32 (K.SEL_PHASE_ERR j) e
  let lp := s.rd (K.SEL_LOCK_PHASE j)
  let s : State :=
    if s.rd (K.SEL_STATE j) = 1 then
      if e.natAbs ≤ lp then (if s.rd (H.lockFrom j) = 0 then s.wr (H.lockFrom j) (s.now + 1) else s)
      else s.wr (H.lockFrom j) 0
    else if s.rd (K.SEL_STATE j) = 2 ∧ 4 * lp < e.natAbs then s.selMove j 1
    else s
  if s.rd (K.SEL_ACTIVE j) = 255 then s
  else s.setNco j (Config.loopNco (s.rd (K.SEL_NCO j)) (ofInt 32 e) (s.rd (K.SEL_BW_ACTIVE j)) (s.rd (K.SEL_DAMP_ACTIVE j)) % 2 ^ 64)

/-- PHASE_ERR of selector j has nothing to measure: OPEN_LOOP without its FORCE_K present, FORCED without a FORCE_K (R105). -/
def State.phaseless (s : State) (j : Nat) : Bool :=
  let k := s.rd (K.SEL_FORCE_K j)
  (s.rd (K.SEL_MODE j) == 4 && (k == 255 || s.rd (K.REF_STATE k) == 0)) || (s.rd (K.SEL_MODE j) == 1 && k == 255)

/-- PHASE_MEASUREMENT: PHASE_ERR of the active candidate, or of FORCE_K in OPEN_LOOP; without one it reads 0x8000_0000 (R102,
R105). -/
def execPhaseMeasurement (j : Fin 2) (e : Int) (s : State) : Host.Outcome State Fault Refusal :=
  let j := j.val
  let k := if s.rd (K.SEL_MODE j) = 4 then s.rd (K.SEL_FORCE_K j) else s.rd (K.SEL_ACTIVE j)
  let missing : Bool := k == 255 || s.rd (K.REF_STATE k) == 0
  if missing then
    .next (if s.rd (K.SEL_MODE j) = 4 ∨ s.rd (K.SEL_MODE j) = 1 then s.wr (K.SEL_PHASE_ERR j) 0x80000000 else s)
  else .next (s.phaseSample j e)

/-- REF_PHASE_EVENT: a line sync or an edge restarts the loss period, and is a phase sample for each selector that uses the candidate
(R92, R101). -/
def execRefPhaseEvent (k : Fin 54) (e : Int) (s : State) : Host.Outcome State Fault Refusal :=
  let k := k.val
  if s.rd (K.REF_STATE k) = 0 then .next s else
  let s := s.lossRestart k
  .next (s.upto 2 (fun j t => if t.rd (K.SEL_ACTIVE j) = k then t.phaseSample j e else t))

/-! ## Writes of selector and candidate objects -/

/-- What a command write answers: status (R60), holder for CONFLICT (R44), and the state. -/
structure Ans where
  st : Nat
  holder : Nat
  s : State
deriving DecidableEq, Repr

/-- OK. -/
def ansOk (s : State) : Ans := ⟨0, 0, s⟩
/-- A status other than OK: nothing has changed. -/
def ansErr (st : Nat) (s : State) : Ans := ⟨st, 0, s⟩
/-- RANGE. -/
def ansRange (s : State) : Ans := ansErr 4 s
/-- BUSY. -/
def ansBusy (s : State) : Ans := ansErr 5 s
/-- CONFLICT with its holder, (index << 8) | sub. -/
def ansConflict (h : Nat) (s : State) : Ans := ⟨7, h, s⟩

/-- A written REF.SEL[j].MODE takes effect at once (R100, R102); `d` serves a candidate that is taken. -/
def selModeWrite (j v : Nat) (d : Int) (s : State) : Ans :=
  let s := (s.wr (K.SEL_MODE j) v).qualCheck j
  ansOk (match v with
    | 2 => s.enterHoldover j
    | 3 => ((s.setActive j 255).setNco j 0).selMove j 0
    | 4 =>
      let s := s.setActive j 255
      if s.rd (K.SEL_STATE j) = 3 then s else (s.selMove j 3).wr (H.holdAt j) s.now
    | _ => s.evalSel j d)

/-- A write of NCO: in OPEN_LOOP it sets nu at once, in other modes it answers BUSY (R105). -/
def ncoWrite (j v : Nat) (s : State) : Ans :=
  if s.rd (K.SEL_MODE j) = 4 then ansOk (s.setNco j v) else ansBusy s

/-- The shift TOD.SET makes of TS[j] towards `want` ns (R107): all of it, or, on an SDI or SYNCIN reference, whole frames of the
reference, the nearest to the value written, the later one on a tie. -/
def State.todShift (s : State) (j want : Nat) : Int :=
  let d : Int := (want : Int) - (s.rd (H.tsNs j) : Int)
  let k := s.rd (K.SEL_ACTIVE j)
  -- frame period of the reference in ns, as numerator and denominator
  let per : Nat × Nat :=
    if k < 48 then
      match fmt (s.rd (K.IN_STAT_FORMAT k)) with
      | some f => (rateDen f.rate * 1000000000, rateNum f.rate)
      | none => (0, 1)
    else if k < 50 then (s.rd (K.REF_NOM_DEN k) * s.rd (K.REF_SYNC_LINES k) * 1000000000, s.rd (K.REF_NOM_NUM k))
    else (0, 1)
  if per.1 = 0 then d
  else divRoundI ((2 * d * per.2 + per.1) / (2 * (per.1 : Int)) * per.1) per.2

/-- A write of TOD.SET (R107): BUSY while the selector follows PTP; else TS moves, as a phase step, with TOD_SET. -/
def todSet (v : Nat) (s : State) : Ans :=
  let j := s.rd K.TOD_SEL
  let k := s.rd (K.SEL_ACTIVE j)
  if k = 50 ∨ k = 51 then ansBusy s else
  let d := s.todShift j (ofPtime v)
  ansOk (((s.wr K.TOD_SET v).phaseStep j d).raise 0x100B 0x9C10 j (satI32 (d.tdiv 1000000000)))

/-- A write of TOD.SEL: the time of day is another timescale from then on, which relabels what is held (R107, R306). -/
def todSelWrite (v : Nat) (s : State) : Ans :=
  let d : Int := (s.rd (H.tsNs v) : Int) - (s.rd (H.tsNs (s.rd K.TOD_SEL)) : Int)
  ansOk (if v = s.rd K.TOD_SEL then s else ((s.wr K.TOD_SEL v).todStep d).utcFollow)

/-- A write of TOD.UTC_OFFSET: BUSY while the time of day follows a PTP master (R107). -/
def utcWrite (v : Nat) (s : State) : Ans :=
  let k := s.rd (K.SEL_ACTIVE (s.rd K.TOD_SEL))
  if k = 50 ∨ k = 51 then ansBusy s else ansOk (s.wr K.TOD_UTC_OFFSET v)

/-- Writes of candidate objects that act at once (R96, R97, R101): ranks, limits, loop parameters. -/
def refWrite (k key v : Nat) (s : State) : Ans :=
  if key = K.REF_RANK0 k ∨ key = K.REF_RANK1 k then
    -- a candidate that is QUALIFIED has been so since then
    let s' : State := if s.rd key = 0 ∧ v ≠ 0 ∧ s.rd (K.REF_STATE k) ≠ 2 then s.wr (H.refQual k) 0 else s
    ansOk (s'.wr key v)
  else if key = K.REF_SOFT k then
    if s.rd (K.REF_HARD k) < v ∧ v ≠ dflt key then ansRange s else ansOk (((s.wr key v).softCheck 0).softCheck 1)
  else if key = K.REF_HARD k then
    if v < s.rd (K.REF_SOFT k) ∧ v ≠ dflt key then ansRange s else ansOk ((s.wr key v).limitCheck k)
  else if key = K.REF_DRIFT_LIMIT k then ansOk ((s.wr key v).limitCheck k)
  else ansOk ((s.wr key v).upto 2 (fun j t => if t.rd (K.SEL_ACTIVE j) = k then t.loopParams j else t))

/-! ## PTP (R106, R108, R109) and pulses -/

/-- Move a PTP port to a state, raising PTP_STATE (R121). -/
def State.ptpMove (s : State) (p new : Nat) : State :=
  let old := s.rd (K.REF_PTP_PORT_STATE (50 + p))
  if old = new then s
  else (s.wr (K.REF_PTP_PORT_STATE (50 + p)) new).raise 0x1009 (refIdx (50 + p)) p (old * 256 + new)

/-- PTP_SYNC: offset and mean path delay as the servo measured them, in ns, and the message's logSyncInterval; another Sync rate than the
candidate's is a loss of signal and a new detection, and limits the loop anew (R92, R93, R101, R108). -/
def execPtpSync (p : Fin 2) (off delay : Int) (log : Int) (s : State) : Host.Outcome State Fault Refusal :=
  let k := 50 + p.val
  if s.rd (K.REF_PTP_PORT_STATE k) < 2 ∨ s.rd (K.REF_PTP_PORT_STATE k) = 4 ∨ log < -7 ∨ 0 < log then .next s else
  let s := ((s.wrI 32 (K.REF_PTP_OFFSET_NS k) off).wrI 32 (K.REF_PTP_MEAN_DELAY k) delay).wrI 8 (K.REF_PTP_SYNC_LOG k) log
  let s := s.ptpMove p.val 3
  let num := 2 ^ (-log).toNat
  let s : State :=
    if s.rd (K.REF_STATE k) = 0 then s
    else if s.rd (K.REF_NOM_NUM k) = num then s.lossRestart k
    else ((s.refLose k).wrs [(K.REF_NOM_NUM k, num), (K.REF_NOM_DEN k, 1)]).refFound k
  .next (s.upto 2 (fun j t => if t.rd (K.SEL_ACTIVE j) = k then (t.loopParams j).phaseSample j (-off) else t))

/-- The Announce data that the best-master algorithm compares, as one number: a smaller one is better (R108). -/
def bmcaKey (prio1 cls acc var prio2 gm steps : Nat) : Nat :=
  ((((((prio1 * 256 + cls) * 256 + acc) * 65536 + var) * 256 + prio2) * 2 ^ 64 + gm) * 65536) + steps

/-- PTP_ANNOUNCE: an Announce of `domain` with its data set, what it tells of UTC and its logAnnounceInterval; `d` is how far the new
master's time is ahead of the timescale (R108, R109). -/
def execPtpAnnounce (p : Fin 2) (domain prio1 cls acc var prio2 gm steps : Nat) (utc : UtcData) (log d : Int) (s : State) :
    Host.Outcome State Fault Refusal :=
  let p := p.val
  let k := 50 + p
  if s.rd (K.REF_PTP_PORT_STATE k) = 0 ∨ s.rd (K.REF_PTP_PORT_STATE k) = 4 ∨ domain ≠ s.rd (K.REF_PTP_DOMAIN k) ∨ log < -3 ∨ 1 < log
  then .next s else
  let key := bmcaKey prio1 cls acc var prio2 gm steps
  let old := s.rd (K.REF_PTP_GM_ID k)
  let have' := s.rd (H.annEnd p) != 0
  if have' ∧ gm ≠ old ∧ s.rd (H.ptpBest p) ≤ key then .next s else
  let iv : Nat := if log < 0 then 1000000 / 2 ^ (-log).toNat else 1000000 * 2 ^ log.toNat
  let new : Bool := s.rd (H.ptpGm p) != 0 && s.rd (H.ptpGm p) != gm + 1
  let s := s.wrs [(H.ptpBest p, key), (H.annEnd p, s.now + s.rd (K.REF_PTP_ANN_TIMEOUT k) * iv), (K.REF_PTP_GM_ID k, gm),
    (H.ptpGm p, gm + 1), (H.ptpUtc p, ofInt 16 utc.offset + 1), (H.ptpJumpAt p, utc.leapAt), (H.ptpJump p, ofInt 16 utc.leap)]
  let s : State := if s.rd (K.REF_PTP_PORT_STATE k) = 1 then s.ptpMove p 2 else s
  let s := s.utcFollow
  if new then
    let s := s.raise 0x100A (refIdx k) p gm
    .next (s.upto 2 (fun j t =>
      if t.rd (K.SEL_ACTIVE j) = k ∧ t.rd (K.SEL_LOCK_PHASE j) < d.natAbs then t.phaseStep j d else t))
  else .next s

/-- A jump of the UTC offset that the master the time of day follows has announced comes at its second (R107, R108, log 69). -/
def State.leapStep (s : State) : State :=
  let k := s.rd (K.SEL_ACTIVE (s.rd K.TOD_SEL))
  let p := k - 50
  if (k ≠ 50 ∧ k ≠ 51) ∨ s.rd (H.ptpJumpAt p) = 0 ∨ s.tod < s.rd (H.ptpJumpAt p) * 1000000000 then s else
  ((s.wr (H.ptpUtc p) (ofInt 16 (toInt 16 (s.rd (H.ptpUtc p) - 1) + toInt 16 (s.rd (H.ptpJump p))) + 1)).wr (H.ptpJumpAt p) 0).utcFollow

/-- PTP_ANNOUNCE_TIMEOUT: the port leaves SLAVE (R92, R108). -/
def execPtpAnnounceTimeout (p : Fin 2) (s : State) : Host.Outcome State Fault Refusal :=
  let p := p.val
  if s.rd (H.annEnd p) = 0 ∨ s.now < s.rd (H.annEnd p) then .next s else
  let s := s.wrs [(H.annEnd p, 0), (H.ptpBest p, 0), (K.REF_PTP_GM_ID (50 + p), 0)]
  .next ((s.ptpMove p 1).refLose (50 + p))

/-- PPS_IN_EDGE: with PPS_MODE 1, the second boundary of a timescale that no PTP, SDI or SYNCIN reference holds moves to the edge
(R106). -/
def execPpsInEdge (s : State) : Host.Outcome State Fault Refusal :=
  if s.rd K.TOD_PPS_MODE ≠ 1 then .next s else
  .next (s.upto 2 (fun j t =>
    if t.rd (K.SEL_ACTIVE j) = 255 ∨ t.rd (K.SEL_ACTIVE j) = 52 ∨ t.rd (K.SEL_ACTIVE j) = 53 then
      let ns := t.rd (H.tsNs j)
      let d : Int := (divRound ns 1000000000 * 1000000000 : Nat) - (ns : Int)
      ((t.tsMove j d).wr (H.tsFrac j) 0).famSteps j d
    else t))

/-- PPS_OUT_SECOND: at a whole second of the time of day PPS_OUT rises for PPS_WIDTH (R107). -/
def execPpsOutSecond (s : State) : Host.Outcome State Fault Refusal :=
  if s.tod % 1000000000 < 1000 then .next (s.wrs [(H.ppsOut, 1), (H.ppsOff, s.now + s.rd K.TOD_PPS_WIDTH)]) else .next s

/-- PPS_OUT_WIDTH_END: PPS_OUT falls once it has been high for PPS_WIDTH (R107). -/
def execPpsOutWidthEnd (s : State) : Host.Outcome State Fault Refusal :=
  if s.rd H.ppsOut = 1 ∧ s.rd H.ppsOff ≤ s.now then .next (s.wr H.ppsOut 0) else .next s

/-! ## Genlock synthesizers (R113 to R118) -/

/-- GSYN_BAND_SEARCH: the search ends with a band and a control word; the GSYN is ACQUIRING (R115). -/
def execGsynBandSearch (g : Fin 8) (band word : Nat) (s : State) : Host.Outcome State Fault Refusal :=
  let g := g.val
  if s.rd (K.GSYN_STATE g) ≠ 1 then .next s else
  .next (s.wrs [(K.GSYN_STATE g, 2), (K.GSYN_BAND g, band % 64), (K.GSYN_CTRL_WORD g, word % 2 ^ 32), (H.gAcq g, s.now)])

/-- Outputs, canvases and FRCs that run on a family show whether it is FROZEN (TSTATE 1 or 2). -/
def State.tstates (s : State) (g v : Nat) : State :=
  let s := s.upto 48 (fun n t => if t.rd (K.OUT_FAMILY n) = g ∧ t.rd (K.OUT_TSTATE n) ≠ 0 then t.wr (K.OUT_TSTATE n) v else t)
  let s := s.upto 16 (fun e t =>
    if t.rd (K.EAS_CANVAS_FAMILY e) = g ∧ t.rd (K.EAS_STATE_TSTATE e) ≠ 0 then t.wr (K.EAS_STATE_TSTATE e) v else t)
  s.upto 16 (fun f t =>
    if t.rd (K.FRC_OTIM_FAMILY f) = g ∧ t.rd (K.FRC_STATE_TSTATE f) ≠ 0 then t.wr (K.FRC_STATE_TSTATE f) v else t)

/-- A GSYN gains lock: LOCKED, GSYN_LOCK, and whatever displacement it kept passes as a step (R115, R116). -/
def State.gsynLock (s : State) (g : Nat) (gain : Int) : State :=
  let s := s.wrs [(K.GSYN_STATE g, 3), (H.gRelock g, 0)]
  let s : State := if s.rd (H.gRate g) = 0 then s.wr (H.gRate g) (s.rd (K.GSYN_RATE g) + 1) else s
  let s := (s.tstates g 1).raise 0x100C (gsynIdx g) g (s.rd (K.GSYN_BAND g))
  let d := gain + s.rd64 (H.gLate g)
  (s.wr (H.gLate g) 0).famStep g d

/-- A GSYN loses lock: its control word freezes, LOL is set, GSYN_LOL is raised (R116). -/
def State.gsynFreeze (s : State) (g word : Nat) : State :=
  let s := s.wrs [(K.GSYN_STATE g, 4), (K.GSYN_LOL g, 1), (K.GSYN_CTRL_WORD g, word % 2 ^ 32), (H.gRelock g, 0)]
  (s.tstates g 2).raise 0x100D (gsynIdx g) g word

/-- GSYN_LOL: loss of lock of a locked GSYN (R116). -/
def execGsynLol (g : Fin 8) (word : Nat) (s : State) : Host.Outcome State Fault Refusal :=
  if s.rd (K.GSYN_STATE g.val) = 3 then .next (s.gsynFreeze g.val word) else .next s

/-- A PLL's word freezes, with its event (R116). -/
def State.pllFreeze (s : State) (x word : Nat) : State := (s.wr (H.pllWord x) (word % 2 ^ 32)).raise 0x100E 0x9C00 x word

/-- PLL_LOL: SYSPLL (0), AUDPLL (1) or the PLL of TXQ[q] (16 + q) loses lock and freezes (R116). -/
def pllLol (x : Nat) (word : Nat) (s : State) : Host.Outcome State Fault Refusal :=
  if x = 0 then .next (((s.wr K.SYSPLL_STATE 2).setBit K.LOL 0 true).pllFreeze x word)
  else if x = 1 then .next (((s.wr K.AUDPLL_STATE 2).setBit K.LOL 1 true).pllFreeze x word)
  else if 16 ≤ x ∧ x < 28 then .next (((s.wr (H.txFrozen (x - 16)) 1).setBit K.TXPLL_LOL (x - 16) true).pllFreeze x word)
  else .next s

/-- A write of RELOCK (R116): 1 restarts the filter of a FROZEN GSYN, 2 searches its bands while nothing consumes it. -/
def relockWrite (g v : Nat) (s : State) : Ans :=
  if v = 2 ∧ s.consumers g ≠ 0 then ansBusy s else
  let s := s.wrs [(K.GSYN_RELOCK g, v), (K.GSYN_LOL g, 0)]
  if v = 2 then
    -- a domain that is off has no oscillator to search with
    if s.rd (K.GSYN_STATE g) = 0 then ansOk s
    else
      let r := s.gNow g
      let s := s.wr64 (H.gLate g) (s.rd64 (H.gLate g) - (if s.rd (K.GSYN_RAMP_STATUS_STATE g) = 3 then r.2 else 0))
      let s : State := if s.rd (K.GSYN_RAMP_STATUS_STATE g) = 3
        then (s.gProfile g []).wrs [(K.GSYN_OFFSET g, 0), (K.GSYN_PHASE_NS g, 0), (K.GSYN_RAMP_STATUS_STATE g, 0)] else s
      ansOk (s.wr (K.GSYN_STATE g) 1)
  else if s.rd (K.GSYN_STATE g) = 4 then
    ansOk (s.wrs [(K.GSYN_STATE g, 2), (H.gAcq g, s.now), (H.gRelock g, s.now + 100000)])
  else ansOk s

/-- RELOCK_TIMEOUT: a RELOCK 1 without lock within 100 ms returns the family to FROZEN (R116). -/
def execRelockTimeout (g : Fin 8) (s : State) : Host.Outcome State Fault Refusal :=
  let g := g.val
  if s.rd (K.GSYN_STATE g) = 2 ∧ s.rd (H.gRelock g) ≠ 0 ∧ s.rd (H.gRelock g) ≤ s.now
  then .next (s.gsynFreeze g (s.rd (K.GSYN_CTRL_WORD g))) else .next s

/-- A write of LOL_CLEAR: the sticky flags clear; those of PLLs still frozen are set again (R116). -/
def lolClear (s : State) : Ans :=
  let lol := (if s.rd K.SYSPLL_STATE = 2 then 1 else 0) + (if s.rd K.AUDPLL_STATE = 2 then 2 else 0)
  let tx := (List.range 12).foldl (fun a q => if s.rd (H.txFrozen q) = 1 then a + 2 ^ q else a) 0
  ansOk (s.wrs [(K.LOL_CLEAR, 1), (K.LOL, lol), (K.TXPLL_LOL, tx)])

/-- The pieces of segment i of a ramp profile from offset `f`: to TARGET at SLOPE, then held for DWELL (R117). -/
def State.rampSeg (s : State) (g i : Nat) (f : Int) : List Piece :=
  let t := s.rdI 32 (K.GSYN_RAMP_TARGET g i)
  [((t - f).natAbs * 1000000 / s.rd (K.GSYN_RAMP_SLOPE g i), f, t), (s.rd (K.GSYN_RAMP_DWELL g i) * 1000, t, t)]

/-- After the last segment the offset stays, RAMP_DONE is raised, and a step that waited is slewed (R117). -/
def State.rampDone (s : State) (g : Nat) : State :=
  let s := s.wrs [(K.GSYN_RAMP_STATUS_STATE g, 0), (K.GSYN_RAMP_STATUS_SEG g, 255)]
  let s := s.raise 0x100F (gsynIdx g) g (s.rd (K.GSYN_OFFSET g))
  let w := s.rd64 (H.gWait g)
  if w = 0 then s else (s.wr (H.gWait g) 0).slewBy g w

/-- Start segment i of the profile, or end it after the last one. -/
def State.rampGo (s : State) (g i : Nat) : State :=
  if i < s.rd (K.GSYN_RAMP_COUNT g) then
    let l := s.rampSeg g i (s.gNow g).1
    let s := s.gProfile g l
    s.wrs [(K.GSYN_RAMP_STATUS_STATE g, 1), (K.GSYN_RAMP_STATUS_SEG g, i), (H.gEnd g, s.now + profDur l)]
  else (s.gProfile g []).rampDone g

/-- The offset is back at 0: the displacement, with a step that waited, is slewed back to 0 (R112, R117). -/
def State.realign (s : State) (g : Nat) : State :=
  let s := s.gProfile g []
  let s := (s.wr64 (K.GSYN_PHASE_NS g) (s.rd64 (K.GSYN_PHASE_NS g) - s.rd64 (H.gWait g))).wr (H.gWait g) 0
  s.slewTo g 0 (-s.rd64 (K.GSYN_PHASE_NS g)) false

/-- A write of RAMP_RUN: BUSY during a slew. 3 first brings the offset to 0, at SLEW_SLOPE and as a segment without a number (R117,
log 70). -/
def rampWrite (g v : Nat) (s : State) : Ans :=
  if s.rd (K.GSYN_RAMP_STATUS_STATE g) = 3 then ansBusy s else
  let s := s.wr (K.GSYN_RAMP_RUN g) v
  if v = 1 then ansOk (s.rampGo g 0)
  else if v = 2 then ansOk ((s.gProfile g []).wr (K.GSYN_RAMP_STATUS_STATE g) 2)
  else
    let f := (s.gNow g).1
    let l : List Piece := [(f.natAbs * 1000000 / s.rd (K.GSYN_SLEW_SLOPE g), f, 0)]
    let s := (s.gProfile g l).wrs [(K.GSYN_RAMP_STATUS_STATE g, 1), (K.GSYN_RAMP_STATUS_SEG g, 255), (H.gEnd g, s.now + profDur l)]
    ansOk (if f = 0 then s.realign g else s)

/-- RAMP_SEGMENT_END: the next segment starts, or the profile is done; after a return to 0 the family realigns (R117). -/
def execRampSegmentEnd (g : Fin 8) (s : State) : Host.Outcome State Fault Refusal :=
  let g := g.val
  if s.rd (K.GSYN_RAMP_STATUS_STATE g) = 1 ∧ s.rd (H.gEnd g) ≤ s.now
  then .next (if s.rd (K.GSYN_RAMP_STATUS_SEG g) = 255 then s.realign g else s.rampGo g (s.rd (K.GSYN_RAMP_STATUS_SEG g) + 1))
  else .next s

/-- SLEW_DONE: the family has moved by the full distance (R112); a step that waited for a ramp is slewed next (R117). -/
def execSlewDone (g : Fin 8) (s : State) : Host.Outcome State Fault Refusal :=
  let g := g.val
  if s.rd (K.GSYN_RAMP_STATUS_STATE g) ≠ 3 ∨ s.now < s.rd (H.gEnd g) then .next s else
  let base := s.rd64 (H.gBase g)
  -- the distance was covered; what a base offset added to the displacement stays
  let rest := s.rd64 (K.GSYN_PHASE_NS g) + s.rd64 (H.gDist g) + base * ((s.now - s.rd (H.gAt g) : Nat) : Int) / 1000000
  let s := ((s.gProfile g []).wrI 32 (K.GSYN_OFFSET g) base).wr64 (K.GSYN_PHASE_NS g) rest
  let s := s.wrs [(K.GSYN_RAMP_STATUS_STATE g, 0), (H.gDist g, 0)]
  let s := s.raise 0x1011 (gsynIdx g) g ((s.now - s.rd (H.gStart g)) / 1000)
  let w := s.rd64 (H.gWait g)
  .next (if w = 0 then s else (s.wr (H.gWait g) 0).slewBy g w)

/-- DIVSYNC_EDGE: an accepted edge restarts the synced CLKOUT dividers and places the switch lines of the DIVSYNC families; `moves`
are the displacements in ns, one for each GSYN in turn (R118). The event's source is block 9A00 whatever GSYNs move (log 71). -/
def execDivsyncEdge (moves : List Int) (s : State) : Host.Outcome State Fault Refusal :=
  if s.rd H.divAt ≠ 0 ∧ s.now < s.rd H.divAt - 1 + 10000 then .next s else
  let s := s.wr H.divAt (s.now + 1)
  let s := s.upto 2 (fun c t => if t.rd (K.CLKOUT_SYNC c) = 1 then t.wr (H.divRestart c) t.now else t)
  let gs := (List.range 8).filter (fun g => s.rd (K.GSYN_DIVSYNC g) == 1)
  let mv (g : Nat) : Int := moves.getD g 0
  let s := gs.foldl (fun (t : State) g => (t.wr (H.gDivsync g) 1).famStep g (mv g)) s
  let mask := gs.foldl (fun a g => a + 2 ^ g) 0
  let big := gs.foldl (fun a g => if a.natAbs < (mv g).natAbs then mv g else a) (0 : Int)
  .next (s.raise 0x1012 0x9A00 mask (satI32 big))

/-- GSYN_RATE_CHANGE: the switch-line instant of the old grid at which a developed RATE or PHASE_OFFSET takes effect; `d` is the
difference to the nearest instant of the new grid, which passes as a step (R114). -/
def execGsynRateChange (g : Fin 8) (d : Int) (s : State) : Host.Outcome State Fault Refusal :=
  let g := g.val
  if s.rd (H.gPend g) = 0 then .next s else
  -- an output that starts at this instant opens its first frame on the old grid's position: that frame is the adjusted one
  let s : State := if s.rd (K.GSYN_STATE g) ≠ 3 ∨ s.rd (K.GSYN_ALIGN g) ≠ 0 then s else
    s.upto 48 (fun n t => if t.rd (K.OUT_FAMILY n) = g ∧ t.rd (K.OUT_TSTATE n) = 0
      then (t.setVec (H.outStep n) [2 ^ 48, ofInt 64 d]).wr (H.outStepAt n) (t.now + 1) else t)
  .next ((s.wrs [(H.gPend g, 0), (H.gRate g, s.rd (K.GSYN_RATE g) + 1)]).famStepAt g d true)

/-- Writes of GSYN objects that act at once: SEL and PRESCALE only while nothing consumes the family (R115); DIVSYNC false returns it to
TS, `d` ns away (R118). -/
def gsynWrite (g key v : Nat) (d : Int) (s : State) : Ans :=
  if (key = K.GSYN_SEL g ∨ key = K.GSYN_PRESCALE g) ∧ s.consumers g ≠ 0 then ansBusy s
  else if key = K.GSYN_DIVSYNC g ∧ v = 0 ∧ s.rd (H.gDivsync g) = 1 then
    ansOk (((s.wr key v).wr (H.gDivsync g) 0).famStep g d)
  else ansOk (s.wr key v)

/-- CLKOUT[c].FREQ: the nominal NTO frequency over DIV, rounded; 0 while off (R113, R119). -/
def State.clkFreq (s : State) (c : Nat) : Nat :=
  let g := s.rd (K.CLKOUT_SRC c)
  if g = 255 then 0
  else if s.rd (K.GSYN_CLASS g) = 1 then divRound 2376000000000 (1001 * s.rd (K.CLKOUT_DIV c))
  else divRound 2376000000 (s.rd (K.CLKOUT_DIV c))

/-- A square wave: `num / den` Hz, held low where `num` is 0, with a rising edge at `org` ns. -/
structure Wave where
  num : Nat
  den : Nat
  org : Nat
deriving DecidableEq, Repr

/-- How far into its period a wave is at `x` ns, in units of 1 / num ns, and the period in these units. -/
def Wave.phase (w : Wave) (x : Nat) : Nat × Nat := (((x - w.org) * w.num) % (w.den * 1000000000), w.den * 1000000000)

/-- The wave is high at `x` ns: in the first half of its period. -/
def Wave.high (w : Wave) (x : Nat) : Bool := w.num != 0 && decide (2 * (w.phase x).1 < (w.phase x).2)

/-- The end of the high phase it is in at `x` ns, rounded up. -/
def Wave.fall (w : Wave) (x : Nat) : Nat := x + ceilDiv ((w.phase x).2 - 2 * (w.phase x).1) (2 * w.num)

/-- Its first rising edge at `x` ns or later, rounded up. -/
def Wave.rise (w : Wave) (x : Nat) : Nat :=
  if (w.phase x).1 = 0 then x else x + ceilDiv ((w.phase x).2 - (w.phase x).1) w.num

/-- Half a period in ns, rounded up; none of a wave that is held low. -/
def Wave.half (w : Wave) : Option Nat := if w.num = 0 then none else some (ceilDiv (w.den * 1000000000) (2 * w.num))

/-- The clock the settings of CLKOUT[c] ask for: the NTO of its source, as to nominal frequency (R113), over DIV, restarted by DIVSYNC; held low
while off or while the domain of its source is (R118, R119). -/
def State.clkWave (s : State) (c : Nat) : Wave :=
  let g := s.rd (K.CLKOUT_SRC c)
  if 8 ≤ g ∨ !s.pdReady (6 + g / 4) then ⟨0, 1, 0⟩
  else if s.rd (K.GSYN_CLASS g) = 1 then ⟨2376000000000, 1001 * s.rd (K.CLKOUT_DIV c), s.rd (H.divRestart c) * 1000⟩
  else ⟨2376000000, s.rd (K.CLKOUT_DIV c), s.rd (H.divRestart c) * 1000⟩

/-- CLKOUT[c] is high at `x` ns: by its clock, but after a change high until the old high phase ends and then low until the new clock rises
(R119). -/
def State.clkHigh (s : State) (c x : Nat) : Bool :=
  match s.vec (H.clkWas c) with
  | [num, den, org, hi, lo] => decide (x < hi) || (decide (lo ≤ x) && Wave.high ⟨num, den, org⟩ x)
  | _ => false

/-- CLKOUT[c] follows a change of its clock without a short phase: it completes its high phase, then stays low for the shorter half-period of
the two clocks or more, until the new clock rises (R119, log 68). -/
def State.clkSync (s : State) (c : Nat) : State :=
  let w := s.clkWave c
  let x := s.now * 1000
  let l := s.vec (H.clkWas c)
  let old : Wave := ⟨l.getD 0 0, l.getD 1 1, l.getD 2 0⟩
  if old = w then s else
  let hi := if !s.clkHigh c x then x else if x < l.getD 3 0 then l.getD 3 0 else old.fall x
  let short := match old.half, w.half with
    | some a, some b => min a b
    | some a, none => a
    | none, b => b.getD 0
  s.setVec (H.clkWas c) [w.num, w.den, w.org, hi, if w.num = 0 then hi else w.rise (hi + short)]

/-- The level of CLKOUT[c] now. -/
def State.clkout (s : State) (c : Nat) : Bool := s.clkHigh c (s.now * 1000)

/-- TS[j] after one tick: 1,000 ns times (1 + nu) (R91). -/
def State.tsTick (s : State) (j : Nat) : State :=
  let u : Int := 2 ^ 32 * 1000000
  let f : Int := s.rd (H.tsFrac j) + toInt 64 (s.rd (K.SEL_NCO j))
  (s.wr (H.tsNs j) ((s.rd (H.tsNs j) + 1000 : Int) + f / u).toNat).wr (H.tsFrac j) (f % u).toNat

end Sys2Proof.Machine
end

