-- ==== Sys2Proof/WellFormed.lean ====
section
/-! DEFINITION. Which commands are well formed: every operand fits the field or the object it stands for. An ill-formed command is no
command of the block; `exec` takes its operands modulo their widths. -/
namespace Sys2Proof

/-- Bytes. -/
def bytesOk (l : List Nat) : Bool := l.all (fun b => decide (b < 256))

/-- A datagram fits its header fields (R65) and comes from one of the three control ports (R62, R88). -/
def reqOk (q : Req) : Bool :=
  decide (q.port ≤ 2) && decide (q.addr < 2 ^ 128) && decide (q.udp < 2 ^ 16)
    && decide (q.dst < 2 ^ 128) && decide (q.dport < 2 ^ 16) && decide (q.magic < 2 ^ 16) && decide (q.gen < 256)
    && decide (q.flags < 256) && decide (q.session < 2 ^ 32) && decide (q.seq < 2 ^ 32) && decide (q.status < 256)
    && decide (q.len < 2 ^ 16) && bytesOk q.payload

/-- A burst of 1 to 16 beats of 64 bytes at a 40-bit address that 64 divides, of a tag 0 to 63; one to the frame store stays inside a
granule of 256 bytes, one to an on-chip target inside a page of 4 KiB (R217, R230, R232, R234). -/
def burstOk (b : Burst) : Bool :=
  let room (n : Nat) : Bool := decide (b.addr % n + 64 * b.beats.length ≤ n)
  decide (b.addr < 2 ^ 40) && decide (b.addr % 64 = 0) && decide (b.tag < 64) && decide (b.lock ≤ 2) && !b.beats.isEmpty
    && decide (b.beats.length ≤ 16)
    && (if b.addr < 0x800000000 then room 256 else if 0x1000000000 ≤ b.addr ∧ b.addr < 0x1030010000 then room 4096 else true)
    && (!b.write || b.beats.all (fun t => decide (t.1 < 2 ^ 64) && t.2.length == 64 && bytesOk t.2))

/-- A measurement of a frame with lines and a period (R136). -/
def measOk (m : Meas) : Bool := decide (m.active ≤ m.lines) && decide (0 < m.period)

/-- An ANC packet of 10-bit words with at most 255 user words (R140). -/
def ancOk (a : Anc) : Bool :=
  a.udw.all (fun w => decide (w < 1024)) && decide (a.udw.length ≤ 255) && decide (a.did < 1024) && decide (a.sdid < 1024)
    && decide (a.dc < 1024) && decide (a.cs < 1024) && (a.fault == 0 || a.fault == 3 || a.fault == 4)

/-- An audio packet of sample frames of four 24-bit values (R312). -/
def audioOk (p : AudioPkt) : Bool :=
  decide (p.group < 8) && decide (p.result ≤ 2) && p.frames.all (fun f => f.length == 4 && f.all (fun v => decide (v < 2 ^ 24)))

/-- Pixel words of 64 bits. -/
def wordsOk (l : List Nat) : Bool := l.all (fun w => decide (w < 2 ^ 64))

/-- What a plane did to a segment, if it delivered it (R22): changes of 64-bit beats. -/
def optWords : Option (List (Nat × Nat)) → Bool
  | none => true
  | some l => wordsOk (l.map Prod.snd)

/-- A well-formed command. -/
def Instr.wf (i : Instr) : Bool :=
  match i with
  | .hello q => reqOk q
  | .helloResume q => reqOk q
  | .auth q => reqOk q
  | .ping q => reqOk q
  | .bye q => reqOk q
  | .read q => reqOk q
  | .write q _ => reqOk q
  | .blockRead q => reqOk q
  | .blockWrite q _ => reqOk q
  | .commit q => reqOk q
  | .commitAt q => reqOk q
  | .commitAtTimeReached _ => true
  | .subscribe q => reqOk q
  | .unsubscribe q => reqOk q
  | .notify _ h => decide (h < 0xFFFF)
  | .notifyAck q => reqOk q
  | .notifyRetry _ seq => decide (seq < 2 ^ 32)
  | .sessionTimeout _ => true
  | .resumeWindowExpiry _ => true
  | .replayExpiry => true
  | .spiStatus => true
  | .spiWriteMsg l _ => bytesOk l
  | .spiReadMsg _ => true
  | .spiBadCommand => true
  | .latentDiscard q mask => reqOk q && decide (mask < 2 ^ 1728)
  | .slvCancel q _ x => reqOk q && decide (x < 256)
  | .salvoTrigger _ => true
  | .triggerHoldoffEnd _ => true
  | .developmentPoint _ => true
  | .gsynDevelopment _ _ => true
  | .gsynRateChange _ _ => true
  | .refSignalDetected _ _ _ _ den => decide (0 < den)
  | .refLossOfSignal _ => true
  | .qualTimeExpiry _ => true
  | .wtrExpiry _ => true
  | .refMeasurement offs => offs.length == 54
  | .selectorEvaluation _ _ => true
  | .lockHoldExpiry _ => true
  | .phaseMeasurement _ _ => true
  | .selModeWrite q _ v _ => reqOk q && decide (v < 256)
  | .ncoWrite q _ v => reqOk q && decide (v < 2 ^ 64)
  | .todSet q t => reqOk q && decide (t < 2 ^ 80)
  | .ptpSync _ _ _ _ => true
  | .ptpAnnounce _ _ _ _ _ _ _ _ _ _ _ _ => true
  | .ptpAnnounceTimeout _ => true
  | .ppsInEdge => true
  | .ppsOutSecond => true
  | .gsynBandSearch _ _ _ => true
  | .gsynLock _ _ _ => true
  | .gsynLol _ _ => true
  | .pllLol _ _ => true
  | .relock1 q _ => reqOk q
  | .relockTimeout _ => true
  | .relock2 q _ => reqOk q
  | .lolClear q => reqOk q
  | .slewDone _ => true
  | .rampRun q _ => reqOk q
  | .rampHold q _ => reqOk q
  | .rampReturn q _ => reqOk q
  | .rampSegmentEnd _ => true
  | .divsyncEdge moves => moves.length == 8
  | .outGeneratorStart _ _ => true
  | .switchLine _ _ => true
  | .lineStart _ _ _ _ => true
  | .frameDone _ => true
  | .irqAck q _ v => reqOk q && decide (v < 256)
  | .fetchCompletion _ _ => true
  | .rxEnergyPresent _ => true
  | .rxEnergyLost _ => true
  | .cdrLock _ _ => true
  | .cdrDwellExpiry _ => true
  | .cdrUnlock _ => true
  | .rateModeWrite q _ v => reqOk q && decide (v < 256)
  | .trsAligned _ _ _ _ => true
  | .rxFrameMeasured _ m => measOk m
  | .rxTrsLoss _ => true
  | .rxLine _ _ trs _ _ _ px => decide (trs < 16) && wordsOk px
  | .ancPacket _ a => ancOk a
  | .rxSwitchLineStamp _ _ _ => true
  | .rxIntervalLatch _ => true
  | .bracketSelect q _ v => reqOk q && decide (v < 256)
  | .bracketRevert _ => true
  | .bracketTakeover _ _ => true
  | .bracketRelease q _ => reqOk q
  | .slateInsert q _ => reqOk q
  | .slateRemove q _ => reqOk q
  | .slateAutoClear _ => true
  | .segmentReceived _ _ _ a b => optWords a && optWords b
  | .planeReturnFrame _ _ => true
  | .xbarRetest q v => reqOk q && decide (v < 256)
  | .burstGrant _ waiting => waiting.all burstOk
  | .burstCompletion _ _ => true
  | .lockTimeout _ => true
  | .masterDrain _ _ => true
  | .scrub _ _ _ => true
  | .pcFail _ _ _ => true
  | .pcRebuildDone _ _ => true
  | .mirrorSynced _ => true
  | .bufAlloc q _ => reqOk q
  | .bufStateWrite q _ v => reqOk q && decide (v < 256)
  | .bufForced q _ => reqOk q
  | .winDataRead q _ _ _ => reqOk q
  | .winDataWrite q _ _ _ bytes => reqOk q && bytesOk bytes
  | .canvasSwitchLine _ _ _ => true
  | .canvasDevelopment _ => true
  | .fenceDoneWrite q _ v => reqOk q && decide (v < 2 ^ 32)
  | .wbDone _ => true
  | .proofSignature _ => true
  | .proofLearn q _ => reqOk q
  | .frcSwitchLine _ _ => true
  | .frcDevelopment _ => true
  | .motionEstimation _ _ _ => true
  | .cadenceFrame _ _ _ => true
  | .audioPacket _ p => audioOk p
  | .channelAbsent _ _ => true
  | .audioSample _ _ => true
  | .asrcRecover _ => true
  | .audioSlewEnd _ => true
  | .nonpcmEnd _ _ => true
  | .nonpcmForcedSwitch _ => true
  | .cstGo q => reqOk q
  | .cstAbort q => reqOk q
  | .cstReserveWrite q v => reqOk q && decide (v < 2 ^ 32)
  | .cstLineComplete _ _ => true
  | .cstIrqAck q v => reqOk q && decide (v < 256)
  | .clusterFault _ _ => true
  | .lineWatchdogExpiry _ => true
  | .failover _ => true
  | .clustersRetest q p => reqOk q && decide (p < 256)
  | .retestDone _ _ => true
  | .selfTestDone _ _ => true
  | .rotationPeriod => true
  | .rotateNow q => reqOk q
  | .rotationCompare _ => true
  | .rotationMove _ => true
  | .mgmtFault => true
  | .mgmtWatchdogExpiry => true
  | .mgmtSwitchover => true
  | .mgmtForceSwitchover q => reqOk q
  | .powerOnReset _ => true
  | .pinReset => true
  | .warmReset q => reqOk q
  | .imageLoad _ _ version sec => decide (version < 2 ^ 32) && decide (sec < 2 ^ 16)
  | .domainEnable q _ => reqOk q
  | .domainDisable q _ => reqOk q
  | .forceOff q _ => reqOk q
  | .domainReady _ => true
  | .funcReady _ _ => true
  | .domainFault _ _ => true
  | .fwVerify q v => reqOk q && decide (v < 256)
  | .fwActivate q v _ version => reqOk q && decide (v < 256) && decide (version < 2 ^ 32)
  | .fwConfirm q => reqOk q
  | .flashErase q => reqOk q
  | .flashEraseDone => true
  | .flashDataWrite q v => reqOk q && decide (v < 2 ^ 8192)
  | .flashDataRead q => reqOk q
  | .negPostDone => true
  | .negRelease q => reqOk q
  | .negPrint q v => reqOk q && decide (v < 256)
  | .negPrintStart => true
  | .negPrinted _ => true
  | .pinFuncWrite q _ v => reqOk q && decide (v < 256)
  | .eventOutPulseEnd _ => true
  | .ctlLink _ _ => true
  | .statsClear q _ => reqOk q
  | .measuredClear q _ => reqOk q
  | .admCheck q mask => reqOk q && decide (mask < 2 ^ 1728)
  | .resetRelease => true
  | .domainOff _ => true
  | .fwVerifyDone _ version => decide (version < 2 ^ 32)
  | .ppsOutWidthEnd => true
  | .gpioInputLevel _ _ => true
  | .refPhaseEvent _ _ => true

end Sys2Proof
end

