-- ==== Sys2Proof/Machine/FrameStore.lean ====
section
/-! DEFINITION. The frame store and the memory bus matrix: address map, buffers, window, guard, bursts (spec/10, R213 to R239). -/
namespace Sys2Proof.Machine

/-! ## Address map (R214, R215, R217) -/

/-- A place in the BMX address space. -/
inductive Place where
  | buffer (stack off : Nat)
  | device (stack off : Nat)
  | scratch
  | dictionary
  | negative
  | fabric
  | none
deriving DecidableEq, Repr

/-- Base address of a stack. -/
def stackBase (st : Nat) : Nat := st * 0x400000000
/-- Bytes of buffer space of a stack. -/
def bufSpace : Nat := 0x3C0000000

/-- Where a BMX address lies (R217). -/
def place (a : Nat) : Place :=
  if a < 0x800000000 then
    let st := a / 0x400000000
    let off := a % 0x400000000
    if off < 0x3C0000000 then .buffer st off else if off < 0x3E0000000 then .device st off else .none
  else if 0x1000000000 ≤ a ∧ a < 0x1000400000 then .scratch
  else if 0x1010000000 ≤ a ∧ a < 0x1010200000 then .dictionary
  else if 0x1020000000 ≤ a ∧ a < 0x1020040000 then .negative
  else if 0x1030000000 ≤ a ∧ a < 0x1030010000 then .fabric
  else .none

/-- Slot (logical pseudo-channel) of a stack offset (R214). -/
def slotOf (off : Nat) : Nat := off / 256 % 31

/-- Physical pseudo-channel of a slot (FS.PCMAP). -/
def State.pcOf (s : State) (st sl : Nat) : Nat :=
  (bytesBE 32 (s.rd (if st = 0 then K.FS_PCMAP_S0 else K.FS_PCMAP_S1))).getD sl 0

/-- The paths of R231. -/
def pathOk (m : Nat) (p : Place) : Bool :=
  let mgmt := m == 0x71 || m == 0x72
  match p with
  | .buffer _ _ => decide (m ≤ 0x68) || decide (0x70 ≤ m ∧ m ≤ 0x73)
  | .device _ _ => (decide (0x60 ≤ m ∧ m ≤ 0x68)) || mgmt || m == 0x74 || m == 0x75
  | .scratch => m == 0x70 || mgmt || m == 0x73
  | .dictionary | .negative | .fabric => mgmt
  | .none => false

/-- Target port a master's address reaches: without a path the default target (R230, R231). -/
def State.targetOf (s : State) (m a : Nat) : Nat :=
  if !pathOk m (place a) then 0x4F else
  match place a with
  | .buffer st off => 32 * st + s.pcOf st (slotOf off)
  | .device st off => 32 * st + s.pcOf st (slotOf off)
  | .scratch => 0x40
  | .dictionary => 0x41
  | .negative => 0x42
  | .fabric => 0x43
  | .none => 0x4F

/-! ## Allocations -/

/-- An allocation: id (b buffer, 4096 + b its mirror, 8192 + i ring, 12288 + i its mirror), address, bytes. -/
abbrev Alloc := Nat × Nat × Nat

/-- The allocations a list of numbers holds. -/
def allocsOf : List Nat → List Alloc
  | i :: a :: n :: t => (i, a, n) :: allocsOf t
  | _ => []

/-- The frame store's allocations. -/
def State.allocs (s : State) : List Alloc := allocsOf (s.vec H.allocs)

/-- Set the allocations. -/
def State.setAllocs (s : State) (l : List Alloc) : State := s.setVec H.allocs (l.flatMap (fun p => [p.1, p.2.1, p.2.2]))

/-- Return the space of an allocation. -/
def State.release (s : State) (id : Nat) : State := s.setAllocs (s.allocs.filter (fun p => p.1 != id))

/-- The allocation an address lies in. -/
def State.allocAt (s : State) (a : Nat) : Option Alloc :=
  s.allocs.find? (fun p => decide (p.2.1 ≤ a) && decide (a < p.2.1 + p.2.2))

/-- Two ranges overlap. -/
def overlaps (a n b m : Nat) : Bool := decide (a < b + m) && decide (b < a + n)

/-- The lowest address of a stack that starts a free run of `n` bytes (R220); every allocation is whole pages, so a run starts at the
stack's base or where an allocation ends. -/
def lowestFit (l : List Alloc) (st n : Nat) : Option Nat :=
  let base := stackBase st
  let ok (c : Nat) : Bool := decide (base ≤ c) && decide (c + n ≤ base + bufSpace) && l.all (fun p => !overlaps c n p.2.1 p.2.2)
  ((base :: l.map (fun p => p.2.1 + p.2.2)).filter ok).foldl (fun m c => match m with | none => some c | some x => some (min x c)) none

/-- Bytes allocated on a stack. -/
def usedOn (l : List Alloc) (st : Nat) : Nat :=
  (l.filter (fun p => p.2.1 / 0x400000000 == st)).foldl (fun a p => a + p.2.2) 0

/-- Free buffer space of a stack. -/
def freeOn (l : List Alloc) (st : Nat) : Nat := bufSpace - usedOn l st

/-- The longest free run of a stack: from the base or an allocation's end up to the next allocation (FS.LARGEST). -/
def largestOn (l : List Alloc) (st : Nat) : Nat :=
  let base := stackBase st
  let here := l.filter (fun p => p.2.1 / 0x400000000 == st)
  let top (c : Nat) : Nat := here.foldl (fun m p => if c ≤ p.2.1 then min m p.2.1 else m) (base + bufSpace)
  let inside (c : Nat) : Bool := here.any (fun p => decide (p.2.1 ≤ c) && decide (c < p.2.1 + p.2.2))
  (base :: here.map (fun p => p.2.1 + p.2.2)).foldl (fun m c => if inside c then m else max m (top c - c)) 0

/-! ## Pixel formats (R218, R219) -/

/-- Twice the bytes per pixel of a format. -/
def bpp2 (f : Nat) : Nat :=
  match f with
  | 0 => 5 | 1 => 8 | 2 => 4 | 3 => 6 | 4 => 8 | _ => 2

/-- The minimum pitch: whole 64-byte units of a line (R219). -/
def minPitch (f w : Nat) : Nat := ceilDiv (w * bpp2 f) 128 * 64

/-- Bytes in whole pages. -/
def pages (n : Nat) : Nat := ceilDiv n 4096 * 4096

/-- The pitch in use: a written 0 is the minimum (R220). -/
def State.bufPitch (s : State) (b : Nat) : Nat :=
  let p := s.rd (K.BUF_PITCH b)
  if p = 0 then minPitch (s.rd (K.BUF_FORMAT b)) (s.rd (K.BUF_WIDTH b)) else p

/-- The bytes of a ring slot's picture and ANC area (R227): Q422 or Q444 in the active size. -/
def slotBytes (c sampling : Nat) : Nat :=
  match fmt c with
  | none => 0
  | some f => pages (minPitch (if sampling = 0 then 0 else 1) f.w * f.h) + 32768

/-- The mirror of an address, when its allocation has one that is in sync (R228). -/
def State.mirrorOf (s : State) (a : Nat) : Option Nat :=
  match s.allocAt a with
  | none => none
  | some p =>
    let want := if p.1 < 4096 then some (4096 + p.1) else if 8192 ≤ p.1 ∧ p.1 < 12288 then some (p.1 + 4096) else none
    match want with
    | none => none
    | some id => (s.allocs.find? (fun q => q.1 == id)).map (fun q => q.2.1 + (a - p.2.1))

/-- The mirror of an address is in sync, so reads may be reissued to it (R216, R228). -/
def State.mirrorSynced (s : State) (a : Nat) : Bool :=
  match s.allocAt a with
  | none => false
  | some p => if p.1 < 4096 then s.rd (K.BUF_MIRROR p.1) == 2 else if p.1 < 8192 then false else s.rd (K.RING_MIRROR (p.1 - 8192)) == 2

/-- The slot of a frame-store address, as stack and slot: of the buffer space and of the device region alike (R214). -/
def slotAtAddr (a : Nat) : Option (Nat × Nat) :=
  match place a with
  | .buffer st off => some (st, slotOf off)
  | .device st off => some (st, slotOf off)
  | _ => none

/-- An address whose slot has no pseudo-channel, or one in a group that is not READY and so not usable (R213, R229, log 73). -/
def State.deadAt (s : State) (x : Nat) : Bool :=
  match slotAtAddr x with
  | some (st, sl) => s.rd (H.slotDead (32 * st + sl)) == 1 || !s.pdReady (43 + 4 * st + s.pcOf st sl / 8)
  | none => false

/-- The slot of an address is not served by its own copy: it has none, is being rebuilt from the mirror, or has lost what no mirror keeps and
the unit has not been written since (R229). -/
def State.slotOut (s : State) (a : Nat) : Bool :=
  s.deadAt a || (match slotAtAddr a with
  | some (st, sl) =>
    if s.mirrorSynced a then s.rd (H.slotRebuild (32 * st + sl)) == 1
    else s.rd (H.slotLost (32 * st + sl)) == 1 && !(s.vec (H.slotHealed (32 * st + sl))).contains (a / 32)
  | none => false)

/-- A byte as a fetcher gets it: from its own copy, from the mirror where its slot is out, or FAULT (`none`) (R216, R229). -/
def State.fsByte (s : State) (a : Nat) : Option Nat :=
  if s.slotOut a then
    if s.mirrorSynced a then (s.mirrorOf a).map s.rdMem else none
  else if (s.vec H.eccBad).contains (a / 32) then none
  else some (s.rdMem a)

/-- A written unit of a slot that lost its content holds good data again (R229, log 74). -/
def State.heal (s : State) (x : Nat) : State :=
  match slotAtAddr x with
  | some (st, sl) =>
    let k := 32 * st + sl
    if s.rd (H.slotLost k) = 1 ∧ !(s.vec (H.slotHealed k)).contains (x / 32)
    then s.setVec (H.slotHealed k) (x / 32 :: s.vec (H.slotHealed k)) else s
  | none => s

/-- Write one byte; a slot without a pseudo-channel takes none (R229). -/
def State.putByte (s : State) (x v : Nat) : State := if s.deadAt x then s else (s.heal x).wrMem x v

/-- Write a byte to an address and its mirror (R228). -/
def State.fsWrite (s : State) (a v : Nat) : State :=
  match s.mirrorOf a with
  | none => s.putByte a v
  | some m => (s.putByte a v).putByte m v

/-- Write bytes from an address up. -/
def State.fsWrites (s : State) (a : Nat) : List Nat → State
  | [] => s
  | b :: t => (s.fsWrite a b).fsWrites (a + 1) t

/-! ## Buffers (R220 to R224) -/

/-- Move a buffer to a state, raising BUF_STATE; FREE returns its space, WRITING and FREE clear DAMAGED (R220, R221). -/
def State.bufMove (s : State) (b new : Nat) : State :=
  let old := s.rd (K.BUF_STATE b)
  if old = new then s else
  let s := (s.wr (K.BUF_STATE b) new).raise 0x5008 (0x6000 + b) b (old * 256 + new)
  if new = 0 then
    let s := (s.release b).release (4096 + b)
    let s : State := if s.rd (H.bufMin b) = 1 then s.wr (K.BUF_PITCH b) 0 else s
    let s := s.wr (K.BUF_STACK b) (s.rd (H.bufStk b))
    (s.wrs [(H.bufMin b, 0), (H.bufFree b, 0), (H.leaveCnt b, 0), (K.BUF_SIZE b, 0), (K.BUF_MIRROR b, 0), (K.BUF_DAMAGED b, 0),
      (K.BUF_REFCOUNT b, 0)]).clr (K.BUF_ADDR b) |>.clr (K.BUF_MIRROR_ADDR b)
  else if new = 1 then s.wr (K.BUF_DAMAGED b) 0
  else s

/-- A buffer whose last leaving reader's switch line has come retires (R221, R223). -/
def State.bufRetire (s : State) (b : Nat) : State :=
  if s.rd (K.BUF_STATE b) = 4 ∧ s.rd (H.leaveCnt b) = 0 ∧ s.rd (K.BUF_REFCOUNT b) = 0 then
    let s := (s.wr (K.BUF_RETIRE_TIME b) (ptime (s.tod + 999))).raise 0x5009 (0x6000 + b) b ((s.tod + 999) % 1000000000)
    s.bufMove b (if s.rd (K.BUF_AUTO_FREE b) = 1 ∨ s.rd (H.bufFree b) = 1 then 0 else 2)
  else s

/-- A reader's new state names the buffer and its old one did not (R221). -/
def State.refUp (s : State) (b : Nat) : State :=
  if 2048 ≤ b then s else
  let s := s.inc (K.BUF_REFCOUNT b) 1 (2 ^ 16)
  if s.rd (K.BUF_STATE b) = 2 ∨ s.rd (K.BUF_STATE b) = 4 then s.bufMove b 3 else s

/-- Reader `r` (an output, or 64 + e for a canvas) no longer names the buffer; it fetches from it up to its next switch line (R221). -/
def State.refDown (s : State) (r b : Nat) : State :=
  if 2048 ≤ b then s else
  let s := s.up (K.BUF_REFCOUNT b) (fun v => v - 1)
  let s := (s.setVec (H.outLeave r) (b :: s.vec (H.outLeave r))).inc (H.leaveCnt b) 1 (2 ^ 16)
  if s.rd (K.BUF_STATE b) = 3 ∧ s.rd (K.BUF_REFCOUNT b) = 0 then s.bufMove b 4 else s

/-- The end of the tick looks at some buffers (R224). -/
def State.retireLater (s : State) (l : List Nat) : State := if l = [] then s else s.setVec H.retire (s.vec H.retire ++ l)

/-- From the switch line of reader `r` a reference a forced free has cancelled no longer counts (R223). -/
def State.forcedLeave (s : State) (r : Nat) : State :=
  let l := s.vec (H.outForced r)
  (l.foldl (fun (t : State) b => t.up (K.BUF_REFCOUNT b) (fun v => v - 1)) (s.setVec (H.outForced r) [])).retireLater l

/-- The switch line of reader `r` ends its fetching from the buffers it left; a buffer nobody fetches from any more retires at the end of the
tick, after the development points of the tick (R221, R224). -/
def State.leaveAll (s : State) (r : Nat) : State :=
  let s := s.forcedLeave r
  let l := s.vec (H.outLeave r)
  (l.foldl (fun (t : State) b => t.up (H.leaveCnt b) (fun v => v - 1)) (s.setVec (H.outLeave r) [])).retireLater l

/-- The buffers whose last reader has left in this tick, and that nobody has taken up, retire (R224). -/
def State.retireAll (s : State) : State := (s.vec H.retire).foldl State.bufRetire (s.setVec H.retire [])

/-- The value an object will have once everything committed has developed (R47, R56). -/
def State.nextRd (s : State) (k : Nat) : Nat :=
  match s.com.find? (fun c => c.key == k) with
  | some c => c.val
  | none => s.rd k

/-- The places that name a buffer as a source (R221), each with the objects that decide: the last is the one that holds the buffer. 0 to 47
the route of an output, 48 to 95 its slate, 96 to 223 the picture of a layer, 224 to 351 its key plane. -/
def refKeys (i : Nat) : List Nat :=
  if i < 48 then [K.OUT_FORMAT i, K.OUT_ROUTE_SRC i, K.OUT_ROUTE_BUF i]
  else if i < 96 then [K.OUT_FORMAT (i - 48), K.OUT_SLATE_BUF (i - 48)]
  else if i < 224 then [K.LAYER_SRC_KIND (i - 96), K.LAYER_SRC_ID (i - 96)]
  else [K.LAYER_SRC_KIND (i - 224), K.LAYER_SRC_KEY (i - 224)]

/-- The buffer a place names by a view of the objects; an output of FORMAT 0 holds none (R155). -/
def refBuf (rd : Nat → Nat) (i : Nat) : Nat :=
  if i < 48 then (if rd (K.OUT_FORMAT i) = 0 ∨ rd (K.OUT_ROUTE_SRC i) ≠ 0xFE then 0xFFFF else rd (K.OUT_ROUTE_BUF i))
  else if i < 96 then (if rd (K.OUT_FORMAT (i - 48)) = 0 then 0xFFFF else rd (K.OUT_SLATE_BUF (i - 48)))
  else if i < 224 then (if rd (K.LAYER_SRC_KIND (i - 96)) = 1 then rd (K.LAYER_SRC_ID (i - 96)) else 0xFFFF)
  else if rd (K.LAYER_SRC_KIND (i - 224)) = 1 then rd (K.LAYER_SRC_KEY (i - 224)) else 0xFFFF

/-- The reader a place belongs to: an output, or 64 + e for a canvas. -/
def refReader (i : Nat) : Nat := if i < 48 then i else if i < 96 then i - 48 else if i < 224 then 64 + (i - 96) / 8 else 64 + (i - 224) / 8

/-- A cancelled reference to buffer b: b itself with the stack and the format its reader goes on holding bandwidth for, above the 16 bits a
write can reach (R223). -/
def State.cancelled (s : State) (b : Nat) : Nat := b + 65536 * (1 + s.rd (K.BUF_STACK b) % 2 + 2 * s.rd (K.BUF_FORMAT b))

/-- The places whose committed, not yet developed state names a buffer (R221). -/
def State.namers (s : State) (b : Nat) : List Nat :=
  if s.com = [] then [] else
  (List.range 352).filter (fun i => refBuf s.nextRd i == b && (refKeys i).any (fun k => s.com.any (fun c => c.key == k)))

/-- BUF[b].PENDING (R221). -/
def State.bufPending (s : State) (b : Nat) : Nat := (s.namers b).length

/-- A buffer is held while REFCOUNT or PENDING is above 0 (R222). -/
def State.bufHeld (s : State) (b : Nat) : Bool := decide (0 < s.rd (K.BUF_REFCOUNT b)) || decide (0 < s.bufPending b)

/-- A write of BUF[b].STATE with 0, 1 or 2 (R221, R222). -/
def bufStateWrite (b v : Nat) (s : State) : Ans :=
  let st := s.rd (K.BUF_STATE b)
  if v = st then ansOk s
  else if v = 2 then
    if st = 1 ∧ s.rd (K.BUF_WRITER b) = 0 then ansOk (s.bufMove b 2) else ansBusy s
  else if v = 1 then
    if st = 2 ∧ !s.bufHeld b ∧ s.rd (H.bufFree b) = 0 then ansOk (s.bufMove b 1) else ansBusy s
  else if (st = 1 ∨ st = 2) ∧ !s.bufHeld b ∧ s.rd (K.BUF_WRITER b) = 0 then ansOk (s.bufMove b 0)
  else if st = 4 ∧ s.bufPending b = 0 then ansOk (s.wr (H.bufFree b) 1)
  else ansBusy s

/-- Cancel the committed references to a buffer: each develops with black in its place (R223). -/
def State.cancelNamers (s : State) (b : Nat) : State :=
  (s.namers b).foldl (fun (t : State) i =>
    let k := (refKeys i).getLastD 0
    if t.com.any (fun c => c.key == k)
    then { t with com := t.com.map (fun c => if c.key = k then { c with val := s.cancelled b } else c) }
    -- the reference comes from a change beside it: the object joins that commit
    else match t.com.find? (fun c => (refKeys i).contains c.key) with
      | some c => { t with com := t.com ++ [⟨k, s.cancelled b, c.salvo, c.seq⟩] }
      | none => t) s

/-- Mark the developed references to a buffer as cancelled, so that each reader takes black, and stops counting, from its next switch line
(R223). -/
def State.cancelReaders (s : State) (b : Nat) : State :=
  s.upto 352 (fun i t =>
    let r := H.outForced (refReader i)
    if refBuf t.rd i = b then (t.wr ((refKeys i).getLastD 0) (s.cancelled b)).setVec r (b :: t.vec r) else t)

/-- A write of STATE 0x80 (R223): frees at once without readers, else retires with a pending free; BUF_FORCED. -/
def bufForceWrite (b : Nat) (s : State) : Ans :=
  let st := s.rd (K.BUF_STATE b)
  if st = 0 then ansOk s else
  let r := s.rd (K.BUF_REFCOUNT b)
  let s := (s.cancelNamers b).raise 0x500A (0x6000 + b) b r
  if r = 0 then
    -- whoever is still leaving it has nothing left to wait for
    ansOk ((s.upto 80 (fun r t => t.setVec (H.outLeave r) ((t.vec (H.outLeave r)).filter (· != b)))).bufMove b 0)
  else
    ansOk ((s.wr (H.bufFree b) 1).cancelReaders b |>.bufMove b 4)

/-- All groups of a stack are READY, so that it is usable (R213). -/
def State.stackReady (s : State) (st : Nat) : Bool := (List.range 4).all (fun y => s.pdReady (43 + 4 * st + y))

/-- The geometry of a FREE buffer breaks R219: an odd width of Q422, or a pitch below the minimum. -/
def State.geomBad (s : State) (b : Nat) : Bool :=
  let f := s.rd (K.BUF_FORMAT b)
  let w := s.rd (K.BUF_WIDTH b)
  let p := s.rd (K.BUF_PITCH b)
  (f == 0 && w % 2 == 1) || (p != 0 && decide (p < minPitch f w))

/-- A write of ALLOC (R220): the buffer at the lowest fitting address of its stack, with its mirror when PROTECT is ALWAYS. A stack that is
not usable has no free run, and a geometry that breaks R219 answers RANGE (R213, R219, log 73, 75). -/
def bufAllocWrite (b : Nat) (s : State) : Ans :=
  if s.rd (K.BUF_STATE b) ≠ 0 then ansBusy s else
  if s.geomBad b then ansRange s else
  let pitch := s.bufPitch b
  let size := pages (pitch * s.rd (K.BUF_HEIGHT b))
  let want := s.rd (K.BUF_STACK b)
  let l := s.allocs
  let free (q : Nat) : Nat := if s.stackReady q then freeOn l q else 0
  let st := if want = 2 then (if free 0 < free 1 then 1 else 0) else want
  let always := s.rd (K.BUF_PROTECT b) == 2
  let fit (q : Nat) : Option Nat := if s.stackReady q then lowestFit l q size else none
  let fail := ansBusy (s.raise 0x500B (0x6000 + b) b (if s.stackReady st then largestOn l st / 4096 else 0))
  match fit st with
  | none => fail
  | some a =>
    let m := if always then fit (1 - st) else none
    if always ∧ m = none then fail else
    let s := s.setAllocs (l ++ [(b, a, size)] ++ (match m with | some x => [(4096 + b, x, size)] | none => []))
    let s : State := if s.rd (K.BUF_PITCH b) = 0 then s.wr (H.bufMin b) 1 else s
    let s := s.wrs [(K.BUF_ALLOC b, 1), (H.bufStk b, want), (K.BUF_PITCH b, pitch), (K.BUF_STACK b, st), (K.BUF_ADDR b, a),
      (K.BUF_SIZE b, size), (K.BUF_REFCOUNT b, 0), (H.bufFree b, 0)]
    let s : State := match m with
      | some x => s.wrs [(K.BUF_MIRROR b, 1), (K.BUF_MIRROR_ADDR b, x)]
      | none => s
    ansOk ((s.inc K.COMMIT_NEXT_SEQ 1 (2 ^ 32)).bufMove b 1)

/-- A write of a buffer's geometry: BUSY unless FREE, RANGE where it breaks R219; the default is always accepted (R39, R220, log 75). -/
def bufGeomWrite (b key v : Nat) (s : State) : Ans :=
  if s.rd (K.BUF_STATE b) ≠ 0 then ansBusy s
  else if v ≠ dflt key ∧ (s.wr key v).geomBad b then ansRange s else ansOk (s.wr key v)

/-! ## Scan guard (R225) and host window (R226) -/

/-- The allocation of a guarded range a write of `n` bytes touches: a ring or its mirror, a buffer in SCANNING or RETIRING or its
mirror. -/
def State.guardHit (s : State) (a n : Nat) : Option Alloc :=
  s.allocs.find? (fun p => overlaps a n p.2.1 p.2.2 &&
    (if p.1 < 4096 then decide (3 ≤ s.rd (K.BUF_STATE p.1))
     else if p.1 < 8192 then decide (3 ≤ s.rd (K.BUF_STATE (p.1 - 4096))) else true))

/-- Count and report a hit of the scan guard; the second component says whether the write is blocked. -/
def State.guarded (s : State) (m a : Nat) (p : Alloc) : State × Bool :=
  let ring := decide (8192 ≤ p.1)
  let id := if ring then 0x8000 + p.1 % 4096 else p.1 % 4096
  let src := if ring then 0x6840 + p.1 % 4096 else 0x6000 + p.1 % 4096
  let pol := s.rd K.FS_GUARD_POLICY
  let s := (s.incSat K.BMX_GUARD_HITS 1 0xFFFFFFFF).raise 0x500C src (pol * 2 ^ 31 + m * 65536 + id) (a / 256)
  (s, ring || pol == 0)

/-- BMX master of the active management pair. -/
def State.mgmtMaster (s : State) : Nat := if s.rd K.MGMT_ACTIVE = 1 then 0x72 else 0x71

/-- Address of unit k of the window. -/
def State.winAddr (s : State) (k : Nat) : Nat := s.rd K.WIN_ADDR + 32 * (k - 1)

/-- Every unit from `first` to `last` lies in a buffer that is not FREE (R226). -/
def State.winInside (s : State) (first last : Nat) : Bool :=
  (List.range (last + 1 - first)).all (fun i =>
    match s.allocAt (s.winAddr (first + i)) with
    | some p => decide (p.1 < 2048) && decide (s.winAddr (first + i) + 32 ≤ p.2.1 + p.2.2)
    | none => false)

/-- The buffer an address lies in, its mirror counting as it: its number, 0xFFFF none. -/
def State.ownerBuf (s : State) (a : Nat) : Nat :=
  match s.allocAt a with
  | some p => if p.1 < 8192 then p.1 % 4096 else 0xFFFF
  | none => 0xFFFF

/-- A read that got FAULT marks its buffer (R216, R229). -/
def State.damage (s : State) (a : Nat) : State := if s.ownerBuf a = 0xFFFF then s else s.wr (K.BUF_DAMAGED (s.ownerBuf a)) 1

/-- Check a window access: RANGE outside buffers, BUSY where the guard blocks a write; the guard reports its hits. A unit that no copy serves
reads as zeros and marks its buffer (R225, R226, R229, R232, log 74). -/
def winCheck (first last : Nat) (write : Bool) (s : State) : Ans :=
  if !s.winInside first last then ansRange s else
  if !write then ansOk ((List.range (last + 1 - first)).foldl (fun (t : State) i =>
    if (t.fsByte (t.winAddr (first + i))).isNone then t.damage (t.winAddr (first + i)) else t) s) else
  let r := (List.range (last + 1 - first)).foldl (fun (acc : State × Bool) i =>
    let a := s.winAddr (first + i)
    match s.guardHit a 32 with
    | some p => let g := acc.1.guarded s.mgmtMaster a p; (g.1, acc.2 || g.2)
    | none => acc) (s, false)
  if r.2 then ansBusy r.1 else ansOk r.1

/-- A byte as a fetcher delivers it; a read that gets FAULT delivers zeros (R232). -/
def State.fetchByte (s : State) (a : Nat) : Nat := (s.fsByte a).getD 0

/-- The 32 bytes of unit k of the window, as the number they spell. -/
def State.winGet (s : State) (k : Nat) : Nat := ofBytes ((List.range 32).map (fun i => s.fetchByte (s.winAddr k + i)))

/-- Write unit k of the window. -/
def State.winPut (s : State) (k v : Nat) : State := s.fsWrites (s.winAddr k) (bytesBE 32 v)

/-- A block access that includes member 0x28 advances the window (R226). -/
def State.winAdvance (s : State) (first last : Nat) : State :=
  if s.rd K.WIN_AUTO_INC = 1 ∧ first ≤ 0x28 ∧ 0x28 ≤ last then s.inc K.WIN_ADDR 1280 (2 ^ 64) else s

/-! ## Bursts (R230 to R236) -/

/-- Record a burst in the error log (R238). -/
def State.errLog (s : State) (m t code written beats a : Nat) : State :=
  let e := packBE 8 (bytesBE 10 s.todP ++ [m, t, code, written, beats, 0] ++ bytesBE 5 a ++ [0, 0, 0])
  let h := s.rd K.ERRLOG_HEAD
  (s.wr (K.ERRLOG_ENTRY (h % 16)) e).inc K.ERRLOG_HEAD 1 (2 ^ 32)

/-- The Copy Stand's bucket of the stack a burst goes to, as its register; `none` for any other burst (R343). -/
def cstBucketOf (b : Burst) : Option Nat :=
  match b.master == 0x70, place b.addr with
  | true, .buffer st _ => some (H.cstBucket st)
  | _, _ => none

/-- The bucket does not hold the beats of a burst of the Copy Stand, or is suspended, and the burst waits for the idle level (R343, R355). -/
def State.bucketEmpty (s : State) (b : Burst) : Bool :=
  (cstBucketOf b).any (fun k => decide (s.rd k < 64 * b.beats.length) || s.rd (H.overLoad (k - H.cstBucket 0)) == 1)

/-- The bytes of a granted burst of the Copy Stand leave the bucket (R343). -/
def State.bucketTake (s : State) (b : Burst) : State :=
  match cstBucketOf b with
  | some k => s.up k (fun v => v - 64 * b.beats.length)
  | none => s

/-- The requests a list of numbers holds: master, tag, address and class. -/
def waitsOf : List Nat → List (Nat × Nat × Nat × Nat)
  | m :: g :: a :: c :: t => (m, g, a, c) :: waitsOf t
  | _ => []

/-- The escalation class a request was made with: as it was first seen, and the fetcher's present one for a new request (R233). -/
def State.burstClass (s : State) (t : Nat) (b : Burst) : Nat :=
  match (waitsOf (s.vec (H.waits t))).find? (fun w => w.1 == b.master && w.2.1 == b.tag && w.2.2.1 == b.addr) with
  | some w => w.2.2.2
  | none => if 0x30 ≤ b.master ∧ b.master < 0x60 then s.rd (K.OUT_FETCH_CLASS (b.master - 0x30)) else 0

/-- What waits at a target is remembered with its class. -/
def State.burstWaits (s : State) (t : Nat) (l : List Burst) : State :=
  s.setVec (H.waits t) (l.flatMap (fun b => [b.master, b.tag, b.addr, s.burstClass t b]))

/-- Level of a request at its target (R233), plus 1: 0 is the Test Strip's and the idle level. -/
def State.burstLevel (s : State) (b : Burst) : Nat :=
  let cls := s.burstClass (s.targetOf b.master b.addr) b
  if b.master = 0x73 ∨ s.bucketEmpty b then 0
  else if cls = 2 then 18 else if cls = 1 then 17
  else
    let sh := match place b.addr with
      | .scratch => 4 | .dictionary => 8 | .negative => 12 | .fabric => 16 | _ => 0
    1 + s.rd (K.PRIO b.master) / 2 ^ sh % 16

/-- A request may leave for its target: it is a burst, its port drains nothing, no burst of its stream is outstanding or waits at another
target (R234, R236), and the lock there is its master's or nobody's (R235). -/
def State.burstReady (s : State) (t : Nat) (b : Burst) : Bool :=
  Sys2Proof.burstOk b && s.targetOf b.master b.addr == t && s.rd (K.PORT_STATE b.master) != 2
  && s.bursts.all (fun f => f.b.master != b.master || f.b.tag != b.tag || f.target == t)
  && (List.range 80).all (fun u => u == t || (waitsOf (s.vec (H.waits u))).all (fun w => w.1 != b.master || w.2.1 != b.tag))
  && (s.rd (H.lockBy t) == 0 || (s.rd (H.lockBy t) == b.master + 1 && (s.rd (H.lockClose t) == 0 || b.lock != 1)))

/-- No request of the same stream waits before a request (R234). -/
def streamFirst (l : List Burst) (b : Burst) : Bool := l.find? (fun x => x.master == b.master && x.tag == b.tag) == some b

/-- How many master IDs after the last one granted a master stands, `last` being one more than that one's: the next is 0 (R233). -/
def turn (last m : Nat) : Nat := (m + 128 - last) % 128

/-- The request a target port grants: the highest level, in turn among equals, the first of its stream (R233, R234). -/
def State.winner (s : State) (t : Nat) (l : List Burst) : Option Burst :=
  let last := s.rd (H.lastGrant t)
  let key (b : Burst) : Nat := s.burstLevel b * 256 + (255 - turn last b.master)
  (l.filter (fun b => s.burstReady t b && streamFirst l b)).foldl (fun m b => match m with
    | none => some b
    | some x => if key x < key b then some b else some x) none

/-- The 32-byte units of a burst. -/
def burstUnits (b : Burst) : List Nat := (List.range (2 * b.beats.length)).map (fun i => b.addr + 32 * i)

/-- A unit of a burst has no copy that serves it (R229). -/
def State.burstLost (s : State) (b : Burst) : Bool := (burstUnits b).any (fun a => s.slotOut a && !s.mirrorSynced a)

/-- Completion code of a burst at its address phase, and the state after it: path, lock rules, scan guard, slots without a
pseudo-channel (R225, R229, R231, R232, R235). -/
def State.addressPhase (s : State) (t : Nat) (b : Burst) : State × Nat :=
  let p := place b.addr
  let mgmt := b.master == 0x71 || b.master == 0x72
  let onchip := decide (0x40 ≤ t) && decide (t ≤ 0x43)
  if !pathOk b.master p then (s, 3)
  else if mgmt && b.lock == 1 && !onchip then (s, 2)
  else if s.rd (H.lockBroken (b.master * 128 + t)) = 1 then (s.wr (H.lockBroken (b.master * 128 + t)) 0, 2)
  else
    let locked := s.rd (H.lockBy t) == b.master + 1 && s.rd (H.lockClose t) == 0
    -- the lock ends when the closing burst, or the 17th, completes
    let s : State := if mgmt && b.lock == 1 && onchip && !locked then
        s.wrs [(H.lockBy t, b.master + 1), (H.lockCnt t, 1), (H.lockDone t, 0), (H.lockClose t, 0), (H.lockEnd t, s.now + s.rd K.BMX_LOCK_TIMEOUT)]
      else if locked then s.inc (H.lockCnt t) 1 256 else s
    let tooLong := locked && decide (16 < s.rd (H.lockCnt t))
    let s : State := if tooLong || (locked && b.lock == 2) then s.wr (H.lockClose t) 1 else s
    if tooLong then (s, 2)
    else
      match p with
      | .buffer st off =>
        let guardMaster := decide (0x70 ≤ b.master) && decide (b.master ≤ 0x73)
        let exempt (q : Alloc) : Bool := b.master == 0x70 && s.rd H.cstExempt == q.1 % 4096 + 1 && decide (q.1 < 8192)
        if b.write && guardMaster then
          match s.guardHit b.addr (64 * b.beats.length) with
          | some q =>
            if exempt q then (s, 0) else
            let g := s.guarded b.master b.addr q
            (g.1, if g.2 then 1 else 0)
          | none => (s, 0)
        else if !b.write && s.burstLost b then (s, 2)
        else
          let _ := st + off
          (s, 0)
      | _ => if !b.write && s.burstLost b then (s, 2) else (s, 0)

/-- Ports of a master: a granted burst makes it ACTIVE (R238). -/
def State.portGrant (s : State) (m : Nat) : State :=
  (s.wr (K.PORT_STATE m) 1).inc (K.PORT_OUTSTANDING m) 1 256

/-- BURST_GRANT: target port `t` grants one of the bursts waiting at it (R233 to R235). -/
def execBurstGrant (t : Nat) (waiting : List Burst) (s : State) : Host.Outcome State Fault Refusal :=
  match s.winner t waiting with
  | none => .next (s.burstWaits t waiting)
  | some b =>
    let r := (s.burstWaits t (waiting.erase b)).addressPhase t b
    let s := ((r.1.wr (H.lastGrant t) (b.master + 1)).portGrant b.master).bucketTake b
    .next { s with bursts := s.bursts ++ [⟨b, t, r.2⟩] }

/-- Write the first `n` beats of a burst, byte by byte under their masks (R232). -/
def State.writeBeats (s : State) (a : Nat) : List (Nat × List Nat) → Nat → State
  | _, 0 => s
  | [], _ => s
  | (mask, data) :: t, n + 1 =>
    let s := (List.range 64).foldl (fun u i => if mask.testBit i then u.fsWrite (a + i) (data.getD i 0) else u) s
    s.writeBeats (a + 64) t n

/-- A master's port has one burst fewer in flight. -/
def State.portClose (s : State) (m : Nat) : State :=
  let s := s.up (K.PORT_OUTSTANDING m) (fun v => v - 1)
  if s.rd (K.PORT_OUTSTANDING m) = 0 ∧ s.rd (K.PORT_STATE m) = 1 then s.wr (K.PORT_STATE m) 0 else s

/-- An allocation touches a slot of its stack (R214). -/
def touches (p : Alloc) (sl : Nat) : Bool :=
  let g := p.2.1 % 0x400000000 / 256
  decide (7936 ≤ p.2.2) || (List.range (ceilDiv p.2.2 256)).any (fun k => (g + k) % 31 == sl)

/-- MIRROR of a mirrored allocation, by the id of its mirror. -/
def mirrorKey (id : Nat) : Nat := if id < 8192 then K.BUF_MIRROR (id - 4096) else K.RING_MIRROR (id - 12288)

/-- What a mirror event names: source and argument of buffer or ring, by the id of its mirror. -/
def mirrorSrc (id : Nat) : Nat × Nat := if id < 8192 then (0x6000 + (id - 4096), id - 4096) else (0x6840 + (id - 12288), 0x8000 + (id - 12288))

/-- The mirrors that lie on a slot of a stack. -/
def State.mirrorsOn (s : State) (st sl : Nat) : List Alloc :=
  s.allocs.filter (fun p => (decide (4096 ≤ p.1 ∧ p.1 < 8192) || decide (12288 ≤ p.1)) && p.2.1 / 0x400000000 == st && touches p sl)

/-- The admission limits by the usable slots of each stack (R202). -/
def State.limitSync (s : State) : State :=
  let lim (u : Nat) : Nat := if 31 ≤ u then 500000 else 16128 * u
  let a := lim (s.rd K.FS_USABLE_S0)
  let b := lim (s.rd K.FS_USABLE_S1)
  s.wrs [(K.ADM_LIMIT_S0, a), (K.ADM_LIMIT_S1, b), (K.ADM_LIMIT_TOTAL, min 1000000 (a + b))]

/-- FS.PCMAP of a stack. -/
def pcmapKey (st : Nat) : Nat := if st = 0 then K.FS_PCMAP_S0 else K.FS_PCMAP_S1

/-- Put a physical pseudo-channel, or 0xFF, into a byte of a stack's map. -/
def State.pcmapPut (s : State) (st i q : Nat) : State :=
  s.up (pcmapKey st) (fun v => packBE 8 ((bytesBE 32 v).set i q))

/-- The Test Strip works (R359). -/
def State.tstripOn (s : State) : Bool := s.rd K.TSTRIP_ENABLE == 1 && s.pdReady 54

/-- The Test Strip works and no stack is above a reduced limit, which suspends everything but its rebuilds (R355, R359). -/
def State.tstripFree (s : State) : Bool := s.tstripOn && s.rd (H.overLoad 0) == 0 && s.rd (H.overLoad 1) == 0

/-- The bytes listed in a slot that no mirror keeps are lost: each becomes a value nothing fixes (R229; log 2, 32). -/
def State.slotLose (s : State) (st sl : Nat) : State :=
  s.mem.foldl (fun (t : State) c =>
    match place c.1 with
    | .buffer q off => if q = st ∧ slotOf off = sl ∧ (s.mirrorOf c.1).isNone ∧
        !(s.allocAt c.1).any (fun p => decide (4096 ≤ p.1 ∧ p.1 < 8192) || decide (12288 ≤ p.1))
      then (t.wrMem c.1 (t.free % 256)).tick1 else t
    | _ => t) s

/-- A pseudo-channel fails (R229): reads of its slot go to mirrors; the slot moves to the spare, or has none. -/
def State.pcFail (s : State) (st q : Nat) : State :=
  if s.rd (H.pcFailed (32 * st + q)) = 1 then s else
  let s := s.wr (H.pcFailed (32 * st + q)) 1
  let map := bytesBE 32 (s.rd (pcmapKey st))
  let spare := map.getD 31 0xFF
  let arg := st * 256 + q
  if spare = q then (s.pcmapPut st 31 0xFF).raise 0x5003 0x6800 arg 0xFF else
  match (List.range 31).find? (fun i => map.getD i 0xFF == q && s.rd (H.slotDead (32 * st + i)) == 0) with
  | none => s.raise 0x5003 0x6800 arg 0xFF
  | some sl =>
    let s := (((s.raise 0x5003 0x6800 arg sl).slotLose st sl).wr (H.slotLost (32 * st + sl)) 1).setVec (H.slotHealed (32 * st + sl)) []
    if spare ≠ 0xFF then
      let s := ((s.pcmapPut st sl spare).pcmapPut st 31 0xFF).wr (H.slotRebuild (32 * st + sl)) 1
      let s := s.raise 0x5004 0x6800 (st * 256 + sl) spare
      let s : State := if s.tstripOn then s.raise 0x700E 0x1A04 1 0 else s
      -- a mirror that lies on the slot is rebuilt from its range
      (s.mirrorsOn st sl).foldl (fun (t : State) p => if t.rd (mirrorKey p.1) = 2 then t.wr (mirrorKey p.1) 1 else t) s
    else
      let s := (s.wr (H.slotDead (32 * st + sl)) 1).wr (H.slotRebuild (32 * st + sl)) 0
      let s := (s.up (if st = 0 then K.FS_USABLE_S0 else K.FS_USABLE_S1) (fun u => u - 1)).limitSync
      let s := s.raise 0x5005 0x6800 st (s.rd (if st = 0 then K.FS_USABLE_S0 else K.FS_USABLE_S1))
      (s.mirrorsOn st sl).foldl (fun (t : State) p =>
        let k := mirrorKey p.1
        if t.rd k = 0 ∨ t.rd k = 3 then t else (t.wr k 3).raise 0x5007 (mirrorSrc p.1).1 (mirrorSrc p.1).2 st) s

/-- An uncorrectable unit counts against its pseudo-channel, which fails at PC_FAIL_LIMIT within a second (R347). -/
def State.pcError (s : State) (st sl : Nat) : State :=
  let q := s.pcOf st sl
  let l := s.now :: (s.vec (H.pcErr (32 * st + q))).filter (fun t => s.now < t + 1000000)
  let s := s.setVec (H.pcErr (32 * st + q)) l
  if l.length < s.rd K.PROT_PC_FAIL_LIMIT then s else (s.setVec (H.pcErr (32 * st + q)) []).pcFail st q

/-- A unit that is read well again is no longer bad. -/
def State.eccGood (s : State) (a : Nat) : State :=
  if (s.vec H.eccBad).contains (a / 32) then s.setVec H.eccBad ((s.vec H.eccBad).filter (· != a / 32)) else s

/-- What the check bits of a unit of the frame store show at a read (R216): 0 clean, 1 corrected, 2 uncorrectable; the second component is
the completion code. -/
def State.eccRead (s : State) (m a ecc : Nat) : State × Nat :=
  match slotAtAddr a with
  | some (st, sl) =>
    if ecc = 1 then
      (((s.eccGood a).inc K.FS_ECC_CORRECTED 1 (2 ^ 64)).raiseLim 0 0x5001 0x6800 (fun c => (st * 256 + sl, c)), 0)
    else if ecc = 2 then
      let s := s.inc K.FS_ECC_UNCORRECTABLE 1 (2 ^ 64)
      let b := s.ownerBuf a
      if s.mirrorSynced a then ((s.raise 0x5002 0x6800 (2 ^ 31 + m * 65536 + b) (a / 256)).pcError st sl, 0)
      else
        let s := (s.damage a).setVec H.eccBad (a / 32 :: (s.vec H.eccBad).filter (· != a / 32))
        ((s.raise 0x5002 0x6800 (m * 65536 + b) (a / 256)).pcError st sl, 2)
    else (s.eccGood a, 0)
  | none => (s, 0)

/-- The units of a read, each with what its check bits show; the code is that of the worst. -/
def State.eccReads (s : State) (m : Nat) : List Nat → List Nat → State × Nat
  | [], _ => (s, 0)
  | a :: t, ecc =>
    let r := s.eccRead m a (ecc.headD 0)
    let q := r.1.eccReads m t ecc.tail
    (q.1, max r.2 q.2)

/-- The completion of a burst of the master that holds the lock at a target: counted, and the lock ends with the burst that closes it
(R235). -/
def State.lockEnds (s : State) (t : Nat) (f : Flight) : State :=
  if s.rd (H.lockBy t) ≠ f.b.master + 1 then s
  else if s.rd (H.lockClose t) = 1 ∧ (f.b.lock = 2 ∨ f.code = 2) then s.wrs [(H.lockBy t, 0), (H.lockCnt t, 0), (H.lockClose t, 0)]
  else s.inc (H.lockDone t) 1 256

/-- BURST_COMPLETION: target `t` closes its oldest burst with exactly one code (R216, R232); `ecc` is what a read's check bits show, unit by
unit. -/
def execBurstCompletion (t : Nat) (ecc : List Nat) (s : State) : Host.Outcome State Fault Refusal :=
  match s.bursts.find? (fun f => f.target == t) with
  | none => .next s
  | some f =>
    let s := (({ s with bursts := s.bursts.erase f } : State).portClose f.b.master).lockEnds t f
    let n := f.b.beats.length
    let r := if f.code = 0 ∧ !f.b.write then s.eccReads f.b.master (burstUnits f.b) ecc else (s, f.code)
    let s := r.1
    let code := r.2
    let s : State := if code = 0 then
        if f.b.write then s.writeBeats f.b.addr f.b.beats n
        else s.setVec (H.busData f.b.master) ((List.range (64 * n)).map (fun i => s.fetchByte (f.b.addr + i)))
      else if f.b.write then s else s.setVec (H.busData f.b.master) (List.replicate (64 * n) 0)
    -- a read of a slot without a copy marks its buffer (R229)
    let s : State := if f.code = 2 ∧ !f.b.write ∧ s.burstLost f.b then s.damage f.b.addr else s
    let s : State := if code = 0 then s else s.errLog f.b.master t code 0 n f.b.addr
    .next (if code = 3 then (s.incSat K.BMX_NOMAP 1 0xFFFFFFFF).raise 0x500D 0xE000 (f.b.master * 256 + t) (f.b.addr / 256) else s)

/-- A grant that may be of the burst that closes master m's lock at a target. -/
def closesLock (t m : Nat) : Instr → Bool
  | .burstGrant u l => u == t && l.any (fun b => b.master == m && b.lock == 2)
  | _ => false

/-- LOCK_TIMEOUT: a lock whose CLOSE_LOCK is not granted within the limit, this tick included, ends; its master's next burst there gets FAULT
(R98, R235). -/
def execLockTimeout (t : Nat) (s : State) : Host.Outcome State Fault Refusal :=
  let h := s.rd (H.lockBy t)
  let m := h - 1
  if h = 0 ∨ s.rd (H.lockClose t) = 1 ∨ s.now < s.rd (H.lockEnd t) ∨ s.arrives (closesLock t m) then .next s else
  let n := s.rd (H.lockDone t)
  let s := (s.wrs [(H.lockBy t, 0), (H.lockCnt t, 0), (H.lockBroken (m * 128 + t), 1)]).incSat K.BMX_LOCK_TIMEOUTS 1 0xFFFFFFFF
  .next (s.raise 0x500E 0xE000 (m * 256 + t) n)

/-- The locks a master holds are released (R236). -/
def State.unlock (s : State) (m : Nat) : State :=
  s.upto 4 (fun i t => if t.rd (H.lockBy (0x40 + i)) = m + 1
    then t.wrs [(H.lockBy (0x40 + i), 0), (H.lockCnt (0x40 + i), 0), (H.lockClose (0x40 + i), 0)] else t)

/-- A master is reset: its port drains what it has begun; with nothing begun its lock is released at once (R236). -/
def State.portReset (s : State) (m : Nat) : State :=
  if s.bursts.any (fun f => f.b.master == m) then s.wr (K.PORT_STATE m) 2
  else (s.unlock m).wrs [(K.PORT_STATE m, 3), (K.PORT_OUTSTANDING m, 0), (K.PORT_LAST_DRAIN m, s.todP)]

/-- The drains of a port end (R236): accepted beats are written, the others have their strobes off; DRAIN_DONE. `accepted` gives the
beats the port had taken of each outstanding burst, oldest first. -/
def State.drain (s : State) (m : Nat) (accepted : List Nat) : State :=
  if s.rd (K.PORT_STATE m) ≠ 2 then s else
  let mine := s.bursts.filter (fun f => f.b.master == m)
  let s : State := { s with bursts := s.bursts.filter (fun f => f.b.master != m) }
  let s := (mine.zip (List.range mine.length)).foldl (fun (t : State) p =>
    let f := p.1
    let n := f.b.beats.length
    let w := if f.b.write then min n (accepted.getD p.2 0) else 0
    let t : State := if f.code = 0 then t.writeBeats f.b.addr f.b.beats w else t
    let t := (t.errLog m f.target 4 w n f.b.addr).incSat K.BMX_DRAINS 1 0xFFFFFFFF
    t.raise 0x500F 0xE000 (m * 2 ^ 24 + f.target * 65536 + w * 256 + n) (f.b.addr / 256)) s
  (s.unlock m).wrs [(K.PORT_STATE m, 3), (K.PORT_OUTSTANDING m, 0), (K.PORT_LAST_DRAIN m, s.todP)]

/-- PC_FAIL: a pseudo-channel fails; `test` is the Test Strip's test that found it, if one did (R229, R347, R359). -/
def pcFailure (st : Fin 2) (q : Fin 32) (test : Option Nat) (s : State) : State :=
  let s : State := match test with
    | some t => s.raise 0x700D 0x1A04 (0x100 + 32 * st.val + q.val) t
    | none => s
  s.pcFail st.val q.val

/-- PC_REBUILD_DONE: the mirrored granules of a spared slot are rebuilt (R229, R354). -/
def pcRebuilt (st : Fin 2) (sl : Fin 31) (s : State) : State :=
  let k := H.slotRebuild (32 * st.val + sl.val)
  if s.rd k = 0 then s else
  let s := s.wr k 0
  (s.mirrorsOn st.val sl.val).foldl (fun (t : State) p =>
    -- a mirror on several rebuilt slots waits for the last one
    let more := (List.range 31).any (fun i => t.rd (H.slotRebuild (32 * st.val + i)) == 1 && touches p i)
    if t.rd (mirrorKey p.1) = 1 ∧ !more ∧ !(12288 ≤ p.1 ∧ t.rd (H.ringSince (p.1 - 12288)) < 3) then
      (t.wr (mirrorKey p.1) 2).raise 0x5006 (mirrorSrc p.1).1 (mirrorSrc p.1).2 (min p.2.2 0xFFFFFFFF)
    else t) s

/-- SCRUB: the scrubber reads the next unit, at a stack offset, and writes it back if it corrects it (R216). -/
def execScrub (st : Fin 2) (off ecc : Nat) (s : State) : Host.Outcome State Fault Refusal :=
  let a := stackBase st.val + off
  let r := s.eccRead 0x73 a ecc
  .next (r.1.wr H.scrubPos (off + 32))

/-- MIRROR_SYNCED: the background copy of a buffer's mirror ends (id b), or a ring's mirror has held 3 input frames (id 0x8000 | i)
(R228). -/
def mirrorSynced' (id : Nat) (s : State) : Host.Outcome State Fault Refusal :=
  if id < 2048 then
    if s.rd (K.BUF_MIRROR id) ≠ 1 then .next s else
    let n := s.rd (K.BUF_SIZE id)
    let s := (s.rdMems (s.rd (K.BUF_ADDR id)) n |> s.wrMems (s.rd (K.BUF_MIRROR_ADDR id))).wr (K.BUF_MIRROR id) 2
    .next (s.raise 0x5006 (0x6000 + id) id (min n 0xFFFFFFFF))
  else if 0x8000 ≤ id ∧ id < 0x8030 then
    let i := id - 0x8000
    if s.rd (K.RING_MIRROR i) ≠ 1 ∨ s.rd (H.ringSince i) < 3 then .next s else
    .next ((s.wr (K.RING_MIRROR i) 2).raise 0x5006 (0x6840 + i) id (min (3 * s.rd (K.RING_SLOT_BYTES i)) 0xFFFFFFFF))
  else .next s

/-! ## Rings (R180, R227) -/

/-- The ring of an input is given its place (R180, R201): it starts writing at the input's next switch line. -/
def State.ringPlace (s : State) (i st a bytes f c : Nat) : State :=
  let s := s.setAllocs (s.allocs ++ [(8192 + i, a, 3 * bytes)])
  s.wrs [(K.RING_STATE i, 0), (K.RING_STACK i, st), (K.RING_ADDR i, a), (K.RING_SLOT_BYTES i, bytes), (K.RING_FORMAT i, f),
    (K.RING_SLOT i, 0), (H.slotAt (4 * i), 0), (H.slotAt (4 * i + 1), 0), (H.slotAt (4 * i + 2), 0), (H.ringFmt i, c), (H.ringLive i, 0)]

/-- The ring of an input is released with its mirror (R180). -/
def State.ringRelease (s : State) (i : Nat) : State :=
  let s := (s.release (8192 + i)).release (12288 + i)
  ((((s.wrs [(K.RING_STATE i, 0), (K.RING_SLOT_BYTES i, 0), (K.RING_FORMAT i, 0), (K.RING_SLOT i, 0), (K.RING_MIRROR i, 0),
    (H.slotAt (4 * i), 0), (H.slotAt (4 * i + 1), 0), (H.slotAt (4 * i + 2), 0), (H.ringLive i, 0)]).clr (K.RING_STACK i)).clr (K.RING_ADDR i)).clr
      (K.RING_MIRROR_ADDR i))

/-- Address of slot j of a ring. -/
def State.slotAddr (s : State) (i j : Nat) : Nat := s.rd (K.RING_ADDR i) + j * s.rd (K.RING_SLOT_BYTES i)

/-- Bytes of a slot's picture, the ANC area left out. -/
def State.slotPic (s : State) (i : Nat) : Nat := s.rd (K.RING_SLOT_BYTES i) - 32768

end Sys2Proof.Machine
end

