-- ==== Sys2Proof/Machine/Pixels.lean ====
section
/-! DEFINITION. Pixels: the crossbar's words (R17, R19), stored formats (R218, R265), the output converter (R160 to R163), test
patterns (R194) and the CRCs (R280). -/
namespace Sys2Proof.Machine

/-- A pixel: 12-bit samples (Y, Cb, Cr or G, B, R) and a 12-bit key (R17). -/
structure Pix where
  c0 : Nat
  c1 : Nat
  c2 : Nat
  key : Nat
deriving DecidableEq, Repr

/-- A pixel as a crossbar word. -/
def Pix.word (p : Pix) : Nat := ((p.c0 * 4096 + p.c1) * 4096 + p.c2) * 4096 + p.key

/-- The pixel of a crossbar word. -/
def Pix.ofWord (w : Nat) : Pix := ⟨w / 2 ^ 36 % 4096, w / 2 ^ 24 % 4096, w / 4096 % 4096, w % 4096⟩

/-- Black: Y 64, Cb and Cr 512 on a 10-bit wire (R175). -/
def Pix.black : Pix := ⟨256, 2048, 2048, 4095⟩

/-- The samples as a function of their number. -/
def Pix.get (p : Pix) (k : Nat) : Nat := match k with | 0 => p.c0 | 1 => p.c1 | _ => p.c2

/-! ## Receiving (R19) -/

/-- A 4:2:2 line as 10-bit samples Cb, Y0, Cr, Y1, …, widened; a key input's luma becomes the key (R19, R146). -/
def widen422 (keyIn : Bool) : List Nat → List Pix
  | cb :: y0 :: cr :: y1 :: t =>
    ⟨4 * y0, 4 * cb, 4 * cr, if keyIn then 4 * y0 else 4095⟩ :: ⟨4 * y1, 4 * cb, 4 * cr, if keyIn then 4 * y1 else 4095⟩ ::
      widen422 keyIn t
  | _ => []

/-- A 12-bit 4:4:4 line as samples Cb, Y, Cr or B, G, R, …. -/
def widen444 (keyIn : Bool) : List Nat → List Pix
  | b :: g :: r :: t => ⟨g, b, r, if keyIn then g else 4095⟩ :: widen444 keyIn t
  | _ => []

/-! ## Stored pixels (R218, R265) -/

/-- `n` bytes of a stored word, the lowest first. -/
def ofLE (l : List Nat) : Nat := ofBytes l.reverse

/-- An 8-bit component widened to 12 bits (R265). -/
def exp8 (c : Nat) : Nat := c * 16 + c / 16

/-- A full-range 12-bit component on the SDI full range (R265). -/
def sdiFull (x : Nat) : Nat := 16 + (x * 4063 + 2047) / 4095

/-- An 8-bit key or alpha as a 12-bit key: a10 << 2 (R265). -/
def key8 (a : Nat) : Nat := (a * 4 + a / 64) * 4

/-- Pixel `x` of a line at `a` in a format, as the 12-bit range holds it; `rd` reads a byte (R218, R265). KEY8 holds a key only. -/
def pixAt (rd : Nat → Nat) (f a x : Nat) : Pix :=
  let w (o n : Nat) : Nat := ofLE ((List.range n).map (fun i => rd (a + o + i)))
  match f with
  | 0 =>
    let v := w (x / 2 * 5) 5
    let y := if x % 2 = 0 then v / 1024 % 1024 else v / 2 ^ 30 % 1024
    ⟨4 * y, 4 * (v % 1024), 4 * (v / 2 ^ 20 % 1024), 4095⟩
  | 1 =>
    let v := w (4 * x) 4
    ⟨4 * (v / 1024 % 1024), 4 * (v % 1024), 4 * (v / 2 ^ 20 % 1024), 4095⟩
  | 2 =>
    let v := w (2 * x) 2
    let r := v / 2048
    let g := v / 32 % 64
    let b := v % 32
    ⟨sdiFull (g * 64 + g), sdiFull (b * 128 + b * 4 + b / 8), sdiFull (r * 128 + r * 4 + r / 8), 4095⟩
  | 3 =>
    let v := w (3 * x) 3
    ⟨sdiFull (exp8 (v / 256 % 256)), sdiFull (exp8 (v % 256)), sdiFull (exp8 (v / 65536)), 4095⟩
  | 4 =>
    let v := w (4 * x) 4
    ⟨sdiFull (exp8 (v / 256 % 256)), sdiFull (exp8 (v % 256)), sdiFull (exp8 (v / 65536 % 256)), key8 (v / 2 ^ 24)⟩
  | _ => ⟨0, 2048, 2048, key8 (rd (a + x))⟩

/-- Where the bytes of pixel `x` lie in its line, and how many they are: those of the pair in Q422 (R218). -/
def pixSpan (f x : Nat) : Nat × Nat := if f = 0 then (x / 2 * 5, 5) else (x * (bpp2 f / 2), bpp2 f / 2)

/-- Every unit that pixel `x` of the line at `a` lies in was read without FAULT (R216). -/
def State.pixRead (s : State) (f a x : Nat) : Bool :=
  (List.range (pixSpan f x).2).all (fun i => (s.fsByte (a + (pixSpan f x).1 + i)).isSome)

/-- The line from which a fetcher takes pixel `x` of line `y`: the line itself, or, where its unit got FAULT, the previous one it fetched in the
same field, the last of the picture before the first (R216). `step` is 2 where it fetches fields, `h` the lines; `none`: there is none. -/
def State.fetchRow (s : State) (f base pitch step h x : Nat) : Nat → Nat → Option Nat
  | 0, _ => none
  | n + 1, y =>
    if s.pixRead f (base + y * pitch) x then some y
    else s.fetchRow f base pitch step h x n (if step ≤ y then y - step else (h - 1) / step * step + y - (if (h - 1) % step < y then step else 0))

/-- Pixel `x` of line `y` as a fetcher delivers it (R216, R218). -/
def State.fetchPix (s : State) (f base pitch step h x y : Nat) : Pix :=
  match s.fetchRow f base pitch step h x (h + 1) y with
  | some q => pixAt s.fetchByte f (base + q * pitch) x
  | none => Pix.black

/-- A 12-bit sample reduced to 10 bits for storage (R218). -/
def store10 (x : Nat) : Nat := min 1023 ((x + 2) / 4)

/-- The bytes of a line in Q422: each pair takes the luma of both pixels and the chroma of the even one (R218). -/
def packQ422 : List Pix → List Nat
  | p :: q :: t =>
    let v := store10 q.c0 * 2 ^ 30 + store10 p.c2 * 2 ^ 20 + store10 p.c0 * 1024 + store10 p.c1
    (bytesBE 5 v).reverse ++ packQ422 t
  | _ => []

/-- The bytes of a line in Q444 (R218). -/
def packQ444 (l : List Pix) : List Nat :=
  l.flatMap (fun p => (bytesBE 4 (store10 p.c2 * 2 ^ 20 + store10 p.c0 * 1024 + store10 p.c1)).reverse)

/-- The bytes of a line in Q422 (0) or Q444. -/
def packLine (f : Nat) (l : List Pix) : List Nat := if f = 0 then packQ422 l else packQ444 l

/-! ## The output converter (R160 to R163) -/

/-- The developed settings of a converter: MODE, CHROMA, KEY_OUT, COEF, INOFF, OUTOFF. -/
structure Conv where
  mode : Nat
  chroma : Nat
  keyOut : Bool
  coef : List Int
  inOff : List Int
  outOff : List Int
deriving DecidableEq, Repr

/-- Apply a 3 by 3 matrix with offsets (R160); the key passes. -/
def matrix3 (coef inOff outOff : List Int) (p : Pix) (k : Nat) : Int :=
  let acc := (List.range 3).foldl (fun (a : Int) j => a + coef.getD (3 * k + j) 0 * ((p.get j : Int) - inOff.getD j 0)) 0
  (acc + 2048) / 4096 + outOff.getD k 0

/-- The signed samples of a pixel after the converter's first stage (R160, R163). -/
def Conv.apply (c : Conv) (p : Pix) : Int × Int × Int :=
  if c.keyOut then ((256 + (p.key * 3505 + 2048) / 4096 : Nat), 2048, 2048)
  else if c.mode = 0 then (p.c0, p.c1, p.c2)
  else (matrix3 c.coef c.inOff c.outOff p 0, matrix3 c.coef c.inOff c.outOff p 1, matrix3 c.coef c.inOff c.outOff p 2)

/-- A 10-bit wire sample (R161). -/
def wire10 (x : Int) : Nat := clipI 4 1019 ((x + 2) / 4)

/-- A 12-bit wire sample (R161). -/
def wire12 (x : Int) : Nat := clipI 16 4079 x

/-- The wire samples of a line: 4:2:2 as Cb, Y, Cr, Y for each pair, with the chroma of CONV.CHROMA after the matrix and that of the even
position in BYPASS (R160, R161), 4:4:4 as Cb, Y, Cr (or B, G, R) for each pixel. -/
def Conv.wire (c : Conv) (sampling : Nat) (l : List Pix) : List Nat :=
  let v := l.map c.apply
  if sampling ≠ 0 then v.flatMap (fun p => [wire12 p.2.1, wire12 p.1, wire12 p.2.2])
  else
    let n := v.length
    let at' (i : Nat) : Int × Int × Int := v.getD i (256, 2048, 2048)
    let ch (f : Int × Int × Int → Int) (i : Nat) : Int :=
      if c.chroma = 0 ∨ c.mode = 0 then f (at' i)
      else (f (at' (i - 1)) + 2 * f (at' i) + f (at' (min (i + 1) (n - 1))) + 2) / 4
    (List.range (n / 2)).flatMap (fun i =>
      [wire10 (ch (fun p => p.2.1) (2 * i)), wire10 (at' (2 * i)).1, wire10 (ch (fun p => p.2.2) (2 * i)),
        wire10 (at' (2 * i + 1)).1])

/-- Rounding of a ratio to the nearest, halves away from zero. -/
def roundAway (a : Int) (b : Nat) : Int := if a < 0 then -(divRound a.natAbs b : Nat) else (divRound a.natAbs b : Nat)

/-- The matrix from YCbCr narrow to RGB full (16 to 4,079) for luma weights kr and kb in ten-thousandths, rows G, B, R (R162, log 15). -/
def yuvToRgb (kr kb : Int) : List Int :=
  let kg := 10000 - kr - kb
  let y := roundAway (4063 * 4096) 3504
  -- chroma gains: 2 (1 - k) for the component, over 3,584 steps
  let g (num : Int) (den : Nat) : Int := roundAway (num * 4063 * 4096) (3584 * den)
  [y, g (-2 * kb * (10000 - kb)) (10000 * kg.natAbs), g (-2 * kr * (10000 - kr)) (10000 * kg.natAbs),
   y, g (2 * (10000 - kb)) 10000, 0,
   y, 0, g (2 * (10000 - kr)) 10000]

/-- The matrix from RGB full to YCbCr narrow, rows Y, Cb, Cr, columns G, B, R (R162, log 15). -/
def rgbToYuv (kr kb : Int) : List Int :=
  let kg := 10000 - kr - kb
  let y (k : Int) : Int := roundAway (k * 3504 * 4096) (4063 * 10000)
  let cb (k : Int) : Int := roundAway (k * 3584 * 4096) (4063 * 2 * (10000 - kb).natAbs)
  let cr (k : Int) : Int := roundAway (k * 3584 * 4096) (4063 * 2 * (10000 - kr).natAbs)
  [y kg, y kb, y kr, cb (-kg), cb (10000 - kb), cb (-kr), cr (-kg), cr (-kb), cr (10000 - kr)]

/-- COEF, INOFF and OUTOFF of a converter preset 0 to 6 (R162). -/
def convPreset (p : Nat) : List Int × List Int × List Int :=
  let narrow : List Int := [256, 2048, 2048]
  let rgb : List Int := [16, 16, 16]
  let full : List Int := [16, 2048, 2048]
  let diag (a b : Int) : List Int := [a, 0, 0, 0, b, 0, 0, 0, b]
  match p with
  | 1 => (yuvToRgb 2126 722, narrow, rgb)
  | 2 => (rgbToYuv 2126 722, rgb, narrow)
  | 3 => (yuvToRgb 2627 593, narrow, rgb)
  | 4 => (rgbToYuv 2627 593, rgb, narrow)
  | 5 => (diag (roundAway (4063 * 4096) 3504) (roundAway (4063 * 4096) 3584), narrow, full)
  | 6 => (diag (roundAway (3504 * 4096) 4063) (roundAway (3584 * 4096) 4063), full, narrow)
  | _ => (diag 4096 4096, narrow, narrow)

/-! ## Test patterns (R194) -/

/-- A bar colour, components of `v` ten-thousandths, as narrow YCbCr for luma weights kr, kb in ten-thousandths. -/
def barPix (kr kb : Int) (v : Int) (r g b : Bool) : Pix :=
  let kg := 10000 - kr - kb
  let on (x : Bool) (k : Int) : Int := if x then k else 0
  let y := on r kr + on g kg + on b kb
  let cb := on b 10000 - y
  let cr := on r 10000 - y
  let luma := 64 + roundAway (876 * v * y) 100000000
  let ch (d k : Int) : Int := 512 + roundAway (896 * v * d) (100000000 * 2 * (10000 - k).natAbs / 10000)
  ⟨4 * luma.toNat, 4 * (ch cb kb).toNat, 4 * (ch cr kr).toNat, 4095⟩

/-- Pixel x of a row of a test pattern `p`, active width w, frame counter `cnt`; `wide` for the BT.2020 matrix. The check field of RP 198
is a value nothing fixes, since the spec does not list it (log 16). -/
def patternPix (p w cnt x y : Nat) (wide : Bool) (h : Nat) : Pix :=
  let kr : Int := if wide then 2627 else 2126
  let kb : Int := if wide then 593 else 722
  let bars (v : Int) : Pix :=
    match x * 7 / w with
    | 0 => barPix kr kb v true true true
    | 1 => barPix kr kb v true true false
    | 2 => barPix kr kb v false true true
    | 3 => barPix kr kb v false true false
    | 4 => barPix kr kb v true false true
    | 5 => barPix kr kb v true false false
    | _ => barPix kr kb v false false true
  match p with
  | 1 => bars 7500
  | 2 => bars 10000
  | 3 => ⟨4 * (64 + divRound (876 * x) (w - 1)), 2048, 2048, 4095⟩
  | 4 => Pix.ofWord (Config.checkField x y w h cnt)
  | 5 =>
    let m := 8 * cnt % w
    if (x + w - m) % w < 16 then ⟨3760, 2048, 2048, 4095⟩ else Pix.black
  | _ => Pix.black

/-! ## CRC (R280) -/

/-- One bit step of the reflected CRC-32. -/
def crc32Bit (c : Nat) : Nat := if c % 2 = 1 then (c / 2) ^^^ 0xEDB88320 else c / 2

/-- CRC-32 of IEEE 802.3 over bytes, continued from a register value. -/
def crc32From (c : Nat) : List Nat → Nat
  | [] => c
  | b :: t =>
    let x := c ^^^ (b % 256)
    crc32From (crc32Bit (crc32Bit (crc32Bit (crc32Bit (crc32Bit (crc32Bit (crc32Bit (crc32Bit x)))))))) t

/-- CRC-32 of IEEE 802.3 (R280). -/
def crc32 (l : List Nat) : Nat := crc32From 0xFFFFFFFF l ^^^ 0xFFFFFFFF

end Sys2Proof.Machine
end

