-- ==== Sys2Proof/Machine/Double.lean ====
section
/-! DEFINITION. Arithmetic of IEEE 754 double precision, as far as the coefficient tables of R244 need it (log 17): every operation gives
the double nearest its exact result. -/
namespace Sys2Proof.Machine

/-- A double: mant · 2^ex, with at most 53 bits of mantissa. -/
structure Dbl where
  mant : Int
  ex : Int
deriving DecidableEq, Repr

/-- n / d to the nearest integer, halves to the even one. -/
def halfEven (n d : Nat) : Nat :=
  let q := n / d
  let r := 2 * (n % d)
  if r < d then q else if d < r then q + 1 else q + q % 2

/-- The double nearest n / d · 2^e. -/
def Dbl.near (n : Int) (d : Nat) (e : Int) : Dbl :=
  if n = 0 then ⟨0, 0⟩ else
  let a := n.natAbs
  -- a / d · 2^-k lies in 2^51 to 2^53; one step down where it is below 2^52
  let k : Int := (a.log2 : Int) - d.log2 - 52
  let quo (k : Int) : Nat × Nat := if 0 ≤ k then (a, d * 2 ^ k.toNat) else (a * 2 ^ (-k).toNat, d)
  let k := if (quo k).1 < 2 ^ 52 * (quo k).2 then k - 1 else k
  let m := halfEven (quo k).1 (quo k).2
  ⟨if n < 0 then -(m : Int) else m, k + e⟩

/-- The integer n. -/
def Dbl.ofInt (n : Int) : Dbl := Dbl.near n 1 0

def Dbl.mul (a b : Dbl) : Dbl := Dbl.near (a.mant * b.mant) 1 (a.ex + b.ex)

def Dbl.div (a b : Dbl) : Dbl := Dbl.near (if b.mant < 0 then -a.mant else a.mant) b.mant.natAbs (a.ex - b.ex)

def Dbl.add (a b : Dbl) : Dbl :=
  let e := min a.ex b.ex
  Dbl.near (a.mant * 2 ^ (a.ex - e).toNat + b.mant * 2 ^ (b.ex - e).toNat) 1 e

def Dbl.neg (a : Dbl) : Dbl := ⟨-a.mant, a.ex⟩

/-- The nearest integer, halves away from zero. -/
def Dbl.round (a : Dbl) : Int := if 0 ≤ a.ex then a.mant * 2 ^ a.ex.toNat else roundAway a.mant (2 ^ (-a.ex).toNat)

/-- π in units of 2^-160. -/
def pi160 : Int := 4591442807048218921384805199743311128454155024418

/-- The Taylor terms of the sine of `a` (square `a2`), from term `t` of degree `n` on, in units of 2^-160. -/
def sinTail (a2 : Int) : Nat → Int → Nat → Int
  | 0, t, _ => t
  | k + 1, t, n => t + sinTail a2 k (-(t * a2 / 2 ^ 160) / ((n + 1) * (n + 2) : Nat)) (n + 2)

/-- The sine of a double, to the nearest double. -/
def Dbl.sin (a : Dbl) : Dbl :=
  let x : Int := if 0 ≤ a.ex + 160 then a.mant * 2 ^ (a.ex + 160).toNat else a.mant / 2 ^ (-(a.ex + 160)).toNat
  -- x less the nearest multiple of π
  let k := (2 * x + pi160) / (2 * pi160)
  let r := x - k * pi160
  let v := sinTail (r * r / 2 ^ 160) 40 r 1
  Dbl.near (if k % 2 = 0 then v else -v) 1 (-160)

/-- π as a double. -/
def Dbl.pi : Dbl := Dbl.near pi160 1 (-160)

/-- sinc(x) = sin(πx) / (πx), sinc(0) = 1 (R244). -/
def Dbl.sinc (x : Dbl) : Dbl := if x.mant = 0 then Dbl.ofInt 1 else (Dbl.pi.mul x).sin.div (Dbl.pi.mul x)

end Sys2Proof.Machine
end

