-- ==== Sys2Proof/Machine/Enlargers.lean ====
section
/-! DEFINITION. Enlargers: positions, filters, deinterlacing (spec/11, R240 to R252). -/
namespace Sys2Proof.Machine

/-! ## Coefficient tables (R243 to R245) -/

/-- The step of an axis in 12.20 fixed point (R242). -/
def enlStep (c d : Nat) : Nat := (c * 2 ^ 20 + d / 2) / d

/-- Position of destination sample x: source index and phase (R242). -/
def enlPos (step x : Nat) : Int × Nat :=
  let p : Int := (step / 2 : Nat) - 524288 + (x * step : Nat)
  (p / 2 ^ 20, (p / 2 ^ 14 % 64).toNat)

/-- h(u) of a built-in set at u = n / 64 for the scale factor s and the support r2 / 2, in doubles (R244). -/
def kernel (set : Nat) (s : Dbl) (r2 : Nat) (n : Int) : Dbl :=
  if 64 * r2 ≤ 2 * n.natAbs then Dbl.ofInt 0 else
  let u := Dbl.near n 64 0
  -- the set's gain in hundredths
  let win (g : Nat) : Dbl :=
    let gs := if g = 100 then s else (Dbl.near g 100 0).mul s
    (gs.mul (gs.mul u).sinc).mul (u.div (Dbl.near r2 2 0)).sinc
  match set with
  | 0 => win 100
  | 1 => win 85
  | 2 => win 65
  | _ =>
    let v := (Dbl.ofInt 1).add (s.mul (Dbl.near n.natAbs 64 0)).neg
    if v.mant < 0 then Dbl.ofInt 0 else v

/-- The scale factor s = min(1, d / c) of an axis (R244). -/
def kernelScale (c d : Nat) : Dbl := if c ≤ d then Dbl.ofInt 1 else Dbl.near d c 0

/-- Coefficients that sum to 1,024 from kernel values (R244): rounded half away from zero, the rest on the largest, lowest first. -/
def normalise (h : List Dbl) : List Int :=
  let sum := h.foldl Dbl.add (Dbl.ofInt 0)
  let c := h.map (fun x => (((Dbl.ofInt 1024).mul x).div sum).round)
  let rest := 1024 - c.foldl (fun a x => a + x) 0
  let big := c.foldl max (c.headD 0)
  let i := c.findIdx (fun x => x == big)
  c.modify i (fun x => x + rest)

/-- The horizontal coefficients of a built-in set at a phase: 16 taps (R243, R244). -/
def hBuiltin (set wc wd phi : Nat) : List Int :=
  normalise ((List.range 16).map (fun (k : Nat) => kernel set (kernelScale wc wd) 16 (64 * ((k : Int) - 7) - phi)))

/-- The vertical coefficients of a built-in set at a phase: the V taps in use of 8 (R243, R244). -/
def vBuiltin (set hc hd v phi : Nat) : List Int :=
  let k0 := 4 - (v + 1) / 2
  let used := normalise ((List.range v).map (fun i => kernel set (kernelScale hc hd) v (64 * (((k0 + i : Nat) : Int) - 3) - phi)))
  List.replicate k0 0 ++ used ++ List.replicate (8 - k0 - v) 0

/-- A loadable vertical table folded to V taps (R245). -/
def foldTaps (v : Nat) (c : List Int) : List Int :=
  let k0 := 4 - (v + 1) / 2
  let lo := (c.take k0).foldl (fun a x => a + x) 0
  let hi := (c.drop (k0 + v)).foldl (fun a x => a + x) 0
  let mid := ((c.drop k0).take v).modify 0 (fun x => x + lo) |>.modify (v - 1) (fun x => x + hi)
  List.replicate k0 0 ++ mid ++ List.replicate (8 - k0 - v) 0

/-- The 16-bit coefficients of a table member (R245). -/
def coefs (n member : Nat) : List Int := (List.range n).map (fun i => toInt 16 (member / 65536 ^ (n - 1 - i) % 65536))

/-- A loadable member is accepted: every coefficient in -2,048 to 2,047 and their sum 1,024 (R245). -/
def coefsOk (n member : Nat) : Bool :=
  (coefs n member).all (fun c => decide (-2048 ≤ c) && decide (c ≤ 2047)) && (coefs n member).foldl (fun a x => a + x) 0 == 1024

/-- Clamp a tap position into 0 to n - 1 (R242). -/
def clampTo (n : Nat) (i : Int) : Nat := clipI 0 (n - 1) i

/-- One filter output over pixels a function gives by tap position (R243). -/
def filterPix (c : List Int) (first : Int) (src : Int → Pix) : Pix :=
  let one (f : Pix → Nat) : Nat :=
    clipI 0 4095 (((List.range c.length).foldl (fun (a : Int) k => a + c.getD k 0 * (f (src (first + k)) : Nat)) 0 + 512) / 1024)
  ⟨one Pix.c0, one Pix.c1, one Pix.c2, one Pix.key⟩

/-- What an Enlarger is set to: crop size, destination size, order (0 horizontal first), and its coefficients by phase. -/
structure EnlSet where
  wc : Nat
  hc : Nat
  wd : Nat
  hd : Nat
  order : Nat
  hset : Nat
  vset : Nat
  taps : Nat
  htab : List Nat
  vtab : List Nat
deriving DecidableEq, Repr

/-- Horizontal coefficients at a phase. -/
def EnlSet.h (e : EnlSet) (phi : Nat) : List Int :=
  if e.hset < 4 then hBuiltin e.hset e.wc e.wd phi else coefs 16 (e.htab.getD phi 0)

/-- Vertical coefficients at a phase. -/
def EnlSet.v (e : EnlSet) (phi : Nat) : List Int :=
  if e.vset < 4 then vBuiltin e.vset e.hc e.hd e.taps phi else foldTaps e.taps (coefs 8 (e.vtab.getD phi 0))

/-- Destination pixel (x, y) of an Enlarger over a crop whose pixels `src` gives (R240 to R243). -/
def EnlSet.pix (e : EnlSet) (src : Nat → Nat → Pix) (x y : Nat) : Pix :=
  let ph := enlPos (enlStep e.wc e.wd) x
  let pv := enlPos (enlStep e.hc e.hd) y
  let hf (f : Nat → Pix) : Pix := filterPix (e.h ph.2) (ph.1 - 7) (fun i => f (clampTo e.wc i))
  let vf (f : Nat → Pix) : Pix := filterPix (e.v pv.2) (pv.1 - 3) (fun j => f (clampTo e.hc j))
  if e.order = 0 then vf (fun j => hf (fun i => src i j)) else hf (fun i => vf (fun j => src i j))

/-! ## Deinterlacing (R247, R248) -/

/-- The motion factor k of R248 from the largest luma difference. -/
def motionK (lo hi m : Nat) : Nat :=
  if m ≤ lo then 0 else if hi ≤ m then 1024 else ((m - lo) * 1024 + (hi - lo) / 2) / (hi - lo)

/-- Pixel (x, y) of a deinterlaced frame of w by h: `f`, `p`, `p2` are the current field, the previous one and the one before, as
pictures in frame lines; `par` is the parity of the current field's lines; mode 1 motion-adaptive, 2 intra-field, 3 weave. -/
def deintPix (mode lo hi par w h : Nat) (f p p2 : Nat → Nat → Pix) (x y : Nat) : Pix :=
  if y % 2 = par then f x y else
  let col (d : Int) : Nat := clampTo w (x + d)
  let above := if y = 0 then 1 else y - 1
  let below := if h ≤ y + 1 then y - 1 else y + 1
  let row (d : Int) : Nat := if d < 0 then above else below
  let diff (dx dy : Int) : Nat := (((f (col dx) (row dy)).c0 : Int) - ((p2 (col dx) (row dy)).c0 : Int)).natAbs
  let m := [diff (-1) (-1), diff 0 (-1), diff 1 (-1), diff (-1) 1, diff 0 1, diff 1 1].foldl max 0
  let k := if mode = 3 then 0 else if mode = 2 then 1024 else motionK lo hi m
  let pair (d : Int) : Pix × Pix := (f (col d) above, f (col (-d)) below)
  let gap (q : Pix × Pix) : Nat := ((q.1.c0 : Int) - (q.2.c0 : Int)).natAbs
  let best (a b : Pix × Pix) : Pix × Pix := if gap b < gap a then b else a
  let q := best (best (pair 0) (pair (-1))) (pair 1)
  let mix (g : Pix → Nat) : Nat := (k * ((g q.1 + g q.2 + 1) / 2) + (1024 - k) * g (p x y) + 512) / 1024
  ⟨mix Pix.c0, mix Pix.c1, mix Pix.c2, mix Pix.key⟩

/-- The deinterlacing mode in effect and whether it holds two more lines (R247): DEINT, layer KIND, source interlaced. -/
def deintActive (deint kind : Nat) (interlaced : Bool) : Nat :=
  if deint = 0 then 0
  -- a buffer does not say how it was scanned: INTRA and WEAVE take it as interlaced, and AUTO weaves it, which is the frame (log 85)
  else if kind = 1 then (if deint = 1 then 0 else deint)
  else if !interlaced then 0
  else if deint = 3 then 3 else if deint = 2 then 2
  else if kind = 2 then 1 else 2

/-- d of R241: lines the deinterlacer keeps. -/
def deintLines (active : Nat) : Nat := if active = 1 ∨ active = 2 then 2 else 0

/-! ## Assignment (R203, R251) -/

/-- What admission finds for a layer's scaler (R203): taps, and whether it needs a pair; or the refusal reason it would give when a
second Enlarger is missing. -/
inductive EnlNeed where
  | single (taps : Nat)
  | pair (taps : Nat) (lineStore : Bool)
  | refused (reason : Nat)
deriving DecidableEq, Repr

/-- Largest v in lo to hi with (v + d) * w within the line store. -/
def fitTaps (lo hi d w : Nat) : Option Nat :=
  ((List.range (hi + 1 - lo)).map (fun i => hi - i)).find? (fun v => decide ((v + d) * w ≤ 32768))

/-- The widths of a stripe: source and destination (R203, R251). -/
def stripeW (wc wd : Nat) : Nat × Nat := ((wc + 1) / 2 + 64, (wd + 1) / 2 + ceilDiv (64 * wd) wc)

/-- Pixel rate at a canvas rate code, rounded up to whole pixels a second. -/
def pixRate (px r : Nat) : Nat := ceilDiv (px * rateNum r) (rateDen r)

/-- What a scaled layer needs (R203): crop wc by hc, destination wd by hd, canvas rate code r, floor f, requested taps v, kept lines d. -/
def enlNeed (wc hc wd hd r f v d : Nat) : EnlNeed :=
  let v1 := fitTaps f v d (min wc wd)
  let rate1 := max (wc * hc) (wd * hd) * rateNum r
  match v1, decide (rate1 ≤ 600000000 * rateDen r) with
  | some t, true => .single t
  | _, _ =>
    let sw := stripeW wc wd
    match fitTaps f v d (min sw.1 sw.2) with
    | none => .refused 0x23
    | some t =>
      if 600000000 * rateDen r < max (sw.1 * hc) (sw.2 * hd) * rateNum r then .refused 0x24
      else .pair t (v1 == none)

end Sys2Proof.Machine
end

