-- ==== Sys2Proof/Machine/Canvas.lean ====
section
/-! DEFINITION. The pixel path of an Easel: layer fetch, expansion, scaling, colour, alpha, blend (spec/12, R258 to R272). -/
namespace Sys2Proof.Machine

/-! ## Logarithm and exponential in fixed point, 80 fraction bits (R267; log 17) -/

/-- ln 2 in units of 2^-80. -/
def ln2Q : Int := 837963523372001241319908

/-- Terms of 2 artanh z: z2 the square of z, `p` the next power, `n` the next divisor. -/
def artanhTerms (z2 : Int) : Nat → Int → Nat → Int
  | 0, _, _ => 0
  | k + 1, p, n => 2 * p / n + artanhTerms z2 k (p * z2 / 2 ^ 80) (n + 2)

/-- ln(a / b) in units of 2^-80, a and b positive. -/
def lnQ (a b : Nat) : Int :=
  let e : Int := (Nat.log2 a : Int) - Nat.log2 b
  let num : Int := if e < 0 then a * (2 ^ (-e).toNat : Nat) else a
  let den : Int := if e < 0 then b else b * (2 ^ e.toNat : Nat)
  let z := (num - den) * 2 ^ 80 / (num + den)
  e * ln2Q + artanhTerms (z * z / 2 ^ 80) 60 z 1

/-- Terms of the exponential series. -/
def expTerms (r : Int) : Nat → Int → Nat → Int
  | 0, _, _ => 0
  | k + 1, t, n => t + expTerms r k (t * r / 2 ^ 80 / n) (n + 1)

/-- exp of `x` units of 2^-80, in units of 2^-80. -/
def expQ (x : Int) : Int :=
  let k := x / ln2Q
  let r := x - k * ln2Q
  let v := expTerms r 30 (2 ^ 80) 1
  if k < 0 then v / (2 ^ (-k).toNat : Nat) else v * (2 ^ k.toNat : Nat)

/-- (a / b) to the power n / d, in units of 2^-80; 0 for a = 0. -/
def powQ (a b n d : Nat) : Int := if a = 0 then 0 else expQ (lnQ a b * n / d)

/-! ## Tables and matrix of COLOR.PRESET 1 (R267) -/

/-- Round `v` units of 2^-80 times n / d to a code from 0 to `hi`, halves away from zero. -/
def code (v : Int) (n d hi : Nat) : Nat := clipI 0 hi (roundAway (v * n) (2 ^ 80 * d))

/-- Entry i of LUT_A for a layer space: the code of linear light (R267; the transfers' constants are their standards', log 15). -/
def lutAGen (space i : Nat) : Nat :=
  let e := min (i - 16) 4063
  match space % 16 with
  | 2 =>
    let x := powQ e 4063 32 2523
    let num := x - 3424 * 2 ^ 80 / 4096
    let den := 2413 * 2 ^ 80 / 128 - 2392 * x / 128
    if num ≤ 0 then 0 else code (powQ num.toNat den.toNat 8192 1305) (10000 * 4095) 1000 4095
  | 3 =>
    -- scene light from the inverse OETF, then the OOTF of gamma 1.2
    let s : Int :=
      if 2 * e ≤ 4063 then (e * e : Nat) * 2 ^ 80 / (3 * 4063 * 4063 : Nat)
      else (expQ (((e * 100000000 : Nat) - (55991073 * 4063 : Int)) * 2 ^ 80 / (17883277 * 4063)) + 28466892 * 2 ^ 80 / 100000000) / 12
    code (powQ s.toNat (2 ^ 80) 6 5) 4095 1 4095
  | _ => code (powQ e 4063 12 5) (203 * 4095) 1000 4095

/-- Entry i of LUT_B for a canvas space: the code of its transfer (R267). -/
def lutBGen (space i : Nat) : Nat :=
  match space % 16 with
  | 2 =>
    let y := powQ i (4095 * 10) 1305 8192
    let num := 3424 * 2 ^ 80 / 4096 + 2413 * y / 128
    let den := 2 ^ 80 + 2392 * y / 128
    clipI 0 4095 (16 + roundAway (powQ num.toNat den.toNat 2523 32 * 4063) (2 ^ 80))
  | 3 =>
    let s := powQ i 4095 5 6
    let e : Int :=
      if 12 * s ≤ 2 ^ 80 then powQ (3 * s).toNat (2 ^ 80) 1 2
      else lnQ (12 * s - 28466892 * 2 ^ 80 / 100000000).toNat (2 ^ 80) * 17883277 / 100000000 + 55991073 * 2 ^ 80 / 100000000
    clipI 0 4095 (16 + roundAway (e * 4063) (2 ^ 80))
  | _ => clipI 0 4095 (16 + roundAway (powQ (min (i * 1000) (203 * 4095)) (203 * 4095) 5 12 * 4063) (2 ^ 80))

/-- A space's primaries are those of BT.709. -/
def is709 (space : Nat) : Bool := space % 16 == 0

/-- The primaries matrix of PRESET 1, rows and columns G, B, R (R267; BT.2087's figures, log 15). -/
def primMatrix (fromSp toSp : Nat) : List Int :=
  if is709 fromSp && !is709 toSp then [3766, 47, 283, 360, 3669, 67, 1349, 177, 2570]
  else if !is709 fromSp && is709 toSp then [4640, -34, -510, -412, 4582, -74, -2407, -298, 6801]
  else [4096, 0, 0, 0, 4096, 0, 0, 0, 4096]

/-! ## Colour conversion (R266) -/

/-- What a layer's colour conversion uses: the layer's space and the canvas space, and the developed tables and matrix. -/
structure ColorSet where
  preset : Nat
  inSp : Nat
  outSp : Nat
  lutA : Nat → Nat
  lutB : Nat → Nat
  matrix : List Int
  inOff : List Int
  outOff : List Int

/-- A matrix of a converter preset applied and clipped. -/
def presetApply (n : Nat) (p : Pix) : Pix :=
  let c := convPreset n
  let f (k : Nat) : Nat := clipI 0 4095 (matrix3 c.1 c.2.1 c.2.2 p k)
  ⟨f 0, f 1, f 2, p.key⟩

/-- BT.2020 SDR uses the matrices of presets 3 and 4, the others those of 1 and 2 (R266). -/
def isWide (space : Nat) : Bool := space % 16 == 1

/-- The layer is not converted (R266). -/
def ColorSet.plain (c : ColorSet) : Bool := c.inSp == c.outSp && c.preset == 0

/-- Convert one pixel (R266); the key is not converted. -/
def ColorSet.apply (c : ColorSet) (p : Pix) : Pix :=
  if c.plain then p else
  let p := if 16 ≤ c.inSp then p else presetApply (if isWide c.inSp then 3 else 1) p
  let p : Pix := ⟨c.lutA p.c0, c.lutA p.c1, c.lutA p.c2, p.key⟩
  let m (k : Nat) : Nat := clipI 0 4095 (matrix3 c.matrix c.inOff c.outOff p k)
  let q : Pix := ⟨c.lutB (m 0), c.lutB (m 1), c.lutB (m 2), p.key⟩
  if 16 ≤ c.outSp then q else presetApply (if isWide c.outSp then 4 else 2) q

/-! ## Alpha and blend (R268 to R272) -/

/-- α_eff of a pixel (R268). -/
def alphaEff (key opacity : Nat) (opaque' : Bool) : Nat :=
  let a := if opaque' then 1023 else min 1023 ((key + 2) / 4)
  (a * (opacity + opacity / 512) + 512) / 1024

/-- a′: the alpha widened to 1,024 (R268). -/
def widenAlpha (a : Nat) : Nat := a + a / 512

/-- A straight blend of one sample (R269). -/
def straight (a' src dst : Nat) : Nat := (a' * src + (1024 - a') * dst + 512) / 1024

/-- A premultiplied blend of luma (R270). -/
def premulY (a' src dst : Nat) : Nat := min 4095 (src + ((1024 - a') * dst + 512) / 1024)

/-- A premultiplied blend of chroma (R270). -/
def premulC (a' src dst : Nat) : Nat :=
  clipI 0 4095 (2048 + ((src : Int) - 2048) + ((1024 - a' : Nat) * ((dst : Int) - 2048) + 512) / 1024)

/-- Blend a layer pixel into a canvas pixel whose `key` holds the coverage A (R269, R270, R272). -/
def blendPix (mode aEff : Nat) (s d : Pix) : Pix :=
  let a' := widenAlpha aEff
  let cov := min 1023 (aEff + ((1024 - a') * d.key + 512) / 1024)
  if mode = 0 then ⟨straight a' s.c0 d.c0, straight a' s.c1 d.c1, straight a' s.c2 d.c2, cov⟩
  else ⟨premulY a' s.c0 d.c0, premulC a' s.c1 d.c1, premulC a' s.c2 d.c2, cov⟩

/-! ## Layer sources (R259 to R263) -/

/-- Width and height of the picture of a crossbar source's stream: an input's format, a canvas, a converter's format. -/
def State.srcFmt (s : State) (src : Nat) : Nat :=
  if src < 48 then s.rd (K.IN_STAT_FORMAT src)
  else if src < 64 then s.rd (K.EAS_CANVAS_FORMAT (src - 48))
  else if src < 80 then s.rd (K.FRC_OTIM_FORMAT (src - 64))
  else match (List.range 48).find? (fun n => s.air (K.OUT_ROUTE_SRC n) == src) with
    | some n => s.air (K.OUT_FORMAT n)
    | none => 0

/-- Active size of a format (R411). -/
def fmtSize (c : Nat) : Nat × Nat := match fmt c with | some f => (f.w, f.h) | none => (0, 0)

/-- A picture some reader shows: size, interlaced source, the pixel at (x, y) in frame lines. -/
structure Picture where
  w : Nat
  h : Nat
  interlaced : Bool
  px : Nat → Nat → Pix

/-- The picture in a buffer (R259, R265), with a key plane when one is named, as a fetcher reads it: `step` is 2 where it fetches fields (R216). -/
def State.bufPicture (s : State) (b key step : Nat) : Picture :=
  let f := s.rd (K.BUF_FORMAT b)
  let a := s.rd (K.BUF_ADDR b)
  let p := s.rd (K.BUF_PITCH b)
  let ka := s.rd (K.BUF_ADDR key)
  let kp := s.rd (K.BUF_PITCH key)
  ⟨s.rd (K.BUF_WIDTH b), s.rd (K.BUF_HEIGHT b), false, fun x y =>
    let h := s.rd (K.BUF_HEIGHT b)
    let v := s.fetchPix f a p step h x y
    if key < 2048 then { v with key := (s.fetchPix 5 ka kp step h x y).key } else if 65536 ≤ key then { v with key := 0 } else v⟩

/-- The picture in a slot of a ring; a key slot's luma replaces the key (R19, R192, R260). -/
def State.slotPicture (s : State) (i j : Nat) (key : Option (Nat × Nat)) : Picture :=
  let c := s.rd (H.slotFmt (4 * i + j))
  let sz := fmtSize c
  let f := s.rd (K.RING_FORMAT i)
  let a := s.slotAddr i j
  ⟨sz.1, sz.2, s.rd (K.IN_STAT_SCAN i) == 1, fun x y =>
    let step := if s.rd (K.IN_STAT_SCAN i) = 1 then 2 else 1
    let v := s.fetchPix f a (minPitch f sz.1) step sz.2 x y
    match key with
    | some (k, kj) => { v with key := (s.fetchPix (s.rd (K.RING_FORMAT k)) (s.slotAddr k kj) (minPitch (s.rd (K.RING_FORMAT k)) sz.1) step sz.2 x y).c0 }
    | none => v⟩

/-- The picture a crossbar destination has taken, as its rows stand (R22). -/
def State.livePicture (s : State) (d src : Nat) : Picture :=
  let sz := fmtSize (s.srcFmt src)
  -- after a failover, rows that were lost are taken from the nearest line received (R351)
  let low := if 64 ≤ d then s.rd (H.liveFrom (d - 64)) % 1048576 - 1 else 0
  ⟨sz.1, sz.2, src < 48 && s.rd (K.IN_STAT_SCAN src) == 1, fun x y =>
    match (s.vec (H.xbRow (d * 8192 + max y low)))[x]? with
    | some w => Pix.ofWord w
    | none => Pix.black⟩

/-- Black, opaque (R262). -/
def blackPicture (w h : Nat) : Picture := ⟨w, h, false, fun _ _ => Pix.black⟩

/-- The colour space of a layer (R266). -/
def State.layerSpace (s : State) (x : Nat) : Nat :=
  let v := s.air (K.LAYER_SRC_IN_SPACE x)
  if v ≠ 0xFF then v else
  let id := s.air (K.LAYER_SRC_ID x)
  -- the input's colour; its sampling says whether it is RGB
  let inp (i : Nat) : Nat := s.rd (K.IN_STAT_COLOR i) + (if s.rd (K.IN_STAT_SAMPLING i) = 2 then 16 else 0)
  match s.air (K.LAYER_SRC_KIND x) with
  | 2 => inp id
  | 3 => if id < 48 then inp id else if id < 64 then s.air (K.EAS_CANVAS_COLOR (id - 48)) else 0
  | 1 => if s.rd (K.BUF_FORMAT id) ≤ 1 then 0 else 16
  | _ => 0

/-- One of the 64-entry members of a table of a layer. -/
def lutEntry (part i : Nat) : Nat := part / 65536 ^ (63 - i % 64) % 65536

/-- The colour settings of a layer on air. -/
def State.colorSet (s : State) (x : Nat) : ColorSet where
  preset := s.air (K.LAYER_COLOR_PRESET x)
  inSp := s.layerSpace x
  outSp := s.air (K.EAS_CANVAS_COLOR (x / 8))
  lutA := fun i => lutEntry (s.air (K.LAYER_LUT_A_PART x (i / 64))) i
  lutB := fun i => lutEntry (s.air (K.LAYER_LUT_B_PART x (i / 64))) i
  matrix := (List.range 9).map (fun i => toInt 16 (s.air (K.LAYER_COLOR_MATRIX x i)))
  inOff := (List.range 3).map (fun i => toInt 16 (s.air (K.LAYER_COLOR_INOFF x i)))
  outOff := (List.range 3).map (fun i => toInt 16 (s.air (K.LAYER_COLOR_OUTOFF x i)))

/-- The Enlargers that serve a layer: the one that leads, if any (R253). -/
def State.layerEnl (s : State) (x : Nat) : Option Nat :=
  let c := x / 16
  (List.range 4).map (fun i => 4 * c + i) |>.find? (fun n =>
    s.rd (K.ENL_STATE_LAYER n) == 0x4400 + 16 * x && (s.rd (K.ENL_STATE_ROLE n) == 1 || s.rd (K.ENL_STATE_ROLE n) == 2))

/-- Crop rectangle and destination size of a layer over a picture (R263): x, y, w, h, destination w, h. -/
def layerGeom (rd : Nat → Nat) (x w h : Nat) : Nat × Nat × Nat × Nat × Nat × Nat :=
  let cx := rd (K.LAYER_GEOM_CROP_X x)
  let cy := rd (K.LAYER_GEOM_CROP_Y x)
  let cw := if rd (K.LAYER_GEOM_CROP_W x) = 0 then w - cx else rd (K.LAYER_GEOM_CROP_W x)
  let ch := if rd (K.LAYER_GEOM_CROP_H x) = 0 then h - cy else rd (K.LAYER_GEOM_CROP_H x)
  let dw := if rd (K.LAYER_GEOM_DST_W x) = 0 then cw else rd (K.LAYER_GEOM_DST_W x)
  let dh := if rd (K.LAYER_GEOM_DST_H x) = 0 then ch else rd (K.LAYER_GEOM_DST_H x)
  (cx, cy, cw, ch, dw, dh)

/-- The input a STORED reading of input i takes now: the ACTIVE one of a pair (R148). -/
def State.inUse (s : State) (i : Nat) : Nat :=
  if s.rd (K.IN_BRACKET_ROLE i) = 1 ∧ s.rd (K.IN_BRACKET_ACTIVE i) < 48 then s.rd (K.IN_BRACKET_ACTIVE i) else i

/-- The picture of a layer's source in the present canvas frame, `none` where the layer shows nothing (R259 to R262), with the fields
before it for a deinterlaced ring. -/
def State.layerPicture (s : State) (x : Nat) : Option (Picture × Picture × Picture) :=
  let id := s.air (K.LAYER_SRC_ID x)
  let key := s.air (K.LAYER_SRC_KEY x)
  let lost := s.rd (H.layLost x) == 1
  let loss := s.air (K.LAYER_SRC_LOSS x)
  let one (p : Picture) : Option (Picture × Picture × Picture) := some (p, p, p)
  if lost && loss == 1 then none else
  match s.air (K.LAYER_SRC_KIND x) with
  | 1 => if 65536 ≤ id then one (blackPicture (s.rd (K.BUF_WIDTH (id % 65536))) (s.rd (K.BUF_HEIGHT (id % 65536))))
         else if 2048 ≤ id then none else one (s.bufPicture id key 1)
  | 2 =>
    let sl := s.rd (H.laySlot x)
    if lost && loss == 2 then
      let id := if s.rd (H.layRing x) = 0 then id else s.rd (H.layRing x) - 1
      -- the size of the slot shown, or of any slot the ring holds
      let z := fmtSize (s.rd (H.slotFmt (4 * id + (if sl = 0 then ((List.range 3).find? (fun j => s.rd (H.slotFmt (4 * id + j)) != 0)).getD 0
        else sl - 1))))
      one (blackPicture z.1 z.2)
    else if sl = 0 ∨ 48 ≤ id then none else
    let k := if key < 48 ∧ s.rd (H.layKeySlot x) ≠ 0 then some (key, s.rd (H.layKeySlot x) - 1) else none
    -- a pair may be read from its backup's ring (R148)
    let id := if s.rd (H.layRing x) = 0 then id else s.rd (H.layRing x) - 1
    let cur := s.slotPicture id (sl - 1) k
    -- the slot before has its own key slot (R260)
    let pk := if key < 48 ∧ s.rd (H.layPrevKey x) ≠ 0 then some (key, s.rd (H.layPrevKey x) - 1) else none
    let prev := s.slotPicture id ((sl + 1) % 3) pk
    -- field 1 follows field 0 of its own slot; field 0 follows field 1 of the slot before
    some (cur, if s.rd (H.layField x) = 1 then cur else prev, prev)
  | 3 =>
    let p := s.livePicture (64 + x / 16) id
    if lost && loss == 2 then one (blackPicture p.w p.h) else if lost then none else one p
  | _ => none

/-- The pixel of layer x at canvas position (cx, cy), scaled, before colour conversion; `none` outside its rectangle (R263, R264). -/
def State.layerPix (s : State) (x cx cy : Nat) : Option Pix :=
  match s.layerPicture x with
  | none => none
  | some (cur, prev, prev2) =>
    let g := layerGeom s.air x cur.w cur.h
    let dx := (cx : Int) - toInt 16 (s.air (K.LAYER_GEOM_DST_X x))
    let dy := (cy : Int) - toInt 16 (s.air (K.LAYER_GEOM_DST_Y x))
    if dx < 0 ∨ dy < 0 ∨ (g.2.2.2.2.1 : Int) ≤ dx ∨ (g.2.2.2.2.2 : Int) ≤ dy then none else
    match s.layerEnl x with
    | none => some (cur.px (g.1 + dx.toNat) (g.2.1 + dy.toNat))
    | some n =>
      let active := s.rd (K.ENL_STATE_DEINT_ACTIVE n)
      let crop (p : Picture) (i j : Nat) : Pix := p.px (g.1 + i) (g.2.1 + j)
      let mode := if active = 1 ∧ s.rd (H.layHist x) < 2 then 2 else active
      -- the first line of a 525i picture belongs to the second field (R411)
      let par := (s.rd (H.layField x) + (if cur.h = 486 then 1 else 0) + g.2.1) % 2
      let src (i j : Nat) : Pix :=
        if mode = 0 then crop cur i j
        else deintPix mode (s.air (K.ENL_CFG_MOT_LO n)) (s.air (K.ENL_CFG_MOT_HI n)) par g.2.2.1 g.2.2.2.1 (crop cur) (crop prev)
          (crop prev2) i j
      let tab (set : Nat) (h : Bool) : List Nat :=
        if set < 4 then [] else (List.range 64).map (fun p =>
          s.air (if h then K.ENL_HCOEF_PHASE n (64 * (set - 4) + p) else K.ENL_VCOEF_PHASE n (64 * (set - 4) + p)))
      let hs := s.air (K.ENL_CFG_HSET n)
      let vs := s.air (K.ENL_CFG_VSET n)
      let e : EnlSet := ⟨g.2.2.1, g.2.2.2.1, g.2.2.2.2.1, g.2.2.2.2.2, s.rd (K.ENL_STATE_ORDER n), hs, vs,
        s.rd (K.ENL_STATE_VTAPS n), tab hs true, tab vs false⟩
      some (e.pix src dx.toNat dy.toNat)

/-- Layer x shows black and not its source: under SRC.LOSS BLACK, or because its buffer was freed by force (R223, R262). -/
def State.layerBlack (s : State) (x : Nat) : Bool :=
  let kind := s.air (K.LAYER_SRC_KIND x)
  (kind != 1 && s.rd (H.layLost x) == 1 && s.air (K.LAYER_SRC_LOSS x) == 2) || (kind == 1 && decide (65536 ≤ s.air (K.LAYER_SRC_ID x)))

/-- The canvas pixel of EAS[e] at (x, y): background, then layers 0 to 7 (R258, R264). Its key is that of R258. -/
def State.canvasPix (s : State) (e x y : Nat) : Pix :=
  let bg : Pix := ⟨s.air (K.EAS_BG_Y e), s.air (K.EAS_BG_CB e), s.air (K.EAS_BG_CR e), s.air (K.EAS_BG_ALPHA e)⟩
  let p := (List.range 8).foldl (fun d l =>
    let z := 8 * e + l
    match s.layerPix z x y with
    | none => d
    | some v =>
      let q := if s.layerBlack z then v else (s.colorSet z).apply v
      let a := alphaEff q.key (s.air (K.LAYER_BLEND_OPACITY z)) (s.air (K.LAYER_BLEND_ALPHA_SRC z) == 1)
      blendPix (s.air (K.LAYER_BLEND_ALPHA_MODE z)) a q d) bg
  { p with key := if s.air (K.EAS_CANVAS_KEY_MODE e) = 0 then 4095 else p.key * 4 + p.key / 256 }

/-- Size of the canvas of EAS[e] from a view of its objects (R256). -/
def canvasSize (rd : Nat → Nat) (e : Nat) : Nat × Nat :=
  let d := fmtSize (rd (K.EAS_CANVAS_FORMAT e))
  (if rd (K.EAS_CANVAS_WIDTH e) = 0 then d.1 else rd (K.EAS_CANVAS_WIDTH e),
   if rd (K.EAS_CANVAS_HEIGHT e) = 0 then d.2 else rd (K.EAS_CANVAS_HEIGHT e))

/-- Write the canvas of EAS[e] into a buffer (R278). -/
def State.writeBack (s : State) (e b : Nat) : State :=
  let sz := canvasSize s.air e
  let f := s.rd (K.BUF_FORMAT b)
  s.upto sz.2 (fun y t =>
    t.fsWrites (s.rd (K.BUF_ADDR b) + y * s.rd (K.BUF_PITCH b)) (packLine f ((List.range sz.1).map (fun x => s.canvasPix e x y))))

end Sys2Proof.Machine
end

