-- ==== Sys2Proof/Machine/Frc.lean ====
section
/-! DEFINITION. Motion-compensated rate conversion: estimation, interpolation, cadence, streams (spec/13, R289 to R309). -/
namespace Sys2Proof.Machine

/-! ## Estimation (R297, R298) -/

/-- A vector in quarter pixels (level 0) or in whole pixels of a coarser level. -/
abbrev Vec2 := Int × Int

/-- Luma of a picture with its edges held. -/
def Picture.luma (p : Picture) (x y : Int) : Nat := (p.px (clampTo p.w x) (clampTo p.h y)).c0

/-- Luma decimated by `n` on each axis, box average, rounded (R297). -/
def Picture.box (p : Picture) (n : Nat) (x y : Int) : Nat :=
  let cx := clampTo (p.w / n) x
  let cy := clampTo (p.h / n) y
  let sum := (List.range (n * n)).foldl (fun a i => a + p.luma (n * cx + i % n : Nat) (n * cy + i / n : Nat)) 0
  (sum + n * n / 2) / (n * n)

/-- Bilinear sample at position (x, y) in units of 1 / q, of a function on whole positions (R299). -/
def bilinear (q : Nat) (f : Int → Int → Nat) (x y : Int) : Nat :=
  let i := x / q
  let j := y / q
  let fx := (x % q).toNat
  let fy := (y % q).toNat
  ((q - fx) * (q - fy) * f i j + fx * (q - fy) * f (i + 1) j + (q - fx) * fy * f i (j + 1) + fx * fy * f (i + 1) (j + 1)
    + q * q / 2) / (q * q)

/-- Sum of absolute differences of an 8 by 8 block at (bx, by) blocks between a and b displaced by a vector in units of 1 / q (R297). -/
def sad (q : Nat) (a b : Int → Int → Nat) (bx by' : Nat) (v : Vec2) : Nat :=
  (List.range 64).foldl (fun acc i =>
    let x : Int := (8 * bx + i % 8 : Nat)
    let y : Int := (8 * by' + i / 8 : Nat)
    acc + ((a x y : Int) - (bilinear q b (x * q + v.1) (y * q + v.2) : Nat)).natAbs) 0

/-- The vectors within ±rx, ±ry of `c`, in raster order. -/
def around (c : Vec2) (rx ry : Nat) : List Vec2 :=
  (List.range (2 * ry + 1)).flatMap (fun (j : Nat) => (List.range (2 * rx + 1)).map (fun (i : Nat) =>
    (c.1 + (i : Int) - (rx : Int), c.2 + (j : Int) - (ry : Int))))

/-- The first best vector of a search and its score (R297). -/
def bestOf (score : Vec2 → Nat) (l : List Vec2) : Vec2 × Nat :=
  match l with
  | [] => ((0, 0), 0)
  | v :: t => t.foldl (fun b u => let x := score u; if x < b.2 then (u, x) else b) (v, score v)

/-- A vector clamped to the range of a level whose pixel is `u` quarter pixels (R297). -/
def clampVec (u : Int) (v : Vec2) : Vec2 := (max (-1024 / u) (min (1024 / u) v.1), max (-512 / u) (min (512 / u) v.2))

/-- The level-2 field: vectors in level-2 pixels, block by block in raster order; `old` the previous pair's field (R297). -/
def level2 (a b : Picture) (old : List Vec2) : List Vec2 :=
  let bw := ceilDiv a.w 32
  let bh := ceilDiv a.h 32
  let ow := ceilDiv a.w 8
  (List.range (bw * bh)).foldl (fun acc n =>
    let bx := n % bw
    let by' := n / bw
    let o := old.getD (4 * by' * ow + 4 * bx) (0, 0)
    let left := if bx = 0 then [] else [acc.getD (n - 1) (0, 0)]
    let up := if by' = 0 then [] else [acc.getD (n - bw) (0, 0)]
    let cands := [(0, 0), (divRoundI o.1 16, divRoundI o.2 16)] ++ left ++ up
    acc ++ [(bestOf (sad 1 (a.box 4) (b.box 4) bx by') (cands ++ around (0, 0) 64 32)).1]) []

/-- The field of a pair: one vector in quarter pixels for each 8 by 8 block, with its score (R297). -/
def estimate (a b : Picture) (old : List Vec2) : List (Vec2 × Nat) :=
  let l2 := level2 a b old
  let w2 := ceilDiv a.w 32
  let w1 := ceilDiv a.w 16
  let h1 := ceilDiv a.h 16
  let l1 := (List.range (w1 * h1)).map (fun n =>
    let v := l2.getD (n / w1 / 2 * w2 + n % w1 / 2) (0, 0)
    clampVec 8 (bestOf (sad 1 (a.box 2) (b.box 2) (n % w1) (n / w1)) (around (2 * v.1, 2 * v.2) 2 2)).1)
  let w0 := ceilDiv a.w 8
  let h0 := ceilDiv a.h 8
  (List.range (w0 * h0)).map (fun n =>
    let v := l1.getD (n / w0 / 2 * w1 + n % w0 / 2) (0, 0)
    let u := clampVec 4 (bestOf (sad 1 a.luma b.luma (n % w0) (n / w0)) (around (2 * v.1, 2 * v.2) 2 2)).1
    let score := sad 4 a.luma b.luma (n % w0) (n / w0)
    bestOf (fun q => score (clampVec 1 q)) (around (4 * u.1, 4 * u.2) 3 3) |> fun r => (clampVec 1 r.1, r.2))

/-- Confidence of a block from its score (R298). -/
def confidence (score : Nat) : Nat := 255 - min 255 (score / 64)

/-- Mix weight of a block from its confidence (R298). -/
def mixWeight (lo thr conf : Nat) : Nat :=
  if thr ≤ conf then 1024 else if conf ≤ lo then 0 else ((conf - lo) * 1024 + (thr - lo) / 2) / (thr - lo)

/-! ## Interpolation (R296, R299, R300) -/

/-- A pixel of a picture with its edges held. -/
def Picture.at (p : Picture) (x y : Int) : Pix := p.px (clampTo p.w x) (clampTo p.h y)

/-- Bilinear pixel at 1/16 positions (R299). -/
def Picture.bil (p : Picture) (x y : Int) : Pix :=
  let one (f : Pix → Nat) : Nat := bilinear 16 (fun i j => f (p.at i j)) x y
  ⟨one Pix.c0, one Pix.c1, one Pix.c2, one Pix.key⟩

/-- Apply a function to each component of two pixels. -/
def Pix.zip (f : Nat → Nat → Nat) (a b : Pix) : Pix := ⟨f a.c0 b.c0, f a.c1 b.c1, f a.c2 b.c2, f a.key b.key⟩

/-- The blend of R296. -/
def blend (w : Nat) (a b : Pix) : Pix := Pix.zip (fun x y => min 4095 (((1024 - w) * x + w * y + 512) / 1024)) a b

/-- The fields a pair is interpolated with: forward, backward, confidence, and the limits of EST. -/
structure Motion where
  fwd : List Vec2
  bwd : List Vec2
  conf : List Nat
  lo : Nat
  thr : Nat
  occ : Nat
deriving DecidableEq, Repr

/-- The block an integer position lies in, edges held. -/
def blockAt (w h : Nat) (x y : Int) : Nat := clampTo h y / 8 * ceilDiv w 8 + clampTo w x / 8

/-- |v| in quarter pixels (R300). -/
def absVec (v : Vec2) : Nat := v.1.natAbs + v.2.natAbs

/-- The motion-compensated value of a pixel and whether it is occluded or in conflict (R299, R300). -/
def Motion.pix (m : Motion) (w : Nat) (a b : Picture) (x y : Nat) : Pix × Bool :=
  if w = 0 then (a.at x y, false) else if 1024 ≤ w then (b.at x y, false) else
  let bw := ceilDiv a.w 8
  let bh := ceilDiv a.h 8
  let bx := x / 8
  let by' := y / 8
  let nb := [((-1 : Int), (-1 : Int)), (0, -1), (1, -1), (-1, 0), (1, 0), (-1, 1), (0, 1), (1, 1)].filterMap (fun d =>
    let i := (bx : Int) + d.1
    let j := (by' : Int) + d.2
    if i < 0 ∨ j < 0 ∨ (bw : Int) ≤ i ∨ (bh : Int) ≤ j then none else some (j.toNat * bw + i.toNat))
  let offs (v : Vec2) : Vec2 × Vec2 :=
    let oa (c : Int) : Int := -((w * 4 * c + 512) / 1024)
    let ob (c : Int) : Int := ((1024 - w : Nat) * 4 * c + 512) / 1024
    ((oa v.1, oa v.2), (ob v.1, ob v.2))
  let eval (n : Nat) : Nat × Vec2 × Pix × Pix :=
    let v := m.fwd.getD n (0, 0)
    let o := offs v
    (n, v, a.bil (16 * x + o.1.1) (16 * y + o.1.2), b.bil (16 * x + o.2.1) (16 * y + o.2.2))
  let gap (c : Nat × Vec2 × Pix × Pix) : Nat := ((c.2.2.1.c0 : Int) - (c.2.2.2.c0 : Int)).natAbs
  let best := nb.foldl (fun c n => let d := eval n; if gap d < gap c then d else c) (eval (by' * bw + bx))
  let v := best.2.1
  let sA := best.2.2.1
  let sB := best.2.2.2
  let o := offs v
  let gv := m.bwd.getD (blockAt a.w a.h ((16 * x + o.2.1) / 16) ((16 * y + o.2.2) / 16)) (0, 0)
  let fv := m.fwd.getD (blockAt a.w a.h ((16 * x + o.1.1) / 16) ((16 * y + o.1.2) / 16)) (0, 0)
  let eB := absVec (v.1 + gv.1, v.2 + gv.2)
  let eA := absVec (fv.1 - v.1, fv.2 - v.2)
  let bl := blend w (a.at x y) (b.at x y)
  match decide (eA ≤ m.occ), decide (eB ≤ m.occ) with
  | true, true =>
    let k := mixWeight m.lo m.thr (m.conf.getD best.1 0)
    (Pix.zip (fun p q => min 4095 ((k * p + (1024 - k) * q + 512) / 1024)) (blend w sA sB) bl, false)
  | true, false => (sA, true)
  | false, true => (sB, true)
  | false, false => (bl, true)

/-! ## Streams -/

/-- Index of stream k of FRC[f]. -/
def frcX (f k : Nat) : Nat := 4 * f + k
/-- Block index of FRC[f]. -/
def frcIdx (f : Nat) : Nat := 0x5800 + 0x40 * f

/-- A held picture: content time, stamp, slot. -/
abbrev Held := Nat × Nat × Nat

/-- The pictures a list of numbers holds. -/
def heldOf : List Nat → List Held
  | c :: p :: j :: t => (c, p, j) :: heldOf t
  | _ => []

/-- The pictures a stream holds, oldest first. -/
def State.frcHeld (s : State) (x : Nat) : List Held := heldOf (s.vec (H.frcPics x))

/-- Set them. -/
def State.setHeld (s : State) (x : Nat) (l : List Held) : State :=
  s.setVec (H.frcPics x) (l.flatMap (fun p => [p.1, p.2.1, p.2.2]))

/-- The picture in a slot of a stream. -/
def State.frcPicture (s : State) (x j : Nat) : Picture :=
  let sz := fmtSize (s.rd (K.FRC_OTIM_FORMAT (x / 4)))
  ⟨sz.1, sz.2, false, fun i y =>
    match (s.vec (H.frcRow ((x * 16 + j) * 8192 + y)))[i]? with
    | some w => Pix.ofWord w
    | none => Pix.black⟩

/-- Vectors as numbers. -/
def encVec (v : Vec2) : Nat := ofInt 16 v.1 * 65536 + ofInt 16 v.2
/-- Numbers as vectors. -/
def decVec (n : Nat) : Vec2 := (toInt 16 (n / 65536), toInt 16 (n % 65536))

/-- The fields of the pair that begins in a slot. -/
def State.motion (s : State) (x j : Nat) : Motion :=
  let f := x / 4
  ⟨(s.vec (H.frcFwd (16 * x + j))).map decVec, (s.vec (H.frcBwd (16 * x + j))).map decVec, s.vec (H.frcConf (16 * x + j)),
    s.rd (K.FRC_EST_CONF_LO f), s.rd (K.FRC_EST_CONF_THR f), s.rd (K.FRC_EST_OCC_THR f)⟩

/-- Pixel (i, y) of the output frame of a stream (R296, R303): black without a picture. -/
def State.frcPix (s : State) (f k i y : Nat) : Pix :=
  let x := frcX f k
  if s.rd (H.frcA x) = 0 then Pix.black else
  let ja := s.rd (H.frcA x) - 1
  let a := s.frcPicture x ja
  let b := s.frcPicture x (s.rd (H.frcB x) - 1)
  let w := s.rd (K.FRC_SSTAT_W f k)
  match s.rd (K.FRC_SSTAT_MODE_ACTIVE f k) with
  | 0 => a.at i y
  | 1 => if w < 512 then a.at i y else b.at i y
  | 2 => blend w (a.at i y) (b.at i y)
  | _ => ((s.motion x ja).pix w a b i y).1

/-- Blocks of the output frame with an occluded or conflicting pixel (R300). -/
def State.occluded (s : State) (f k : Nat) : Nat :=
  let x := frcX f k
  let ja := s.rd (H.frcA x) - 1
  let a := s.frcPicture x ja
  let b := s.frcPicture x (s.rd (H.frcB x) - 1)
  let w := s.rd (K.FRC_SSTAT_W f k)
  let m := s.motion x ja
  let bw := ceilDiv a.w 8
  ((List.range (bw * ceilDiv a.h 8)).filter (fun n => (List.range 64).any (fun i =>
    let px := n % bw * 8 + i % 8
    let py := n / bw * 8 + i / 8
    decide (px < a.w) && decide (py < a.h) && (m.pix w a b px py).2))).length

/-- Move a stream to a state, raising FRC_STREAM_STATE (R309). -/
def State.frcMove (s : State) (f k new : Nat) : State :=
  let old := s.rd (K.FRC_SSTAT_STATE f k)
  if old = new then s
  else (s.wr (K.FRC_SSTAT_STATE f k) new).raise 0x4401 (frcIdx f) (f * 256 + k) (old * 256 + new)

/-- The format of a stream's source, by a view of its objects. -/
def State.frcSrcFmt (s : State) (rd : Nat → Nat) (f k : Nat) : Nat :=
  let src := rd (K.FRC_STREAM_SRC f k)
  match rd (K.FRC_STREAM_KIND f k) with
  | 1 => if src < 48 then s.rd (K.IN_STAT_FORMAT src) else if src < 64 then rd (K.EAS_CANVAS_FORMAT (src - 48)) else
      -- a test pattern takes its holder's format, which is the converter's raster
      if 80 ≤ src then rd (K.FRC_OTIM_FORMAT f) else 0
  | 2 => s.rd (K.IN_STAT_FORMAT src)
  | _ => 0

/-- Sum of fractions, rounded up. -/
def fracCeil (l : List (Nat × Nat)) : Nat :=
  let r := l.foldl (fun a p => (a.1 * p.2 + p.1 * a.2, a.2 * p.2)) (0, 1)
  ceilDiv r.1 r.2

/-- Frame period of a format in ns, as a fraction. -/
def periodFrac (c : Nat) : Nat × Nat := match fmt c with | some f => (rateDen f.rate * 1000000000, rateNum f.rate) | none => (0, 1)

/-- Line period of a format in ns times `n`, as a fraction. -/
def linesFrac (c n : Nat) : Nat × Nat :=
  match fmt c with
  | some f => (n * rateDen f.rate * 1000000000, rateNum f.rate * f.lines)
  | none => (0, 1)

/-- Source periods in T_c (R294). -/
def cadenceMul (c : Nat) : Nat := if c = 1 then 2 else if c = 2 then 3 else 1

/-- The display delay L of a stream in ns (R295). -/
def State.frcDelay (s : State) (rd : Nat → Nat) (f k : Nat) : Nat :=
  let src := s.frcSrcFmt rd f k
  let t := periodFrac src
  let m := cadenceMul (rd (K.FRC_STREAM_CADENCE f k))
  fracCeil [(2 * m * t.1, t.2), periodFrac (rd (K.FRC_OTIM_FORMAT f)),
    if rd (K.FRC_STREAM_KIND f k) = 1 then (400, 1) else linesFrac src 4,
    if rd (K.FRC_STREAM_KIND f k) = 1 then (0, 1) else (1000, 1)]

/-- The format a stream's source has now is the one it was admitted with (R292, R304). -/
def State.frcFix (s : State) (f k : Nat) : State := s.wr (H.frcFmt (frcX f k)) (s.frcSrcFmt s.rd f k)

/-- A stream whose source changes, or whose FRC starts, waits for pictures of its source (R303). -/
def State.frcPrime (s : State) (f k : Nat) : State :=
  let x := frcX f k
  let s := (s.setHeld x []).setVec (H.frcFlags x) []
  let s := s.wrs [(H.frcPrev x, 0), (H.frcCount x, 0), (H.frcLastB x, 0), (H.frcShown x, 0), (K.FRC_SSTAT_CADENCE_STATE f k, 0),
    (K.FRC_SSTAT_DELAY f k, s.frcDelay s.rd f k)]
  let s : State := match fmt (s.frcSrcFmt s.rd f k) with
    | some g => s.wr (K.FRC_SSTAT_IN_RATE f k) g.rate
    | none => s.wr (K.FRC_SSTAT_IN_RATE f k) 255
  s.frcMove f k 2

/-- A stream's source is lost (R304). -/
def State.frcLose (s : State) (f k cause : Nat) : State :=
  let x := frcX f k
  let st := s.rd (K.FRC_SSTAT_STATE f k)
  if st = 0 ∨ st = 3 then s else
  let s := s.wrs [(H.frcLostCnt x, 0), (H.frcWasLost x, 1), (H.frcStale x, if cause = 5 then 1 else 0), (K.FRC_SSTAT_LAST_LAT f k, 0xFFFFFFFF)]
  (s.raise 0x4405 (frcIdx f) (f * 256 + k) (s.rd (K.FRC_STREAM_SRC f k) * 256 + cause)).frcMove f k 3

/-- The logical cluster a crossbar source lies in: two Easels and two converters each (R25). -/
def clusterOf (src : Nat) : Option Nat :=
  if 48 ≤ src ∧ src < 64 then some ((src - 48) / 2) else if 64 ≤ src ∧ src < 80 then some ((src - 64) / 2) else none

/-- Its logical cluster has no physical one (R352). -/
def State.noCluster (s : State) (src : Nat) : Bool :=
  match clusterOf src with
  | some c => s.rd (K.CLMAP_PHYS c) == 0xFF
  | none => false

/-- No cluster composes it: it has none, or one that has come back and not yet reached the unit's development point (R352, R353). -/
def State.unmapped (s : State) (src : Nat) : Bool :=
  s.noCluster src || (decide (48 ≤ src ∧ src < 80) && s.rd (H.unitWait src) == 1)

/-- Why a stream's source is not there now (R304): cause, or none. -/
def State.frcGone (s : State) (f k : Nat) : Option Nat :=
  let src := s.rd (K.FRC_STREAM_SRC f k)
  let kind := s.rd (K.FRC_STREAM_KIND f k)
  if (kind = 1 ∨ kind = 2) ∧ src < 48 then
    if s.rd (K.IN_STAT_STATE src) ≠ 4 then
      if kind = 2 ∧ s.rd (K.IN_BRACKET_STATE src) = 4 then some 3
      -- a bracketed pair serves the ring while either input is healthy (R148)
      else if kind = 2 ∧ (s.rd (K.IN_BRACKET_STATE src) = 3 ∨ s.rd (K.IN_BRACKET_STATE src) = 1) then none else some 0
    else if (s.rd (H.frcFmt (frcX f k)) ≠ 0 ∧ s.rd (K.IN_STAT_FORMAT src) ≠ s.rd (H.frcFmt (frcX f k))) ∨
        fmtSize (s.rd (K.IN_STAT_FORMAT src)) ≠ fmtSize (s.rd (K.FRC_OTIM_FORMAT f)) then some 1 else none
  else if kind = 1 ∧ src < 64 then (if s.rd (K.EAS_STATE_TSTATE (src - 48)) = 0 ∨ s.unmapped src then some 4 else none)
  else none

/-- Frames of a stream for the estimator to make up (R303, R305, R296): blended frames with their event. -/
def State.frcRecover (s : State) (f k cause : Nat) : State :=
  if s.rd (K.FRC_STREAM_MODE f k) ≠ 3 then s else
  (s.wr (H.frcBlend (frcX f k)) 2).raise 0x4404 (frcIdx f) (f * 256 + k) (cause * 256 + 2)

/-- A cluster failed with the estimator of a stream: its fields and temporal candidates are gone, and two frames are blended (R305). -/
def State.frcFailover (s : State) (f k : Nat) : State :=
  let x := frcX f k
  let s := s.upto 16 (fun j t => ((t.setVec (H.frcFwd (16 * x + j)) []).setVec (H.frcBwd (16 * x + j)) []).setVec (H.frcConf (16 * x + j)) [])
  if s.rd (K.FRC_STREAM_MODE f k) ≠ 3 ∨ (s.rd (K.FRC_SSTAT_STATE f k) ≠ 1 ∧ s.rd (K.FRC_SSTAT_STATE f k) ≠ 4) then s
  else (s.frcMove f k 4).frcRecover f k 0

/-! ## Wire frames and cadence (R301, R302) -/

/-- Number of 8 by 8 luma blocks whose mean absolute difference exceeds a limit. -/
def diffBlocks (lim : Nat) (a b : Picture) : Nat :=
  let bw := a.w / 8
  ((List.range (bw * (a.h / 8))).filter (fun n => decide (64 * lim < sad 1 a.luma b.luma (n % bw) (n / bw) (0, 0)))).length

/-- A frame repeats the one before it (R301). -/
def isRepeat (lim : Nat) (a b : Picture) : Bool := decide (1024 * diffBlocks lim a b ≤ a.w / 8 * (a.h / 8))

/-- The flags, newest first, end a run of the 3:2 pattern at some phase (R301). -/
def is32 (l : List Nat) : Bool :=
  let p := [0, 1, 1, 0, 1, 0, 1, 1, 0, 1]
  decide (10 ≤ l.length) && (List.range 5).any (fun r => (l.take 10).reverse == p.drop r ++ p.take r)

/-- The flags end with 0, 1, 0, 1 (R301). -/
def is22 (l : List Nat) : Bool := l.take 4 == [1, 0, 1, 0]

/-- The flag the locked pattern expects next, from the flags before it (R302). -/
def dueFlag (lock : Nat) (l : List Nat) : Nat := if lock = 1 then 1 - l.getD 0 0 else l.getD 4 0

/-- A free slot for the next picture of a stream: not held, not on air. -/
def State.frcSlot (s : State) (x : Nat) : Nat :=
  let used := (s.frcHeld x).map (fun p => p.2.2) ++ [s.rd (H.frcA x) - 1, s.rd (H.frcB x) - 1, s.rd (H.frcPrev x) - 1]
  ((List.range 16).find? (fun j => !used.contains j)).getD 15

/-- The picture a stream's source shows now: its crossbar rows, or the newest whole slot of its ring. -/
def State.frcWire (s : State) (f k : Nat) : Picture :=
  let src := s.rd (K.FRC_STREAM_SRC f k)
  if s.rd (K.FRC_STREAM_KIND f k) = 1 then s.livePicture (48 + f) src
  else
    let src := s.inUse src
    let full := (List.range 3).filter (fun j => s.rd (H.slotFull (4 * src + j)) == 1)
    let newest := full.foldl (fun m j => if s.rd (H.slotAt (4 * src + m)) ≤ s.rd (H.slotAt (4 * src + j)) then j else m) (full.headD 0)
    s.slotPicture src newest none

/-- CADENCE_FRAME: a wire frame of stream k arrives whole, with its input stamp in ns; it is judged repeat or distinct, the cadence
locks or breaks, and a distinct picture takes its content time (R294, R301, R302). -/
def execCadenceFrame (f : Fin 16) (k : Fin 4) (stamp : Nat) (s : State) : Host.Outcome State Fault Refusal :=
  let f := f.val
  let k := k.val
  let x := frcX f k
  if s.rd (K.FRC_SSTAT_STATE f k) = 0 ∨ s.rd (K.FRC_STREAM_KIND f k) = 0 then .next s else
  let pic := s.frcWire f k
  let cad := s.rd (K.FRC_STREAM_CADENCE f k)
  let hasPrev := s.rd (H.frcPrev x) ≠ 0
  let rep : Nat := if cad ≠ 0 ∧ hasPrev ∧ isRepeat (s.rd (K.FRC_EST_REPEAT_DIFF f)) pic (s.frcPicture x (s.rd (H.frcPrev x) - 1)) then 1 else 0
  let j := s.frcSlot x
  let s := s.upto pic.h (fun y t => t.setVec (H.frcRow ((x * 16 + j) * 8192 + y)) ((List.range pic.w).map (fun i => (pic.px i y).word)))
  let old := s.vec (H.frcFlags x)
  let l := (rep :: old).take 16
  let lock := s.rd (K.FRC_SSTAT_CADENCE_STATE f k)
  let s := (s.setVec (H.frcFlags x) l).wrs [(H.frcPrev x, j + 1), (H.frcStale x, 0)]
  let broke := lock ≠ 0 ∧ dueFlag lock old ≠ rep
  let s : State := if broke then
      ((s.wr (K.FRC_SSTAT_CADENCE_STATE f k) 0).count (K.FRC_RUN f 8) 1).raise 0x4403 (frcIdx f) (f * 256 + k) (stamp % 1000000000)
    else s
  -- a repeat counts as a picture only while no pattern is locked (R302); the repeat that breaks one is discarded
  let taken := lock = 0 ∨ rep = 0
  let opener := l.getD 2 1 = 0
  let s : State :=
    if !decide taken then s
    else
      let grid := lock = 2 ∧ ¬ broke
      let n := s.rd (H.frcCount x) + 1
      let anchor := grid ∧ opener ∧ (s.rd (H.frcBase x) = 0 ∨ 5 ≤ n)
      let t := periodFrac (s.frcSrcFmt s.rd f k)
      let c := if !decide grid ∨ decide anchor ∨ s.rd (H.frcBase x) = 0 then stamp
        else min stamp (s.rd (H.frcBase x) + divRound (5 * n * t.1) (2 * t.2))
      let s : State := if decide anchor then s.wrs [(H.frcBase x, stamp), (H.frcCount x, 0)]
        else if decide grid then s.wr (H.frcCount x) n else s.wrs [(H.frcBase x, 0), (H.frcCount x, 0)]
      let held := s.frcHeld x
      s.setHeld x ((if 12 ≤ held.length then held.drop 1 else held) ++ [(c, stamp, j)])
  let new := if cad = 2 ∧ is32 l then 2 else if cad ≠ 0 ∧ is22 l then 1 else 0
  .next (if s.rd (K.FRC_SSTAT_CADENCE_STATE f k) = 0 ∧ ¬ broke ∧ new ≠ 0 then
      ((s.wr (K.FRC_SSTAT_CADENCE_STATE f k) new).wr (H.frcBase x) 0).raise 0x4402 (frcIdx f) (f * 256 + k) new
    else s)

/-- MOTION_ESTIMATION: the estimator completes both fields of the pair that begins with the picture in a slot (R297, R298). -/
def execMotionEstimation (f : Fin 16) (k : Fin 4) (j : Fin 16) (s : State) : Host.Outcome State Fault Refusal :=
  let f := f.val
  let k := k.val
  let j := j.val
  let x := frcX f k
  let held := s.frcHeld x
  let i := held.findIdx (fun p => p.2.2 == j)
  match held[i]?, held[i + 1]? with
  | some pa, some pb =>
    if s.rd (K.FRC_STREAM_MODE f k) ≠ 3 then .next s else
    let old : List Vec2 := match held[i - 1]? with
      | some p => if i = 0 then [] else (s.vec (H.frcFwd (16 * x + p.2.2))).map decVec
      | none => []
    let oldB : List Vec2 := match held[i - 1]? with
      | some p => if i = 0 then [] else (s.vec (H.frcBwd (16 * x + p.2.2))).map decVec
      | none => []
    let a := s.frcPicture x pa.2.2
    let b := s.frcPicture x pb.2.2
    let fw := estimate a b old
    let bw := estimate b a oldB
    let conf := fw.map (fun v => confidence v.2)
    .next (((s.setVec (H.frcFwd (16 * x + j)) (fw.map (fun v => encVec v.1))).setVec (H.frcBwd (16 * x + j))
      (bw.map (fun v => encVec v.1))).setVec (H.frcConf (16 * x + j)) conf)
  | _, _ => .next s

/-! ## The output frame (R295, R296, R303 to R305) -/

/-- The pair an output frame at instant τ shows: A the newest with c ≤ τ, B the next (R295). -/
def pairAt (tau : Int) : List Held → Option (Held × Held)
  | a :: b :: t => if tau < (a.1 : Int) then none else if tau < (b.1 : Int) then some (a, b) else pairAt tau (b :: t)
  | _ => none

/-- A frame of a stream that has no pictures to show: counted, without a latency, black by LOSS 1 (R295, R304). -/
def State.frcLossFrame (s : State) (f k : Nat) : State :=
  let s := (s.count (K.FRC_RUN f 10) 1).wr (K.FRC_SSTAT_LAST_LAT f k) 0xFFFFFFFF
  let s := s.inc (H.frcLostCnt (frcX f k)) 1 (2 ^ 32)
  if s.rd (K.FRC_SSTAT_STATE f k) = 3 ∧ s.rd (K.FRC_STREAM_LOSS f k) = 1 then s.wrs [(H.frcA (frcX f k), 0), (H.frcB (frcX f k), 0)] else s

/-- One stream at an output switch line with stamp `to'` (R295, R296, R303, R304). -/
def State.frcStream (s : State) (f k to' : Nat) : State :=
  let x := frcX f k
  if s.rd (K.FRC_SSTAT_STATE f k) = 0 then s else
  let s := s.count (K.FRC_RUN f 2) 1
  -- a source that has come back lets a lost stream prime again
  let s : State := if s.rd (K.FRC_SSTAT_STATE f k) = 3 ∧ s.frcGone f k = none ∧ s.rd (H.frcStale x) = 0 then s.frcPrime f k else s
  let tau : Int := (to' : Int) - s.rd (K.FRC_SSTAT_DELAY f k)
  let held := s.frcHeld x
  match pairAt tau held, decide (s.rd (K.FRC_SSTAT_STATE f k) = 3) with
  | _, true => s.frcLossFrame f k
  | none, false => if s.rd (K.FRC_SSTAT_STATE f k) = 2 then s.frcLossFrame f k else (s.frcLose f k 5).frcLossFrame f k
  | some (a, b), false =>
    let s : State := if s.rd (K.FRC_SSTAT_STATE f k) = 2 then
        let s := (s.frcMove f k 1).frcRecover f k 1
        if s.rd (H.frcWasLost x) = 1 then
          (s.raise 0x4406 (frcIdx f) (f * 256 + k) (s.rd (H.frcLostCnt x))).wrs [(H.frcWasLost x, 0), (H.frcLostCnt x, 0)]
        else s.wr (H.frcLostCnt x) 0
      else s
    let dc := b.1 - a.1
    let w := ((tau - a.1).toNat * 1024 + dc / 2) / dc
    let blended := s.rd (H.frcBlend x) ≠ 0 ∧ s.rd (K.FRC_STREAM_MODE f k) = 3
    let mode := if blended then 2 else s.rd (K.FRC_STREAM_MODE f k)
    let s : State := if blended then (s.up (H.frcBlend x) (fun v => v - 1)).count (K.FRC_RUN f 9) 1 else s.wr (H.frcBlend x) 0
    let s : State := if !decide blended ∧ s.rd (K.FRC_SSTAT_STATE f k) = 4 then s.frcMove f k 1 else s
    let s : State := if s.rd (H.frcLastB x) < b.1 + 1 then (s.wr (H.frcLastB x) (b.1 + 1)).count (K.FRC_RUN f 3) 1 else s
    let s : State :=
      if mode ≤ 1 then
        let shown := if mode = 1 ∧ 512 ≤ w then b.1 else a.1
        let last := s.rd (H.frcShown x)
        let s : State := if last = shown + 1 then s.count (K.FRC_RUN f 4) 1 else s
        let skipped := if last = 0 then 0 else (held.filter (fun p => decide (last < p.1 + 1) && decide (p.1 < shown))).length
        (s.count (K.FRC_RUN f 5) skipped).wr (H.frcShown x) (shown + 1)
      else s.wr (H.frcShown x) 0
    let s := s.wrs [(H.frcA x, a.2.2 + 1), (H.frcB x, b.2.2 + 1), (K.FRC_SSTAT_W f k, w), (K.FRC_SSTAT_MODE_ACTIVE f k, mode),
      (K.FRC_SSTAT_LAST_LAT f k, to' - b.2.1)]
    if mode = 3 then
      let conf := s.vec (H.frcConf (16 * x + a.2.2))
      let lo := s.rd (K.FRC_EST_CONF_LO f)
      let low := (conf.filter (fun c => decide (c ≤ lo))).length
      let s := (s.wr (K.FRC_SSTAT_LOW_CONF f k) (min low 65535)).count (K.FRC_RUN f 6)
        (conf.filter (fun c => decide (c < lo))).length
      let s := s.count (K.FRC_RUN f 7) (s.occluded f k)
      if conf.length < 4 * low then s.raiseLim (1000 + x) 0x4407 (frcIdx f) (fun c => (f * 256 + k, c)) else s
    else s.wr (K.FRC_SSTAT_LOW_CONF f k) 0

/-- The development of FRC[f] reaches its streams; `old` is the state before it (R296, R303). -/
def State.frcDeveloped (s old : State) (f : Nat) : State :=
  let s := s.upto 4 (fun k t =>
    let new (key : Nat) : Bool := t.rd key != old.rd key
    if t.rd (K.FRC_STREAM_KIND f k) = 0 then
      let x := frcX f k
      ((t.frcMove f k 0).setHeld x []).wrs [(H.frcA x, 0), (H.frcB x, 0), (K.FRC_SSTAT_IN_RATE f k, 255), (K.FRC_SSTAT_DELAY f k, 0),
        (K.FRC_SSTAT_LAST_LAT f k, 0xFFFFFFFF), (K.FRC_SSTAT_CADENCE_STATE f k, 0), (K.FRC_SSTAT_W f k, 0), (H.frcWasLost x, 0)]
    else if t.rd (K.FRC_STATE_TSTATE f) = 0 then t
    else if new (K.FRC_STREAM_KIND f k) || new (K.FRC_STREAM_SRC f k) || new (K.FRC_STREAM_CADENCE f k) || new (K.FRC_OTIM_FORMAT f)
    then (t.frcFix f k).frcPrime f k
    else if new (K.FRC_STREAM_MODE f k) && (t.rd (K.FRC_SSTAT_STATE f k) == 1 || t.rd (K.FRC_SSTAT_STATE f k) == 4) then t.frcRecover f k 2 else t)
  let rate := (List.range 4).foldl (fun a k =>
    if s.rd (K.FRC_STREAM_KIND f k) = 0 then a
    else
      let sz := fmtSize (s.rd (K.FRC_OTIM_FORMAT f))
      let r (c : Nat) : Nat := match fmt c with | some g => pixRate (sz.1 * sz.2) g.rate | none => 0
      a + max (r (s.frcSrcFmt s.rd f k)) (r (s.rd (K.FRC_OTIM_FORMAT f)))) 0
  s.wr (K.FRC_STATE_PIX_RATE f) (if s.rd (K.FRC_OTIM_FORMAT f) = 0 then 0 else rate)

/-- The streams of FRC[f] start with it (R303). -/
def State.frcStart (s : State) (f : Nat) : State :=
  s.upto 4 (fun k t => if t.rd (K.FRC_STREAM_KIND f k) = 0 then t else (t.frcFix f k).frcPrime f k)

end Sys2Proof.Machine
end

