-- ==== Sys2Proof/Machine/Routes.lean ====
section
/-! DEFINITION. Routes of outputs and layers: lead, slot choice, loss and recovery of a source (spec/08 R176 to R185, R192, R193; spec/12
R260 to R262; spec/09 R208). -/
namespace Sys2Proof.Machine

/-- Block index of OUT[n]. -/
def outIdx (n : Nat) : Nat := 0x3000 + 0x40 * n
/-- Block index of IN[i]. -/
def inIdx (i : Nat) : Nat := 0x2000 + 0x40 * i
/-- Block index of EAS[e]. -/
def easIdx (e : Nat) : Nat := 0x4000 + 0x40 * e
/-- Block index of layer x = 8 e + l. -/
def layIdx (x : Nat) : Nat := 0x4400 + 0x10 * x

/-! ## Lead of a crossbar hop (R177, R205) -/

/-- A time in units of 1 / den ns, reduced into half a period either side, with the period in the same units. -/
structure Lead where
  v : Int
  period : Nat
  den : Nat
deriving DecidableEq, Repr

/-- The lead of `ns` nanoseconds and `cycles` family clock cycles at rate code r, reduced into [-T/2, T/2) (R177). -/
def leadOf (ns cycles : Int) (r : Nat) : Lead :=
  let l := (ns * 297 + cycles * cycle297 r) * rateNum r
  let t := rateDen r * 1000000000 * 297
  ⟨(l + (t / 2 : Nat)) % t - (t / 2 : Nat), t, 297 * rateNum r⟩

/-- The lead in whole ns. -/
def Lead.ns (l : Lead) : Int := divRoundI l.v l.den

/-- The lead lies within 0.25 to 1.75 lines of a raster of so many lines (R177). -/
def Lead.inWindow (l : Lead) (lines : Nat) : Bool :=
  decide ((l.period : Int) ≤ 4 * lines * l.v) && decide (4 * lines * l.v ≤ 7 * (l.period : Int))

/-- A measured lead lies within 0 to 2 lines of a format (R178, R179). -/
def leadHolds (c : Nat) (lam : Int) : Bool :=
  match fmt c with
  | some f => decide (0 ≤ lam) && decide (lam * (rateNum f.rate * f.lines : Nat) ≤ (2 * rateDen f.rate * 1000000000 : Nat))
  | none => false

/-- What a history of pairs tick, phase, the newest first, holds of the second before `now`: the pairs of that second, and the one in force
when it began (R177). -/
def lastSecond (now : Nat) : List Nat → List (Nat × Nat)
  | t :: p :: r => if t + 1000000 ≤ now then [(t, p)] else (t, p) :: lastSecond now r
  | _ => []

/-- TIMING.PHASE[g] of input i as it reads: 0x8000_0000 unless the RATE of the family is the input's frame rate (R151). -/
def State.inPhase (s : State) (i g : Nat) : Nat :=
  match fmt (s.rd (K.IN_STAT_FORMAT i)) with
  | some f => if s.rd (K.GSYN_RATE g) = f.rate then s.rd (K.IN_TIMING_PHASE i g) else 0x80000000
  | none => 0x80000000

/-- The input is locked to the selector of family g: it is the ACTIVE candidate, or the selector is LOCKED and PHASE has stayed in a
band of 100 ns over the last second (R177). -/
def State.lockedTo (s : State) (i g : Nat) : Bool :=
  let j := s.rd (K.GSYN_SEL g)
  s.rd (K.SEL_ACTIVE j) == i ||
  (s.rd (K.SEL_STATE j) == 2 &&
    (let h := lastSecond s.now (s.vec (H.phaseHist (8 * i + g)))
     let ph := h.map (fun p => toInt 32 p.2)
     h.any (fun p => decide (p.1 + 1000000 ≤ s.now)) &&
     decide (ph.foldl max (ph.headD 0) - ph.foldl min (ph.headD 0) ≤ 100)))

/-- λ of a route from input i to a receiver on family g with a timing offset (R177); none where PHASE reads 0x8000_0000. -/
def State.lambda (s : State) (i g : Nat) (off : Int) (r : Nat) : Option Lead :=
  let p := s.inPhase i g
  if p = 0x80000000 then none else some (leadOf (toInt 32 p) off r)

/-- The DIRECT conditions of R177 for input i and a receiver of format c on family g. -/
def State.directOk (s : State) (i c g : Nat) (off : Int) : Bool :=
  match fmt c with
  | none => false
  | some f =>
    s.rd (K.IN_STAT_STATE i) == 4 && s.rd (K.IN_STAT_FORMAT i) == c && s.lockedTo i g &&
    (match s.lambda i g off f.rate with
     | some l => l.inWindow f.lines
     | none => false)

/-! ## Slots (R181, R260) -/

/-- The stamp in ns of a slot of a ring, if the slot holds a frame. -/
def State.slotStamp (s : State) (i j : Nat) : Option Nat :=
  let v := s.rd (H.slotAt (4 * i + j))
  if v = 0 then none else some (v - 1)

/-- The slot of ring i whose start lies nearest to a stamp. -/
def State.nearestSlot (s : State) (i at' : Nat) : Option Nat :=
  (List.range 3).foldl (fun m j =>
    match s.slotStamp i j with
    | none => m
    | some t =>
      match m with
      | none => some j
      | some b =>
        match s.slotStamp i b with
        | some u => if ((t : Int) - at').natAbs < ((u : Int) - at').natAbs then some j else m
        | none => some j) none

/-- The backup that stands beside a primary in STORED reading, or the primary beside its backup (R148, R149). -/
def State.partner (s : State) (i : Nat) : Option Nat :=
  if s.rd (K.IN_BRACKET_ROLE i) = 1 then some (s.rd (K.IN_BRACKET_PARTNER i)) else none

/-- The later of the stamps that count for slot j of ring i: its own, that of the other input of a pair, that of the key (R149, R181,
R192). -/
def State.laterStamp (s : State) (i j : Nat) (others : List Nat) : Option Nat :=
  match s.slotStamp i j with
  | none => none
  | some t => some (others.foldl (fun m o =>
      match s.nearestSlot o t with
      | some k => match s.slotStamp o k with
        | some u => max m u
        | none => m
      | none => m) t)

/-- θ in ns, rounded up: 4 input lines, or 6 for a pair or a key merge (R181). -/
def theta (c : Nat) (wide : Bool) : Nat := fracCeil [linesFrac c (if wide then 6 else 4)]

/-- The choice of R181 for a reader at `to'` of ring i (format c): previous slot (plus 1, 0 none); `wide` for a pair or a key merge, whose
`others` count. The result is the slot plus 1 and 0 in turn, 1 repeat, 2 drop. `period` is the frame or field period. -/
def State.chooseSlot (s : State) (i c : Nat) (wide : Bool) (others : List Nat) (to' prev : Nat) (period : Nat × Nat) : Nat × Nat :=
  let th := theta c wide
  let age (j : Nat) : Option Int := (s.laterStamp i j others).map (fun t => (to' : Int) - t)
  let ok (j : Nat) : Bool := match age j with | some a => decide ((th : Int) ≤ a) | none => false
  if prev = 0 then
    let best := ((List.range 3).filter ok).foldl (fun m j =>
      match m with
      | none => some j
      | some b => if (s.slotStamp i b).getD 0 < (s.slotStamp i j).getD 0 then some j else m) (none : Option Nat)
    (match best with | some j => j + 1 | none => 0, 0)
  else
    let p := prev - 1
    let nxt := (p + 1) % 3
    let fresh := decide ((s.slotStamp i p).getD 0 < (s.slotStamp i nxt).getD 0)
    if !fresh || !ok nxt then (prev, 1)
    else
      let lim := fracCeil [period, linesFrac c (if wide then 6 else 4), (1000, 1)]
      match age nxt with
      | some a => if (lim : Int) ≤ a then ((nxt + 1) % 3 + 1, 2) else (nxt + 1, 0)
      | none => (prev, 1)

/-- The newest slot of ring i written completely in format c, plus 1; 0 none (R184). -/
def State.lastFull (s : State) (i c : Nat) : Nat :=
  let l := (List.range 3).filter (fun j => s.rd (H.slotFull (4 * i + j)) == 1 && s.rd (H.slotFmt (4 * i + j)) == c)
  match l with
  | [] => 0
  | a :: t => t.foldl (fun m j => if (s.slotStamp i m).getD 0 < (s.slotStamp i j).getD 0 then j else m) a + 1

/-! ## The route of an output -/

/-- The unit whose route and picture objects OUT[n] follows: the primary of a bracketed partner (R169), then the fill output of a key
output (R193). -/
def State.routeUnit (s : State) (n : Nat) : Nat :=
  let p := match (List.range 48).find? (fun m => s.air (K.OUT_BRACKET_PARTNER m) == n) with
    | some m => m
    | none => n
  if s.air (K.OUT_CONV_KEY_OUT p) = 1 ∧ s.air (K.OUT_ROUTE_PAIR p) < 48 then s.air (K.OUT_ROUTE_PAIR p) else p

/-- The unit whose conversion, ANC and audio settings OUT[n] uses (R169). -/
def State.pictureUnit (s : State) (n : Nat) : Nat :=
  match (List.range 48).find? (fun m => s.air (K.OUT_BRACKET_PARTNER m) == n) with
  | some m => m
  | none => n

/-- The route objects that reach the wire at the cut (R175, R185). -/
def routeKeys (n : Nat) : List Nat :=
  [K.OUT_ROUTE_SRC n, K.OUT_ROUTE_BUF n, K.OUT_ROUTE_PATH n, K.OUT_ROUTE_MAX_LAT_REQ n, K.OUT_ROUTE_LOSS n, K.OUT_ROUTE_KEY_SRC n,
    K.OUT_ROUTE_PAIR n, K.OUT_ROUTE_PATTERN n, K.OUT_ROUTE_FRC_STREAM n, H.outPath n]

/-- A STORED reader of input i with key input `key` (48 or more: none) reads a pair or merges a key, so that θ is the wide one (R149, R181). -/
def State.wide (s : State) (i key : Nat) : Bool := (s.partner i).isSome || decide (key < 48)

/-- The partner's format, skew and lines fit, so that its stamp counts (R148, R149). -/
def State.beside (s : State) (p o : Nat) : Bool :=
  s.rd (K.IN_STAT_STATE o) == 4 && s.rd (H.lastFmt p) == s.rd (H.lastFmt (s.rd (K.IN_BRACKET_PARTNER p)))
    && decide ((s.rdI 32 (K.IN_BRACKET_SKEW p)).natAbs ≤ fracCeil [linesFrac (s.rd (H.lastFmt o)) (s.rd (K.IN_BRACKET_SKEW_MAX p))])

/-- Inputs beside the one in use whose stamps count for a STORED reader: the other input of a pair while it delivers, the key input while it
is VALID (R149, R181, R192). -/
def State.besides (s : State) (i key : Nat) : List Nat :=
  (match s.partner i with
   | some p =>
     let o := if s.inUse i = i then p else i
     if s.beside i o then [o] else []
   | none => []) ++ (if key < 48 ∧ s.rd (K.IN_STAT_STATE key) = 4 then [key] else [])

/-- A violation of the contract in the present frame: the frame counts once. The loss of a window (cause 1) is told of beside what the switch
line of the same frame measured (R179, R208, log 83). -/
def State.violation (s : State) (n cause excess : Nat) : State :=
  let fr := s.rd (K.OUT_EVT_FRAME n)
  let counted := s.rd (H.violFrame n) = fr + 1
  if counted ∧ (cause = 0 ∨ s.rd (H.violWin n) = fr + 1) then s else
  let s : State := if counted then s else
    ((s.wr (H.violFrame n) (fr + 1)).incSat (K.OUT_MEASURED_VIOLATIONS n) 1 0xFFFFFFFF).wr (K.OUT_MEASURED_VIOL_FRAME n) fr
  let s : State := if cause = 1 then s.wr (H.violWin n) (fr + 1) else s
  s.raise 0x3010 (outIdx n) (cause * 65536 + n) excess

/-- Crossbar source `src` shows what block source `b` delivers, itself or through canvases and converters, at most so many hops away. -/
def State.carries (s : State) (b : Nat) : Nat → Nat → Bool
  | 0, _ => false
  | h + 1, src =>
    if src = b then true
    else if src < 48 then false
    else if src < 64 then (List.range 8).any (fun l =>
      let x := 8 * (src - 48) + l
      decide (2 ≤ s.air (K.LAYER_SRC_KIND x)) && s.carries b h (s.air (K.LAYER_SRC_ID x)))
    else if src < 80 then (List.range 4).any (fun k =>
      s.rd (K.FRC_STREAM_KIND (src - 64) k) != 0 && s.carries b h (s.rd (K.FRC_STREAM_SRC (src - 64) k)))
    else false

/-- The window of the hop into block source `b` is lost: a violation in the frame of every output whose route carries its picture (R205, R208). -/
def State.hopLost (s : State) (b : Nat) : State :=
  s.upto 48 (fun n t =>
    if t.rd (K.OUT_TSTATE n) ≠ 0 ∧ t.rd (H.lossPh n) = 0 ∧ t.rd (K.OUT_CONTRACT_STATE n) ≠ 0
        ∧ t.carries b 33 (t.air (K.OUT_ROUTE_SRC (t.routeUnit n)))
    then t.violation n 1 0 else t)

/-- The route of OUT[n] loses its source (R184): 0 not valid, 1 format, 2 window, 3 both inputs of a pair. -/
def State.routeLose (s : State) (n cause : Nat) : State :=
  if s.rd (H.lossPh n) ≠ 0 ∨ s.rd (K.OUT_TSTATE n) = 0 then s else
  let src := s.air (K.OUT_ROUTE_SRC (s.routeUnit n))
  let s := s.wrs [(H.lossPh n, 1), (H.lossSlot n, s.lastFull (s.inUse src) (s.air (K.OUT_FORMAT n))), (K.OUT_ROUTE_STAT_LOSS_FRAMES n, 0),
    (K.OUT_ROUTE_STAT_STATE n, if cause = 2 then 4 else 3)]
  let s : State := if cause = 2 then s.wr (K.OUT_CONTRACT_STATE n) 3 else s
  s.raise 0x300C (outIdx n) n (src * 256 + cause)

/-- Why the source of the route on air at OUT[n] is not there now, if it is not; of a window only a lead outside 0 to 2 lines (R179, R184). -/
def State.routeGone (s : State) (n : Nat) : Option Nat :=
  let u := s.routeUnit n
  let src := s.air (K.OUT_ROUTE_SRC u)
  if 48 ≤ src then none else
  let c := s.air (K.OUT_FORMAT n)
  if s.air (H.outPath u) = 1 then
    if s.rd (K.IN_STAT_STATE src) ≠ 4 then some 0
    else if s.rd (K.IN_STAT_FORMAT src) ≠ c then some 1
    else match fmt c with
      | some f => (match s.lambda src (s.air (K.OUT_FAMILY n)) (toInt 32 (s.air (K.OUT_TIMING_OFFSET n))) f.rate with
        | some l => if leadHolds c l.ns then none else some 2
        | none => none)
      | none => none
  else if s.rd (K.IN_BRACKET_ROLE src) = 1 then
    if s.rd (K.IN_BRACKET_STATE src) = 4 then some 3
    else if s.rd (K.IN_STAT_FORMAT (s.inUse src)) ≠ c then some 1 else none
  else if s.rd (K.IN_STAT_STATE src) ≠ 4 then some 0
  else if s.rd (K.IN_STAT_FORMAT src) ≠ c then some 1 else none

/-- The key input of the route on air at OUT[n] is there: VALID in the output's format, and on a DIRECT route within the window (R192, log 84). -/
def State.keyGone (s : State) (n : Nat) : Bool :=
  let u := s.routeUnit n
  let k := s.air (K.OUT_ROUTE_KEY_SRC u)
  let c := s.air (K.OUT_FORMAT n)
  decide (k < 48) && decide (s.air (K.OUT_ROUTE_SRC u) < 48) &&
  (s.rd (K.IN_STAT_STATE k) != 4 || s.rd (K.IN_STAT_FORMAT k) != c ||
    (s.air (H.outPath u) == 1 && (match fmt c with
      | some f => (match s.lambda k (s.air (K.OUT_FAMILY n)) (toInt 32 (s.air (K.OUT_TIMING_OFFSET n))) f.rate with
        | some l => !leadHolds c l.ns
        | none => false)
      | none => false)))

/-- The route on air at OUT[n] loses its key input: the key of every pixel becomes 0 (R192). -/
def State.keyCheck (s : State) (n : Nat) : State :=
  if s.rd (H.keyLost n) = 0 ∧ s.rd (K.OUT_TSTATE n) ≠ 0 ∧ s.keyGone n then
    (s.wr (H.keyLost n) 1).raise 0x300C (outIdx n) n (s.air (K.OUT_ROUTE_SRC (s.routeUnit n)) * 256 + 4)
  else s

/-! ## Layers (R260 to R262) -/

/-- A layer loses its source (R262). -/
def State.layerLose (s : State) (x cause : Nat) : State :=
  if s.rd (H.layLost x) = 1 ∨ s.rd (K.LAYER_LSTAT_SRC_STATE x) = 0 then s else
  let s := s.wrs [(H.layLost x, 1), (H.layLostCnt x, 0), (K.LAYER_LSTAT_SRC_STATE x, 2)]
  let s : State := if s.air (K.LAYER_SRC_KIND x) = 2 then
      s.wr (H.laySlot x) (s.lastFull (s.inUse (s.air (K.LAYER_SRC_ID x))) (s.rd (K.IN_STAT_FORMAT (s.air (K.LAYER_SRC_ID x))))
        |> fun v => if v = 0 then s.rd (H.laySlot x) else v)
    else s
  s.raise 0x4204 (layIdx x) (x / 8 * 256 + x % 8) (s.air (K.LAYER_SRC_ID x) * 256 + cause)

/-- Why the source of a layer on air is not there now, if it is not: causes of R184 and 5 for a LIVE lead outside 0 to 2 lines. -/
def State.layerGone (s : State) (x : Nat) : Option Nat :=
  let id := s.air (K.LAYER_SRC_ID x)
  match s.air (K.LAYER_SRC_KIND x) with
  | 2 =>
    if 48 ≤ id then none
    else if s.rd (K.IN_BRACKET_ROLE id) = 1 then (if s.rd (K.IN_BRACKET_STATE id) = 4 then some 3 else none)
    else if s.rd (K.IN_STAT_STATE id) ≠ 4 then some 0
    else if s.rd (K.RING_STATE id) = 1 ∧ slotBytes (s.rd (K.IN_STAT_FORMAT id)) (s.rd (K.RING_FORMAT id)) ≠ s.rd (K.RING_SLOT_BYTES id)
    then some 1 else none
  | 3 => if (id < 48 ∧ s.rd (K.IN_STAT_STATE id) ≠ 4) ∨ s.unmapped id then some 0 else none
  | _ => none

/-! ## An input that stops serving (R184, R262, R304) -/

/-- Every route, layer and stream that reads input i looks at its source: those that no longer have one lose it. -/
def State.readersCheck (s : State) (i : Nat) : State :=
  let s := s.upto 48 (fun n t =>
    let u := t.routeUnit n
    let src := t.air (K.OUT_ROUTE_SRC u)
    -- a pair's reader follows both inputs
    let reads := src = i ∨ (src < 48 ∧ t.rd (K.IN_BRACKET_ROLE src) = 1 ∧ t.rd (K.IN_BRACKET_PARTNER src) = i)
    let t : State := if decide reads then (match t.routeGone n with
        | some 2 => t
        | some c => t.routeLose n c
        | none => t) else t
    if t.air (K.OUT_ROUTE_KEY_SRC u) = i then t.keyCheck n else t)
  let s := s.upto 128 (fun x t =>
    let id := t.air (K.LAYER_SRC_ID x)
    let kind := t.air (K.LAYER_SRC_KIND x)
    let reads := (kind = 2 ∨ kind = 3) ∧ (id = i ∨ (kind = 2 ∧ id < 48 ∧ t.rd (K.IN_BRACKET_ROLE id) = 1 ∧ t.rd (K.IN_BRACKET_PARTNER id) = i))
    let t : State := if decide reads then (match t.layerGone x with | some c => t.layerLose x c | none => t) else t
    if kind = 2 ∧ t.air (K.LAYER_SRC_KEY x) = i ∧ t.rd (K.IN_STAT_STATE i) ≠ 4 then t.layerLose x 4 else t)
  s.upto 64 (fun x t =>
    let f := x / 4
    let k := x % 4
    let kind := t.rd (K.FRC_STREAM_KIND f k)
    if (kind = 1 ∨ kind = 2) ∧ t.rd (K.FRC_STREAM_SRC f k) = i then
      (match t.frcGone f k with | some c => t.frcLose f k c | none => t)
    else t)

end Sys2Proof.Machine
end

