-- ==== Sys2Proof/Machine/Receive.lean ====
section
/-! DEFINITION. SDI receivers (spec/06, R133 to R153). -/
namespace Sys2Proof.Machine

/-! ## Formats by measurement (R133, R136) -/

/-- A mapping (STAT.MAPPING) and sampling carry a format (R133). -/
def mappingOk (c m sampling : Nat) : Bool :=
  if sampling ≠ 0 then m == 6 && decide (20 ≤ c ∧ c ≤ 24)
  else
    match m with
    | 1 => decide (1 ≤ c ∧ c ≤ 2)
    | 2 => decide (3 ≤ c ∧ c ≤ 13)
    | 3 | 4 => decide (14 ≤ c ∧ c ≤ 16)
    | 5 => decide (17 ≤ c ∧ c ≤ 24)
    | 6 => decide (17 ≤ c ∧ c ≤ 19) || decide (25 ≤ c ∧ c ≤ 27)
    | _ => false

/-- The distance of a period in ps from the nominal of a format, times its numerator (R136). -/
def periodGap (ps : Nat) (f : Fmt) : Nat := ((ps * rateNum f.rate : Nat) - (rateDen f.rate * 1000000000000 : Nat) : Int).natAbs

/-- The period lies within 500 ppm of the format's nominal. -/
def within500 (ps : Nat) (f : Fmt) : Bool := decide (2000 * periodGap ps f ≤ rateDen f.rate * 1000000000000)

/-- The format code of a measurement; 0xFF where no supported format fits. A link of Quad 12G may also carry 2160p23.98 to 30 in 10-bit 4:2:2
at 12G (R133, R134, R136). -/
def decide' (link : Bool) (m : Meas) : Nat :=
  let cands := (List.range 28).filter (fun c =>
    match fmt c with
    | none => false
    | some f => f.spl == m.spl && f.lines == m.lines && f.interlaced == m.interlaced && (f.h == m.active || (c == 1 && m.active == 487))
        && (mappingOk c m.mapping m.sampling || (link && m.mapping == 6 && m.sampling == 0 && decide (20 ≤ c ∧ c ≤ 24))) && within500 m.period f)
  -- of two nominals the nearer; an integer rate at the exact middle
  let gap (c : Nat) : Nat × Nat := match fmt c with
    | some f => (periodGap m.period f, rateNum f.rate)
    | none => (0, 1)
  match cands with
  | [] => 0xFF
  | a :: t => t.foldl (fun b c => if (gap c).1 * (gap b).2 ≤ (gap b).1 * (gap c).2 then c else b) a

/-- The measurement as the list that two frames are compared by, its format and its format as a link at the end (R136). -/
def measKey (m : Meas) : List Nat :=
  [m.spl, m.lines, m.active, if m.interlaced then 1 else 0, m.mapping, m.sampling, decide' false m, decide' true m]

/-- The format of IN[n] by such a list: that of a link where its RXQ may assemble Quad 12G (R133, R145). -/
def State.measFmt (s : State) (n : Nat) (key : List Nat) : Nat := key.getD (if 3 ≤ s.rd (K.IN_QUAD_MODE (n / 4 * 4)) then 7 else 6) 0

/-! ## Bracketed inputs (R147 to R150) -/

/-- The primary of the pair input i belongs to. -/
def State.primaryOf (s : State) (i : Nat) : Option Nat :=
  match s.rd (K.IN_BRACKET_ROLE i) with
  | 1 => some i
  | 2 => (List.range 48).find? (fun p => s.rd (K.IN_BRACKET_PARTNER p) == i && s.rd (K.IN_BRACKET_ROLE p) == 1)
  | _ => none

/-- An input of the pair of primary p is healthy (R148); format and skew are those last measured of both (log 20). -/
def State.healthy (s : State) (p i : Nat) : Bool :=
  let o := if i = p then s.rd (K.IN_BRACKET_PARTNER p) else p
  let lim := fracCeil [linesFrac (s.rd (H.lastFmt i)) (s.rd (K.IN_BRACKET_SKEW_MAX p))]
  s.rd (K.IN_STAT_STATE i) == 4 && s.rd (K.IN_STAT_FORMAT i) != 0xFF && s.rd (H.lastFmt i) == s.rd (H.lastFmt o)
    && decide ((s.rdI 32 (K.IN_BRACKET_SKEW p)).natAbs ≤ lim) && s.rd (H.brFail i) == 0

/-- Move a pair's STATE, raising BRACKET_HEALTH (R153). -/
def State.brState (s : State) (p new : Nat) : State :=
  if s.rd (K.IN_BRACKET_STATE p) = new then s
  else (s.wr (K.IN_BRACKET_STATE p) new).raise 0x200E (inIdx p) p new

/-- Readers of a pair take the other input from their next line (R148). -/
def State.swapReaders (s : State) (from' to' : Nat) : State :=
  let s := s.upto 48 (fun n t =>
    if t.rd (H.outRing n) = from' + 1 ∧ t.rd (H.outPartRing n) = to' + 1 then
      t.wrs [(H.outRing n, to' + 1), (H.outPartRing n, from' + 1), (H.outSlot n, t.rd (H.outPartSlot n)), (H.outPartSlot n, t.rd (H.outSlot n))]
    else t)
  s.upto 128 (fun x t =>
    let sl := t.rd (H.laySlot x)
    let ring := if t.rd (H.layRing x) = 0 then t.air (K.LAYER_SRC_ID x) else t.rd (H.layRing x) - 1
    if t.air (K.LAYER_SRC_KIND x) = 2 ∧ ring = from' ∧ sl ≠ 0 then
      match t.slotStamp from' (sl - 1) with
      | some st => (match t.nearestSlot to' st with
        | some j => t.wrs [(H.laySlot x, j + 1), (H.layRing x, to' + 1)]
        | none => t)
      | none => t
    else t)

/-- The pair of primary p takes another input (R148, R150): cause 0 TRS loss, 1 CRC limit, 2 revert, 3 SELECT. The first two act from the
readers' next line, the others from their next switch line. -/
def State.brTake (s : State) (p i cause : Nat) : State :=
  let from' := s.rd (K.IN_BRACKET_ACTIVE p)
  if from' = i then s else
  let s := (s.wr (K.IN_BRACKET_ACTIVE p) i).raise 0x200C (inIdx p) p (cause * 65536 + from' * 256 + i)
  if cause < 2 then s.swapReaders from' i else s

/-- Bring the STATE of the pair of primary p in line with its inputs (R148). -/
def State.brEval (s : State) (p cause : Nat) : State :=
  if s.rd (K.IN_BRACKET_ROLE p) ≠ 1 then s else
  let b := s.rd (K.IN_BRACKET_PARTNER p)
  let act := s.rd (K.IN_BRACKET_ACTIVE p)
  let other := if act = p then b else p
  let hp := s.healthy p p
  let hb := s.healthy p b
  let ha := if act = p then hp else hb
  let ho := if act = p then hb else hp
  if ha then
    s.brState p (if act = b then 3 else if ho then 1 else 2)
  else if ho then
    -- the input in use serves no longer, or neither did: the healthy one is taken
    let failed := s.rd (K.IN_STAT_STATE act) ≠ 4 ∨ s.rd (H.brFail act) ≠ 0 ∨ s.rd (K.IN_BRACKET_STATE p) = 4
    if decide failed then
      let s := s.brTake p other cause
      s.brState p (if other = b then 3 else 2)
    else s.brState p (if act = b then 3 else 2)
  else if s.rd (K.IN_STAT_STATE act) ≠ 4 ∨ s.rd (H.brFail act) ≠ 0 then
    if s.rd (K.IN_BRACKET_STATE p) = 4 then s
    else ((s.brState p 4).raise 0x200D (inIdx p) p (s.rd (H.brFrame p))).readersCheck p
  else s.brState p (if act = b then 3 else 2)

/-- Input i fails as a member of its pair, which is judged when the tick ends: what fails in one tick fails at once (R148, log 82). -/
def State.brFails (s : State) (i cause : Nat) : State :=
  match s.primaryOf i with
  | none => s
  | some p => ((s.wr (H.brFail i) 2).wr (H.brHealthy p) (if i = p then 0 else s.rd (H.brHealthy p))).setVec H.brDue (s.vec H.brDue ++ [p, cause])

/-- Judge the pairs of a list of primaries and causes. -/
def State.brJudge (s : State) : List Nat → State
  | p :: c :: t => (s.brEval p c).brJudge t
  | _ => s

/-- The end of a tick for the pairs whose inputs failed in it (R148). -/
def State.brEnd (s : State) : State := (s.setVec H.brDue []).brJudge (s.vec H.brDue)

/-! ## Receiver states (R135, R154) -/

/-- Move a receiver to a state, raising IN_STATE; the measured members follow (R154), and an input that leaves VALID takes its
reference candidate, its pair and its readers with it. -/
def State.inMove (s : State) (n new : Nat) : State :=
  let old := s.rd (K.IN_STAT_STATE n)
  if old = new then s else
  let s := (s.wr (K.IN_STAT_STATE n) new).raise 0x2001 (inIdx n) n (old * 256 + new)
  let s : State := if new < 2 then s.wr (K.IN_STAT_RATE n) 0 else s
  let s : State := if new < 3 then ((s.wrs [(K.IN_STAT_MAPPING n, 0), (K.IN_STAT_LINES n, 0), (K.IN_STAT_SAMPLES n, 0), (H.linkFmt n, 0), (H.linkAt n, 0), (H.measPs n, 0),
      (K.IN_PID_VALID n, 0), (K.IN_PID_MISMATCH n, 0)]).setVec (H.meas n) []).setVec (H.measOk n) []
    else s
  if old = 4 then
    let s := s.wrs [(K.IN_STAT_FORMAT n, 0), (H.validAt n, 0), (H.ringLive n, 0)]
    let s := s.upto 8 (fun g t => (t.clr (K.IN_TIMING_PHASE n g)).setVec (H.phaseHist (8 * n + g)) [])
    ((s.refLose n).brFails n 0).readersCheck n
  else s

/-- Colour, scan and sampling of a VALID input: from ST 352 while its compared fields agree, else the defaults (R137). -/
def State.inPicture (s : State) (n : Nat) : State :=
  let c := s.rd (K.IN_STAT_FORMAT n)
  let m := s.vec (H.measOk n)
  let raw := s.rd (K.IN_PID_RAW n)
  let use := s.rd (K.IN_PID_VALID n) == 1 && s.rd (K.IN_PID_MISMATCH n) == 0
  let ov := s.rd (K.IN_CFG_COLOR_OVERRIDE n)
  let scan := if m.getD 3 0 = 0 then 0 else if use && Config.pidField 1 raw == 2 then 2 else 1
  let col := if ov ≠ 0xFF then ov % 16 else if use then Config.pidField 6 raw % 4 else if 20 ≤ c then 1 else 0
  let smp := if m.getD 5 0 = 0 then 0
    else if ov ≠ 0xFF then (if ov.testBit 4 then 2 else 1) else if use then (if Config.pidField 3 raw = 2 then 2 else 1) else 1
  s.wrs [(K.IN_STAT_SCAN n, scan), (K.IN_STAT_COLOR n, col), (K.IN_STAT_SAMPLING n, smp)]

/-- An input is VALID with a format, or changes to it (R135, R136, R153). -/
def State.inFormat (s : State) (n c : Nat) : State :=
  let old := s.rd (K.IN_STAT_FORMAT n)
  if s.rd (K.IN_STAT_STATE n) = 4 ∧ old = c then s else
  let was := s.rd (K.IN_STAT_STATE n)
  let s := (s.inMove n 4).wrs [(K.IN_STAT_FORMAT n, c), (H.lastFmt n, c), (H.validAt n, s.tod + 1), (H.ringLive n, 0)]
  let s : State := if was = 4 then (s.inc (K.IN_STAT_FORMAT_SEQ n) 1 (2 ^ 32)).raise 0x2002 (inIdx n) n (old * 256 + c) else s
  let s : State := if c = 0xFF then s.raise 0x2003 (inIdx n) n (s.rd (K.IN_STAT_LINES n) * 65536 + s.rd (K.IN_STAT_SAMPLES n)) else s
  let s := s.inPicture n
  let s : State := match s.primaryOf n with | some p => s.brEval p 0 | none => s
  -- a candidate of another format is another signal
  let s : State := if was = 4 then s.refLose n else s
  s.readersCheck n

/-! ## Quad assembly (R145) -/

/-- The input that carries link k of RXQ[q], by the mode (R145). -/
def State.linkInput (s : State) (q k : Nat) : Option Nat :=
  if s.rd (K.IN_QUAD_MODE (4 * q)) = 5 then
    (List.range 4).map (fun i => 4 * q + i) |>.find? (fun n =>
      s.rd (K.IN_PID_VALID n) == 1 && Config.pidField 4 (s.rd (K.IN_PID_RAW n)) == k + 1)
  else some (4 * q + k)

/-- The link and the quad of an input in quad operation. -/
def State.linkOf (s : State) (n : Nat) : Option Nat :=
  let q := n / 4
  if s.rd (K.IN_QUAD_MODE (4 * q)) = 0 then none
  else (List.range 4).find? (fun k => s.linkInput q k == some n)

/-- The division of a quad: 1 square, 2 two-sample interleave. -/
def State.quadDivision (s : State) (q : Nat) : Nat :=
  match s.rd (K.IN_QUAD_MODE (4 * q)) with
  | 1 | 3 => 1
  | 2 | 4 => 2
  | _ => Config.pidField 5 (s.rd (K.IN_PID_RAW (4 * q)))

/-- The format four links of a link format make, if any: 2160p from 1080p, 4320p from 2160p (R145). -/
def quadFormat (mode link : Nat) : Option Nat :=
  if 14 ≤ link ∧ link ≤ 16 ∧ mode ≠ 3 ∧ mode ≠ 4 then some (link + 11)
  else if 20 ≤ link ∧ link ≤ 27 ∧ mode ≠ 1 ∧ mode ≠ 2 then some (link + 8) else none

/-- A quad's state, and its first input to PRESENT where it was VALID (R145). -/
def State.quadTo (s : State) (n new : Nat) : State :=
  let s := s.wr (K.IN_QUAD_STATE n) new
  if s.rd (K.IN_STAT_STATE n) = 4 then s.inMove n 3 else s

/-- How far the switch line of each link of RXQ[q] lies behind the earliest one, in ns at rate code r; none before each has had one (R145). -/
def State.quadSkews (s : State) (q r : Nat) : Option (List Nat) :=
  let ls := (List.range 4).map (fun k => (s.linkInput q k).getD (4 * q + k))
  if ls.any (fun i => s.rd (H.linkAt i) == 0) then none else
  let d := ls.map (fun i => (leadOf ((s.rd (H.linkAt i) : Int) - s.rd (H.linkAt (ls.headD 0))) 0 r).ns)
  some (d.map (fun x => (x - d.foldl min 0).toNat))

/-- Bring QUAD.STATE of RXQ[q] in line with its links (R145). -/
def State.quadEval (s : State) (q : Nat) : State :=
  let n := 4 * q
  let mode := s.rd (K.IN_QUAD_MODE n)
  if mode = 0 then s.wr (K.IN_QUAD_STATE n) 0 else
  let links := (List.range 4).map (fun i => n + i)
  if links.any (fun i => s.rd (H.linkFmt i) == 0) then s.quadTo n 0 else
  let pids := links.map (fun i => s.rd (K.IN_PID_RAW i))
  let auto := mode = 5
  let div0 := Config.pidField 5 (pids.getD 0 0)
  let badDiv := decide auto && (pids.any (fun r => Config.pidField 5 r != div0) || (div0 != 1 && div0 != 2))
  let badLink := decide auto && (List.range 4).any (fun k => (s.linkInput q k).isNone)
  let f0 := s.rd (H.linkFmt n) - 1
  let badFmt := links.any (fun i => s.rd (H.linkFmt i) != f0 + 1) || (quadFormat mode f0).isNone
    -- a quad of 2160p links is Quad 12G (R133)
    || (decide (20 ≤ f0) && links.any (fun i => (s.vec (H.measOk i)).getD 4 0 != 6 || (s.vec (H.measOk i)).getD 5 0 != 0))
  if badDiv || badLink || badFmt then
    let bits := (if badDiv then 1 else 0) + (if badLink then 2 else 0) + (if badFmt then 4 else 0)
    let s' := s.quadTo n 3
    if s.rd (K.IN_QUAD_STATE n) = 3 then s' else s'.raise 0x200B (inIdx n) n bits
  else
    match s.quadSkews q (match fmt f0 with | some f => f.rate | none => 2) with
    | none => s.quadTo n 0
    | some d =>
    let big := d.foldl max 0
    let s := s.upto 4 (fun k t => t.wr (K.IN_QUAD_SKEW n k) (d.getD k 0))
    if fracCeil [linesFrac f0 2] < big then
      let s' := s.quadTo n 2
      if s.rd (K.IN_QUAD_STATE n) = 2 then s' else s'.raise 0x200A (inIdx n) n big
    else
      match quadFormat mode f0 with
      | some c => (s.wr (K.IN_QUAD_STATE n) 1).inFormat n c
      | none => s

/-- A link of IN[n] has a format: the input itself is VALID with it, unless it leads a quad (R136, R145). -/
def State.linkValid (s : State) (n c : Nat) : State :=
  let s := s.wr (H.linkFmt n) (c + 1)
  let q := n / 4
  let s : State := if n % 4 = 0 ∧ s.rd (K.IN_QUAD_MODE n) ≠ 0 then s else s.inFormat n c
  if s.rd (K.IN_QUAD_MODE (4 * q)) ≠ 0 then s.quadEval q else s

/-- A receiver falls back to a state below ALIGNED, and its quad with it. -/
def State.inDown (s : State) (n new : Nat) : State :=
  let s := s.inMove n new
  if s.rd (K.IN_QUAD_MODE (4 * (n / 4))) ≠ 0 then s.quadEval (n / 4) else s

/-! ## Energy, CDR, alignment (R135) -/

/-- RX_ENERGY_PRESENT (R135); a receiver works once PD.RXQq is READY. -/
def execRxEnergyPresent (n : Fin 48) (s : State) : Host.Outcome State Fault Refusal :=
  let n := n.val
  if s.rd (K.IN_STAT_STATE n) = 0 ∧ s.funcReady (8 + n / 4) (n % 4) then
    .next ((s.inMove n 1).wrs [(H.cdrTry n, 0), (H.cdrAt n, s.now)])
  else .next s

/-- RX_ENERGY_LOST (R135). -/
def execRxEnergyLost (n : Fin 48) (s : State) : Host.Outcome State Fault Refusal := .next (s.inDown n.val 0)

/-- The RATE_MODE a rate code of STAT.RATE belongs to (R154). -/
def rateClassOf (r : Nat) : Nat := if r = 1 then 1 else if r ≤ 3 then 2 else if r ≤ 5 then 3 else if r ≤ 7 then 4 else 5

/-- The RATE_MODE IN[n] tries now: its own, or in AUTO the one in turn, 12G first (R135). -/
def State.tries (s : State) (n : Nat) : Nat :=
  let m := s.rd (K.IN_CFG_RATE_MODE n)
  if m = 0 then 5 - s.rd (H.cdrTry n) else m

/-- CDR_LOCK: the CDR of a searching receiver locks to a rate it tries (R135). -/
def execCdrLock (n : Fin 48) (rate : Nat) (s : State) : Host.Outcome State Fault Refusal :=
  let n := n.val
  if s.rd (K.IN_STAT_STATE n) = 1 ∧ 1 ≤ rate ∧ rate ≤ 9 ∧ rateClassOf rate = s.tries n then
    .next ((s.inMove n 2).wr (K.IN_STAT_RATE n) rate)
  else .next s

/-- CDR_DWELL_EXPIRY: in AUTO, 2 ms without lock, the next rate in turn (R135). -/
def execCdrDwellExpiry (n : Fin 48) (s : State) : Host.Outcome State Fault Refusal :=
  let n := n.val
  if s.rd (K.IN_STAT_STATE n) = 1 ∧ s.rd (K.IN_CFG_RATE_MODE n) = 0 ∧ s.rd (H.cdrAt n) + 2000 ≤ s.now then
    .next (s.wrs [(H.cdrTry n, (s.rd (H.cdrTry n) + 1) % 5), (H.cdrAt n, s.now)])
  else .next s

/-- The CDR of a receiver unlocks (R135). -/
def State.cdrUnlock (s : State) (n : Nat) : State :=
  if s.rd (K.IN_STAT_STATE n) < 2 then s else
  ((s.count (K.IN_RUN n 6) 1).inDown n 1).wrs [(H.cdrTry n, 0), (H.cdrAt n, s.now)]

/-- CDR_UNLOCK (R135). -/
def execCdrUnlock (n : Fin 48) (s : State) : Host.Outcome State Fault Refusal := .next (s.cdrUnlock n.val)

/-- A write of CFG.RATE_MODE takes effect at once (R135). -/
def rateModeWrite (n v : Nat) (s : State) : Ans :=
  let s := s.wr (K.IN_CFG_RATE_MODE n) v
  if 2 ≤ s.rd (K.IN_STAT_STATE n) ∧ v ≠ 0 ∧ rateClassOf (s.rd (K.IN_STAT_RATE n)) ≠ v then ansOk (s.cdrUnlock n)
  else if s.rd (K.IN_STAT_STATE n) = 1 then ansOk (s.wrs [(H.cdrTry n, 0), (H.cdrAt n, s.now)])
  else ansOk s

/-- TRS_ALIGNED: two valid TRS a whole number of lines apart; the measurement in progress shows (R135, R154). -/
def execTrsAligned (n : Fin 48) (mapping lines samples : Nat) (s : State) : Host.Outcome State Fault Refusal :=
  let n := n.val
  if s.rd (K.IN_STAT_STATE n) ≠ 2 then .next s else
  .next ((s.inMove n 3).wrs [(K.IN_STAT_MAPPING n, mapping % 256), (K.IN_STAT_LINES n, lines % 65536), (K.IN_STAT_SAMPLES n, samples % 65536),
    (H.trsAt n, s.now), (H.trsRun n, 0)])

/-- The line rate of a rate code of STAT.RATE in Mb/s, and 1 where it is divided by 1.001 (R154). -/
def lineRate (r : Nat) : Nat × Nat :=
  match r with
  | 1 => (270, 0) | 2 => (1485, 0) | 3 => (1485, 1) | 4 => (2970, 0) | 5 => (2970, 1) | 6 => (5940, 0) | 7 => (5940, 1)
  | 8 => (11880, 0) | _ => (11880, 1)

/-- Ticks of two line periods of an input, rounded up: of its format, else as measured, else of its samples at 20 bits each (R92). -/
def State.twoLines (s : State) (n : Nat) : Nat :=
  let c := s.rd (H.linkFmt n) - 1
  match fmt c with
  | some _ => ceilDiv (fracCeil [linesFrac c 2]) 1000
  | none =>
    if s.rd (K.IN_STAT_LINES n) = 0 ∨ s.rd (H.measPs n) = 0 then
      let r := lineRate (s.rd (K.IN_STAT_RATE n))
      ceilDiv (40 * s.rd (K.IN_STAT_SAMPLES n) * (1000 + r.2)) (1000 * r.1)
    else ceilDiv (2 * s.rd (H.measPs n)) (1000000 * s.rd (K.IN_STAT_LINES n))

/-- A line of IN[n] with a TRS that is valid, in place or not. -/
def trsOf (n : Nat) : Instr → Bool
  | .rxLine m _ trs _ _ _ _ => m.val == n && (trs % 4 == 0 || trs % 4 == 3 || trs / 4 == 0 || trs / 4 == 3)
  | _ => false

/-- RX_TRS_LOSS: no valid TRS for 2 line periods, nor one in the tick they end in (R92, R98, R135). -/
def rxTrsLoss (n : Fin 48) (s : State) : Host.Outcome State Fault Refusal :=
  let n := n.val
  if 3 ≤ s.rd (K.IN_STAT_STATE n) ∧ s.rd (H.trsAt n) + s.twoLines n ≤ s.now ∧ !s.arrives (trsOf n) then .next (s.inDown n 2) else .next s

/-! ## Frames (R136, R137) -/

/-- What the identifier of IN[n] and the measurement that gave format `c` disagree in (R137): bits 0 rate or mapping, 1 scanning, 2 picture
rate, 3 sampling, 4 link or division. -/
def State.pidMismatch (s : State) (n c : Nat) : Nat :=
  let raw := s.rd (K.IN_PID_RAW n)
  let m := s.vec (H.measOk n)
  let rate := match fmt c with | some f => f.rate | none => 99
  let scanned := if Config.pidField 1 raw = 0 then 0 else 1
  let q := n / 4
  let mode := s.rd (K.IN_QUAD_MODE (4 * q))
  (if Config.pidField 0 raw = m.getD 4 0 then 0 else 1) + (if scanned = m.getD 3 0 then 0 else 2)
    + (if Config.pidField 2 raw = rate then 0 else 4) + (if min 1 (Config.pidField 3 raw) = min 1 (m.getD 5 0) then 0 else 8)
    + (if mode = 0 ∨ mode = 5 ∨ (Config.pidField 4 raw = n % 4 + 1 ∧ Config.pidField 5 raw = s.quadDivision q) then 0 else 16)

/-- A frame of IN[n] has passed: the identifier ages, and after 2 frames without one there is none (R137); the packets of a line count anew
(R142); a frame of an input that is not VALID lies between it and its failure (R148). -/
def State.framePassed (s : State) (n : Nat) : State :=
  let s := (s.up (H.pidAge n) (fun a => min 3 (a + 1))).upto 16 (fun k t => t.wr (H.ancLine (16 * n + k)) 0)
  let s : State := if 2 < s.rd (H.pidAge n) then s.wrs [(K.IN_PID_VALID n, 0), (K.IN_PID_MISMATCH n, 0)] else s
  if s.rd (K.IN_STAT_STATE n) = 4 then s else s.up (H.brFail n) (fun v => v - 1)

/-- The identifier against the measurement of a frame of format `c` (R137). -/
def State.pidFrame (s : State) (n c : Nat) : State :=
  if s.rd (K.IN_PID_VALID n) = 0 then s
  else
    let bits := s.pidMismatch n c
    let old := s.rd (K.IN_PID_MISMATCH n)
    let s : State := if bits = 0 then s else s.count (K.IN_RUN n 11) 1
    let s := s.wr (K.IN_PID_MISMATCH n) bits
    if bits ≠ old ∧ bits ≠ 0 then s.raise 0x2004 (inIdx n) n (bits * 2 ^ 24 + s.rd (K.IN_PID_RAW n) % 2 ^ 24) else s

/-- RX_FRAME_MEASURED: a frame's measurement is compared with the one in use and with the frame before it; one that agrees with neither is
counted and changes nothing (R135, R136, R137). -/
def execRxFrameMeasured (n : Fin 48) (m : Meas) (s : State) : Host.Outcome State Fault Refusal :=
  let n := n.val
  if s.rd (K.IN_STAT_STATE n) < 3 then .next s else
  let key := measKey m
  let prev := s.vec (H.meas n)
  let c := s.measFmt n key
  let same := s.rd (H.linkFmt n) ≠ 0 ∧ s.vec (H.measOk n) = key
  let s := ((s.setVec (H.meas n) key).wrs [(K.IN_STAT_EQ_LOSS n, m.loss % 256), (K.IN_STAT_MAPPING n, m.mapping % 256),
    (K.IN_STAT_LINES n, m.lines % 65536), (K.IN_STAT_SAMPLES n, m.spl % 65536)]).framePassed n
  let s : State := if s.rd (H.linkFmt n) = 0 ∨ same ∨ prev = key then s.wr (H.measPs n) m.period else s
  if same then
    let s := s.pidFrame n c
    .next (if s.rd (K.IN_STAT_STATE n) = 4 then s.inPicture n else s.linkValid n c)
  else if prev = key then .next (((s.setVec (H.measOk n) key).pidFrame n c).linkValid n c)
  else if s.rd (H.linkFmt n) ≠ 0 then
    .next ((s.count (K.IN_RUN n 2) 1).raiseLim (2000 + n) 0x2005 (inIdx n) (fun k => (n, k)))
  else .next s

/-! ## Lines (R138, R139) -/

/-- Write pixels of format `f` at row y, column x of a picture (R180). -/
def State.putPix (f base pitch y x : Nat) (l : List Pix) (s : State) : State :=
  s.fsWrites (base + y * pitch + x * bpp2 f / 2) (packLine f l)

/-- The input whose ring takes what IN[n] receives: itself, or the first of its quad, while a slot takes the present frame (R145, R180). -/
def State.ringOf (s : State) (n : Nat) : Option Nat :=
  let m := if s.rd (K.IN_QUAD_MODE (4 * (n / 4))) = 0 then n else 4 * (n / 4)
  if (m = n ∧ s.rd (K.IN_QUAD_MODE (4 * (n / 4))) = 0) ∨ (s.linkOf n).isSome then (if s.rd (H.ringLive m) = 1 then some m else none) else none

/-- Write a received line into the picture of a ring slot: link k of a quad goes to its place (R18, R145, R180). -/
def State.ringLine (s : State) (n row : Nat) (l : List Pix) : State :=
  match s.ringOf n with
  | none => s
  | some m =>
    let f := s.rd (K.RING_FORMAT m)
    let sz := fmtSize (s.rd (K.IN_STAT_FORMAT m))
    let base := s.slotAddr m (s.rd (K.RING_SLOT m))
    let s := s.inc (H.rxRows n) 1 (2 ^ 16)
    match s.linkOf n with
    | none => s.putPix f base (minPitch f sz.1) row 0 l
    | some k =>
      if s.quadDivision (n / 4) = 1 then
        s.putPix f base (minPitch f sz.1) (row + k / 2 * (sz.2 / 2)) (k % 2 * (sz.1 / 2)) l
      else
        -- two-sample interleave: pairs of pixels go to every other pair
        s.upto (l.length / 2) (fun i t =>
          t.putPix f base (minPitch f sz.1) (2 * row + k / 2) (4 * i + 2 * (k % 2)) ((l.drop (2 * i)).take 2))

/-- The TRS of a line, `trs` giving its EAV modulo 4 and its SAV above (0 right, 1 wrong protection bits, 2 missing, 3 valid but `off` words
away from its place): each that is not right counts, and the flywheel follows valid ones found at one place on 3 lines (R138). -/
def State.trsLine (s : State) (n line trs : Nat) (off : Int) : State :=
  let wrong := (if trs % 4 = 0 then 0 else 1) + (if trs / 4 = 0 then 0 else 1)
  let moved := trs % 4 = 3 ∨ trs / 4 = 3
  let s : State := if trs % 4 = 0 ∨ trs / 4 = 0 ∨ moved then s.wr (H.trsAt n) s.now else s
  let s := (List.range wrong).foldl (fun (t : State) _ => (t.count (K.IN_RUN n 2) 1).raiseLim (2000 + n) 0x2005 (inIdx n) (fun k => (n, k))) s
  if moved then
    let run := if s.rd (H.trsRun n) ≠ 0 ∧ s.rd (H.trsOff n) = ofInt 32 off then s.rd (H.trsRun n) + 1 else 1
    let s := s.wrs [(H.trsOff n, ofInt 32 off), (H.trsRun n, run)]
    if run = 3 then ((s.count (K.IN_RUN n 5) 1).wr (H.trsRun n) 0).raise 0x2007 (inIdx n) n line else s
  else s.wr (H.trsRun n) 0

/-- RX_LINE: a received line: its TRS, its line-number words, its CRCs, its samples (R138, R139). -/
def execRxLine (n : Fin 48) (line trs : Nat) (off : Int) (ln : Nat) (crcOk : Bool) (px : List Nat) (s : State) :
    Host.Outcome State Fault Refusal :=
  let n := n.val
  if s.rd (K.IN_STAT_STATE n) < 3 then .next s else
  let s := s.trsLine n line trs off
  let sd := s.rd (K.IN_STAT_MAPPING n) = 1
  let s : State := if !decide sd ∧ ln ≠ line then s.count (K.IN_RUN n 3) 1 else s
  let bad := !decide sd && !crcOk
  let s : State := if bad then
      ((s.count (K.IN_RUN n 4) 1).raiseLim (2100 + n) 0x2006 (inIdx n) (fun k => (n, k))).inc (H.crcFrame n) 1 (2 ^ 16)
    else s
  -- the CRC limit of a pair, at the end of the line that exceeds it
  let s : State := match s.primaryOf n with
    | some p => if bad ∧ s.rd (H.crcFrame n) = s.rd (K.IN_BRACKET_CRC_LIMIT p) + 1 then s.brFails n 1 else s
    | none => s
  let c := s.rd (H.linkFmt n) - 1
  match lineRow c line with
  | none => .next s
  | some row =>
    if s.rd (H.linkFmt n) = 0 ∨ c = 0xFF then .next s else
    let field := if 2 ≤ (activeLines c).length ∧ ((activeLines c).getD 1 (0, 0)).1 ≤ line then 1 else 0
    let keyIn := s.rd (K.IN_CFG_KEY_INPUT n) == 1
    let got := if s.rd (K.IN_STAT_SAMPLING n) = 0 then widen422 keyIn px else widen444 keyIn px
    let l := if bad ∧ s.rd (K.IN_CFG_BAD_LINE n) = 1 then (s.vec (H.rxAct (2 * n + field))).map Pix.ofWord else got
    let words := l.map Pix.word
    let s := (s.setVec (H.rxLine n) words).setVec (H.rxAct (2 * n + field)) words
    let s : State := if keyIn then s.setVec (H.keyRow (n * 8192 + row)) words else s
    .next (s.ringLine n row l)

/-! ## Ancillary data (R140 to R144) -/

/-- A DID of ST 299-1, ST 299-2 or ST 272 audio data or control packets (the standards' figures, log 18). -/
def audioDid (did : Nat) : Bool :=
  decide (0xE0 ≤ did ∧ did ≤ 0xE7) || decide (0xA0 ≤ did ∧ did ≤ 0xA7) || decide (0xF8 ≤ did) || decide (0xEC ≤ did ∧ did ≤ 0xEF)

/-- Bit 8 of an ANC header word is the even parity of bits 0 to 7, and bit 9 its inverse (ST 291-1, log 18). -/
def ancParity (w : Nat) : Bool :=
  let p := (List.range 8).foldl (fun a i => a + w / 2 ^ i % 2) 0 % 2
  w / 256 % 4 == p + 2 * (1 - p)

/-- The checksum of a packet: the sum of bits 0 to 8 of DID, SDID, DC and UDW in 9 bits, and bit 9 the inverse of bit 8 (ST 291-1, log 18). -/
def ancSum (a : Anc) : Nat :=
  let v := ((a.did :: a.sdid :: a.dc :: a.udw).foldl (fun t w => t + w % 512) 0) % 512
  v + 512 * (1 - v / 256)

/-- Why a packet is quarantined, the first reason that holds; 2 the checksum, 0 none (R140, log 18). -/
def ancReason (a : Anc) : Nat :=
  if !ancParity a.did || !ancParity a.sdid || !ancParity a.dc then 1
  else if a.fault = 3 ∨ a.fault = 4 then a.fault
  else if a.cs ≠ ancSum a then 2 else 0

/-- Count a packet of R140, with its event. -/
def State.ancBad (s : State) (n : Nat) (a : Anc) (reason : Nat) : State :=
  (s.count (K.IN_RUN n 10) 1).raiseLim (2300 + n) 0x2009 (inIdx n) (fun k => (n, k % 65536 * 65536 + reason * 256 + a.did % 256))

/-- Quarantine a packet (R140, R143). -/
def State.quarantine (s : State) (n : Nat) (a : Anc) (reason : Nat) : State :=
  let udw := (List.range 10).map (fun i => a.udw.getD i 0 % 65536)
  let e := packBE 8 (bytesBE 2 a.line ++ [a.link % 16 * 16 + a.stream % 16, reason, a.did % 256, a.sdid % 256, a.dc % 256, 0]
    ++ bytesBE 2 a.cs ++ bytesBE 2 (ancSum a) ++ udw.flatMap (bytesBE 2))
  let h := s.rd (K.IN_QUAR_HEAD n)
  ((s.wr (K.IN_QUAR_ENTRY n (h % 16)) e).inc (K.IN_QUAR_HEAD n) 1 (2 ^ 32)).ancBad n a reason

/-- A record of a stored packet: line, link and stream, region, DID, SDID, DC, UDW (R227). -/
def ancRecord (a : Anc) : List Nat :=
  bytesBE 2 a.line ++ [a.link % 16 * 16 + a.stream % 16, if a.vert then 1 else 0] ++ bytesBE 2 a.did ++ bytesBE 2 a.sdid ++ bytesBE 2 a.dc
    ++ a.udw.flatMap (bytesBE 2)

/-- Put a record into the ANC area of the slot being written; one that no longer fits is dropped with FS_ANC_FULL (R227). -/
def State.ancStore (s : State) (n : Nat) (rec : List Nat) : State :=
  match s.ringOf n with
  | none => s
  | some m =>
  let j := s.rd (K.RING_SLOT m)
  let used := s.rd (H.slotAnc (4 * m + j))
  let base := s.slotAddr m j + s.slotPic m
  if 32768 < used + rec.length then s.raiseLim (2400 + m) 0x5010 (0x6840 + m) (fun k => (m, k))
  else
    let cnt := ofBytes (s.rdMems base 4) + 1
    ((s.fsWrites base (bytesBE 4 cnt)).fsWrites (base + used) rec).wr (H.slotAnc (4 * m + j)) (used + rec.length)

/-- First filter entry that decides a packet: pass (true) or drop (R141). -/
def State.ancPass (s : State) (n did sdid : Nat) : Bool :=
  let hit (e : Nat) : Bool := e.testBit 31 && e / 65536 % 256 == did && ((e / 256 % 256) &&& (e % 256)) == (sdid &&& (e % 256))
  match ((List.range 16).map (fun i => s.rd (K.IN_ANC_FILTER n i))).find? hit with
  | some e => !e.testBit 30
  | none => s.rd (K.IN_ANC_FILTER_DEFAULT n) == 0

/-- A decimal number from 0 to 99 as BCD. -/
def bcd (n : Nat) : Nat := n / 10 % 10 * 16 + n % 10
/-- BCD as a number. -/
def unBcd (b : Nat) : Nat := b / 16 % 16 * 10 + b % 16

/-- Frames that share one timecode label at a rate code: the labels of ST 12-1 count to 30 at most, so that faster rates give two or four
frames one label (log 79). -/
def tcGroup (r : Nat) : Nat := (ceilDiv (rateNum r) (rateDen r) + 29) / 30

/-- Labels a timecode counts to at a rate code: the integer rate, in groups. -/
def tcBase (r : Nat) : Nat := ceilDiv (rateNum r) (rateDen r) / tcGroup r

/-- Rates whose timecode drops frame numbers (R166). -/
def tcDrops (r : Nat) : Bool := r == 3 || r == 8

/-- The label after `hh mm ss ff` (BCD) at a rate code; with the drop-frame flag, of thirty numbers the first two of a minute are left out. -/
def tcNext (r : Nat) (drop : Bool) (v : Nat) : Nat :=
  let f := unBcd (v % 256) + 1
  let sec := unBcd (v / 256 % 256)
  let mn := unBcd (v / 65536 % 256)
  let hr := unBcd (v / 16777216 % 256)
  let b := tcBase r
  let fs := if f < b then (f, sec) else (0, sec + 1)
  let sm := if fs.2 < 60 then (fs.2, mn) else (0, mn + 1)
  let mh := if sm.2 < 60 then (sm.2, hr) else (0, (hr + 1) % 24)
  let f := if drop ∧ b = 30 ∧ b ≤ f ∧ sm.1 = 0 ∧ mh.1 % 10 ≠ 0 then 2 else fs.1
  ((bcd mh.2 * 256 + bcd mh.1) * 256 + bcd sm.1) * 256 + bcd f

/-- Timecode and flags of an ST 12-2 packet: 0 LTC or 1 VITC, value, flags (the standard's layout, log 18). -/
def atc (udw : List Nat) : Nat × Nat × Nat :=
  let nib (i : Nat) : Nat := udw.getD i 0 / 16 % 16
  let dbb := (List.range 8).foldl (fun a i => a + (udw.getD i 0 / 8 % 2) * 2 ^ i) 0
  let two (u t m : Nat) : Nat := (nib t % m) * 16 + nib u
  let v := ((two 12 14 4 * 256 + two 8 10 8) * 256 + two 4 6 8) * 256 + two 0 2 4
  (if dbb = 0 then 0 else 1, v, (if (nib 2).testBit 2 then 1 else 0) + (if (nib 2).testBit 3 then 2 else 0))

/-- A timecode packet of IN[n]: a label stays for the frames of its group and then moves on by one; a second packet of the frame that repeats
it says nothing new (R144, log 79). -/
def State.tcPacket (s : State) (n : Nat) (udw : List Nat) : State :=
  let d := atc udw
  let key := if d.1 = 0 then K.IN_TC_LTC n else K.IN_TC_VITC n
  let old := s.rd key
  let r := match fmt (s.rd (K.IN_STAT_FORMAT n)) with | some f => f.rate | none => 2
  let hold := s.rd (H.tcHold (2 * n + d.1))
  let again := s.bit (K.IN_TC_VALID n) d.1 && d.2.1 == old
  let stays := d.2.1 == old && decide (hold % 8 < tcGroup r)
  let moves := d.2.1 == tcNext r (d.2.2.testBit 0) old && (decide (8 ≤ hold) || hold == tcGroup r)
  let s' := (s.wrs [(key, d.2.1), (K.IN_TC_FLAGS n, d.2.2),
    (H.tcHold (2 * n + d.1), if hold ≠ 0 ∧ again then hold else if hold ≠ 0 ∧ stays then hold + 1 else if moves ∧ hold ≠ 0 then 1 else 9)]).setBit
      (K.IN_TC_VALID n) d.1 true
  if hold ≠ 0 ∧ !again ∧ !stays ∧ !moves then s'.raise 0x200F (inIdx n) n (s'.rd (K.IN_TC_LTC n)) else s'

/-- A packet beyond the limit of its line is dropped (R142). -/
def State.ancLate (s : State) (n : Nat) : State := (s.count (K.IN_RUN n 9) 1).raiseLim (2200 + n) 0x2008 (inIdx n) (fun k => (n, k))

/-- ANC_PACKET: a received packet is quarantined, counted, filtered, rate-limited or forwarded; payload identifiers and timecode are read
(R137, R140 to R144). -/
def execAncPacket (n : Fin 48) (a : Anc) (s : State) : Host.Outcome State Fault Refusal :=
  let n := n.val
  if s.rd (K.IN_STAT_STATE n) < 3 then .next s else
  let did := a.did % 256
  let sdid := a.sdid % 256
  let why := ancReason a
  if why ≠ 0 ∧ (why ≠ 2 ∨ s.rd (K.IN_ANC_CHECKSUM n) = 0) then .next (s.quarantine n a why) else
  let s : State := if why = 2 then s.ancBad n a 2 else s
  let s : State := if did = 0x41 ∧ sdid = 1 ∧ why = 0 then
      let raw := packBE 8 ((List.range 4).map (fun i => a.udw.getD i 0 % 256))
      let s : State := if a.link = 0 then s.wr (K.IN_PID_RAW n) raw else s
      let m := if (s.linkOf n).isSome then 4 * (n / 4) else n
      let k := match s.linkOf n with | some k => k | none => a.link % 4
      let old := s.rd (K.IN_PID_RAW_LINKS m)
      let sh := 2 ^ (32 * (3 - k))
      (s.wrs [(K.IN_PID_RAW_LINKS m, old - old / sh % 2 ^ 32 * sh + raw * sh), (K.IN_PID_VALID n, 1), (H.pidAge n, 0)])
    else s
  let s : State := if did = 0x60 ∧ sdid = 0x60 then s.tcPacket n a.udw else s
  let x := 16 * n + a.link % 16
  let s : State := if s.rd (H.ancLine x) = a.line then s else s.wrs [(H.ancLine x, a.line), (H.ancCnt x, 0), (H.ancAud x, 0)]
  if audioDid did then
    -- audio goes to the audio engine, at most 16 packets of a line
    .next (if 16 ≤ s.rd (H.ancAud x) then s.ancLate n else s.inc (H.ancAud x) 1 (2 ^ 16))
  else if !s.ancPass n did sdid then .next (s.count (K.IN_RUN n 8) 1)
  else if s.rd (K.IN_ANC_MAX_PER_LINE n) ≤ s.rd (H.ancCnt x) then .next (s.ancLate n)
  else
    let rec' := ancRecord a
    let s := (s.inc (H.ancCnt x) 1 (2 ^ 16)).count (K.IN_RUN n 7) 1
    -- a signal that is not supported is parsed and counted, and goes nowhere (R134, log 80)
    if s.rd (H.linkFmt n) = 0x100 then .next s else
    .next ((s.setVec (H.ancFwd n) (s.vec (H.ancFwd n) ++ rec')).ancStore n rec')

/-! ## Switch line of an input (R151, R152, R180) -/

/-- The ring of an input opens its next slot, or its first one (R180, R227). -/
def State.ringSlot (s : State) (i stamp : Nat) : State :=
  let c := s.rd (K.IN_STAT_FORMAT i)
  if s.rd (K.RING_SLOT_BYTES i) = 0 then s else
  let cur := s.rd (K.RING_SLOT i)
  let h := (fmtSize (s.rd (H.slotFmt (4 * i + cur)))).2
  let links := if s.rd (K.IN_QUAD_MODE (4 * (i / 4))) = 0 then [i] else [i, i + 1, i + 2, i + 3]
  let quad := links.length = 4
  let full := links.all (fun n => decide (h ≤ (if quad then 2 * s.rd (H.rxRows n) else s.rd (H.rxRows n))))
  let writing := s.rd (K.RING_STATE i) = 1
  let s : State := if writing ∧ s.rd (H.ringLive i) = 1 ∧ full then s.wr (H.slotFull (4 * i + cur)) 1 else s
  let s := (links.foldl (fun (t : State) n => t.wr (H.rxRows n) 0) s).wr (H.ringLive i) 0
  if slotBytes c (s.rd (K.RING_FORMAT i)) ≠ s.rd (K.RING_SLOT_BYTES i) then s else
  let j := if writing then (cur + 1) % 3 else cur
  let x := 4 * i + j
  let s := s.wrs [(K.RING_STATE i, 1), (K.RING_SLOT i, j), (H.slotAt x, stamp + 1), (H.slotFmt x, c), (H.slotFull x, 0), (H.slotAnc x, 4), (H.ringLive i, 1)]
  let s : State := if s.rd (K.RING_MIRROR i) = 1 then s.inc (H.ringSince i) 1 256 else s
  s.fsWrites (s.slotAddr i j + s.slotPic i) [0, 0, 0, 0]

/-- The nearest switch-line instant of family g minus an instant `t` ns of the time of day: the ideal instants of R106 on the family's own
timescale, moved by the displacement the family has against it (R151, log 81). -/
def State.familyPhase (s : State) (g t : Nat) : Lead :=
  leadOf (-((t : Int) + s.rd (H.tsNs (s.rd (K.GSYN_SEL g))) - s.tod + (s.gNow g).2)) (toInt 32 (s.rd (K.GSYN_PHASE_OFFSET g)))
    (s.rd (K.GSYN_RATE g))

/-- TIMING.PHASE of IN[n] against every family, for a stamp: of the families of its own frame rate (R151). -/
def State.phaseStamp (s : State) (n stamp : Nat) : State :=
  let rate := match fmt (s.rd (K.IN_STAT_FORMAT n)) with | some f => f.rate | none => 99
  s.upto 8 (fun g t =>
    if t.rd (K.GSYN_RATE g) = rate then
      let p := ofInt 32 (t.familyPhase g stamp).ns
      (t.wr (K.IN_TIMING_PHASE n g) p).setVec (H.phaseHist (8 * n + g))
        ([t.now, p] ++ (lastSecond t.now (t.vec (H.phaseHist (8 * n + g)))).flatMap (fun x => [x.1, x.2]))
    else (t.clr (K.IN_TIMING_PHASE n g)).setVec (H.phaseHist (8 * n + g)) [])

/-- The skew of the pair of input n, whose switch line has come, and its health (R148); a skew is known once both have had one. -/
def State.pairStamp (s : State) (n : Nat) : State :=
  match s.primaryOf n with
  | none => s
  | some p =>
    let b := s.rd (K.IN_BRACKET_PARTNER p)
    let at' (i : Nat) : Nat := ofPtime (s.rd (K.IN_TIMING_FRAME_TIME i))
    let known := [p, b].all (fun i => s.rd (H.validAt i) != 0 && decide (s.rd (H.validAt i) ≤ at' i + 1))
    let r := match fmt (s.rd (K.IN_STAT_FORMAT n)) with | some f => f.rate | none => 2
    let s : State := if known then s.wrI 32 (K.IN_BRACKET_SKEW p) (leadOf ((at' b : Int) - at' p) 0 r).ns else s
    let s := (s.up (H.brFail n) (fun v => v - 1)).brEval p 0
    if n = p then s.wr (H.brHealthy p) (if s.healthy p p then min 65535 (s.rd (H.brHealthy p) + 1) else 0) else s

/-- A frame of a VALID input begins at `stamp` ns: stamp, PHASE, statistics, ANC, ring and pair (R59, R148, R151, R152, R180). -/
def State.frameStart (s : State) (n stamp : Nat) : State :=
  if s.rd (K.IN_STAT_STATE n) ≠ 4 then s else
  let s := ((s.wr (K.IN_TIMING_FRAME_TIME n) (ptime stamp)).phaseStamp n stamp).wr (H.brFrame n) (s.rd (H.inFrame n))
  let s := s.inc (H.inFrame n) 1 (2 ^ 48)
  let s := s.latch (K.IN_RUN n) (K.IN_LAST n) (K.IN_TOTAL n) 11 (s.rd (H.inFrame n))
  let s := s.setVec (H.ancPrev n) (s.vec (H.ancFwd n))
  let s := (s.wrs [(K.IN_TC_VALID n, 0), (H.crcFrame n, 0), (H.inBoundAt n, s.now)]).setVec (H.ancFwd n) []
  let s := s.upto 16 (fun k t => t.wr (H.ancLine (16 * n + k)) 0)
  (s.ringSlot n stamp).pairStamp n

/-- Link IN[n] of an assembled quad has the latest switch line of the four, at `stamp`, and with it the stream begins a frame (R145). -/
def State.quadBegins (s : State) (q n stamp : Nat) : Bool :=
  let f0 := s.rd (H.linkFmt (4 * q)) - 1
  let r := match fmt f0 with | some f => f.rate | none => 2
  s.rd (K.IN_QUAD_STATE (4 * q)) == 1 && decide (s.rd (H.quadAt q) + periodNs r / 2 ≤ stamp + 1 ∨ stamp + 1 < s.rd (H.quadAt q)) &&
  (match s.quadSkews q r with
   | some d => (List.range 4).any (fun k => s.linkInput q k == some n && d.getD k 0 == d.foldl max 0)
   | none => false)

/-- RX_SWITCH_LINE_STAMP: the switch line of IN[4q + k], `ns` into the present tick. A link of a quad moves its skew, and the assembled stream
begins its frame with the latest one (R145, R151). -/
def rxSwitchLineStamp (q : Fin 12) (k : Fin 4) (ns : Nat) (s : State) : Host.Outcome State Fault Refusal :=
  let q := q.val
  let n := 4 * q + k.val
  let stamp := s.tod + ns % 1000
  if s.rd (K.IN_QUAD_MODE (4 * q)) = 0 then .next (s.frameStart n stamp) else
  if s.rd (H.linkFmt n) = 0 then .next s else
  let s := s.wr (H.linkAt n) (stamp + 1)
  let s := (if k.val = 0 then s else s.frameStart n stamp).quadEval q
  .next (if s.quadBegins q n stamp then (s.wr (H.quadAt q) (stamp + 1)).frameStart (4 * q) stamp else s)

/-- RX_INTERVAL_LATCH: an input that has had no frame boundary for 20 ms latches at each 20 ms interval of the time of day (R59, R152). -/
def rxIntervalLatch (n : Fin 48) (s : State) : Host.Outcome State Fault Refusal :=
  let n := n.val
  if s.rd (K.IN_STAT_STATE n) = 4 ∨ s.now < s.rd (H.inBoundAt n) + 20000 then .next s else
  let k := (s.tod + 999) / 20000000
  -- the first interval after a frame began as that frame
  let s : State := if s.rd (K.IN_RUN n 1) < 2 ^ 63 then s.wr (K.IN_RUN n 1) (2 ^ 63 + (k + 2 ^ 48 - 1) % 2 ^ 48) else s
  .next ((s.latch (K.IN_RUN n) (K.IN_LAST n) (K.IN_TOTAL n) 11 (2 ^ 63 + k % 2 ^ 48)).wr (H.inBoundAt n) s.now)

/-- BRACKET_REVERT: with REVERT true, after REVERT_FRAMES healthy frames of the primary the pair returns to it (R150). -/
def execBracketRevert (p : Fin 48) (s : State) : Host.Outcome State Fault Refusal :=
  let p := p.val
  if s.rd (K.IN_BRACKET_ROLE p) = 1 ∧ s.rd (K.IN_BRACKET_REVERT p) = 1 ∧ s.rd (K.IN_BRACKET_STATE p) = 3
      ∧ s.rd (K.IN_BRACKET_REVERT_FRAMES p) ≤ s.rd (H.brHealthy p) ∧ s.healthy p p
  then .next ((s.brTake p p 2).brEval p 2) else .next s

/-! ## Writes of input objects (R145 to R150) -/

/-- An admitted route takes input i by its own number, developed or committed, of an output, a layer or a converter, or as a key; with
`pair` only what reads the frame store counts (R145 to R147). -/
def State.takesInput (s : State) (i : Nat) (pair : Bool) : Bool :=
  let said (k v : Nat) : Bool := s.com.any (fun c => c.key == k && c.val == v)
  let open' (k : Nat) : Bool := s.com.any (fun c => c.key == k)
  let val (k v : Nat) : Bool := s.rd k == v || said k v
  -- what a committed value leaves standing
  let will (k v : Nat) : Bool := said k v || (!open' k && s.rd k == v)
  (List.range 48).any (fun n =>
      let f := K.OUT_FORMAT n
      let dev := s.rd f != 0
      let com := s.com.any (fun c => c.key == f && c.val != 0) || (dev && !open' f)
      (dev && (s.rd (K.OUT_ROUTE_SRC n) == i || s.rd (K.OUT_ROUTE_KEY_SRC n) == i) && (!pair || s.rd (H.outPath n) == 2))
        || (com && (will (K.OUT_ROUTE_SRC n) i || will (K.OUT_ROUTE_KEY_SRC n) i) && (!pair || will (H.outPath n) 2)))
    || (List.range 128).any (fun x => ((val (K.LAYER_SRC_KIND x) 2 && (val (K.LAYER_SRC_ID x) i || val (K.LAYER_SRC_KEY x) i))
        || (!pair && val (K.LAYER_SRC_KIND x) 3 && val (K.LAYER_SRC_ID x) i)))
    || (List.range 64).any (fun x => ((!pair && val (K.FRC_STREAM_KIND (x / 4) (x % 4)) 1) || val (K.FRC_STREAM_KIND (x / 4) (x % 4)) 2)
        && val (K.FRC_STREAM_SRC (x / 4) (x % 4)) i)

/-- An admitted route reads input i: by its number, or, a backup, through its primary. -/
def State.inputRead (s : State) (i : Nat) : Bool :=
  s.takesInput i false ||
  (s.rd (K.IN_BRACKET_ROLE i) == 2 && (match s.primaryOf i with | some p => s.takesInput p true | none => false))

/-- A write of QUAD.MODE (R145). -/
def quadModeWrite (n v : Nat) (s : State) : Ans :=
  if (List.range 4).any (fun k => s.inputRead (n + k)) then ansBusy s
  else
    let s := s.wr (K.IN_QUAD_MODE n) v
    -- each link is judged anew in the new mode; an input that led a quad is on its own again
    let s := s.upto 4 (fun k t => if t.rd (H.linkFmt (n + k)) = 0 then t else
      let c := t.measFmt (n + k) (t.vec (H.measOk (n + k)))
      let t := t.wr (H.linkFmt (n + k)) (c + 1)
      if k = 0 ∧ v ≠ 0 then t else t.inFormat (n + k) c)
    ansOk (s.quadEval (n / 4))

/-- A write of CFG.KEY_INPUT (R146). -/
def keyInputWrite (n v : Nat) (s : State) : Ans :=
  if s.inputRead n then ansBusy s else ansOk (s.wr (K.IN_CFG_KEY_INPUT n) v)

/-- A write of an input's BRACKET.PARTNER (R147). -/
def inPartnerWrite (n v : Nat) (s : State) : Ans :=
  let old := s.rd (K.IN_BRACKET_PARTNER n)
  if v < 48 ∧ v / 4 = n / 4 then ansRange s
  else if s.inputRead n || (decide (v < 48) && s.inputRead v) || (decide (old < 48) && s.inputRead old) then ansBusy s
  else
    -- who holds the input named, or the input that names
    let holder := (List.range 48).find? (fun p => p != n && decide (s.rd (K.IN_BRACKET_PARTNER p) < 48)
      && (s.rd (K.IN_BRACKET_PARTNER p) == v || p == v || s.rd (K.IN_BRACKET_PARTNER p) == n))
    match if v < 48 then holder else none with
    | some p => ansConflict (K.IN_BRACKET_PARTNER p) s
    | none =>
      let s : State := if old < 48 then s.wr (K.IN_BRACKET_ROLE old) 0 else s
      let s := s.wr (K.IN_BRACKET_PARTNER n) v
      if v < 48 then
        let s := (s.wrs [(K.IN_BRACKET_ROLE n, 1), (K.IN_BRACKET_ROLE v, 2), (K.IN_BRACKET_ACTIVE n, n), (H.brHealthy n, 0)]).inc
          K.COMMIT_NEXT_SEQ 1 (2 ^ 32)
        ansOk ((s.brState n 2).brEval n 0)
      else ansOk ((s.wrs [(K.IN_BRACKET_ROLE n, 0), (K.IN_BRACKET_ACTIVE n, 255), (K.IN_BRACKET_SKEW n, 0)]).brState n 0)

/-- A write of BRACKET.SELECT: the primary (0) or the backup (1), BUSY while it is not healthy (R150). -/
def selectWrite (p v : Nat) (s : State) : Ans :=
  let i := if v = 0 then p else s.rd (K.IN_BRACKET_PARTNER p)
  if s.rd (K.IN_BRACKET_ROLE p) ≠ 1 ∨ !s.healthy p i then ansBusy s
  else ansOk (((s.wr (K.IN_BRACKET_SELECT p) v).brTake p i 3).brEval p 3)

end Sys2Proof.Machine
end

