-- ==== Sys2Proof/Machine/Develop.lean ====
section
/-! DEFINITION. Development of commit units: which committed values take effect at a development point, layer flips with their fences
and groups, the development record and salvo completion (spec/02 R45 to R54; spec/08 R187; spec/12 R273 to R277; spec/11 R250 to
R255). A unit is named by its bit in UMASK (R46). -/
namespace Sys2Proof.Machine

/-! ## Units (R45, R46) -/

/-- The bit of OUT[n] in UMASK is n; the other units follow (R46). -/
def unitEas (e : Nat) : Nat := 48 + e
/-- FRC[f]. -/
def unitFrc (f : Nat) : Nat := 64 + f
/-- GSYN[g]. -/
def unitGsyn (g : Nat) : Nat := 80 + g
/-- AUD.DST[d]. -/
def unitDst (d : Nat) : Nat := 192 + d

/-- The units of a UMASK in its order: OUT, EAS, FRC, GSYN, AUD.DST (R46, R198). Byte 0 comes first on the wire. -/
def maskUnits (m : Nat) : List Nat := (List.range 1728).filter (fun p => m.testBit (8 * (215 - p / 8) + p % 8))

/-- Block index of a unit (R198). -/
def unitIdx (u : Nat) : Nat :=
  if u < 48 then outIdx u else if u < 64 then easIdx (u - 48) else if u < 80 then frcIdx (u - 64)
  else if u < 88 then gsynIdx (u - 80) else 0x7000 + (u - 192)

/-- Member m (1 to 6) of a unit's development record (R52, R328). -/
def devKey (u m : Nat) : Nat :=
  if 192 ≤ u then K.at' (0x7000 + (u - 192)) (0x0E + m) else K.at' (unitIdx u + 0x1F) m

/-- The Enlarger that serves a layer alone or leads, and its stripe partner, in an assignment of admission. -/
def planLead (v : Nat) : Option Nat := if v % 64 = 0 then none else some (v % 64 - 1)
/-- The stripe partner. -/
def planPart (v : Nat) : Option Nat := if v / 64 % 64 = 0 then none else some (v / 64 % 64 - 1)
/-- The taps in use. -/
def planTaps (v : Nat) : Nat := v / 4096
/-- An assignment: Enlarger, partner, taps. -/
def planOf (lead : Nat) (part : Option Nat) (taps : Nat) : Nat :=
  (taps * 64 + (match part with | some p => p + 1 | none => 0)) * 64 + lead + 1

/-- The assignment uses Enlarger n. -/
def planHas (v n : Nat) : Bool := planLead v == some n || planPart v == some n

/-- The layer that holds or names Enlarger n by a view of the objects (R253). -/
def enlLayer (rd : Nat → Nat) (n : Nat) : Option Nat :=
  let l := (List.range 16).map (fun i => 16 * (n / 4) + i)
  match l.find? (fun x => rd (K.LAYER_SRC_KIND x) != 0 && rd (K.LAYER_ENL_NAME x) == n) with
  | some x => some x
  | none => l.find? (fun x => planHas (rd (H.layEnl x)) n)

/-- A key of the hidden family that `base` begins, with its number in the family. -/
def inFam (base k n : Nat) : Option Nat := if base ≤ k ∧ k < base + n then some (k - base) else none

/-- The unit an RL object belongs to, by a view of the objects (R45, R253, R279). An object of PRF[p] belongs to none while CFG.OUT is 0xFF
(log 77). -/
def keyUnit (rd : Nat → Nat) (k : Nat) : Option Nat :=
  let idx := k / 256
  if 16777216 ≤ k then
    match inFam (H.outPath 0) k 48, inFam (H.con 0) k 768, inFam (H.layEnl 0) k 128 with
    | some n, _, _ => some n
    | _, some x, _ => some (x / 16)
    | _, _, some x => some (unitEas (x / 8))
    | _, _, _ => none
  else if 0x3000 ≤ idx ∧ idx < 0x3C00 then some ((idx - 0x3000) / 0x40)
  else if 0x4000 ≤ idx ∧ idx < 0x4400 then some (unitEas ((idx - 0x4000) / 0x40))
  else if 0x4400 ≤ idx ∧ idx < 0x4C00 then some (unitEas ((idx - 0x4400) / 0x80))
  else if 0x5000 ≤ idx ∧ idx < 0x5400 then
    let n := (idx - 0x5000) / 0x20
    some (unitEas (match enlLayer rd n with | some x => x / 8 | none => 2 * (n / 4)))
  else if 0x5800 ≤ idx ∧ idx < 0x5C00 then some (unitFrc ((idx - 0x5800) / 0x40))
  else if 0x5C00 ≤ idx ∧ idx < 0x6000 then
    let o := rd (K.PRF_CFG_OUT ((idx - 0x5C00) / 0x10))
    if o < 48 then some o else none
  else if 0x7000 ≤ idx ∧ idx < 0x7600 then some (unitDst (idx - 0x7000))
  else if 0x9A00 ≤ idx ∧ idx < 0x9B00 then some (unitGsyn ((idx - 0x9A00) / 0x20))
  else none

/-- The layer whose flip carries a key: a layer's own, or an Enlarger's it uses (R273). -/
def keyLayer (rd : Nat → Nat) (k : Nat) : Option Nat :=
  let idx := k / 256
  if 16777216 ≤ k then inFam (H.layEnl 0) k 128
  else if 0x4400 ≤ idx ∧ idx < 0x4C00 then some ((idx - 0x4400) / 0x10)
  else if 0x5000 ≤ idx ∧ idx < 0x5400 then enlLayer rd ((idx - 0x5000) / 0x20) else none

/-- The unit's timing does not run, so it has no development point (R187). -/
def State.unitStopped (s : State) (u : Nat) : Bool :=
  if u < 48 then s.rd (K.OUT_TSTATE u) == 0
  else if u < 64 then s.rd (K.EAS_STATE_TSTATE (u - 48)) == 0
  else if u < 80 then s.rd (K.FRC_STATE_TSTATE (u - 64)) == 0
  else if u < 88 then s.rd (K.GSYN_STATE (u - 80)) < 2
  else s.rd (K.OUT_TSTATE ((u - 192) / 32)) == 0

/-! ## Salvo records (R53, R54) -/

/-- Units of a UMASK. -/
def unitCount (m : Nat) : Nat := (maskUnits m).length

/-- A salvo's outcome is notified to the session that committed it (R82). -/
def State.salvoDone (s : State) (salvo state : Nat) : State :=
  let slot := s.rd (H.slvSess salvo)
  if slot = 0 then s else
  { s with done := s.done ++ [⟨slot - 1, salvo, state, if s.bit (K.SLV_FLAGS salvo) 1 then 0x0A else 0⟩] }

/-- Count a unit of the commit with grant number `seq` that developed at `time`; the last one completes the salvo (R54, R187). -/
def State.countUnit (s : State) (time salvo seq : Nat) : State :=
  if s.rd (K.SLV_STATE salvo) ≠ 3 ∨ s.rd (K.SLV_SEQ salvo) ≠ seq then s else
  let s := s.inc (K.SLV_DEV_COUNT salvo) 1 65536
  if s.rd (K.SLV_DEV_COUNT salvo) < unitCount (s.rd (K.SLV_UNITS salvo)) then s else
  (s.wrs [(K.SLV_STATE salvo, 4), (K.SLV_COMPLETE_TIME salvo, time)]).salvoDone salvo 4

/-- Pairs of a flat list. -/
def pairsOf : List Nat → List (Nat × Nat)
  | a :: b :: t => (a, b) :: pairsOf t
  | _ => []

/-- A flat list of pairs. -/
def unpairs (l : List (Nat × Nat)) : List Nat := l.flatMap (fun p => [p.1, p.2])

/-- The predicted frame of a unit's next pending development (R52). -/
def State.predSync (s : State) (u : Nat) : State :=
  let l := (pairsOf (s.vec (H.pred u))).filterMap (fun p => if p.2 = 0 then none else some p.2)
  s.wr (devKey u 4) (match l with | [] => 0 | a :: t => t.foldl min a)

/-- Drop the predictions of some commits. -/
def State.predDrop (s : State) (u : Nat) (seqs : List Nat) : State :=
  (s.setVec (H.pred u) (unpairs ((pairsOf (s.vec (H.pred u))).filter (fun p => !seqs.contains p.1)))).predSync u

/-- Count the commits a unit developed at its development point (R187). -/
def State.countWaiting (s : State) (u time : Nat) : State :=
  (pairsOf (s.vec (H.devWait u))).foldl (fun (t : State) p => t.countUnit time p.1 p.2) (s.setVec (H.devWait u) [])

/-- The switch line of a frame that carries a development writes the unit's record and counts its commits (R52, R187). -/
def State.devRecord (s : State) (u frame time : Nat) : State :=
  let s : State := if s.rd (H.devFrame u) = 1 then s.wrs [(H.devFrame u, 0), (devKey u 1, frame % 2 ^ 48), (devKey u 2, time)] else s
  let s : State := if s.rd (H.devSalvo u) = 0 then s else s.wrs [(devKey u 3, s.rd (H.devSalvo u) - 1), (H.devSalvo u, 0)]
  s.countWaiting u time

/-! ## What develops (R48, R49, R51) -/

/-- The commits a unit develops now: accepted in an earlier tick, DEVELOPING, or SCHEDULED without a trigger and T reached. `free`: the
unit has no development point, and what has taken effect develops at once (R187). -/
def State.eligible (s : State) (u : Nat) (free : Bool) : List Due :=
  s.due.filter (fun d => d.unit == u && (free || decide (d.at' < s.now)) &&
    (s.rd (K.SLV_STATE d.salvo) == 3 ||
      (s.rd (K.SLV_STATE d.salvo) == 2 && s.rd (K.SLV_TRIGGER d.salvo) == 0xFF
        && decide (ofPtime (s.rd (K.SLV_AT d.salvo)) ≤ s.tod + 999))))

/-- The output whose switch line also serves OUT[n], by a view: the fill of a key output (R193), the primary of a partner (R169). -/
def followed (rd : Nat → Nat) (n : Nat) : Nat :=
  let p := ((List.range 48).find? (fun m => rd (K.OUT_BRACKET_PARTNER m) == n)).getD n
  if rd (K.OUT_CONV_KEY_OUT p) = 1 ∧ rd (K.OUT_ROUTE_PAIR p) < 48 then rd (K.OUT_ROUTE_PAIR p) else p

/-- A committed entry develops with unit u: it belongs to u; or its own unit owes nothing of that commit, and u is what reaches it: the
other Easel of an Enlarger's cluster (R253), the output a Proof region was moved from (R279), the output another one follows (R196). -/
def State.belongs (s : State) (u : Nat) (c : Com) : Bool :=
  match keyUnit s.nextRd c.key with
  | some v => v == u || (!s.due.any (fun d => d.unit == v && d.seq == c.seq) &&
      (if 0x5000 * 256 ≤ c.key ∧ c.key < 0x5400 * 256 then u == unitEas (2 * ((c.key / 256 - 0x5000) / 0x80))
          || u == unitEas (2 * ((c.key / 256 - 0x5000) / 0x80) + 1)
        else if c.key < 16777216 then decide (u < 48)
        -- the contract of an output the commit did not name: with the output it follows, or with a block on its path (R196, R252)
        else u == followed s.nextRd v || (decide (48 ≤ u ∧ u < 80)
          && !s.due.any (fun d => d.unit == followed s.nextRd v && d.seq == c.seq))))
  | none => decide (u < 48)

/-- The output whose contract an entry belongs to. -/
def conOut (k : Nat) : Option Nat := (inFam (H.con 0) k 768).map (fun x => x / 16)

/-- Move committed entries into the developed state, noting them for the unit's next switch line (R127); a contract waits for the cut of
its own output (R207). -/
def State.moveIn (s : State) (u : Nat) (l : List Com) : State :=
  let s := { s with com := s.com.filter (fun c => !l.contains c) }
  l.foldl (fun (t : State) c =>
    let t := t.wr c.key c.val
    let v := (conOut c.key).getD u
    let due := t.vec (H.airDue v)
    let t : State := if due.contains c.key then t else t.setVec (H.airDue v) (due ++ [c.key])
    if v = u then t else t.wr (H.cutDue v) 1) s

/-- Readers of buffers follow a change of the developed state: `old` is the state before, `places` the ones that may change (R221). -/
def State.refsFollow (s old : State) (places : List Nat) : State :=
  places.foldl (fun (t : State) i =>
    let a := refBuf old.rd i
    let b := refBuf s.rd i
    if a = b then t else (t.refUp b).refDown (refReader i) a) s

/-- Close the commits a unit has developed: SCHEDULED becomes DEVELOPING, the debt is paid, the record of the unit changes and the
commit counts, at once or at the switch line (R52, R54, R187). -/
def State.closeDue (s : State) (u : Nat) (l : List Due) (now' : Bool) : State :=
  match l with
  | [] => s
  | d0 :: t0 =>
    let s := l.foldl (fun (t : State) d => if t.rd (K.SLV_STATE d.salvo) = 2 then t.wr (K.SLV_STATE d.salvo) 3 else t) s
    let s := { s with due := s.due.filter (fun d => !l.contains d) }
    let last := t0.foldl (fun a d => if a.seq < d.seq then d else a) d0
    let s := (s.predDrop u (l.map Due.seq)).wrs [(devKey u 6, 0), (H.devSalvo u, last.salvo + 1), (H.devFrame u, 1)]
    let s := s.inc K.IDENT_CFG_SEQ 1 (2 ^ 64)
    let pairs := unpairs (l.map (fun d => (d.salvo, d.seq)))
    let s := s.setVec (H.devWait u) (s.vec (H.devWait u) ++ pairs)
    if now' then (s.wrs [(devKey u 3, last.salvo), (H.devSalvo u, 0)]).countWaiting u s.todP else s

/-! ## Rings no route needs any longer (R180) -/

/-- Inputs whose ring an output's route reads: a STORED input, its partner and its key input (R148, R192). -/
def State.routeRings (s : State) (rd : Nat → Nat) (n : Nat) : List Nat :=
  let src := rd (K.OUT_ROUTE_SRC n)
  if rd (K.OUT_FORMAT n) = 0 ∨ rd (H.outPath n) ≠ 2 ∨ 48 ≤ src then [] else
  src :: ((match s.partner src with | some p => [p] | none => [])
    ++ (if rd (K.OUT_ROUTE_KEY_SRC n) < 48 then [rd (K.OUT_ROUTE_KEY_SRC n)] else []))

/-- Inputs whose ring a layer reads (R259, R148). -/
def State.layerRings (s : State) (rd : Nat → Nat) (x : Nat) : List Nat :=
  let id := rd (K.LAYER_SRC_ID x)
  if rd (K.EAS_CANVAS_FORMAT (x / 8)) = 0 ∨ rd (K.LAYER_SRC_KIND x) ≠ 2 ∨ 48 ≤ id then [] else
  id :: ((match s.partner id with | some p => [p] | none => [])
    ++ (if rd (K.LAYER_SRC_KEY x) < 48 then [rd (K.LAYER_SRC_KEY x)] else []))

/-- Inputs whose ring a converter's stream reads (R289, R148). -/
def State.frcRings (s : State) (rd : Nat → Nat) (f k : Nat) : List Nat :=
  let src := rd (K.FRC_STREAM_SRC f k)
  if rd (K.FRC_OTIM_FORMAT f) = 0 ∨ rd (K.FRC_STREAM_KIND f k) ≠ 2 ∨ 48 ≤ src then [] else
  src :: (match s.partner src with | some p => [p] | none => [])

/-- Every ring needed by a view of the objects. -/
def State.ringsOf (s : State) (rd : Nat → Nat) : List Nat :=
  (List.range 48).flatMap (s.routeRings rd) ++ (List.range 128).flatMap (s.layerRings rd)
    ++ (List.range 64).flatMap (fun x => s.frcRings rd (x / 4) (x % 4))

/-- Release the rings that no committed, developed or shown state needs (R180, R197). -/
def State.ringsSync (s : State) : State :=
  let l := s.ringsOf s.nextRd ++ s.ringsOf s.rd ++ s.ringsOf s.air
  s.upto 48 (fun i t => if t.rd (K.RING_SLOT_BYTES i) ≠ 0 ∧ !l.contains i then t.ringRelease i else t)

/-! ## Enlargers at a flip (R250 to R255) -/

/-- An Enlarger is released (R253). -/
def State.enlFree (s : State) (n : Nat) : State :=
  let h := s.rd (K.ENL_STATE_LAYER n)
  if h = 0 then s else
  let s := (List.range 16).foldl (fun (t : State) i => t.clr (K.at' (0x5001 + 0x20 * n) (i + 1))) s
  s.raise 0x4103 (0x5000 + 0x20 * n) n h

/-- The size of the picture a layer takes, by the developed state: a buffer, or the stream of an input, canvas or converter. -/
def State.layerSrcSize (s : State) (rd : Nat → Nat) (x : Nat) : Nat × Nat :=
  let id := rd (K.LAYER_SRC_ID x) % 65536
  if rd (K.LAYER_SRC_KIND x) = 1 then (s.rd (K.BUF_WIDTH id), s.rd (K.BUF_HEIGHT id))
  else if rd (K.LAYER_SRC_KIND x) = 0 then (0, 0)
  else if id < 48 then fmtSize (s.rd (K.IN_STAT_FORMAT id))
  else if id < 64 then fmtSize (rd (K.EAS_CANVAS_FORMAT (id - 48)))
  else if id < 80 then fmtSize (rd (K.FRC_OTIM_FORMAT (id - 64)))
  else fmtSize (rd (K.EAS_CANVAS_FORMAT (x / 8)))

/-- The layer takes an interlaced source (R11, R247). -/
def State.layerInterlaced (s : State) (rd : Nat → Nat) (x : Nat) : Bool :=
  let id := rd (K.LAYER_SRC_ID x)
  let k := rd (K.LAYER_SRC_KIND x)
  if (k = 2 ∨ k = 3) ∧ id < 48 then s.rd (K.IN_STAT_SCAN id) == 1
  else if k = 3 then (match fmt (if id < 64 then rd (K.EAS_CANVAS_FORMAT (id - 48)) else
      if id < 80 then rd (K.FRC_OTIM_FORMAT (id - 64)) else rd (K.EAS_CANVAS_FORMAT (x / 8))) with
    | some f => f.interlaced
    | none => false)
  else false

/-- The STATE records of the Enlargers of layer x under its developed assignment (R240, R241, R250, R251, R254), and their events where
a record changes or the development asked for an assignment, `asked` (R255). -/
def State.enlTake (s : State) (x : Nat) (asked : Bool) : State :=
  let v := s.rd (H.layEnl x)
  match planLead v with
  | none => s
  | some n =>
    let sz := s.layerSrcSize s.rd x
    let g := layerGeom s.rd x sz.1 sz.2
    let wc := g.2.2.1
    let hc := g.2.2.2.1
    let wd := g.2.2.2.2.1
    let hd := g.2.2.2.2.2
    let taps := planTaps v
    let active := deintActive (s.rd (K.ENL_CFG_DEINT n)) (s.rd (K.LAYER_SRC_KIND x)) (s.layerInterlaced s.rd x)
    let r := match fmt (s.rd (K.EAS_CANVAS_FORMAT (x / 8))) with | some f => f.rate | none => 0
    let sw := stripeW wc wd
    let row (e role : Nat) (other : Option Nat) (store px x0 x1 d0 d1 : Nat) : List (Nat × Nat) :=
      [(K.ENL_STATE_ROLE e, role), (K.ENL_STATE_LAYER e, layIdx x), (K.ENL_STATE_PARTNER e, other.getD 255),
        (K.ENL_STATE_VTAPS e, taps), (K.ENL_STATE_ORDER e, if wd < wc then 0 else 1), (K.ENL_STATE_W_STORE e, store),
        (K.ENL_STATE_LS_USED e, (taps + deintLines active) * store), (K.ENL_STATE_HSTEP e, enlStep wc wd),
        (K.ENL_STATE_VSTEP e, enlStep hc hd), (K.ENL_STATE_SRC_X0 e, x0), (K.ENL_STATE_SRC_X1 e, x1), (K.ENL_STATE_DST_X0 e, d0),
        (K.ENL_STATE_DST_X1 e, d1), (K.ENL_STATE_PIX_RATE e, pixRate px r), (K.ENL_STATE_LAT_LINES e, (taps + 1) / 2 + 3),
        (K.ENL_STATE_DEINT_ACTIVE e, active)]
    let store := min sw.1 sw.2
    let px := max (sw.1 * hc) (sw.2 * hd)
    let rows := match planPart v with
      | none => row n 1 none (min wc wd) (max (wc * hc) (wd * hd)) 0 (wc - 1) 0 (wd - 1)
      | some p => row n 2 (some p) store px 0 (wc / 2 + 63) 0 (wd / 2 - 1)
          ++ row p 3 (some n) store px (wc / 2 - 64) (wc - 1) (wd / 2) (wd - 1)
    let news := asked || rows.any (fun r => s.rd r.1 != r.2)
    let s := s.wrs rows
    if !news then s else
    let s : State := match planPart v with
      | none => s
      | some p => s.raise 0x4102 (0x5000 + 0x20 * n) (n * 256 + p) (store * 65536 + taps)
    if taps < s.rd (K.ENL_CFG_VTAPS n)
    then s.raise 0x4101 (0x5000 + 0x20 * n) (n * 65536 + layIdx x) (s.rd (K.ENL_CFG_VTAPS n) * 256 + taps) else s

/-! ## Layer flips (R273 to R277) -/

/-- The committed entries a layer's flip carries: those of the commits developing now, and those that stayed pending (R274). -/
def State.flipEntries (s : State) (x : Nat) (seqs : List Nat) : List Com :=
  s.com.filter (fun c => keyLayer s.nextRd c.key == some x &&
    (seqs.contains c.seq || !s.due.any (fun d => d.seq == c.seq && d.unit == unitEas (x / 8))))

/-- The fence of a layer holds: FENCE_DONE has reached the committed FENCE_WAIT, modulo 2^32 (R273). -/
def State.fenceOk (s : State) (x : Nat) : Bool :=
  decide ((s.rd (K.LAYER_FENCE_DONE x) + 2 ^ 32 - s.nextRd (K.LAYER_FENCE_WAIT x) % 2 ^ 32) % 2 ^ 32 < 2 ^ 31)

/-- A layer flips (R273, R277): everything pending on it develops together. `outcome` 1 flipped, 2 forced. -/
def State.flip (s : State) (x outcome : Nat) (l : List Com) : State :=
  let old := s
  let s := s.moveIn (unitEas (x / 8)) l
  let s := s.refsFollow old [96 + x, 224 + x]
  -- what the assignment no longer uses is released, and the records follow the new geometry, modes and taps (R203, R253)
  let a := old.rd (H.layEnl x)
  let b := s.rd (H.layEnl x)
  let gone := (List.range 4).map (fun i => 4 * (x / 16) + i) |>.filter (fun n => planHas a n && !planHas b n)
  let s := gone.foldl (fun (t : State) n => if t.rd (K.ENL_STATE_LAYER n) = layIdx x then t.enlFree n else t) s
  let taps := (planLead b).map K.ENL_CFG_VTAPS
  let s := s.enlTake x (l.any (fun c => c.key == H.layEnl x || some c.key == taps))
  -- a new source or a new mode restarts the deinterlacer's history (R249)
  let s : State := if l.any (fun c => c.key == K.LAYER_SRC_KIND x || c.key == K.LAYER_SRC_ID x)
    then s.wrs [(H.layHist x, 0), (H.laySlot x, 0), (H.layKeySlot x, 0), (H.layRing x, 0), (H.layLost x, 0)] else s
  s.wrs [(K.LAYER_LSTAT_FLIP_STATE x, 0), (K.LAYER_LSTAT_PENDING_FRAMES x, 0), (K.LAYER_LSTAT_LAST_OUTCOME x, outcome), (H.layOut x, 0),
    (H.layRaised x, 0), (H.layFlip x, 1)]

/-- Sub-source of a layer's events: (e << 8) | l (R285). -/
def layArg (x : Nat) : Nat := x / 8 * 256 + x % 8

/-- A pending flip is abandoned (R275): the pending state is discarded and what only it held is released. -/
def State.flipDrop (s : State) (x : Nat) (l : List Com) : State :=
  let s := s.raise 0x4202 (layIdx x) (layArg x) (s.nextRd (K.LAYER_GROUP x) * 256 + s.rd (K.LAYER_LSTAT_PENDING_FRAMES x))
  let s := { s with com := s.com.filter (fun c => !l.contains c) }
  (s.wrs [(K.LAYER_LSTAT_FLIP_STATE x, 0), (K.LAYER_LSTAT_PENDING_FRAMES x, 0), (K.LAYER_LSTAT_LAST_OUTCOME x, 3), (H.layOut x, 0),
    (H.layRaised x, 0)]).count (K.EAS_RUN (x / 8) 4) 1

/-- A pending flip is forced (R275). -/
def State.flipForce (s : State) (x : Nat) (l : List Com) : State :=
  let s := s.raise 0x4203 (layIdx x) (layArg x) (s.nextRd (K.LAYER_GROUP x) * 256 + s.rd (K.LAYER_LSTAT_PENDING_FRAMES x))
  (s.flip x 2 l).count (K.EAS_RUN (x / 8) 5) 1

/-- A flip waits (R274 to R276): `held` means its own fence holds and its group waits. -/
def State.flipWait (s : State) (x : Nat) (held : Bool) : State :=
  let s : State := if held then s.wr (K.LAYER_LSTAT_FLIP_STATE x) 2
    else (s.wr (K.LAYER_LSTAT_FLIP_STATE x) 1).incSat (K.LAYER_LSTAT_PENDING_FRAMES x) 1 255
  if s.rd (H.layRaised x) = 1 then s else
  (s.wr (H.layRaised x) 1).raise 0x4201 (layIdx x) (layArg x)
    (ofInt 32 ((s.rd (K.LAYER_FENCE_DONE x) : Int) - s.nextRd (K.LAYER_FENCE_WAIT x)))

/-- The pending layers of one group at a development point; a layer of group 0 comes alone (R273, R275, R276). -/
def State.flipGroup (s : State) (xs seqs : List Nat) : State :=
  if xs.all s.fenceOk then xs.foldl (fun (t : State) x => t.flip x 1 (t.flipEntries x seqs)) s else
  let s := xs.foldl (fun (t : State) x => t.flipWait x (t.fenceOk x)) s
  let pf := xs.foldl (fun m x => max m (s.rd (K.LAYER_LSTAT_PENDING_FRAMES x))) 0
  let out := xs.any (fun x => s.nextRd (K.LAYER_FENCE_TIMEOUT x) != 0 && decide (s.nextRd (K.LAYER_FENCE_TIMEOUT x) ≤ pf))
  if !out then s else
  if xs.all (fun x => s.nextRd (K.LAYER_FENCE_ACTION x) == 1)
  then xs.foldl (fun (t : State) x => t.flipForce x (t.flipEntries x seqs)) s
  else xs.foldl (fun (t : State) x => t.flipDrop x (t.flipEntries x seqs)) s

/-- The layers of EAS[e] at its development point (R273 to R276). -/
def State.flips (s : State) (e : Nat) (seqs : List Nat) : State :=
  let pend := (List.range 8).map (fun l => 8 * e + l) |>.filter (fun x => !(s.flipEntries x seqs).isEmpty)
  let grp (x : Nat) : Nat := s.nextRd (K.LAYER_GROUP x)
  let s1 := (pend.filter (fun x => grp x == 0)).foldl (fun (t : State) x => t.flipGroup [x] seqs) s
  let s2 := (List.range 7).foldl (fun (t : State) g =>
    let m := pend.filter (fun x => grp x == g + 1)
    if m.isEmpty then t else t.flipGroup m seqs) s1
  s2.count (K.EAS_RUN e 3) ((pend.filter (fun x => s2.rd (K.LAYER_LSTAT_FLIP_STATE x) != 0)).length)

/-! ## The units -/

/-- An output develops (R48): its values enter the developed state, its buffer readers follow; the picture changes at the switch line. -/
def State.devOut (s : State) (n : Nat) (l : List Due) : State :=
  let seqs := l.map Due.seq
  let old := s
  let s := s.moveIn n (s.com.filter (fun c => seqs.contains c.seq && s.belongs n c))
  let s := s.refsFollow old [n, 48 + n]
  let s := s.wrs [(H.cutDue n, 1), (H.outDev n, 1)]
  -- naming a slate arms it (R171)
  let s : State := if s.rd (K.OUT_SLATE_STATE n) = 2 then s
    else s.wr (K.OUT_SLATE_STATE n) (if refBuf s.rd (48 + n) % 65536 < 2048 then 1 else 0)
  s

/-- An Easel develops (R273, R274): its own values now, each layer's when its flip goes through. -/
def State.devEas (s : State) (e : Nat) (l : List Due) : State :=
  let seqs := l.map Due.seq
  let u := unitEas e
  let old := s
  let s := s.moveIn u (s.com.filter (fun c => seqs.contains c.seq && s.belongs u c && (keyLayer s.nextRd c.key).isNone))
  let s : State := if s.rd (K.EAS_WB_MODE e) ≠ old.rd (K.EAS_WB_MODE e) ∨ s.rd (K.EAS_WB_BUF e) ≠ old.rd (K.EAS_WB_BUF e) ∨
      l.any (fun d => old.com.any (fun c => c.seq == d.seq && c.key == K.EAS_WB_MODE e))
    then s.wrs [(K.EAS_WB_STATE e, if s.rd (K.EAS_WB_MODE e) = 0 then 0 else 1), (H.wbDone e, 0)] else s
  -- a new canvas changes what its Enlargers count (R246)
  let s : State := if s.rd (K.EAS_CANVAS_FORMAT e) = old.rd (K.EAS_CANVAS_FORMAT e) then s
    else s.upto 8 (fun i t => t.enlTake (8 * e + i) false)
  s.flips e seqs

/-- A converter develops (R45, R303). -/
def State.devFrc (s : State) (f : Nat) (l : List Due) : State :=
  let seqs := l.map Due.seq
  let old := s
  (s.moveIn (unitFrc f) (s.com.filter (fun c => seqs.contains c.seq && s.belongs (unitFrc f) c))).frcDeveloped old f

/-- A family develops (R45, R114): a new RATE or PHASE_OFFSET waits for the switch-line instant that follows. -/
def State.devGsyn (s : State) (g : Nat) (l : List Due) : State :=
  let seqs := l.map Due.seq
  let old := s
  let s := s.moveIn (unitGsyn g) (s.com.filter (fun c => seqs.contains c.seq && s.belongs (unitGsyn g) c))
  let s := s.wr (K.GSYN_CLASS g) (if rateFrac (s.rd (K.GSYN_RATE g)) then 1 else 0)
  if s.rd (K.GSYN_RATE g) ≠ old.rd (K.GSYN_RATE g) ∨ s.rd (K.GSYN_PHASE_OFFSET g) ≠ old.rd (K.GSYN_PHASE_OFFSET g) then
    -- a family that does not run has no old grid
    if old.unitStopped (unitGsyn g) then s.wrs [(H.gRate g, 0), (H.gPend g, 0)] else s.wr (H.gPend g) 1
  else s

/-- An audio destination develops (R321). -/
def State.devDst (s : State) (d : Nat) (l : List Due) : State :=
  let seqs := l.map Due.seq
  s.moveIn (unitDst d) (s.com.filter (fun c => seqs.contains c.seq && s.belongs (unitDst d) c))

/-- Unit u develops the commits it owes; `free` at once, without a development point (R187). An output, its destinations and every unit
counted at the switch line wait for it; the others count now. -/
def State.develop (s : State) (u : Nat) (free : Bool) : State :=
  let l := s.eligible u free
  if 48 ≤ u ∧ u < 64 ∧ l = [] then s.flips (u - 48) [] else
  if l = [] then s else
  let t : State := if u < 48 then s.devOut u l else if u < 64 then s.devEas (u - 48) l else if u < 80 then s.devFrc (u - 64) l
    else if u < 88 then s.devGsyn (u - 80) l else s.devDst (u - 192) l
  t.closeDue u l (free || (decide (48 ≤ u) && decide (u < 192)))

end Sys2Proof.Machine
end

