-- ==== Sys2Proof/Machine/Outputs.lean ====
section
/-! DEFINITION. Outputs at their frame boundary: generator start and stop, the switch line with the cut, slot choice, loss policy,
contract measurement, slate and takeover (spec/05 R122 to R132; spec/07 R155 to R172; spec/08 R175 to R195; spec/09 R207, R208). -/
namespace Sys2Proof.Machine

/-! ## The quad's rate class and reference (R157 to R159) -/

/-- Rate class a format asks of its TX quad: 0 integer, 1 1/1.001; SD counts as integer (R157). -/
def fmtClass (c : Nat) : Nat :=
  if c = 1 ∨ c = 2 then 0 else match fmt c with
    | some f => if rateFrac f.rate then 1 else 0
    | none => 255

/-- The four outputs of a TX quad. -/
def quadOuts (q : Nat) : List Nat := [4 * q, 4 * q + 1, 4 * q + 2, 4 * q + 3]

/-- Bring TXQ[q] in line with its outputs: class and holder by the developed formats, before them by the claim of a committed one (R158);
the reference is the family of the lowest running output (R159). -/
def State.txqSync (s : State) (q : Nat) : State :=
  let dev := (quadOuts q).filter (fun n => s.rd (K.OUT_FORMAT n) != 0)
  let com := (quadOuts q).filter (fun n => s.nextRd (K.OUT_FORMAT n) != 0)
  let claim := s.rd (H.txqClaim q) - 1
  let cls : Nat × Nat := match dev, com with
    | n :: _, _ => (fmtClass (s.rd (K.OUT_FORMAT n)), n)
    | [], [] => (255, 255)
    | [], m :: _ => let h := if com.contains claim then claim else m; (fmtClass (s.nextRd (K.OUT_FORMAT h)), h)
  let run := (quadOuts q).find? (fun n => s.rd (K.OUT_TSTATE n) != 0 && s.air (K.OUT_FORMAT n) != 0)
  let fam := match run, dev with
    | some n, _ => s.air (K.OUT_FAMILY n)
    | none, n :: _ => s.rd (K.OUT_FAMILY n)
    | none, [] => 255
  let old := s.rd (K.OUT_TXQ_PLL_GSYN (4 * q))
  let s := s.wrs [(K.OUT_TXQ_CLASS (4 * q), cls.1), (K.OUT_TXQ_HOLDER (4 * q), cls.2), (K.OUT_TXQ_PLL_GSYN (4 * q), fam)]
  if old = fam then s else s.raise 0x3005 (outIdx (4 * q)) q (old * 256 + fam)

/-! ## On air (R127, R185) -/

/-- Publish some of the objects a unit has developed. -/
def State.publishIf (s : State) (u : Nat) (p : Nat → Bool) : State :=
  let l := s.vec (H.airDue u)
  (l.filter p).foldl State.publish (s.setVec (H.airDue u) (l.filter (fun k => !p k)))

/-- Publish everything a unit has developed. -/
def State.publishAll (s : State) (u : Nat) : State := s.publishIf u (fun _ => true)

/-- The object reaches the wire at the cut of OUT[n], with its route: route, path and contract. -/
def atCut (n k : Nat) : Bool := (routeKeys n).contains k || decide (H.con (16 * n) ≤ k ∧ k < H.con (16 * n) + 16)

/-- A bracketed pair of outputs takes up or gives up its partner: `old` was the partner on air (R169). -/
def State.bracketSync (s : State) (n old : Nat) : State :=
  let p := s.air (K.OUT_BRACKET_PARTNER n)
  if old = p then s else
  let s : State := if old < 48 then s.wrs [(K.OUT_BRACKET_ROLE old, 0), (K.OUT_BRACKET_STATE old, 0)] else s
  if p < 48 then
    s.wrs [(K.OUT_BRACKET_ROLE n, 1), (K.OUT_BRACKET_STATE n, 1), (K.OUT_BRACKET_ROLE p, 2), (K.OUT_BRACKET_STATE p, 1)]
  else s.wrs [(K.OUT_BRACKET_ROLE n, 0), (K.OUT_BRACKET_STATE n, 0), (H.tkCause n, 0), (H.tkRel n, 0)]

/-- The objects of OUT[n]'s ANC, which a route that is PRIMING holds back with itself (R182). -/
def atAnc (n k : Nat) : Bool := [K.OUT_ANC_PASS n, K.OUT_ANC_TC_MODE n, K.OUT_ANC_TC_SRC n].contains k

/-- Put the picture objects of OUT[n] on air: format, conversion, partner, slate, Proof regions; ANC follows the cut. -/
def State.publishPicture (s : State) (n : Nat) : State :=
  let old := s.air (K.OUT_BRACKET_PARTNER n)
  let modes := (List.range 64).map (fun p => s.air (K.PRF_CFG_MODE p))
  let s := (s.publishIf n (fun k => !atCut n k && !atAnc n k)).bracketSync n old
  let s : State := if n % 4 = 0 then s.wr (K.OUT_QUAD_STATE n) (if s.air (K.OUT_QUAD_MODE n) ≠ 0 ∧ s.air (K.OUT_FORMAT n) ≠ 0 then 1 else 0) else s
  -- a Proof region that is switched on or off starts anew (R281)
  s.upto 64 (fun p t =>
    let m := t.air (K.PRF_CFG_MODE p)
    if t.rd (K.PRF_CFG_OUT p) ≠ n ∨ m = modes.getD p 0 then t
    else t.wrs [(K.PRF_STATUS_STATE p, if m = 0 then 0 else 3), (H.prfLearn p, 0), (K.PRF_STATUS_RUN p, 0), (H.prfBad p, 0)])

/-- OUT[n] has no route in force: its contract ends, and only GRANT and FRAME tell the commit that ended it (R155, R207). -/
def State.contractEnd (s : State) (n frame : Nat) (con : Bool) : State :=
  let had := s.rd (K.OUT_CONTRACT_PATH n)
  let s := [1, 2, 3, 4, 5, 6, 7, 8, 9, 10, 11, 12, 14].foldl (fun t i => t.clr (K.at' (outIdx n + 0x22) i)) s
  let s : State := if con then s.wrs [(K.OUT_CONTRACT_GRANT n, s.rd (H.con (16 * n + 13))), (K.OUT_CONTRACT_FRAME n, frame),
    (K.OUT_MEASURED_MAX n, 0), (K.OUT_MEASURED_MIN n, 0xFFFFFFFF)] else s
  if had = 0 then s else s.raise 0x3011 (outIdx n) n 0

/-- The contract of the commit that is developing belongs to OUT[n]. -/
def State.conDue (s : State) (n : Nat) : Bool := (s.vec (H.airDue n)).contains (H.con (16 * n + 13))

/-- The contract admission made for the developed route takes effect at the cut; the event tells a change of its terms (R207, R208). -/
def State.contractTake (s : State) (n frame : Nat) : State :=
  let same := (List.range 12).all (fun i => s.rd (K.at' (outIdx n + 0x22) (i + 1)) == s.rd (H.con (16 * n + i + 1)))
  let s := (List.range 13).foldl (fun t i => t.wr (K.at' (outIdx n + 0x22) (i + 1)) (t.rd (H.con (16 * n + i + 1)))) s
  let path := s.rd (K.OUT_CONTRACT_PATH n)
  let s := s.wrs [(K.OUT_CONTRACT_STATE n, if path = 0 then 0 else 1), (K.OUT_CONTRACT_FRAME n, frame), (K.OUT_MEASURED_MAX n, 0),
    (K.OUT_MEASURED_MIN n, 0xFFFFFFFF)]
  if same then s else s.raise 0x3011 (outIdx n) n (s.rd (K.OUT_CONTRACT_MAX_LAT n))

/-- The route of OUT[n] is off the wire. -/
def State.routeClear (s : State) (n : Nat) : State :=
  (s.wrs [(K.OUT_ROUTE_STAT_STATE n, 0), (K.OUT_ROUTE_STAT_PATH n, 0), (K.OUT_ROUTE_STAT_LEAD n, 0x80000000),
    (K.OUT_ROUTE_STAT_SYNC_LAT n, 0x80000000), (K.OUT_MEASURED_LAST n, 0xFFFFFFFF), (H.outSlot n, 0), (H.outRing n, 0),
    (H.outPartSlot n, 0), (H.outPartRing n, 0), (H.outKeySlot n, 0), (H.outBuf n, 0), (H.lossPh n, 0), (H.lossSlot n, 0), (H.keyLost n, 0),
    (H.prime n, 0), (H.cutDue n, 0), (H.outDev n, 0), (airKey (K.OUT_ROUTE_SRC n), 255)]).setVec (H.outLine n) []

/-- A unit without timing develops what has taken effect, at once (R187). What it sends when its timing starts is on air from then; an
output of FORMAT 0 holds no route (R155). -/
def State.developFree (s : State) (u : Nat) : State :=
  let s := s.develop u true
  if u < 48 then
    let con := s.conDue u
    let s := ((s.leaveAll u).publishPicture u).publishIf u (atAnc u)
    let s : State := if s.rd (K.OUT_FORMAT u) = 0 then
        ((s.publishAll u).contractEnd u 0 con).routeClear u else s
    (s.txqSync (u / 4)).ringsSync
  else if u < 64 then
    let s := (s.publishAll u).leaveAll (64 + (u - 48))
    s.ringsSync
  else if u < 80 then (s.publishAll u).ringsSync
  else if 192 ≤ u then s.publishAll u
  else s

/-! ## Slate and takeover (R170, R171) -/

/-- The slate goes on air at the switch line now (R171). -/
def State.slateOn (s : State) (n cause : Nat) : State :=
  if s.rd (K.OUT_SLATE_STATE n) ≠ 1 then s else
  (s.wrs [(K.OUT_SLATE_STATE n, 2), (H.slateCause n, cause), (H.slateCnt n, 0), (H.slateClean n, 0)]).raise 0x3006 (outIdx n) n cause

/-- The slate leaves the air at the switch line now. -/
def State.slateOff (s : State) (n : Nat) : State :=
  if s.rd (K.OUT_SLATE_STATE n) ≠ 2 then s else
  (s.wr (K.OUT_SLATE_STATE n) (if refBuf s.rd (48 + n) % 65536 < 2048 then 1 else 0)).raise 0x3007 (outIdx n) n (s.rd (H.slateCnt n))

/-- What waits for the switch line of a slate (R171): commands, a slate disarmed while on air, a loss that ended. -/
def State.slateStep (s : State) (n : Nat) : State :=
  let p := s.rd (H.slatePend n)
  let s := s.wr (H.slatePend n) 0
  let gone := decide (2048 ≤ refBuf s.rd (48 + n) % 65536)
  if p = 2 ∨ gone then s.slateOff n
  else if p = 1 then s.slateOn n (s.rd (H.slateCause n)) else s

/-- Takeover of a bracketed output by its partner begins (R170): causes 0 fetcher, 1 parity, 2 Proof. -/
def State.takeover (s : State) (n cause : Nat) : State :=
  let m := s.air (K.OUT_BRACKET_PARTNER n)
  if s.rd (K.OUT_BRACKET_ROLE n) ≠ 1 then s else
  let s := s.wr (H.tkCause n) (cause + 1)
  if s.rd (K.OUT_BRACKET_STATE n) ≠ 1 then s else
  let s := s.wrs [(K.OUT_BRACKET_STATE n, 2), (H.tkCnt n, 1), (H.tkRel n, 0)]
  (s.count (K.OUT_RUN n 7) 1).raise 0x3008 (outIdx n) n (cause * 256 + m)

/-- A fault of OUT[m] while it serves a primary in takeover ends that takeover: the primary sends held lines (R170). -/
def State.partnerFails (s : State) (m : Nat) : State :=
  match (List.range 48).find? (fun p => s.air (K.OUT_BRACKET_PARTNER p) == m && s.rd (K.OUT_BRACKET_ROLE p) == 1) with
  | some p => if s.rd (K.OUT_BRACKET_STATE p) = 2 then (s.wr (K.OUT_BRACKET_STATE p) 3).raise 0x300A (outIdx p) p m else s
  | none => s

/-- The switch line of an output in takeover, or with both failed: a release takes effect (R170). A fetcher or parity cause persists to the
end of the frame it was reported in. -/
def State.takeoverStep (s : State) (n : Nat) : State :=
  let s : State := if s.rd (H.tkCause n) = 1 ∨ s.rd (H.tkCause n) = 2 then s.wr (H.tkCause n) 0 else s
  if s.rd (K.OUT_BRACKET_STATE n) < 2 then s else
  if s.rd (H.tkRel n) = 1 then
    (s.wrs [(H.tkRel n, 0), (K.OUT_BRACKET_STATE n, 1)]).raise 0x3009 (outIdx n) n (s.rd (H.tkCnt n))
  else if s.rd (K.OUT_BRACKET_STATE n) = 2 then (s.inc (H.tkCnt n) 1 (2 ^ 32)).count (K.OUT_RUN n 7) 1
  else s

/-! ## The end of a frame (R59, R131, R173) -/

/-- The lines a frame of net change `n` inserts or omits (R131). -/
def adjustLines (spl : Nat) (n : Int) : Nat := if 0 ≤ n then n.natAbs / spl else ceilDiv n.natAbs spl

/-- The lines the frame OUT[n] sends has inserted before line 1, and those it omits there (R131). -/
def State.outExtra (s : State) (n : Nat) : Nat × Nat :=
  if s.rd (H.outAdjOn n) = 0 then (0, 0) else
  let a := s.rd64 (H.outAdj n)
  let k := adjustLines (match fmt (s.air (K.OUT_FORMAT n)) with | some f => f.spl | none => 1) a
  if 0 ≤ a then (k, 0) else (0, k)

/-- The line OUT[n] sends is one of those inserted before line 1 (R131). -/
def State.lineInserted (s : State) (n : Nat) : Bool := s.rd (H.outLineNo n) == 1 && decide (s.rd (H.outOnes n) ≤ (s.outExtra n).1)

/-- How many lines OUT[n] sends from the one it sends now up to its switch line (R126, R131). -/
def State.linesLeft (s : State) (n : Nat) : Nat :=
  match fmt (s.air (K.OUT_FORMAT n)) with
  | none => 0
  | some f =>
    let x := s.outExtra n
    let line := s.rd (H.outLineNo n)
    if f.sw ≤ line then f.lines - x.2 + 1 - line + x.1 + (f.sw - 1)
    else if s.lineInserted n then x.1 + 1 - s.rd (H.outOnes n) + (f.sw - 1)
    else f.sw - line

/-- Net lines and samples of an adjusted frame, as FRAME_LENGTH gives them (R173). -/
def frameLength (spl : Nat) (n : Int) : Nat :=
  let k := adjustLines spl n
  let samples : Int := if 0 ≤ n then n - (k * spl : Nat) else ((k * spl : Nat) : Int) + n
  ofInt 16 (if 0 ≤ n then (k : Int) else -(k : Int)) * 65536 + ofInt 16 samples

/-- The frame of OUT[n] that the switch line ends: its held lines, its adjustment, its fetch low mark and its counters. -/
def State.endFrame (s : State) (n next : Nat) : State :=
  let old := s.rd (K.OUT_EVT_FRAME n)
  let held := s.rd (H.heldCnt n)
  let s : State := if held = 0 then s else (s.wr (H.heldCnt n) 0).raise 0x3004 (outIdx n) n held
  let s : State := if s.rd (H.outAdjOn n) = 0 then s else
    let a := s.rd64 (H.outAdj n)
    let spl := match fmt (s.air (K.OUT_FORMAT n)) with | some f => f.spl | none => 1
    ((s.wrs [(H.outAdjOn n, 0), (K.OUT_EVT_ADJ_FRAME n, old), (K.OUT_EVT_ADJ_SAMPLES n, ofInt 32 a)]).countFrame (K.OUT_RUN n 8) 1).raise
      0x3003 (outIdx n) n (frameLength spl a)
  -- a slate that a Proof mismatch put on air counts the frames in which every region matched (R171)
  let clean := (List.range 64).all (fun p => s.rd (K.PRF_CFG_OUT p) != n || s.air (K.PRF_CFG_MODE p) == 0 || s.rd (K.PRF_STATUS_STATE p) == 1)
  let s : State := if s.rd (K.OUT_SLATE_STATE n) = 2 ∧ s.rd (H.slateCause n) = 1
    then s.wr (H.slateClean n) (if clean then s.rd (H.slateClean n) + 1 else 0) else s
  let s := s.wrs [(K.OUT_FETCH_MIN_LEVEL n, 16384 - s.rd (H.fetchLow n)), (H.fetchLow n, 16384 - s.rd (K.OUT_FETCH_LEVEL n))]
  s.latch (K.OUT_RUN n) (K.OUT_LAST n) (K.OUT_TOTAL n) 8 next

/-- The frame the switch line opens absorbs the steps its family's switch line ended (R111, R131). -/
def State.adjustStep (s : State) (n : Nat) : State :=
  match stepsFrom (s.rd (K.OUT_EVT_FRAME n)) (s.vec (H.outStep n)) with
  | [] => s.setVec (H.outStep n) []
  | l => (s.setVec (H.outStep n) l).adjustFrame n

/-! ## The route at a switch line (R181 to R185, R192, R193) -/

/-- The route objects that decide the picture of a route from source `src`: what another kind of source would read does not count. -/
def picKeys (n src : Nat) : List Nat :=
  [K.OUT_ROUTE_SRC n, K.OUT_ROUTE_PAIR n, H.outPath n] ++ (if src = 0xFE then [K.OUT_ROUTE_BUF n] else []) ++
  (if src = 255 then [] else [K.OUT_ROUTE_KEY_SRC n]) ++ (if 64 ≤ src ∧ src < 80 then [K.OUT_ROUTE_FRC_STREAM n] else []) ++
  (if 80 ≤ src ∧ src < 84 then [K.OUT_ROUTE_PATTERN n] else [])

/-- The slot a STORED reader takes at `to'` from the ring of the input in use, by a view of its route: ring plus 1, slot plus 1 (0 none),
and 1 repeat, 2 drop (R181, R192). -/
def State.nextSlot (s : State) (rd : Nat → Nat) (n to' : Nat) : Nat × Nat × Nat :=
  let src := rd (K.OUT_ROUTE_SRC n)
  let i := s.inUse src
  let key := if s.rd (H.keyLost n) = 1 then 255 else rd (K.OUT_ROUTE_KEY_SRC n)
  let c := s.rd (K.IN_STAT_FORMAT i)
  let prev := if s.rd (H.outRing n) = i + 1 then s.rd (H.outSlot n) else 0
  let r := s.chooseSlot i c (s.wide src (rd (K.OUT_ROUTE_KEY_SRC n))) (s.besides src key) to' prev (periodFrac c)
  (i + 1, r.1, r.2)

/-- Read a slot in the coming frame: the slots that go with it (partner, key), and SYNC_LAT (R149, R181, R192). -/
def State.readSlot (s : State) (n ring slot to' : Nat) : State :=
  if slot = 0 then s.wrs [(H.outRing n, ring), (H.outSlot n, 0), (H.outKeySlot n, 0), (H.outPartRing n, 0), (H.outPartSlot n, 0)] else
  let i := ring - 1
  let st := (s.slotStamp i (slot - 1)).getD 0
  let src := s.air (K.OUT_ROUTE_SRC n)
  let part := match s.partner src with
    | some p => some (if i = src then p else src)
    | none => none
  let ps := match part with
    | some p => (match s.nearestSlot p st with | some j => (p + 1, j + 1) | none => (0, 0))
    | none => (0, 0)
  let key := s.air (K.OUT_ROUTE_KEY_SRC n)
  let ks := if key < 48 then (match s.nearestSlot key st with | some j => j + 1 | none => 0) else 0
  s.wrs [(H.outRing n, ring), (H.outSlot n, slot), (H.outPartRing n, ps.1), (H.outPartSlot n, ps.2), (H.outKeySlot n, ks),
    (K.OUT_ROUTE_STAT_SYNC_LAT n, ofInt 32 ((to' : Int) - st))]

/-- A slot of a lost source that has come back: all of it is written since then, in the output's format, and it is eligible (R184). -/
def State.backSlot (s : State) (n to' : Nat) : Nat × Nat :=
  let src := s.air (K.OUT_ROUTE_SRC n)
  let i := s.inUse src
  let c := s.air (K.OUT_FORMAT n)
  let key := s.air (K.OUT_ROUTE_KEY_SRC n)
  let others := s.besides src key
  let th := theta c (s.wide src key)
  let ok (j : Nat) : Bool := s.rd (H.slotFmt (4 * i + j)) == c && s.rd (H.validAt i) != 0 &&
    (match s.slotStamp i j, s.laterStamp i j others with
     | some t, some u => decide (s.rd (H.validAt i) ≤ t + 1) && decide (u + th ≤ to')
     | _, _ => false)
  let l := (List.range 3).filter ok
  match l with
  | [] => (i + 1, 0)
  | a :: t => (i + 1, t.foldl (fun m j => if (s.slotStamp i m).getD 0 < (s.slotStamp i j).getD 0 then j else m) a + 1)

/-- The family, timing offset and format that time a source inside the part: canvas or converter (R205). -/
def State.blockTiming (s : State) (rd : Nat → Nat) (src : Nat) : Nat × Int × Nat :=
  let _ := s
  if src < 64 then (rd (K.EAS_CANVAS_FAMILY (src - 48)), toInt 32 (rd (K.EAS_CANVAS_TIMING_OFFSET (src - 48))),
    rd (K.EAS_CANVAS_FORMAT (src - 48)))
  else (rd (K.FRC_OTIM_FAMILY (src - 64)), toInt 32 (rd (K.FRC_OTIM_TIMING_OFFSET (src - 64))), rd (K.FRC_OTIM_FORMAT (src - 64)))

/-- The lead of a hop from a block inside the part to a receiver timed by family g and `off`: both on the one time of day, so it is the
difference of their offsets (R177, R205). -/
def State.blockLead (s : State) (rd : Nat → Nat) (src g : Nat) (off : Int) (r : Nat) : Lead :=
  let b := s.blockTiming rd src
  let ph (g : Nat) : Int := toInt 32 (rd (K.GSYN_PHASE_OFFSET g))
  leadOf 0 ((ph g + off) - (ph b.1 + b.2.1)) r

/-- The source of the route on air at OUT[n] serves again, and with which slot (R184): ring plus 1 and slot plus 1 for a STORED one. -/
def State.routeBack (s : State) (n to' : Nat) : Option (Nat × Nat) :=
  let u := s.routeUnit n
  let src := s.air (K.OUT_ROUTE_SRC u)
  let c := s.air (K.OUT_FORMAT n)
  if src < 48 then
    if (s.routeGone n).isSome then none
    else if s.air (H.outPath u) = 1 then
      (if s.directOk src c (s.air (K.OUT_FAMILY n)) (toInt 32 (s.air (K.OUT_TIMING_OFFSET n))) then some (0, 0) else none)
    else let b := s.backSlot u to'
      if b.2 = 0 then none else some b
  else if src < 80 then
    if s.unmapped src then none else
    match fmt c with
    | some f => if (s.blockLead s.air src (s.air (K.OUT_FAMILY n)) (toInt 32 (s.air (K.OUT_TIMING_OFFSET n))) f.rate).inWindow f.lines
        then some (0, 0) else none
    | none => none
  else some (0, 0)

/-- A lost route at a switch line: it recovers, or sends another frame under its policy (R184). -/
def State.lossStep (s : State) (n to' : Nat) : State :=
  if s.rd (H.lossPh n) = 0 then s else
  match s.routeBack n to' with
  | some b =>
    let s := s.raise 0x300D (outIdx n) n (s.rd (K.OUT_ROUTE_STAT_LOSS_FRAMES n))
    let s := s.wrs [(H.lossPh n, 0), (H.lossSlot n, 0), (K.OUT_ROUTE_STAT_STATE n, 1)]
    let s : State := if s.rd (K.OUT_CONTRACT_STATE n) = 3 then s.wr (K.OUT_CONTRACT_STATE n) 1 else s
    let s : State := if b.2 ≠ 0 ∧ s.routeUnit n = n then s.wrs [(H.outRing n, b.1), (H.outSlot n, 0)] else s
    if s.rd (H.slateCause n) = 2 then s.slateOff n else s
  | none =>
    let s := (s.wr (H.lossPh n) 2).inc (K.OUT_ROUTE_STAT_LOSS_FRAMES n) 1 (2 ^ 32)
    if s.air (K.OUT_ROUTE_LOSS (s.pictureUnit n)) = 2 then s.slateOn n 2 else s

/-- The developed route of OUT[n] goes on air at this switch line (R185). -/
def State.cut (s : State) (n frame : Nat) (changed : Bool) : State :=
  let con := (s.vec (H.airDue n)).contains (H.con (16 * n + 13))
  let s := (s.publishIf n (atCut n)).wr (H.cutDue n) 0
  let s : State := if s.rd (H.prime n) = 1 then
      (s.wr (H.prime n) 0).raise 0x300F (outIdx n) n (s.rd (H.primeCnt n)) else s
  let src := s.air (K.OUT_ROUTE_SRC n)
  let s : State := if con then s.contractTake n frame else s
  if !changed then s.wr (K.OUT_ROUTE_STAT_STATE n) (if s.rd (K.OUT_ROUTE_STAT_STATE n) = 2 then 1 else s.rd (K.OUT_ROUTE_STAT_STATE n)) else
  let s : State := if s.rd (H.lossPh n) ≠ 0 ∧ s.rd (H.slateCause n) = 2 then s.slateOff n else s
  let s := s.wrs [(H.lossPh n, 0), (H.lossSlot n, 0), (H.keyLost n, 0), (K.OUT_ROUTE_STAT_CUT_FRAME n, frame),
    (K.OUT_ROUTE_STAT_STATE n, if src = 255 then 0 else 1), (K.OUT_ROUTE_STAT_PATH n, s.air (H.outPath n)),
    (K.OUT_ROUTE_STAT_LEAD n, 0x80000000), (K.OUT_ROUTE_STAT_SYNC_LAT n, 0x80000000)]
  let s := (s.setVec (H.xbFresh n) []).keyCheck n
  match s.routeGone n with
  | some c => (s.routeLose n c).wr (H.lossPh n) 2
  | none => s

/-- The cut of OUT[n], or PRIMING while no slot of a new STORED route is eligible (R182, R185). -/
def State.cutStep (s : State) (n to' frame : Nat) : State :=
  if s.rd (H.cutDue n) = 0 then s else
  let changed := (picKeys n (s.rd (K.OUT_ROUTE_SRC n))).any (fun k => s.rd k != s.air k) || s.rd (K.OUT_ROUTE_STAT_CUT_FRAME n) == 0
  let src := s.rd (K.OUT_ROUTE_SRC n)
  let stored := decide (s.rd (H.outPath n) = 2) && decide (src < 48)
  let gone := s.rd (K.IN_STAT_STATE (s.inUse src)) != 4 || s.rd (K.IN_STAT_FORMAT (s.inUse src)) != s.air (K.OUT_FORMAT n)
  if changed && stored && !gone && (s.nextSlot s.rd n to').2.1 == 0 && followed s.rd n == n then
    let s : State := if s.rd (H.prime n) = 1 then s else s.wr (H.primeCnt n) 0
    (s.wrs [(H.prime n, 1), (K.OUT_ROUTE_STAT_STATE n, 2), (K.OUT_CONTRACT_STATE n, 2)]).inc (H.primeCnt n) 1 (2 ^ 32)
  else s.cut n frame changed

/-- The slot choice of a STORED route on air (R181), and the lead of a DIRECT one (R177). -/
def State.slotStep (s : State) (n to' : Nat) : State :=
  let src := s.air (K.OUT_ROUTE_SRC n)
  let path := s.air (H.outPath n)
  let s : State := if s.rd (H.keyLost n) = 1 ∧ !s.keyGone n then s.wr (H.keyLost n) 0 else s
  let s := s.wr (H.outBuf n) (if src = 0xFE then s.air (K.OUT_ROUTE_BUF n) + 1 else 0)
  if src < 48 ∧ path = 2 then
    if s.rd (H.lossPh n) ≠ 0 then s else
    let r := s.nextSlot s.air n to'
    let s := s.readSlot n r.1 r.2.1 to'
    if r.2.2 = 0 ∨ r.2.1 = 0 then s else
    let s : State := if r.2.2 = 1 then s.inc (K.OUT_ROUTE_STAT_REPEATS n) 1 (2 ^ 32) else s.inc (K.OUT_ROUTE_STAT_DROPS n) 1 (2 ^ 32)
    s.raise 0x300E (outIdx n) n ((r.2.2 - 1) * 2 ^ 31 + s.rd (K.OUT_ROUTE_STAT_SYNC_LAT n) % 2 ^ 31)
  else
    let s := s.wrs [(H.outRing n, 0), (H.outSlot n, 0), (H.outPartRing n, 0), (H.outPartSlot n, 0), (H.outKeySlot n, 0)]
    let c := s.air (K.OUT_FORMAT n)
    let lead := match fmt c with
      | some f =>
        if path ≠ 1 then none
        else if src < 48 then (s.lambda src (s.air (K.OUT_FAMILY n)) (toInt 32 (s.air (K.OUT_TIMING_OFFSET n))) f.rate).map Lead.ns
        else some ((fracCeil [linesFrac c 1] : Nat) : Int)
      | none => none
    s.wr (K.OUT_ROUTE_STAT_LEAD n) (match lead with | some v => ofInt 32 v | none => 0x80000000)

/-- What a follower shows of the route it follows (R169, R193). -/
def State.copyStat (s : State) (u f : Nat) : State :=
  let s := [1, 2, 3, 7].foldl (fun t m => t.wr (K.at' (outIdx f + 0x21) (m + 1)) (t.rd (K.at' (outIdx u + 0x21) (m + 1)))) s
  if s.rd (H.lossPh f) = 0 then s.wr (K.OUT_ROUTE_STAT_STATE f) (s.rd (K.OUT_ROUTE_STAT_STATE u)) else s

/-! ## Measurement (R208) -/

/-- Stamps in ns of the live sources in the frame OUT[n] starts at `to'`. -/
def State.liveStamps (s : State) (n to' : Nat) : List Nat :=
  let u := s.routeUnit n
  let src := s.air (K.OUT_ROUTE_SRC u)
  if s.rd (H.lossPh n) ≠ 0 then [] else
  if src < 48 then
    if s.air (H.outPath u) = 1 then [ofPtime (s.rd (K.IN_TIMING_FRAME_TIME src))]
    else
      -- a follower whose fill has not yet chosen in this frame takes the slot that one will take
      let r := if s.rd (K.OUT_EVT_FRAME u) = s.rd (K.OUT_EVT_FRAME n) then (s.rd (H.outRing u), s.rd (H.outSlot u))
        else let x := s.nextSlot s.air u to'; (x.1, x.2.1)
      if r.2 = 0 then [] else (s.slotStamp (r.1 - 1) (r.2 - 1)).toList
  else if src < 64 then s.vec (H.eStamps (src - 48))
  else if src < 80 then
    let l := s.rd (K.FRC_SSTAT_LAST_LAT (src - 64) (s.air (K.OUT_ROUTE_FRC_STREAM u)))
    if l = 0xFFFFFFFF then [] else [ofPtime (s.rd (K.FRC_FRC_EVT_FRAME_TIME (src - 64))) - l]
  else []

/-- Measure the contract at a switch line (R208). -/
def State.measureStep (s : State) (n to' : Nat) : State :=
  match s.liveStamps n to' with
  | [] => s.wr (K.OUT_MEASURED_LAST n) 0xFFFFFFFF
  | a :: t =>
    let last := min 0xFFFFFFFF (to' - t.foldl min a)
    let s := s.wrs [(K.OUT_MEASURED_LAST n, last), (K.OUT_MEASURED_MAX n, max (s.rd (K.OUT_MEASURED_MAX n)) last),
      (K.OUT_MEASURED_MIN n, min (s.rd (K.OUT_MEASURED_MIN n)) last)]
    let lim := s.rd (K.OUT_CONTRACT_MAX_LAT n)
    if s.rd (K.OUT_CONTRACT_STATE n) ≠ 0 ∧ lim < last then s.violation n 0 (last - lim) else s

/-! ## Timecode (R166) -/

/-- Frames `k` later, as label and place in its group. -/
def tcAdd (r : Nat) (drop : Bool) (v pos k : Nat) : Nat × Nat :=
  ((List.range ((pos + k) / tcGroup r)).foldl (fun a _ => tcNext r drop a) v, (pos + k) % tcGroup r)

/-- The label of frame number `n` of a day at a rate code: plain count, or with the numbers that drop-frame counting leaves out; one label
for the frames of a group. -/
def tcLabel (r n : Nat) : Nat :=
  let b := tcBase r
  let skip := b / 15
  let n := n / tcGroup r
  let n := if tcDrops r then
      let ten := 600 * b - 9 * skip
      let d := n / ten
      let m := n % ten
      n + 9 * skip * d + (if m < 60 * b then 0 else skip * ((m - 60 * b) / (60 * b - skip) + 1))
    else n
  let sec := n / b
  ((bcd (sec / 3600 % 24) * 256 + bcd (sec / 60 % 60)) * 256 + bcd (sec % 60)) * 256 + bcd (n % b)

/-- The timecode of the frame that starts (R166), with its drop-frame flag above the label, and above that its place in its group. -/
def State.tcStep (s : State) (n : Nat) : State :=
  let u := s.pictureUnit n
  match fmt (s.air (K.OUT_FORMAT n)) with
  | none => s
  | some f =>
    let r := f.rate
    let put (x : Nat × Nat) : State := s.wr (H.outTc n) (x.1 + 2 ^ 32 * ((if tcDrops r then 1 else 0) + 2 * x.2))
    match s.air (K.OUT_ANC_TC_MODE u) with
    | 1 =>
      let src := s.air (K.OUT_ANC_TC_SRC u)
      let k := fracCeil [(s.rd (K.OUT_CONTRACT_MAX_LAT n) * rateNum r, rateDen r * 1000000000)]
      put (tcAdd r (tcDrops r) (s.rd (K.IN_TC_LTC src)) (s.rd (H.tcHold (2 * src)) % 8 - 1) k)
    | 2 =>
      let ns := ofPtime (s.rd (K.OUT_EVT_FRAME_TIME n)) % 86400000000000
      let k := ns * rateNum r / (rateDen r * 1000000000)
      put (tcLabel r k, k % tcGroup r)
    | 3 =>
      let k := (s.rd (K.OUT_EVT_FRAME n) + 2 ^ 48 - s.rd (H.genFrame n)) % 2 ^ 48
      put (tcLabel r k, k % tcGroup r)
    | _ => s

/-! ## The change a frame carries (R127) -/

/-- EVT.FLIP_*: the frame that starts carries a development of the output, a flip of a buffer it scans, or a layer flip of its Easel. -/
def State.flipRecord (s : State) (n frame time bufBefore : Nat) : State :=
  let u := s.routeUnit n
  let src := s.air (K.OUT_ROUTE_SRC u)
  let buf := if src = 0xFE then s.air (K.OUT_ROUTE_BUF u) + 1 else 0
  let e := if 48 ≤ src ∧ src < 64 then s.rd (H.easFlip (src - 48)) else 0
  let who := if s.rd (H.outDev n) = 1 then outIdx n
    else if buf ≠ 0 ∧ bufBefore ≠ 0 ∧ buf ≠ bufBefore ∧ buf ≤ 65536 then 0x6000 + (buf - 1)
    else if e ≠ 0 then layIdx (e - 1) else 0
  let s := s.wrs [(H.outDev n, 0), (H.outBuf n, buf)]
  if who = 0 then s else
  s.wrs [(K.OUT_EVT_FLIP_FRAME n, frame), (K.OUT_EVT_FLIP_TIME n, time), (K.OUT_EVT_FLIP_SRC n, who)]

/-! ## The switch line (R123, R124) -/

/-- The Proof regions of OUT[n] begin a new frame (R280). -/
def State.prfStart (s : State) (n : Nat) : State :=
  s.upto 64 (fun p t => if t.rd (K.PRF_CFG_OUT p) = n
    then t.wrs [(H.prfCrc p, 0xFFFFFFFF), (H.prfShadow p, 0xFFFFFFFF), (H.prfRows p, 0)] else t)

/-- OUT[n] stops at its switch line: FORMAT 0 has developed (R155). No frame begins there; `frame` is the counter it would have had. -/
def State.outStop (s : State) (n to' frame : Nat) : State :=
  let con := s.conDue n
  let s := (s.wr (H.devPassed n) 0).devRecord n frame (ptime to')
  let s := s.upto 32 (fun i t => t.devRecord (unitDst (32 * n + i)) frame (ptime to'))
  let s := s.publishPicture n
  let s := (s.wr (K.OUT_TSTATE n) 0).raise 0x3002 (outIdx n) n (s.rd (K.OUT_EVT_FRAME n))
  let s := (((s.publishAll n).contractEnd n frame con).wr (K.OUT_ROUTE_STAT_CUT_FRAME n) frame).routeClear n
  let s := (s.slateOff n).wr (K.OUT_SLATE_STATE n) 0
  let s := s.wrs [(H.outAdjOn n, 0), (H.heldCnt n, 0), (K.OUT_FETCH_LEVEL n, 0), (K.OUT_FETCH_CLASS n, 0), (H.slatePend n, 0)]
  let s := s.leaveAll n
  -- what was accepted within the guard has no development point any more (R187)
  let s := s.developFree n
  let s := s.upto 32 (fun i t => t.developFree (unitDst (32 * n + i)))
  (s.txqSync (n / 4)).ringsSync

/-- The frame of OUT[n] that starts at `to'` with counter `frame`, after its predecessor has ended. -/
def State.openFrame (s : State) (n to' frame : Nat) : State :=
  let time := ptime to'
  let buf := s.rd (H.outBuf n)
  let s := s.wrs [(K.OUT_EVT_FRAME n, frame), (K.OUT_EVT_FRAME_TIME n, time), (H.devPassed n, 0),
    (H.outAt n, s.now * 1000 + to' - s.tod), (H.outOnes n, 0)]
  let s := s.devRecord n frame time
  let s := s.upto 32 (fun i t => t.devRecord (unitDst (32 * n + i)) frame time)
  -- references cancelled by a forced free act now (R223)
  let s : State := if 65536 ≤ s.rd (K.OUT_ROUTE_BUF n) ∧ s.rd (H.cutDue n) = 0 then s.publish (K.OUT_ROUTE_BUF n) else s
  let s : State := if 65536 ≤ s.rd (K.OUT_SLATE_BUF n) then s.publish (K.OUT_SLATE_BUF n) else s
  let s := s.forcedLeave n
  let s := s.publishPicture n
  let s := s.wr (H.outLineNo n) (match fmt (s.air (K.OUT_FORMAT n)) with | some f => f.sw | none => 0)
  let s := ((s.adjustStep n).slateStep n).takeoverStep n
  let s := s.cutStep n to' frame
  let s : State := if s.rd (H.prime n) = 1 then s else s.publishIf n (atAnc n)
  -- a destination that developed with the route waits for it while it is PRIMING (R321)
  let s := s.upto 32 (fun i t =>
    let v := unitDst (32 * n + i)
    if t.rd (H.prime n) = 1 ∧ t.rd (devKey v 3) = t.rd (devKey n 3) then t else t.publishAll v)
  let s := s.lossStep n to'
  let u := s.routeUnit n
  let s : State := if u = n then s.slotStep n to' else s.copyStat u n
  let s : State := if s.rd (H.prime n) = 1 then s.wr (K.OUT_ROUTE_STAT_STATE n) 2 else s.leaveAll n
  let s := s.upto 48 (fun f t => if f ≠ n ∧ t.routeUnit f = n ∧ t.rd (K.OUT_TSTATE f) ≠ 0 then t.copyStat n f else t)
  let s := s.measureStep n to'
  let s := s.flipRecord n frame time buf
  let s : State := if s.rd (K.OUT_SLATE_STATE n) = 2 then (s.inc (H.slateCnt n) 1 (2 ^ 32)).count (K.OUT_RUN n 6) 1 else s
  (((s.prfStart n).tcStep n).txqSync (n / 4)).ringsSync

/-- The switch line of OUT[n], `ns` into the present tick. -/
def State.switchLine (s : State) (n ns : Nat) : State :=
  if s.rd (K.OUT_TSTATE n) = 0 then s else
  let frame := (s.rd (K.OUT_EVT_FRAME n) + 1) % 2 ^ 48
  let stop := s.rd (K.OUT_FORMAT n) == 0
  let s := s.endFrame n frame
  if stop then s.outStop n (s.tod + ns % 1000) frame else s.openFrame n (s.tod + ns % 1000) frame

/-- The family's frame number at its switch-line instant `t` ns: the nearest to (t - p t_c) num/den (R124). -/
def familyFrame (t : Nat) (p : Int) (r : Nat) : Nat :=
  (divRoundI (((t : Int) * 297 - p * cycle297 r) * rateNum r) (297 * 1000000000 * rateDen r : Nat)).toNat % 2 ^ 48

/-- OUT_GENERATOR_START: the family's switch-line instant `t` (ns of the time of day) at which OUT[n] may start: its TX quad's domain is
READY, the family LOCKED, a format has developed (R124). -/
def State.genStart (s : State) (n t : Nat) : State :=
  let g := s.rd (K.OUT_FAMILY n)
  let c := s.rd (K.OUT_FORMAT n)
  if s.rd (K.OUT_TSTATE n) ≠ 0 ∨ c = 0 ∨ !s.funcReady (20 + n / 4) 0 ∨ !s.funcReady (20 + n / 4) (1 + n % 4) ∨ s.rd (K.GSYN_STATE g) ≠ 3 then s else
  match fmt c with
  | none => s
  | some f =>
    let frame := familyFrame t (toInt 32 (s.rd (K.GSYN_PHASE_OFFSET g))) f.rate
    let to' := ((t : Int) + offsetNs (toInt 32 (s.rd (K.OUT_TIMING_OFFSET n))) f.rate).toNat
    let s := ((s.wrs [(K.OUT_TSTATE n, 1), (K.OUT_RUN n 1, frame), (H.cutDue n, 1), (K.OUT_ROUTE_STAT_CUT_FRAME n, 0), (H.heldCnt n, 0),
      (H.fetchLow n, 0), (H.genFrame n, frame)]).setVec (H.outStep n)
        (if s.rd (H.outStepAt n) = s.now + 1 then [frame, ofInt 64 (stepSum (2 ^ 48) (s.vec (H.outStep n)))] else [])).raise 0x3001 (outIdx n) n frame
    s.openFrame n to' frame

/-! ## Commands -/

/-- DEVELOPMENT_POINT: the start of the line that DEV_GUARD lines sent before the switch line begin with, once a frame; the output and its
audio destinations develop (R48, R126). At any other line it is none of OUT[n]'s (log 78). -/
def execDevelopmentPoint (n : Fin 48) (s : State) : Host.Outcome State Fault Refusal :=
  let n := n.val
  if s.rd (K.OUT_TSTATE n) = 0 ∨ s.rd (H.devPassed n) = 1 ∨ s.linesLeft n ≠ s.rd (K.OUT_DEV_GUARD n) then .next s else
  let s := (s.develop n false).wr (H.devPassed n) 1
  .next (s.upto 32 (fun i t => t.develop (unitDst (32 * n + i)) false))

/-- GSYN_DEVELOPMENT: 4,400 family clock cycles before the switch-line instant `t` ns of the family (R45, R52, R114). -/
def execGsynDevelopment (g : Fin 8) (t : Nat) (s : State) : Host.Outcome State Fault Refusal :=
  let g := g.val
  let u := unitGsyn g
  if s.unitStopped u ∨ s.eligible u false = [] then .next s else
  let s := s.develop u false
  let s := s.countWaiting u s.todP
  let frame := familyFrame t (toInt 32 (s.rd (K.GSYN_PHASE_OFFSET g))) (s.rd (K.GSYN_RATE g))
  .next (s.devRecord u frame (ptime t))

/-- GSYN_LOCK: the family gains lock: its phase error has stayed within 1 ns for `t.held` us, 1 ms or more of its time in ACQUIRING; `gain` is
the phase in ns it gained while frozen, `t.first` its first switch-line instant, which dates a development it owed a record of (R115, R187). -/
def execGsynLock (g : Fin 8) (gain : Int) (t : LockSeen) (s : State) : Host.Outcome State Fault Refusal :=
  let g := g.val
  if s.rd (K.GSYN_STATE g) ≠ 2 ∨ t.held < 1000 ∨ s.now < s.rd (H.gAcq g) + t.held then .next s else
  let s := s.gsynLock g gain
  .next (s.devRecord (unitGsyn g) (familyFrame t.first (toInt 32 (s.rd (K.GSYN_PHASE_OFFSET g))) (s.rd (K.GSYN_RATE g))) (ptime t.first))

/-- FRAME_DONE: the last active sample of the frame is sent (R128). -/
def execFrameDone (n : Fin 48) (s : State) : Host.Outcome State Fault Refusal :=
  .next (if s.rd (K.OUT_TSTATE n.val) = 0 then s else s.irqSet n.val 2)

/-- The escalation class after the level moved: a class is taken at its watermark, and left at 256 entries above it (R129). -/
def fetchClass (old level w1 w2 : Nat) : Nat :=
  let want := if w1 ≤ level then 0 else if w2 ≤ level then 1 else 2
  if old ≤ want then want
  else if old = 2 then (if w2 + 256 ≤ level then (if w1 + 256 ≤ level then 0 else 1) else 2)
  else if w1 + 256 ≤ level then 0 else 1

/-- The level of a line buffer changes. -/
def State.setLevel (s : State) (n level : Nat) : State :=
  let l := min 16384 level
  s.wrs [(K.OUT_FETCH_LEVEL n, l), (H.fetchLow n, max (s.rd (H.fetchLow n)) (16384 - l)),
    (K.OUT_FETCH_CLASS n, fetchClass (s.rd (K.OUT_FETCH_CLASS n)) l (s.rd (K.OUT_FETCH_W1 n)) (s.rd (K.OUT_FETCH_W2 n)))]

/-- FETCH_COMPLETION: `k` pixel entries fetched enter the line buffer of OUT[n] (R129). -/
def execFetchCompletion (n : Fin 48) (k : Nat) (s : State) : Host.Outcome State Fault Refusal :=
  .next (s.setLevel n.val (s.rd (K.OUT_FETCH_LEVEL n.val) + k))

/-- SLATE_AUTO_CLEAR: after CLEAR_FRAMES matching frames a slate that a Proof mismatch inserted is removed (R171). -/
def execSlateAutoClear (n : Fin 48) (s : State) : Host.Outcome State Fault Refusal :=
  let n := n.val
  let c := s.rd (K.OUT_SLATE_CLEAR_FRAMES n)
  if s.rd (K.OUT_SLATE_STATE n) = 2 ∧ s.rd (H.slateCause n) = 1 ∧ c ≠ 0 ∧ c ≤ s.rd (H.slateClean n)
  then .next (s.wr (H.slatePend n) 2) else .next s

/-! ## Writes that act at once (R128, R170, R171, R208) -/

/-- The PENDING bits an ACK leaves: those it does not name, and those whose event occurred in this tick (R128). -/
def State.irqStay (s : State) (n v : Nat) : Nat :=
  (List.range 4).foldl (fun a b => if !v.testBit b || s.rd (H.irqAt (4 * n + b)) == s.now + 1 then a + 2 ^ b else a) 0

/-- A write of IRQ.ACK: its 1 bits clear PENDING (R128). -/
def irqAckWrite (n v : Nat) (s : State) : Ans :=
  ansOk ((s.wr (K.OUT_IRQ_ACK n) v).up (K.OUT_IRQ_PENDING n) (fun p => p &&& s.irqStay n v))

/-- A write of BRACKET.RELEASE 1: BUSY without a takeover, and while its cause persists (R170). -/
def outReleaseWrite (n v : Nat) (s : State) : Ans :=
  if s.rd (K.OUT_BRACKET_STATE n) < 2 ∨ s.rd (H.tkCause n) ≠ 0 then ansBusy s
  else ansOk (s.wrs [(K.OUT_BRACKET_RELEASE n, v), (H.tkRel n, 1)])

/-- A write of SLATE.CMD: insert or remove at the next switch line; BUSY when disarmed (R171). -/
def slateCmdWrite (n v : Nat) (s : State) : Ans :=
  if s.rd (K.OUT_SLATE_STATE n) = 0 then ansBusy s
  else
    let s := s.wrs [(K.OUT_SLATE_CMD n, v), (H.slatePend n, if v = 1 then 1 else 2)]
    ansOk (if v = 1 ∧ s.rd (K.OUT_SLATE_STATE n) = 1 then s.wr (H.slateCause n) 0 else s)

/-- A write of MEASURED.CLEAR 1 (R208). -/
def measuredClearWrite (n v : Nat) (s : State) : Ans :=
  ansOk (s.wrs [(K.OUT_MEASURED_CLEAR n, v), (K.OUT_MEASURED_MAX n, 0), (K.OUT_MEASURED_MIN n, 0xFFFFFFFF)])

end Sys2Proof.Machine
end

