-- ==== Sys2Proof/Machine/Lines.lean ====
section
/-! DEFINITION. What an output puts on the wire line by line: programme, held lines, slate, takeover, Proof signatures, forwarded ANC
(spec/05 R128 to R130; spec/07 R160 to R171; spec/08 R178, R179, R184, R194; spec/12 R280, R283). -/
namespace Sys2Proof.Machine

/-! ## Links of a quad (R145, R168) -/

/-- Where pixel (x, y) of link k lies in the whole picture: square division for the odd modes, two-sample interleave for the even ones; a
link is w by h. -/
def quadPlace (mode k w h x y : Nat) : Nat × Nat :=
  if mode % 2 = 1 then (x + k % 2 * w, y + k / 2 * h) else (4 * (x / 2) + 2 * (k % 2) + x % 2, 2 * y + k / 2)

/-- How an output puts a format on the wire: its links, the format of one link, and whether each link has a crossbar port of its own. -/
def wireLinks (c mode : Nat) : Nat × Nat × Bool :=
  if fmtQuad c then (4, c - 8, true) else if 25 ≤ c ∧ c ≤ 27 ∧ (mode = 1 ∨ mode = 2) then (4, c - 11, false) else (1, c, false)

/-- How many lines apart the fetcher of an output reads: every second one in an interlaced format, field by field (R216). -/
def fieldStep (c : Nat) : Nat := if (activeLines c).length = 2 then 2 else 1

/-! ## Programme lines (R178, R181, R184, R194) -/

/-- A line's picture: nothing to send in time, black, or the pixels. -/
inductive LineSrc where
  | hold
  | black
  | row (l : List Pix)

/-- The picture a STORED route reads: the chosen slot with its key, or the slot of the other input of a pair that has taken over (R149). -/
def State.storedPicture (s : State) (u : Nat) : Option Picture :=
  let i := s.inUse (s.air (K.OUT_ROUTE_SRC u)) + 1
  let r := if i ≠ s.rd (H.outRing u) ∧ i = s.rd (H.outPartRing u) then (s.rd (H.outPartRing u), s.rd (H.outPartSlot u))
    else (s.rd (H.outRing u), s.rd (H.outSlot u))
  let k := s.rd (H.outKeySlot u)
  if r.1 = 0 ∨ r.2 = 0 then none
  else some (s.slotPicture (r.1 - 1) (r.2 - 1) (if k = 0 then none else some (s.air (K.OUT_ROUTE_KEY_SRC u), k - 1)))

/-- The programme of OUT[n] comes from the frame store (R130). -/
def State.progStored (s : State) (n : Nat) : Bool :=
  let u := s.routeUnit n
  let src := s.air (K.OUT_ROUTE_SRC u)
  if s.rd (H.lossPh n) ≠ 0 then src < 48 && s.air (H.outPath u) == 2 && s.air (K.OUT_ROUTE_LOSS (s.pictureUnit n)) == 0 && s.rd (H.lossSlot n) != 0
  else src == 0xFE || (src < 48 && s.air (H.outPath u) == 2)

/-- Row y of link k of the programme of OUT[n], `w` by `h` pixels, whose pixels lie at `place` in the picture; `d` is the crossbar
destination it comes through. A lost source follows R184, an unmapped cluster R352. -/
def State.progRow (s : State) (n d w y : Nat) (place : Nat → Nat × Nat) : LineSrc :=
  let u := s.routeUnit n
  let src := s.air (K.OUT_ROUTE_SRC u)
  let fromPic (p : Picture) : LineSrc := .row ((List.range w).map (fun x => let q := place x; p.px q.1 q.2))
  if s.rd (H.lossPh n) ≠ 0 then
    if s.progStored n then fromPic (s.slotPicture (s.inUse src) (s.rd (H.lossSlot n) - 1) none) else .black
  else if src = 0xFF ∨ s.unmapped src then .black
  else if src = 0xFE then
    let b := refBuf s.air u
    if 2048 ≤ b then .black else fromPic (s.bufPicture b 0xFFFF (fieldStep (s.air (K.OUT_FORMAT n))))
  else if src < 48 ∧ s.air (H.outPath u) = 2 then
    match s.storedPicture u with
    | some p => fromPic p
    | none => .black
  else
    let q := (List.range w).map place
    let rows := if d = n then q.map Prod.snd else [y]
    -- the key input's FIFO gives the key of every pixel (R192)
    let key := s.air (K.OUT_ROUTE_KEY_SRC u)
    let keyed (p : Nat × Nat) (v : Pix) : Pix :=
      if src < 48 ∧ key < 48 then { v with key := (match (s.vec (H.keyRow (key * 8192 + p.2)))[p.1]? with | some w => w % 4096 | none => 0) } else v
    if rows.any (fun r => !(s.vec (H.xbFresh d)).contains r) then .hold
    else if d = n then .row (q.map (fun p => keyed p (match (s.vec (H.xbRow (d * 8192 + p.2)))[p.1]? with
      | some v => Pix.ofWord v
      | none => Pix.black)))
    else .row (((s.vec (H.xbRow (d * 8192 + y))).map Pix.ofWord).mapIdx (fun x v => keyed (x, y) v))

/-- The converter on air at OUT[n] (R160 to R163). -/
def State.convOf (s : State) (n : Nat) : Conv :=
  let u := s.pictureUnit n
  ⟨s.air (K.OUT_CONV_MODE u), s.air (K.OUT_CONV_CHROMA u), s.air (K.OUT_CONV_KEY_OUT u) == 1,
    (List.range 9).map (fun i => toInt 16 (s.air (K.OUT_CONV_COEF u i))), (List.range 3).map (fun i => toInt 16 (s.air (K.OUT_CONV_INOFF u i))),
    (List.range 3).map (fun i => toInt 16 (s.air (K.OUT_CONV_OUTOFF u i)))⟩

/-- Black on the wire: luma 64 and chroma 512 in 10-bit terms; on an RGB output all three components are black (R175, R184). -/
def blackWire (sampling w : Nat) : List Nat :=
  match sampling with
  | 0 => (List.range (w / 2)).flatMap (fun _ => [512, 64, 512, 64])
  | 1 => (List.range w).flatMap (fun _ => [2048, 256, 2048])
  | _ => (List.range w).flatMap (fun _ => [256, 256, 256])

/-- The settings with which nothing is converted (R19). -/
def convPlain : Conv := ⟨0, 0, false, [], [], []⟩

/-- The row a slate puts on the wire in place of the programme: the buffer's samples, unconverted (R171). -/
def State.slateRow (s : State) (n w sampling : Nat) (place : Nat → Nat × Nat) : List Nat :=
  let b := refBuf s.air (48 + n)
  if 2048 ≤ b then blackWire sampling w
  else
    let p := s.bufPicture b 0xFFFF (fieldStep (s.air (K.OUT_FORMAT n)))
    convPlain.wire sampling ((List.range w).map (fun x => let q := place x; p.px q.1 q.2))

/-- The lines OUT[n] would send by its own pipeline at `line`, one for each link: `none` outside the active picture; else for each link
the programme's samples (`none`: no line in time) and the samples for the wire, slate included. -/
def State.ownLines (s : State) (n line : Nat) : Option (List (Option (List Nat) × Option (List Nat))) :=
  let c := s.air (K.OUT_FORMAT n)
  let mode := s.air (K.OUT_QUAD_MODE (n / 4 * 4))
  let lk := wireLinks c mode
  let half := lk.1 == 4 && !lk.2.2
  -- on a quad 3G output two lines of the raster make one line of each link
  if half && line % 2 == 0 then none else
  match lineRow lk.2.1 (if half then (line + 1) / 2 else line) with
  | none => none
  | some y =>
    let sz := fmtSize lk.2.1
    let sampling := s.air (K.OUT_SAMPLING (s.pictureUnit n))
    let conv := s.convOf n
    let slate := s.rd (K.OUT_SLATE_STATE n) == 2
    let low := decide (s.rd (K.OUT_FETCH_LEVEL n) < sz.1 * lk.1)
    some ((List.range lk.1).map (fun k =>
      let place (x : Nat) : Nat × Nat := if lk.1 = 1 then (x, y) else quadPlace mode k sz.1 sz.2 x y
      let prog : Option (List Nat) :=
        if s.progStored n && low then none else
        match s.progRow n (if lk.2.2 then n + k else n) sz.1 y place with
        | .hold => none
        | .black => some (blackWire sampling sz.1)
        | .row l => some (conv.wire sampling (if s.rd (H.keyLost n) = 1 then l.map (fun p => { p with key := 0 }) else l))
      (prog, if slate then (if low then none else some (s.slateRow n sz.1 sampling place)) else prog)))

/-! ## Proof signatures (R280, R283) -/

/-- Bytes of wire samples, 16 bits each, the low byte first. -/
def sigBytes (l : List Nat) : List Nat := l.flatMap (fun v => [v % 256, v / 256 % 256])

/-- The samples of pixels x0 to x0 + w - 1 of a wire line. -/
def sigPart (sampling x0 w : Nat) (l : List Nat) : List Nat :=
  let n := if sampling = 0 then 2 else 3
  (l.drop (n * x0)).take (n * w)

/-- The Proof regions of OUT[n] take row y of link k, programme samples `l`, and the shadow's row (R280, R283). -/
def State.prfLine (s : State) (n k y w : Nat) (l : List Nat) : State :=
  let sampling := s.air (K.OUT_SAMPLING (s.pictureUnit n))
  let src := s.air (K.OUT_ROUTE_SRC (s.routeUnit n))
  s.upto 64 (fun p t =>
    let y0 := t.air (K.PRF_CFG_Y0 p)
    if t.rd (K.PRF_CFG_OUT p) ≠ n ∨ t.air (K.PRF_CFG_MODE p) = 0 ∨ (k ≠ 0 ∧ t.air (K.PRF_CFG_LINK p) ≠ k) ∨
        (k = 0 ∧ t.air (K.PRF_CFG_LINK p) ≠ 0 ∧ t.air (K.OUT_QUAD_MODE (n / 4 * 4)) ≠ 0) ∨ y < y0 ∨ y0 + t.air (K.PRF_CFG_H p) ≤ y then t
    else
      let cut (l : List Nat) : List Nat := sigBytes (sigPart sampling (t.air (K.PRF_CFG_X0 p)) (t.air (K.PRF_CFG_W p)) l)
      let t := t.up (H.prfCrc p) (fun c => crc32From c (cut l))
      if t.air (K.PRF_CFG_MODE p) = 3 ∧ 48 ≤ src ∧ src < 64 ∧ t.rd (K.EAS_STATE_SHADOW (src - 48)) = 1 then
        let sh := (t.convOf n).wire sampling ((List.range w).map (fun x => t.canvasPix (src - 48) x y))
        t.up (H.prfShadow p) (fun c => crc32From c (cut sh))
      else t.inc (H.prfRows p) 1 65536)

/-! ## Forwarded ANC (R165) -/

/-- One packet record of R227. -/
structure AncRec where
  line : Nat
  link : Nat
  did : Nat
  sdid : Nat
  dc : Nat
  bytes : List Nat
deriving DecidableEq, Repr

/-- The records a run of bytes holds, at most `n`. -/
def ancRecs : Nat → List Nat → List AncRec
  | 0, _ => []
  | n + 1, l =>
    if l.length < 10 then [] else
    let size := 10 + 2 * (fld l 8 2 % 256)
    ⟨fld l 0 2, fld l 2 1 / 16, fld l 4 2 % 256, fld l 6 2 % 256, fld l 8 2 % 256, l.take size⟩ :: ancRecs n (l.drop size)

/-- The line of the output a forwarded packet goes to: lines S and S + 1 move to S + 2. -/
def ancTarget (c line : Nat) : Nat :=
  match fmt c with
  | some f => if line = f.sw ∨ line = f.sw + 1 then f.sw + 2 else line
  | none => line

/-- The forwarded packets there are for the frame OUT[n] sends, whatever their line: of a DIRECT source the ones it has forwarded in the
frame it is in, or in the one before when it has passed its switch line and the output has not; of a STORED one the slot's. -/
def State.ancAvail (s : State) (n line : Nat) (lam : Int) : List AncRec :=
  let u := s.routeUnit n
  let src := s.air (K.OUT_ROUTE_SRC u)
  let c := s.air (K.OUT_FORMAT n)
  if 48 ≤ src ∨ s.rd (H.lossPh n) ≠ 0 then [] else
  if s.air (H.outPath u) = 1 then
    match fmt c with
    | none => []
    | some f =>
      let ahead := line < f.sw && decide ((f.sw - line : Nat) * (linePs c : Int) ≤ lam * 1000)
      ancRecs 65536 (if ahead then s.vec (H.ancPrev src) else s.vec (H.ancFwd src))
  else
    let r := (s.rd (H.outRing u), s.rd (H.outSlot u))
    if r.1 = 0 ∨ r.2 = 0 then [] else
    let base := s.slotAddr (r.1 - 1) (r.2 - 1) + s.slotPic (r.1 - 1)
    let rd (a k : Nat) : List Nat := (List.range k).map (fun i => s.fetchByte (a + i))
    ancRecs (ofBytes (rd base 4)) (rd (base + 4) (s.rd (H.slotAnc (4 * (r.1 - 1) + (r.2 - 1))) - 4))

/-- Inputs whose picture crossbar source `src` shows, itself or through Easels' layers and converters' streams, at most so many hops away. -/
def State.procInputs (s : State) : Nat → Nat → List Nat
  | 0, _ => []
  | h + 1, src =>
    if src < 48 then [src]
    else if src < 64 then ((List.range 8).flatMap (fun l =>
      let x := 8 * (src - 48) + l
      if 2 ≤ s.air (K.LAYER_SRC_KIND x) then s.procInputs h (s.air (K.LAYER_SRC_ID x)) else [])).eraseDups
    else if src < 80 then ((List.range 4).flatMap (fun k =>
      if s.rd (K.FRC_STREAM_KIND (src - 64) k) ≠ 0 then s.procInputs h (s.rd (K.FRC_STREAM_SRC (src - 64) k)) else [])).eraseDups
    else []

/-- The forwarded packets of a line of OUT[n] with `room` words left on it: those embedded, and how many found no room (R165). -/
def State.ancPick (s : State) (n line : Nat) (lam : Int) (room : Nat) : List AncRec × Nat :=
  let u := s.pictureUnit n
  if s.air (K.OUT_ANC_PASS u) ≠ 1 ∨ s.lineInserted n then ([], 0) else
  let c := s.air (K.OUT_FORMAT n)
  let own (r : AncRec) : Bool := (r.did == 0x41 && r.sdid == 1) || (s.air (K.OUT_ANC_TC_MODE u) != 0 && r.did == 0x60 && r.sdid == 0x60)
  let l := (s.ancAvail n line lam).filter (fun r => ancTarget c r.line == line && !own r)
  let r := l.foldl (fun (a : Nat × List AncRec × Nat) r =>
    if 7 + r.dc ≤ a.1 then (a.1 - (7 + r.dc), a.2.1 ++ [r], a.2.2) else (a.1, a.2.1, a.2.2 + 1)) (room, [], 0)
  r.2

/-- Embed the forwarded packets of a line into the `room` words that are left on it; a PROCESSED route leaves its inputs' packets behind
(R165). In takeover the partner's word stream goes out (R170). -/
def State.ancEmbed (s : State) (n line : Nat) (lam : Int) (room : Nat) : State :=
  let u := s.routeUnit n
  let src := s.air (K.OUT_ROUTE_SRC u)
  -- of a converter the route shows one stream
  let k := s.air (K.OUT_ROUTE_FRC_STREAM u)
  let first := if src < 64 ∨ 80 ≤ src then src else if s.rd (K.FRC_STREAM_KIND (src - 64) k) = 0 then 255 else s.rd (K.FRC_STREAM_SRC (src - 64) k)
  let gone := if s.air (K.OUT_ANC_PASS (s.pictureUnit n)) ≠ 1 ∨ src < 48 ∨ s.lineInserted n then 0 else
    (s.procInputs 33 first).foldl (fun k i => k + ((ancRecs 65536 (s.vec (H.ancFwd i))).filter (fun r => r.line == line)).length) 0
  let r := s.ancPick n line lam room
  let m := s.air (K.OUT_BRACKET_PARTNER n)
  let out := if s.rd (K.OUT_BRACKET_ROLE n) = 1 ∧ s.rd (K.OUT_BRACKET_STATE n) = 2 then
      (if s.rd (H.outLineNo m) = line then s.vec (H.outAnc m) else (s.ancPick m line lam room).1.flatMap AncRec.bytes)
    else r.1.flatMap AncRec.bytes
  let s := ((s.setVec (H.outAnc n) out).count (K.OUT_RUN n 5) gone).count (K.OUT_RUN n 3) r.1.length
  (List.range r.2).foldl (fun (t : State) _ => (t.count (K.OUT_RUN n 4) 1).raiseLim (2500 + n) 0x300B (outIdx n) (fun k => (n, k))) s

/-! ## Payload identifier (R164) -/

/-- The lines on which ST 352 puts the payload identifier of a format (the standard's figures, log 18). -/
def pidLines (c : Nat) : List Nat :=
  if c = 1 then [13, 276] else if c = 2 then [9, 322] else match fmt c with
    | some f => if f.interlaced then [10, 572] else [10]
    | none => []

/-- The payload identifier packets of a line of OUT[n], one on each link; PID.RAW keeps that of link 0 (R164, R168). -/
def State.pidLine (s : State) (n line : Nat) : State :=
  let u := s.pictureUnit n
  let mode := s.air (K.OUT_QUAD_MODE (n / 4 * 4))
  let lk := wireLinks (s.air (K.OUT_FORMAT n)) mode
  -- on a quad 3G output two lines of the raster make one line of each link
  let at' := if lk.1 = 4 ∧ !lk.2.2 then (if line % 2 = 0 then 0 else (line + 1) / 2) else line
  let here := s.air (K.OUT_PID_MODE u) == 0 && !s.lineInserted n && (pidLines lk.2.1).contains at'
  (List.range lk.1).foldl (fun (t : State) k =>
    let b := Config.pidBytes (t.air (K.OUT_FORMAT n)) (t.air (K.OUT_MAPPING n)) (t.air (K.OUT_SAMPLING u)) (t.air (K.OUT_CONV_COLOR_TAG u))
      (if lk.1 = 1 then 0 else k + 1) (if lk.1 = 1 then 0 else 2 - mode % 2) % 2 ^ 32
    let t := t.setVec (H.outPid (n + k)) (if here then bytesBE 4 b else [])
    if here ∧ k = 0 then t.wr (K.OUT_PID_RAW n) b else t) s

/-! ## The line (R128, R130, R170, R179) -/

/-- The line carries active picture. -/
def lineActive (c line : Nat) : Bool := (lineRow c line).isSome

/-- Which field a line lies in: 0 or 1. -/
def lineField (c line : Nat) : Nat :=
  if 2 ≤ (activeLines c).length ∧ ((activeLines c).getD 1 (0, 0)).1 ≤ line then 1 else 0

/-- Send a held line on link k of OUT[n] (R130). -/
def State.sendHeld (s : State) (n k f : Nat) : State :=
  s.setVec (H.outLine (n + k)) (s.vec (H.lastAct (2 * (n + k) + f)))

/-- A held line begins: counted in the frame and in HELD_LINES; the first sets the underrun flag (R128, R173). -/
def State.heldLine (s : State) (n : Nat) : State :=
  let s : State := if s.rd (H.heldCnt n) = 0 then s.irqSet n 3 else s
  ((s.inc (H.heldCnt n) 1 (2 ^ 32)).count (K.OUT_RUN n 2) 1).wr (H.heldAt n) (s.rd (H.outLineNo n) + 1)

/-- The line OUT[n] is sending is lost: it goes out as a held line on every link, counted once (R130, R170). -/
def State.lineLost (s : State) (n : Nat) : State :=
  let c := s.air (K.OUT_FORMAT n)
  let lk := wireLinks c (s.air (K.OUT_QUAD_MODE (n / 4 * 4)))
  let half := lk.1 == 4 && !lk.2.2
  let line := s.rd (H.outLineNo n)
  if (lineRow lk.2.1 (if half then (line + 1) / 2 else line)).isNone then s else
  let held := s.rd (H.heldAt n) == line + 1 || (half && line % 2 == 0 && s.rd (H.heldAt n) == line)
  let s : State := if held then s else s.heldLine n
  (List.range lk.1).foldl (fun (t : State) k => t.sendHeld n k (lineField c line)) s

/-- The fetcher of OUT[n] reads row y of a buffer: a unit that gets FAULT marks it (R216, R229, log 74). -/
def State.scanRow (s : State) (b y : Nat) : State :=
  if 2048 ≤ b then s else
  let a := s.rd (K.BUF_ADDR b) + y * s.rd (K.BUF_PITCH b)
  let hurt := s.vec H.eccBad != [] || (List.range 31).any (fun i =>
    s.rd (H.slotDead (32 * (a / 0x400000000) + i)) == 1 || s.rd (H.slotLost (32 * (a / 0x400000000) + i)) == 1)
  if hurt ∧ (List.range (ceilDiv (minPitch (s.rd (K.BUF_FORMAT b)) (s.rd (K.BUF_WIDTH b))) 32)).any (fun i => (s.fsByte (a + 32 * i)).isNone)
  then s.damage a else s

/-- The active part of a line of OUT[n]. -/
def State.sendLine (s : State) (n line : Nat) : State :=
  let c := s.air (K.OUT_FORMAT n)
  let f := lineField c line
  match s.ownLines n line with
  | none =>
    -- line 20 of 525i, active by ST 125, is neither stored nor scanned: it goes out black (R411)
    let l := if c = 1 ∧ line = 20 then blackWire 0 720 else []
    (List.range (wireLinks c (s.air (K.OUT_QUAD_MODE (n / 4 * 4)))).1).foldl (fun (t : State) k => t.setVec (H.outLine (n + k)) l) s
  | some ls =>
    let mode := s.air (K.OUT_QUAD_MODE (n / 4 * 4))
    let lk := wireLinks c mode
    let half := lk.1 == 4 && !lk.2.2
    let y := (lineRow lk.2.1 (if half then (line + 1) / 2 else line)).getD 0
    let sz := fmtSize lk.2.1
    -- what the fetcher gave for this line is used or discarded
    let slate := s.rd (K.OUT_SLATE_STATE n) == 2
    let level := s.rd (K.OUT_FETCH_LEVEL n)
    let need := if s.progStored n || slate then sz.1 * lk.1 else 0
    let s := s.setLevel n (level - need)
    let s := s.scanRow (if slate then refBuf s.air (48 + n) else if s.air (K.OUT_ROUTE_SRC (s.routeUnit n)) = 0xFE then refBuf s.air (s.routeUnit n)
      else 0xFFFF) y
    -- the rows taken from the crossbar
    let used (k : Nat) : List Nat :=
      if lk.2.2 then [y] else if lk.1 = 4 then [(quadPlace mode k sz.1 sz.2 0 y).2] else [y]
    let s := (List.range lk.1).foldl (fun (t : State) k =>
      let d := if lk.2.2 then n + k else n
      t.setVec (H.xbFresh d) ((t.vec (H.xbFresh d)).filter (fun r => !(used k).contains r))) s
    -- the programme, held where it did not come in time, and its Proof regions
    let s := (List.zip (List.range lk.1) ls).foldl (fun (t : State) p =>
      let x := 2 * (n + p.1) + f
      let l := p.2.1.getD (t.vec (H.progAct x))
      ((t.setVec (H.progAct x) l).prfLine n p.1 y sz.1 l)) s
    -- what leaves on the wire
    let st := s.rd (K.OUT_BRACKET_STATE n)
    let m := s.air (K.OUT_BRACKET_PARTNER n)
    let out : List (Option (List Nat)) :=
      if s.rd (K.OUT_BRACKET_ROLE n) = 1 ∧ st = 3 then ls.map (fun _ => none)
      else if s.rd (K.OUT_BRACKET_ROLE n) = 1 ∧ st = 2 then
        if s.rd (H.outLineNo m) = line then (List.range lk.1).map (fun k => some (s.vec (H.outLine (m + k))))
        else match s.ownLines m line with
          | some l => (List.zip (List.range lk.1) l).map (fun p => some (p.2.2.getD (s.vec (H.lastAct (2 * (m + p.1) + f)))))
          | none => ls.map (fun _ => none)
      else ls.map Prod.snd
    let s : State := if out.any Option.isNone then s.heldLine n else s.wr (H.heldAt n) 0
    (List.zip (List.range lk.1) out).foldl (fun (t : State) p =>
      match p.2 with
      | some l => (t.setVec (H.outLine (n + p.1)) l).setVec (H.lastAct (2 * (n + p.1) + f)) l
      | none => t.sendHeld n p.1 f) s

/-- LINE_START: the EAV of a line of OUT[n], with the lead in ns measured on its crossbar hop and the words left on the line after audio
and generated packets (R128, R130, R165, R179). -/
def lineStart (n : Fin 48) (line : Nat) (lam : Int) (room : Nat) (s : State) : Host.Outcome State Fault Refusal :=
  let n := n.val
  let c := s.air (K.OUT_FORMAT n)
  match fmt c with
  | none => .next s
  | some g =>
    -- a frame that is shortened has no line at its end (R131)
    if s.rd (K.OUT_TSTATE n) = 0 ∨ line = 0 ∨ g.lines < line + (s.outExtra n).2 then .next s else
    let before := s.rd (H.outLineNo n)
    let s := (s.wr (H.outLineNo n) line).up (H.outOnes n) (fun k => if line = 1 then k + 1 else k)
    let s : State := if !lineActive c line && lineActive c before then s.irqSet n 0 else s
    let frame := s.rd (K.OUT_EVT_FRAME n)
    let s : State := if line = s.rd (K.OUT_LINE_MATCH n) ∧ s.rd (H.lmFrame n) ≠ frame + 1 then (s.irqSet n 1).wr (H.lmFrame n) (frame + 1) else s
    let s := ((s.sendLine n line).ancEmbed n line lam room).pidLine n line
    -- the window of an elastic FIFO, compared at every line
    let u := s.routeUnit n
    let src := s.air (K.OUT_ROUTE_SRC u)
    let direct := s.air (H.outPath u) == 1 && decide (src < 48)
    let hop := direct || (decide (48 ≤ src) && decide (src < 80) && !s.unmapped src)
    if s.rd (H.lossPh n) ≠ 0 ∨ !hop then .next s else
    let s : State := if direct then s.wrI 32 (K.OUT_ROUTE_STAT_LEAD n) lam else s
    let s : State := if direct then s.keyCheck n else s
    .next (if leadHolds c lam then s else (s.routeLose n 2).violation n 1 0)

/-- BRACKET_TAKEOVER: the pipeline of OUT[n] cannot serve (cause 0 fetcher, 1 parity). The line it was sending is lost and goes out as a held
line; a partner in service takes over; a partner that fails while it serves ends the takeover (R170). -/
def bracketTakeover (n : Fin 48) (cause : Nat) (s : State) : Host.Outcome State Fault Refusal :=
  let n := n.val
  if s.rd (K.OUT_BRACKET_ROLE n) = 1 then
    let was := s.rd (K.OUT_BRACKET_STATE n)
    let s := s.takeover n (cause % 2)
    .next (if was = 1 then s.lineLost n else s)
  else .next (s.partnerFails n)

end Sys2Proof.Machine
end

