-- ==== Sys2Proof/Machine/Crossbar.lean ====
section
/-! DEFINITION. The crossbar: sources, segments, the two planes (spec/01 R16 to R23; spec/16 R349), and what protects an output
(spec/16 R357, R363; spec/10 R228). -/
namespace Sys2Proof.Machine

/-! ## Protection (R228, R357) -/

/-- A stream inside the part: an Easel or converter by its crossbar number, and the stream read of a converter, 0 of an Easel. -/
abbrev Node := Nat × Nat

/-- The streams inside the part that a stream is made of: the sources of an Easel's LIVE layers, of which a converter sends stream 0, and the
LIVE source of a converter's stream (R257, R259, R289). -/
def feeds (rd : Nat → Nat) (b : Node) : List Node :=
  let inner (id : Nat) : Option Node := if 48 ≤ id ∧ id < 80 then some (id, 0) else none
  if b.1 < 64 then
    ((List.range 8).map (fun l => 8 * (b.1 - 48) + l)).filterMap (fun x =>
      if rd (K.LAYER_SRC_KIND x) = 3 then inner (rd (K.LAYER_SRC_ID x)) else none)
  else if rd (K.FRC_STREAM_KIND (b.1 - 64) b.2) = 1 then (inner (rd (K.FRC_STREAM_SRC (b.1 - 64) b.2))).toList
  else []

/-- The streams that streams are made of, each once; chains have no cycles, so `fuel` of their number is enough. -/
def reach (rd : Nat → Nat) : Nat → List Node → List Node → List Node
  | 0, _, seen => seen
  | _, [], seen => seen
  | fuel + 1, b :: t, seen =>
    if seen.contains b then reach rd fuel t seen else reach rd fuel (feeds rd b ++ t) (seen ++ [b])

/-- The streams of Easels and converters on the path from stream k of crossbar source `src`. -/
def pathNodes (rd : Nat → Nat) (src k : Nat) : List Node :=
  if 48 ≤ src ∧ src < 80 then reach rd 320 [(src, if src < 64 then 0 else k)] [] else []

/-- The streams on the path of the route of OUT[n]: of a converter only the stream read (R208). -/
def routeNodes (rd : Nat → Nat) (n : Nat) : List Node := pathNodes rd (rd (K.OUT_ROUTE_SRC n)) (rd (K.OUT_ROUTE_FRC_STREAM n))

/-- The Easels and converters on the path of the route of OUT[n]. -/
def routeBlocks (rd : Nat → Nat) (n : Nat) : List Nat := ((routeNodes rd n).map (·.1)).eraseDups

/-- The rings a stream inside the part reads. -/
def State.nodeRings (s : State) (rd : Nat → Nat) (b : Node) : List Nat :=
  if b.1 < 64 then (List.range 8).flatMap (fun l => s.layerRings rd (8 * (b.1 - 48) + l)) else s.frcRings rd (b.1 - 64) b.2

/-- The buffers a stream inside the part reads, with their key planes. -/
def nodeBufs (rd : Nat → Nat) (b : Node) : List Nat :=
  if 64 ≤ b.1 then [] else
  (((List.range 8).map (fun l => 8 * (b.1 - 48) + l)).flatMap (fun x =>
    if rd (K.LAYER_SRC_KIND x) = 1 then [rd (K.LAYER_SRC_ID x), rd (K.LAYER_SRC_KEY x)] else [])).filter (fun i => i < 2048)

/-- The rings on the path of OUT[n] by a view of its objects. -/
def State.pathRings (s : State) (rd : Nat → Nat) (n : Nat) : List Nat :=
  (s.routeRings rd n ++ (routeNodes rd n).flatMap (s.nodeRings rd)).eraseDups

/-- The buffers on the path of the route of OUT[n]: scanned directly, or by layers, with their key planes. -/
def pathBufs (rd : Nat → Nat) (n : Nat) : List Nat :=
  ((if rd (K.OUT_ROUTE_SRC n) = 0xFE ∧ rd (K.OUT_ROUTE_BUF n) < 2048 then [rd (K.OUT_ROUTE_BUF n)] else [])
    ++ (routeNodes rd n).flatMap (nodeBufs rd)).eraseDups

/-- The buffers OUT[n] reads, its armed slate with those of the route it follows, that of OUT[u] (R171, R201, R228). -/
def readBufs (rd : Nat → Nat) (n u : Nat) : List Nat :=
  ((if rd (K.OUT_SLATE_BUF n) < 2048 then [rd (K.OUT_SLATE_BUF n)] else []) ++ pathBufs rd u).eraseDups

/-- Every ring and buffer on the path of the route of OUT[u] has a mirror in sync (R357). -/
def State.pathInSync (s : State) (u : Nat) : Bool :=
  (s.pathRings s.air u).all (fun i => s.rd (K.RING_MIRROR i) == 2) && (pathBufs s.air u).all (fun b => s.rd (K.BUF_MIRROR b) == 2)

/-- Every ring and buffer OUT[n] reads, following the route of OUT[u], has a mirror in sync (R208, R228). -/
def State.mirrorsInSync (s : State) (n u : Nat) : Bool :=
  s.pathInSync u && (readBufs s.air n u).all (fun b => s.rd (K.BUF_MIRROR b) == 2)

/-- The partner of a bracketed output. -/
def State.bracketPartner (s : State) (n : Nat) : Option Nat :=
  if s.rd (K.OUT_BRACKET_ROLE n) = 1 then some (s.air (K.OUT_BRACKET_PARTNER n))
  else if s.rd (K.OUT_BRACKET_ROLE n) = 2 then (List.range 48).find? (fun m => s.air (K.OUT_BRACKET_PARTNER m) == n) else none

/-- Why OUT[n] is exposed, as bits of PROTECTION_LOST (R357, R364). -/
def State.exposed (s : State) (n : Nat) : Nat :=
  let u := s.routeUnit n
  if s.rd (K.OUT_TSTATE n) = 0 ∨ s.rd (K.OUT_CONTRACT_PATH u) = 0 then 0 else
  let part := s.bracketPartner n
  let prim := if s.rd (K.OUT_BRACKET_ROLE n) = 1 then some n else part
  let frozen (m : Nat) : Bool := s.rd (H.txFrozen (m / 4)) == 1
  (if s.pathInSync u then 0 else 1)
    + (if (routeBlocks s.air u).isEmpty || s.rd K.CLMAP_SPARE != 0xFF then 0 else 2)
    + (if [1, 2].contains (s.rd K.XBAR_XBA_STATE) || [1, 2].contains (s.rd K.XBAR_XBB_STATE) then 4 else 0)
    + (match prim with | some p => if 2 ≤ s.rd (K.OUT_BRACKET_STATE p) then 8 else 0 | none => 0)
    + (match part with | some p => if frozen n || frozen p then 16 else 0 | none => 0)

/-- What is present of the part's redundancy (PROT.REDUNDANCY). -/
def State.redundancy (s : State) : Nat :=
  let pc (st : Nat) : Bool := (List.range 32).all (fun q => s.rd (H.pcFailed (32 * st + q)) == 0)
  (if s.rd K.XBAR_XBA_STATE = 0 ∧ s.rd K.XBAR_XBB_STATE = 0 then 1 else 0) + (if s.rd K.CLMAP_SPARE ≠ 0xFF then 2 else 0)
    + (if pc 0 then 4 else 0) + (if pc 1 then 8 else 0) + (if s.rd K.MGMT_STANDBY_STATE = 0 then 16 else 0)
    + (if s.rd K.ADM_SHADOW_FREE ≠ 0 then 32 else 0)

/-! ## What no state needs any longer (R197, R199, R228, R278) -/

/-- An object of a view where a ONE_FRAME write-back that has ended counts as ended until its objects are committed again (R278). -/
def wbView (done touched : Nat → Bool) (rd : Nat → Nat) (k : Nat) : Nat :=
  match inFam (H.wbDone 0) k 16 with
  | some e => if done e && !touched (K.EAS_WB_MODE e) && !touched (K.EAS_WB_BUF e) then 1 else 0
  | none => rd k

/-- The developed state as admission sees it. -/
def State.vDev (s : State) : Nat → Nat := s.rd
/-- What is on air. -/
def State.vAir (s : State) : Nat → Nat := wbView (fun e => s.rd (H.wbDone e) == 1) (fun _ => false) s.air
/-- What is committed. -/
def State.vCom (s : State) : Nat → Nat :=
  wbView (fun e => s.rd (H.wbDone e) == 1) (fun k => s.com.any (fun c => c.key == k)) s.nextRd

/-- Test-pattern generators OUT[n] reads by a view: a 4320p output takes all four (R194). -/
def tpgsOf (rd : Nat → Nat) (n : Nat) : List Nat :=
  let src := rd (K.OUT_ROUTE_SRC n)
  if rd (K.OUT_FORMAT n) = 0 ∨ src < 80 ∨ 84 ≤ src ∨ followed rd n ≠ n then []
  else if fmtQuad (rd (K.OUT_FORMAT n)) then [0, 1, 2, 3] else [src - 80]

/-- Outputs bracketed with OUT[n] by a view, in either role (R169). -/
def bracketed (rd : Nat → Nat) (n : Nat) : List Nat :=
  (if rd (K.OUT_BRACKET_PARTNER n) < 48 ∧ rd (K.OUT_FORMAT n) ≠ 0 then [rd (K.OUT_BRACKET_PARTNER n)] else [])
    ++ (List.range 48).filter (fun m => m != n && rd (K.OUT_FORMAT m) != 0 && rd (K.OUT_BRACKET_PARTNER m) == n)

/-- The buffer EAS[e] claims as its write target by a view (R199, R278). -/
def wbClaim (rd : Nat → Nat) (e : Nat) : Option Nat :=
  let b := rd (K.EAS_WB_BUF e)
  if rd (K.EAS_CANVAS_FORMAT e) = 0 ∨ rd (K.EAS_WB_MODE e) = 0 ∨ 2048 ≤ b then none
  else if rd (K.EAS_WB_MODE e) = 2 ∧ rd (H.wbDone e) = 1 then none else some b

/-- The mirrors a bracketed output needs by a view: ids of rings and of buffers (R201, R228). -/
def State.mirrorsOf (s : State) (rd : Nat → Nat) : List Nat :=
  (List.range 48).flatMap (fun n =>
    if rd (K.OUT_FORMAT n) = 0 ∨ (bracketed rd n).isEmpty then [] else
    let u := followed rd n
    (s.pathRings rd u).map (fun i => 12288 + i) ++ (readBufs rd n u).map (fun b => 4096 + b))

/-- Release the mirrors no bracketed output needs any longer; a buffer with PROTECT ALWAYS keeps its own (R201, R228). -/
def State.mirrorsSync (s : State) : State :=
  let have' := s.allocs.filter (fun a => (decide (4096 ≤ a.1) && decide (a.1 < 8192) && s.rd (K.BUF_PROTECT (a.1 - 4096)) != 2) || decide (12288 ≤ a.1))
  if have'.isEmpty then s else
  let need := s.mirrorsOf s.nextRd ++ s.mirrorsOf s.rd ++ s.mirrorsOf s.air
  have'.foldl (fun (t : State) a => if need.contains a.1 then t else
    if a.1 < 8192 then ((t.release a.1).wr (K.BUF_MIRROR (a.1 - 4096)) 0).clr (K.BUF_MIRROR_ADDR (a.1 - 4096))
    else ((t.release a.1).wr (K.RING_MIRROR (a.1 - 12288)) 0).clr (K.RING_MIRROR_ADDR (a.1 - 12288))) s

/-- Release the write targets no Easel claims any longer (R199, R221, R278). -/
def State.wbSync (s : State) : State :=
  let held := s.reg.filterMap (fun p =>
    if 0x6000 * 256 ≤ p.1 ∧ p.1 < 0x6800 * 256 ∧ p.1 % 256 = 0x12 ∧ 0x4000 ≤ p.2 ∧ p.2 < 0x4400
    then some (p.1 / 256 - 0x6000, (p.2 - 0x4000) / 0x40) else none)
  held.foldl (fun (t : State) p => if [s.vCom, s.vDev, s.vAir].any (fun v => wbClaim v p.2 == some p.1) then t else t.wr (K.BUF_WRITER p.1) 0) s

/-- The holder of TPG[t], where `com` is committed and `cand` may be: the output that has it while it reads it in some state; then the lowest
output that still shares it, the developed ones before the committed (R194, R199; DESIGN CHOICE, log 63). -/
def State.tpgHeld (s : State) (com cand : Nat → Nat) (t : Nat) : Option Nat :=
  let reads (v : Nat → Nat) (n : Nat) : Bool := (tpgsOf v n).contains t
  let h := s.rd (H.tpgHold t) - 1
  if s.rd (H.tpgHold t) ≠ 0 ∧ [cand, s.rd, s.air].any (fun v => reads v h) then some h
  else ((List.range 48).find? (fun n => reads s.rd n || reads s.air n)).orElse (fun _ =>
    (List.range 48).find? (fun n => reads com n && reads cand n))

/-- Each test-pattern generator has its holder, or none once no state reads it (R194). -/
def State.tpgSync (s : State) : State :=
  s.upto 4 (fun t u => if u.rd (H.tpgHold t) = 0 then u else
    u.wr (H.tpgHold t) (match u.tpgHeld u.nextRd u.nextRd t with | some h => h + 1 | none => 0))

/-! ## What an output's redundancy is (R357, R364) -/

/-- Release what no state needs, and bring PROTECTED, EXPOSED_OUT and REDUNDANCY in line with the state, each change with its event
(R197, R228, R357, R364). -/
def State.protSync (s : State) : State :=
  let s := s.mirrorsSync.wbSync.tpgSync
  let r := s.redundancy
  let old := s.rd K.PROT_REDUNDANCY
  let s : State := if r = old then s else (s.wr K.PROT_REDUNDANCY r).raise 0x7013 0x1A03 old r
  s.upto 48 (fun n t =>
    let p := t.air (H.con (16 * n + 12)) == 1 && t.rd (K.OUT_CONTRACT_PATH n) != 0 && t.mirrorsInSync n (t.routeUnit n)
    let t := (t.wr (K.OUT_CONTRACT_PROTECTED n) (if p then 1 else 0)).setBit K.PROT_PROTECTED_OUT n p
    let bits := t.exposed n
    if t.bit K.PROT_EXPOSED_OUT n = decide (bits ≠ 0) then t
    else if bits = 0 then (t.setBit K.PROT_EXPOSED_OUT n false).raise 0x7012 0x1A03 n 0
    else (t.setBit K.PROT_EXPOSED_OUT n true).raise 0x7011 0x1A03 n bits)

/-- What follows on a step that goes on. -/
def onNext (f : State → State) : Host.Outcome State Fault Refusal → Host.Outcome State Fault Refusal
  | .next s => .next (f s)
  | .fault r => .fault r
  | .refused r => .refused r

/-- A step that bears on protection (R357). -/
def withProt (o : Host.Outcome State Fault Refusal) : Host.Outcome State Fault Refusal := onNext State.protSync o

/-! ## Sources and destinations (R16, R18) -/

/-- The output that holds TPG[t]: the lowest one whose route on air reads it (R194). -/
def State.tpgHolder (s : State) (t : Nat) : Option Nat := (List.range 48).find? (fun n => s.air (K.OUT_ROUTE_SRC n) == 80 + t)

/-- The source a crossbar destination takes, if any (R16). -/
def State.destSrc (s : State) (d : Nat) : Option Nat :=
  if d < 48 then
    let h := d / 4 * 4
    let n := if fmtQuad (s.air (K.OUT_FORMAT h)) then h else d
    let u := s.routeUnit n
    let src := s.air (K.OUT_ROUTE_SRC u)
    if s.air (K.OUT_FORMAT n) = 0 ∨ 84 ≤ src ∨ (src < 48 ∧ s.air (H.outPath u) ≠ 1) then none else some (src + (d - n))
  else if d < 64 then
    (List.range 4).find? (fun k => s.rd (K.FRC_STREAM_KIND (d - 48) k) == 1) |>.map (K.FRC_STREAM_SRC (d - 48)) |>.map s.rd
  else (List.range 16).map (fun l => 16 * (d - 64) + l) |>.find? (fun x => s.air (K.LAYER_SRC_KIND x) == 3)
    |>.map (fun x => s.air (K.LAYER_SRC_ID x))

/-- The format of the stream on the port of a source: of a four-port stream, the 2160p sub-image's (R18). -/
def State.portFmt (s : State) (d src : Nat) : Nat :=
  let one (c : Nat) : Nat := if fmtQuad c then c - 8 else c
  if src < 48 then
    let h := src / 4 * 4
    if fmtQuad (s.rd (K.IN_STAT_FORMAT h)) then s.rd (K.IN_STAT_FORMAT h) - 8 else s.rd (K.IN_STAT_FORMAT src)
  else if src < 80 then s.srcFmt src
  else if d < 48 then one (s.air (K.OUT_FORMAT (if fmtQuad (s.air (K.OUT_FORMAT (d / 4 * 4))) then d / 4 * 4 else d)))
  else match s.tpgHolder (src - 80) with
    | some n => one (s.air (K.OUT_FORMAT n))
    | none => 0

/-- Pixel x of row y of a test-pattern generator for a destination (R194). -/
def State.tpgPix (s : State) (d src x y : Nat) : Pix :=
  let n := if d < 48 then some (if fmtQuad (s.air (K.OUT_FORMAT (d / 4 * 4))) then d / 4 * 4 else d) else s.tpgHolder (src - 80)
  match n with
  | none => Pix.black
  | some n =>
    let c := s.air (K.OUT_FORMAT n)
    let sz := fmtSize c
    let p := if fmtQuad c then quadPlace (s.air (K.OUT_QUAD_MODE n)) (src - 80) (sz.1 / 2) (sz.2 / 2) x y else (x, y)
    patternPix (s.air (K.OUT_ROUTE_PATTERN (s.routeUnit n))) sz.1 (s.rd (K.OUT_EVT_FRAME n)) p.1 p.2 (decide (2160 ≤ sz.2)) sz.2

/-- Pixel x of row y of the stream a source sends to a destination: the line an input holds now, a canvas, a converter's stream, a test
pattern (R16 to R19, R145). -/
def State.srcPix (s : State) (d src x y : Nat) : Pix :=
  let line (n : Nat) (x : Nat) : Pix := match (s.vec (H.rxLine n))[x]? with | some w => Pix.ofWord w | none => Pix.black
  if src < 48 then
    let h := src / 4 * 4
    let c := s.rd (K.IN_STAT_FORMAT h)
    if (s.linkOf src).isNone then line src x
    else if fmtQuad c then (match s.linkInput (src / 4) (src - h) with | some i => line i x | none => Pix.black)
    else
      let sz := fmtSize c
      let p : Nat × Nat :=
        if s.quadDivision (src / 4) = 1 then ((if x < sz.1 / 2 then 0 else 1) + (if y < sz.2 / 2 then 0 else 2), x % (sz.1 / 2))
        else (x / 2 % 2 + 2 * (y % 2), x / 4 * 2 + x % 2)
      match s.linkInput (src / 4) p.1 with
      | some i => line i p.2
      | none => Pix.black
  else if src < 64 then s.canvasPix (src - 48) x y
  else if src < 80 then s.frcPix (src - 64) (if d < 48 then s.air (K.OUT_ROUTE_FRC_STREAM (s.routeUnit d)) else 0) x y
  else s.tpgPix d src x y

/-! ## The planes (R22, R23, R349) -/

/-- STATE of a plane: 0 XBA, 1 XBB. -/
def planeKey (p : Nat) : Nat := if p = 0 then K.XBAR_XBA_STATE else K.XBAR_XBB_STATE

/-- A plane may become preferred at a destination: it is in service, or has returned and carried a full frame of it (R23, R349). -/
def State.mayPrefer (s : State) (p d : Nat) : Bool :=
  s.rd (planeKey p) == 0 || (s.rd (planeKey p) == 3 && (s.rd (H.xbRet p)).testBit d)

/-- The preferred plane of a destination changes to p: counter and event (R22). -/
def State.prefer (s : State) (d p : Nat) : State :=
  if s.rd (H.xbPref d) = p then s else
  let s := ((s.wr (H.xbPref d) p).countFrame K.XBAR_PLANE_SWITCHES 1).up H.xbMoved (fun m => m ||| 2 ^ d)
  let moved := ((List.range 72).filter (fun i => (s.rd H.xbMoved).testBit i)).length
  let s := s.raiseLim 2600 0x7003 0x1A01 (fun k => (moved, k))
  if s.rd (H.limCnt 2600) = 0 then s.wr H.xbMoved 0 else s

/-- Every destination leaves a plane that stops serving as preferred: for the other one where that may be preferred, else no plane is until
one may (R23; DEDUCED, log 62). -/
def State.planeLeave (s : State) (p : Nat) : State :=
  s.upto 72 (fun d t => if t.rd (H.xbPref d) ≠ p then t else if t.mayPrefer (1 - p) d then t.prefer d (1 - p) else t.wr (H.xbPref d) 2)

/-- A destination that prefers no plane prefers one that may be preferred. -/
def State.preferAny (s : State) (d : Nat) : State :=
  if s.rd (H.xbPref d) < 2 then s else if s.mayPrefer 0 d then s.prefer d 0 else if s.mayPrefer 1 d then s.prefer d 1 else s

/-- The destinations that take a stream. -/
def State.liveDests (s : State) : List Nat := (List.range 72).filter (fun d => (s.destSrc d).isSome)

/-- A returned plane that has carried a full frame of every destination is in service again (R23). -/
def State.planeBack (s : State) (p : Nat) : State :=
  if s.rd (planeKey p) = 3 ∧ s.liveDests.all (fun d => (s.rd (H.xbRet p)).testBit d)
  then (s.wr (planeKey p) 0).raise 0x7002 0x1A01 p 0 else s

/-- A plane returns: it carries traffic and may become preferred where it has carried a full frame (R23). -/
def State.planeReturn (s : State) (p : Nat) : State :=
  (((s.wr (planeKey p) 3).wr (H.xbRet p) 0).setVec (H.xbFail p) []).planeBack p

/-- A plane is switched off (R23). -/
def State.planeOff (s : State) (p : Nat) : State := (s.wr (planeKey p) 2).planeLeave p

/-- A segment of plane p fails while the other plane's passes; at FAIL_LIMIT within 1 s the plane is FAILED (R349). -/
def State.planeFails (s : State) (p : Nat) : State :=
  if s.rd (planeKey p) = 1 ∨ s.rd (planeKey p) = 2 then s else
  let l := s.now :: (s.vec (H.xbFail p)).filter (fun t => s.now < t + 1000000)
  let s := s.setVec (H.xbFail p) l
  if l.length < s.rd K.XBAR_FAIL_LIMIT then s else
  (((s.setVec (H.xbFail p) []).wr (planeKey p) 1).raise 0x7001 0x1A01 p l.length).planeLeave p

/-- Row before a row in its field, the last one of the field before the first (R22). -/
def rowBefore (h y : Nat) (interlaced : Bool) : Nat :=
  let k := if interlaced then 2 else 1
  if y < k then y + h - k else y - k

/-- Put words into a row from pixel `at'` on. -/
def splice (row : List Nat) (at' : Nat) (l : List Nat) : List Nat :=
  let row := row ++ List.replicate (at' - row.length) Pix.black.word
  row.take at' ++ l ++ row.drop (at' + l.length)

/-- The ANC packets an input sends on the crossbar beside row `row`: those of its line, with the first row also those of lines outside the
picture; eight bytes a beat (R20; the beats are DESIGN CHOICE, log 61). -/
def State.ancBeats (s : State) (src c row : Nat) : List Nat :=
  if 48 ≤ src then [] else
  let l := (ancRecs 65536 (s.vec (H.ancFwd src))).filter (fun r => (lineRow c r.line).getD 0 == row)
  l.flatMap (fun r => (List.range ((r.bytes.length + 7) / 8)).map (fun i => fld (r.bytes ++ List.replicate 7 0) (8 * i) 8))

/-- The port words of segment `seg` of row `row` from a source to destination d: 256, the last segment of a line the remainder (R21). -/
def State.segWords (s : State) (d src row seg : Nat) : List Nat :=
  (List.range (min 256 ((fmtSize (s.portFmt d src)).1 - 256 * seg))).map (fun i => (s.srcPix d src (256 * seg + i) row).word)

/-- The CRC-32 of a segment: over its words and its ANC beats (R21). -/
def beatsCrc (l : List Nat) : Nat := crc32 (l.flatMap (bytesBE 8))

/-- Words after transit: each pair is a position and the bits that arrive inverted there. -/
def hit (l : List Nat) (e : List (Nat × Nat)) : List Nat := e.foldl (fun l p => l.modify p.1 (fun w => w ^^^ p.2 % 2 ^ 64)) l

/-- The copy of a segment a destination receives and checks: beats and CRC as the source sent them, with the changes of transit; none where
the CRC does not fit. A copy nothing changed passes (R21, R22). -/
def segCheck (beats : List Nat) (e : List (Nat × Nat)) : Option (List Nat) :=
  if e.isEmpty then some beats else
  let got := hit (beats ++ [beatsCrc beats]) e
  if beatsCrc (got.take beats.length) = got.getD beats.length 0 then some (got.take beats.length) else none

/-- The copy of a segment that plane p hands to destination d, if it passes: none on a plane that is off, or where nothing arrives. -/
def State.segCopy (s : State) (p d src row seg : Nat) (x : Option (List (Nat × Nat))) : Option (List Nat) :=
  if s.rd (planeKey p) = 2 then none else
  let w := s.segWords d src row seg
  let c := s.portFmt d src
  let beats := w ++ (if (fmtSize c).1 ≤ 256 * seg + w.length then s.ancBeats src c row else [])
  x.bind (fun e => (segCheck beats e).map (fun l => l.take w.length))

/-- SEGMENT_RECEIVED: segment `seg` of row `row` reaches destination d on both planes; `a` and `b` say what each plane did to it (R21, R22,
R349). The comparison of two good copies is the Test Strip's (R359). -/
def segmentReceived (d : Fin 72) (row seg : Nat) (a b : Option (List (Nat × Nat))) (s : State) : Host.Outcome State Fault Refusal :=
  let d := d.val
  match s.destSrc d with
  | none => .next s
  | some src =>
    let c := s.portFmt d src
    let sz := fmtSize c
    if sz.2 ≤ row ∨ sz.1 ≤ 256 * seg then .next s else
    let n := min 256 (sz.1 - 256 * seg)
    let ca := s.segCopy 0 d src row seg a
    let cb := s.segCopy 1 d src row seg b
    let s : State := match ca, cb with
      | none, some _ => s.planeFails 0
      | some _, none => s.planeFails 1
      | some x, some y => if x = y ∨ !s.tstripFree then s
        else (s.countFrame K.XBAR_DISAGREE 1).raiseLim 2602 0x7005 0x1A01 (fun k => (src, k))
      | none, none => s
    let s := s.preferAny d
    let get (q : Nat) : Option (List Nat) := if q = 0 then ca else cb
    -- with none preferred, a plane that returns is taken before one that failed
    let first := if s.rd (H.xbPref d) < 2 then s.rd (H.xbPref d) else if s.rd (planeKey 1) = 3 then 1 else 0
    let interlaced := match fmt c with | some f => f.interlaced | none => false
    let r : State × List Nat := match get first, get (1 - first) with
      | some l, _ => (s, l)
      | none, some l => (if s.mayPrefer (1 - first) d then s.prefer d (1 - first) else s, l)
      | none, none =>
        ((s.countFrame K.XBAR_SEGMENTS_LOST 1).raiseLim 2601 0x7004 0x1A01 (fun k => (src, k)),
          ((s.vec (H.xbRow (d * 8192 + rowBefore sz.2 row interlaced))).drop (256 * seg)).take n)
    let s : State := if 64 ≤ d ∧ r.1.rd (H.liveFrom (d - 64)) = 1048576 then r.1.wr (H.liveFrom (d - 64)) (row + 1) else r.1
    let r := (s, r.2)
    let s := r.1.setVec (H.xbRow (d * 8192 + row)) (splice (r.1.vec (H.xbRow (d * 8192 + row))) (256 * seg) r.2)
    .next (if sz.1 ≤ 256 * seg + n ∧ !(s.vec (H.xbFresh d)).contains row then s.setVec (H.xbFresh d) (s.vec (H.xbFresh d) ++ [row]) else s)

/-- SEGMENT_RECEIVED, with what it does to protection. -/
def execSegmentReceived (d : Fin 72) (row seg : Nat) (a b : Option (List (Nat × Nat))) (s : State) : Host.Outcome State Fault Refusal :=
  withProt (segmentReceived d row seg a b s)

/-- PLANE_RETURN_FRAME: a returned plane has carried one full frame of destination d (R23). -/
def execPlaneReturnFrame (p : Fin 2) (d : Fin 72) (s : State) : Host.Outcome State Fault Refusal :=
  if s.rd (planeKey p.val) ≠ 3 then .next s
  else .next ((s.up (H.xbRet p.val) (fun m => m ||| 2 ^ d.val)).planeBack p.val).protSync

/-- A write of XBAR.RETEST: BUSY unless the plane is FAILED (R349). -/
def xbarRetestWrite (v : Nat) (s : State) : Ans :=
  if s.rd (planeKey v) ≠ 1 then ansBusy s else ansOk ((s.wr K.XBAR_RETEST v).planeReturn v).protSync

end Sys2Proof.Machine
end

