-- ==== Sys2Proof/Machine/Shadow.lean ====
section
/-! DEFINITION. The Test Strip's shadow composition and its state (spec/12 R283; spec/16 R359, R360). -/
namespace Sys2Proof.Machine

/-- A layer of EAS[e] takes a LIVE stream (R283). -/
def State.hasLive (s : State) (rd : Nat → Nat) (e : Nat) : Bool :=
  let _ := s
  (List.range 8).any (fun l => rd (K.LAYER_SRC_KIND (8 * e + l)) == 3)

/-- The Easels whose developed or committed SHADOW is REQUIRED: they hold the shadow slots (R199, R283). -/
def State.shadowClaims (s : State) : List Nat :=
  (List.range 16).filter (fun e => s.rd (K.EAS_SHADOW e) == 2 || s.nextRd (K.EAS_SHADOW e) == 2)

/-- The spare is free for shadow composition: it serves no fault and no rotation, and the Test Strip works (R283, R359, R360). -/
def State.shadowable (s : State) : Bool :=
  s.rd K.CLMAP_SPARE != 0xFF && s.rd (H.foFrom) == 0 && s.rd (H.rotT) == 0 && s.rd (H.rotMis) == 0 && s.tstripFree

/-- STATE.SHADOW of an Easel changes: event, and its SHADOW regions read NOT_CHECKED unless it is shadowed (R281, R283). -/
def State.shadowSet (s : State) (e new : Nat) : State :=
  if s.rd (K.EAS_STATE_SHADOW e) = new then s else
  let s := (s.wr (K.EAS_STATE_SHADOW e) new).raise 0x4208 (easIdx e) e new
  let s := s.setBit K.TSTRIP_SHADOWED e (new == 1)
  if new = 1 then s else
  s.upto 64 (fun p t =>
    if t.air (K.PRF_CFG_MODE p) = 3 ∧ t.rd (K.PRF_CFG_OUT p) < 48 ∧ t.air (K.OUT_ROUTE_SRC (t.routeUnit (t.rd (K.PRF_CFG_OUT p)))) = 48 + e
    then t.wr (K.PRF_STATUS_STATE p) 3 else t)

/-- The next ROTATING Easel in turn that no slot shadows (R359). -/
def State.nextTurn (s : State) (cands : List Nat) : Option Nat :=
  let last := s.rd H.shLast
  let busy := (List.range 2).map (fun x => s.rd (H.shTurn x))
  let l := cands.filter (fun e => !busy.contains (e + 1))
  match l.find? (fun e => decide (last < e)) with
  | some e => some e
  | none => l.head?

/-- STATE of the Test Strip (R363; log 33). -/
def State.tstState (s : State) : Nat :=
  if !s.tstripOn then 4 else if !s.tstripFree then 3 else if s.rd (H.rotT) ≠ 0 then 2 else if s.rd K.CLMAP_SPARE = 0xFF ∨ s.rd (H.foFrom) ≠ 0 then 3 else 1

/-- Bring the shadow slots and the Test Strip's state in line with the machine. -/
def State.tstSync (s : State) : State :=
  let claims := s.shadowClaims
  let free := 2 - claims.length
  let s := (s.wr K.ADM_SHADOW_FREE free).wr K.TSTRIP_STATE s.tstState
  let on := s.shadowable
  let runs (e : Nat) : Bool := s.rd (K.EAS_STATE_TSTATE e) != 0
  let cands := (List.range 16).filter (fun e => s.rd (K.EAS_SHADOW e) == 1 && runs e && !s.hasLive s.air e)
  -- ROTATING Easels take the slots no claim holds
  let s := s.upto 2 (fun x t =>
    let cur := t.rd (H.shTurn x)
    let keep := decide (x < free) && on && cur != 0 && cands.contains (cur - 1) && t.rd (H.shLeft x) != 0
    if keep then t
    else
      let t : State := if cur ≠ 0 ∧ free ≤ x ∧ on ∧ cands.contains (cur - 1) then t.raise 0x700E 0x1A04 2 0 else t
      let t := t.wr (H.shTurn x) 0
      if free ≤ x ∨ !on then t else
      match t.nextTurn cands with
      | some e => t.wrs [(H.shTurn x, e + 1), (H.shLeft x, 256), (H.shLast, e)]
      | none => t)
  s.upto 16 (fun e t =>
    let req := t.rd (K.EAS_SHADOW e) = 2 ∧ runs e
    let turn := t.rd (H.shTurn 0) = e + 1 ∨ t.rd (H.shTurn 1) = e + 1
    t.shadowSet e (if (decide req || decide turn) && on then 1
      else if !on && (decide req || (t.rd (K.EAS_SHADOW e) == 1 && t.rd (K.EAS_STATE_SHADOW e) != 0)) then 2 else 0))

/-- A canvas frame of EAS[e] passes in its turn (R359). -/
def State.shadowFrame (s : State) (e : Nat) : State :=
  (s.upto 2 (fun x t => if t.rd (H.shTurn x) = e + 1 then t.up (H.shLeft x) (fun v => v - 1) else t)).tstSync

end Sys2Proof.Machine
end

