-- ==== Sys2Proof/Machine/Easels.lean ====
section
/-! DEFINITION. Canvases and converters at their development points and switch lines, write-back, Proof regions (spec/12 R256 to R262,
R273 to R285; spec/13 R295, R303, R308; spec/11 R249). -/
namespace Sys2Proof.Machine

/-! ## Development (R48, R273) -/

/-- EAS[e] develops; after its cluster has come back its layers begin anew (R182, R353). -/
def State.canvasDevelop (s : State) (e : Nat) : State :=
  let u := unitEas e
  let s : State := if s.rd (H.unitWait u) = 0 then s else (s.wr (H.unitWait u) 0).upto 8 (fun l t =>
    t.wrs [(H.layHist (8 * e + l), 0), (H.laySlot (8 * e + l), 0), (H.layKeySlot (8 * e + l), 0)])
  let due := !(s.eligible u false).isEmpty
  let s := s.develop u false
  if due then s.wr (devKey u 1) ((s.rd (K.EAS_CANVAS_EVT_FRAME e) + 1) % 2 ^ 48) else s

/-- At the end of a tick the canvases whose development point it held develop: every FENCE_DONE write of the tick counts (R273). -/
def State.canvasesDevelop (s : State) : State :=
  (s.vec H.easDev).foldl (fun t e => if t.rd (K.EAS_STATE_TSTATE e) = 0 ∨ t.noCluster (unitEas e) then t else t.canvasDevelop e)
    (s.setVec H.easDev [])

/-- CANVAS_DEVELOPMENT: the development point of EAS[e], one in a frame; it develops at the end of the tick. A canvas without a cluster
does not develop (R45, R273, R352). -/
def execCanvasDevelopment (e : Fin 16) (s : State) : Host.Outcome State Fault Refusal :=
  let u := unitEas e.val
  if s.rd (K.EAS_STATE_TSTATE e.val) = 0 ∨ (s.rd (H.devPassed u) = 1 ∧ s.rd (H.unitWait u) = 0) ∨ s.noCluster u then .next s else
  .next ((s.wr (H.devPassed u) 1).setVec H.easDev (s.vec H.easDev ++ [e.val]))

/-- FRC_DEVELOPMENT: the development point of a frame, two lines before the output switch line of FRC[f] (R45). -/
def execFrcDevelopment (f : Fin 16) (s : State) : Host.Outcome State Fault Refusal :=
  let f := f.val
  let u := unitFrc f
  if s.rd (K.FRC_STATE_TSTATE f) = 0 ∨ (s.rd (H.devPassed u) = 1 ∧ s.rd (H.unitWait u) = 0) ∨ s.noCluster u then .next s else
  -- after its cluster has come back its streams begin anew (R303, R353)
  let s : State := if s.rd (H.unitWait u) = 0 then s else (s.wr (H.unitWait u) 0).upto 4 (fun k t =>
    if t.rd (K.FRC_STREAM_KIND f k) = 0 then t else t.frcPrime f k)
  let due := !(s.eligible u false).isEmpty
  let s := (s.develop u false).wr (H.devPassed u) 1
  let s : State := if due then s.wr (devKey u 1) ((s.rd (K.FRC_FRC_EVT_FRAME f) + 1) % 2 ^ 48) else s
  .next s.protSync

/-! ## Layers at a canvas switch line (R259 to R262) -/

/-- A layer deinterlaces its ring: the mode of its Enlarger, 0 none (R247). -/
def State.layDeint (s : State) (x : Nat) : Nat :=
  match s.layerEnl x with
  | some n => s.rd (K.ENL_STATE_DEINT_ACTIVE n)
  | none => 0

/-- The fields of a ring in slots, each its start in ns, slot and field: the second starts half a frame after the first (R260). -/
def State.ringFields (s : State) (i : Nat) : List (Nat × Nat × Nat) :=
  let half := periodFrac (s.rd (K.IN_STAT_FORMAT i))
  (List.range 3).flatMap (fun j => match s.slotStamp i j with
    | some t => [(t, j, 0), (t + half.1 / (2 * half.2), j, 1)]
    | none => [])

/-- The newest eligible field of a deinterlaced ring at `to'`: slot plus 1, field, and 1 repeat, 2 drop (R260). -/
def State.fieldChoice (s : State) (x i to' : Nat) (wide : Bool) (others : List Nat) : Nat × Nat × Nat :=
  let c := s.rd (K.IN_STAT_FORMAT i)
  let th := theta c wide
  let lag (j : Nat) : Nat := match s.laterStamp i j others, s.slotStamp i j with | some u, some t => u - t | _, _ => 0
  let l := (s.ringFields i).filter (fun f => decide (f.1 + lag f.2.1 + th ≤ to'))
  match l with
  | [] => (0, 0, 0)
  | a :: t =>
    let b := t.foldl (fun m f => if m.1 < f.1 then f else m) a
    let was := if s.rd (H.layRing x) = i + 1 ∧ s.rd (H.laySlot x) ≠ 0
      then (s.ringFields i).find? (fun f => f.2.1 + 1 == s.rd (H.laySlot x) && f.2.2 == s.rd (H.layField x)) else none
    let half := periodFrac c
    let kind := match was with
      | some w => if b.1 = w.1 then 1 else if 3 * half.1 < 4 * half.2 * (b.1 - w.1) then 2 else 0
      | none => 0
    (b.2.1 + 1, b.2.2, kind)

/-- A RING layer takes its slot or field at `to'`; repeats and drops count, and an intra-field start is reported (R249, R260). -/
def State.layerSlot (s : State) (x to' : Nat) : State :=
  let id := s.air (K.LAYER_SRC_ID x)
  let key := s.air (K.LAYER_SRC_KEY x)
  let i := s.inUse id
  let c := s.rd (K.IN_STAT_FORMAT i)
  let others := s.besides id key
  let deint := s.layDeint x
  let first := s.rd (H.laySlot x) = 0 ∨ s.rd (H.layRing x) ≠ i + 1
  let r : Nat × Nat × Nat :=
    if deint ≠ 0 then s.fieldChoice x i to' (s.wide id key) others
    else
      let v := s.chooseSlot i c (s.wide id key) others to' (if s.rd (H.layRing x) = i + 1 then s.rd (H.laySlot x) else 0) (periodFrac c)
      (v.1, 0, v.2)
  if r.1 = 0 then s.wrs [(H.laySlot x, 0), (H.layRing x, i + 1), (H.layKeySlot x, 0)] else
  let keySlot (j : Nat) : Nat := if 48 ≤ key then 0 else
    match (s.slotStamp i j).bind (fun t => s.nearestSlot key t) with | some k => k + 1 | none => 0
  let s := s.wrs [(H.laySlot x, r.1), (H.layRing x, i + 1), (H.layField x, r.2.1), (H.layKeySlot x, keySlot (r.1 - 1)),
    (H.layPrevKey x, keySlot ((r.1 + 1) % 3))]
  let s : State := if r.2.2 = 0 then s else
    (s.count (K.EAS_RUN (x / 8) (if r.2.2 = 1 then 6 else 7)) 1).raiseLim (2700 + x) 0x4206 (layIdx x) (fun k => (layArg x, k))
  if deint = 0 ∨ r.2.2 = 1 then s else
  let s := s.wr (H.layHist x) (if decide first || r.2.2 == 2 then 0 else s.rd (H.layHist x) + 1)
  if deint ≠ 1 then s else
  if s.rd (H.layHist x) < 2 then s.inc (H.layIntra x) 1 (2 ^ 32)
  else if s.rd (H.layIntra x) = 0 then s
  else match s.layerEnl x with
    | some n => (s.raise 0x4104 (0x5000 + 0x20 * n) n (s.rd (H.layIntra x))).wr (H.layIntra x) 0
    | none => s

/-- A lost layer's source serves again (R184, R262). -/
def State.layerBack (s : State) (x to' : Nat) (lam : Int) : Bool :=
  let id := s.air (K.LAYER_SRC_ID x)
  let key := s.air (K.LAYER_SRC_KEY x)
  if (s.layerGone x).isSome then false
  else if s.air (K.LAYER_SRC_KIND x) = 2 then
    let i := s.inUse id
    let others := s.besides id key
    let th := theta (s.rd (K.IN_STAT_FORMAT i)) (s.wide id key)
    (48 ≤ key || s.rd (K.IN_STAT_STATE key) == 4) &&
    (List.range 3).any (fun j => s.rd (H.slotFmt (4 * i + j)) == s.rd (K.IN_STAT_FORMAT i) && s.rd (H.validAt i) != 0 &&
      (match s.slotStamp i j, s.laterStamp i j others with
       | some t, some u => decide (s.rd (H.validAt i) ≤ t + 1) && decide (u + th ≤ to')
       | _, _ => false))
  else match fmt (s.air (K.EAS_CANVAS_FORMAT (x / 8))) with
    | some f => (leadOf lam 0 f.rate).inWindow f.lines
    | none => false

/-- Why layer x may not show its source now: its input is gone, its key element is (4), or the LIVE hop's lead does not hold (5) (R260 to
R262, R277). -/
def State.layerCause (s : State) (x : Nat) (lam : Int) : Option Nat :=
  match s.layerGone x with
  | some c => some c
  | none =>
    let kind := s.air (K.LAYER_SRC_KIND x)
    if kind = 2 ∧ s.air (K.LAYER_SRC_KEY x) < 48 ∧ s.rd (K.IN_STAT_STATE (s.air (K.LAYER_SRC_KEY x))) ≠ 4 then some 4
    else if kind = 3 ∧ !leadHolds (s.air (K.EAS_CANVAS_FORMAT (x / 8))) lam then some 5 else none

/-- The field a LIVE interlaced source carries at `to'`: the second from half its frame after its start on (R247). -/
def State.liveField (s : State) (src to' : Nat) : Nat :=
  let t := ofPtime (s.rd (if src < 48 then K.IN_TIMING_FRAME_TIME src else if src < 64 then K.EAS_CANVAS_EVT_FRAME_TIME (src - 48)
    else K.FRC_FRC_EVT_FRAME_TIME (src - 64)))
  let p := periodFrac (s.srcFmt src)
  2 * (to' - t) * p.2 / p.1 % 2

/-- One layer at the canvas switch line of stamp `to'`; `lam` is the lead of the cluster's LIVE hop (R260 to R262, R277). -/
def State.layerStep (s : State) (x to' frame : Nat) (lam : Int) : State :=
  let e := x / 8
  let s : State := if s.rd (H.layFlip x) = 0 then s
    else (s.wrs [(H.layFlip x, 0), (K.LAYER_LSTAT_FLIP_FRAME x, frame)]).count (K.EAS_RUN e 2) 1
  -- REPLACED shows for one canvas frame (R274)
  let s : State := if s.rd (H.layOut x) = 0 then s
    else s.wrs [(K.LAYER_LSTAT_LAST_OUTCOME x, s.rd (H.layOut x) - 1), (H.layOut x, 0)]
  let id := s.air (K.LAYER_SRC_ID x)
  let kind := s.air (K.LAYER_SRC_KIND x)
  let s := s.wr (K.LAYER_LSTAT_BUF_ON_AIR x) (if kind = 1 ∧ id < 2048 then id else 0xFFFF)
  if kind = 0 then s.wrs [(K.LAYER_LSTAT_SRC_STATE x, 0), (H.layLost x, 0)]
  -- of a buffer the intra-field mode takes the first field (log 85)
  else if kind = 1 then s.wrs [(K.LAYER_LSTAT_SRC_STATE x, 1), (H.layLost x, 0), (H.layField x, 0)]
  else
    let s : State := if s.rd (H.layLost x) = 1 then s else s.wr (K.LAYER_LSTAT_SRC_STATE x) 1
    let s : State := match s.layerCause x lam with
      | some c =>
        let t := s.layerLose x c
        if c = 5 ∧ s.rd (H.layLost x) = 0 then t.hopLost (48 + e) else t
      | none => s
    let s : State := if s.rd (H.layLost x) = 1 ∧ s.layerBack x to' lam then
        (s.wrs [(H.layLost x, 0), (K.LAYER_LSTAT_SRC_STATE x, 1), (H.laySlot x, 0)]).raise 0x4205 (layIdx x) (layArg x) (s.rd (H.layLostCnt x))
      else s
    if s.rd (H.layLost x) = 1 then (s.inc (H.layLostCnt x) 1 (2 ^ 32)).count (K.EAS_RUN e 8) 1
    else if kind = 2 then s.layerSlot x to' else if id < 80 then s.wr (H.layField x) (s.liveField id to') else s

/-- Stamps of the live sources in the frame canvas e starts (R208, R260, R261). -/
def State.canvasStamps (s : State) (e : Nat) : List Nat :=
  (List.range 8).flatMap (fun l =>
    let x := 8 * e + l
    let id := s.air (K.LAYER_SRC_ID x)
    if s.rd (H.layLost x) = 1 then [] else
    match s.air (K.LAYER_SRC_KIND x) with
    | 2 => if s.rd (H.laySlot x) = 0 then [] else (s.slotStamp (s.rd (H.layRing x) - 1) (s.rd (H.laySlot x) - 1)).toList
    | 3 =>
      if id < 48 then [ofPtime (s.rd (K.IN_TIMING_FRAME_TIME id))]
      else if id < 64 then s.vec (H.eStamps (id - 48))
      else if id < 80 then
        let t := s.rd (K.FRC_SSTAT_LAST_LAT (id - 64) 0)
        if t = 0xFFFFFFFF then [] else [ofPtime (s.rd (K.FRC_FRC_EVT_FRAME_TIME (id - 64))) - t]
      else []
    | _ => [])

/-- The layer that holds the live-layer port of a logical cluster, and the lead of its hop (R261). -/
def State.llpSync (s : State) (e : Nat) (lam : Int) : State :=
  let c := e / 2
  let h := (List.range 16).map (fun l => 16 * c + l) |>.find? (fun x =>
    s.air (K.LAYER_SRC_KIND x) == 3 && s.rd (K.EAS_STATE_TSTATE (x / 8)) != 0)
  let idx := match h with | some x => layIdx x | none => 0
  let live := s.rd (K.EAS_STATE_TSTATE e) != 0 && (List.range 8).any (fun l => s.air (K.LAYER_SRC_KIND (8 * e + l)) == 3)
  s.wrs [(K.EAS_STATE_LLP_HOLDER (2 * c), idx), (K.EAS_STATE_LLP_HOLDER (2 * c + 1), idx),
    (K.EAS_STATE_LIVE_LEAD e, if live then ofInt 32 lam else 0x80000000)]

/-! ## Write-back (R278) -/

/-- The buffer an Easel writes back to, by what is on air. -/
def State.wbBuf (s : State) (e : Nat) : Option Nat :=
  let b := s.air (K.EAS_WB_BUF e)
  if s.air (K.EAS_WB_MODE e) = 0 ∨ 2048 ≤ b then none else some b

/-- WB_DONE: the last line of a ONE_FRAME write-back is written (R278). -/
def execWbDone (e : Fin 16) (s : State) : Host.Outcome State Fault Refusal :=
  let e := e.val
  match s.wbBuf e with
  | none => .next s
  | some b =>
    if s.air (K.EAS_WB_MODE e) ≠ 2 ∨ s.rd (K.EAS_WB_STATE e) ≠ 1 ∨ s.rd (K.EAS_STATE_TSTATE e) = 0 ∨ s.unmapped (48 + e) then .next s else
    -- a frame a failover broke is written again (R351)
    if s.rd (H.wbRedo e) = 1 then .next (s.wr (H.wbRedo e) 0) else
    let s := (s.writeBack e b).count (K.EAS_RUN e 9) 1
    let s := (s.wrs [(K.EAS_WB_STATE e, 2), (H.wbDone e, 1), (K.BUF_WRITER b, 0)]).bufMove b 2
    .next (s.raise 0x4207 (easIdx e) e (s.rd (K.EAS_CANVAS_EVT_FRAME e)))

/-! ## The canvas switch line (R256, R277, R284) -/

/-- The frame of canvas e that the switch line ends: a CONTINUOUS write-back, its shadow mismatches and its counters (R278, R284). -/
def State.canvasEnd (s : State) (e next : Nat) : State :=
  let s : State := match s.wbBuf e with
    | some b => if s.air (K.EAS_WB_MODE e) = 1 then (s.writeBack e b).countFrame (K.EAS_RUN e 9) 1 else s
    | none => s
  let bad := (List.range 64).any (fun p => s.air (K.PRF_CFG_MODE p) == 3 && s.rd (K.PRF_STATUS_STATE p) == 2 &&
    decide (s.rd (K.PRF_CFG_OUT p) < 48) && s.air (K.OUT_ROUTE_SRC (s.routeUnit (s.rd (K.PRF_CFG_OUT p)))) == 48 + e)
  let s : State := if bad then s.countFrame (K.EAS_RUN e 10) 1 else s
  s.latch (K.EAS_RUN e) (K.EAS_LAST e) (K.EAS_TOTAL e) 10 next

/-- Canvas e stops at its switch line: FORMAT 0 has developed (R155, R256). -/
def State.canvasStop (s : State) (e to' frame : Nat) : State :=
  let u := unitEas e
  let s := (((s.wr (H.devPassed u) 0).devRecord u frame (ptime to')).publishAll u).wr (H.liveFrom (e / 2)) 0
  let s := s.leaveAll (64 + e)
  (((s.wrs [(K.EAS_STATE_TSTATE e, 0), (H.easFlip e, 0)]).setVec (H.eStamps e) []).llpSync e 0).developFree u

/-- The frame of canvas e that starts at `to'` with counter `frame`. -/
def State.canvasOpen (s : State) (e to' frame : Nat) (lam : Int) : State :=
  let u := unitEas e
  let s := s.wrs [(K.EAS_CANVAS_EVT_FRAME e, frame), (K.EAS_CANVAS_EVT_FRAME_TIME e, ptime to'), (H.devPassed u, 0)]
  let s := ((s.devRecord u frame (ptime to')).publishAll u).wr (H.liveFrom (e / 2)) 0
  -- references cancelled by a forced free act now (R223)
  let s := (List.range 8).foldl (fun (t : State) l =>
    let x := 8 * e + l
    let t : State := if 65536 ≤ t.rd (K.LAYER_SRC_ID x) then t.publish (K.LAYER_SRC_ID x) else t
    if 65536 ≤ t.rd (K.LAYER_SRC_KEY x) then t.publish (K.LAYER_SRC_KEY x) else t) s
  let s := s.leaveAll (64 + e)
  let flips := (List.range 8).find? (fun l => s.rd (H.layFlip (8 * e + l)) == 1)
  let s := s.wr (H.easFlip e) (match flips with | some l => 8 * e + l + 1 | none => 0)
  let s := (List.range 8).foldl (fun (t : State) l => t.layerStep (8 * e + l) to' frame lam) s
  (((s.setVec (H.eStamps e) (s.canvasStamps e)).llpSync e lam).ringsSync).shadowFrame e

/-- The canvas may start: a format has developed, its family is LOCKED, its cluster is mapped and READY (R124, R256). -/
def State.canvasReady (s : State) (e : Nat) : Bool :=
  s.rd (K.EAS_CANVAS_FORMAT e) != 0 && s.rd (K.GSYN_STATE (s.rd (K.EAS_CANVAS_FAMILY e))) == 3 && !s.unmapped (48 + e)
    && s.funcReady (34 + s.rd (K.CLMAP_PHYS (e / 2))) 0

/-- CANVAS_SWITCH_LINE: the switch line of canvas e, `ns` into the present tick, with the lead measured on its LIVE hop. A stopped canvas
starts here once it may (R124, R256). -/
def execCanvasSwitchLine (e : Fin 16) (ns : Nat) (lam : Int) (s : State) : Host.Outcome State Fault Refusal :=
  let e := e.val
  let to' := s.tod + ns % 1000
  if s.unmapped (48 + e) then .next s
  else if s.rd (K.EAS_STATE_TSTATE e) = 0 then
    if !s.canvasReady e then .next s else
    match fmt (s.rd (K.EAS_CANVAS_FORMAT e)) with
    | none => .next s
    | some f =>
      let t := (to' : Int) - offsetNs (toInt 32 (s.rd (K.EAS_CANVAS_TIMING_OFFSET e))) f.rate
      let frame := familyFrame t.toNat (toInt 32 (s.rd (K.GSYN_PHASE_OFFSET (s.rd (K.EAS_CANVAS_FAMILY e))))) f.rate
      .next ((s.wrs [(K.EAS_STATE_TSTATE e, 1), (K.EAS_RUN e 1, frame)]).canvasOpen e to' frame lam).protSync
  else
    -- a development point of this very tick comes first
    let s : State := if (s.vec H.easDev).contains e then (s.setVec H.easDev ((s.vec H.easDev).filter (fun d => d != e))).canvasDevelop e else s
    let frame := (s.rd (K.EAS_CANVAS_EVT_FRAME e) + 1) % 2 ^ 48
    let stop := s.rd (K.EAS_CANVAS_FORMAT e) == 0
    let s := s.canvasEnd e frame
    .next (if stop then s.canvasStop e to' frame else s.canvasOpen e to' frame lam).protSync

/-! ## Converters (R295, R303, R308) -/

/-- The converter may start. -/
def State.frcReady (s : State) (f : Nat) : Bool :=
  s.rd (K.FRC_OTIM_FORMAT f) != 0 && s.rd (K.GSYN_STATE (s.rd (K.FRC_OTIM_FAMILY f))) == 3 && !s.unmapped (64 + f)
    && s.funcReady (34 + s.rd (K.CLMAP_PHYS (f / 2))) 0

/-- FRC[f] stops at its switch line: FORMAT 0 has developed (R155, R291). -/
def State.frcStop (s : State) (f to' frame : Nat) : State :=
  let u := unitFrc f
  let s := ((s.wr (H.devPassed u) 0).devRecord u frame (ptime to')).publishAll u
  let s := (s.wr (K.FRC_STATE_TSTATE f) 0).upto 4 (fun k t => ((t.frcMove f k 0).setHeld (frcX f k) []).wrs [(H.frcA (frcX f k), 0),
    (H.frcB (frcX f k), 0), (K.FRC_SSTAT_LAST_LAT f k, 0xFFFFFFFF)])
  s.developFree u

/-- The frame of FRC[f] that starts at `to'` with counter `frame`. -/
def State.frcOpen (s : State) (f to' frame : Nat) : State :=
  let u := unitFrc f
  let s := s.wrs [(K.FRC_FRC_EVT_FRAME f, frame), (K.FRC_FRC_EVT_FRAME_TIME f, ptime to'), (H.devPassed u, 0)]
  let s := (s.devRecord u frame (ptime to')).publishAll u
  (s.upto 4 (fun k t => t.frcStream f k to')).ringsSync

/-- FRC_SWITCH_LINE: the output switch line of FRC[f], `ns` into the present tick; a stopped converter starts here once it may (R124,
R295). -/
def execFrcSwitchLine (f : Fin 16) (ns : Nat) (s : State) : Host.Outcome State Fault Refusal :=
  let f := f.val
  let to' := s.tod + ns % 1000
  if s.unmapped (64 + f) then .next s
  else if s.rd (K.FRC_STATE_TSTATE f) = 0 then
    if !s.frcReady f then .next s else
    match fmt (s.rd (K.FRC_OTIM_FORMAT f)) with
    | none => .next s
    | some g =>
      let t := (to' : Int) - offsetNs (toInt 32 (s.rd (K.FRC_OTIM_TIMING_OFFSET f))) g.rate
      let frame := familyFrame t.toNat (toInt 32 (s.rd (K.GSYN_PHASE_OFFSET (s.rd (K.FRC_OTIM_FAMILY f))))) g.rate
      .next (((s.wrs [(K.FRC_STATE_TSTATE f, 1), (K.FRC_RUN f 1, frame)]).frcStart f).frcOpen f to' frame).protSync
  else
    let frame := (s.rd (K.FRC_FRC_EVT_FRAME f) + 1) % 2 ^ 48
    let s := s.latch (K.FRC_RUN f) (K.FRC_LAST f) (K.FRC_TOTAL f) 10 frame
    .next (if s.rd (K.FRC_OTIM_FORMAT f) = 0 then s.frcStop f to' frame else s.frcOpen f to' frame).protSync

/-! ## Proof regions (R280 to R282) -/

/-- Block index of PRF[p]. -/
def prfIdx (p : Nat) : Nat := 0x5C00 + 0x10 * p

/-- The action of a region whose run has reached its limit (R282). -/
def State.prfAction (s : State) (p n : Nat) : State :=
  let a := s.air (K.PRF_CFG_ACTION p)
  let s := (s.wr (K.PRF_STATUS_ACTION_FRAME p) (s.rd (K.OUT_EVT_FRAME n))).raise 0x4304 (prfIdx p) (p * 256 + n) a
  if a = 1 then (if s.rd (K.OUT_BRACKET_ROLE n) = 1 then s.takeover n 2 else s.partnerFails n)
  else if a = 2 ∧ s.rd (K.OUT_SLATE_STATE n) = 1 then s.wrs [(H.slatePend n, 1), (H.slateCause n, 1)] else s

/-- A signature equals its expected value, or does not; PROOF_MATCH tells how many frames in a row did not (R282, R285). -/
def State.prfResult (s : State) (p n sig : Nat) (same : Bool) : State :=
  let run := s.rd (K.PRF_STATUS_RUN p)
  let bad := s.rd (H.prfBad p)
  if same then
    let s : State := if 0 < bad then s.raise 0x4302 (prfIdx p) (p * 256 + n) bad else s
    let s := s.wrs [(K.PRF_STATUS_STATE p, 1), (K.PRF_STATUS_RUN p, 0), (H.prfBad p, 0)]
    -- the cause of a takeover by Proof ends with the last region that asked for it (R170)
    let more := (List.range 64).any (fun q => s.rd (K.PRF_CFG_OUT q) == n && s.air (K.PRF_CFG_MODE q) != 0 && s.air (K.PRF_CFG_ACTION q) == 1
      && s.rd (K.PRF_STATUS_STATE q) == 2)
    if s.rd (H.tkCause n) = 3 ∧ !more then s.wr (H.tkCause n) 0 else s
  else
    let s : State := if 0 < bad then s else s.raise 0x4301 (prfIdx p) (p * 256 + n) sig
    let s := s.incSat (H.prfBad p) 1 0xFFFFFFFF
    let s := ((s.wr (K.PRF_STATUS_STATE p) 2).incSat (K.PRF_STATUS_RUN p) 1 255).incSat (K.PRF_STATUS_MISMATCHES p) 1 0xFFFFFFFF
    if run + 1 = s.air (K.PRF_CFG_MISMATCH_FRAMES p) then s.prfAction p n else s

/-- PROOF_SIGNATURE: the last active sample of region p is sent; its signature is final and is compared (R280 to R283). -/
def execProofSignature (p : Fin 64) (s : State) : Host.Outcome State Fault Refusal :=
  let p := p.val
  let n := s.rd (K.PRF_CFG_OUT p)
  let mode := s.air (K.PRF_CFG_MODE p)
  if 48 ≤ n ∨ mode = 0 ∨ s.rd (K.OUT_TSTATE n) = 0 then .next s else
  let fin (v : Nat) : Nat := v ^^^ 0xFFFFFFFF
  let sig := fin (s.rd (H.prfCrc p))
  let s := s.wrs [(K.PRF_STATUS_SIG p, sig), (K.PRF_STATUS_SIG_FRAME p, s.rd (K.OUT_EVT_FRAME n))]
  if mode = 3 then
    let src := s.air (K.OUT_ROUTE_SRC (s.routeUnit n))
    if 48 ≤ src ∧ src < 64 ∧ s.rd (K.EAS_STATE_SHADOW (src - 48)) = 1 ∧ s.rd (H.prfRows p) = 0 then
      let sh := fin (s.rd (H.prfShadow p))
      .next ((s.wr (K.PRF_STATUS_SHADOW_SIG p) sh).prfResult p n sig (sig == sh))
    else .next (s.wr (K.PRF_STATUS_STATE p) 3)
  else
    let s : State := if mode = 2 ∧ s.rd (H.prfLearn p) = 1 then
        (s.wrs [(H.prfLearn p, 0), (K.PRF_EXPECTED p, sig)]).raise 0x4303 (prfIdx p) (p * 256 + n) sig
      else s
    .next (s.prfResult p n sig (sig == s.rd (K.PRF_EXPECTED p)))

/-- A write of LEARN: 1 learns the next signature in MODE 2, BUSY in the other modes (R281). -/
def proofLearnWrite (p v : Nat) (s : State) : Ans :=
  if s.rd (K.PRF_CFG_MODE p) ≠ 2 then ansBusy s
  else ansOk (s.wrs [(K.PRF_LEARN p, v), (H.prfLearn p, 1), (K.PRF_STATUS_STATE p, 4)])

/-- A write of CFG.OUT: BUSY unless the developed MODE is OFF and the Latent set holds no value of the region (R279). -/
def prfOutWrite (p v : Nat) (s : State) : Ans :=
  if s.rd (K.PRF_CFG_MODE p) ≠ 0 ∨ s.lat.any (fun l => decide (prfIdx p * 256 ≤ l.1) && decide (l.1 < (prfIdx p + 16) * 256)) then ansBusy s
  else ansOk (s.wr (K.PRF_CFG_OUT p) v)

end Sys2Proof.Machine
end

