-- ==== Sys2Proof/Machine/Audio.lean ====
section
/-! DEFINITION. Embedded audio: de-embedding, history lines, destinations with delay, clock, gain, crossfade and non-PCM, and the switch
line of an output with its destinations (spec/14 R311 to R331). -/
namespace Sys2Proof.Machine

/-- Block index of AIN[n]. -/
def ainIdx (n : Nat) : Nat := 0x7800 + 0x10 * n
/-- Index of AUD.DST[d]. -/
def dstIdx (d : Nat) : Nat := 0x7000 + d

/-- A sample period of 48 kHz times `k`, in ns. -/
def samplesNs (k : Nat) : Nat := divRound (k * 125000) 6

/-- The nearest number of sample periods to a time in ns. -/
def nsSamples (ns : Nat) : Nat := divRound (ns * 6) 125000

/-! ## De-embedding (R312, R313) -/

/-- The first channel of a group of an input, as a source number. -/
def groupSrc (n g : Nat) : Nat := 32 * n + 4 * g

/-- Put a sample into a history line, which holds 4,040 ms (R314). -/
def State.histPut (s : State) (c at' v : Nat) : State :=
  let l := pairsOf (s.vec (H.audHist c))
  s.setVec (H.audHist c) (unpairs ((at', v) :: l.filter (fun p => decide (at' < p.1 + 4040000000))))

/-- The newest sample of a history line. -/
def State.histNewest (s : State) (c : Nat) : Option (Nat × Nat) := (pairsOf (s.vec (H.audHist c))).head?

/-- A sample of one channel arrives: the periods since the one before repeat that one, each counted as held (R313). -/
def State.sampleIn (s : State) (n c at' v : Nat) : State :=
  let src := 32 * n + c
  let gap := match s.histNewest src with
    | some p => if s.rd (H.ainLast src) = 0 then 0 else nsSamples (at' - p.1) - 1
    | none => 0
  let s : State := if gap = 0 ∨ 64 ≤ gap then s else
    let p := (s.histNewest src).getD (0, 0)
    ((List.range gap).foldl (fun (t : State) k => t.histPut src (p.1 + samplesNs (k + 1)) p.2) (s.count (K.AIN_RUN n 6) gap)).wr
      (H.ainGap (8 * n + c / 4)) 1
  (s.histPut src at' (v % 2 ^ 24)).wr (H.ainLast src) (s.now + 1)

/-- RATE of an input: 2 when some group declares another rate, 1 when one is there, 0 none (R312). -/
def State.ainRateSync (s : State) (n : Nat) : State :=
  let gs := (List.range 8).filter (fun g => s.bit (K.AIN_STAT_GROUPS n) g)
  s.wr (K.AIN_STAT_RATE n) (if gs.any (fun g => s.rd (H.ainRate (8 * n + g)) == 2) then 2 else if gs.isEmpty then 0 else 1)

/-- The offset of a family's audio clock against XO_IN, in ppb: its selector's and its own (R91, R112, R315). -/
def State.famPpb (s : State) (g : Nat) : Int := toInt 64 (s.rd (K.SEL_NCO (s.rd (K.GSYN_SEL g)))) / 2 ^ 32 + (s.gNow g).1

/-- The measured audio rate of an input is compared with every family's audio clock (R315). -/
def State.ainRateSeen (s : State) (n : Nat) (ppb : Int) : State :=
  let s := s.wrI 32 (K.AIN_STAT_RATE_OFFSET n) ppb
  let s : State := if s.rd (H.rateFrom n) = 0 then s.wr (H.rateFrom n) (s.now + 1) else s
  s.upto 8 (fun g t => if 1000 < (ppb - t.famPpb g).natAbs then t.wr (H.rateBad (8 * n + g)) (t.now + 1) else t)

/-- A burst of ST 337 data begins in a packet of group g (R323). -/
def State.burstIn (s : State) (n g : Nat) (b : Nat × Nat × Nat × Nat × Nat) : State :=
  let j := (2 * g + b.1 % 2) % 16
  let x := 16 * n + j
  let s := (s.count (K.AIN_RUN n 7) 1).wrs [(K.AIN_DATATYPE_PAIR n j, b.2.1 % 256), (H.npAt x, s.now + 1), (H.npMode x, b.2.2.1)]
  let s := s.setVec (H.npHist x) ((b.2.2.2.1 :: b.2.2.2.2 :: s.vec (H.npHist x)).take 256)
  if s.bit (K.AIN_STAT_NONPCM n) j then s.inc (H.npBursts x) 1 (2 ^ 32)
  else ((s.setBit (K.AIN_STAT_NONPCM n) j true).wr (H.npBursts x) 1).raise 0x6004 (ainIdx n) (n * 256 + j) (b.2.1 % 256)

/-- An audio packet with an error is reported, once a second (R312). -/
def State.audioBad (s : State) (n : Nat) : State := s.raiseLim (2900 + n) 0x6003 (ainIdx n) (fun k => (n, k))

/-- AUDIO_PACKET: a de-embedded audio packet of IN[n] is corrected or discarded; its samples enter the history lines (R312 to R314, R323). -/
def execAudioPacket (n : Fin 48) (p : AudioPkt) (s : State) : Host.Outcome State Fault Refusal :=
  let n := n.val
  let g := p.group % 8
  let x := 8 * n + g
  let mapping := s.rd (K.IN_STAT_MAPPING n)
  -- groups 5 to 8 exist on level B-DL, 6G and 12G only
  if s.rd (K.IN_STAT_STATE n) < 3 ∨ (4 ≤ g ∧ mapping ≠ 4 ∧ mapping ≠ 5 ∧ mapping ≠ 6) then .next s else
  let s := s.count (K.AIN_RUN n 2) 1
  if p.result = 2 then .next ((s.count (K.AIN_RUN n 4) 1).audioBad n) else
  let s : State := if p.result = 1 then s.count (K.AIN_RUN n 3) 1 else s
  if p.control then
    let rate := if p.rate = 1 then 1 else 2
    let was := s.rd (H.ainRate x)
    let s := ((s.wr (H.ainRate x) rate).setBit (K.AIN_STAT_SYNC n) g p.sync).ainRateSync n
    .next (if rate = 2 ∧ was ≠ 2 then s.raise 0x6002 (ainIdx n) n ((g + 1) * 256 + p.rate % 256) else s)
  else
    let s : State := if p.dbnOk then s else (s.count (K.AIN_RUN n 5) 1).audioBad n
    let s := (s.setBit (K.AIN_STAT_GROUPS n) g true).setBit (K.AIN_STAT_WORD24 n) g p.word24
    -- a group without a control packet counts as 48 kHz synchronous (R312)
    let s : State := if s.rd (H.ainRate x) = 0 then s.setBit (K.AIN_STAT_SYNC n) g true else s
    let silent := s.rd (H.ainRate x) == 2
    -- a 20-bit SD sample takes the upper bits (R312)
    let word (v : Nat) : Nat := if silent then 0 else if mapping = 1 ∧ !p.word24 then v % 2 ^ 20 * 16 else v
    let s := (List.zip (List.range p.frames.length) p.frames).foldl (fun (t : State) f =>
      (List.range 4).foldl (fun u i => u.sampleIn n (4 * g + i) (p.at' + samplesNs f.1) (word (f.2.getD i 0))) t) s
    let s := ((s.wr (H.ainGot x) 1).ainRateSync n).ainRateSeen n p.ppb
    let s := p.bursts.foldl (fun (t : State) b => t.burstIn n g b) s
    .next (p.cs.foldl (fun (t : State) c => t.wr (K.AIN_CS_PAIR n ((2 * g + c.1 % 2) % 16)) (c.2 % 2 ^ 192)) s)

/-- STAT.PRESENT changes, with its event. -/
def State.setPresent (s : State) (n v : Nat) : State :=
  if s.rd (K.AIN_STAT_PRESENT n) = v then s else (s.wr (K.AIN_STAT_PRESENT n) v).raise 0x6001 (ainIdx n) n v

/-- The frame boundary of an input for its audio: groups present throughout two frames have their channels present; the counters latch
(R313, R329). -/
def State.ainFrame (s : State) (n frame : Nat) : State :=
  let s := s.upto 8 (fun g t =>
    let x := 8 * n + g
    let live := (List.range 4).all (fun i =>
      let l := t.rd (H.ainLast (groupSrc n g + i)); l != 0 && decide (t.now < l - 1 + 1334))
    let run := if t.rd (H.ainGot x) = 1 ∧ t.rd (H.ainGap x) = 0 ∧ live then t.rd (H.ainRun x) + 1 else 0
    let t := t.wrs [(H.ainRun x, min run 65535), (H.ainGot x, 0), (H.ainGap x, 0)]
    if 2 ≤ run then t.setPresent n (t.rd (K.AIN_STAT_PRESENT n) ||| 15 * 16 ^ g) else t)
  s.latch (K.AIN_RUN n) (K.AIN_LAST n) (K.AIN_TOTAL n) 7 frame

/-! ## Gain and tones (R317, R318) -/

/-- The integer nearest to base times 10^(e/200), halves away from zero: the largest g with 2 g - 1 at most twice it, by its bits. -/
def decibel (base : Nat) (e : Int) (bits : Nat) : Nat :=
  let up := 10 ^ e.toNat
  let dn := 10 ^ (-e).toNat
  (List.range bits).foldl (fun acc i =>
    let g := acc + 2 ^ (bits - 1 - i)
    if (2 * g - 1) ^ 200 * dn ≤ (2 * base) ^ 200 * up then g else acc) 0

/-- The gain factor of a GAIN in 0.1 dB (R317). -/
def gainFactor (gain : Int) : Nat := if gain ≤ -900 then 0 else decibel (2 ^ 20) gain 23

/-- A 24-bit sample times a gain factor (R317). -/
def gainApply (g : Nat) (x : Int) : Int := max (-8388608) (min 8388607 ((x * g + 2 ^ 19) / 2 ^ 20))

/-- Factor k of a ramp over `m` samples (R317). -/
def rampFactor (old new : Nat) (k m : Nat) : Nat :=
  if m ≤ k then new else ((old : Int) + (((new : Int) - old) * k + (m / 2 : Nat)) / (m : Int)).toNat

/-- π in units of 2^-80. -/
def piQ : Int := 3797952473636338580787994

/-- The Taylor terms of the sine of `a` (square `a2`), from term `t` of degree `n` on. -/
def sinTerms (a2 : Int) : Nat → Int → Nat → Int
  | 0, t, _ => t
  | k + 1, t, n => t + sinTerms a2 k (-(t * a2 / 2 ^ 80) / ((n + 1) * (n + 2) : Nat)) (n + 2)

/-- sin(π n / d) in units of 2^-80. -/
def sinPi (n : Int) (d : Nat) : Int :=
  let m := (n + d) % (2 * d : Nat) - d
  let r : Int := if d < 2 * m.natAbs then (if m < 0 then -(d : Int) - m else d - m) else m
  let a := r * piQ / d
  sinTerms (a * a / 2 ^ 80) 20 a 1

/-- A sample of TONE[t] at a phase (R318). -/
def State.toneSample (s : State) (t ph : Nat) : Int :=
  if s.rd (K.TONE_ENABLE t) = 0 then 0 else
  roundAway ((decibel 8388607 (toInt 16 (s.rd (K.TONE_LEVEL t))) 24 : Int) * sinPi (2 * (ph % 48000000) : Nat) 48000000) (2 ^ 80)

/-- Crossfade of R322: sample k of N. -/
def crossfade (old new : Int) (k n : Nat) : Int := (old * ((n : Int) - k) + new * k + (n / 2 : Nat)) / (n : Int)

/-! ## What a destination reads (R314, R322) -/

/-- The sample of a history line nearest to an instant; before the newest one is delivered, the newest (R313, R322). -/
def State.histAt (s : State) (c tau : Nat) : Int :=
  match (pairsOf (s.vec (H.audHist c))).find? (fun p => decide (p.1 ≤ tau + 10416)) with
  | some p => toInt 24 p.2
  | none => 0

/-- The interpolated value of a history line at an instant (R315, R316). -/
def State.histAsrc (s : State) (c tau : Nat) : Int :=
  let l := ((pairsOf (s.vec (H.audHist c))).filter (fun p => decide (p.1 ≤ tau + 333333) && decide (tau ≤ p.1 + 333333))).reverse
  match l with
  | [] => s.histAt c tau
  | a :: _ => toInt 24 (Config.asrc (l.map Prod.snd) (tau - a.1) % 2 ^ 24)

/-- The source number a destination reads for an input's channel: a Bracket primary is read from the input adopted, or, past what that
one delivered, from the input active now (R322). -/
def State.bracketSrc (s : State) (d c tau : Nat) : Nat :=
  let n := c / 32
  if s.rd (K.IN_BRACKET_ROLE n) ≠ 1 then c else
  let a := if s.rd (H.audAct d) = 0 then n else s.rd (H.audAct d) - 1
  let now := if s.rd (K.IN_BRACKET_ACTIVE n) < 48 then s.rd (K.IN_BRACKET_ACTIVE n) else n
  let have' := match s.histNewest (32 * a + c % 32) with | some p => decide (tau ≤ p.1) | none => false
  if a == now || have' then 32 * a + c % 32 else 32 * now + c % 32

/-- One configuration of a destination's mix: source, delay in ns, clock, crossfade length, samples done. -/
structure Mix where
  src : Nat
  delay : Nat
  clk : Nat
  n : Nat
  k : Nat
deriving DecidableEq, Repr

/-- The configurations a list of numbers holds. -/
def mixes : List Nat → List Mix
  | a :: b :: c :: d :: e :: t => ⟨a, b, c, d, e⟩ :: mixes t
  | _ => []

/-- Configurations as numbers. -/
def unmixes (l : List Mix) : List Nat := l.flatMap (fun m => [m.src, m.delay, m.clk, m.n, m.k])

/-- The delay applied now: a slew moves it by SLEW_RATE (R320). -/
def State.audD (s : State) (d : Nat) : Nat :=
  if s.rd (H.audGoal d) = 0 then s.rd (K.DST_DELAY_ACTIVE d) else
  let goal := s.rd (H.audGoal d) - 1
  let from' := s.rd (H.audFrom d)
  let moved := (s.now - s.rd (H.audAt d)) * s.rd K.AUD_SLEW_RATE / 1000
  if goal ≤ from' then max goal (from' - moved) else min goal (from' + moved)

/-- A write of AUD.SLEW_RATE: the slews go on at the new rate from where they are (R320, R330). -/
def slewRateWrite (v : Nat) (s : State) : Ans :=
  ansOk ((s.upto 1536 (fun d t => if t.rd (H.audGoal d) = 0 then t
    else t.wrs [(H.audFrom d, t.audD d), (H.audAt d, t.now)])).wr K.AUD_SLEW_RATE v)

/-- The value of a configuration at instant `t`; the newest one has the applied delay and, in a slew, interpolates (R314, R320). -/
def State.mixValue (s : State) (d t : Nat) (m : Mix) (top : Bool) : Int :=
  if m.src < 1536 then
    let delay := if top then s.audD d else m.delay
    let tau := t - delay
    let c := s.bracketSrc d m.src tau
    -- the half's history lines hold nothing older than their clearing
    if tau < s.rd (H.audSince (d / 768)) then 0 else
    if m.clk = 1 ∧ !(top && s.rd (H.audGoal d) != 0) then s.histAt c tau else s.histAsrc c tau
  else if m.src < 1552 then s.toneSample (m.src - 1536) (s.rd (H.tonePh (16 * d + (m.src - 1536))))
  else 0

/-- Every configuration's value with gain, crossfaded in turn (R317, R322). -/
def State.mixOut (s : State) (d t g : Nat) (l : List Mix) : Int :=
  match l with
  | [] => 0
  | m0 :: r =>
    let v (m : Mix) (top : Bool) : Int := gainApply g (s.mixValue d t m top)
    (r.foldl (fun (a : Int × Nat) m =>
      let new := v m (decide (a.2 + 2 = l.length))
      (if m.k < m.n then crossfade a.1 new m.k m.n else new, a.2 + 1)) (v m0 r.isEmpty, 0)).1

/-- One sample on: crossfades advance, and a finished one leaves only the new side (R322). -/
def mixStep (l : List Mix) : List Mix :=
  let l := l.map (fun m => { m with k := min (m.k + 1) m.n })
  l.foldl (fun a m => if m.n ≤ m.k then [m] else a ++ [m]) []

/-- A new configuration comes in, over N samples (R322). -/
def State.audPush (s : State) (d src delay clk n : Nat) : State :=
  let l := mixes (s.vec (H.audMix d))
  -- the side that was on top keeps the delay it had
  let l := match l.reverse with | m :: r => r.reverse ++ [{ m with delay := s.audD d }] | [] => []
  (s.setVec (H.audMix d) (unmixes (if n = 0 then [⟨src, delay, clk, 0, 0⟩] else l ++ [⟨src, delay, clk, n, 0⟩]))).inc
    (K.DST_SWITCHES d) 1 (2 ^ 32)

/-! ## State of a destination (R311, R322 to R324, R328) -/

/-- Channels an output's embedder takes (R167). -/
def capOf (c mapping : Nat) : Nat := if 17 ≤ c ∨ (14 ≤ c ∧ mapping = 1) then 32 else 16

/-- The output of a destination sends no audio of its own, or not this channel (R167, R327). -/
def State.notSent (s : State) (d : Nat) : Bool :=
  let n := d / 32
  decide (capOf (s.air (K.OUT_FORMAT n)) (s.air (K.OUT_MAPPING n)) ≤ d % 32) || s.rd (K.OUT_BRACKET_ROLE n) == 2

/-- Why a source is lost, if it is: 1 input not valid, 2 rate, 0 absent (R322, R331). -/
def State.srcLost (s : State) (c : Nat) : Option Nat :=
  if 1536 ≤ c then none else
  -- a pair is read from the input in use (R322)
  let n := s.inUse (c / 32)
  if s.rd (K.IN_STAT_STATE n) ≠ 4 then some 1
  else if s.rd (H.ainRate (8 * n + c % 32 / 4)) = 2 then some 2
  else if s.bit (K.AIN_STAT_PRESENT n) (c % 32) then none else some 0

/-- A destination's source channel carries non-PCM (R323). -/
def State.srcNonPcm (s : State) (c : Nat) : Bool := decide (c < 1536) && s.bit (K.AIN_STAT_NONPCM (s.inUse (c / 32))) (c % 32 / 2)

/-- The output sends 20-bit audio (R325). -/
def State.sd20 (s : State) (d : Nat) : Bool :=
  (s.air (K.OUT_FORMAT (d / 32)) == 1 || s.air (K.OUT_FORMAT (d / 32)) == 2) && s.rd K.AUD_SD_EXT == 0

/-- A pair of destinations may carry the non-PCM pair it reads; the second answer says that only the clock forbids it (R324). -/
def State.npPass (s : State) (d : Nat) : Bool × Bool :=
  let e := d / 2 * 2
  let a := s.air (K.DST_SRC e)
  let pair := a < 1536 && a % 2 == 0 && s.air (K.DST_SRC (e + 1)) == a + 1
    && !(s.sd20 d && s.rd (H.npMode (16 * s.inUse (a / 32) + a % 32 / 2)) == 24)
  let clk := s.rd (K.DST_CLOCK e) == 1 && s.rd (K.DST_CLOCK (e + 1)) == 1
  (pair && clk, pair && !clk)

/-- STATE of a destination (R328). -/
def State.dstState (s : State) (d : Nat) : Nat :=
  let c := s.air (K.DST_SRC d)
  if s.notSent d then 5
  else if 1552 ≤ c then 0
  else if s.rd (H.audLost d) ≠ 0 then 3
  else if s.srcNonPcm c then (if (s.npPass d).1 then 2 else 4)
  else 1

/-- The source of a destination is lost or returns: it fades, with the event (R322). -/
def State.audCheck (s : State) (d : Nat) : State :=
  let c := s.air (K.DST_SRC d)
  if s.rd (H.audSrc d) ≠ c + 1 then s else
  let x := s.air (K.DST_XFADE d)
  match s.srcLost c, s.rd (H.audLost d) with
  | some cause, 0 =>
    ((s.wrs [(H.audLost d, cause + 1), (H.audSilent d, 0)]).audPush d 0xFFFF (s.audD d) 1 x).raise 0x6006 (dstIdx d) d (c * 65536 + cause)
  | none, l + 1 =>
    let _ := l
    let s := (s.raise 0x6007 (dstIdx d) d (s.rd (H.audSilent d))).wrs [(H.audLost d, 0), (H.audSilent d, 0)]
    if s.rd (K.DST_CLOCK d) = 3 then s else s.audPush d c (s.audD d) (s.rd (K.DST_CLOCK d)) x
  | _, _ => s

/-- Offset of a source's rate from the output's audio clock, in ppb (R316, RATIO). -/
def State.audRatio (s : State) (d : Nat) : Int :=
  let c := s.air (K.DST_SRC d)
  if 1536 ≤ c then 0
  else s.rdI 32 (K.AIN_STAT_RATE_OFFSET (s.inUse (c / 32))) - s.famPpb (s.air (K.OUT_FAMILY (d / 32)))

/-- The ratio leaves the range of the ASRC: RANGE, and a fade to silence (R316). -/
def State.audRange (s : State) (d : Nat) : State :=
  let r := s.audRatio d
  let s := s.wrI 32 (K.DST_RATIO d) r
  let s : State := if 1900000 < r.natAbs then s.wr (H.audIn d) 0 else if s.rd (H.audIn d) = 0 then s.wr (H.audIn d) (s.now + 1) else s
  if s.rd (K.DST_CLOCK d) ≠ 2 ∨ r.natAbs ≤ 2000000 then s else
  let s := s.wr (K.DST_CLOCK d) 3
  let s : State := if s.rd (H.audLost d) ≠ 0 then s else s.audPush d 0xFFFF (s.audD d) 1 (s.air (K.DST_XFADE d))
  s.raise 0x6009 (dstIdx d) d (ofInt 32 r)

/-- ASRC_RECOVER: the ratio has stayed within 1,900 ppm for 1 s; the destination fades in again (R316). -/
def execAsrcRecover (d : Fin 1536) (s : State) : Host.Outcome State Fault Refusal :=
  let d := d.val
  let from' := s.rd (H.audIn d)
  if s.rd (K.DST_CLOCK d) ≠ 3 ∨ from' = 0 ∨ s.now < from' - 1 + 1000000 then .next s else
  let s := s.wr (K.DST_CLOCK d) 2
  .next (if s.rd (H.audLost d) ≠ 0 then s else s.audPush d (s.air (K.DST_SRC d)) (s.audD d) 2 (s.air (K.DST_XFADE d)))

/-! ## Non-PCM switches (R324) -/

/-- Instant `tau` of a non-PCM pair lies in a guard band: no burst holds it. -/
def State.guardBand (s : State) (c tau : Nat) : Bool :=
  !(pairsOf (s.vec (H.npHist (16 * s.inUse (c / 32) + c % 32 / 2)))).any (fun b => decide (b.1 ≤ tau) && decide (tau < b.2))

/-- A pending switch of a non-PCM pair takes place at instant `t`: zero until the new source's next burst, or a fade in of PCM (R324). -/
def State.npSwitch (s : State) (d t : Nat) : State :=
  match s.vec (H.npCfg d) with
  | [src, delay, clk] =>
    let s := (s.wrs [(H.npPend d, 0), (K.DST_DELAY_ACTIVE d, delay), (H.audGoal d, 0)]).setVec (H.npCfg d) []
    if s.srcNonPcm src then (s.audPush d src delay clk 0).wr (H.npZero d) (t - delay + 1)
    else
      let s := s.setVec (H.audMix d) (unmixes [⟨0xFFFF, delay, 1, 0, 0⟩])
      (s.audPush d src delay clk (s.air (K.DST_XFADE d))).wr (H.npZero d) 0
  | _ => s.wr (H.npPend d) 0

/-- NONPCM_FORCED_SWITCH: no guard band within NONPCM_WAIT samples (R324). -/
def execNonpcmForcedSwitch (d : Fin 1536) (s : State) : Host.Outcome State Fault Refusal :=
  let d := d.val
  let w := s.rd (H.npPend d)
  if w = 0 ∨ w - 1 < s.rd K.AUD_NONPCM_WAIT then .next s else
  .next ((s.npSwitch d s.tod).raise 0x600D (dstIdx d) d (w - 1))

/-- NONPCM_END: NONPCM_HOLD sample periods have passed without a preamble (R323). -/
def execNonpcmEnd (n : Fin 48) (j : Fin 16) (s : State) : Host.Outcome State Fault Refusal :=
  let n := n.val
  let j := j.val
  let x := 16 * n + j
  if !s.bit (K.AIN_STAT_NONPCM n) j ∨ (s.now + 1 - s.rd (H.npAt x)) * 6 < s.rd K.AUD_NONPCM_HOLD * 125 then .next s else
  .next ((s.setBit (K.AIN_STAT_NONPCM n) j false).wr (K.AIN_DATATYPE_PAIR n j) 0 |>.raise 0x6005 (ainIdx n) (n * 256 + j) (s.rd (H.npBursts x)))

/-! ## A sample (R314, R316, R317, R322, R324, R325) -/

/-- The sample of a non-PCM pair: the source's own, without gain or fade; zero after a switch until the next burst (R324). -/
def State.npSample (s : State) (d t : Nat) : Int :=
  match (mixes (s.vec (H.audMix d))).getLast? with
  | none => 0
  | some m =>
    if 1536 ≤ m.src then 0 else
    let tau := t - s.rd (K.DST_DELAY_ACTIVE d)
    let z := s.rd (H.npZero d)
    let x := 16 * s.inUse (m.src / 32) + m.src % 32 / 2
    if z ≠ 0 ∧ !(pairsOf (s.vec (H.npHist x))).any (fun b => decide (z ≤ b.1 + 1) && decide (b.1 ≤ tau)) then 0
    else s.histAt (s.bracketSrc d m.src tau) tau

/-- The gain of a destination goes on by a sample: a new target begins a ramp (R317). -/
def State.gainStep (s : State) (d : Nat) : Nat × State :=
  let get (k : Nat) : Nat := if s.rd k = 0 then 2 ^ 20 else s.rd k - 1
  let want := if s.air (K.DST_MUTE d) = 1 then 0 else gainFactor (toInt 16 (s.air (K.DST_GAIN d)))
  let m := s.rd K.AUD_GAIN_RAMP
  let cur := rampFactor (get (H.audGOld d)) (get (H.audGNew d)) (s.rd (H.audGK d)) m
  let s : State := if want = get (H.audGNew d) then s else s.wrs [(H.audGOld d, cur + 1), (H.audGNew d, want + 1), (H.audGK d, 0)]
  let get' (k : Nat) : Nat := if s.rd k = 0 then 2 ^ 20 else s.rd k - 1
  let g := rampFactor (get' (H.audGOld d)) (get' (H.audGNew d)) (s.rd (H.audGK d)) m
  (g, s.up (H.audGK d) (fun k => min (k + 1) 4096))

/-- What the embedder sends of a 24-bit sample (R325). -/
def embedSample (sd20 : Bool) (y : Int) : Nat := if sd20 then ofInt 20 (min 524287 ((y + 8) / 16)) else ofInt 24 y

/-- AUDIO_SAMPLE: an output sample instant of AUD.DST[d], `ns` into the present tick. -/
def execAudioSample (d : Fin 1536) (ns : Nat) (s : State) : Host.Outcome State Fault Refusal :=
  let d := d.val
  let n := d / 32
  if s.rd (K.OUT_TSTATE n) = 0 ∨ !s.pdUsable (51 + d / 768) then .next (s.wr (H.audWire d) 0) else
  let t := s.tod + ns % 1000
  let s := (s.audRange d).audCheck d
  let s : State := if s.rd (H.audLost d) = 0 then s else s.inc (H.audSilent d) 1 (2 ^ 32)
  -- a switch of a non-PCM pair waits for a guard band
  let top := (mixes (s.vec (H.audMix d))).getLast?
  let s : State := if s.rd (H.npPend d) = 0 then s else
    let guard := match top with
      | some m => decide (1536 ≤ m.src) || s.guardBand m.src (t - s.rd (K.DST_DELAY_ACTIVE d))
      | none => true
    if guard then s.npSwitch d t else s.inc (H.npPend d) 1 (2 ^ 32)
  let g := s.gainStep d
  let s := g.2
  let st := s.dstState d
  let l := mixes (s.vec (H.audMix d))
  let c := s.air (K.DST_SRC d)
  let np := s.srcNonPcm c && s.rd (H.audLost d) == 0 && decide (c < 1536)
  let pass := s.npPass d
  let y : Int := if np then (if pass.1 then s.npSample d t else 0) else s.mixOut d t g.1 l
  -- non-PCM stopped by the clock is reported once (R324)
  let s : State := if np && pass.2 then (if s.rd (H.audAsync d) = 1 then s else (s.wr (H.audAsync d) 1).raise 0x600E (dstIdx d) d c)
    else s.wr (H.audAsync d) 0
  -- every tone in the mix runs on (R318)
  let s := s.upto 16 (fun i t => if c = 1536 + i ∨ l.any (fun m => m.src == 1536 + i)
    then t.inc (H.tonePh (16 * d + i)) (t.rd (K.TONE_FREQ i)) 48000000 else t)
  let s := s.setVec (H.audMix d) (unmixes (mixStep l))
  let s := s.wrs [(H.audOut d, ofInt 24 y), (H.audWire d, if s.notSent d then 0 else embedSample (s.sd20 d) y + 1), (K.DST_STATE d, st)]
  .next (if d % 2 = 1 then s else
    let passCs := s.air (K.DST_CS_MODE d) = 1 ∧ c < 1536
    s.wr (H.csOut d) (Config.channelStatus (if passCs then s.rd (K.AIN_CS_PAIR (s.inUse (c / 32)) (c % 32 / 2)) else 0)
      (if st = 2 then 1 else 0) (if s.sd20 d then 20 else 24) % 2 ^ 192))

/-! ## Delay-follow and changes at a switch line (R315, R319 to R321) -/

/-- The inputs on the path of a source, stream k of it where it is an FRC, each with the stamp its picture carries now, in ns of the output's time line: an FRC contributes its
display delay (R319). The stamp is none where the frame carries no measurement. -/
def State.pathStamps (s : State) : Nat → Nat → Nat → List (Nat × Option Nat)
  | 0, _, _ => []
  | fuel + 1, src, k =>
    if src < 48 then [(src, some (ofPtime (s.rd (K.IN_TIMING_FRAME_TIME src))))]
    else if src < 64 then (List.range 8).flatMap (fun l =>
      let x := 8 * (src - 48) + l
      let id := s.air (K.LAYER_SRC_ID x)
      let lost := s.rd (H.layLost x) == 1
      match s.air (K.LAYER_SRC_KIND x) with
      | 2 => [(id, if lost || s.rd (H.laySlot x) == 0 then none else s.slotStamp (s.rd (H.layRing x) - 1) (s.rd (H.laySlot x) - 1))]
      | 3 => (s.pathStamps fuel id 0).map (fun p => if lost then (p.1, none) else p)
      | _ => [])
    else if src < 80 then
      let f := src - 64
      let id := s.rd (K.FRC_STREAM_SRC f k)
      if s.rd (K.FRC_STREAM_KIND f k) = 0 then [] else
      let t := if s.rd (K.FRC_SSTAT_STATE f k) = 1 then some (ofPtime (s.rd (K.FRC_FRC_EVT_FRAME_TIME f)) - s.rd (K.FRC_SSTAT_DELAY f k)) else none
      if id < 48 then [(id, t)] else (s.pathStamps fuel id 0).map (fun p => (p.1, match p.2, t with
        | some a, some b =>
          -- what lies before the converter adds to its delay
          some (b - (ofPtime (s.rd (K.FRC_FRC_EVT_FRAME_TIME f)) - a))
        | _, _ => none))
    else []

/-- V of a destination at a switch line of stamp `to'` (R319): none when its input is not on the output's path. -/
def State.videoDelay (s : State) (d to' : Nat) : Option Nat :=
  let n := d / 32
  let c := s.air (K.DST_SRC d)
  let u := s.routeUnit n
  let src := s.air (K.OUT_ROUTE_SRC u)
  if 1536 ≤ c then none else
  let i := c / 32
  let stored := src < 48 && s.air (H.outPath u) == 2
  let l : List (Nat × Option Nat) :=
    if stored then [(src, if s.rd (H.outSlot u) = 0 then none else s.slotStamp (s.rd (H.outRing u) - 1) (s.rd (H.outSlot u) - 1))]
    else s.pathStamps 16 src (s.air (K.OUT_ROUTE_FRC_STREAM u))
  match l.find? (fun p => p.1 == i) with
  | none => none
  | some p =>
    match p.2 with
    | some t => if s.rd (H.lossPh n) ≠ 0 ∨ s.rd (H.prime n) = 1 then some (s.rd (K.DST_V d)) else some (min 0xFFFFFFFF (to' - t))
    | none => some (s.rd (K.DST_V d))

/-- The clock a source can have at an output now: 1 SYNC or 2 ASYNC (R315). Silence leaves it as it is. -/
def State.clockWant (s : State) (d : Nat) : Nat :=
  let c := s.air (K.DST_SRC d)
  let g := s.air (K.OUT_FAMILY (d / 32))
  if 1552 ≤ c then s.rd (K.DST_CLOCK d)
  else if 1536 ≤ c then 1
  else
    let i := s.inUse (c / 32)
    let old (k : Nat) : Bool := s.rd k == 0 || decide (s.rd k - 1 + 10000000 ≤ s.now)
    if s.lockedTo i g && s.bit (K.AIN_STAT_SYNC i) (c % 32 / 4) && (s.gNow g).1 == 0 && s.rd (H.rateFrom i) != 0
        && old (H.rateFrom i) && old (H.rateBad (8 * i + g)) then 1 else 2

/-- A destination goes to a source at a delay and clock: with a crossfade of `n` samples, a non-PCM pair once its guard band comes (R322,
R324). -/
def State.audGo (s : State) (d c tgt clk n : Nat) (np : Bool) : State :=
  if np then (s.setVec (H.npCfg d) [c, tgt, clk]).wr (H.npPend d) 1
  else ((s.audPush d c tgt clk n).wr (K.DST_DELAY_ACTIVE d) tgt).wr (H.audGoal d) 0

/-- A destination at the switch line of stamp `to'` of its output: its developed change, its clock, its delay (R315, R319 to R322, R324). -/
def State.audSwitch (s : State) (d to' : Nat) : State :=
  let c := s.air (K.DST_SRC d)
  let first := s.rd (H.audSrc d) = 0
  let changed := s.rd (H.audSrc d) ≠ c + 1
  let was := s.rd (K.DST_CLOCK d)
  let want := if was = 3 ∧ !changed then 3 else s.clockWant d
  let v := s.videoDelay d to'
  let follow := s.air (K.DST_FOLLOW d) = 1
  let s := s.wr (K.DST_V d) (v.getD 0)
  let req := s.air (K.DST_DELAY d) * 1000 + (if follow then s.rd (K.DST_V d) else 0)
  let clamped := 4000000000 < req
  let floor := if want = 1 then s.rd K.AUD_A_MIN_SYNC else s.rd K.AUD_A_MIN_ASRC
  let raw := max floor (min req 4000000000)
  let tgt := if want = 1 then samplesNs (nsSamples raw) else raw
  let cur := s.audD d
  let diff := ((cur : Int) - tgt).natAbs
  let slewing := s.rd (H.audGoal d) ≠ 0
  let np := s.rd (K.DST_STATE d) == 2
  let newDelay := s.rd (H.audUsed d) ≠ 0 ∧ s.rd (H.audUsed d) ≠ s.air (K.DST_DELAY d) + 1
  let s : State := if clamped ∧ s.rd (K.DST_FOLLOW_STATE d) ≠ 4 then s.raise 0x600C (dstIdx d) d (req / 1000) else s
  let s : State := if was = want then s else (s.wr (K.DST_CLOCK d) want).raise 0x6008 (dstIdx d) d (was * 256 + want)
  -- a Bracket pair is spliced at the switch line (R322)
  let act := if c < 1536 ∧ s.rd (K.IN_BRACKET_ROLE (c / 32)) = 1 then s.inUse (c / 32) + 1 else 0
  let s : State := if s.rd (H.audAct d) = act then s
    else if changed ∨ s.rd (H.audAct d) = 0 ∨ act = 0 then s.wr (H.audAct d) act
    else (s.wr (H.audAct d) act).inc (K.DST_SWITCHES d) 1 (2 ^ 32)
  let clk := if want = 3 then 2 else want
  -- a non-PCM pair waits for its guard band
  let quiet := s.rd (H.audLost d) ≠ 0 ∨ want = 3
  let s : State :=
    if decide first then (s.setVec (H.audMix d) (unmixes [⟨c, tgt, clk, 0, 0⟩])).wrs [(K.DST_DELAY_ACTIVE d, tgt), (H.audGoal d, 0), (H.audLost d, 0)]
    else if decide changed then (s.audGo d c tgt clk (s.air (K.DST_XFADE d)) np).wrs [(H.audLost d, 0), (H.audSilent d, 0)]
    else if decide quiet then s.wrs [(K.DST_DELAY_ACTIVE d, tgt), (H.audGoal d, 0)]
    else if was ≠ want then s.audGo d c tgt clk 32 np
    else if decide newDelay then (s.audGo d c tgt clk (s.air (K.DST_XFADE d)) np).raise 0x600A (dstIdx d) d tgt
    else if (if want = 1 then 12 * diff < 125000 else diff < 1000) then
      (if decide slewing then s.wrs [(H.audGoal d, tgt + 1), (H.audFrom d, cur), (H.audAt d, s.now), (K.DST_DELAY_ACTIVE d, cur)] else s)
    else if diff ≤ s.rd K.AUD_SLEW_LIMIT * 1000 ∧ !np then
      let s : State := if decide slewing then s else s.raise 0x600B (dstIdx d) d (ofInt 32 ((cur : Int) - tgt))
      s.wrs [(H.audGoal d, tgt + 1), (H.audFrom d, cur), (H.audAt d, s.now), (K.DST_DELAY_ACTIVE d, cur)]
    else (s.audGo d c tgt clk (s.air (K.DST_XFADE d)) np).raise 0x600A (dstIdx d) d tgt
  let s := s.wrs [(H.audSrc d, c + 1), (H.audUsed d, s.air (K.DST_DELAY d) + 1)]
  s.wrs [(K.DST_FOLLOW_STATE d, if !decide follow then 0 else if s.rd (H.audGoal d) ≠ 0 then 2 else if v.isNone then 3
    else if decide clamped then 4 else 1), (K.DST_STATE d, s.dstState d)]

/-- AUDIO_SLEW_END: the slew has reached its target; a SYNC destination copies whole samples again (R320). -/
def execAudioSlewEnd (d : Fin 1536) (s : State) : Host.Outcome State Fault Refusal :=
  let d := d.val
  if s.rd (H.audGoal d) = 0 ∨ s.audD d ≠ s.rd (H.audGoal d) - 1 then .next s else
  let s := s.wrs [(K.DST_DELAY_ACTIVE d, s.rd (H.audGoal d) - 1), (H.audGoal d, 0)]
  .next (if s.rd (K.DST_FOLLOW_STATE d) = 2 then s.wr (K.DST_FOLLOW_STATE d) 1 else s)

/-- CHANNEL_ABSENT: a channel has received no valid sample for 64 sample periods (R313, R322). -/
def execChannelAbsent (n : Fin 48) (c : Fin 32) (s : State) : Host.Outcome State Fault Refusal :=
  let n := n.val
  let c := c.val
  let src := 32 * n + c
  let last := s.rd (H.ainLast src)
  if last ≠ 0 ∧ s.now < last - 1 + 1334 then .next s else
  let g := c / 4
  -- the 64 periods repeated the sample before them (R313)
  let s : State := match s.histNewest src with
    | some p => if last = 0 then s else
      (List.range 64).foldl (fun (t : State) k => t.histPut src (p.1 + samplesNs (k + 1)) p.2) (s.count (K.AIN_RUN n 6) 64)
    | none => s
  let s := s.wrs [(H.ainLast src, 0), (H.ainRun (8 * n + g), 0), (H.ainGap (8 * n + g), 1)]
  let p := s.rd (K.AIN_STAT_PRESENT n)
  let s := s.setPresent n (if p.testBit c then p - 2 ^ c else p)
  let s : State := if (List.range 4).all (fun i => s.rd (H.ainLast (groupSrc n g + i)) == 0)
    then ((s.setBit (K.AIN_STAT_GROUPS n) g false).wr (H.ainRate (8 * n + g)) 0).ainRateSync n else s
  .next (s.upto 1536 (fun d t => if t.air (K.DST_SRC d) = src ∧ t.rd (K.OUT_TSTATE (d / 32)) ≠ 0 then t.audCheck d else t))

/-! ## Steps of inputs and outputs with their audio -/

/-- Every destination that reads an input looks at its source (R322). -/
def State.audInput (s : State) (n : Nat) : State :=
  s.upto 1536 (fun d t => if t.air (K.DST_SRC d) / 32 = n ∧ t.rd (K.OUT_TSTATE (d / 32)) ≠ 0 then t.audCheck d else t)

/-- RX_TRS_LOSS, with what the destinations that read the input do (R92, R322). -/
def execRxTrsLoss (n : Fin 48) (s : State) : Host.Outcome State Fault Refusal :=
  onNext (fun t => if t.rd (K.IN_STAT_STATE n.val) = s.rd (K.IN_STAT_STATE n.val) then t
    else (t.wr (H.rateFrom n.val) 0).audInput n.val) (rxTrsLoss n s)

/-- The audio frame boundary of input i, where a frame of it has begun since state `s` (R329). -/
def State.ainBegun (s : State) (i : Nat) (t : State) : State :=
  if t.rd (H.inFrame i) = s.rd (H.inFrame i) then t else t.ainFrame i (t.rd (H.inFrame i))

/-- RX_SWITCH_LINE_STAMP of link k of quad q, with the audio frame boundary of the input whose frame it begins: its own, or that of the assembled stream (R145,
R151, R329). -/
def execRxSwitchLineStamp (q : Fin 12) (k : Fin 4) (ns : Nat) (s : State) : Host.Outcome State Fault Refusal :=
  let first := 4 * q.val
  onNext (fun t => if k.val = 0 then s.ainBegun first t else s.ainBegun first (s.ainBegun (first + k.val) t)) (rxSwitchLineStamp q k ns s)

/-- RX_INTERVAL_LATCH, with the latch of the input's audio counters (R59, R329). -/
def execRxIntervalLatch (n : Fin 48) (s : State) : Host.Outcome State Fault Refusal :=
  onNext (fun t => if s.rd (K.IN_STAT_STATE n.val) = 4 ∨ s.now < s.rd (H.inBoundAt n.val) + 20000 then t
    else (t.wr (K.AIN_RUN n.val 1) (t.rd (K.IN_LAST n.val 1))).ainFrame n.val (t.rd (K.IN_RUN n.val 1))) (rxIntervalLatch n s)

/-- The audio control packets of OUT[n] for the frame that starts: a 1/1.001 rate whose frame holds no whole number of samples numbers its
audio frames, five in a round (R325; log 88). -/
def State.audControl (s : State) (n : Nat) : State :=
  match fmt (s.air (K.OUT_FORMAT n)) with
  | none => s.setVec (H.audCtl n) []
  | some f =>
    let number := if 48000 * rateDen f.rate % rateNum f.rate = 0 then 0 else s.rd (K.OUT_EVT_FRAME n) % 5 + 1
    s.setVec (H.audCtl n) [1, 1, number, 0]

/-- The destinations of OUT[n] at its switch line (R320, R321). -/
def State.audOutput (s : State) (n : Nat) : State :=
  let s := s.audControl n
  if s.rd (K.OUT_TSTATE n) = 0 then s.upto 32 (fun i t => t.wrs [(H.audWire (32 * n + i), 0), (H.audSrc (32 * n + i), 0)])
  else s.upto 32 (fun i t => t.audSwitch (32 * n + i) (ofPtime (t.rd (K.OUT_EVT_FRAME_TIME n))))

/-- SWITCH_LINE: the switch line of OUT[n], `ns` into the present tick (R123, R320). -/
def audSwitchLine (n : Fin 48) (ns : Nat) (s : State) : Host.Outcome State Fault Refusal :=
  if s.rd (K.OUT_TSTATE n.val) = 0 then .next s else .next ((s.switchLine n.val ns).audOutput n.val).protSync

/-- OUT_GENERATOR_START: a switch-line instant `t` (ns of the time of day) of the family of OUT[n], whose generator starts when it may
(R124, R321). -/
def execOutGeneratorStart (n : Fin 48) (t : Nat) (s : State) : Host.Outcome State Fault Refusal :=
  let u := s.genStart n.val t
  if s.rd (K.OUT_TSTATE n.val) ≠ 0 ∨ u.rd (K.OUT_TSTATE n.val) = 0 then .next u else .next (u.audOutput n.val).protSync

end Sys2Proof.Machine
end

