-- ==== Sys2Proof/Machine/CopyStand.lean ====
section
/-! DEFINITION. The Copy Stand (spec/15, R332 to R346). -/
namespace Sys2Proof.Machine

/-- Source of the Copy Stand's events. -/
def cstIdx : Nat := 0x8000

/-- The base of the scratch SRAM (R217). -/
def scratchBase : Nat := 0x1000000000

/-- A rectangle as the Copy Stand addresses it (R335): first byte, pitch, width and height of its image, format. -/
structure Plane where
  base : Nat
  pitch : Nat
  w : Nat
  h : Nat
  f : Nat
deriving DecidableEq, Repr

/-- A buffer as a plane, unless it is FREE or no buffer. -/
def State.bufPlane (s : State) (b : Nat) : Option Plane :=
  if 2048 ≤ b ∨ s.rd (K.BUF_STATE b) = 0 then none
  else some ⟨s.rd (K.BUF_ADDR b), s.bufPitch b, s.rd (K.BUF_WIDTH b), s.rd (K.BUF_HEIGHT b), s.rd (K.BUF_FORMAT b)⟩

/-- The source of the operation; the size of a scratch image is bounded by the SRAM alone. -/
def State.cstSrc (s : State) : Option Plane :=
  if s.rd K.CST_SRC_KIND = 1 then some ⟨scratchBase + s.rd K.CST_SRC_ADDR, s.rd K.CST_SRC_PITCH, 65536 * 4, 65536 * 4, s.rd K.CST_SRC_FORMAT⟩
  else s.bufPlane (s.rd K.CST_SRC_BUF)

/-- Bytes of a unit: a pair of Q422, a pixel of any other format (R335). -/
def unitBytes (f : Nat) : Nat := if f = 0 then 5 else bpp2 f / 2

/-- Units in `x` pixels. -/
def unitsIn (f x : Nat) : Nat := if f = 0 then x / 2 else x

/-- The turn in use: ROT of ROTATE, else none (R332). -/
def State.cstRot (s : State) : Nat := if s.rd K.CST_OP = 2 then s.rd K.CST_ROT else 0

/-- The reflection in use: FLIP of ROTATE and MIRROR, else none (R332). -/
def State.cstFlip (s : State) : Nat := if s.rd K.CST_OP = 2 ∨ s.rd K.CST_OP = 3 then s.rd K.CST_FLIP % 4 else 0

/-- Width and height of the destination rectangle (R332). -/
def State.cstDstSize (s : State) : Nat × Nat :=
  if s.cstRot % 2 = 1 then (s.rd K.CST_H, s.rd K.CST_W) else (s.rd K.CST_W, s.rd K.CST_H)

/-- Source and destination share a pixel, or a pair of Q422 (R337). -/
def State.cstOverlap (s : State) : Bool :=
  let d := s.cstDstSize
  s.rd K.CST_OP != 1 && s.rd K.CST_SRC_KIND == 0 && s.rd K.CST_SRC_BUF == s.rd K.CST_DST_BUF
    && overlaps (s.rd K.CST_SRC_X) (s.rd K.CST_W) (s.rd K.CST_DST_X) d.1 && overlaps (s.rd K.CST_SRC_Y) (s.rd K.CST_H) (s.rd K.CST_DST_Y) d.2

/-- The destination's rows are written bottom to top (R338); an overlapping MIRROR follows the order that keeps R337's result (log 30). -/
def State.cstUpward (s : State) : Bool :=
  (s.rd K.CST_OP == 0 || (s.rd K.CST_OP == 3 && s.cstOverlap)) && decide (s.rd K.CST_SRC_Y < s.rd K.CST_DST_Y)

/-- The format check of GO (R332, R334, R335). -/
def State.cstFormatOk (s : State) : Bool :=
  let op := s.rd K.CST_OP
  match s.bufPlane (s.rd K.CST_DST_BUF) with
  | none => false
  | some d =>
    (op == 1 || (match s.cstSrc with | some p => p.f == d.f | none => false))
    && decide (op ≤ 3) && !(op == 2 && (s.rd K.CST_ROT == 0 || decide (3 < s.rd K.CST_ROT))) && !(op == 3 && s.cstFlip == 0)
    && !(decide (2 ≤ op) && decide (3 < s.rd K.CST_FLIP))
    && !(op == 1 && decide (2 ^ (8 * unitBytes d.f) ≤ s.rd K.CST_FILL))
    && !(d.f == 0 && s.cstRot % 2 == 1)

/-- The bounds check of GO (R335, R339). -/
def State.cstBoundsOk (s : State) : Bool :=
  let inside (p : Plane) (x y w h : Nat) : Bool := decide (x + w ≤ p.w) && decide (y + h ≤ p.h)
  let (w, h) := (s.rd K.CST_W, s.rd K.CST_H)
  let fl := s.rd K.CST_FENCE_LAYER
  (match s.bufPlane (s.rd K.CST_DST_BUF) with
    | none => false
    | some d => inside d (s.rd K.CST_DST_X) (s.rd K.CST_DST_Y) s.cstDstSize.1 s.cstDstSize.2)
  && (s.rd K.CST_OP == 1 || (match s.cstSrc with
    | none => false
    | some p => inside p (s.rd K.CST_SRC_X) (s.rd K.CST_SRC_Y) w h
        && (s.rd K.CST_SRC_KIND != 1 || decide (p.base - scratchBase + (s.rd K.CST_SRC_Y + h - 1) * p.pitch
            + ceilDiv ((s.rd K.CST_SRC_X + w) * bpp2 p.f) 2 ≤ 0x400000))))
  && (fl == 0 || (decide (0x4400 ≤ fl) && decide (fl < 0x4C00) && fl % 16 == 0))

/-- The alignment check of GO (R335). -/
def State.cstAlignOk (s : State) : Bool :=
  let op := s.rd K.CST_OP
  let q := (s.bufPlane (s.rd K.CST_DST_BUF)).any (fun d => d.f == 0)
  !(q && (s.rd K.CST_DST_X % 2 == 1 || s.rd K.CST_W % 2 == 1 || (op != 1 && s.rd K.CST_SRC_X % 2 == 1)))
  && (op == 1 || s.rd K.CST_SRC_KIND != 1 || (s.rd K.CST_SRC_ADDR % 64 == 0 && s.rd K.CST_SRC_PITCH % 64 == 0))

/-- An overlapping operation that is refused (R337). -/
def State.cstOverlapBad (s : State) : Bool :=
  s.cstOverlap && (s.cstRot != 0 || s.cstFlip.testBit 1
    || (s.cstFlip.testBit 0 && s.rd K.CST_SRC_Y == s.rd K.CST_DST_Y))

/-- The destination lies in a guarded range, itself or its mirror (R225). -/
def State.cstGuarded (s : State) : Bool := decide (3 ≤ s.rd (K.BUF_STATE (s.rd K.CST_DST_BUF)))

/-- The Easel that holds the destination as its write target, as WB.BUF's (index << 8) | sub; 0 none (R199). -/
def State.cstHolder (s : State) : Nat :=
  let w := s.rd (K.BUF_WRITER (s.rd K.CST_DST_BUF))
  if w = 0 ∨ w = cstIdx then 0 else (w + 2) * 256 + 2

/-- An event of the Copy Stand sets its bit of IRQ.PENDING (R346). -/
def State.cstIrq (s : State) (b : Nat) : State := (s.setBit K.CST_IRQ_PENDING b true).wr (H.cstIrqAt b) (s.now + 1)

/-- A refusal of GO: RESULT, and CST_REFUSED (R339). -/
def State.cstRefuse (s : State) (res holder : Nat) : State := (s.wr K.CST_STATUS_RESULT res).raise 0x4503 cstIdx res holder

/-- The claim on the destination ends with the operation. -/
def State.cstEnd (s : State) : State :=
  let b := s.rd K.CST_DST_BUF
  let s : State := if b < 2048 ∧ s.rd (K.BUF_WRITER b) = cstIdx then s.wr (K.BUF_WRITER b) 0 else s
  s.wrs [(K.CST_STATUS_STATE, 0), (K.CST_STATUS_END_TIME, s.todP), (H.cstExempt, 0)]

/-- A write of CST.GO (R339). -/
def cstGoWrite (v : Nat) (s : State) : Ans :=
  if v ≠ 1 then ansRange s
  else if s.rd K.CST_STATUS_STATE ≠ 0 ∨ !s.pdReady 53 then ansBusy s
  else if !s.cstFormatOk then ansRange (s.cstRefuse 2 0)
  else if !s.cstBoundsOk then ansRange (s.cstRefuse 3 0)
  else if !s.cstAlignOk then ansRange (s.cstRefuse 4 0)
  else if s.cstOverlapBad then ansRange (s.cstRefuse 5 0)
  else if s.cstHolder ≠ 0 then ansConflict s.cstHolder (s.cstRefuse 6 s.cstHolder)
  else if s.cstGuarded && s.rd K.FS_GUARD_POLICY == 0 then ansBusy (s.cstRefuse 7 0)
  else
    let b := s.rd K.CST_DST_BUF
    ansOk (s.wrs [(K.CST_STATUS_STATE, 1), (K.CST_STATUS_RESULT, 0), (K.CST_STATUS_LINES_DONE, 0), (K.CST_STATUS_TOP_DONE, 0),
      (K.CST_STATUS_START_TIME, s.todP), (K.BUF_WRITER b, cstIdx), (H.cstErr, 0), (H.cstExempt, if s.cstGuarded then 0 else b + 1)])

/-- A running operation stops early (R341): cause 0 ABORT, 1 forced free, 2 domain off. -/
def State.cstAbort (s : State) (cause : Nat) : State :=
  if s.rd K.CST_STATUS_STATE ≠ 1 then s else
  let s := (s.portReset 0x70).wr K.CST_STATUS_RESULT 8
  let s := (s.cstIrq 2).raise 0x4504 cstIdx cause (s.rd K.CST_STATUS_LINES_DONE)
  if s.rd (K.PORT_STATE 0x70) = 2 then s.wr K.CST_STATUS_STATE 2 else s.cstEnd

/-- The drain of the Copy Stand's port ends its stopping (R341). -/
def State.cstDrained (s : State) : State := if s.rd K.CST_STATUS_STATE = 2 then s.cstEnd else s

/-- A write of CST.ABORT (R341). -/
def cstAbortWrite (v : Nat) (s : State) : Ans :=
  if v ≠ 1 then ansRange s else if s.rd K.CST_STATUS_STATE = 0 then ansBusy s else ansOk (s.cstAbort 0)

/-- A write of a setup object: BUSY while the Copy Stand is not IDLE (R339). -/
def cstSetupWrite (k v : Nat) (s : State) : Ans := if s.rd K.CST_STATUS_STATE ≠ 0 then ansBusy s else ansOk (s.wr k v)

/-- A write of IRQ.ACK: 1 bits clear PENDING, but for those whose event occurred in this tick (R128, R346). -/
def cstIrqAckWrite (v : Nat) (s : State) : Ans :=
  let stay := (List.range 3).foldl (fun a b => if s.rd (H.cstIrqAt b) = s.now + 1 then a + 2 ^ b else a) 0
  ansOk ((s.wr K.CST_IRQ_ACK v).up K.CST_IRQ_PENDING (fun p => p - (p &&& v) ||| (p &&& stay)))

/-- A buffer that a running operation holds (R340). -/
def State.cstHolds (s : State) (b : Nat) : Bool :=
  s.rd K.CST_STATUS_STATE != 0 && (s.rd K.CST_DST_BUF == b
    || (s.rd K.CST_OP != 1 && s.rd K.CST_SRC_KIND == 0 && s.rd K.CST_SRC_BUF == b))

/-- The Copy Stand drives the interrupt pin low (R346). -/
def State.cstIrqLow (s : State) : Bool := (s.rd K.CST_IRQ_PENDING &&& s.rd K.CST_IRQ_MASK) != 0

/-- The source offset, in units, of the unit that lands at destination offset (u, v); W and H in units and lines (R333). -/
def cstFrom (w h rot flip u v : Nat) : Nat × Nat :=
  let p := match rot with
    | 0 => (u, v)
    | 1 => (v, h - 1 - u)
    | 2 => (w - 1 - u, h - 1 - v)
    | _ => (w - 1 - v, u)
  (if flip.testBit 0 then w - 1 - p.1 else p.1, if flip.testBit 1 then h - 1 - p.2 else p.2)

/-- A pair of Q422 with Y0 and Y1 exchanged, as its five bytes (R218, R333). -/
def swapPair (l : List Nat) : List Nat :=
  let w := ofLE l
  let (y1, cr, y0, cb) := (w / 2 ^ 30 % 1024, w / 2 ^ 20 % 1024, w / 2 ^ 10 % 1024, w % 1024)
  (bytesBE 5 (y0 * 2 ^ 30 + cr * 2 ^ 20 + y1 * 2 ^ 10 + cb)).reverse

/-- A unit of a destination row: its address, its bytes, and the address of its source, if it has one. -/
structure CstUnit where
  addr : Nat
  data : List Nat
  src : Option Nat
deriving DecidableEq, Repr

/-- Destination row `v` of the running operation, as it is to be written (R332 to R335). -/
def State.cstRow (s : State) (v : Nat) : List CstUnit :=
  match s.bufPlane (s.rd K.CST_DST_BUF) with
  | none => []
  | some d =>
    let ub := unitBytes d.f
    let n := unitsIn d.f s.cstDstSize.1
    let addr (u : Nat) : Nat := d.base + (s.rd K.CST_DST_Y + v) * d.pitch + (unitsIn d.f (s.rd K.CST_DST_X) + u) * ub
    if s.rd K.CST_OP = 1 then (List.range n).map (fun u => ⟨addr u, (bytesBE ub (s.rd K.CST_FILL)).reverse, none⟩)
    else match s.cstSrc with
      | none => []
      | some p =>
        let swap := d.f == 0 && (s.cstFlip.testBit 0 != (s.cstRot == 2))
        (List.range n).map (fun u =>
          let q := cstFrom (unitsIn d.f (s.rd K.CST_W)) (s.rd K.CST_H) s.cstRot s.cstFlip u v
          let a := p.base + (s.rd K.CST_SRC_Y + q.2) * p.pitch + (unitsIn d.f (s.rd K.CST_SRC_X) + q.1) * ub
          let bytes := (List.range ub).map (fun i => s.fetchByte (a + i))
          ⟨addr u, if swap then swapPair bytes else bytes, some a⟩)

/-- The 64-byte beats some ranges of `n` bytes lie in, each once, in the order met (R336). -/
def beatsOf (n : Nat) (l : List Nat) : List Nat :=
  (l.flatMap (fun a => [a / 64, (a + n - 1) / 64])).foldl (fun acc b => if acc.contains b then acc else acc ++ [b]) []

/-- The guard's check of the bursts of a row, one to each 256-byte granule; the second component: one was blocked, which the error log keeps
(R225, R232, R238, R340). -/
def State.cstGuardRow (s : State) (beats : List Nat) : State × Bool :=
  let b := s.rd K.CST_DST_BUF
  if s.rd H.cstExempt = b + 1 then (s, false) else
  let grans := (beats.map (· / 4)).foldl (fun acc g => if acc.contains g then acc else acc ++ [g]) []
  grans.foldl (fun (acc : State × Bool) g =>
    let mine := beats.filter (fun x => x / 4 == g)
    let a := mine.foldl min (4 * g + 3) * 64
    match acc.1.guardHit a (64 * mine.length) with
    | some p =>
      let r := acc.1.guarded 0x70 a p
      (if r.2 then r.1.errLog 0x70 (s.targetOf 0x70 a) 1 0 mine.length a else r.1, acc.2 || r.2)
    | none => acc) (s, false)

/-- The read bursts of a row that ended with FAULT, one to each granule, by the beats that failed: logged, and the buffer read marked. `bad`
are the beats whose check bits found an uncorrectable error (R216, R229, R238). -/
def State.cstReadFault (s : State) (bad beats : List Nat) : State :=
  let s := (beats.filter bad.contains).foldl (fun (t : State) x => (t.eccRead 0x70 (64 * x) 2).1) s
  let grans := (beats.map (· / 4)).foldl (fun acc g => if acc.contains g then acc else acc ++ [g]) []
  grans.foldl (fun (t : State) g =>
    let mine := beats.filter (fun x => x / 4 == g)
    let a := mine.foldl min (4 * g + 3) * 64
    (t.damage a).errLog 0x70 (t.targetOf 0x70 a) 2 0 mine.length a) s

/-- The last line of an operation is complete: everything R345 lists, in one tick. After a failed read no fence is written, and
RESULT, the pending bit and the event are those of the error (R341; log 31). -/
def State.cstDone (s : State) : State :=
  let b := s.rd K.CST_DST_BUF
  let bad := s.rd H.cstErr
  let fl := s.rd K.CST_FENCE_LAYER
  let s := (s.cstEnd).wr K.CST_STATUS_RESULT (if bad = 0 then 1 else 9)
  let s : State := if s.rd K.CST_DST_READY = 1 ∧ s.rd (K.BUF_STATE b) = 1 then s.bufMove b 2 else s
  if bad ≠ 0 then
    (s.cstIrq 2).raise 0x4505 cstIdx (s.rd K.CST_SRC_BUF) ((bad - 1) / 256)
  else
    let s : State := if fl = 0 then s else s.wr (K.LAYER_FENCE_DONE ((fl - 0x4400) / 16)) (s.rd K.CST_FENCE_VALUE)
    let dur := ofPtime (s.rd K.CST_STATUS_END_TIME) - ofPtime (s.rd K.CST_STATUS_START_TIME)
    ((s.inc K.CST_STATUS_OPS 1 (2 ^ 32)).cstIrq 0).raise 0x4501 cstIdx
      (s.rd K.CST_OP * 65536 + b) (min dur 0xFFFFFFFF)

/-- One more destination line is complete (R344). -/
def State.cstLine (s : State) : State :=
  let h := s.cstDstSize.2
  let n := s.rd K.CST_STATUS_LINES_DONE + 1
  let top := if s.cstUpward then (if n < h then 0 else h) else n
  let old := s.rd K.CST_STATUS_TOP_DONE
  let wm := s.rd K.CST_WM_LINE
  let s := s.wrs [(K.CST_STATUS_LINES_DONE, n), (K.CST_STATUS_TOP_DONE, top)]
  let s : State := if wm ≠ 0 ∧ old < wm ∧ wm ≤ top
    then (s.cstIrq 1).raise 0x4502 cstIdx (s.rd K.CST_DST_BUF) top else s
  if n < h then s else s.cstDone

/-- The write bursts of a row end other than with ACK: the operation ends (R341). -/
def State.cstWriteError (s : State) : State := ((s.cstEnd).wr K.CST_STATUS_RESULT 10).cstIrq 2

/-- CST_LINE_COMPLETE: the bursts of the next destination line have completed (R338, R341, R344, R345). `bad` lists the 64-byte beats
whose read failed beside those of a slot without a copy; `fault`: a write burst completed with FAULT. -/
def execCstLineComplete (bad : List Nat) (fault : Bool) (s : State) : Host.Outcome State Fault Refusal :=
  if s.rd K.CST_STATUS_STATE ≠ 1 then .next s else
  let h := s.cstDstSize.2
  let k := s.rd K.CST_STATUS_LINES_DONE
  let row := s.cstRow (if s.cstUpward then h - 1 - k else k)
  let ub := (row.head?.map (fun u => u.data.length)).getD 1
  let dst := beatsOf ub (row.map (fun u => u.addr))
  let srcAddrs := row.filterMap (fun u => u.src)
  -- where a row of the destination is a column of the source, nothing fixes the beats read
  let column := s.cstRot % 2 == 1
  let reads := if column then s.free else (beatsOf ub srcAddrs).length
  let s : State := if column then s.tick1 else s
  let s := s.inc K.CST_STATUS_BYTES (64 * (reads + dst.length)) (2 ^ 64)
  let g := s.cstGuardRow dst
  if g.2 ∨ fault then .next g.1.cstWriteError else
  let s := g.1
  let lost (a : Nat) : Bool := (List.range ub).any (fun i => bad.contains ((a + i) / 64) || (s.fsByte (a + i)).isNone)
  let failing := srcAddrs.filter lost
  let off := beatsOf ub ((row.filter (fun u => u.src.any lost)).map (fun u => u.addr))
  let s : State := if failing = [] then s else
    let lostBeat (x : Nat) : Bool := bad.contains x || (s.fsByte (64 * x)).isNone || (s.fsByte (64 * x + 32)).isNone
    let s := (s.cstReadFault bad ((beatsOf ub failing).filter lostBeat)).wr (K.BUF_DAMAGED (s.rd K.CST_DST_BUF)) 1
    if s.rd H.cstErr = 0 then s.wr H.cstErr (failing.headD 0 + 1) else s
  let s := row.foldl (fun (t : State) u => (List.range ub).foldl (fun (t : State) i =>
    if off.contains ((u.addr + i) / 64) then t else t.fsWrite (u.addr + i) (u.data.getD i 0)) t) s
  .next s.cstLine

/-- The buckets of the Copy Stand fill by RESERVE / 2 bytes a microsecond, up to 65,536, but on a stack above a reduced limit (R343, R355). -/
def State.cstFill (s : State) : State :=
  s.upto 2 (fun q t => if t.rd (H.overLoad q) = 1 then t else t.up (H.cstBucket q) (fun v => min 65536 (v + t.rd K.CST_RESERVE / 2)))

end Sys2Proof.Machine
end

