-- ==== Sys2Proof/Machine/Dependability.lean ====
section
/-! DEFINITION. Fault tolerance: the cluster map, failover, the Test Strip's rotation, pseudo-channels, management pairs (spec/16, R347 to
R364; spec/01 R27, R28). -/
namespace Sys2Proof.Machine

/-! ## The cluster map (R27, R28) -/

/-- The logical cluster a physical one carries. -/
def State.logicalOf (s : State) (p : Nat) : Option Nat := (List.range 8).find? (fun c => s.rd (K.CLMAP_PHYS c) == p)

/-- Logical cluster c is carried by p (0xFF: by none); the map's sequence rises with the change. -/
def State.mapPut (s : State) (c p : Nat) : State :=
  let s := (s.wr (K.CLMAP_PHYS c) p).wrs [(K.EAS_STATE_PHYS_CLUSTER (2 * c), p), (K.EAS_STATE_PHYS_CLUSTER (2 * c + 1), p),
    (K.FRC_STATE_PHYS_CLUSTER (2 * c), p), (K.FRC_STATE_PHYS_CLUSTER (2 * c + 1), p)]
  s

/-- One change of the map is complete: CLMAP.SEQ. -/
def State.mapSeq (s : State) : State := s.inc K.CLMAP_SEQ 1 (2 ^ 32)

/-- A physical cluster becomes the spare: the order of R360, and its self-test still to be passed. -/
def State.makeSpare (s : State) (p : Nat) : State :=
  let n := s.rd (H.wasCtr) + 1
  s.wrs [(K.CLMAP_SPARE, p), (K.CLUSTERS_CL_STATE p, 1), (H.wasCtr, n), (H.wasSpare p, n), (H.spareOk, 0)]

/-- The outputs that read an Easel or FRC of logical cluster c (R352). -/
def State.clusterOutputs (s : State) (c : Nat) : List Nat :=
  (List.range 48).filter (fun n => s.rd (K.OUT_TSTATE n) != 0 && clusterOf (s.air (K.OUT_ROUTE_SRC (s.routeUnit n))) == some c)

/-- Logical cluster c has no physical one any longer: CLUSTER_LOST, its outputs send black or their slate (R352). -/
def State.clusterLost (s : State) (c : Nat) : State :=
  let outs := s.clusterOutputs c
  let s := (s.mapPut c 0xFF).mapSeq.raise 0x7008 0x1A02 c outs.length
  let s := outs.foldl (fun (t : State) n =>
    if t.rd (H.lossPh n) ≠ 0 then t else
    let t := t.wrs [(H.lossPh n, 1), (H.lossSlot n, 0), (K.OUT_ROUTE_STAT_LOSS_FRAMES n, 0), (K.OUT_ROUTE_STAT_STATE n, 3)]
    if t.air (K.OUT_ROUTE_LOSS (t.pictureUnit n)) = 2 then t.slateOn n 2 else t) s
  -- streams of other clusters that take a canvas of this one lose it (R304)
  s.upto 64 (fun x t =>
    if t.rd (K.FRC_STREAM_KIND (x / 4) (x % 4)) = 1 ∧ clusterOf (t.rd (K.FRC_STREAM_SRC (x / 4) (x % 4))) = some c ∧ !t.unmapped (64 + x / 4)
    then (match t.frcGone (x / 4) (x % 4) with | some r => t.frcLose (x / 4) (x % 4) r | none => t) else t)

/-- The spare is lost or taken: no serviceable spare (R27). -/
def State.spareGone (s : State) : State := (s.wrs [(K.CLMAP_SPARE, 0xFF), (H.spareOk, 0)])

/-! ## Failover (R350, R351) -/

/-- What a takeover costs the units of logical cluster c (R305, R351). -/
def State.recoverUnits (s : State) (c : Nat) : State :=
  let s := s.upto 16 (fun l t =>
    let x := 16 * c + l
    let t := t.wr (H.layHist x) 0
    if t.air (K.LAYER_SRC_KIND x) = 3 then t.wr (H.liveFrom c) 1048576 else t)
  let s := s.upto 2 (fun i t =>
    let e := 2 * c + i
    if t.air (K.EAS_WB_MODE e) = 2 ∧ t.rd (K.EAS_WB_STATE e) = 1 then t.wr (H.wbRedo e) 1 else t)
  s.upto 8 (fun i t =>
    t.frcFailover (2 * c + i / 4) (i % 4))

/-- The map takes `to` for logical cluster c after a fault of `frm`: counters and FAILOVER (R28, R350 step 5). -/
def State.failedOver (s : State) (c frm to' us : Nat) : State :=
  let s := (s.mapPut c to').spareGone.mapSeq
  let s := (s.wrs [(K.CLUSTERS_CL_STATE to', 0), (K.CLUSTERS_LAST_FAILOVER, s.todP), (K.CLUSTERS_LAST_INTERRUPT, us)]).inc K.CLUSTERS_FAILOVERS 1 (2 ^ 32)
  s.raise 0x7007 0x1A02 (c * 65536 + frm * 256 + to') us

/-- A rotation is abandoned (R361). -/
def State.rotAbort (s : State) (cause : Nat) : State :=
  let t := s.rd (H.rotT) - 1
  let p := s.rd (H.rotP)
  let s := s.wrs [(H.rotT, 0), (H.rotPhase, 0), (H.rotMoved, 0)]
  let s : State := if s.rd (K.CLUSTERS_CL_STATE p) = 5 then s.wr (K.CLUSTERS_CL_STATE p) 1 else s
  (s.inc K.TSTRIP_ROT_ABORTS 1 (2 ^ 32)).raise 0x700C 0x1A04 (s.rd (H.rotC) * 65536 + t * 256 + p) cause

/-- Physical cluster p is declared failed (R347, R348, R350, R352, R361): cause as CLUSTER_FAULT gives it. -/
def State.clusterFail (s : State) (p cause : Nat) : State :=
  let st := s.rd (K.CLUSTERS_CL_STATE p)
  if st = 2 ∨ st = 3 ∨ st = 4 then s else
  let c := s.logicalOf p
  let spare := s.rd K.CLMAP_SPARE
  let s := (s.raise 0x7006 0x1A02 p cause).portReset (0x60 + p)
  -- a rotation meets the fault first (R361)
  let rot := s.rd (H.rotT)
  let inT := rot = p + 1
  let inP := rot ≠ 0 ∧ s.rd (H.rotP) = p
  let s : State := if rot = 0 ∨ (c = none ∧ ¬ inP) then s else s.rotAbort (if inT then 1 else if inP then 3 else 2)
  let s := (s.wr (K.CLUSTERS_CL_STATE p) 2).wr (H.rotMis) (if spare = p then 0 else s.rd (H.rotMis))
  let s : State := match c with
  | none =>
    if spare ≠ p then s else
    let s := s.spareGone.mapSeq
    -- the spare failed while it loaded a cluster
    if s.rd (H.foFrom) = 0 then s else
      let lost := s.logicalOf (s.rd (H.foFrom) - 1)
      let s := s.wr (H.foFrom) 0
      match lost with | some c => s.clusterLost c | none => s
  | some c =>
    if inT then s.failedOver c p spare 0
    else if spare = 0xFF ∨ s.rd (H.foFrom) ≠ 0 then s.clusterLost c
    else
      let s := (s.wrs [(H.foFrom, p + 1), (H.foTo, spare)]).portReset (0x60 + spare)
      if s.tstripOn then s.raise 0x700E 0x1A04 0 0 else s
  s.tstSync

/-- CLUSTER_FAULT: a means of R347 declares physical cluster p failed: 1 parity, 2 watchdog, 3 port, 4 domain, 5 self-test, 6 rotation
mismatch (R348, R350). -/
def execClusterFault (p : Fin 9) (cause : Nat) (s : State) : Host.Outcome State Fault Refusal :=
  .next (s.clusterFail p.val cause).protSync

/-- LINE_WATCHDOG_EXPIRY: a stream of an active cluster whose next segment has not started within 8 us (R348). -/
def execLineWatchdogExpiry (p : Fin 9) (s : State) : Host.Outcome State Fault Refusal :=
  .next (s.clusterFail p.val 2).protSync

/-- FAILOVER: the spare has loaded the state of the failed cluster and places its streams; `us` is the interruption in us (R350 steps 4
and 5, R351). -/
def execFailover (us : Nat) (s : State) : Host.Outcome State Fault Refusal :=
  let frm := s.rd (H.foFrom)
  if frm = 0 then .next s else
  match s.logicalOf (frm - 1) with
  | none => .next s
  | some c =>
    let s := (s.wr (H.foFrom) 0).failedOver c (frm - 1) (s.rd (H.foTo)) us
    .next (s.recoverUnits c).tstSync.protSync

/-! ## Repair (R353) -/

/-- The units of logical cluster c that ran restart at their next development point (R353). -/
def State.unitsRestart (s : State) (c : Nat) : State :=
  s.upto 2 (fun i t => t.wrs [(H.unitWait (48 + 2 * c + i), if t.rd (K.EAS_STATE_TSTATE (2 * c + i)) = 0 then 0 else 1),
    (H.unitWait (64 + 2 * c + i), if t.rd (K.FRC_STATE_TSTATE (2 * c + i)) = 0 then 0 else 1)])

/-- A cluster that has passed its test joins: it takes the lowest unmapped logical cluster, else it becomes the spare (R353). -/
def State.clusterJoin (s : State) (p : Nat) : State :=
  match (List.range 8).find? (fun c => s.rd (K.CLMAP_PHYS c) == 0xFF) with
  | some c =>
    let s := ((s.mapPut c p).mapSeq.wr (K.CLUSTERS_CL_STATE p) 0).raise 0x7009 0x1A02 (c * 256 + p) 0
    s.unitsRestart c
  | none =>
    if s.rd K.CLMAP_SPARE = 0xFF then ((s.makeSpare p).mapSeq).wr (H.spareOk) 1 else s.wr (K.CLUSTERS_CL_STATE p) 1

/-- RETEST_DONE: the full self-test of a cluster under RETEST ends (R353). -/
def execRetestDone (p : Fin 9) (pass : Bool) (s : State) : Host.Outcome State Fault Refusal :=
  let p := p.val
  if s.rd (K.CLUSTERS_CL_STATE p) ≠ 4 then .next s
  else if !pass then .next (s.wr (K.CLUSTERS_CL_STATE p) 2)
  else .next (s.clusterJoin p).tstSync.protSync

/-! ## The Test Strip (R359 to R361) -/

/-- The active cluster that has gone longest without being the spare, the lowest on a tie (R360). -/
def State.rotTarget (s : State) : Option Nat :=
  ((List.range 9).filter (fun p => s.rd (K.CLUSTERS_CL_STATE p) == 0 && (s.logicalOf p).isSome)).foldl (fun m p => match m with
    | none => some p
    | some q => if s.rd (H.wasSpare p) < s.rd (H.wasSpare q) then some p else some q) none

/-- A fault of a cluster in the map waits in the present tick, and a rotation step of the tick comes after it (R361, log 67). -/
def State.faultDue (s : State) : Bool :=
  let hits (p : Nat) : Bool :=
    !([2, 3, 4].contains (s.rd (K.CLUSTERS_CL_STATE p))) && ((s.logicalOf p).isSome || s.rd K.CLMAP_SPARE == p)
  s.arrives (fun c => match c with
    | .clusterFault p _ => hits p.val
    | .lineWatchdogExpiry p => hits p.val
    | .domainFault i _ => decide (34 ≤ i.val ∧ i.val ≤ 42) && hits (i.val - 34)
    | _ => false)

/-- The conditions under which a rotation starts (R360). -/
def State.mayRotate (s : State) : Bool :=
  s.tstripFree && !s.faultDue && s.rd (H.rotT) == 0 && s.rd (H.rotMis) == 0 && s.rd K.CLMAP_SPARE != 0xFF && s.rd (H.spareOk) == 1 && s.rd (H.foFrom) == 0
    && s.rd K.XBAR_XBA_STATE == 0 && s.rd K.XBAR_XBB_STATE == 0 && s.rotTarget.isSome

/-- A rotation starts (R360 step 1). -/
def State.rotStart (s : State) : State :=
  match s.rotTarget with
  | none => s
  | some t =>
    let p := s.rd K.CLMAP_SPARE
    let c := (s.logicalOf t).getD 0
    let s := s.wrs [(H.rotT, t + 1), (H.rotP, p), (H.rotC, c), (H.rotPhase, 1), (H.rotAt, s.now), (H.rotMoved, 0), (K.CLUSTERS_CL_STATE p, 5)]
    (s.raise 0x700A 0x1A04 (c * 65536 + t * 256 + p) 0).tstSync

/-- The next rotation is due a period from now (R360). -/
def State.rotArm (s : State) : State :=
  let m := s.rd K.TSTRIP_ROT_PERIOD
  if m = 0 ∨ s.rd K.TSTRIP_ENABLE = 0 then s.wr K.TSTRIP_NEXT_ROT 0
  else s.wr K.TSTRIP_NEXT_ROT (ptime (s.tod + m * 60000000000))

/-- ROTATION_PERIOD: a period has passed; a rotation starts if its conditions hold, else it waits for the next one (R360). -/
def execRotationPeriod (s : State) : Host.Outcome State Fault Refusal :=
  if s.rd K.TSTRIP_ROT_PERIOD = 0 ∨ s.rd K.TSTRIP_ENABLE = 0 then .next s else
  let s := s.rotArm
  .next (if s.mayRotate then s.rotStart.protSync else s)

/-- A write of ROTATE_NOW (R360). -/
def rotateNowWrite (v : Nat) (s : State) : Ans :=
  if v ≠ 1 then ansRange s else if s.mayRotate then ansOk (s.rotStart.wr K.TSTRIP_ROTATE_NOW v).protSync else ansBusy s

/-- The units of the rotating logical cluster that run, as bits (R360). -/
def State.rotUnits (s : State) : Nat :=
  let c := s.rd (H.rotC)
  (List.range 4).foldl (fun a i =>
    let on := if i < 2 then s.rd (K.EAS_STATE_TSTATE (2 * c + i)) else s.rd (K.FRC_STATE_TSTATE (2 * c + (i - 2)))
    if on = 0 then a else a + 2 ^ i) 0

/-- Every running unit has moved: the map changes (R360 step 5; R361 after a mismatch of T). -/
def State.rotFinish (s : State) : State :=
  if s.rd (H.rotPhase) < 2 ∨ s.rotUnits &&& s.rd (H.rotMoved) ≠ s.rotUnits then s else
  let c := s.rd (H.rotC)
  let t := s.rd (H.rotT) - 1
  let p := s.rd (H.rotP)
  let ph := s.rd (H.rotPhase)
  let s := s.wrs [(H.rotT, 0), (H.rotPhase, 0), (H.rotMoved, 0)]
  if ph = 3 then (s.failedOver c t p 0).tstSync
  else
    let s := (((s.mapPut c p).wr (K.CLUSTERS_CL_STATE p) 0).makeSpare t).mapSeq
    let s := (s.inc K.TSTRIP_ROTATIONS 1 (2 ^ 32)).raise 0x700B 0x1A04 (c * 65536 + t * 256 + p) ((s.now - s.rd (H.rotAt)) / 1000)
    s.tstSync

/-- ROTATION_COMPARE: after the third shadow frame, the segment CRCs of P and T agree or differ (R360 step 3, R361). -/
def execRotationCompare (same : Bool) (s : State) : Host.Outcome State Fault Refusal :=
  if s.rd (H.rotPhase) ≠ 1 ∨ s.faultDue then .next s
  else if same then .next (s.wr (H.rotPhase) 2).rotFinish.protSync
  else
    let t := s.rd (H.rotT)
    .next (((s.rotAbort 0).wr (H.rotMis) t).tstSync)

/-- ROTATION_MOVE: the first development point of a unit after a matching third frame: unit 0, 1 an Easel, 2, 3 an FRC of the logical
cluster (R360 steps 4 and 5). -/
def execRotationMove (i : Fin 4) (s : State) : Host.Outcome State Fault Refusal :=
  if s.rd (H.rotPhase) < 2 ∨ s.faultDue then .next s
  else .next ((s.up (H.rotMoved) (fun m => m ||| 2 ^ i.val)).rotFinish.protSync)

/-- SELF_TEST_DONE: a self-test of the spare passes or fails (R359, R361). -/
def execSelfTestDone (pass : Bool) (test : Nat) (s : State) : Host.Outcome State Fault Refusal :=
  let p := s.rd K.CLMAP_SPARE
  if p = 0xFF ∨ s.rd (H.rotT) ≠ 0 ∨ s.rd (H.foFrom) ≠ 0 ∨ !s.tstripFree ∨ s.faultDue then .next s
  else if pass then
    let s := (s.wrs [(H.spareOk, 1), (K.TSTRIP_LAST_PASS, s.todP)]).inc K.TSTRIP_PASSES 1 (2 ^ 32)
    let t := s.rd (H.rotMis)
    if t = 0 then .next s else
    -- P is sound, so T is not: its units move to P, which has shadowed them
    let s := (s.wr (H.rotMis) 0).raise 0x7006 0x1A02 (t - 1) 6
    let s := s.wrs [(K.CLUSTERS_CL_STATE (t - 1), 2), (H.rotT, t), (H.rotP, p), (H.rotPhase, 3), (H.rotMoved, 0), (H.rotAt, s.now)]
    .next s.rotFinish.tstSync.protSync
  else
    let s := (s.wrs [(K.CLUSTERS_CL_STATE p, 2), (H.rotMis, 0)]).spareGone.mapSeq
    .next (s.raise 0x700D 0x1A04 p test).tstSync.protSync

/-- A write of TSTRIP.ENABLE or ROT_PERIOD: the period runs anew (log 34). -/
def tstripWrite (k v : Nat) (s : State) : Ans := ansOk ((s.wr k v).rotArm.tstSync.protSync)

/-! ## Drains and pseudo-channels -/

/-- MASTER_DRAIN: the bursts of a reset master have drained (R236); a Copy Stand that was stopping is IDLE (R341). -/
def execMasterDrain (m : Nat) (accepted : List Nat) (s : State) : Host.Outcome State Fault Refusal :=
  let s := s.drain m accepted
  .next (if m = 0x70 ∧ s.rd (K.PORT_STATE m) = 3 then s.cstDrained else s)

/-- PC_FAIL (R229, R347). -/
def execPcFail (st : Fin 2) (q : Fin 32) (test : Option Nat) (s : State) : Host.Outcome State Fault Refusal :=
  .next (pcFailure st q test s).protSync

/-- PC_REBUILD_DONE (R229, R354). -/
def execPcRebuildDone (st : Fin 2) (sl : Fin 31) (s : State) : Host.Outcome State Fault Refusal :=
  .next (pcRebuilt st sl s).protSync

/-- MIRROR_SYNCED, with what it does to protection (R228, R357). -/
def execMirrorSynced (id : Nat) (s : State) : Host.Outcome State Fault Refusal := withProt (mirrorSynced' id s)

/-- BRACKET_TAKEOVER, with what it does to protection (R170, R357). -/
def execBracketTakeover (n : Fin 48) (cause : Nat) (s : State) : Host.Outcome State Fault Refusal := withProt (bracketTakeover n cause s)

/-- PLL_LOL, with what it does to protection (R116, R357). -/
def execPllLol (x : Nat) (word : Nat) (s : State) : Host.Outcome State Fault Refusal := withProt (pllLol x word s)

/-! ## Management pairs (R35, R356) -/

/-- A standby pair changes its state (R356). -/
def State.standbySet (s : State) (v : Nat) : State :=
  if s.rd K.MGMT_STANDBY_STATE = v then s
  else ((s.wr K.MGMT_STANDBY_STATE v).raise 0x7010 0x1A05 (1 - s.rd K.MGMT_ACTIVE) v).protSync

/-- Index of a session record: 0 to 15 a network session, 16 the SPI session (R74). -/
def sessIdx (i : Nat) : Nat := 0x1110 + i

/-- A session ends: its record is FREE, its subscriptions, notifications and cached answers go (R72); reasons of SESSION_CLOSE. -/
def State.sessClose (s : State) (i reason : Nat) : State :=
  let id := s.rd (K.SESS_ID i)
  let n := (s.subs.filter (fun b => b.slot == i)).length
  let s := (List.range 11).foldl (fun (t : State) k => t.clr (K.at' (sessIdx i) (k + 1))) s
  let s : State := { s with
    subs := s.subs.filter (fun b => b.slot != i), notes := s.notes.filter (fun b => b.slot != i),
    done := s.done.filter (fun b => b.slot != i), cache := s.cache.filter (fun b => b.slot != i) }
  let s := (s.up K.NOTIF_SUBS_IN_USE (fun v => v - n)).up K.QCP_SESSIONS_OPEN (fun v => v - 1)
  let s := s.wrs [(H.chal i, 0), (H.chalLive i, 0), (H.token i, 0), (H.fails i, 0), (H.lastReq i, 0), (H.suspAt i, 0),
    (H.sessMute i, 0), (H.sessOwn i, 0)]
  let s := s.upto 64 (fun v t => if t.rd (H.slvSess v) = i + 1 then t.wr (H.slvSess v) 0 else t)
  s.raise 0x8002 (sessIdx i) id reason

/-- Every open network session becomes SUSPENDED, or ends where RESUME_WINDOW is 0 (R72, R73, R87). -/
def State.sessSuspend (s : State) : State :=
  s.upto 16 (fun i t =>
    if t.rd (K.SESS_STATE i) ≠ 1 then t else
    let t := (t.wrs [(K.SESS_STATE i, 2), (H.suspAt i, t.now)]).raise 0x8004 (sessIdx i) (t.rd (K.SESS_ID i)) 0
    if t.rd K.QCP_RESUME_WINDOW = 0 then t.sessClose i 2 else t)

/-- The active pair stops: nobody serves until the standby pair has taken over (R35, R356); cause as MGMT_SWITCHOVER gives it. With no
standby pair to take over, the pair itself is reset and loads its image again (R35, R376); an activation that has failed so within
600 s is rolled back. -/
def State.mgmtStop (s : State) (cause : Nat) : State :=
  if !s.mgmtOn then s else
  let s := s.portReset s.mgmtMaster
  -- a print goes on once a pair is active again (R387)
  let s : State := if s.rd K.NEG_PRINT_STATE = 2 then s.wr K.NEG_PRINT_STATE 1 else s
  let s := s.wrs [(H.mgmtOn, 0), (H.mgmtCause, cause + 1)]
  let st := s.rd K.MGMT_STANDBY_STATE
  if st ≠ 1 ∧ st ≠ 2 then s else
  let p := s.rd K.MGMT_ACTIVE
  let s := ((s.wrs [(K.PD_FUNCS (1 + p), 0), (H.loadTry p, 0)]).setBit K.RESET_READY_MASK (1 + p) false).sessSuspend
  if cause ≤ 1 ∧ s.rd K.FW_PENDING ≠ 0xFF ∧ s.now ≤ s.rd (H.pendEnd) then
    (s.wrs [(H.pairSlot p, s.rd (H.pendOld)), (K.FW_PENDING, 0xFF)]).raise 0x9009 0x1010 (s.rd (H.pendOld)) (s.rd (H.pairVer p))
  else s

/-- MGMT_FAULT: a lockstep mismatch of the active pair (R356). -/
def execMgmtFault (s : State) : Host.Outcome State Fault Refusal := .next (s.mgmtStop 0)

/-- MGMT_WATCHDOG_EXPIRY: the watchdog of the active pair was not served within MGMT.WDT (R356). -/
def execMgmtWatchdogExpiry (s : State) : Host.Outcome State Fault Refusal := .next (s.mgmtStop 1)

/-- A write of MGMT.SWITCHOVER (R356); the change follows the answer. -/
def mgmtSwitchoverWrite (v : Nat) (s : State) : Ans :=
  if v ≠ 1 then ansRange s
  else if s.rd K.MGMT_STANDBY_STATE ≠ 0 then ansBusy s
  else ansOk ((s.wr K.MGMT_SWITCHOVER v).mgmtStop 2)

end Sys2Proof.Machine
end

