-- ==== Sys2Proof/Machine/Gpio.lean ====
section
/-! DEFINITION. GPIO pins, their functions, interrupt and reference status pins (spec/19 R395 to R397, R403; R120, R128, R346). -/
namespace Sys2Proof.Machine

/-- Source number of PIN[p]. -/
def pinIdx (p : Nat) : Nat := 0x1E20 + p

/-- A pin whose function only reads its ball (R396). -/
def pinInput (f : Nat) : Bool := f == 0 || f == 1 || f == 3 || f == 6

/-- The function of an output pin is active, by the settings in effect (R396). -/
def State.pinDrives (s : State) (p : Nat) : Bool :=
  let arg := s.rd (H.pinArg p)
  match s.rd (K.PIN_FUNC p) with
  | 2 => (s.rd K.GPIO_OUT).testBit p
  | 4 => decide (arg / 256 < 48) && s.air (K.OUT_ROUTE_SRC (arg / 256)) == arg % 256
  | 5 => s.rd (H.pinEnd p) != 0
  | 7 => decide (arg < 48) && s.rd (K.OUT_TSTATE arg) != 0 && s.rd (K.OUT_LINE_MATCH arg) != 0
      && s.rd (H.outLineNo arg) == s.rd (K.OUT_LINE_MATCH arg)
  | 8 =>
    let st := s.rd (K.SEL_STATE (arg / 256))
    (match arg % 256 with | 0 => st % 2 == 1 | 1 => st / 2 % 2 == 1 | 2 => st == 2 | _ => st == 3)
  | 9 => s.spiTx != []
  | _ => false

/-- The level at ball p, 1 high (R396, R397): an output's own, else what stands there from outside. Inputs and pins without power read
what is outside. -/
def State.pinLevel (s : State) (p : Nat) : Nat :=
  let f := s.rd (K.PIN_FUNC p)
  if pinInput f ∨ !s.pdReady 55 then s.rd (H.pinIn p) else
  let on := s.pinDrives p
  let pol := s.rd (H.pinPol p) == 1
  -- SPI_ATTN is active low with POLARITY 0
  if (if f = 9 then !on else on) != pol then 1 else 0

/-- The function of pin p is active (GPIO.ACTIVE); a pin without a function has none. -/
def State.pinActive (s : State) (p : Nat) : Bool :=
  if !s.pdReady 55 ∨ s.rd (K.PIN_FUNC p) = 0 then false
  else if pinInput (s.rd (K.PIN_FUNC p)) then s.rd (H.pinIn p) != s.rd (H.pinPol p) else s.pinDrives p

/-- GPIO.LEVEL. -/
def State.gpioLevel (s : State) : Nat := (List.range 32).foldl (fun a p => if s.pinLevel p = 1 then a + 2 ^ p else a) 0

/-- GPIO.ACTIVE. -/
def State.gpioActive (s : State) : Nat := (List.range 32).foldl (fun a p => if s.pinActive p then a + 2 ^ p else a) 0

/-- IRQ_N[p] is low: an output's or the Copy Stand's enabled pending bit holds it (R128, R346); released without PD.GPIO (R370, R395). -/
def State.irqPinLow (s : State) (p : Nat) : Bool :=
  s.pdReady 55 && (s.irqSum p != 0 || (s.cstIrqLow && s.rd K.CST_IRQ_PIN == p))

/-- REFSTAT_A (0) and REFSTAT_B (1): the state of their selector, 00 until PD.REFCLK is READY (R120). -/
def State.refstat (s : State) (j : Nat) : Nat := if s.pdReady 55 && s.pdReady 5 then s.rd (K.SEL_STATE j) else 0

/-- The settings of a pin take effect at an edge or event (R397). -/
def State.pinEdge (s : State) (p : Nat) : State := s.wrs [(H.pinArg p, s.rd (K.PIN_ARG p)), (H.pinPol p, s.rd (K.PIN_POLARITY p))]

/-- An edge of whatever pins of function `f` follow, with ARG as `ok` says. -/
def State.pinEdges (s : State) (f : Nat) (ok : Nat → Bool) : State :=
  s.upto 32 (fun p t => if t.rd (K.PIN_FUNC p) = f ∧ ok (t.rd (K.PIN_ARG p)) then t.pinEdge p else t)

/-- An event is raised: EVENT_OUT pins that name its code start or restart their pulse (R396, R397). -/
def State.pinEvent (s : State) (code : Nat) : State :=
  if !s.pdReady 55 then s else
  s.upto 32 (fun p t => if t.rd (K.PIN_FUNC p) = 5 ∧ t.rd (K.PIN_ARG p) = code
    then (t.pinEdge p).wrs [(H.pinEnd p, t.now + t.rd (K.PIN_PULSE p) + 1), (H.pinDue p, 0)] else t)

/-- Pins that copy a selector's state or the SPI target's TX_PENDING meet an edge when it changes (R396, R397). -/
def State.pinSync (s : State) : State :=
  s.upto 32 (fun p t =>
    let f := t.rd (K.PIN_FUNC p)
    if f ≠ 8 ∧ f ≠ 9 then t else
    let v := 1 + (if f = 8 then t.rd (K.SEL_STATE (t.rd (K.PIN_ARG p) / 256)) else if t.spiTx = [] then 0 else 1)
    if t.rd (H.pinSeen p) = v then t else (t.wr (H.pinSeen p) v).pinEdge p)

/-- ARG lies in the range of a function (R396). -/
def argOk (f arg : Nat) : Bool :=
  match f with
  | 4 => decide (arg / 256 < 48) && (decide (arg % 256 ≤ 83) || arg % 256 == 0xFE || arg % 256 == 0xFF)
  | 7 => decide (arg < 48)
  | 8 => decide (arg / 256 < 2) && decide (arg % 256 < 4)
  | _ => true

/-- A salvo ARMED or SCHEDULED with trigger pin p (R190, R397). -/
def State.pinArmed (s : State) (p : Nat) : Bool :=
  (List.range 64).any (fun v => (s.rd (K.SLV_STATE v) == 1 || s.rd (K.SLV_STATE v) == 2) && s.rd (K.SLV_TRIGGER v) == p)

/-- A write of PIN[p].FUNC: a claim, a release or neither (R397). -/
def pinFuncWrite (p v : Nat) (s : State) : Ans :=
  let f := s.rd (K.PIN_FUNC p)
  if !s.pdReady 55 then ansBusy s
  else if v = f then ansOk s
  else if v ≠ 0 ∧ f ≠ 0 then ansConflict (K.PIN_FUNC p) s
  else if v = 0 ∧ s.pinArmed p then ansBusy s
  else if !argOk v (s.rd (K.PIN_ARG p)) then ansRange s
  else
    let s : State := if v = 0 then s else s.inc K.COMMIT_NEXT_SEQ 1 (2 ^ 32)
    ansOk ((s.wrs [(K.PIN_FUNC p, v), (H.pinEnd p, 0), (H.pinDue p, 0), (H.pinSeen p, 0)]).pinEdge p).pinSync

/-- A write of another pin setting, or of GPIO.OUT: BUSY while PD.GPIO is not READY; ARG within its function's range (R396, R397). -/
def pinWrite (key v : Nat) (s : State) : Ans :=
  if !s.pdReady 55 then ansBusy s else
  if key = K.GPIO_OUT then ansOk ((s.wr key v).pinEdges 2 (fun _ => true)) else
  match (List.range 32).find? (fun p => K.PIN_ARG p == key) with
  | some p => if argOk (s.rd (K.PIN_FUNC p)) v then ansOk (s.wr key v) else ansRange s
  | none => ansOk (s.wr key v)

/-- PD.GPIO is off: the pins have no functions (R370). -/
def State.gpioOff (s : State) : State := s.upto 32 (fun p t => t.wrs [(K.PIN_FUNC p, 0), (H.pinEnd p, 0), (H.pinDue p, 0), (H.pinSeen p, 0)])

/-- GPIO_INPUT_LEVEL: a level at ball p that has held for FILTER (R396, R403). -/
def execGpioInputLevel (p : Fin 32) (high : Bool) (s : State) : Host.Outcome State Fault Refusal :=
  let s := s.wr (H.pinIn p.val) (if high then 1 else 0)
  .next (if s.pdReady 55 && pinInput (s.rd (K.PIN_FUNC p.val)) then s.pinEdge p.val else s)

/-- EVENT_OUT_PULSE_END: the pulse of a pin has lasted PULSE us; it ends with this tick, unless an event of the tick restarts it (R396,
R397). -/
def execEventOutPulseEnd (p : Fin 32) (s : State) : Host.Outcome State Fault Refusal :=
  if s.rd (H.pinEnd p.val) = 0 ∨ s.now + 1 < s.rd (H.pinEnd p.val) then .next s else .next (s.wr (H.pinDue p.val) 1)

/-- The pulses that end with this tick (R397). -/
def State.pulseEnds (s : State) : State :=
  s.upto 32 (fun p t => if t.rd (H.pinDue p) = 0 then t else t.wrs [(H.pinEnd p, 0), (H.pinDue p, 0)])

/-- SWITCH_LINE: the switch line of OUT[n], `ns` into the present tick, with the tally pins that follow it (R122 to R131, R185, R396). -/
def execSwitchLine (n : Fin 48) (ns : Nat) (s : State) : Host.Outcome State Fault Refusal :=
  onNext (fun t => t.pinEdges 4 (fun a => a / 256 == n.val)) (audSwitchLine n ns s)

/-- LINE_START: a line of OUT[n] starts, with the strobe pins that follow it (R123 to R130, R396); `lam` is the lead measured on its
crossbar hop, `room` the packets its blanking holds. -/
def execLineStart (n : Fin 48) (line : Nat) (lam : Int) (room : Nat) (s : State) : Host.Outcome State Fault Refusal :=
  onNext (fun t => if s.rd (K.OUT_TSTATE n.val) = 0 then t else t.pinEdges 7 (fun a => a == n.val)) (lineStart n line lam room s)

end Sys2Proof.Machine
end

