-- ==== Sys2Proof/Machine/Negative.lean ====
section
/-! DEFINITION. Events at the end of a tick, the event log, the Negative with its freezing and printing, STATS.CLEAR (spec/18, R378 to R391;
spec/03 R79, R83). -/
namespace Sys2Proof.Machine

/-! ## The recorder (R381 to R385) -/

/-- The 32 bytes of an event entry (R382). -/
def evBytes (e : Ev) (seq : Nat) (froze : Bool) : List Nat :=
  let l := bytesBE 10 e.time ++ bytesBE 2 e.code ++ bytesBE 2 e.src ++ bytesBE 4 e.a1 ++ bytesBE 4 e.a2 ++ bytesBE 4 seq
    ++ [(if froze then e.flags + 8 else e.flags) % 256, e.warm % 256]
  l ++ bytesBE 4 (crc32 l)

/-- Entry as one number, as the objects that hold entries keep it. -/
def evEntry (e : Ev) (seq : Nat) (froze : Bool) : Nat := ofBytes (evBytes e seq froze)

/-- Class of an event code (R391). -/
def evClass (code : Nat) : Nat := code / 4096

/-- The class bit of an event is set in RECORD_MASK (R381). -/
def State.recorded (s : State) (code : Nat) : Bool := (s.rd K.NEG_RECORD_MASK).testBit (evClass code)

/-- The event freezes a RECORDING Negative (R384). -/
def State.freezing (s : State) (code : Nat) : Bool :=
  (s.rd K.NEG_FREEZE_MASK).testBit (evClass code) || (code != 0 && (List.range 4).any (fun i => s.rd (K.NEG_FREEZE_CODE i) == code))

/-- The Negative takes no more entries: FROZEN, or POST with its entries recorded (R384). -/
def State.negFrozen (s : State) : Bool := s.rd K.NEG_STATE == 2 || (s.rd K.NEG_STATE == 1 && s.rd (H.negLeft) == 0)

/-- STATE of the Negative. -/
def State.negState (s : State) : Nat := if s.negFrozen then 2 else s.rd K.NEG_STATE

/-- Write an entry into the ring (R381). -/
def State.negPut (s : State) (entry : Nat) : State :=
  (s.wr (K.NEG_NEG_ENTRY ((s.rd K.NEG_WRITTEN % 8192) / 128) ((s.rd K.NEG_WRITTEN % 8192) % 128)) entry).inc K.NEG_WRITTEN 1 (2 ^ 32)

/-- An entry of POST (R384). -/
def State.negPost (s : State) (entry : Nat) : State := (s.negPut entry).up (H.negLeft) (fun v => v - 1)

/-- The next event sequence number (R383). -/
def State.nextSeq (s : State) : Nat := (s.rd (H.evSeq) + 1) % 2 ^ 32

/-- An event takes its number and goes into the event log, to the subscriptions and to the EVENT_OUT pins (R79, R83, R396). -/
def State.publishEv (s : State) (e : Ev) (froze : Bool) : State :=
  let seq := s.nextSeq
  let entry := evEntry e seq froze
  let s := (s.wrs [(H.evSeq, seq), (K.EVLOG_HEAD, seq), (K.EVLOG_ENTRY (seq % 1024), entry)]).pinEvent e.code
  { s with subs := s.subs.map (fun b => if b.kind = 1 ∧ b.classes.testBit (evClass e.code) then { b with evs := b.evs ++ [entry] } else b) }

/-- One event at the end of its tick (R381, R384, R385): numbered, logged, recorded; NEG_FROZEN follows the event that freezes. -/
def State.record (s : State) (e : Ev) : State :=
  let seq := s.nextSeq
  let st := s.rd K.NEG_STATE
  let fz := s.freezing e.code
  if s.negFrozen then
    let s := s.publishEv e false
    if s.recorded e.code || fz then s.incSat K.NEG_MISSED 1 0xFFFFFFFF else s
  else if st = 0 ∧ fz then
    let s := (s.publishEv e true).negPut (evEntry e seq true)
    let n : Ev := ⟨e.time, 0x7014, 0x1C00, e.code, seq, e.flags, e.warm⟩
    let s := s.wrs [(K.NEG_STATE, 1), (K.NEG_FREEZE_SEQ, seq), (H.negLeft, max 1 (s.rd K.NEG_POST))]
    let nseq := s.nextSeq
    (s.publishEv n false).negPost (evEntry n nseq false)
  else
    let s := s.publishEv e false
    if !s.recorded e.code then s
    else if st = 1 then s.negPost (evEntry e seq false) else s.negPut (evEntry e seq false)

/-- Insert an event after those of the tick that do not sort after it: source, then code (R381). -/
def evInsert (e : Ev) : List Ev → List Ev
  | [] => [e]
  | x :: t => if e.src < x.src ∨ (e.src = x.src ∧ e.code < x.code) then e :: x :: t else x :: evInsert e t

/-- The events of a tick in the order of their numbers. -/
def evSort (l : List Ev) : List Ev := l.foldl (fun a e => evInsert e a) []

/-- SEQ of the newest entry of the Negative; 0 when it has none. -/
def State.negNewest (s : State) : Nat :=
  let w := s.rd K.NEG_WRITTEN
  if w = 0 then 0 else fld (bytesBE 32 (s.rd (K.NEG_NEG_ENTRY ((w - 1) % 8192 / 128) ((w - 1) % 128)))) 22 4

/-- A release waits for the end of its tick: NEG_RELEASED, MISSED clears, RECORDING (R385). -/
def State.negReleaseNow (s : State) : State :=
  if s.rd (H.negRel) = 0 then s else
  let a : Nat × Nat := (s.rd K.NEG_MISSED, s.negNewest)
  let s := s.wrs [(H.negRel, 0), (K.NEG_STATE, 0), (H.negLeft, 0), (K.NEG_MISSED, 0)]
  let e : Ev := ⟨s.todP, 0x7017, 0x1C00, a.1, a.2, s.evFlags, s.rd (H.warm) % 256⟩
  let seq := s.nextSeq
  -- it is the first entry after the release, whatever the mask
  (s.publishEv e false).negPut (evEntry e seq false)

/-- The events of the tick are numbered and recorded; then a release acts (R381, R385). -/
def State.recordTick (s : State) : State :=
  let l := evSort s.raised
  let s : State := { s with raised := [] }
  (l.foldl State.record s).negReleaseNow

/-! ## Printing (R387, R388) -/

/-- Flash address of a print slot. -/
def slotFlash (j : Nat) : Nat := 0x1F00000 + 0x40000 * j

/-- The unlocked slot a print takes: an erased one first, then the lowest print sequence, the lower number on a tie (R387). -/
def State.slotPick (s : State) : Option Nat :=
  let key (j : Nat) : Nat := if s.rd (K.SLOT_STATE j) = 0 then 0 else 1 + s.rd (K.SLOT_PRINT_SEQ j)
  ((List.range 4).filter (fun j => !(s.rd K.NEG_LOCK).testBit j)).foldl (fun m j => match m with
    | none => some j
    | some i => if key j < key i then some j else some i) none

/-- A print starts, or waits for a management pair (R387). -/
def State.printStart (s : State) (slot cause : Nat) : State :=
  s.wrs [(K.NEG_PRINT_STATE, if s.mgmtOn then 2 else 1), (H.printSlot, slot), (H.printCause, cause), (H.printFrom, s.rd K.NEG_WRITTEN)]

/-- An automatic print: NEG_PRINT_FAIL where every slot is locked (R387). -/
def State.printAuto (s : State) : State :=
  match s.slotPick with
  | some j => s.printStart j 1
  | none => s.raise 0x7016 0x1C00 0xFF 1

/-- A write of NEG.PRINT (R387). -/
def negPrintWrite (v : Nat) (s : State) : Ans :=
  if 4 ≤ v ∧ v ≠ 0xFF then ansRange s
  else if s.rd K.NEG_PRINT_STATE ≠ 0 then ansBusy s
  else if v = 0xFF then
    match s.slotPick with
    | some j => ansOk ((s.wr K.NEG_PRINT v).printStart j 0)
    | none => ansBusy s
  else if (s.rd K.NEG_LOCK).testBit v then ansBusy s
  else ansOk ((s.wr K.NEG_PRINT v).printStart v 0)

/-- The entries of POST are recorded: the Negative is FROZEN and an automatic print may start (R384, R387). -/
def State.negPostDone (s : State) : State :=
  if s.rd K.NEG_STATE ≠ 1 ∨ s.rd (H.negLeft) ≠ 0 then s else
  let s := s.wr K.NEG_STATE 2
  if s.rd K.NEG_AUTO_PRINT = 0 then s
  else if s.rd K.NEG_PRINT_STATE ≠ 0 then s.wr (H.negAuto) 1
  else s.printAuto

/-- A write of NEG.RELEASE (R385); reaching FROZEN comes before it. -/
def negReleaseWrite (v : Nat) (s : State) : Ans :=
  if v ≠ 1 then ansRange s else if s.negFrozen && s.rd (H.negRel) == 0 then ansOk (s.negPostDone.wrs [(K.NEG_RELEASE, v), (H.negRel, 1)]) else ansBusy s

/-- NEG_POST_DONE: the entries of POST are recorded (R384). -/
def execNegPostDone (s : State) : Host.Outcome State Fault Refusal := .next s.negPostDone

/-- NEG_PRINT_START: a WAITING print starts once a management pair is active (R387). -/
def execNegPrintStart (s : State) : Host.Outcome State Fault Refusal :=
  if s.rd K.NEG_PRINT_STATE = 1 ∧ s.mgmtOn then .next (s.wrs [(K.NEG_PRINT_STATE, 2), (H.printFrom, s.rd K.NEG_WRITTEN)]) else .next s

/-- Erase flash from an address up. -/
def State.flashErase (s : State) (a n : Nat) : State :=
  { s with flash := s.flash.filter (fun c => !(decide (a ≤ c.1) && decide (c.1 < a + n))) }

/-- Program bytes from an address up: a programmed bit stays 0 until its sector is erased (R402). -/
def State.flashProgram (s : State) (a : Nat) : List Nat → State
  | [] => s
  | b :: t => (s.wrFlash a (s.rdFlash a &&& b)).flashProgram (a + 1) t

/-- How many entries a print stores: the newest ones that its copy reaches before the recorder has overwritten them (R388). -/
def State.printCount (s : State) : Nat :=
  let w := s.rd (H.printFrom)
  min (min 8191 w) (8192 - (s.rd K.NEG_WRITTEN - w))

/-- The header of a printed slot (R388). -/
def State.printHeader (s : State) (n seq : Nat) : List Nat :=
  let w := s.rd (H.printFrom)
  let newest := if n = 0 then 0 else fld (bytesBE 32 (s.rd (K.NEG_NEG_ENTRY ((w - 1) % 8192 / 128) ((w - 1) % 128)))) 22 4
  let h := bytesBE 4 0x5A4E4547 ++ [1, s.rd (H.printCause)] ++ bytesBE 2 n ++ bytesBE 4 seq ++ bytesBE 4 newest
    ++ bytesBE 8 (s.rd K.IDENT_SERIAL) ++ bytesBE 4 (s.rd K.IDENT_FW_VERSION)
  h ++ bytesBE 4 (crc32 h)

/-- The summary of a print slot as its header in flash gives it (R388, R389). -/
def State.slotScan (s : State) (j : Nat) : State :=
  let h := s.rdFlashes (slotFlash j) 32
  let f (o n : Nat) : Nat := fld h o n
  if f 0 4 = 0x5A4E4547 ∧ f 4 1 = 1 ∧ f 28 4 = crc32 (h.take 28) then
    s.wrs [(K.SLOT_STATE j, 1), (K.SLOT_CAUSE j, f 5 1), (K.SLOT_ENTRIES j, f 6 2), (K.SLOT_PRINT_SEQ j, f 8 4), (K.SLOT_NEWEST j, f 12 4)]
  else
    s.wrs [(K.SLOT_STATE j, if h.all (· == 0xFF) then 0 else 2), (K.SLOT_CAUSE j, 0), (K.SLOT_ENTRIES j, 0), (K.SLOT_PRINT_SEQ j, 0),
      (K.SLOT_NEWEST j, 0)]

/-- NEG_PRINTED: a print completes, or a flash error ends it (R388). -/
def execNegPrinted (ok : Bool) (s : State) : Host.Outcome State Fault Refusal :=
  if s.rd K.NEG_PRINT_STATE ≠ 2 then .next s else
  let j := s.rd (H.printSlot)
  let n := s.printCount
  let w := s.rd (H.printFrom)
  let s := (s.wr K.NEG_PRINT_STATE 0).flashErase (slotFlash j) 0x40000
  let s : State :=
    if ok then
      let seq := (s.rd (H.printSeq) + 1) % 2 ^ 32
      let body := (List.range n).flatMap (fun k => bytesBE 32 (s.rd (K.NEG_NEG_ENTRY ((w - 1 - k) % 8192 / 128) ((w - 1 - k) % 128))))
      (((s.wr (H.printSeq) seq).flashProgram (slotFlash j) (s.printHeader n seq ++ body)).slotScan j).raise 0x7015 0x1C00 j n
    else
      (s.wrs [(K.SLOT_STATE j, 2), (K.SLOT_CAUSE j, 0), (K.SLOT_ENTRIES j, 0), (K.SLOT_PRINT_SEQ j, 0), (K.SLOT_NEWEST j, 0)]).raise
        0x7016 0x1C00 j 0
  .next (if s.rd (H.negAuto) = 1 then (s.wr (H.negAuto) 0).printAuto else s)

/-! ## STATS.CLEAR (R58, R379) -/

/-- TOTAL of a block's statistics: the address of its members, and how many. -/
def statsTotal (key : Nat) : Option ((Nat → Nat) × Nat) :=
  match (List.range 48).find? (fun n => K.IN_STATS_CLEAR n == key) with
  | some n => some (K.IN_TOTAL n, 11)
  | none =>
  match (List.range 48).find? (fun n => K.OUT_STATS_CLEAR n == key) with
  | some n => some (K.OUT_TOTAL n, 8)
  | none =>
  match (List.range 16).find? (fun e => K.EAS_STATS_CLEAR e == key) with
  | some e => some (K.EAS_TOTAL e, 10)
  | none =>
  match (List.range 16).find? (fun f => K.FRC_STATS_CLEAR f == key) with
  | some f => some (K.FRC_TOTAL f, 10)
  | none =>
  match (List.range 48).find? (fun n => K.AIN_STATS_CLEAR n == key) with
  | some n => some (K.AIN_TOTAL n, 7)
  | none => none

/-- A write of STATS.CLEAR: TOTAL of the block is zero, after a latch of the same tick too (R58, R379). -/
def statsClearWrite (key v : Nat) (s : State) : Ans :=
  if v ≠ 1 then ansRange s else
  match statsTotal key with
  | some (f, n) => ansOk ((s.wrs [(key, v), (H.clrAt (f 1), s.now + 1)]).totalClear f n)
  | none => ansRange s

end Sys2Proof.Machine
end

