-- ==== Sys2Proof/Machine/Power.lean ====
section
/-! DEFINITION. Power domains, resets, the boot from flash, firmware activation and the flash objects (spec/17, R365 to R377; spec/01 R32,
R33; spec/02 R42; spec/16 R353, R356). -/
namespace Sys2Proof.Machine

/-! ## Power domains (R369 to R372) -/

/-- Block index of PD[i]. -/
def pdIdx (i : Nat) : Nat := 0x1800 + i

/-- STATE of a domain changes: DOMAIN_STATE (R377). -/
def State.pdState (s : State) (i new : Nat) : State :=
  let old := s.rd (K.PD_STATE i)
  if old = new then s else (s.wr (K.PD_STATE i) new).raise 0x9001 (pdIdx i) i (old * 256 + new)

/-- RESET.READY_MASK follows a domain. -/
def State.pdMask (s : State) (i : Nat) : State := s.setBit K.RESET_READY_MASK i (s.pdUsable i)

/-- Everything a domain requires is READY (R369). -/
def State.pdMay (s : State) (i : Nat) : Bool :=
  if i = 5 ∨ i = 55 then s.pdReady 0
  else s.pdReady 5 &&
    (if 43 ≤ i ∧ i ≤ 50 then s.mgmtOn && ((i - 43) % 4 == 0 || s.pdReady (43 + (i - 43) / 4 * 4))
     else if i = 51 ∨ i = 52 then (List.range 4).all (fun y => s.pdReady (43 + 4 * (i - 51) + y))
     else true)

/-- Domains whose functions are READY with the domain (R369). -/
def pdWith (i : Nat) : Bool := i == 0 || i == 5 || i == 32 || i == 33 || 53 ≤ i

/-- Power the domains in turn: a switch closes at least 100 us after the previous one; a powered domain comes out of POWERING at the next
tick (R369). -/
def State.powerTick (s : State) : State :=
  let s := s.upto 56 (fun i t => if t.rd (K.PD_STATE i) = 1 then t.pdState i 2 else t)
  if s.now < s.rd (H.pdNext) then s else
  match (List.range 56).find? (fun i => s.rd (K.PD_ENABLE i) == 1 && s.rd (K.PD_STATE i) == 0 && s.pdMay i) with
  | none => s
  | some i => (s.pdState i 1).wr (H.pdNext) (s.now + 100)

/-- Pseudo-channels of group y of stack st are trained: those that had failed with their domain serve again (R213, R371). -/
def State.groupUp (s : State) (st y : Nat) : State :=
  let s := s.upto 8 (fun j t =>
    let q := 8 * y + j
    if t.rd (H.pcFailed (32 * st + q)) = 0 then t else
    let t := t.wr (H.pcFailed (32 * st + q)) 0
    let map := bytesBE 32 (t.rd (pcmapKey st))
    match (List.range 31).find? (fun i => map.getD i 0xFF == q) with
    | some sl =>
      if t.rd (H.slotDead (32 * st + sl)) = 0 then t
      else (t.wr (H.slotDead (32 * st + sl)) 0).up (if st = 0 then K.FS_USABLE_S0 else K.FS_USABLE_S1) (· + 1)
    | none => if map.getD 31 0xFF = 0xFF then t.pcmapPut st 31 q else t)
  s.limitSync

/-- A cluster has passed its self-test after power-up: it keeps its place in the map, or joins (R353, R369); one under RETEST waits for
its full test. -/
def State.clusterUp (s : State) (p : Nat) : State :=
  if s.rd (K.CLUSTERS_CL_STATE p) = 4 ∨ s.rd (K.CLUSTERS_CL_STATE p) = 2 then s else
  match s.logicalOf p with
  | some c => if s.rd (K.CLUSTERS_CL_STATE p) = 0 then s else (s.wr (K.CLUSTERS_CL_STATE p) 0).unitsRestart c
  | none => if s.rd K.CLMAP_SPARE = p then s.wrs [(K.CLUSTERS_CL_STATE p, 1), (H.spareOk, 1)] else s.clusterJoin p

/-- What a function that reports READY starts (R369). -/
def State.funcUp (s : State) (i b : Nat) : State :=
  if 20 ≤ i ∧ i ≤ 31 ∧ b = 0 then s.wr (H.txFrozen (i - 20)) 0
  else if 34 ≤ i ∧ i ≤ 42 then s.clusterUp (i - 34)
  else if 43 ≤ i ∧ i ≤ 50 ∧ s.pdUsable i then s.groupUp ((i - 43) / 4) ((i - 43) % 4)
  else if (i = 51 ∨ i = 52) ∧ b = 1 then s.wr (H.audSince (i - 51)) s.tod
  else s

/-- A function of domain i reports READY: FUNCS, FUNC_READY, and with the last one LAST_ON (R369, R372). -/
def State.funcSet (s : State) (i b : Nat) : State :=
  let s := s.setBit (K.PD_FUNCS i) b true
  let s := (s.raise 0x9003 (pdIdx i) i (s.rd (K.PD_FUNCS i))).pdMask i
  let s : State := if s.pdUsable i ∧ s.rd (H.pdOn i) ≠ 0 then s.wr (K.PD_LAST_ON i) ((s.now + 1 - s.rd (H.pdOn i)) % 2 ^ 32) else s
  s.funcUp i b

/-- All functions of a domain report READY with it. -/
def State.funcAll (s : State) (i : Nat) : State :=
  let s := s.wr (K.PD_FUNCS i) (pdFuncs i)
  let s := (s.raise 0x9003 (pdIdx i) i (pdFuncs i)).pdMask i
  if s.rd (H.pdOn i) ≠ 0 then s.wr (K.PD_LAST_ON i) ((s.now + 1 - s.rd (H.pdOn i)) % 2 ^ 32) else s

/-- Blocks of a domain that has become READY start from their developed values (R368). -/
def State.domainUp (s : State) (i : Nat) : State :=
  if i = 1 ∨ i = 2 then
    -- the pair loads its image (R375)
    let s := s.wrs [(H.loadTry (i - 1), 0)]
    if s.mgmtOn ∧ s.rd K.MGMT_ACTIVE ≠ i - 1 then s.standbySet 3 else s
  else if i = 5 then s.wrs [(K.SYSPLL_STATE, 1), (K.AUDPLL_STATE, 1)]
  else if i = 6 ∨ i = 7 then
    s.upto 4 (fun k t => let g := 4 * (i - 6) + k; if t.rd (K.GSYN_STATE g) = 0 then t.wr (K.GSYN_STATE g) 1 else t)
  else if i = 32 ∨ i = 33 then (if s.rd (planeKey (i - 32)) = 2 then s.planeReturn (i - 32) else s)
  else if i = 54 then s.tstSync
  else s

/-- DOMAIN_READY: switch, clocks and reset of domain i are up (R369). -/
def execDomainReady (i : Fin 56) (s : State) : Host.Outcome State Fault Refusal :=
  let i := i.val
  if s.rd (K.PD_STATE i) ≠ 1 ∧ s.rd (K.PD_STATE i) ≠ 2 then .next s else
  let s := (s.pdState i 3).wr (K.PD_READY_TIME i) s.todP
  let s := (if pdWith i then s.funcAll i else s).domainUp i
  .next s.protSync

/-- FUNC_READY: function b of domain i is READY. The management pairs' only function becomes READY with their image (R369, R375). -/
def execFuncReady (i : Fin 56) (b : Fin 32) (s : State) : Host.Outcome State Fault Refusal :=
  let i := i.val
  let b := b.val
  if !s.pdReady i ∨ s.funcReady i b ∨ !(pdFuncs i).testBit b ∨ i = 1 ∨ i = 2 then .next s
  else .next (s.funcSet i b).protSync

/-- An output without its TX quad: nothing reaches the wire; its contract stays (R371). What it owes develops without timing (R187). -/
def State.outLost (s : State) (n : Nat) : State :=
  if s.rd (K.OUT_TSTATE n) = 0 then s else
  let last := s.rd (K.OUT_EVT_FRAME n)
  let s := (s.wr (K.OUT_TSTATE n) 0).raise 0x3002 (outIdx n) n last
  let s := ((s.publishAll n).routeClear n).slateOff n
  let s := s.wrs [(H.outAdjOn n, 0), (H.heldCnt n, 0), (K.OUT_FETCH_LEVEL n, 0), (K.OUT_FETCH_CLASS n, 0), (H.slatePend n, 0)]
  let s := (s.leaveAll n).developFree n
  s.upto 32 (fun i t => t.developFree (unitDst (32 * n + i)))

/-- A plane, as far as a domain can be one. -/
def planeOf (i : Nat) : Option Nat := if i = 32 then some 0 else if i = 33 then some 1 else none

/-- The BMX masters of a domain (R230). -/
def pdMasters (i : Nat) : List Nat :=
  if i = 1 ∨ i = 2 then [0x70 + i]
  else if 8 ≤ i ∧ i ≤ 19 then (List.range 4).map (fun k => 4 * (i - 8) + k)
  else if 20 ≤ i ∧ i ≤ 31 then (List.range 4).map (fun k => 0x30 + 4 * (i - 20) + k)
  else if 34 ≤ i ∧ i ≤ 42 then [0x60 + (i - 34)]
  else if i = 51 ∨ i = 52 then [0x74 + (i - 51)]
  else if i = 53 then [0x70]
  else if i = 54 then [0x73]
  else []

/-- The domain of a control port is off: no link, no PTP clock (R64, R90). -/
def State.ctlDown (s : State) (c : Nat) : State :=
  let s : State := if s.rd (K.CTL_LINK c) = 0 then s else (s.wr (K.CTL_LINK c) 0).raise 0x8007 (0x1130 + 8 * c) c 0
  (s.ptpMove c 0).refLose (50 + c)

/-- The domain of GSYN g is off: its outputs and its quads' PLLs run on without it (R116, R371). -/
def State.gsynOff (s : State) (g : Nat) : State :=
  let t := (s.wr (K.GSYN_STATE g) 0).upto 48 (fun n u =>
    if u.rd (K.OUT_TSTATE n) = 1 ∧ u.air (K.OUT_FAMILY n) = g then u.wr (K.OUT_TSTATE n) 2 else u)
  t.upto 12 (fun q u =>
    if u.rd (K.OUT_TXQ_PLL_GSYN (4 * q)) ≠ g ∨ u.rd (H.txFrozen q) = 1 then u
    else (((u.wr (H.txFrozen q) 1).setBit K.TXPLL_LOL q true).pllFreeze (16 + q) u.free).tick1)

/-- An orderly power-down of physical cluster p (R371). -/
def State.clusterOff (s : State) (p : Nat) : State :=
  let s : State := if s.rd (K.CLUSTERS_CL_STATE p) = 1 ∧ s.rd K.CLMAP_SPARE = p then s.spareGone.mapSeq else s
  (s.wr (K.CLUSTERS_CL_STATE p) 3).tstSync

/-- A domain stops: its functions are gone and its masters drain (R236). `lost` says that whatever used it behaves as after a fault of its
units (R371), as against an orderly power-down of a domain not in use. -/
def State.domainDown (s : State) (i : Nat) (lost : Bool) : State :=
  let s := (s.wr (K.PD_FUNCS i) 0).pdMask i
  let s := (pdMasters i).foldl State.portReset s
  if i = 1 ∨ i = 2 then
    if s.mgmtOn ∧ s.rd K.MGMT_ACTIVE = i - 1 then s.mgmtStop 0 else s.standbySet (if lost then 1 else 2)
  else if i = 3 ∨ i = 4 then
    s.ctlDown (i - 3)
  else if i = 5 then (List.range 54).foldl (fun t k => if refPd k = 5 then t.refLose k else t) s
  else if i = 6 ∨ i = 7 then
    s.upto 4 (fun k t => t.gsynOff (4 * (i - 6) + k))
  else if 8 ≤ i ∧ i ≤ 19 then s.upto 4 (fun k t => t.inDown (4 * (i - 8) + k) 0)
  else if 20 ≤ i ∧ i ≤ 31 then (s.upto 4 (fun k t => t.outLost (4 * (i - 20) + k))).txqSync (i - 20)
  else if i = 32 ∨ i = 33 then s.planeOff (i - 32)
  else if 34 ≤ i ∧ i ≤ 42 then
    if lost then (s.clusterFail (i - 34) 4).wr (K.CLUSTERS_CL_STATE (i - 34)) 3 else s.clusterOff (i - 34)
  else if 43 ≤ i ∧ i ≤ 50 then
    if !lost then s else
    (List.range 8).foldl (fun t j => t.pcFail ((i - 43) / 4) (8 * ((i - 43) % 4) + j)) s
  else if i = 53 then s.cstAbort 2
  else if i = 54 then (if s.rd (H.rotT) ≠ 0 then s.rotAbort 0 else s).tstSync
  else if i = 55 then s.gpioOff
  else s

/-- A domain is powered down: POWERING_DOWN until DOMAIN_OFF (R370). -/
def State.powerDown (s : State) (i : Nat) (lost : Bool) : State :=
  let st := s.rd (K.PD_STATE i)
  if st = 0 ∨ st = 4 then s
  else if st = 5 then s.pdState i 0
  else ((s.pdState i 4).domainDown i lost).protSync

/-- DOMAIN_OFF: a domain finishes powering down (R370). -/
def execDomainOff (i : Fin 56) (s : State) : Host.Outcome State Fault Refusal :=
  if s.rd (K.PD_STATE i.val) = 4 then .next (s.pdState i.val 0) else .next s

/-- DOMAIN_FAULT: a powered domain misses its time or a function of it fails; causes of R377 (R369). -/
def execDomainFault (i : Fin 56) (cause : Nat) (s : State) : Host.Outcome State Fault Refusal :=
  let i := i.val
  let st := s.rd (K.PD_STATE i)
  if st ≠ 1 ∧ st ≠ 2 ∧ st ≠ 3 then .next s else
  let s := (s.pdState i 5).inc (K.PD_FAULTS i) 1 (2 ^ 32)
  .next (((s.raise 0x9002 (pdIdx i) i cause).domainDown i true).protSync)

/-- One of the values an object has developed or has committed. -/
def State.devOrCom (s : State) (k : Nat) (p : Nat → Bool) : Bool := p (s.rd k) || p (s.nextRd k)

/-- Input n is in use (R370): a committed or developed route, ring, layer, FRC stream, Bracket pair or audio destination reads it, or it is
the ACTIVE candidate of a selector. -/
def State.inputUsed (s : State) (n : Nat) : Bool :=
  let here (k : Nat) : Bool := s.devOrCom k (· == n)
  (List.range 48).any (fun m => here (K.OUT_ROUTE_SRC m) || here (K.OUT_ROUTE_KEY_SRC m))
    || s.rd (K.RING_SLOT_BYTES n) != 0
    || (List.range 128).any (fun x =>
      ((s.devOrCom (K.LAYER_SRC_KIND x) (fun v => v == 2 || v == 3)) && here (K.LAYER_SRC_ID x)) || here (K.LAYER_SRC_KEY x))
    || (List.range 64).any (fun x => s.devOrCom (K.FRC_STREAM_KIND (x / 4) (x % 4)) (fun v => v == 1 || v == 2)
      && here (K.FRC_STREAM_SRC (x / 4) (x % 4)))
    || s.rd (K.IN_BRACKET_ROLE n) != 0
    || (List.range 1536).any (fun d => s.devOrCom (K.DST_SRC d) (fun v => decide (v < 1536) && v / 32 == n))
    || s.rd (K.SEL_ACTIVE 0) == n || s.rd (K.SEL_ACTIVE 1) == n

/-- A use blocks ENABLE 0 of domain i; `port` carries the writing session (R370). -/
def State.pdUsed (s : State) (i port : Nat) : Bool :=
  if i = 1 ∨ i = 2 then s.mgmtOn && s.rd K.MGMT_ACTIVE == i - 1
  else if i = 3 ∨ i = 4 then port == i - 3
  else if i = 6 ∨ i = 7 then (List.range 4).any (fun k => s.consumers (4 * (i - 6) + k) != 0)
  else if 8 ≤ i ∧ i ≤ 19 then (List.range 4).any (fun k => s.inputUsed (4 * (i - 8) + k))
  else if 20 ≤ i ∧ i ≤ 31 then (List.range 4).any (fun k => s.devOrCom (K.OUT_FORMAT (4 * (i - 20) + k)) (· != 0))
  else if i = 32 ∨ i = 33 then s.rd (planeKey (33 - i)) != 0
  else if 34 ≤ i ∧ i ≤ 42 then s.rd (K.CLUSTERS_CL_STATE (i - 34)) == 0 || s.rd (K.CLUSTERS_CL_STATE (i - 34)) == 5
  else if 43 ≤ i ∧ i ≤ 50 then
    let st := (i - 43) / 4
    (List.range 2048).any (fun b => s.rd (K.BUF_STATE b) != 0 && s.rd (K.BUF_STACK b) == st)
      || (List.range 48).any (fun n => s.rd (K.RING_SLOT_BYTES n) != 0 && s.rd (K.RING_STACK n) == st)
      || (List.range 64).any (fun x => x / 4 % 2 == st && s.devOrCom (K.FRC_STREAM_KIND (x / 4) (x % 4)) (· != 0))
      || s.rd (K.PD_STATE (51 + st)) != 0
  else if i = 53 then s.rd K.CST_STATUS_STATE != 0
  else false

/-- A write of PD[i].ENABLE (R370, R372). -/
def pdEnableWrite (i v port : Nat) (s : State) : Ans :=
  if v = 1 then
    let s : State := if s.rd (K.PD_STATE i) = 3 ∧ s.rd (K.PD_ENABLE i) = 1 then s else s.wrs [(K.PD_ENABLE i, 1), (H.pdOn i, s.now + 1)]
    ansOk (if s.rd (K.PD_STATE i) = 5 then s.pdState i 0 else s)
  else if v ≠ 0 ∨ i = 0 ∨ i = 5 then ansRange s
  else if s.rd (K.PD_ENABLE i) = 0 then ansOk s
  else if s.pdUsed i port then ansBusy s
  else ansOk ((s.wr (K.PD_ENABLE i) 0).powerDown i false)

/-- A write of PD[i].FORCE_OFF (R371). ENABLE reads 0 from then, so that the domain stays off until it is enabled again. -/
def pdForceWrite (i v : Nat) (s : State) : Ans :=
  if v ≠ 1 ∨ i = 0 ∨ i = 5 ∨ ((i = 1 ∨ i = 2) ∧ s.mgmtOn ∧ s.rd K.MGMT_ACTIVE = i - 1) then ansRange s
  else ansOk ((s.wrs [(K.PD_FORCE_OFF i, v), (K.PD_ENABLE i, 0)]).powerDown i true)

/-- A write of CLUSTERS.RETEST (R353). -/
def retestWrite (p : Nat) (s : State) : Ans :=
  if 9 ≤ p then ansRange s
  else if s.rd (K.CLUSTERS_CL_STATE p) ≠ 2 ∧ s.rd (K.CLUSTERS_CL_STATE p) ≠ 3 then ansBusy s
  else
    let s := s.wrs [(K.CLUSTERS_RETEST, p), (K.CLUSTERS_CL_STATE p, 4), (K.PD_ENABLE (34 + p), 1), (H.pdOn (34 + p), s.now + 1)]
    let st := s.rd (K.PD_STATE (34 + p))
    if st = 5 then ansOk (s.pdState (34 + p) 0)
    else if st = 0 ∨ st = 4 then ansOk s
    else ansOk ((s.pdState (34 + p) 4).wr (K.PD_FUNCS (34 + p)) 0 |>.pdMask (34 + p))

/-! ## The boot (R367, R373, R374) -/

/-- Flash addresses of an image slot: first byte and length (R373). -/
def slotBase (b : Nat) : Nat := if b = 0 then 0x100000 else 0x1000000
/-- Bytes of an image slot. -/
def slotLen : Nat := 0xF00000

/-- STATE of an image slot. -/
def slotState (b : Nat) : Nat := if b = 0 then K.FW_SLOT_A_STATE else K.FW_SLOT_B_STATE
/-- Version of an image slot. -/
def slotVer (b : Nat) : Nat := if b = 0 then K.FW_SLOT_A_VER else K.FW_SLOT_B_VER

/-- An image slot holds anything. -/
def State.slotUsed (s : State) (b : Nat) : Bool :=
  s.flash.any (fun c => decide (slotBase b ≤ c.1) && decide (c.1 < slotBase b + slotLen))

/-- An image slot before a check: EMPTY with version 0, or UNCHECKED with whatever version its image names (log 40). -/
def State.slotLook (s : State) (b : Nat) : State :=
  if s.slotUsed b then ((s.wr (slotState b) 3).wr (slotVer b) (s.free % 2 ^ 32)).tick1
  else s.wrs [(slotState b, 0), (slotVer b, 0)]

/-- The boot configuration of one copy, if it is good: 0 the primary, 1 the secondary (R374). -/
def State.bootCopy (s : State) (c : Nat) : Option (List Nat) :=
  let l := s.rdFlashes (0x1000 * c) 64
  if fld l 0 4 = 0x5A484243 ∧ fld l 4 1 = 1 ∧ fld l 60 4 = crc32 (l.take 60) then some l else none

/-- The boot configuration in use, if a copy is good. -/
def State.bootCfg (s : State) : Option (List Nat) := (s.bootCopy 0).orElse (fun _ => s.bootCopy 1)

/-- Domains on at boot: bits 0 and 5 are set; without a MGMT bit, both are (R374). -/
def bootMask (l : List Nat) : Nat :=
  let m := fld l 12 8 % 2 ^ 56 ||| 0x21
  if m &&& 6 = 0 then m ||| 6 else m

/-- The boot controller: RESET_CAUSE first, then the boot configuration, the domains it enables, the print slots (R367, R374, R389). -/
def State.boot (s : State) (cause : Nat) : State :=
  let s := s.wrs [(H.running, 1), (H.relAt, s.now), (K.RESET_CAUSE, cause), (K.PD_STATE 0, 3), (K.PD_FUNCS 0, 7), (K.PD_ENABLE 0, 1)]
  let s := ((s.raise 0x9004 0x1840 cause 0).wr (K.PD_READY_TIME 0) s.todP).pdMask 0
  let cfg := s.bootCfg
  let s : State := if cfg = none then s.raise 0x9006 0x1840 3 0 else s
  let mask := match cfg with | some l => bootMask l | none => 2 ^ 56 - 1
  let s := s.wrs [(K.XO_FREQ, match cfg with | some l => fld l 8 4 | none => 54000000),
    (K.FW_BOOT_SLOT, match cfg with | some l => fld l 5 1 % 2 | none => 0)]
  let s := s.upto 56 (fun i t => t.wrs [(K.PD_ENABLE i, if mask.testBit i then 1 else 0), (H.pdOn i, if mask.testBit i then t.now + 1 else 0)])
  -- a cluster or plane that stays off
  let s := s.upto 9 (fun p t => if mask.testBit (34 + p) then t else
    let t := t.wr (K.CLUSTERS_CL_STATE p) 3
    if t.rd K.CLMAP_SPARE = p then t.wr K.CLMAP_SPARE 0xFF else t)
  let s := s.upto 2 (fun p t => if mask.testBit (32 + p) then t else (t.wr (planeKey p) 2).upto 72 (fun d u =>
    u.wr (H.xbPref d) (if mask.testBit (33 - p) then 1 - p else 2)))
  let s := s.upto 2 (fun p t => t.wrs [(H.pairSlot p, t.rd K.FW_BOOT_SLOT), (H.loadTry p, 0)])
  let s := s.wr K.MGMT_STANDBY_STATE (if mask.testBit 1 ∧ mask.testBit 2 then 3 else 2)
  ((s.slotLook 0).slotLook 1).upto 4 (fun j t => t.slotScan j)

/-- Register values that outlive a power-on or pin reset: what flash, fuses and the outside hold. -/
def keepCold (k : Nat) : Bool :=
  k == H.printSeq || k == K.FW_SEC_VERSION || (List.range 32).any (fun p => k == H.pinIn p)

/-- Register values that outlive a warm reset: those, PD.AON's clock, the event log and sequence, the Negative, CLMAP.SEQ and the fault
counts (R27, R42, R372, R383, R386). -/
def keepWarm (k : Nat) : Bool :=
  keepCold k || k == H.now || k == H.warm || k == H.evSeq || k == H.negLeft
    || k == K.NEG_STATE || k == K.NEG_WRITTEN || k == K.NEG_FREEZE_SEQ || k == K.NEG_MISSED
    || k == K.EVLOG_HEAD || decide (0x124000 ≤ k ∧ k < 0x124800) || decide (0x1C4000 ≤ k ∧ k < 0x1C8000)
    || k == K.CLMAP_SEQ || (List.range 56).any (fun i => k == K.PD_FAULTS i)

/-- The part held in a power-on or pin reset: everything stops, PD.AON included (R42, R367). -/
def State.coldReset (s : State) (cause : Nat) : State :=
  { State.reset with
    pending := s.pending
    flash := s.flash
    freeCtr := s.freeCtr
    reg := (s.reg.filter (fun p => keepCold p.1)) } |>.wr (H.rstCause) cause

/-- POWER_ON_RESET: VDD_AON has risen (0) or PWRGOOD went low (1); the part stays in reset until RESET_RELEASE (R366, R367). -/
def execPowerOnReset (pwrgood : Bool) (s : State) : Host.Outcome State Fault Refusal := .next (s.coldReset (if pwrgood then 1 else 0))

/-- PIN_RESET: RESET_N was low for at least 10 us (R366). -/
def execPinReset (s : State) : Host.Outcome State Fault Refusal := .next (s.coldReset 2)

/-- RESET_RELEASE: RESET_N rises with PWRGOOD high (R366). -/
def execResetRelease (s : State) : Host.Outcome State Fault Refusal :=
  if s.rd (H.running) = 1 then .next s else .next (s.boot (s.rd (H.rstCause)))

/-- A warm reset: every domain but PD.AON goes off and comes up again under the boot configuration (R42, R367). What was raised before it is
recorded before it; the messages it answers stay sent. -/
def State.warmNow (s : State) : State :=
  let s := s.recordTick
  let t : State := { State.reset with
    pending := s.pending
    flash := s.flash
    mem := s.mem.filter (fun c => place c.1 == .scratch)
    tx := s.tx
    freeCtr := s.freeCtr
    reg := (s.reg.filter (fun p => keepWarm p.1)) }
  let t := (t.inc (H.warm) 1 (2 ^ 32)).boot 3
  -- the map as the boot leaves it against the map before (R27)
  let same := (List.range 8).all (fun c => s.rd (K.CLMAP_PHYS c) == t.rd (K.CLMAP_PHYS c)) && s.rd K.CLMAP_SPARE == t.rd K.CLMAP_SPARE
  if same then t else t.inc K.CLMAP_SEQ 1 (2 ^ 32)

/-- A write of RESET.WARM: the reset follows the answer (R367). -/
def warmWrite (v : Nat) (s : State) : Ans := if v = 1 then ansOk (s.wr (H.warmPend) 1) else ansRange s

/-- After the answer to a request has gone: a warm reset it asked for. -/
def State.afterAnswer (s : State) : State := if s.rd (H.warmPend) = 1 then s.warmNow else s

/-! ## Images (R35, R375, R376, R356) -/

/-- A pair runs its image and becomes active (R35, R375). -/
def State.pairActive (s : State) (p : Nat) : State :=
  let s := s.wrs [(H.mgmtOn, 1), (H.mgmtCause, 0), (H.recov, 0), (K.MGMT_ACTIVE, p), (K.IDENT_FW_SLOT, s.rd (H.pairSlot p)),
    (K.IDENT_FW_VERSION, s.rd (H.pairVer p))]
  if s.rd (H.booted) = 1 then s else
  let ms := (s.now - s.rd (H.relAt)) / 1000
  (s.wrs [(H.booted, 1), (K.RESET_BOOT_TIME, ms)]).raise 0x9005 0x1840 (s.rd (H.pairSlot p) * 256 + p) ms

/-- IMAGE_LOAD: pair `p` has loaded and checked the image of its slot: cause 0 it is valid, else as FW_AUTH_FAIL gives it (R375); version
and security version of the image. -/
def execImageLoad (p : Fin 2) (cause version sec : Nat) (s : State) : Host.Outcome State Fault Refusal :=
  let p := p.val
  if !s.pdReady (1 + p) ∨ s.funcReady (1 + p) 0 ∨ 2 ≤ s.rd (H.loadTry p) then .next s else
  let b := s.rd (H.pairSlot p)
  -- no other pair is there to serve: this one does
  let first := !s.mgmtOn && (s.rd (H.mgmtCause) == 0 || s.rd K.MGMT_ACTIVE == p)
  if cause ≠ 0 then
    -- a failed start after an activation boots the previous slot (R376)
    let back := first ∧ s.rd K.FW_PENDING ≠ 0xFF
    let s := (s.wrs [(slotState b, 2), (H.pairSlot p, if back then s.rd (H.pendOld) else 1 - b)]).raise 0x9007 0x1010 b cause
    let s : State := if back then (s.wr K.FW_PENDING 0xFF).raise 0x9009 0x1010 (s.rd (H.pendOld)) version else s
    let s := s.inc (H.loadTry p) 1 4
    if s.rd (H.loadTry p) < 2 then .next s
    else if first ∧ (s.rd K.MGMT_STANDBY_STATE ≠ 3 ∨ s.rd (K.PD_FUNCS (2 - p)) = 0 ∧ 2 ≤ s.rd (H.loadTry (1 - p))) then
      .next (s.wrs [(H.mgmtOn, 1), (H.mgmtCause, 0), (H.recov, 1), (K.MGMT_ACTIVE, p)])
    else .next (if s.mgmtOn then s.standbySet 1 else s)
  else
    let s := s.wrs [(slotState b, 1), (slotVer b, version % 2 ^ 32), (H.pairVer p, version % 2 ^ 32), (H.pairSec p, sec % 2 ^ 16)]
    let s := s.funcSet (1 + p) 0
    if s.mgmtOn ∧ s.rd (H.recov) = 0 then .next (s.standbySet 0)
    else if first ∨ s.rd (H.recov) = 1 then .next (s.pairActive p).protSync
    else .next (s.standbySet 0)

/-- MGMT_SWITCHOVER: the standby pair becomes active; the former one is reset and tested, and after an activation restarts on the same image
(R356, R87, R376). A pending activation whose pair failed within 600 s is rolled back. -/
def execMgmtSwitchover (s : State) : Host.Outcome State Fault Refusal :=
  let cause := s.rd (H.mgmtCause)
  let st := s.rd K.MGMT_STANDBY_STATE
  let old := s.rd K.MGMT_ACTIVE
  let new := 1 - old
  let back := s.rd K.FW_PENDING ≠ 0xFF ∧ (cause = 1 ∨ cause = 2) ∧ s.now ≤ s.rd (H.pendEnd)
  if cause = 0 ∨ (st ≠ 0 ∧ ¬ (back ∧ st = 3)) then .next s else
  let s : State := if ¬ back then s else
    (s.wrs [(H.pairSlot new, s.rd (H.pendOld)), (H.pairVer new, s.rd (H.pendOldVer)), (H.pairSlot old, s.rd (H.pendOld)), (K.FW_PENDING, 0xFF)]).raise
      0x9009 0x1010 (s.rd (H.pendOld)) (s.rd (H.pairVer old))
  let s : State := if cause = 4 then s.wr (H.pairSlot old) (s.rd (H.pairSlot new)) else s
  let s := (s.wrs [(K.MGMT_LAST_SWITCH, s.todP), (K.PD_FUNCS (1 + old), 0), (H.loadTry old, 0)]).inc K.MGMT_SWITCHOVERS 1 (2 ^ 32)
  let s : State := if s.funcReady (1 + new) 0 then s else s.funcSet (1 + new) 0
  let s := ((s.pdMask (1 + old)).raise 0x700F 0x1A05 new (cause - 1)).pairActive new
  .next (s.sessSuspend.standbySet (if s.pdReady (1 + old) then 3 else 2)).protSync

/-- A write of FW.ACTIVATE; `cause` and `version` are what the check of the image finds (R376). -/
def fwActivateWrite (v cause version : Nat) (s : State) : Ans :=
  if 2 ≤ v then ansRange s else
  let old := s.rd K.MGMT_ACTIVE
  let alone := s.rd K.MGMT_STANDBY_STATE = 2
  if s.rd (H.recov) = 1 ∨ (¬ alone ∧ (s.rd K.MGMT_STANDBY_STATE ≠ 0 ∨ cause ≠ 0)) then ansBusy s else
  let prev := s.rd (H.pairSlot old)
  let s := s.wrs [(K.FW_ACTIVATE, v), (K.FW_PENDING, v), (H.pendEnd, s.now + 600000000), (H.pendOld, prev), (H.pendOldVer, s.rd (H.pairVer old))]
  let s := s.raise 0x9008 0x1010 v version
  if alone then
    -- the one pair restarts on image v; sessions resume when it serves again
    ansOk ((s.mgmtStop 3).wr (H.pairSlot old) v)
  else
    let s := s.wrs [(slotState v, 1), (slotVer v, version % 2 ^ 32), (H.pairSlot (1 - old), v), (H.pairVer (1 - old), version % 2 ^ 32)]
    ansOk (s.mgmtStop 3)

/-- Write one copy of the boot configuration anew with another BOOT_SLOT (R374, R376). -/
def State.bootWrite (s : State) (c slot : Nat) : State :=
  let l := (s.bootCfg).getD (bytesBE 4 0x5A484243 ++ [1, 0, 0, 0] ++ bytesBE 4 (s.rd K.XO_FREQ) ++ bytesBE 8 (2 ^ 56 - 1) ++ List.replicate 44 0)
  let b := (l.take 60).set 5 slot
  (s.flashErase (0x1000 * c) 0x1000).flashProgram (0x1000 * c) (b ++ bytesBE 4 (crc32 b))

/-- A write of FW.CONFIRM (R375, R376). -/
def fwConfirmWrite (v : Nat) (s : State) : Ans :=
  if v ≠ 1 then ansRange s
  else
    let p := s.rd K.FW_PENDING
    if p = 0xFF then ansBusy s else
    let sec := max (s.rd K.FW_SEC_VERSION) (s.rd (H.pairSec (s.rd K.MGMT_ACTIVE)))
    let s := ((s.bootWrite 1 p).bootWrite 0 p).wrs [(K.FW_CONFIRM, v), (K.FW_BOOT_SLOT, p), (K.FW_PENDING, 0xFF), (K.FW_SEC_VERSION, sec)]
    ansOk (s.raise 0x900A 0x1010 p sec)

/-- A write of FW.VERIFY: the check runs on after TIMEOUT (R60, R376). -/
def fwVerifyWrite (v : Nat) (s : State) : Ans :=
  if 2 ≤ v then ansRange s
  else if s.rd (H.verify) ≠ 0 then ansBusy s
  else ansErr 9 (s.wrs [(K.FW_VERIFY, v), (H.verify, v + 1)])

/-- FW_VERIFY_DONE: the check ends; `cause` 0 the image is valid (R375, R376). -/
def execFwVerifyDone (cause version : Nat) (s : State) : Host.Outcome State Fault Refusal :=
  let b := s.rd (H.verify)
  if b = 0 then .next s else
  let s := s.wr (H.verify) 0
  if !s.slotUsed (b - 1) then .next (s.wrs [(slotState (b - 1), 0), (slotVer (b - 1), 0)])
  else .next (s.wrs [(slotState (b - 1), if cause = 0 then 1 else 2), (slotVer (b - 1), version % 2 ^ 32)])

/-! ## Flash objects (R376) -/

/-- A flash address that may not be written now: the running image's slot, and the print slots (R376). -/
def State.flashShut (s : State) (a : Nat) : Bool :=
  let b := s.rd K.IDENT_FW_SLOT
  decide (0x1F00000 ≤ a) || (s.mgmtOn && s.rd (H.recov) == 0 && decide (slotBase b ≤ a) && decide (a < slotBase b + slotLen))

/-- Slot b's state after the sector of address `a` changed: unchecked, or empty (log 40). -/
def State.slotUncheck (s : State) (a b : Nat) : State :=
  if slotBase b ≤ a ∧ a < slotBase b + slotLen then (if s.slotUsed b then s.wr (slotState b) 3 else s.wrs [(slotState b, 0), (slotVer b, 0)]) else s

/-- A slot that is changed loses its check (log 40). -/
def State.slotTouched (s : State) (a : Nat) : State :=
  (s.slotUncheck a 0).slotUncheck a 1

/-- A write of FLASH.ERASE: the erase runs on after TIMEOUT (R60, R376). -/
def flashEraseWrite (v : Nat) (s : State) : Ans :=
  if v ≠ 1 then ansRange s
  else if s.rd K.FLASH_STATE ≠ 0 then ansBusy s
  else if s.flashShut (s.rd K.FLASH_ADDR) then ansBusy s
  else ansErr 9 (s.wrs [(K.FLASH_ERASE, v), (K.FLASH_STATE, 1), (H.eraseAt, s.rd K.FLASH_ADDR / 65536 * 65536)])

/-- FLASH_ERASE_DONE: the sector is erased (R376). -/
def execFlashEraseDone (s : State) : Host.Outcome State Fault Refusal :=
  if s.rd K.FLASH_STATE ≠ 1 then .next s
  else .next (((s.wr K.FLASH_STATE 0).flashErase (s.rd (H.eraseAt)) 65536).slotTouched (s.rd (H.eraseAt)))

/-- A write of FLASH.DATA: 1,024 bytes at ADDR, which advances (R376). -/
def flashDataWrite (v : Nat) (s : State) : Ans :=
  let a := s.rd K.FLASH_ADDR
  if s.rd K.FLASH_STATE ≠ 0 ∨ s.flashShut a then ansBusy s
  else ansOk (((s.flashProgram a (bytesBE 1024 v)).wr K.FLASH_ADDR ((a + 1024) % 0x2000000)).slotTouched a)

/-- The 1,024 bytes a read of FLASH.DATA returns (R376). -/
def State.flashData (s : State) : Nat := ofBytes (s.rdFlashes (s.rd K.FLASH_ADDR) 1024)

/-! ## Control ports (R64, R90) -/

/-- CTL_LINK: the link of control port c comes up at 1 (1 Gb/s) or 2 (2.5 Gb/s), or goes down (0); its PTP clock listens while it is up
(R64, R90, R108). -/
def execCtlLink (c : Fin 2) (link : Fin 3) (s : State) : Host.Outcome State Fault Refusal :=
  let c := c.val
  let link := link.val
  let up := link ≠ 0 ∧ s.funcReady (3 + c) 0 ∧ s.rd (K.CTL_ENABLE c) = 1
  let new := if up then link else 0
  if s.rd (K.CTL_LINK c) = new then .next s else
  let s := (s.wr (K.CTL_LINK c) new).raise 0x8007 (0x1130 + 8 * c) c new
  if new = 0 then .next ((s.ptpMove c 0).refLose (50 + c))
  else .next (if s.rd (K.REF_PTP_PORT_STATE (50 + c)) = 0 then s.ptpMove c 1 else s)

/-- A write of CTL[c].ENABLE: BUSY on the port of the writing session (R64). -/
def ctlEnableWrite (c v port : Nat) (s : State) : Ans :=
  if v = 0 ∧ port = c then ansBusy s else
  let s := s.wr (K.CTL_ENABLE c) v
  if v = 0 ∧ s.rd (K.CTL_LINK c) ≠ 0 then
    ansOk ((((s.wr (K.CTL_LINK c) 0).raise 0x8007 (0x1130 + 8 * c) c 0).ptpMove c 0).refLose (50 + c))
  else ansOk s

end Sys2Proof.Machine
end

