-- ==== Sys2Proof/Machine/Admission.lean ====
section
/-! DEFINITION. Admission: the candidate state, the units it covers, the nine stages, the plan of what is granted, trial admission and the
refusal log (spec/09 R196 to R212; spec/02 R47; spec/08 R176 to R183, R192 to R194; the checks of each chapter). -/
namespace Sys2Proof.Machine

/-! ## What admission is asked -/

/-- What admission looks at: the state, the units named, the committed state so far, the candidate state, the units it checks in full
and the order it visits (R47, R196, R198); `revive` are the references a forced free had cancelled, named again by this commit (R223). -/
structure Ask where
  s : State
  named : List Nat
  com : Nat → Nat
  cand : Nat → Nat
  fresh : List Nat
  order : List Nat
  revive : List (Nat × Nat)

/-- Key outputs of OUT[n] by a view (R193). -/
def keyOuts (rd : Nat → Nat) (n : Nat) : List Nat :=
  (List.range 48).filter (fun k => k != n && rd (K.OUT_FORMAT k) != 0 && rd (K.OUT_CONV_KEY_OUT k) == 1 && rd (K.OUT_ROUTE_PAIR k) == n)

/-- The units the changes of some units reach without naming them (R196), as bits of UMASK: an Easel's and a converter's bit is its crossbar
source number. -/
def State.reached (s : State) (com cand : Nat → Nat) (changed : List Nat) : List Nat :=
  let outs := changed.filter (fun u => u < 48)
  let near := outs.flatMap (fun n =>
    let tp := tpgsOf cand n ++ tpgsOf com n
    keyOuts cand n ++ keyOuts com n ++ bracketed cand n ++ bracketed com n
      ++ (if tp.isEmpty then [] else
        (tp.filterMap (s.tpgHeld com cand)) ++ (List.range 48).filter (fun m => (tpgsOf cand m ++ tpgsOf com m).any tp.contains)))
  let blocks := (outs ++ near).flatMap (fun n =>
    if cand (K.OUT_FORMAT n) = 0 then [] else routeBlocks cand (followed cand n))
  (near ++ blocks).eraseDups

/-- The question a COMMIT or ADM.CHECK of a UMASK asks: each named unit's Latent entries laid over the committed state (R47, R196). -/
def State.askCommit (s : State) (mask : Nat) : Ask :=
  let named := maskUnits mask
  let latView := fun k => (alGet s.lat k).getD (s.nextRd k)
  let pick := s.lat.filter (fun p => match keyUnit latView p.1 with | some u => named.contains u | none => false)
  let touched (k : Nat) : Bool := (alGet pick k).isSome || s.com.any (fun c => c.key == k)
  let com := s.vCom
  let changed := named.filter (fun u => pick.any (fun p => keyUnit latView p.1 == some u))
  let revive := (List.range 352).filterMap (fun i =>
    let k := (refKeys i).getLastD 0
    let r := refReader i
    if s.nextRd k < 65536 ∨ (alGet pick k).isSome ∨ !changed.contains (if r < 48 then r else unitEas (r - 64)) then none
    else some (k, s.nextRd k % 65536))
  let cand := wbView (fun e => s.rd (H.wbDone e) == 1) touched (fun k => (alGet pick k).getD ((alGet revive k).getD (s.nextRd k)))
  let reach := s.reached com cand changed
  let extra := (List.range 80).filter (fun u => reach.contains u && !named.contains u)
  ⟨s, named, com, cand, (changed ++ reach).eraseDups, named ++ extra, revive⟩

/-- The question a CANCEL asks of the committed state that remains (R55): `t` is the state without the cancelled values. All units of the
salvo are checked, and what relied on a cancelled value is measured against the committed state that held it. -/
def State.askCancel (s t : State) (mask : Nat) : Ask :=
  let named := maskUnits mask
  let cand := t.vCom
  let reach := s.reached s.vCom cand named
  let extra := (List.range 80).filter (fun u => reach.contains u && !named.contains u)
  ⟨s, named, s.vCom, cand, (named ++ reach).eraseDups, named ++ extra, []⟩

/-! ## Sources -/

/-- The format an input has, or had when it was last VALID: what a held stream of it is counted as. -/
def State.inFmt (s : State) (i : Nat) : Nat :=
  if (fmt (s.rd (K.IN_STAT_FORMAT i))).isSome then s.rd (K.IN_STAT_FORMAT i) else s.rd (H.lastFmt i)

/-- The input lies in a quad and is not the one that carries its stream (R145). -/
def State.quadLink (s : State) (i : Nat) : Bool := i % 4 != 0 && s.rd (K.IN_QUAD_MODE (i - i % 4)) != 0

/-- An input that a route or layer may name now: VALID with a format of the table, and no inner link of a quad (R134, R145, R176). -/
def State.inputNamed (s : State) (i : Nat) : Bool := (fmt (s.rd (K.IN_STAT_FORMAT i))).isSome && !s.quadLink i

/-- The division of the 4320p stream of an input is that of the output's quad (R18, R145). -/
def State.divisionOk (s : State) (rd : Nat → Nat) (i n : Nat) : Bool :=
  s.quadDivision (i / 4) == (if rd (K.OUT_QUAD_MODE n) % 2 = 1 then 1 else 2)

/-- The path of R176 for the route of OUT[n] in the state that prevails, with the reason of refusal that its choice gives: 0, FORMAT or
DIRECT_WINDOW. -/
def State.pathPick (s : State) (rd : Nat → Nat) (n : Nat) : Nat × Nat :=
  let c := rd (K.OUT_FORMAT n)
  let src := rd (K.OUT_ROUTE_SRC n)
  let p := rd (K.OUT_ROUTE_PATH n)
  let g := rd (K.OUT_FAMILY n)
  let off := toInt 32 (rd (K.OUT_TIMING_OFFSET n))
  if c = 0 ∨ src = 0xFF ∨ followed rd n ≠ n then (0, 0)
  else if src < 48 then
    let key := rd (K.OUT_ROUTE_KEY_SRC n)
    if s.rd (K.IN_STAT_FORMAT src) ≠ c ∨ s.quadLink src then (0, 0x29)
    else if p = 2 then (2, 0)
    else if fmtQuad c && !s.divisionOk rd src n then (if p = 1 then (0, 0x29) else (2, 0))
    else if s.directOk src c g off && (decide (48 ≤ key) || s.directOk key c g off) then (1, 0)
    else if p = 1 then (1, 0x28) else (2, 0)
  else if src < 80 then (3, 0)
  else if src < 84 then (if p = 2 ∨ (fmtQuad c ∧ src ≠ 80) then (0, 0x29) else (1, 0))
  else if src = 0xFE then (if p = 1 then (0, 0x29) else (2, 0))
  else (0, 0)

/-- A buffer a reader may name (R221): READY, SCANNING, or RETIRING, without a pending free. -/
def State.bufReadable (s : State) (b : Nat) : Bool :=
  decide (2 ≤ s.rd (K.BUF_STATE b)) && s.rd (H.bufFree b) == 0

/-- The Easel that holds a buffer as its write target, or claims it in the candidate state. -/
def Ask.wbHolder (a : Ask) (b : Nat) : Option Nat :=
  (List.range 16).find? (fun e => wbClaim a.com e == some b || wbClaim a.cand e == some b)

/-! ## Stage 1: structure (R198) -/

/-- A mapping of R155 for a format. -/
def mapOk (c m : Nat) : Bool :=
  m == 0 || (m == 1 && decide (14 ≤ c) && decide (c ≤ 16)) || (m == 2 && decide (17 ≤ c) && decide (c ≤ 24))

/-- An offset in family clock cycles lies within half a frame of a rate (R114). -/
def offOk (off : Int) (r : Nat) : Bool := decide (-((rateCycles r / 2 : Nat) : Int) ≤ off) && decide (off < (rateCycles r / 2 : Nat))

/-- Two outputs are clock-aligned by a view (R125). -/
def alignedOuts (rd : Nat → Nat) (n m : Nat) : Bool :=
  rd (K.OUT_FORMAT n) == rd (K.OUT_FORMAT m) && rd (K.OUT_FAMILY n) == rd (K.OUT_FAMILY m)
    && rd (K.OUT_TIMING_OFFSET n) == rd (K.OUT_TIMING_OFFSET m)

/-- Format, family and offset of a receiving block agree (R122, R114). -/
def timingOk (rd : Nat → Nat) (c g off : Nat) : Bool :=
  match fmt c with
  | some f => rd (K.GSYN_RATE g) == f.rate && offOk (toInt 32 off) f.rate
  | none => false

/-- A canvas is larger than its format's active picture (R256). -/
def enlarged (rd : Nat → Nat) (e : Nat) : Bool := canvasSize rd e != fmtSize (rd (K.EAS_CANVAS_FORMAT e))

/-- The buffer scanned by OUT[n] breaks R183; one an Easel writes is left to stage 3 (R221). -/
def Ask.scanBad (a : Ask) (n : Nat) : Bool :=
  let s := a.s
  let rd := a.cand
  let b := rd (K.OUT_ROUTE_BUF n) % 65536
  if 2048 ≤ b then true else
  let f := s.rd (K.BUF_FORMAT b)
  ((a.wbHolder b).isNone && !s.bufReadable b)
    || (s.rd (K.BUF_WIDTH b), s.rd (K.BUF_HEIGHT b)) != fmtSize (rd (K.OUT_FORMAT n)) || f == 5
    || (decide (2 ≤ f) && !(rd (K.OUT_CONV_MODE n) == 1 && (rd (K.OUT_CONV_PRESET n) == 2 || rd (K.OUT_CONV_PRESET n) == 4)))

/-- The route of OUT[n] breaks a structural rule (R176, R183, R192, R257, R307); a stopped Easel is left to stage 5 (R204). -/
def Ask.routeBad (a : Ask) (n : Nat) : Bool :=
  let s := a.s
  let rd := a.cand
  let src := rd (K.OUT_ROUTE_SRC n)
  let key := rd (K.OUT_ROUTE_KEY_SRC n)
  let c := rd (K.OUT_FORMAT n)
  (s.pathPick rd n).2 == 0x29
    || (src != 0xFF && decide (key < 48) && (decide (48 ≤ src) || s.rd (K.IN_CFG_KEY_INPUT key) != 1
      || s.rd (K.IN_STAT_FORMAT key) != s.rd (K.IN_STAT_FORMAT src)))
    || (src == 0xFE && a.scanBad n)
    || (decide (48 ≤ src ∧ src < 64) && rd (K.EAS_CANVAS_FORMAT (src - 48)) != 0 && (rd (K.EAS_CANVAS_FORMAT (src - 48)) != c || enlarged rd (src - 48)))
    || (decide (64 ≤ src ∧ src < 80) && (rd (K.FRC_OTIM_FORMAT (src - 64)) != c
      || rd (K.FRC_STREAM_KIND (src - 64) (rd (K.OUT_ROUTE_FRC_STREAM n))) == 0))

/-- The slate of OUT[n] breaks R171. -/
def Ask.slateBad (a : Ask) (n : Nat) : Bool :=
  let s := a.s
  let b := a.cand (K.OUT_SLATE_BUF n) % 65536
  decide (b < 2048) && (((a.wbHolder b).isNone && !s.bufReadable b) || s.rd (K.BUF_FORMAT b) != 0
    || (s.rd (K.BUF_WIDTH b), s.rd (K.BUF_HEIGHT b)) != fmtSize (a.cand (K.OUT_FORMAT n)))

/-- A Proof region of OUT[n] breaks R279, R281 or R282. -/
def Ask.prfBad (a : Ask) (n p : Nat) : Bool :=
  let rd := a.cand
  if a.s.rd (K.PRF_CFG_OUT p) ≠ n ∨ rd (K.PRF_CFG_MODE p) = 0 then false else
  let c := rd (K.OUT_FORMAT n)
  let sz := if fmtQuad c then (3840, 2160) else fmtSize c
  let w := rd (K.PRF_CFG_W p)
  let h := rd (K.PRF_CFG_H p)
  let x0 := rd (K.PRF_CFG_X0 p)
  let src := rd (K.OUT_ROUTE_SRC (followed rd n))
  w == 0 || h == 0 || decide (sz.1 < x0 + w) || decide (sz.2 < rd (K.PRF_CFG_Y0 p) + h)
    || (rd (K.OUT_SAMPLING n) == 0 && (x0 % 2 == 1 || w % 2 == 1))
    || (rd (K.PRF_CFG_MODE p) == 3 && !(decide (48 ≤ src ∧ src < 64) && rd (K.EAS_SHADOW (src - 48)) != 0))
    || (rd (K.PRF_CFG_ACTION p) == 1 && decide (48 ≤ rd (K.OUT_BRACKET_PARTNER n)))
    || (rd (K.PRF_CFG_ACTION p) == 2 && decide (2048 ≤ rd (K.OUT_SLATE_BUF n)))

/-- OUT[n] breaks a structural rule (R155, R156, R168, R169, R193 and the ones above). -/
def Ask.outBad (a : Ask) (n : Nat) : Bool :=
  let rd := a.cand
  let c := rd (K.OUT_FORMAT n)
  if c = 0 then false else
  let q := n - n % 4
  let qm := rd (K.OUT_QUAD_MODE q)
  let m := rd (K.OUT_MAPPING n)
  (if n % 4 = 0 then
      (fmtQuad c && qm != 3 && qm != 4) || (decide (3 ≤ qm) && !fmtQuad c)
        || (decide (1 ≤ qm ∧ qm ≤ 2) && !(decide (25 ≤ c) && decide (c ≤ 27)))
        || (qm != 0 && [1, 2, 3].any (fun k => rd (K.OUT_FORMAT (n + k)) != 0))
    else fmtQuad c || (qm != 0 && rd (K.OUT_FORMAT q) != 0))
    || !mapOk c m || (rd (K.OUT_SAMPLING n) != 0 && !(decide (20 ≤ c) && decide (c ≤ 24) && m == 2))
    || !timingOk rd c (rd (K.OUT_FAMILY n)) (rd (K.OUT_TIMING_OFFSET n))
    || (bracketed rd n).any (fun k => !alignedOuts rd n k
      && (rd (K.OUT_FORMAT k) == 0 || fmtClass c == fmtClass (rd (K.OUT_FORMAT k))))
    || (rd (K.OUT_CONV_KEY_OUT n) == 1 && decide (rd (K.OUT_ROUTE_PAIR n) < 48) && !alignedOuts rd n (rd (K.OUT_ROUTE_PAIR n)))
    || (keyOuts rd n).any (fun k => !alignedOuts rd n k)
    || (followed rd n == n && a.routeBad n) || a.slateBad n || (List.range 64).any (a.prfBad n)

/-- The format a test-pattern generator has for a reader other than an output: its holder's, or the reader's own when none holds it (R194). -/
def Ask.tpgFmt (a : Ask) (t c : Nat) : Nat :=
  match (a.s.tpgHeld a.com a.cand t).orElse (fun _ => a.order.find? (fun n => decide (n < 48) && (tpgsOf a.cand n).contains t)) with
  | some h => a.cand (K.OUT_FORMAT h)
  | none => c

/-- The size of the picture a layer takes in the candidate state (R263). -/
def Ask.layerSize (a : Ask) (rd : Nat → Nat) (x : Nat) : Nat × Nat :=
  let id := rd (K.LAYER_SRC_ID x) % 65536
  if (rd (K.LAYER_SRC_KIND x) = 2 ∨ rd (K.LAYER_SRC_KIND x) = 3) ∧ id < 48 then fmtSize (a.s.inFmt id)
  else if rd (K.LAYER_SRC_KIND x) = 3 ∧ 80 ≤ id then fmtSize (a.tpgFmt (id - 80) (rd (K.EAS_CANVAS_FORMAT (x / 8))))
  else a.s.layerSrcSize rd x

/-- The space of a layer by a view (R266). -/
def State.layerSpaceOf (s : State) (rd : Nat → Nat) (x : Nat) : Nat :=
  let v := rd (K.LAYER_SRC_IN_SPACE x)
  if v ≠ 0xFF then v else
  let id := rd (K.LAYER_SRC_ID x) % 65536
  let inp (i : Nat) : Nat := s.rd (K.IN_STAT_COLOR i) + (if s.rd (K.IN_STAT_SAMPLING i) = 2 then 16 else 0)
  match rd (K.LAYER_SRC_KIND x) with
  | 2 => inp id
  | 3 => if id < 48 then inp id else if id < 64 then rd (K.EAS_CANVAS_COLOR (id - 48)) else 0
  | 1 => if s.rd (K.BUF_FORMAT id) ≤ 1 then 0 else 16
  | _ => 0

/-- The source of a layer breaks R259 or R256; a stopped Easel is left to stage 5 (R204). -/
def Ask.layerSrcBad (a : Ask) (x : Nat) : Bool :=
  let s := a.s
  let rd := a.cand
  let id := rd (K.LAYER_SRC_ID x) % 65536
  let key := rd (K.LAYER_SRC_KEY x) % 65536
  let held (b : Nat) : Bool := s.rd (K.BUF_WRITER b) != 0 || (a.wbHolder b).isSome
  let inp (i : Nat) : Bool := s.inputNamed i && !fmtQuad (s.rd (K.IN_STAT_FORMAT i))
  match rd (K.LAYER_SRC_KIND x) with
  | 1 =>
    decide (2048 ≤ id) || s.rd (K.BUF_FORMAT id) == 5 || !s.bufReadable id || held id
      || (key != 0xFFFF && (decide (2048 ≤ key) || s.rd (K.BUF_FORMAT key) != 5 || !s.bufReadable key || held key
        || s.rd (K.BUF_WIDTH key) != s.rd (K.BUF_WIDTH id) || s.rd (K.BUF_HEIGHT key) != s.rd (K.BUF_HEIGHT id)))
  | 2 =>
    decide (48 ≤ id) || !inp id
      || (key != 0xFFFF && (decide (48 ≤ key) || s.rd (K.IN_CFG_KEY_INPUT key) != 1
        || s.rd (K.IN_STAT_FORMAT key) != s.rd (K.IN_STAT_FORMAT id)))
  | 3 =>
    key != 0xFFFF || decide (84 ≤ id) || (decide (id < 48) && !inp id)
      || (decide (48 ≤ id ∧ id < 64) && rd (K.EAS_CANVAS_FORMAT (id - 48)) != 0 && enlarged rd (id - 48))
      || (decide (64 ≤ id ∧ id < 80) && (rd (K.FRC_OTIM_FORMAT (id - 64)) == 0 || rd (K.FRC_STREAM_KIND (id - 64) 0) == 0))
      || (decide (80 ≤ id ∧ id < 84) && fmtQuad (a.tpgFmt (id - 80) 0))
  | _ => false

/-- The layer crops to another size than its destination (R203). -/
def Ask.scaled (a : Ask) (x : Nat) : Bool :=
  let sz := a.layerSize a.cand x
  let g := layerGeom a.cand x sz.1 sz.2
  g.2.2.1 != g.2.2.2.2.1 || g.2.2.2.1 != g.2.2.2.2.2

/-- The Enlarger whose settings a layer would be served with: the one it names, has, or would get first. -/
def Ask.enlFor (a : Ask) (x : Nat) : Nat :=
  let name := a.cand (K.LAYER_ENL_NAME x)
  if name < 32 then name else (planLead (a.com (H.layEnl x))).getD (4 * (x / 16))

/-- The layer runs on an Enlarger path (R203, R246). -/
def Ask.enlPath (a : Ask) (x : Nat) : Bool :=
  let rd := a.cand
  a.scaled x || deintActive (rd (K.ENL_CFG_DEINT (a.enlFor x))) (rd (K.LAYER_SRC_KIND x)) (a.s.layerInterlaced rd x) != 0

/-- The geometry of a layer breaks R219, R246 or R263. -/
def Ask.layerGeomBad (a : Ask) (x : Nat) : Bool :=
  let s := a.s
  let rd := a.cand
  let sz := a.layerSize rd x
  let g := layerGeom rd x sz.1 sz.2
  let wc := g.2.2.1
  let hc := g.2.2.2.1
  let wd := g.2.2.2.2.1
  let hd := g.2.2.2.2.2
  let id := rd (K.LAYER_SRC_ID x) % 65536
  let kind := rd (K.LAYER_SRC_KIND x)
  let q422 := (kind == 1 && s.rd (K.BUF_FORMAT id) == 0) || (kind == 2 && s.rd (K.IN_STAT_SAMPLING id) == 0)
  wc == 0 || hc == 0 || decide (sz.1 < g.1 + wc) || decide (sz.2 < g.2.1 + hc) || (q422 && (g.1 % 2 == 1 || wc % 2 == 1))
    || (a.enlPath x && (decide (wc < 2) || decide (16384 < wc) || decide (hc < 2) || decide (16384 < hc) || decide (wd < 2)
      || decide (8192 < wd) || decide (hd < 2) || decide (8192 < hd) || decide (16 * wd < wc) || decide (16 * wc < wd)
      || decide (16 * hd < hc) || decide (16 * hc < hd)
      || (decide (rd (K.LAYER_ENL_NAME x) < 32) && rd (K.LAYER_ENL_NAME x) / 4 != x / 16)))

/-- A premultiplied layer is converted (R266, R270). -/
def Ask.layerPremulBad (a : Ask) (x : Nat) : Bool :=
  let rd := a.cand
  rd (K.LAYER_BLEND_ALPHA_MODE x) == 1
    && (rd (K.LAYER_COLOR_PRESET x) != 0 || a.s.layerSpaceOf rd x != rd (K.EAS_CANVAS_COLOR (x / 8)))

/-- The layers of an Easel. -/
def layersOf (e : Nat) : List Nat := (List.range 8).map (fun l => 8 * e + l)

/-- EAS[e] breaks a structural rule (R256 to R278). -/
def Ask.easBad (a : Ask) (e : Nat) : Bool :=
  let s := a.s
  let rd := a.cand
  let c := rd (K.EAS_CANVAS_FORMAT e)
  if c = 0 then false else
  match fmt c with
  | none => true
  | some f =>
    let sz := canvasSize rd e
    !timingOk rd c (rd (K.EAS_CANVAS_FAMILY e)) (rd (K.EAS_CANVAS_TIMING_OFFSET e))
      || decide (sz.1 < f.w) || decide (sz.2 < f.h) || decide (f.spl < sz.1 + 8) || decide (f.lines < sz.2 + 8)
      || (decide (20 ≤ c) && (decide (4096 < sz.1) || decide (2160 < sz.2)))
      || (match wbClaim rd e with
          | some b =>
            -- a buffer another Easel holds is left to stage 3
            (s.rd (K.BUF_STATE b) != 1) || decide (2 ≤ s.rd (K.BUF_FORMAT b)) || (s.rd (K.BUF_WIDTH b), s.rd (K.BUF_HEIGHT b)) != sz
          | none => rd (K.EAS_WB_MODE e) != 0 && decide (2048 ≤ rd (K.EAS_WB_BUF e)))
      || (layersOf e).any (fun x => rd (K.LAYER_SRC_KIND x) != 0
        && (a.layerSrcBad x || (!(rd (K.LAYER_SRC_KIND x) == 3 && a.layerSize rd x == (0, 0)) && a.layerGeomBad x) || a.layerPremulBad x))
      || ((feeds rd (48 + e, 0)).flatMap (fun b => pathNodes rd b.1 b.2)).contains (48 + e, 0)

/-- The raster and rate of a converter's stream are a row of R292: output format c, source format k. -/
def frcRowOk (c k : Nat) : Bool :=
  (decide (3 ≤ c ∧ c ≤ 5) && decide (3 ≤ k ∧ k ≤ 5)) || (decide (9 ≤ c ∧ c ≤ 16) && decide (9 ≤ k ∧ k ≤ 19))
    || (decide (17 ≤ c ∧ c ≤ 19) && decide (17 ≤ k ∧ k ≤ 19)) || (decide (20 ≤ c ∧ c ≤ 27) && decide (20 ≤ k ∧ k ≤ 27))

/-- Streams of a converter that are not OFF. -/
def frcOn (rd : Nat → Nat) (f : Nat) : List Nat := (List.range 4).filter (fun k => rd (K.FRC_STREAM_KIND f k) != 0)

/-- The source format of a stream, a lost input by what it was last. -/
def Ask.streamFmt (a : Ask) (rd : Nat → Nat) (f k : Nat) : Nat :=
  let src := rd (K.FRC_STREAM_SRC f k)
  if src < 48 then a.s.inFmt src else if src < 64 then rd (K.EAS_CANVAS_FORMAT (src - 48))
  else if 80 ≤ src then a.tpgFmt (src - 80) (rd (K.FRC_OTIM_FORMAT f)) else 0

/-- FRC[f] breaks a structural rule (R289, R292); a stopped Easel is left to stage 5 (R204). -/
def Ask.frcBad (a : Ask) (f : Nat) : Bool :=
  let s := a.s
  let rd := a.cand
  let c := rd (K.FRC_OTIM_FORMAT f)
  if c = 0 then false else
  let on := frcOn rd f
  !timingOk rd c (rd (K.FRC_OTIM_FAMILY f)) (rd (K.FRC_OTIM_TIMING_OFFSET f)) || !frcRowOk c c
    || (rd (K.FRC_STREAM_KIND f 0) == 0 && !on.isEmpty)
    || on.any (fun k =>
      let src := rd (K.FRC_STREAM_SRC f k)
      let live := rd (K.FRC_STREAM_KIND f k) == 1
      let sf := a.streamFmt rd f k
      (live && (k != 0 || decide (64 ≤ src ∧ src < 80) || decide (84 ≤ src)))
        || (!live && decide (48 ≤ src))
        || (decide (src < 48) && (!s.inputNamed src || s.rd (K.IN_STAT_SCAN src) != 0))
        || (!(decide (48 ≤ src ∧ src < 64) && sf == 0) && ((decide (48 ≤ src ∧ src < 64) && enlarged rd (src - 48))
          || !frcRowOk c sf
          || (decide (2 ≤ on.length) && (decide (17 ≤ sf ∧ sf ≤ 19) || decide (17 ≤ c ∧ c ≤ 19)))
          || (rd (K.FRC_STREAM_MODE f k) == 0 && (fmt sf).map Fmt.rate != (fmt c).map Fmt.rate))))

/-- AUD.DST[d] breaks R327. -/
def Ask.dstBad (a : Ask) (d : Nat) : Bool :=
  let rd := a.cand
  let n := d / 32
  let q := n - n % 4
  rd (K.DST_SRC d) != 0xFFFF
    && ((n % 4 != 0 && rd (K.OUT_QUAD_MODE q) != 0 && rd (K.OUT_FORMAT q) != 0)
      || (List.range 48).any (fun m => rd (K.OUT_FORMAT m) != 0 && rd (K.OUT_BRACKET_PARTNER m) == n))

/-- Stage 1: the reason, or none. -/
def Ask.stage1 (a : Ask) (u : Nat) : Option (Nat × Nat × Nat) :=
  if !a.fresh.contains u then none else
  let bad := if u < 48 then a.outBad u else if u < 64 then a.easBad (u - 48) else if u < 80 then a.frcBad (u - 64)
    else if u < 88 then !offOk (toInt 32 (a.cand (K.GSYN_PHASE_OFFSET (u - 80)))) (a.cand (K.GSYN_RATE (u - 80))) else a.dstBad (u - 192)
  if bad then some (0x29, 0, 0) else none

/-! ## Enlargers (R203, R251, R253) -/

/-- A layer holds Enlarger n: by its developed, its committed or its newly made assignment. -/
def Ask.enlHeldBy (a : Ask) (new : List (Nat × Nat)) (y n : Nat) : Bool :=
  planHas (a.s.rd (H.layEnl y)) n || planHas ((alGet new y).getD (a.com (H.layEnl y))) n

/-- Layers of the cluster of layer x, x left out. -/
def mates (x : Nat) : List Nat := ((List.range 16).map (fun i => 16 * (x / 16) + i)).filter (fun y => y != x)

/-- A layer that names Enlarger n and needs one. -/
def Ask.names (a : Ask) (y n : Nat) : Bool :=
  a.cand (K.LAYER_ENL_NAME y) == n && a.cand (K.EAS_CANVAS_FORMAT (y / 8)) != 0 && a.cand (K.LAYER_SRC_KIND y) != 0 && a.enlPath y

/-- Enlargers of its cluster that layer x may be given, lowest first. -/
def Ask.enlsFree (a : Ask) (new : List (Nat × Nat)) (x : Nat) : List Nat :=
  ((List.range 4).map (fun i => 4 * (x / 16) + i)).filter (fun n =>
    !(mates x).any (fun y => a.enlHeldBy new y n || a.names y n))

/-- The assignment of layer x (R203): the packed assignment, or the reason of refusal. An Enlarger it holds it keeps. -/
def Ask.enlPlan (a : Ask) (new : List (Nat × Nat)) (x : Nat) : Nat ⊕ Nat :=
  let rd := a.cand
  let free := a.enlsFree new x
  let name := rd (K.LAYER_ENL_NAME x)
  let own := planLead (a.com (H.layEnl x))
  let lead := if name < 32 then (if free.contains name then some name else none)
    else match own with
      | some o => if free.contains o then some o else free.head?
      | none => free.head?
  let e := lead.getD (a.enlFor x)
  let active := deintActive (rd (K.ENL_CFG_DEINT e)) (rd (K.LAYER_SRC_KIND x)) (a.s.layerInterlaced rd x)
  if rd (K.LAYER_SRC_KIND x) = 0 ∨ rd (K.EAS_CANVAS_FORMAT (x / 8)) = 0 ∨ (!a.scaled x ∧ active = 0) then .inl 0 else
  let sz := a.layerSize rd x
  let g := layerGeom rd x sz.1 sz.2
  let r := match fmt (rd (K.EAS_CANVAS_FORMAT (x / 8))) with | some f => f.rate | none => 0
  match enlNeed g.2.2.1 g.2.2.2.1 g.2.2.2.2.1 g.2.2.2.2.2 r (rd (K.LAYER_ENL_QUALITY_FLOOR x)) (rd (K.ENL_CFG_VTAPS e)) (deintLines active) with
  | .refused c => .inr c
  | .single t => (match lead with | some n => .inl (planOf n none t) | none => .inr 0x24)
  | .pair t ls =>
    match lead with
    | none => .inr (if ls then 0x23 else 0x24)
    | some n =>
      match free.find? (fun p => p != n) with
      | some p => .inl (planOf n (some p) t)
      | none => .inr (if ls then 0x23 else 0x24)

/-- The assignments of all layers of the Easels that are checked, in order, with the first refusal: Easel unit and reason. -/
def Ask.enlPlans (a : Ask) : List (Nat × Nat) × Option (Nat × Nat) :=
  let es := a.order.filter (fun u => decide (48 ≤ u ∧ u < 64) && a.fresh.contains u && a.named.contains u)
  (es.flatMap (fun u => layersOf (u - 48))).foldl (fun r x =>
    match a.enlPlan r.1 x with
    | .inl v => (r.1 ++ [(x, v)], r.2)
    | .inr c => (r.1, match r.2 with | some z => some z | none => some (48 + x / 8, c))) ([], none)

/-! ## Demand (R200) -/

/-- A frame-store demand element: what it is, its stack (2: not placed), MB/s. Kinds: 0 ring write of input a, 1 STORED read of OUT[a] from
ring b, 2 scan-out of OUT[a] from buffer b, 3 slate, 4 layer fetch of layer a from b, 5 its key fetch, 6 write-back of EAS[a] to buffer b,
7 stream b of FRC[a], 8 mirror of ring a, 9 mirror of buffer a. -/
structure Elem where
  kind : Nat
  a : Nat
  b : Nat
  st : Nat
  mb : Nat
deriving DecidableEq, Repr

/-- Bytes per frame at a rate code in MB/s, rounded up. -/
def mbs (bytes r : Nat) : Nat := ceilDiv (bytes * rateNum r) (rateDen r * 1000000)

/-- Bytes of a picture as B counts them: whole 64-byte units of a line. -/
def picBytes (w h f : Nat) : Nat := minPitch f w * h

/-- A ring: input, stack, address, bytes per slot, buffer format, format code of the input. -/
structure RingAt where
  i : Nat
  st : Nat
  addr : Nat
  bytes : Nat
  f : Nat
  c : Nat
deriving DecidableEq, Repr

/-- Where ring i lies: as placed by this admission, or as it stands. -/
def State.ringAt (s : State) (new : List RingAt) (i c : Nat) : RingAt :=
  match new.find? (fun r => r.i == i) with
  | some r => r
  | none =>
    if s.rd (K.RING_SLOT_BYTES i) ≠ 0 then
      ⟨i, s.rd (K.RING_STACK i), s.rd (K.RING_ADDR i), s.rd (K.RING_SLOT_BYTES i), s.rd (K.RING_FORMAT i), s.rd (H.ringFmt i)⟩
    else
      let f := if s.rd (K.IN_STAT_SAMPLING i) = 0 then 0 else 1
      ⟨i, 2, 0, slotBytes c f, f, c⟩

/-- The write of a ring, and of its mirror. -/
def State.ringElems (s : State) (new : List RingAt) (mir : List Alloc) (i c : Nat) : List Elem :=
  let r := s.ringAt new i c
  match fmt r.c with
  | none => []
  | some f =>
    let mb := mbs (picBytes f.w f.h r.f + 32768) f.rate
    ⟨0, i, 0, r.st, mb⟩ :: (if mir.any (fun p => p.1 == 12288 + i) then [⟨8, i, 0, 1 - r.st, mb⟩] else [])

/-- Twice the fetch of a layer is multiplied by 3 when it deinterlaces with two kept lines (R200, R247). -/
def fetchMul (active : Nat) : Nat := if active = 1 ∨ active = 2 then 3 else 2

/-- What the value of a reference names for the load: buffer, stack and format. A cancelled reference goes on holding what it held
(R207, R223). -/
def State.bufSource (s : State) (v : Nat) : Option (Nat × Nat × Nat) :=
  if v < 2048 then some (v, s.rd (K.BUF_STACK v), s.rd (K.BUF_FORMAT v))
  else if 65536 ≤ v then some (v % 65536, (v / 65536 - 1) % 2, (v / 65536 - 1) / 2)
  else none

/-- The elements of OUT[n] by a view. -/
def Ask.outElems (a : Ask) (rd : Nat → Nat) (new : List RingAt) (mir : List Alloc) (n : Nat) : List Elem :=
  let s := a.s
  let c := rd (K.OUT_FORMAT n)
  let u := followed rd n
  match fmt c with
  | none => []
  | some f =>
    let src := rd (K.OUT_ROUTE_SRC u)
    let key := rd (K.OUT_ROUTE_KEY_SRC u)
    let slate := rd (K.OUT_SLATE_BUF n)
    let read (i : Nat) : Elem :=
      let r := s.ringAt new i c
      ⟨1, n, i, r.st, mbs (picBytes f.w f.h r.f + 32768) f.rate⟩
    (if src < 48 ∧ rd (H.outPath u) = 2 then
      (s.routeRings rd u).flatMap (fun i => s.ringElems new mir i c) ++ [read src] ++ (if key < 48 then [read key] else [])
     else [])
    ++ (match if src = 0xFE then s.bufSource (rd (K.OUT_ROUTE_BUF u)) else none with
        | some (b, st, pf) => [⟨2, n, b, st, mbs (picBytes f.w f.h pf) f.rate⟩]
        | none => [])
    ++ (match s.bufSource slate with
        | some (b, st, _) => [⟨3, n, b, st, mbs (picBytes f.w f.h 0) f.rate⟩]
        | none => [])

/-- The elements of EAS[e] by a view. -/
def Ask.easElems (a : Ask) (rd : Nat → Nat) (new : List RingAt) (mir : List Alloc) (e : Nat) : List Elem :=
  let s := a.s
  match fmt (rd (K.EAS_CANVAS_FORMAT e)) with
  | none => []
  | some f =>
    (layersOf e).flatMap (fun x =>
      let id := rd (K.LAYER_SRC_ID x)
      let key := rd (K.LAYER_SRC_KEY x)
      let kind := rd (K.LAYER_SRC_KIND x)
      let sz := a.layerSize rd x
      let g := layerGeom rd x sz.1 sz.2
      let mul := match planLead (rd (H.layEnl x)) with
        | some n => fetchMul (deintActive (rd (K.ENL_CFG_DEINT n)) kind (s.layerInterlaced rd x))
        | none => 2
      let fetch (pf : Nat) : Nat := ceilDiv (picBytes g.2.2.1 g.2.2.2.1 pf * mul * rateNum f.rate) (2 * rateDen f.rate * 1000000)
      if kind = 1 then
        (match s.bufSource id with | some (b, st, pf) => [⟨4, x, b, st, fetch pf⟩] | none => [])
          ++ (match s.bufSource key with | some (b, st, _) => [⟨5, x, b, st, fetch 5⟩] | none => [])
      else if kind = 2 ∧ id < 48 then
        let c := s.inFmt id
        let r := s.ringAt new id c
        (s.layerRings rd x).flatMap (fun i => s.ringElems new mir i c) ++ [⟨4, x, id, r.st, fetch r.f⟩]
          ++ (if key < 48 then let k := s.ringAt new key c; [⟨5, x, key, k.st, fetch k.f⟩] else [])
      else [])
    ++ (match wbClaim rd e with
        | some b =>
          let sz := canvasSize rd e
          let mb := mbs (picBytes sz.1 sz.2 (s.rd (K.BUF_FORMAT b))) f.rate
          let st := s.rd (K.BUF_STACK b)
          ⟨6, e, b, st, mb⟩ :: (if s.rd (K.BUF_MIRROR b) ≠ 0 then [⟨9, b, 0, 1 - st, mb⟩] else [])
        | none => [])

/-- The demand of a stream of FRC[f] on its history (R200). -/
def Ask.streamElem (a : Ask) (rd : Nat → Nat) (f k : Nat) : List Elem :=
  match fmt (a.streamFmt rd f k), fmt (rd (K.FRC_OTIM_FORMAT f)) with
  | some i, some o =>
    let m := rd (K.FRC_STREAM_MODE f k)
    let (ci, co) := if m = 3 then (10, 10) else if m = 2 then (4, 8) else (4, 4)
    [⟨7, f, k, f % 2, ceilDiv (i.w * i.h * (ci * rateNum i.rate * rateDen o.rate + co * rateNum o.rate * rateDen i.rate))
      (rateDen i.rate * rateDen o.rate * 1000000)⟩]
  | _, _ => []

/-- The elements of stream k of FRC[f] by a view. -/
def Ask.streamElems (a : Ask) (rd : Nat → Nat) (new : List RingAt) (mir : List Alloc) (f k : Nat) : List Elem :=
  (a.s.frcRings rd f k).flatMap (fun i => a.s.ringElems new mir i (a.streamFmt rd f k)) ++ a.streamElem rd f k

/-- The elements of FRC[f] by a view. -/
def Ask.frcElems (a : Ask) (rd : Nat → Nat) (new : List RingAt) (mir : List Alloc) (f : Nat) : List Elem :=
  if rd (K.FRC_OTIM_FORMAT f) = 0 then [] else
  (frcOn rd f).flatMap (a.streamElems rd new mir f)

/-- The elements of a unit by a view. -/
def Ask.elems (a : Ask) (rd : Nat → Nat) (new : List RingAt) (mir : List Alloc) (u : Nat) : List Elem :=
  if u < 48 then a.outElems rd new mir u else if u < 64 then a.easElems rd new mir (u - 48)
  else if u < 80 then a.frcElems rd new mir (u - 64) else []

/-- Total and per stack. -/
def loadOf (l : List Elem) : Nat × Nat × Nat :=
  l.eraseDups.foldl (fun t x => (t.1 + x.mb, t.2.1 + (if x.st = 0 then x.mb else 0), t.2.2 + (if x.st = 1 then x.mb else 0))) (0, 0, 0)

/-- The reservations that are counted at all times (R200, R342). -/
def State.reserved (s : State) : Nat × Nat × Nat :=
  let h := s.rd K.ADM_FIXED / 2 + s.rd K.CST_RESERVE / 2
  (s.rd K.ADM_FIXED + s.rd K.CST_RESERVE, h, h)

/-- Sum of two loads. -/
def loadAdd (a b : Nat × Nat × Nat) : Nat × Nat × Nat := (a.1 + b.1, a.2.1 + b.2.1, a.2.2 + b.2.2)

/-- What unit u holds: the elements of what it shows, has developed and has committed (R197). -/
def Ask.held (a : Ask) (u : Nat) : List Elem :=
  let l := a.s.allocs
  a.elems a.s.vAir [] l u ++ a.elems a.s.vDev [] l u ++ a.elems a.com [] l u

/-- The load held now, reservations included (R197, R200). -/
def State.heldLoad (s : State) : Nat × Nat × Nat :=
  let a : Ask := ⟨s, [], s.vCom, s.vCom, [], [], []⟩
  loadAdd (loadOf ((List.range 80).flatMap a.held)) s.reserved

/-! ## The walk: placement and load (R201, R202) -/

/-- What the walk over the units has found so far: free space, rings and mirrors placed, what each unit would hold, and the first units
refused for capacity, a mirror, and bandwidth (unit, reason, excess). -/
structure Walk where
  allocs : List Alloc
  rings : List RingAt
  mirrors : List Alloc
  per : List (Nat × List Elem)
  cap : Option (Nat × Nat)
  band : Option (Nat × Nat × Nat)

/-- The load of a walk. -/
def Walk.load (w : Walk) (s : State) : Nat × Nat × Nat := loadAdd (loadOf (w.per.flatMap (fun p => p.2))) s.reserved

/-- The rings a stream inside the part needs in a view, each with the format of its input. -/
def Ask.nodeRings (a : Ask) (rd : Nat → Nat) (b : Node) : List (Nat × Nat) :=
  if b.1 < 64 then (layersOf (b.1 - 48)).flatMap (fun x =>
    (a.s.layerRings rd x).map (fun i => (i, a.s.inFmt (rd (K.LAYER_SRC_ID x)))))
  else (a.s.frcRings rd (b.1 - 64) b.2).map (fun i => (i, a.streamFmt rd (b.1 - 64) b.2))

/-- The rings the route of OUT[n] needs. -/
def Ask.outRings (a : Ask) (rd : Nat → Nat) (n : Nat) : List (Nat × Nat) :=
  (a.s.routeRings rd (followed rd n)).map (fun i => (i, rd (K.OUT_FORMAT n)))

/-- The rings unit u needs in a view. -/
def Ask.ringsNeeded (a : Ask) (rd : Nat → Nat) (u : Nat) : List (Nat × Nat) :=
  if u < 48 then a.outRings rd u
  else if u < 64 then a.nodeRings rd (u, 0)
  else if u < 80 then (List.range 4).flatMap (fun k => a.nodeRings rd (u, k))
  else []

/-- The rings and buffers unit u reads itself that some bracketed output reads, through it and of a converter by the stream read (R201, R228):
mirror ids with stack and bytes. -/
def Ask.mirrorsNeeded (a : Ask) (rd : Nat → Nat) (w : Walk) (u : Nat) : List (Nat × Nat × Nat) :=
  let s := a.s
  let wanted (n : Nat) : Bool := rd (K.OUT_FORMAT n) != 0 && !(bracketed rd n).isEmpty
  let nodes := if u < 48 then [] else
    (((List.range 48).filter wanted).flatMap (fun n => (routeNodes rd (followed rd n)).filter (fun b => b.1 == u))).eraseDups
  let rings := if u < 48 then (if wanted u then a.outRings rd u else []) else nodes.flatMap (a.nodeRings rd)
  let bufs := if u < 48 then
      (if wanted u then (if rd (K.OUT_ROUTE_SRC (followed rd u)) = 0xFE then [rd (K.OUT_ROUTE_BUF (followed rd u))] else [])
        ++ [rd (K.OUT_SLATE_BUF u)] else [])
    else nodes.flatMap (nodeBufs rd)
  (rings.map (fun p => let r := s.ringAt w.rings p.1 p.2; (12288 + p.1, r.st, 3 * r.bytes)))
    ++ (bufs.filter (fun b => decide (b < 2048) && s.rd (K.BUF_PROTECT b) != 0)).map (fun b =>
      (4096 + b, s.rd (K.BUF_STACK b), s.rd (K.BUF_SIZE b)))

/-- Place the new rings unit u needs (R201). -/
def Ask.placeRings (a : Ask) (rd : Nat → Nat) (w : Walk) (u : Nat) : Walk :=
  let s := a.s
  let load := w.load s
  (a.ringsNeeded rd u).foldl (fun w p =>
    let r := s.ringAt w.rings p.1 p.2
    let f := if s.rd (K.IN_STAT_SAMPLING p.1) = 0 then 0 else 1
    let bytes := slotBytes p.2 f
    -- a ring of another format than the input has now is made anew
    if r.st ≠ 2 ∧ (bytes = r.bytes ∨ w.rings.any (fun q => q.i == p.1) ∨ !a.fresh.contains u) then w else
    let st := if s.stackReady 0 ∧ (!s.stackReady 1 ∨ load.2.1 ≤ load.2.2) then 0 else 1
    match lowestFit w.allocs st (3 * bytes) with
    | some x => { w with
        allocs := w.allocs ++ [(8192 + p.1, x, 3 * bytes)], rings := w.rings ++ [⟨p.1, st, x, bytes, f, p.2⟩] }
    | none => { w with
        rings := w.rings ++ [⟨p.1, st, 0, bytes, f, p.2⟩]
        cap := match w.cap with | some z => some z | none => some (u, 0x2B) }) w

/-- Place the mirrors it needs on the other stack (R201, R228). -/
def Ask.placeMirrors (a : Ask) (rd : Nat → Nat) (w : Walk) (u : Nat) : Walk :=
  (a.mirrorsNeeded rd w u).foldl (fun w m =>
    if w.allocs.any (fun p => p.1 == m.1) ∨ 2 ≤ m.2.1 then w else
    match (if a.s.stackReady (1 - m.2.1) then lowestFit w.allocs (1 - m.2.1) m.2.2 else none) with
    | some x => { w with allocs := w.allocs ++ [(m.1, x, m.2.2)], mirrors := w.mirrors ++ [(m.1, x, m.2.2)] }
    | none => { w with cap := match w.cap with | some z => some z | none => some (u, 0x2D) }) w

/-- One unit of the walk of R202; `rd` is the candidate with its paths and assignments. -/
def Ask.walk1 (a : Ask) (rd : Nat → Nat) (w : Walk) (u : Nat) : Walk :=
  let w := a.placeMirrors rd (a.placeRings rd w u) u
  let new := a.elems a.s.vAir w.rings w.allocs u ++ a.elems a.s.vDev w.rings w.allocs u ++ a.elems rd w.rings w.allocs u
  let w := { w with per := w.per.map (fun (p : Nat × List Elem) => if p.1 = u then (u, new) else p) }
  let l := w.load a.s
  let lt := a.s.rd K.ADM_LIMIT_TOTAL
  let l0 := a.s.rd K.ADM_LIMIT_S0
  let l1 := a.s.rd K.ADM_LIMIT_S1
  if w.band.isSome then w
  else if lt < l.1 then { w with band := some (u, 0x21, l.1 - lt) }
  else if l0 < l.2.1 ∨ l1 < l.2.2 then { w with band := some (u, 0x22, max (l.2.1 - l0) (l.2.2 - l1)) }
  else w

/-- The allocations that stand when a walk begins: rings and mirrors that only superseded or cancelled values needed count for no one (R188,
R197). -/
def Ask.standing (a : Ask) (rd : Nat → Nat) : List Alloc :=
  let s := a.s
  let views := [rd, s.vDev, s.vAir]
  let rings := views.flatMap s.ringsOf
  let mirrors := views.flatMap s.mirrorsOf
  s.allocs.filter (fun p =>
    if 12288 ≤ p.1 then rings.contains (p.1 - 12288) && mirrors.contains p.1
    else if 8192 ≤ p.1 then rings.contains (p.1 - 8192)
    else decide (p.1 < 4096) || s.rd (K.BUF_PROTECT (p.1 - 4096)) == 2 || mirrors.contains p.1)

/-- The walk over all units in order. -/
def Ask.walk (a : Ask) (rd : Nat → Nat) : Walk :=
  let w0 : Walk := ⟨a.standing rd, [], [], (List.range 80).map (fun u => (u, a.held u)), none, none⟩
  (a.order.filter (fun u => u < 80)).foldl (a.walk1 rd) w0

/-! ## Stage 2: domains, families, clusters, stacks (R33, R115, R201, R202) -/

/-- What stands in the way of a path: the object that holds the mnemonic of a domain that is not READY, which the refusal names as holder, or 0
where no domain does (R33; the place of the name is DESIGN CHOICE, log 64). -/
def State.pdMiss (s : State) (i : Nat) : Option Nat := if s.pdReady i then none else some (K.PD_NAME i)

/-- Neither crossbar plane is READY (R33). -/
def State.xbMiss (s : State) : Option Nat := if s.pdReady 33 then none else s.pdMiss 32

/-- The logical cluster is not mapped, or the domain of its physical one not READY (R27, R33). -/
def State.clusterMiss (s : State) (c : Nat) : Option Nat :=
  let p := s.rd (K.CLMAP_PHYS c)
  if p < 9 then s.pdMiss (34 + p) else some 0

/-- The family is LOCKED and its domains READY (R33, R115). -/
def State.familyReady (s : State) (g : Nat) : Bool := s.rd (K.GSYN_STATE g) == 3 && s.pdReady 5 && s.pdReady (6 + g / 4)

/-- The family is not LOCKED or a domain of it not READY (R33, R115). -/
def State.familyMiss (s : State) (g : Nat) : Option Nat :=
  [s.pdMiss 5, s.pdMiss (6 + g / 4), if s.familyReady g then none else some 0].findSome? id

/-- The first HBM group of a stack that is not READY (R201). -/
def State.stackMiss (s : State) (st : Nat) : Option Nat := (List.range 4).findSome? (fun y => s.pdMiss (43 + 4 * st + y))

/-- A crossbar source cannot serve: no plane, its receiver's domain, or its cluster. -/
def State.sourceMiss (s : State) (src : Nat) : Option Nat :=
  [s.xbMiss, if src < 48 then s.pdMiss (8 + src / 4) else match clusterOf src with | some c => s.clusterMiss c | none => none].findSome? id

/-- A ring a unit needs cannot be written and read: its receiver, or the stack it lies on or could lie on (R201). -/
def Ask.ringsMiss (a : Ask) (rd : Nat → Nat) (u : Nat) : Option Nat :=
  let s := a.s
  (a.ringsNeeded rd u).findSome? (fun p =>
    let r := s.ringAt [] p.1 p.2
    [s.pdMiss (8 + p.1 / 4), if r.st = 2 then (if s.stackReady 1 then none else s.stackMiss 0) else s.stackMiss r.st].findSome? id)

/-- A buffer's stack is not READY; no buffer needs none. -/
def State.bufMiss (s : State) (b : Nat) : Option Nat := if 2048 ≤ b then none else s.stackMiss (s.rd (K.BUF_STACK b))

/-- What on the path of unit u is not READY in the candidate state. -/
def Ask.unitMiss (a : Ask) (rd : Nat → Nat) (u : Nat) : Option Nat :=
  let s := a.s
  let need : List (Option Nat) :=
    if u < 48 then
      if rd (K.OUT_FORMAT u) = 0 then [] else
      let v := followed rd u
      let src := rd (K.OUT_ROUTE_SRC v)
      let key := rd (K.OUT_ROUTE_KEY_SRC v)
      [s.familyMiss (rd (K.OUT_FAMILY u)), s.pdMiss (20 + u / 4), s.bufMiss (rd (K.OUT_SLATE_BUF u)),
        if rd (H.outPath v) = 2 ∧ src < 48 then a.ringsMiss rd u
        else if src = 0xFE then s.bufMiss (rd (K.OUT_ROUTE_BUF v))
        else if src < 84 then s.sourceMiss src
        else none,
        if rd (H.outPath v) ≠ 2 ∧ src < 48 ∧ key < 48 then s.sourceMiss key else none]
    else if u < 64 then
      let e := u - 48
      if rd (K.EAS_CANVAS_FORMAT e) = 0 then [] else
      [s.familyMiss (rd (K.EAS_CANVAS_FAMILY e)), s.clusterMiss (e / 2), a.ringsMiss rd u,
        match wbClaim rd e with | some b => s.bufMiss b | none => none]
        ++ (layersOf e).flatMap (fun x =>
          match rd (K.LAYER_SRC_KIND x) with
          | 1 => [s.bufMiss (rd (K.LAYER_SRC_ID x)), s.bufMiss (rd (K.LAYER_SRC_KEY x))]
          | 3 => [s.sourceMiss (rd (K.LAYER_SRC_ID x))]
          | _ => [])
    else if u < 80 then
      let f := u - 64
      if rd (K.FRC_OTIM_FORMAT f) = 0 then [] else
      [s.familyMiss (rd (K.FRC_OTIM_FAMILY f)), s.clusterMiss (f / 2), a.ringsMiss rd u,
        if (frcOn rd f).isEmpty then none else s.stackMiss (f % 2),
        if rd (K.FRC_STREAM_KIND f 0) = 1 then s.sourceMiss (rd (K.FRC_STREAM_SRC f 0)) else none]
    else []
  need.findSome? id

/-- Stage 2. -/
def Ask.stage2 (a : Ask) (rd : Nat → Nat) (w : Walk) (u : Nat) : Option (Nat × Nat × Nat) :=
  if !a.fresh.contains u then none else
  let s := a.s
  let h := s.heldLoad
  let raises (st : Nat) : Bool :=
    let p (l : Nat × Nat × Nat) : Nat := if st = 0 then l.2.1 else l.2.2
    let lim := s.rd (if st = 0 then K.ADM_LIMIT_S0 else K.ADM_LIMIT_S1)
    decide (lim < p h) && decide (p (loadOf (a.held u)) < p (loadOf ((w.per.find? (fun q => q.1 == u)).map (fun q => q.2) |>.getD [])))
  match a.unitMiss rd u with
  | some h => some (0x2F, h, 0)
  | none => if raises 0 || raises 1 then some (0x2F, 0, 0) else none

/-! ## Stage 3: resources with one holder (R44, R199) -/

/-- A claim came before another one: it was committed already, or both are new and its unit comes first (R44). -/
def before (old old' : Bool) (k k' : Nat) : Bool := (old && !old') || (old == old' && decide (k < k'))

/-- The rate class of the quad of OUT[n] (R158): the holder's FORMAT when OUT[n] may not have its class. -/
def Ask.classHolder (a : Ask) (n : Nat) : Option Nat :=
  let s := a.s
  let rd := a.cand
  let outs := quadOuts (n / 4)
  let on (v : Nat → Nat) : List Nat := outs.filter (fun m => v (K.OUT_FORMAT m) != 0)
  let cls (v : Nat → Nat) (m : Nat) : Nat := fmtClass (v (K.OUT_FORMAT m))
  let mine := cls rd n
  -- all the active outputs move together
  let moved := ((on s.rd ++ on a.com).all a.named.contains) && (on rd).all (fun m => cls rd m == mine)
  if moved then none else
  let bad (h : Nat) (v : Nat → Nat) : Option Nat :=
    if cls v h = mine then none
    else
      let dev := (on s.rd).filter (fun m => cls s.rd m == cls v h)
      some (K.OUT_FORMAT (dev.headD h))
  match on a.com, on s.rd, on rd with
  | h :: t, _, _ => let c := s.rd (H.txqClaim (n / 4)) - 1; bad (if (h :: t).contains c then c else h) a.com
  | [], h :: _, _ => bad h s.rd
  | [], [], h :: _ => bad h rd
  | [], [], [] => none

/-- A claim that others have developed or on air holds until their cut (R197, R207). -/
def Ask.still (a : Ask) : List (Nat → Nat) := [a.s.vDev, a.s.vAir]

/-- Another bracket or key pair already binds an output that OUT[n] claims, or still does before its cut, or OUT[n] names itself; `claim` gives
the output claimed in a view, `key` the object of a claim (R169, R193). -/
def Ask.pairHolder (a : Ask) (claim : (Nat → Nat) → Nat → Option Nat) (key : Nat → Nat) (n : Nat) : Option Nat :=
  match claim a.cand n with
  | none => none
  | some m =>
    let old (k : Nat) : Bool := claim a.com k == claim a.cand k
    let binds (k : Nat) (v : Nat → Nat) : Bool := match claim v k with
      | some l => k == m || l == n || l == m
      | none => false
    if m = n then some (key n) else
    ((List.range 48).find? (fun k => k != n && ((before (old k) (old n) k n && binds k a.cand)
      || (!old n && a.still.any (binds k))))).map key

/-- The partner OUT[n] claims (R169). -/
def bracketClaim (rd : Nat → Nat) (n : Nat) : Option Nat :=
  if rd (K.OUT_FORMAT n) ≠ 0 ∧ rd (K.OUT_BRACKET_PARTNER n) < 48 then some (rd (K.OUT_BRACKET_PARTNER n)) else none

/-- The fill OUT[n] claims as a key output (R193). -/
def keyClaim (rd : Nat → Nat) (n : Nat) : Option Nat :=
  if rd (K.OUT_FORMAT n) ≠ 0 ∧ rd (K.OUT_CONV_KEY_OUT n) = 1 ∧ rd (K.OUT_ROUTE_PAIR n) < 48 then some (rd (K.OUT_ROUTE_PAIR n)) else none

/-- The holder of a generator in the candidate state: the one that holds it, or the first output visited that reads it (R194). -/
def Ask.tpgHolder (a : Ask) (t : Nat) : Option Nat :=
  (a.s.tpgHeld a.com a.cand t).orElse (fun _ => a.order.find? (fun n => decide (n < 48) && (tpgsOf a.cand n).contains t))

/-- OUT[n] does not ask of a generator what its holder has (R194): the holder's ROUTE.SRC. -/
def Ask.tpgConflict (a : Ask) (n : Nat) : Option Nat :=
  (tpgsOf a.cand n).findSome? (fun t =>
    match a.tpgHolder t with
    | none => none
    | some h =>
      let v := if (tpgsOf a.cand h).contains t then a.cand else a.s.rd
      let same (k : Nat → Nat) : Bool := v (k h) == a.cand (k n)
      if h = n ∨ (same K.OUT_FORMAT && same K.OUT_FAMILY && same K.OUT_TIMING_OFFSET && same K.OUT_ROUTE_PATTERN) then none
      else some (K.OUT_ROUTE_SRC h))

/-- A buffer OUT[n] reads is a write target of an Easel (R221): its WB.BUF. -/
def Ask.readerConflict (a : Ask) (n : Nat) : Option Nat :=
  let rd := a.cand
  let bufs := (if followed rd n = n ∧ rd (K.OUT_ROUTE_SRC n) = 0xFE then [rd (K.OUT_ROUTE_BUF n)] else []) ++ [rd (K.OUT_SLATE_BUF n)]
  bufs.findSome? (fun b => if 2048 ≤ b then none else (a.wbHolder b).map K.EAS_WB_BUF)

/-- The write target EAS[e] asks for has another writer, or still has before its cut (R197, R199): the writer's object naming it. -/
def Ask.writerConflict (a : Ask) (e : Nat) : Option Nat :=
  match wbClaim a.cand e with
  | none => none
  | some b =>
    if a.s.rd K.CST_STATUS_STATE ≠ 0 ∧ a.s.rd K.CST_DST_BUF = b then some K.CST_DST_BUF else
    let old (k : Nat) : Bool := wbClaim a.com k == some b
    ((List.range 16).find? (fun k => k != e && ((wbClaim a.cand k == some b && before (old k) (old e) k e)
      || (!old e && a.still.any (fun v => wbClaim v k == some b))))).map K.EAS_WB_BUF

/-- The live-layer port of its cluster carries another source than a LIVE layer of EAS[e] names, or still does for the other Easel before its
cut (R197, R199, R261): that layer's source. -/
def Ask.llpConflict (a : Ask) (e : Nat) : Option Nat :=
  let rd := a.cand
  let live (v : Nat → Nat) (x : Nat) : Bool := v (K.EAS_CANVAS_FORMAT (x / 8)) != 0 && v (K.LAYER_SRC_KIND x) == 3
  let old (x : Nat) : Bool := live a.com x && a.com (K.LAYER_SRC_ID x) == rd (K.LAYER_SRC_ID x)
  ((layersOf e).filter (live rd)).findSome? (fun x =>
    let other (v : Nat → Nat) (y : Nat) : Bool := live v y && v (K.LAYER_SRC_ID y) != rd (K.LAYER_SRC_ID x)
    ((mates x).find? (fun y => (other rd y && before (old y) (old x) y x)
      || (!old x && y / 8 != e && a.still.any (fun v => other v y)))).map K.LAYER_SRC_ID)

/-- An Enlarger a layer of EAS[e] names is held by another layer (R199): that layer's assignment. -/
def Ask.enlConflict (a : Ask) (e : Nat) : Option Nat :=
  (layersOf e).findSome? (fun x =>
    let n := a.cand (K.LAYER_ENL_NAME x)
    if n < 32 ∧ a.names x n then
      let old (y : Nat) : Bool := planHas (a.s.rd (H.layEnl y)) n || planHas (a.com (H.layEnl y)) n
      ((mates x).find? (fun y => (old y || a.names y n) && before (old y) (old x) y x)).map K.LAYER_ENL_NAME
    else none)

/-- A consumer of family g would no longer match its RATE, or still runs at another one under an earlier commit (R114, R197, R199): the FAMILY of
the lowest one. -/
def Ask.familyConflict (a : Ask) (g : Nat) : Option Nat :=
  let off (fam form : Nat → Nat) (u0 k : Nat) : Bool :=
    (a.cand :: (if a.named.contains (u0 + k) then [] else a.still)).any (fun v => v (fam k) == g
      && (match fmt (v (form k)) with | some f => f.rate != a.cand (K.GSYN_RATE g) | none => false))
  if a.cand (K.GSYN_RATE g) = a.com (K.GSYN_RATE g) then none else
  ((List.range 48).find? (off K.OUT_FAMILY K.OUT_FORMAT 0)).map K.OUT_FAMILY
    |>.orElse (fun _ => ((List.range 16).find? (off K.EAS_CANVAS_FAMILY K.EAS_CANVAS_FORMAT 48)).map K.EAS_CANVAS_FAMILY)
    |>.orElse (fun _ => ((List.range 16).find? (off K.FRC_OTIM_FAMILY K.FRC_OTIM_FORMAT 64)).map K.FRC_OTIM_FAMILY)

/-- The first of several conflicts, as CONFLICT with its holder. -/
def conflictOf (l : List (Option Nat)) : Option (Nat × Nat × Nat) := (l.findSome? id).map (fun h => (0x2A, h, 0))

/-- Stage 3. -/
def Ask.stage3 (a : Ask) (u : Nat) : Option (Nat × Nat × Nat) :=
  if u < 48 then
    if a.cand (K.OUT_FORMAT u) = 0 then none else
    match a.classHolder u with
    | some h => some (0x27, h, 0)
    | none =>
      match (bracketed a.cand u).find? (fun k => !alignedOuts a.cand u k && a.cand (K.OUT_FORMAT k) != 0) with
      | some k => some (0x27, K.OUT_FORMAT k, 0)
      | none => conflictOf [a.pairHolder bracketClaim K.OUT_BRACKET_PARTNER u, a.pairHolder keyClaim K.OUT_ROUTE_PAIR u, a.tpgConflict u,
          a.readerConflict u]
  else if u < 64 then
    if a.cand (K.EAS_CANVAS_FORMAT (u - 48)) = 0 then none
    else conflictOf [a.writerConflict (u - 48), a.llpConflict (u - 48), a.enlConflict (u - 48)]
  else if 80 ≤ u ∧ u < 88 then conflictOf [a.familyConflict (u - 80)]
  else none

/-! ## Stage 4: lead windows (R177, R192, R205) -/

/-- The lead of a hop from block `src` to a receiver on family g, its families' displacements counted. -/
def Ask.blockHop (a : Ask) (src g : Nat) (off : Int) (r : Nat) : Lead :=
  let b := a.s.blockTiming a.cand src
  let ph (g : Nat) : Int := toInt 32 (a.cand (K.GSYN_PHASE_OFFSET g))
  leadOf ((a.s.gNow g).2 - (a.s.gNow b.1).2) ((ph g + off) - (ph b.1 + b.2.1)) r

/-- The hop meets the window: both on families of one selector and one rate. -/
def Ask.blockHopOk (a : Ask) (src g : Nat) (off : Int) (c : Nat) : Bool :=
  let b := a.s.blockTiming a.cand src
  match fmt b.2.2, fmt c with
  | some x, some f => x.rate == f.rate && a.s.rd (K.GSYN_SEL b.1) == a.s.rd (K.GSYN_SEL g) && (a.blockHop src g off f.rate).inWindow f.lines
  | _, _ => false

/-- The lead of a generator with a holder into another receiver: it runs 1 line ahead of its holder (R194). -/
def Ask.tpgHopOk (a : Ask) (t g : Nat) (off : Int) (c : Nat) : Bool :=
  match a.tpgHolder t with
  | none => true
  | some h =>
    let rd := a.cand
    let gh := rd (K.OUT_FAMILY h)
    let ph (g : Nat) : Int := toInt 32 (rd (K.GSYN_PHASE_OFFSET g))
    match fmt (rd (K.OUT_FORMAT h)), fmt c with
    | some x, some f =>
      let l := leadOf ((a.s.gNow g).2 - (a.s.gNow gh).2) ((ph g + off) - (ph gh + toInt 32 (rd (K.OUT_TIMING_OFFSET h)))
        + (rateCycles x.rate / x.lines : Nat)) f.rate
      x.rate == f.rate && a.s.rd (K.GSYN_SEL gh) == a.s.rd (K.GSYN_SEL g) && l.inWindow f.lines
    | _, _ => false

/-- The switch-line stamp of the key input lies within 1 line of the fill's (R192). -/
def State.keyStampOk (s : State) (src key : Nat) : Bool :=
  match fmt (s.rd (K.IN_STAT_FORMAT src)) with
  | none => false
  | some f =>
    let d := leadOf ((ofPtime (s.rd (K.IN_TIMING_FRAME_TIME key)) : Int) - ofPtime (s.rd (K.IN_TIMING_FRAME_TIME src))) 0 f.rate
    decide (d.v.natAbs * f.lines ≤ d.period)

/-- A source is an Easel that is stopped in the candidate state, which stage 5 refuses (R204). -/
def Ask.stoppedEasel (a : Ask) (src : Nat) : Bool := decide (48 ≤ src ∧ src < 64) && a.cand (K.EAS_CANVAS_FORMAT (src - 48)) == 0

/-- The live hop of a layer meets the window (R205, R261). -/
def Ask.layerHopOk (a : Ask) (x : Nat) : Bool :=
  let rd := a.cand
  let id := rd (K.LAYER_SRC_ID x)
  let e := x / 8
  let c := rd (K.EAS_CANVAS_FORMAT e)
  let g := rd (K.EAS_CANVAS_FAMILY e)
  let off := toInt 32 (rd (K.EAS_CANVAS_TIMING_OFFSET e))
  if rd (K.LAYER_SRC_KIND x) ≠ 3 then true
  else if id < 48 then
    match fmt c with
    | some f => a.s.lockedTo id g && (match a.s.lambda id g off f.rate with | some l => l.inWindow f.lines | none => false)
    | none => true
  else if id < 80 then a.stoppedEasel id || a.blockHopOk id g off c
  else a.tpgHopOk (id - 80) g off c

/-- Stage 4. -/
def Ask.stage4 (a : Ask) (u : Nat) : Option (Nat × Nat × Nat) :=
  let rd := a.cand
  let bad := if !a.fresh.contains u then false
    else if u < 48 then
      let src := rd (K.OUT_ROUTE_SRC u)
      let key := rd (K.OUT_ROUTE_KEY_SRC u)
      rd (K.OUT_FORMAT u) != 0 && followed rd u == u && ((a.s.pathPick rd u).2 == 0x28
        || (decide (src < 48) && decide (key < 48) && !a.s.keyStampOk src key)
        || (decide (48 ≤ src ∧ src < 80) && !a.stoppedEasel src
          && !a.blockHopOk src (rd (K.OUT_FAMILY u)) (toInt 32 (rd (K.OUT_TIMING_OFFSET u))) (rd (K.OUT_FORMAT u))))
    else if u < 64 then rd (K.EAS_CANVAS_FORMAT (u - 48)) != 0 && (layersOf (u - 48)).any (fun x => !a.layerHopOk x)
    else false
  if bad then some (0x28, 0, 0) else none

/-! ## Stages 5 and 6 (R203, R204, R283) -/

/-- Stage 5; `enl` is the first refusal the assignments met. -/
def Ask.stage5 (a : Ask) (enl : Option (Nat × Nat)) (u : Nat) : Option (Nat × Nat × Nat) :=
  let rd := a.cand
  if !a.fresh.contains u then none
  else if u < 48 then
    if rd (K.OUT_FORMAT u) ≠ 0 ∧ followed rd u = u ∧ a.stoppedEasel (rd (K.OUT_ROUTE_SRC u)) then some (0x25, 0, 0) else none
  else if 48 ≤ u ∧ u < 64 then
    if rd (K.EAS_CANVAS_FORMAT (u - 48)) = 0 then none
    else if (layersOf (u - 48)).any (fun x => rd (K.LAYER_SRC_KIND x) == 3 && a.stoppedEasel (rd (K.LAYER_SRC_ID x))) then some (0x25, 0, 0)
    else match enl with
      | some (e, c) => if e = u then some (c, 0, 0) else none
      | none => none
  else if 64 ≤ u ∧ u < 80 then
    let f := u - 64
    let on := frcOn rd f
    match fmt (rd (K.FRC_OTIM_FORMAT f)) with
    | none => none
    | some o =>
      if on.any (fun k => rd (K.FRC_STREAM_KIND f k) == 1 && a.stoppedEasel (rd (K.FRC_STREAM_SRC f k))) then some (0x25, 0, 0) else
      let fast (r : Nat) : Nat := max (rateScaled r) (rateScaled o.rate)
      let sum : Nat := on.foldl (fun (t : Nat) (k : Nat) => match fmt (a.streamFmt rd f k) with | some i => t + i.w * i.h * fast i.rate | none => t) 0
      if (decide (2 ≤ on.length) && o.h == 2160) || decide (600000000 * 1001000 < sum) then some (0x26, 0, 0) else none
  else none

/-- Stage 6. -/
def Ask.stage6 (a : Ask) (u : Nat) : Option (Nat × Nat × Nat) :=
  let e := u - 48
  let rd := a.cand
  if u < 48 ∨ 64 ≤ u ∨ !a.fresh.contains u ∨ rd (K.EAS_SHADOW e) ≠ 2 then none else
  let old (k : Nat) : Bool := a.s.rd (K.EAS_SHADOW k) == 2 || a.com (K.EAS_SHADOW k) == 2
  let others := (List.range 16).filter (fun k => k != e && (old k || (rd (K.EAS_SHADOW k) == 2 && decide (k < e))))
  if a.s.hasLive rd e || (!old e && (a.s.rd K.CLMAP_SPARE == 0xFF || decide (2 ≤ others.length))) then some (0x2E, 0, 0) else none

/-! ## Latency (R206, R295) -/

/-- A time in ns as a fraction. -/
abbrev Q := Int × Nat

/-- Sum of fractions. -/
def qSum (l : List Q) : Q := l.foldl (fun a b => (a.1 * b.2 + b.1 * a.2, a.2 * b.2)) (0, 1)

/-- A fraction rounded up. -/
def qCeil (q : Q) : Nat := ((q.1 + (q.2 : Int) - 1) / (q.2 : Int)).toNat

/-- A natural fraction. -/
def qOf (p : Nat × Nat) : Q := ((p.1 : Int), p.2)

/-- A live source on a path: the input, the sum of the bounds and of the nominal contributions up to here. -/
structure Live where
  inp : Nat
  hi : List Q
  mid : List Q

/-- Pass an element. -/
def Live.pass (l : Live) (hi mid : List Q) : Live := ⟨l.inp, l.hi ++ hi, l.mid ++ mid⟩

/-- A lead as a fraction of ns. -/
def Lead.q (l : Lead) : Q := (l.v, l.den)

/-- θ of R206 in lines of the input: 4 alone, 6 + SKEW_MAX for a pair, 7 for a key merge. -/
def Ask.thetaLines (a : Ask) (i key : Nat) : Nat :=
  max (if a.s.rd (K.IN_BRACKET_ROLE i) = 1 then 6 + a.s.rd (K.IN_BRACKET_SKEW_MAX i) else 4) (if key < 48 then 7 else 4)

/-- The live sources of a block inside the part, with what its path adds: Easel `src`, or stream k of converter `src`. -/
def Ask.liveOf (a : Ask) (rd : Nat → Nat) : Nat → Nat → Nat → List Live
  | 0, _, _ => []
  | fuel + 1, src, k =>
    if src < 64 then
      let e := src - 48
      let c := rd (K.EAS_CANVAS_FORMAT e)
      let r := match fmt c with | some f => f.rate | none => 0
      let g := rd (K.EAS_CANVAS_FAMILY e)
      let off := toInt 32 (rd (K.EAS_CANVAS_TIMING_OFFSET e))
      (layersOf e).flatMap (fun x =>
        let id := rd (K.LAYER_SRC_ID x) % 65536
        let v := rd (H.layEnl x)
        let own := qOf (linesFrac c (if planLead v = none then 2 else (planTaps v + 1) / 2 + 5))
        let hop := [qOf (linesFrac c 2), (400, 1)]
        match rd (K.LAYER_SRC_KIND x) with
        | 2 =>
          let f := a.s.inFmt id
          let th := qOf (linesFrac f (a.thetaLines id (rd (K.LAYER_SRC_KEY x))))
          let t := periodFrac f
          [⟨id, [qOf t, th, (1000, 1), own], [((t.1 : Int), 2 * t.2), th, (500, 1), own]⟩]
        | 3 =>
          if id < 48 then
            let l := match a.s.lambda id g off r with | some l => l.q | none => (0, 1)
            [⟨id, hop ++ [own], [l, (400, 1), own]⟩]
          else if id < 80 then
            (a.liveOf rd fuel id 0).map (fun l => l.pass (hop ++ [own]) [(a.blockHop id g off r).q, (400, 1), own])
          else []
        | _ => [])
    else
      let f := src - 64
      let s' := rd (K.FRC_STREAM_SRC f k)
      let t := periodFrac (a.streamFmt rd f k)
      let m := cadenceMul (rd (K.FRC_STREAM_CADENCE f k))
      let o := qOf (periodFrac (rd (K.FRC_OTIM_FORMAT f)))
      let hi (d : List Q) : List Q := ((2 * m * t.1 : Nat), t.2) :: o :: d
      let mid (d : List Q) : List Q := ((qCeil (qSum (hi d)) : Int), 1) :: [(-((m * t.1 : Nat) : Int), 2 * t.2)]
      match rd (K.FRC_STREAM_KIND f k) with
      | 1 =>
        if s' < 48 then [⟨s', hi [(400, 1)], mid [(400, 1)]⟩]
        else if s' < 64 then (a.liveOf rd fuel s' 0).map (fun l => l.pass (hi [(400, 1)]) (mid [(400, 1)]))
        else []
      | 2 => let d : List Q := [qOf (linesFrac (a.streamFmt rd f k) 4), (1000, 1)]; [⟨s', hi d, mid d⟩]
      | _ => []

/-- The live sources of the route of OUT[n] with their sums. -/
def Ask.lives (a : Ask) (rd : Nat → Nat) (n : Nat) : List Live :=
  let u := followed rd n
  let c := rd (K.OUT_FORMAT n)
  let g := rd (K.OUT_FAMILY n)
  let off := toInt 32 (rd (K.OUT_TIMING_OFFSET n))
  let src := rd (K.OUT_ROUTE_SRC u)
  let r := match fmt c with | some f => f.rate | none => 0
  let hop := [qOf (linesFrac c 2), (400, 1)]
  if c = 0 then []
  else if src < 48 then
    if rd (H.outPath u) = 1 then
      let l := match a.s.lambda src g off r with | some l => l.q | none => (0, 1)
      [⟨src, hop, [l, (400, 1)]⟩]
    else
      let th := qOf (linesFrac c (a.thetaLines src (rd (K.OUT_ROUTE_KEY_SRC u))))
      let t := periodFrac c
      [⟨src, [qOf t, th, (2000, 1)], [((t.1 : Int), 2 * t.2), th, (1000, 1)]⟩]
  else if src < 80 then
    (a.liveOf rd 40 src (rd (K.OUT_ROUTE_FRC_STREAM u))).map (fun l => l.pass hop [(a.blockHop src g off r).q, (400, 1)])
  else []

/-- MAX_LAT, NOMINAL_LAT and LIVE_SRC of OUT[n] (R206); 0, 0 and 0xFF with no live source. -/
def Ask.latency (a : Ask) (rd : Nat → Nat) (n : Nat) : Nat × Nat × Nat :=
  (a.lives rd n).foldl (fun m l =>
    let hi := qCeil (qSum l.hi)
    if m.2.2 = 0xFF ∨ m.1 < hi then (hi, qCeil (qSum l.mid), l.inp) else m) (0, 0, 0xFF)

/-- The unit whose own route objects OUT[n] uses where a key output does not follow its fill (R193): the primary of a partner (R169). -/
def prime (rd : Nat → Nat) (n : Nat) : Nat := ((List.range 48).find? (fun m => rd (K.OUT_BRACKET_PARTNER m) == n)).getD n

/-- Stage 9. -/
def Ask.stage9 (a : Ask) (rd : Nat → Nat) (u : Nat) : Option (Nat × Nat × Nat) :=
  if 48 ≤ u ∨ !a.fresh.contains u ∨ rd (K.OUT_FORMAT u) = 0 then none else
  let l := a.latency rd u
  let req := rd (K.OUT_ROUTE_MAX_LAT_REQ (prime rd u))
  if l.2.2 ≠ 0xFF ∧ req ≠ 0 ∧ req < l.1 then some (0x2C, 0, l.1 - req) else none

/-! ## The contract (R207, R208) -/

/-- A bit for each member of a list. -/
def bitsOf (l : List Nat) : Nat := l.eraseDups.foldl (fun a i => a + 2 ^ i) 0

/-- The elements of R200 on the path of OUT[n]: of a converter those of the stream read. -/
def Ask.pathElems (a : Ask) (rd : Nat → Nat) (w : Walk) (n : Nat) : List Elem :=
  ((a.outElems rd w.rings w.allocs n).filter (fun x => x.kind != 3))
    ++ (routeNodes rd (followed rd n)).flatMap (fun b =>
      if b.1 < 64 then (a.elems rd w.rings w.allocs b.1).filter (fun x => x.kind != 6 && x.kind != 9)
      else a.streamElems rd w.rings w.allocs (b.1 - 64) b.2)

/-- Members 1 to 13 of the contract of OUT[n], as hidden objects that develop with its route (R207, R208). -/
def Ask.contract (a : Ask) (rd : Nat → Nat) (w : Walk) (grant n : Nat) : List (Nat × Nat) :=
  let u := followed rd n
  let src := rd (K.OUT_ROUTE_SRC u)
  let none' := rd (K.OUT_FORMAT n) = 0 ∨ src = 0xFF
  let lat := a.latency rd n
  let bw := loadOf (a.pathElems rd w n)
  let blocks := routeBlocks rd u
  let enls := blocks.flatMap (fun b => if b < 64 then (layersOf (b - 48)).flatMap (fun x =>
    let v := rd (H.layEnl x)
    (planLead v).toList ++ (planPart v).toList) else [])
  let rings := a.s.pathRings rd u
  let bufs := readBufs rd n u
  let prot := !(bracketed rd n).isEmpty
    && rings.all (fun i => w.allocs.any (fun p => p.1 == 12288 + i)) && bufs.all (fun b => w.allocs.any (fun p => p.1 == 4096 + b))
  let v := if none' then [0, 0, 0, 0xFF, 0, 0, 0, 0, 0, 0, 0, 0, grant] else
    [rd (H.outPath u), lat.1, lat.2.1, lat.2.2, bw.1, bw.2.1, bw.2.2, bitsOf enls,
      bitsOf (blocks.filterMap (fun b => if b < 64 then some (b - 48) else none)),
      bitsOf (blocks.filterMap (fun b => if b < 64 then none else some (b - 64))), bitsOf rings, if prot then 1 else 0, grant]
  (List.range 13).map (fun i => (H.con (16 * n + i + 1), v.getD i 0))

/-! ## Admission -/

/-- A refusal: stage, reason, unit, holder, excess. -/
structure Refuse where
  stage : Nat
  reason : Nat
  unit : Nat
  holder : Nat
  excess : Nat
deriving DecidableEq, Repr

/-- What admission answers: a refusal or none, the load had it been admitted, the paths, assignments and contracts to commit, rings and
mirrors to place, holders of generators. -/
structure Verdict where
  refused : Option Refuse
  load : Nat × Nat × Nat
  ext : List (Nat × Nat)
  rings : List RingAt
  mirrors : List Alloc
  tpg : List (Nat × Nat)
deriving DecidableEq, Repr

/-- The first unit, in order, that a stage refuses. -/
def Ask.first (a : Ask) (stage : Nat) (f : Nat → Option (Nat × Nat × Nat)) : Option Refuse :=
  a.order.findSome? (fun u => (f u).map (fun r => ⟨stage, r.1, u, r.2.1, r.2.2⟩))

/-- The outputs whose contract is made anew: the outputs checked, those that follow them, and those whose path runs through a block that
is checked (R207, R252). -/
def Ask.contracted (a : Ask) (rd : Nat → Nat) : List Nat :=
  (List.range 48).filter (fun n =>
    a.fresh.contains n || a.fresh.contains (followed rd n)
      || (rd (K.OUT_FORMAT n) != 0 && (routeBlocks rd (followed rd n)).any (fun b =>
        a.fresh.contains b && a.named.contains b)))

/-- The nine stages (R198). -/
def Ask.judge (a : Ask) (grant : Nat) : Verdict :=
  let s := a.s
  let enl := a.enlPlans
  let paths := (a.order.filter (fun n => decide (n < 48) && a.fresh.contains n)).map (fun n => (H.outPath n, (s.pathPick a.cand n).1))
  let plans := enl.1.map (fun p => (H.layEnl p.1, p.2))
  let ext := paths ++ plans
  let rd := fun k => if k < 16777216 then a.cand k else (alGet ext k).getD (a.cand k)
  let w := a.walk rd
  let r := (a.first 1 a.stage1).orElse (fun _ => (a.first 2 (a.stage2 rd w)).orElse (fun _ => (a.first 3 a.stage3).orElse (fun _ =>
    (a.first 4 a.stage4).orElse (fun _ => (a.first 5 (a.stage5 enl.2)).orElse (fun _ => (a.first 6 a.stage6).orElse (fun _ =>
    (w.cap.map (fun c => (⟨7, c.2, c.1, 0, 0⟩ : Refuse))).orElse (fun _ =>
    (w.band.map (fun b => (⟨8, b.2.1, b.1, 0, b.2.2⟩ : Refuse))).orElse (fun _ => a.first 9 (a.stage9 rd)))))))))
  let tpg := (List.range 4).map (fun t => (t, match a.tpgHolder t with | some h => h + 1 | none => 0))
  ⟨r, w.load s, a.revive ++ (ext ++ (a.contracted rd).flatMap (a.contract rd w grant)).filter (fun p => a.com p.1 != p.2), w.rings, w.mirrors, tpg⟩

/-! ## ADM.CHECK and the refusal log (R210, R211) -/

/-- A UMASK with no unit or a reserved bit (R46). -/
def maskBad (m : Nat) : Bool :=
  m == 0 || (m / 2 ^ (8 * 192) % 2 ^ (8 * 13)) != 0

/-- Record a refused COMMIT: the log, its counter, the event (R211, R212). -/
def State.logRefusal (s : State) (salvo sess : Nat) (r : Refuse) : State :=
  let h := s.rd K.REFLOG_HEAD
  let e := ofBytes (bytesBE 10 (ptimeBytes s.todP) ++ [salvo, r.reason] ++ bytesBE 2 (unitIdx r.unit) ++ bytesBE 4 r.holder
    ++ bytesBE 4 (min r.excess 0xFFFFFFFF) ++ [sess, r.stage])
  let s := s.wrs [(K.REFLOG_ENTRY (h % 32), e), (K.REFLOG_HEAD, (h + 1) % 2 ^ 32)]
  s.raise 0x800D (0x1440 + salvo) (r.reason * 65536 + unitIdx r.unit) r.holder
where
  /-- A PTIME in its 10 bytes. -/
  ptimeBytes (p : Nat) : Nat := p

/-- A write of ADM.CHECK (R210). CFG_SEQ is read after the write itself has counted. -/
def admCheckWrite (mask : Nat) (s : State) : Ans :=
  if maskBad mask then ansRange s else
  let v := (s.askCommit mask).judge (s.rd K.COMMIT_NEXT_SEQ)
  let r := v.refused.getD ⟨0, 0, 0, 0, 0⟩
  ansOk (s.wrs [(K.ADM_CHECK, mask), (K.CHECK_RESULT_REASON, r.reason), (K.CHECK_RESULT_REFUSER, if v.refused.isSome then unitIdx r.unit else 0),
    (K.CHECK_RESULT_HOLDER, r.holder), (K.CHECK_RESULT_LOAD_TOTAL, v.load.1), (K.CHECK_RESULT_LOAD_S0, v.load.2.1),
    (K.CHECK_RESULT_LOAD_S1, v.load.2.2), (K.CHECK_RESULT_CFG_SEQ, (s.rd K.IDENT_CFG_SEQ + 1) % 2 ^ 64)])

/-- A write of CST.RESERVE (R342): a raise must fit the limits with the held load. -/
def cstReserveWrite (v : Nat) (s : State) : Ans :=
  if v ≤ s.rd K.CST_RESERVE then ansOk (s.wr K.CST_RESERVE v) else
  let l := (s.wr K.CST_RESERVE v).heldLoad
  if s.rd K.ADM_LIMIT_TOTAL < l.1 ∨ s.rd K.ADM_LIMIT_S0 < l.2.1 ∨ s.rd K.ADM_LIMIT_S1 < l.2.2 then ansBusy s
  else ansOk (s.wr K.CST_RESERVE v)

end Sys2Proof.Machine
end

