-- ==== Sys2Proof/Machine/Commit.lean ====
section
/-! DEFINITION. Salvos: COMMIT and COMMIT_AT, predictions, triggers, cancelling, discarding Latent sets (spec/02 R45 to R56; spec/03 R69;
spec/08 R186 to R190; spec/09 R196, R197). -/
namespace Sys2Proof.Machine

/-! ## Predicted frames (R48, R52, R69, R186) -/

/-- The frame that opens at the first switch line of a running timing whose development point, `guard` lines before it, lies in a later
tick than the present one and not before T: its present frame `f0` began at `t0` ns. -/
def State.predRun (s : State) (c guard f0 t0 : Nat) (passed : Bool) (T : Nat) : Nat :=
  match fmt c with
  | none => 0
  | some f =>
    let frame : Int := (rateDen f.rate * 1000000000 * f.lines : Nat)
    let per : Int := (rateNum f.rate * f.lines : Nat)
    -- development point k lies at (base + k frame) / per ns
    let base : Int := (t0 : Int) * per - (guard * rateDen f.rate * 1000000000 : Nat)
    let dp : Int := base + frame
    let near := passed || (decide ((s.tod : Int) * per ≤ dp) && decide (dp < ((s.tod : Int) + 1000) * per))
    let k : Int := ((T : Int) * per - base + frame - 1) / frame
    (f0 + max (if near then 2 else 1) k.toNat) % 2 ^ 48

/-- The family frame number of the first switch-line instant at or after `t`; a receiver's instant lies `off` family clock cycles after its
family's (R69, R106, R123, R124). -/
def State.predStart (s : State) (c g : Nat) (off : Int) (t : Nat) : Nat :=
  if (fmt c).isNone then 0 else
  let r := s.gRateNow g
  let x : Int := ((t : Int) * 297 - (toInt 32 (s.rd (K.GSYN_PHASE_OFFSET g)) + off) * cycle297 r) * rateNum r
  let d : Int := (297 * 1000000000 * rateDen r : Nat)
  ((x + d - 1) / d).toNat % 2 ^ 48

/-- The frame number of the switch-line instant that opens the first frame a family's committed values govern: the first instant of the
old grid whose development point lies in a later tick and not before T (R45, R52). -/
def State.predGsyn (s : State) (g T : Nat) : Nat :=
  let r := s.rd (K.GSYN_RATE g)
  let cyc := cycle297 r
  let p := toInt 32 (s.rd (K.GSYN_PHASE_OFFSET g))
  let t := max T (s.tod + 1000)
  let x : Int := ((t : Int) * 297 + (4400 - p) * cyc) * rateNum r
  let d : Int := (297 * 1000000000 * rateDen r : Nat)
  let at' : Int := (((x + d - 1) / d) * d + p * cyc * rateNum r) / (297 * (rateNum r : Int))
  familyFrame at'.toNat (toInt 32 (s.nextRd (K.GSYN_PHASE_OFFSET g))) (s.nextRd (K.GSYN_RATE g))

/-- The predicted frame of unit u for a commit that takes effect at T, 0 for now; 0 where none can be told. T is reached in the tick that
contains it. -/
def State.predict (s : State) (u T : Nat) : Nat :=
  let T := if s.tod ≤ T then T - (T - s.tod) % 1000 else T
  let o := if u < 48 then u else (u - 192) / 32
  let start (c g off : Nat) (ready : Bool) : Nat :=
    if s.rd (K.GSYN_STATE g) = 3 ∧ ready then s.predStart c g (toInt 32 off) (max T s.tod) else 0
  if u < 48 ∨ 192 ≤ u then
    if s.rd (K.OUT_TSTATE o) = 0 then start (s.nextRd (K.OUT_FORMAT o)) (s.nextRd (K.OUT_FAMILY o)) (s.nextRd (K.OUT_TIMING_OFFSET o)) (s.pdReady (20 + o / 4))
    else s.predRun (s.air (K.OUT_FORMAT o)) (s.rd (K.OUT_DEV_GUARD o)) (s.rd (K.OUT_EVT_FRAME o)) (ofPtime (s.rd (K.OUT_EVT_FRAME_TIME o)))
      (s.rd (H.devPassed o) == 1) T
  else if u < 64 then
    let e := u - 48
    if s.rd (K.EAS_STATE_TSTATE e) = 0
    then start (s.nextRd (K.EAS_CANVAS_FORMAT e)) (s.nextRd (K.EAS_CANVAS_FAMILY e)) (s.nextRd (K.EAS_CANVAS_TIMING_OFFSET e)) (!s.unmapped u)
    else s.predRun (s.air (K.EAS_CANVAS_FORMAT e)) (s.rd (K.EAS_CANVAS_DEV_GUARD e)) (s.rd (K.EAS_CANVAS_EVT_FRAME e))
      (ofPtime (s.rd (K.EAS_CANVAS_EVT_FRAME_TIME e))) (s.rd (H.devPassed u) == 1) T
  else if u < 80 then
    let f := u - 64
    if s.rd (K.FRC_STATE_TSTATE f) = 0
    then start (s.nextRd (K.FRC_OTIM_FORMAT f)) (s.nextRd (K.FRC_OTIM_FAMILY f)) (s.nextRd (K.FRC_OTIM_TIMING_OFFSET f)) (!s.unmapped u)
    else s.predRun (s.air (K.FRC_OTIM_FORMAT f)) 2 (s.rd (K.FRC_FRC_EVT_FRAME f)) (ofPtime (s.rd (K.FRC_FRC_EVT_FRAME_TIME f)))
      (s.rd (H.devPassed u) == 1) T
  else if s.unitStopped u then 0 else s.predGsyn (u - 80) T

/-- Put a prediction into a unit's list, in place of an earlier one of the same commit. -/
def State.predPut (s : State) (u seq frame : Nat) : State :=
  (s.setVec (H.pred u) (unpairs ((pairsOf (s.vec (H.pred u))).filter (fun p => p.1 != seq) ++ [(seq, frame)]))).predSync u

/-! ## What an admission grants -/

/-- Place the rings and mirrors an admission found room for, and give the generators their holders (R194, R201, R228). -/
def State.grantPlaces (s : State) (v : Verdict) : State :=
  let s := v.rings.foldl (fun (t : State) r =>
    (if t.rd (K.RING_SLOT_BYTES r.i) = 0 then t else t.ringRelease r.i).ringPlace r.i r.st r.addr r.bytes r.f r.c) s
  let s := v.mirrors.foldl (fun (t : State) m =>
    let t := t.setAllocs (t.allocs ++ [m])
    if m.1 < 8192 then t.wrs [(K.BUF_MIRROR (m.1 - 4096), 1), (K.BUF_MIRROR_ADDR (m.1 - 4096), m.2.1)]
    else t.wrs [(K.RING_MIRROR (m.1 - 12288), 1), (K.RING_MIRROR_ADDR (m.1 - 12288), m.2.1), (H.ringSince (m.1 - 12288), 0)]) s
  v.tpg.foldl (fun (t : State) p => t.wr (H.tpgHold p.1) p.2) s

/-- Easels whose committed write-back names a buffer hold it (R199, R278). -/
def State.wbTake (s : State) : State :=
  s.upto 16 (fun e t => match wbClaim t.vCom e with
    | some b => if t.rd (K.BUF_WRITER b) = 0 then t.wr (K.BUF_WRITER b) (easIdx e) else t
    | none => t)

/-- After the committed state has changed: release what no state needs, and follow with classes, slots and protection. -/
def State.comSync (s : State) (units : List Nat) : State :=
  let s := (units.filter (fun u => decide (u < 48))).foldl (fun (t : State) n => t.txqSync (n / 4)) s.ringsSync
  s.tstSync.protSync

/-! ## Superseding (R49, R188, R274) -/

/-- A committed value is replaced before it developed: its salvo and its unit count it (R49, R52). -/
def State.supersede (s : State) (c : Com) : State :=
  let s : State := if s.rd (K.SLV_SEQ c.salvo) = c.seq
    then (s.incSat (K.SLV_SUPERSEDED_COUNT c.salvo) 1 0xFFFF).setBit (K.SLV_FLAGS c.salvo) 1 true else s
  match keyUnit s.nextRd c.key with
  | some u => s.incSat (devKey u 6) 1 0xFFFF
  | none => s

/-- A commit sets objects of a layer whose flip is pending (R274). -/
def State.replacePending (s : State) (x : Nat) : State :=
  if s.rd (K.LAYER_LSTAT_FLIP_STATE x) = 0 then s else
  let old := if s.rd (H.layOut x) = 0 then s.rd (K.LAYER_LSTAT_LAST_OUTCOME x) + 1 else s.rd (H.layOut x)
  s.wrs [(K.LAYER_LSTAT_LAST_OUTCOME x, 4), (H.layOut x, old), (K.LAYER_LSTAT_PENDING_FRAMES x, 0), (H.layRaised x, 0)]

/-- Values enter the committed stage under a grant number, each in place of an earlier one of its object. -/
def State.enterCom (s : State) (l : List (Nat × Nat)) (salvo seq : Nat) : State :=
  let objs := l.filter (fun p => decide (p.1 < 16777216))
  let repl := s.com.filter (fun c => objs.any (fun p => p.1 == c.key) && c.seq != seq)
  let layers := (objs.filterMap (fun p => keyLayer s.nextRd p.1)).eraseDups
  let s := layers.foldl State.replacePending (repl.foldl State.supersede s)
  { s with com := s.com.filter (fun c => !l.any (fun p => p.1 == c.key)) ++ l.map (fun p => ⟨p.1, p.2, salvo, seq⟩) }

/-! ## COMMIT and COMMIT_AT (R47, R51, R54) -/

/-- What a commit answers: status, and the payload's fields by SLV and the predicted frames of the outputs named. -/
structure ComAns where
  status : Nat
  s : State
  preds : List (Nat × Nat)

/-- The latest T a commit may carry, in ns (R51, R53). -/
def State.horizon (s : State) : Nat := s.tod + s.rd K.COMMIT_AT_HORIZON * 1000000000

/-- The units of a commit that have no development point develop what has taken effect (R187). -/
def State.freeUnits (s : State) (units : List Nat) : State :=
  units.foldl (fun (t : State) u => if t.unitStopped u then t.developFree u else t) s

/-- Write SLV[s] for a commit; every member but TRIGGER is overwritten (R54). -/
def State.slvWrite (s : State) (salvo state mask seq reason refuser holder at' flags : Nat) : State :=
  s.wrs [(K.SLV_STATE salvo, state), (K.SLV_UNITS salvo, mask), (K.SLV_SEQ salvo, seq), (K.SLV_REASON salvo, reason),
    (K.SLV_REFUSER salvo, refuser), (K.SLV_HOLDER salvo, holder), (K.SLV_AT salvo, at'), (K.SLV_FLAGS salvo, flags),
    (K.SLV_DEV_COUNT salvo, 0), (K.SLV_SUPERSEDED_COUNT salvo, 0), (K.SLV_COMPLETE_TIME salvo, 0), (K.SLV_CANCEL salvo, 0)]

/-- A commit of salvo and mask that is well formed and admitted (R47 step 4): `at'` is the PTIME of a COMMIT_AT, `slot` the session. -/
def State.commitTake (s : State) (salvo mask : Nat) (at' : Option Nat) (slot : Nat) (v : Verdict) : ComAns :=
  let units := maskUnits mask
  let seq := s.rd K.COMMIT_NEXT_SEQ
  let T := match at' with | some t => ofPtime t | none => 0
  let late := at'.isSome && decide (T < s.tod)
  let trig := s.rd (K.SLV_TRIGGER salvo)
  let state := if at'.isSome && !late then 2 else if trig ≠ 0xFF then 1 else 3
  let latView := fun k => (alGet s.lat k).getD (s.nextRd k)
  let pick := s.lat.filter (fun p => match keyUnit latView p.1 with | some u => units.contains u | none => false)
  -- a quad that nobody holds goes to the lowest output of this commit (R158)
  let quads := (units.filter (fun u => decide (u < 48))).map (fun n => n / 4) |>.eraseDups
  let unheld := quads.filter (fun q => (quadOuts q).all (fun n => s.rd (K.OUT_FORMAT n) == 0 && s.nextRd (K.OUT_FORMAT n) == 0))
  let s := { s with lat := s.lat.filter (fun p => !pick.contains p) }
  let s := (s.enterCom (pick ++ v.ext) salvo seq).grantPlaces v
  let s := unheld.foldl (fun (t : State) q => match (quadOuts q).find? (fun n => t.nextRd (K.OUT_FORMAT n) != 0) with
    | some n => t.wr (H.txqClaim q) (n + 1)
    | none => t) s
  let s := { s with due := s.due ++ units.map (fun u => Due.mk u salvo seq s.now) }
  let s := s.slvWrite salvo state mask seq 0 0 0 (at'.getD 0) (if late then 1 else 0)
  let s := s.wrs [(H.slvSess salvo, slot + 1), (K.COMMIT_LAST_SALVO, salvo)]
  let s := ((s.inc K.COMMIT_NEXT_SEQ 1 (2 ^ 32)).inc K.COMMIT_ADMITTED 1 (2 ^ 32)).inc K.IDENT_CFG_SEQ 1 (2 ^ 64)
  let guess := fun u => if trig ≠ 0xFF then 0 else s.predict u (if late then 0 else T)
  let preds := (units.filter (fun u => decide (u < 48))).map (fun n => (n, guess n))
  let s := units.foldl (fun (t : State) u => t.predPut u seq (guess u)) s
  ⟨0, ((if state = 3 then s.freeUnits units else s).wbTake).comSync units, preds⟩

/-- COMMIT or COMMIT_AT after the check of rights (R47). -/
def State.commit (s : State) (salvo mask : Nat) (at' : Option Nat) (slot : Nat) : ComAns :=
  let badT : Bool := match at' with | some t => decide (1000000000 ≤ t % 2 ^ 32) || decide (s.horizon < ofPtime t) | none => false
  if 63 < salvo ∨ maskBad mask ∨ badT then ⟨4, s, []⟩
  else if [1, 2, 3].contains (s.rd (K.SLV_STATE salvo)) then ⟨5, s, []⟩
  else
    let v := (s.askCommit mask).judge (s.rd K.COMMIT_NEXT_SEQ)
    match v.refused with
    | some r =>
      let s := (s.slvWrite salvo 5 mask 0 r.reason (unitIdx r.unit) r.holder (at'.getD 0) 0).wr (H.slvSess salvo) 0
      ⟨6, (s.inc K.COMMIT_REFUSED 1 (2 ^ 32)).logRefusal salvo (if slot = 16 then 0x20 else slot) r, []⟩
    | none => s.commitTake salvo mask at' slot v

/-- COMMIT_AT_TIME_REACHED: the time of day reaches T of a SCHEDULED salvo; with a trigger it is ARMED, else its units without timing
develop (R51, R54, R187). -/
def execCommitAtTimeReached (v : Fin 64) (s : State) : Host.Outcome State Fault Refusal :=
  let v := v.val
  if s.rd (K.SLV_STATE v) ≠ 2 ∨ s.tod + 999 < ofPtime (s.rd (K.SLV_AT v)) then .next s
  else if s.rd (K.SLV_TRIGGER v) ≠ 0xFF then .next (s.wr (K.SLV_STATE v) 1)
  else
    let units := maskUnits (s.rd (K.SLV_UNITS v))
    .next ((s.freeUnits units).comSync units)

/-! ## Triggers (R190) -/

/-- An ARMED salvo's trigger fires: it develops as if accepted now. -/
def State.fire (s : State) (p v : Nat) : State :=
  let seq := s.rd (K.SLV_SEQ v)
  let s := ((s.wr (K.SLV_STATE v) 3).setBit (K.SLV_FLAGS v) 2 true).raise 0x800B (0x1440 + v) (p * 256 + v) (s.tod % 1000000000)
  let s := { s with due := s.due.map (fun d => if d.seq = seq then { d with at' := s.now } else d) }
  (maskUnits (s.rd (K.SLV_UNITS v))).foldl (fun (t : State) u => t.predPut u seq (t.predict u 0)) s

/-- SALVO_TRIGGER: a qualified edge at GPIO pin p. -/
def execSalvoTrigger (p : Fin 32) (s : State) : Host.Outcome State Fault Refusal :=
  let p := p.val
  if !s.pdReady 55 ∨ s.rd (K.PIN_FUNC p) ≠ 6 then .next s else
  let h := s.rd (H.trigHold p)
  if h ≠ 0 ∧ s.now < h + 10000 then .next (s.raise 0x800C 0x1E00 p 1) else
  -- a salvo accepted in this tick is ARMED after the trigger
  let l := (List.range 64).filter (fun v => s.rd (K.SLV_STATE v) == 1 && s.rd (K.SLV_TRIGGER v) == p
    && !s.due.any (fun d => d.seq == s.rd (K.SLV_SEQ v) && d.at' == s.now))
  if l.isEmpty then .next (s.raise 0x800C 0x1E00 p 0) else
  let s := l.foldl (fun (t : State) v => t.fire p v) (s.wr (H.trigHold p) (s.now + 1))
  let units := (l.flatMap (fun v => maskUnits (s.rd (K.SLV_UNITS v)))).eraseDups
  .next ((s.freeUnits units).comSync units)

/-- TRIGGER_HOLDOFF_END: 10 ms after a trigger its pin is watched again. -/
def execTriggerHoldoffEnd (p : Fin 32) (s : State) : Host.Outcome State Fault Refusal :=
  let h := s.rd (H.trigHold p.val)
  .next (if h ≠ 0 ∧ h + 9999 ≤ s.now then s.wr (H.trigHold p.val) 0 else s)

/-! ## Writes: LATENT_DISCARD, SLV.TRIGGER, SLV.CANCEL -/

/-- A write of LATENT_DISCARD (R50). -/
def latentDiscardWrite (mask : Nat) (s : State) : Ans :=
  if maskBad mask then ansRange s else
  let units := maskUnits mask
  let latView := fun k => (alGet s.lat k).getD (s.nextRd k)
  ansOk ({ s with lat := s.lat.filter (fun p => match keyUnit latView p.1 with | some u => !units.contains u | none => true) }.wr
    K.LATENT_DISCARD mask)

/-- A write of SLV[s].TRIGGER: BUSY while ARMED or SCHEDULED; the pin must have the function (R53, R190). -/
def slvTriggerWrite (v p : Nat) (s : State) : Ans :=
  if s.rd (K.SLV_STATE v) = 1 ∨ s.rd (K.SLV_STATE v) = 2 then ansBusy s
  else if p ≠ 0xFF ∧ s.rd (K.PIN_FUNC p) ≠ 6 then ansRange s
  else ansOk (s.wr (K.SLV_TRIGGER v) p)

/-- The commit that still owes a development of an entry's unit, or holds its pending layer: salvo and grant number. -/
def State.owner (t : State) (k : Nat) : Option (Nat × Nat) :=
  match keyUnit t.nextRd k with
  | none => none
  | some u =>
    match (t.due.filter (fun d => d.unit == u)).foldl
        (fun (m : Option Due) d => match m with | some x => if x.seq < d.seq then some d else some x | none => some d) none with
    | some d => some (d.salvo, d.seq)
    | none => (t.com.find? (fun c => (keyLayer t.nextRd c.key).isSome && keyLayer t.nextRd c.key == keyLayer t.nextRd k)).map
        (fun c => (c.salvo, c.seq))

/-- A trigger that waits in the present tick fires salvo v, before a CANCEL of the tick is looked at (R190). -/
def State.triggerDue (s : State) (v : Nat) : Bool :=
  let p := s.rd (K.SLV_TRIGGER v)
  let h := s.rd (H.trigHold p)
  s.rd (K.SLV_STATE v) == 1 && s.pdReady 55 && s.rd (K.PIN_FUNC p) == 6 && (h == 0 || decide (h + 10000 ≤ s.now))
    && !s.due.any (fun d => d.seq == s.rd (K.SLV_SEQ v) && d.at' == s.now)
    && s.arrives (fun c => match c with | .salvoTrigger q => q.val == p | _ => false)

/-- A write of SLV[s].CANCEL 1 (R55): the committed values return to the Latent sets, what remains is admitted and held anew. -/
def slvCancelWrite (v x : Nat) (s : State) : Ans :=
  if (s.rd (K.SLV_STATE v) ≠ 1 ∧ s.rd (K.SLV_STATE v) ≠ 2) ∨ s.triggerDue v then ansBusy s else
  let seq := s.rd (K.SLV_SEQ v)
  let mask := s.rd (K.SLV_UNITS v)
  let units := maskUnits mask
  let mine := s.com.filter (fun c => c.seq == seq)
  let back := mine.filter (fun c => decide (c.key < 16777216) && (alGet s.lat c.key).isNone)
  let t := { s with
    com := s.com.filter (fun c => c.seq != seq)
    due := s.due.filter (fun d => d.seq != seq)
    lat := back.foldl (fun l c => alSet l c.key c.val) s.lat }
  let w := (s.askCancel t mask).judge 0
  match w.refused with
  | some r => ansBusy (s.raise 0x800D (0x1440 + v) (r.reason * 65536 + unitIdx r.unit) r.holder)
  | none =>
    let ext : List Com := w.ext.filterMap (fun p =>
      match t.owner p.1 with
      | none => none
      | some o =>
        let val := if (conOut p.1).any (fun n => p.1 == H.con (16 * n + 13)) then o.2 else p.2
        if t.nextRd p.1 = val then none else some (Com.mk p.1 val o.1 o.2))
    let t : State := { t with com := t.com.filter (fun (c : Com) => !ext.any (fun (e : Com) => e.key == c.key)) ++ ext }
    let t := units.foldl (fun (t : State) u => t.predDrop u [seq]) (t.grantPlaces w)
    let t := (t.wrs [(K.SLV_STATE v, 6), (K.SLV_CANCEL v, x)]).salvoDone v 6
    ansOk (t.wbTake.comSync units)

end Sys2Proof.Machine
end

