-- ==== Sys2Proof/Machine/Operands.lean ====
section
/-! DEFINITION. The forms of a written value: the types and ranges of R39, the levels of R41. -/
namespace Sys2Proof.Machine

/-! ## Types, ranges and levels (R39 to R41) -/

/-- The value some bytes spell for a type; `none` where the length does not match. A short STR is padded (R39). -/
def Ty.take (t : Ty) (l : List Nat) : Option Nat :=
  match t with
  | .str n => if l.length ≤ n then some (ofBytes (l ++ List.replicate (n - l.length) 0)) else none
  | _ => if l.length = t.size then some (ofBytes l) else none

/-- The value lies in the range of its type (R39). -/
def Ty.valid (t : Ty) (v : Nat) : Bool :=
  match t with
  | .bool => decide (v ≤ 1)
  | .ptime => decide (v % 2 ^ 32 < 1000000000)
  | _ => true

/-- The value lies in the stated range (R39). -/
def Rng.admits (r : Rng) (t : Ty) (v : Nat) : Bool :=
  match r with
  | .any => true
  | .rng lo hi => decide (lo ≤ v) && decide (v ≤ hi)
  | .srng lo hi => decide (lo ≤ toInt (8 * t.size) v) && decide (toInt (8 * t.size) v ≤ hi)
  | .mask m => v &&& m == v
  | .set l => l.contains v
  | .mul m lo hi => decide (v % m = 0) && decide (lo ≤ v) && decide (v ≤ hi)
  | .rngOr lo hi l => (decide (lo ≤ v) && decide (v ≤ hi)) || l.contains v
  | .lut => (List.range 64).all (fun i => decide (v / 65536 ^ i % 65536 ≤ 4095))

/-- An object accepts a value: in range, or the default of an RW or RL object (R39). -/
def Loc.admits (l : Loc) (k v : Nat) : Bool :=
  ((l.row.acc == .rw || l.row.acc == .rl) && v == dflt k) || (l.row.ty.valid v && l.row.rng.admits l.row.ty v)

/-- Rights hold a level; 0xFF is none (R41, R69). -/
def holds (rights lvl : Nat) : Bool := rights != 0xFF && decide (lvl ≤ rights)

end Sys2Proof.Machine
end

