-- ==== Sys2Proof/Machine/Write.lean ====
section
/-! DEFINITION. Reading and writing objects: the checks of R36 to R44, what a write of each object does, what a read returns (R56), and the
operations of READ, WRITE, BLOCK_READ and BLOCK_WRITE (R37, R43, R70). -/
namespace Sys2Proof.Machine

/-! ## Where an object is, and what limits it -/

/-- The object at an address as QCP sees it: in RECOVERY only 1000 to 10FF are there (R35, R375). -/
def State.findObj (s : State) (k : Nat) : Option Loc :=
  if s.rd (H.recov) = 1 ∧ ¬ (0x100000 ≤ k ∧ k < 0x110000) then none else locate k

/-- The status for an address that is not in the dictionary: in the factory range F000 to FFFF, whose objects are not published and which is
for SERVICE only, ACCESS below SERVICE and NOT_PRESENT to SERVICE (R37, R38; DESIGN CHOICE, log 59). -/
def absent (rights k : Nat) : Nat := if 0xF00000 ≤ k ∧ ¬ holds rights 3 then 2 else 1

/-- The pending view of an object: Latent value, else committed, else developed (R56). -/
def State.latView (s : State) (k : Nat) : Nat := (alGet s.lat k).getD (s.nextRd k)

/-- Limits between two objects, against the value the other one will hold: LINE_MATCH and the developed format, the fetch watermarks,
the motion and confidence thresholds; a Bracket partner lies in another TX quad (R129, R132, R169, R248, R298); a member of a loadable
table keeps R245. The default is always accepted (R39). -/
def State.pairOk (s : State) (l : Loc) (v : Nat) : Bool :=
  v == (specialDflt l).getD l.row.dflt ||
  match l.kind, l.off, l.sub with
  | .out, 6, 1 => decide (48 ≤ v) || v / 4 != l.i / 4
  | .out, 0x13, _ => match fmt (s.rd (K.OUT_FORMAT l.i)) with | some f => decide (v ≤ f.lines) | none => true
  | .out, 0x16, 1 => decide (s.rd (K.OUT_FETCH_W2 l.i) + 256 ≤ v)
  | .out, 0x16, 2 => decide (v + 256 ≤ s.rd (K.OUT_FETCH_W1 l.i))
  | .ref, 0, 9 => decide (v ≤ s.rd (K.REF_HARD l.i))
  | .ref, 0, 10 => decide (s.rd (K.REF_SOFT l.i) ≤ v)
  | .enl, 0x10, _ | .enl, 0x11, _ | .enl, 0x12, _ | .enl, 0x13, _ => coefsOk 16 v
  | .enl, 0x14, _ | .enl, 0x15, _ | .enl, 0x16, _ | .enl, 0x17, _ => coefsOk 8 v
  | .enl, 0, 5 => decide (v < s.latView (K.ENL_CFG_MOT_HI l.i))
  | .enl, 0, 6 => decide (s.latView (K.ENL_CFG_MOT_LO l.i) < v)
  | .frc, 1, 1 => decide (s.latView (K.FRC_EST_CONF_LO l.i) < v)
  | .frc, 1, 2 => decide (v < s.latView (K.FRC_EST_CONF_THR l.i))
  | _, _, _ => true

/-! ## What a write does -/

/-- What the request that writes brings along: the port it came by, its session record, and what the surroundings hand over for the
object (a phase, what the check of an image found). -/
structure Wctx where
  port : Nat
  slot : Nat
  x : List Int

/-- The first operand of the surroundings, as an integer. -/
def Wctx.d (c : Wctx) : Int := c.x[0]?.getD 0
/-- Operand `i` of the surroundings, as a number. -/
def Wctx.n (c : Wctx) (i : Nat) : Nat := (c.x[i]?.getD 0).toNat

/-- A write of KEY[L] (R73, R90). -/
def keyWrite (k v slot : Nat) (s : State) : Ans :=
  ansOk ((s.wr k v).raise 0x8009 (sessIdx slot) (k / 256 - 0x1101) (if slot = 16 then 0 else s.rd (K.SESS_ID slot)))

/-- A write of an object of CTL[c]; a changed address leaves the sessions of the old one without a path until they send (R64). -/
def ctlWrite (c sub k v port : Nat) (s : State) : Ans :=
  if sub = 2 then ctlEnableWrite c v port s
  else if (sub = 5 ∨ sub = 8) ∧ s.rd k ≠ v then
    ansOk ((s.wr k v).upto 16 (fun i t =>
      let old := if sub = 5 then 0xFFFF * 2 ^ 32 + s.rd k else s.rd k
      if t.rd (K.SESS_STATE i) ≠ 0 ∧ t.rd (K.SESS_PORT i) = c ∧ t.rd (H.sessOwn i) = old then t.wr (H.sessMute i) 1 else t))
  else ansOk (s.wr k v)

/-- A write of one unit of the window (R226). -/
def winWrite (k v : Nat) (s : State) : Ans :=
  let a := winCheck k k true s
  if a.st = 0 then ansOk (a.s.winPut k v) else a

/-- A write of BUF[b].STATE; a buffer the Copy Stand holds changes only by force, which stops the Copy Stand (R221, R223, R340). -/
def bufStWrite (b v : Nat) (s : State) : Ans :=
  if v = 0x80 then bufForceWrite b (if s.cstHolds b then s.cstAbort 1 else s)
  else if s.cstHolds b then ansBusy s
  else bufStateWrite b v s

/-- A write of a single object of the index map. -/
def globWrite (k v : Nat) (c : Wctx) (s : State) : Ans :=
  if k = K.FW_ACTIVATE then fwActivateWrite v (c.n 0) (c.n 1) s
  else if k = K.FW_CONFIRM then fwConfirmWrite v s
  else if k = K.FW_VERIFY then fwVerifyWrite v s
  else if k = K.FLASH_ERASE then flashEraseWrite v s
  else if k = K.FLASH_DATA then flashDataWrite v s
  else if 0x110100 ≤ k ∧ k < 0x110500 then keyWrite k v c.slot s
  else if k = K.LATENT_DISCARD then latentDiscardWrite v s
  else if k = K.RESET_WARM then warmWrite v s
  else if k = K.XBAR_RETEST then xbarRetestWrite v s
  else if k = K.CLUSTERS_RETEST then retestWrite v s
  else if k = K.TSTRIP_ENABLE ∨ k = K.TSTRIP_ROT_PERIOD then tstripWrite k v s
  else if k = K.TSTRIP_ROTATE_NOW then rotateNowWrite v s
  else if k = K.MGMT_SWITCHOVER then mgmtSwitchoverWrite v s
  else if k = K.NEG_RELEASE then negReleaseWrite v s
  else if k = K.NEG_PRINT then negPrintWrite v s
  else if k = K.GPIO_OUT then pinWrite k v s
  else if 0x681101 ≤ k ∧ k < 0x681129 then winWrite (k % 256) v s
  else if 0x800001 ≤ k ∧ k < 0x800100 then cstSetupWrite k v s
  else if k = K.CST_GO then cstGoWrite v s
  else if k = K.CST_ABORT then cstAbortWrite v s
  else if k = K.CST_RESERVE then cstReserveWrite v s
  else if k = K.CST_IRQ_ACK then cstIrqAckWrite v s
  else if k = K.TOD_SEL then todSelWrite v s
  else if k = K.TOD_SET then todSet v s
  else if k = K.TOD_UTC_OFFSET then utcWrite v s
  else if k = K.LOL_CLEAR then lolClear s
  else if k = K.AUD_SLEW_RATE then slewRateWrite v s
  else if k = K.ADM_CHECK then admCheckWrite v s
  else ansOk (s.wr k v)

/-- What an accepted value does at an object that is not RL (R40). -/
def writeEffect (l : Loc) (k v : Nat) (c : Wctx) (s : State) : Ans :=
  match l.kind with
  | .glob => globWrite k v c s
  | .slv => if l.sub = 0xC then slvTriggerWrite l.i v s else if l.sub = 0xD then slvCancelWrite l.i v s else ansOk (s.wr k v)
  | .ctl => ctlWrite l.i l.sub k v c.port s
  | .pd => if l.sub = 2 then pdEnableWrite l.i v c.port s else if l.sub = 8 then pdForceWrite l.i v s else ansOk (s.wr k v)
  | .pin => if l.sub = 1 then pinFuncWrite l.i v s else pinWrite k v s
  | .inp =>
    match l.off, l.sub with
    | 1, 1 => rateModeWrite l.i v s
    | 1, 3 => keyInputWrite l.i v s
    | 1, 5 => ansOk (let s := s.wr k v; if s.rd (K.IN_STAT_STATE l.i) = 4 then s.inPicture l.i else s)
    | 5, 1 => inPartnerWrite l.i v s
    | 5, 5 => selectWrite l.i v s
    | 6, 1 => quadModeWrite l.i v s
    | 0x3F, _ => statsClearWrite k v s
    | _, _ => ansOk (s.wr k v)
  | .out =>
    match l.off, l.sub with
    | 6, 4 => outReleaseWrite l.i v s
    | 7, 2 => slateCmdWrite l.i v s
    | 0x16, _ => ansOk ((s.wr k v).setLevel l.i (s.rd (K.OUT_FETCH_LEVEL l.i)))
    | 0x17, 4 => irqAckWrite l.i v s
    | 0x23, 6 => measuredClearWrite l.i v s
    | 0x3F, _ => statsClearWrite k v s
    | _, _ => ansOk (s.wr k v)
  | .eas | .frc | .ain => if l.row.acc = .cmd then statsClearWrite k v s else ansOk (s.wr k v)
  | .prf => if l.off = 0 then prfOutWrite l.i v s else if l.off = 2 then proofLearnWrite l.i v s else ansOk (s.wr k v)
  | .buf =>
    if l.sub = 1 then bufStWrite l.i v s
    else if l.sub = 9 then bufAllocWrite l.i s
    else if l.sub = 8 then ansOk (s.wr k v)
    else bufGeomWrite l.i k v s
  | .ref => refWrite l.i k v s
  | .sel => if l.sub = 1 then selModeWrite l.i v c.d s else if l.sub = 0xD then ncoWrite l.i v s else ansOk (s.wr k v)
  | .gsyn =>
    if l.off = 0 ∧ l.sub = 0xF then relockWrite l.i v s
    else if l.off = 0x11 then rampWrite l.i v s
    else gsynWrite l.i k v c.d s
  | _ => ansOk (s.wr k v)

/-- The entries of part p of a table of a layer, as its OCT value (R267). -/
def lutPart (f : Nat → Nat) (p : Nat) : Nat := (List.range 64).foldl (fun a i => a * 65536 + f (64 * p + i)) 0

/-- What PRESET 0 or 1 of layer x loads: its tables and its matrix, from its space to the canvas space as the Latent values name them
(R266, R267; log 86). -/
def State.layerPreset (s : State) (x v : Nat) : State :=
  let inSp := s.layerSpaceOf s.latView x
  let outSp := s.latView (K.EAS_CANVAS_COLOR (x / 8))
  let a : Nat → Nat := if v = 0 then id else lutAGen inSp
  let b : Nat → Nat := if v = 0 then id else lutBGen outSp
  let m := if v = 0 then primMatrix 0 0 else primMatrix inSp outSp
  let s := s.upto 64 (fun p t => (t.latPut (K.LAYER_LUT_A_PART x p) (lutPart a p)).latPut (K.LAYER_LUT_B_PART x p) (lutPart b p))
  let s := s.upto 9 (fun i t => t.latPut (K.LAYER_COLOR_MATRIX x i) (ofInt 16 (m.getD i 0)))
  s.upto 3 (fun i t => (t.latPut (K.LAYER_COLOR_INOFF x i) 0).latPut (K.LAYER_COLOR_OUTOFF x i) 0)

/-- An RL value enters its Latent set; a converter preset 0 to 6 takes its COEF, INOFF and OUTOFF along, a layer's PRESET 0 or 1 its
tables and matrix (R40, R162, R267). -/
def State.stage (s : State) (l : Loc) (k v : Nat) : State :=
  let s := s.latPut k v
  match l.kind, l.off, l.sub with
  | .out, 3, 2 =>
    if 7 ≤ v then s else
    let p := convPreset v
    let put (key : Nat → Nat) (vs : List Int) (s : State) : State :=
      s.upto vs.length (fun i t => t.latPut (key i) (ofInt 16 (vs.getD i 0)))
    put (K.OUT_CONV_OUTOFF l.i) p.2.2 (put (K.OUT_CONV_INOFF l.i) p.2.1 (put (K.OUT_CONV_COEF l.i) p.1 s))
  | .lay, 3, 1 => if v < 2 then s.layerPreset l.i v else s
  | _, _, _ => s

/-- A value that passed every check of the object: an RL one is staged, a CMD keeps the value it accepted (R40). -/
def writeObj (l : Loc) (v : Nat) (c : Wctx) (k : Nat) (s : State) : Ans :=
  if l.row.acc = .rl then ansOk (s.stage l k v) else
  let a := writeEffect l k v c s
  if a.st = 0 ∧ l.row.acc = .cmd then { a with s := a.s.wr k v } else a

/-- An accepted write counts in IDENT.CFG_SEQ; a CMD whose action goes on after TIMEOUT is one (R57, R60). -/
def State.counted (a : Ans) : Ans := if a.st = 0 ∨ a.st = 9 then { a with s := a.s.inc K.IDENT_CFG_SEQ 1 (2 ^ 64) } else a

/-- WRITE of one object: presence, rights, type, range, then what it does (R37, R39 to R41). -/
def State.writeOne (s : State) (rights k : Nat) (bytes : List Nat) (c : Wctx) : Ans :=
  match s.findObj k with
  | none => ansErr (absent rights k) s
  | some l =>
    if l.row.acc = .ro ∨ !holds rights l.row.wr then ansErr 2 s else
    match l.row.ty.take bytes with
    | none => ansErr 3 s
    | some v => if !l.admits k v || !s.pairOk l v then ansRange s else State.counted (writeObj l v c k s)

/-! ## BLOCK_WRITE (R37, R43) -/

/-- What a BLOCK_WRITE answers: status, failing SUB, holder, state. -/
structure BAns where
  st : Nat
  sub : Nat
  holder : Nat
  s : State

/-- A member of a block: its sub, its object if it is there, and its value if the payload holds it whole. -/
structure Mem where
  sub : Nat
  loc : Option Loc
  val : Option Nat

/-- Cut a payload into the values of the members, in subindex order; behind a member that is not there nothing is known. The second
component is the number of bytes that remain (R37). -/
def cutValues : List (Nat × Option Loc) → List Nat → List Mem × Nat
  | [], b => ([], b.length)
  | (sub, none) :: t, _ => (⟨sub, none, none⟩ :: t.map (fun m => ⟨m.1, m.2, none⟩), 0)
  | (sub, some l) :: t, b =>
    let n := l.row.ty.size
    if b.length < n then (⟨sub, some l, none⟩ :: t.map (fun m => ⟨m.1, m.2, none⟩), 0) else
    let r := cutValues t (b.drop n)
    (⟨sub, some l, some (ofBytes (b.take n))⟩ :: r.1, r.2)

/-- Objects that are checked against another one: the whole block counts (R129, R220). -/
def paired (l : Loc) : Bool :=
  match l.kind with
  | .buf => decide (2 ≤ l.sub) && decide (l.sub ≤ 7)
  | .out => l.off == 0x16
  | .ref => l.off == 0 && (l.sub == 9 || l.sub == 10)
  | .enl => l.off == 0 && (l.sub == 5 || l.sub == 6)
  | .frc => l.off == 1 && (l.sub == 1 || l.sub == 2)
  | _ => false

/-- The state with the block's values of paired objects in place, against which each of them is checked. -/
def State.overlay (s : State) (index : Nat) (l : List Mem) : State :=
  l.foldl (fun t m =>
    match m.loc, m.val with
    | some o, some v =>
      let k := K.at' index m.sub
      if !paired o || !o.admits k v then t
      else if o.row.acc = .rl then t.latPut k v else t.wr k v
    | _, _ => t) s

/-- Check and write one member; `o` is the state its pair is checked against, `tail` that bytes remain behind it. -/
def writeMember (o : State) (rights index : Nat) (tail : Bool) (c : Wctx) (m : Mem) (s : State) : Ans :=
  let k := K.at' index m.sub
  match m.loc with
  | none => ansErr (absent rights k) s
  | some l =>
    if l.row.acc = .ro ∨ !holds rights l.row.wr then ansErr 2 s else
    match m.val with
    | none => ansErr 3 s
    | some v =>
      if tail then ansErr 3 s
      else if !l.admits k v || !o.pairOk l v then ansRange s
      else writeObj l v c k s

/-- The first member that fails, each checked on the state before the block (R43). TIMEOUT is no failure: its action goes on (R60). -/
def checkMembers (o : State) (rights index last rest : Nat) (c : Wctx) : List Mem → Option BAns
  | [] => none
  | m :: t =>
    let r := writeMember o rights index (m.sub == last && rest != 0) c m o
    if r.st = 0 ∨ r.st = 9 then checkMembers o rights index last rest c t else some ⟨r.st, m.sub, r.holder, r.s⟩

/-- Write the members in order. One that fails now, for what a member before it did, fails the block with its own events (log 55). -/
def writeMembers (o : State) (rights index last rest : Nat) (c : Wctx) : List Mem → BAns → BAns
  | [], a => a
  | m :: t, a =>
    let r := writeMember o rights index (m.sub == last && rest != 0) c m a.s
    if r.st = 0 then writeMembers o rights index last rest c t { a with s := r.s }
    else if r.st = 9 then
      writeMembers o rights index last rest c t (if a.st = 0 then ⟨9, m.sub, 0, r.s⟩ else { a with s := r.s })
    else ⟨r.st, m.sub, r.holder, { r.s with raised := o.raised ++ r.s.raised.drop a.s.raised.length }⟩

/-- The first unit of a window access that cannot be accessed (R226). -/
def winFirst (first last : Nat) (write : Bool) (s : State) : Nat :=
  ((List.range (last + 1 - first)).find? (fun i => (winCheck (first + i) (first + i) write s).st != 0)).elim first (first + ·)

/-- BLOCK_WRITE: checked in full before any member changes; the events of the failing member's refusal stay, nothing else (R37, R43). It counts
once in CFG_SEQ (R57 counts writes; DESIGN CHOICE, log 55). A block of the window advances it (R226). -/
def State.writeBlock (s : State) (rights index first last : Nat) (bytes : List Nat) (c : Wctx) : BAns :=
  if last < first then ⟨4, first, 0, s⟩ else
  let r := cutValues ((List.range (last + 1 - first)).map (fun i => (first + i, s.findObj (K.at' index (first + i))))) bytes
  let win := index == 0x6811 && decide (1 ≤ first) && decide (last ≤ 40) && r.2 == 0 && r.1.all (fun m => m.val.isSome) && holds rights 2
  let w := winCheck first last true s
  if win ∧ w.st ≠ 0 then ⟨w.st, winFirst first last true s, 0, w.s⟩ else
  let a : BAns :=
    if win then
      ⟨0, 0, 0, (r.1.foldl (fun t m => t.winPut m.sub (m.val.getD 0)) w.s).winAdvance first last⟩
    else
      let o := s.overlay index r.1
      match checkMembers o rights index last r.2 c r.1 with
      | some a => a
      | none => writeMembers o rights index last r.2 c r.1 ⟨0, 0, 0, o⟩
  if a.st = 0 ∨ a.st = 9 then { a with s := a.s.inc K.IDENT_CFG_SEQ 1 (2 ^ 64) }
  else { a with s := { s with raised := s.raised ++ a.s.raised.drop s.raised.length } }

/-! ## Reading (R40, R56, R69, R70) -/

/-- A difference of ticks in larger units. -/
def since (now at' unit : Nat) : Nat := (now - at') / unit

/-- Objects whose value is computed when it is read. -/
def State.computed (s : State) (l : Loc) (k : Nat) : Option Nat :=
  match l.kind, l.off, l.sub with
  | .sess, _, 0xB => some (if s.rd (K.SESS_STATE l.i) = 0 then 0 else since s.now (s.rd (H.lastReq l.i)) 1000 % 2 ^ 32)
  | .sel, 0, 0xC => if s.phaseless l.i then some 0x80000000 else none
  | .sel, 0, 0xF => some (if s.rd (K.SEL_STATE l.i) = 3 then since s.now (s.rd (H.holdAt l.i)) 1000000 else 0)
  | .ref, 0, 0xE =>
    some (if s.rd (K.REF_STATE l.i) = 1 ∨ s.rd (K.REF_STATE l.i) = 3 then (s.rd (H.refTimer l.i) - s.now) / 1000 else 0)
  | .gsyn, 0, 0xD => some (ofInt 32 (s.gNow l.i).1)
  | .gsyn, 0, 0xE => some (ofInt 64 (s.gNow l.i).2)
  | .gsyn, 0, 0x10 => some (s.consumers l.i)
  | .inp, 0x33, _ => if 2 ≤ l.sub ∧ l.sub ≤ 9 then some (s.inPhase l.i (l.sub - 2)) else none
  | .clko, _, 4 => some (s.clkFreq l.i)
  | .buf, _, 0xD => some (s.bufPending l.i)
  | .dst, _, 8 => some (s.audD l.i)
  | .out, 0x1F, 5 | .eas, 0x1F, 5 | .frc, 0x1F, 5 | .gsyn, 0x1F, 5 | .dst, _, 0x13 =>
    some ((s.lat.filter (fun p => match keyUnit s.latView p.1, keyUnit (fun _ => 0) k with | some a, some b => a == b | _, _ => false)).length)
  | .glob, _, _ =>
    if k = K.TOD_NOW then some s.todP
    else if k = K.IRQSUM_PIN0 then some (s.irqSum 0)
    else if k = K.IRQSUM_PIN1 then some (s.irqSum 1)
    else if k = K.FS_LARGEST_S0 then some (largestOn s.allocs 0)
    else if k = K.FS_LARGEST_S1 then some (largestOn s.allocs 1)
    else if k = K.ADM_FREE_S0 then some (freeOn s.allocs 0)
    else if k = K.ADM_FREE_S1 then some (freeOn s.allocs 1)
    else if k = K.ADM_LOAD_TOTAL then some s.heldLoad.1
    else if k = K.ADM_LOAD_S0 then some s.heldLoad.2.1
    else if k = K.ADM_LOAD_S1 then some s.heldLoad.2.2
    else if k = K.NEG_STATE then some s.negState
    else if k = K.GPIO_LEVEL then some s.gpioLevel
    else if k = K.GPIO_ACTIVE then some s.gpioActive
    else if k = K.TSTRIP_ROT_TARGET then some (s.rotTarget.getD 0xFF)
    else if k = K.FLASH_DATA then some s.flashData
    else if 0x681101 ≤ k ∧ k < 0x681129 then some (s.winGet (k % 256))
    else none
  | _, _, _ => none

/-- The value a read of an object returns, in the width of its type (R40, R56). -/
def State.readVal (s : State) (l : Loc) (k : Nat) (latent : Bool) : Nat :=
  (if l.row.acc = .wo then dflt k
   else if l.row.acc = .rl ∧ latent then s.latView k
   else (s.computed l k).getD (s.rd k)) % 256 ^ l.row.ty.size

/-- The bytes of a read. -/
def State.readBytes (s : State) (l : Loc) (k : Nat) (latent : Bool) : List Nat := bytesBE l.row.ty.size (s.readVal l k latent)

/-- Whether a session may read an object: the status that stops it, 0 for none. -/
def State.readStop (s : State) (rights k : Nat) : Nat :=
  match s.findObj k with
  | none => absent rights k
  | some l => if holds rights l.row.rd then 0 else 2

/-- Members of one index that stand in the range. -/
def winRange (index first last : Nat) : Bool := index == 0x6811 && decide (1 ≤ last) && decide (first ≤ 40)

/-- A read of members of the window marks the buffers whose units no copy serves (R229). -/
def State.winSeen (s : State) (index first last : Nat) : State :=
  if winRange index first last then (winCheck (max 1 first) (min 40 last) false s).s else s

/-- READ of one object: status and bytes (R37, R40, R41, R56). -/
def State.readOne (s : State) (rights k : Nat) (latent : Bool) : Nat × List Nat :=
  match s.findObj k with
  | none => (absent rights k, [])
  | some l =>
    if !holds rights l.row.rd then (2, [])
    else if winRange (k / 256) (k % 256) (k % 256) && (winCheck (k % 256) (k % 256) false s).st != 0 then (4, [])
    else (0, s.readBytes l k latent)

/-- BLOCK_READ: status, failing SUB, the bytes of each member, and the state after it (R37, R43, R226). -/
def State.readBlock (s : State) (rights index first last : Nat) (latent : Bool) : Nat × Nat × List (List Nat) × State :=
  if last < first then (4, first, [], s) else
  let subs := (List.range (last + 1 - first)).map (fun i => first + i)
  match subs.find? (fun m => s.readStop rights (K.at' index m) != 0) with
  | some m => (s.readStop rights (K.at' index m), m, [], s)
  | none =>
    if winRange index first last && (winCheck (max 1 first) last false s).st != 0 then (4, winFirst (max 1 first) last false s, [], s) else
    let l := subs.map (fun m => match s.findObj (K.at' index m) with | some o => s.readBytes o (K.at' index m) latent | none => [])
    (0, 0, l, if index = 0x6811 then (s.winSeen index first last).winAdvance first last else s)

/-- Members end to end in as few datagrams of at most 1,396 bytes as whole members allow (R70): FIRST, LAST and bytes of each. -/
def splitBlock (first : Nat) (l : List (List Nat)) : List (Nat × Nat × List Nat) :=
  let r := l.foldl (fun (acc : List (Nat × Nat × List Nat) × Nat) b =>
    match acc.1 with
    | (f, g, cur) :: t =>
      if cur.length + b.length ≤ 1396 then ((f, acc.2, cur ++ b) :: t, acc.2 + 1) else ((acc.2, acc.2, b) :: (f, g, cur) :: t, acc.2 + 1)
    | [] => ([(acc.2, acc.2, b)], acc.2 + 1)) ([], first)
  r.1.reverse

end Sys2Proof.Machine
end

