-- ==== Sys2Proof/Machine/Qcp.lean ====
section
/-! DEFINITION. QCP: messages, sessions, authentication, replay, subscriptions and notifications, the SPI target (spec/03, R62 to R90). -/
namespace Sys2Proof.Machine

/-! ## Messages (R65 to R69) -/

/-- A message as the bytes that travel (R65). -/
def Msg.bytes (m : Msg) : List Nat :=
  bytesBE 2 0x5A51 ++ [m.gen, m.flags] ++ bytesBE 4 m.session ++ bytesBE 4 m.seq ++ [m.op, m.status] ++ bytesBE 2 m.payload.length ++ m.payload

/-- The part sends a message: on a port that is up, or into the transmit queue of the SPI target (R63, R88, R89). -/
def State.send (s : State) (m : Msg) : State :=
  if m.port = 2 then { s with spiTx := s.spiTx ++ [m.bytes] }
  else if s.pdReady (3 + m.port) && s.rd (K.CTL_ENABLE m.port) == 1 then { s with tx := s.tx ++ [m] }
  else s

/-- The messages of an answer: one for each part of the payload, MORE on all but the last (R66, R70). -/
def answerMsgs (q : Req) (op gen session st : Nat) : List (List Nat) → List Msg
  | [] => []
  | [p] => [⟨q.port, q.dst, q.addr, q.udp, gen, 0x80, session, q.seq, op, st, p⟩]
  | p :: t => ⟨q.port, q.dst, q.addr, q.udp, gen, 0x82, session, q.seq, op, st, p⟩ :: answerMsgs q op gen session st t

/-- The SPI target's session record. -/
def spiSlot : Nat := 16

/-- SESSION as messages of a session carry it (R89). -/
def State.sid (s : State) (i : Nat) : Nat := if i = spiSlot then 0 else s.rd (K.SESS_ID i)

/-- The IPv6 link-local address of a MAC address: fe80::/64 and its modified EUI-64 (R62). -/
def linkLocal (mac : Nat) : Nat := 0xFE80 * 2 ^ 112 + (mac / 2 ^ 24 ^^^ 0x020000) * 2 ^ 40 + 0xFFFE * 2 ^ 24 + mac % 2 ^ 24

/-- The addresses control port c answers on: its IPv4 and its global IPv6 address unless they are all zero, and always its link-local one
(R62, R64). An IPv4 address stands as ::ffff:a.b.c.d (R74). -/
def State.ownAddr (s : State) (c a : Nat) : Bool :=
  (s.rd (K.CTL_IPV4_ADDR c) != 0 && a == 0xFFFF * 2 ^ 32 + s.rd (K.CTL_IPV4_ADDR c))
    || (s.rd (K.CTL_IPV6_ADDR c) != 0 && a == s.rd (K.CTL_IPV6_ADDR c)) || a == linkLocal (s.rd (K.CTL_MAC c))

/-- A request is answered from where it arrived to where it came from (R63). -/
def State.answer (s : State) (q : Req) (op gen session st : Nat) (parts : List (List Nat)) : State :=
  (answerMsgs q op gen session st parts).foldl State.send s

/-- SEQ `a` is newer than `b` (R77). -/
def newer (a b : Nat) : Bool := let d := (a + 2 ^ 32 - b % 2 ^ 32) % 2 ^ 32; decide (0 < d) && decide (d < 2 ^ 31)

/-- Ticks of the replay window (R77). -/
def State.replayTicks (s : State) : Nat := s.rd K.QCP_REPLAY_WINDOW * 1000

/-- Remember an answer for replay: of a session, the 64 newest (R77). -/
def State.remember (s : State) (c : Cached) : State :=
  let mine := (s.cache.filter (fun e => e.slot == c.slot)).length
  let full := c.slot ≤ spiSlot ∧ 64 ≤ mine
  let old := (s.cache.reverse.find? (fun e => e.slot == c.slot)).map (·.seq)
  { s with cache := c :: (if full then s.cache.filter (fun e => e.slot != c.slot || some e.seq != old) else s.cache) }

/-- A datagram is discarded, counted and reported (R68, R90). -/
def State.discard (s : State) (port : Nat) : State :=
  let k := if port = 2 then K.SPI_RX_DISCARD else K.CTL_RX_DISCARD port
  (s.incSat k 1 0xFFFFFFFF).raiseLim (3000 + port) 0x8008 (if port = 2 then 0x1140 else 0x1130 + 8 * port) (fun n => (port, n))

/-- The cases of R68 in which a datagram is discarded; an acknowledgement of a NOTIFY has LEN 0 (R81). -/
def badHeader (op : Nat) (q : Req) : Bool :=
  q.magic != 0x5A51 || q.len != q.payload.length || decide (1400 < q.len) || (q.flags.testBit 7 && (op != 0x32 || q.len != 0))

/-- The operation codes of R67 that a host sends as requests. -/
def opKnown (op : Nat) : Bool := [1, 2, 3, 4, 0x10, 0x11, 0x12, 0x13, 0x20, 0x21, 0x30, 0x31].contains op

/-- Bytes the payload of an operation has at least (R69). -/
def minPayload (op : Nat) (q : Req) : Nat :=
  if op = 1 then (if q.flags.testBit 3 then 20 else 4)
  else if op = 2 then 36
  else if op = 3 ∨ op = 4 then 0
  else if op = 0x20 then 220
  else if op = 0x21 then 232
  else if op = 0x30 then (if fld q.payload 0 1 = 0 then 8 else if fld q.payload 0 1 = 1 then 6 else 4)
  else if op = 0x31 then 2
  else 4

/-- What an operation answers: status, the payload of each datagram, the state, and the reason if the session closes after the answer. -/
structure Reply where
  st : Nat
  parts : List (List Nat)
  s : State
  close : Option Nat

/-! ## HELLO, AUTH, PING, BYE (R69, R72, R75, R76, R84, R87) -/

/-- A fresh 16-byte value nothing fixes, for session i: its CHALLENGE, valid for one AUTH (R75). -/
def State.newChal (s : State) (i : Nat) : State := (s.wrs [(H.chal i, s.free % 2 ^ 128), (H.chalLive i, 1)]).tick1

/-- A new TOKEN; the old one is invalid (R87). -/
def State.newToken (s : State) (i : Nat) : State := (s.wr (H.token i) (s.free % 2 ^ 128)).tick1

/-- Payload of a HELLO answered OK. -/
def State.helloPayload (s : State) (i : Nat) : List Nat :=
  [s.rd (K.SESS_GEN i), s.rd (K.SESS_RIGHTS i), s.rd K.MGMT_ACTIVE, 0] ++ bytesBE 16 (s.rd (H.chal i)) ++ bytesBE 16 (s.rd (H.token i))

/-- The generation of a HELLO: the highest in both ranges; the header's GEN must be at least GEN_MIN, and one that is not is answered
GENERATION as if there were none (R84; DESIGN CHOICE, log 57). -/
def State.negotiate (s : State) (q : Req) : Option Nat :=
  let g := min (fld q.payload 0 1) (s.rd K.IDENT_GEN_MAX)
  if g < max (fld q.payload 1 1) (s.rd K.IDENT_GEN_MIN) ∨ q.gen < fld q.payload 1 1 then none else some g

/-- The (f mod (2^32 - 1 - n))-th session ID that none of `n` sessions carries; never 0 (R74). -/
def pickId (used : List Nat) (f : Nat) : Nat :=
  let l := used.foldl (fun a u => alSet a u 0) []
  l.foldl (fun v u => if u.1 ≤ v then v + 1 else v) (1 + f % (2 ^ 32 - 1 - l.length))

/-- A request of a session is valid: answers and notifications go where it came from (R63, R72). -/
def State.touch (s : State) (i : Nat) (q : Req) : State :=
  s.wrs ([(K.SESS_PORT i, q.port), (H.lastReq i, s.now), (H.sessMute i, 0), (H.warmPend, 0)]
    ++ (if i = spiSlot then []
        else [(K.SESS_ADDR i, q.addr % 2 ^ 128), (K.SESS_UDP i, q.udp % 65536), (H.sessOwn i, q.dst % 2 ^ 128)]))

/-- The cached answer to a request: of session record i, or of a HELLO from the same source (i = 17), with the request's SEQ, not
longer than REPLAY_WINDOW after it was first sent (R77, R78). -/
def State.cached (s : State) (i : Nat) (q : Req) : Option Cached :=
  s.cache.find? (fun e => e.slot == i && (i != 17 || e.addr == q.addr && e.udp == q.udp) && e.seq == q.seq
    && decide (s.now ≤ e.at' + s.replayTicks))

/-- A cached answer is sent again, to where the retry came from (R63, R77). -/
def State.resend (s : State) (q : Req) (e : Cached) : State :=
  (e.ans.map (fun m => { m with port := q.port, own := q.dst, addr := q.addr, udp := q.udp })).foldl State.send s

/-- A HELLO is answered, and the answer is remembered whatever its status (R77, R78). -/
def State.helloAnswer (s : State) (slot : Nat) (q : Req) (gen session st : Nat) (payload : List Nat) : State :=
  let ans := answerMsgs q 1 gen session st [payload]
  ans.foldl State.send (s.remember ⟨slot, q.addr, q.udp, q.seq, ans, s.now⟩)

/-- The OPEN session a cached HELLO answer opened. -/
def State.openedBy (s : State) (e : Cached) : Option Nat :=
  (List.range 16).find? (fun i => s.rd (K.SESS_STATE i) == 1 && e.ans.any (fun m => m.session != 0 && m.session == s.rd (K.SESS_ID i)))

/-- HELLO without RESUME at a control port (R72, R78, R84). -/
def State.helloOpen (s : State) (q : Req) : State :=
  match s.cached 17 q with
  | some e => (match s.openedBy e with | some i => s.touch i q | none => s).resend q e
  | none =>
    if q.payload.length < 4 then s.helloAnswer 17 q q.gen 0 3 [] else
    match s.negotiate q with
    | none => s.helloAnswer 17 q q.gen 0 8 [s.rd K.IDENT_GEN_MAX, s.rd K.IDENT_GEN_MIN]
    | some g =>
      match (List.range 16).find? (fun i => s.rd (K.SESS_STATE i) == 0) with
      | none => s.helloAnswer 17 q g 0 5 []
      | some i =>
        let used := ((List.range 16).map (fun j => s.rd (K.SESS_ID j))).filter (· != 0)
        let id := pickId used s.free
        let rights := if s.rd K.QCP_VIEW_OPEN = 1 then 0 else 0xFF
        let s := (s.tick1.wrs [(K.SESS_STATE i, 1), (K.SESS_ID i, id), (K.SESS_GEN i, g), (K.SESS_RIGHTS i, rights),
          (K.SESS_LAST_SEQ i, q.seq % 2 ^ 32), (H.fails i, 0)]).up K.QCP_SESSIONS_OPEN (· + 1)
        let s := (((s.touch i q).newChal i).newToken i).raise 0x8001 (sessIdx i) id (q.port * 65536 + g * 256 + rights)
        s.helloAnswer 17 q g id 0 (s.helloPayload i)

/-- The session a request names (R65, R89). -/
def State.findSess (s : State) (q : Req) : Option Nat :=
  if q.port = 2 then some spiSlot
  else (List.range 16).find? (fun i => s.rd (K.SESS_STATE i) != 0 && s.rd (K.SESS_ID i) == q.session)

/-- HELLO with RESUME at a control port (R72, R86, R87). Its answer is not remembered and its SEQ is not compared: sent again with the old
token it is answered AUTH, and GEN_MIN is not compared with its header's GEN (DESIGN CHOICE, log 57). -/
def State.helloAgain (s : State) (q : Req) : State :=
  match s.findSess q with
  | none => s.answer q 1 q.gen q.session 0xB [[]]
  | some i =>
    let g := s.rd (K.SESS_GEN i)
    if q.payload.length < 20 then s.answer q 1 g q.session 3 [[]]
    else if fld q.payload 4 16 ≠ s.rd (H.token i) then s.answer q 1 g q.session 0xC [[]]
    else if g < s.rd K.IDENT_GEN_MIN ∨ s.rd K.IDENT_GEN_MAX < g then
      (s.answer q 1 g q.session 8 [[s.rd K.IDENT_GEN_MAX, s.rd K.IDENT_GEN_MIN]]).sessClose i 4
    else
      let s : State := if s.rd (K.SESS_STATE i) = 2
        then (s.wr (K.SESS_STATE i) 1).raise 0x8005 (sessIdx i) (s.rd (K.SESS_ID i)) (s.rd (K.SESS_RIGHTS i)) else s
      let s := ((s.touch i q).newChal i).newToken i
      s.answer q 1 g q.session 0 [s.helloPayload i]

/-- Any HELLO on the SPI target negotiates its generation and sets its sequence (R77, R89). -/
def State.helloSpi (s : State) (q : Req) : State :=
  match s.cached spiSlot q with
  | some e => s.resend q e
  | none =>
    if q.payload.length < 4 then s.helloAnswer spiSlot q q.gen 0 3 [] else
    match s.negotiate q with
    | none => s.helloAnswer spiSlot q q.gen 0 8 [s.rd K.IDENT_GEN_MAX, s.rd K.IDENT_GEN_MIN]
    | some g =>
      let s := s.wrs [(K.SESS_GEN spiSlot, g), (K.SESS_LAST_SEQ spiSlot, q.seq % 2 ^ 32)]
      let s := ((s.touch spiSlot q).newChal spiSlot).newToken spiSlot
      s.helloAnswer spiSlot q g 0 0 (s.helloPayload spiSlot)

/-- Payload of an AUTH answer (R69). -/
def State.authPayload (s : State) (i : Nat) : List Nat :=
  [s.rd (K.SESS_RIGHTS i), s.rd (H.fails i) % 256, 0, 0] ++ bytesBE 16 (s.rd (H.chal i))

/-- The answer to an AUTH that was executed, with its fresh CHALLENGE (R69, R75). -/
def State.authReply (s : State) (i st : Nat) (close : Option Nat) : Reply :=
  let s := s.newChal i
  ⟨st, [s.authPayload i], s, close⟩

/-- AUTH: HMAC-SHA-256 over challenge, session and level under KEY[L] (R75, R76). -/
def State.opAuth (s : State) (i : Nat) (q : Req) : Reply :=
  if i = spiSlot then s.authReply i 0 none else
  let l := fld q.payload 0 1
  let key := s.rd (K.at' (0x1101 + l) 0)
  let msg := bytesBE 16 (s.rd (H.chal i)) ++ bytesBE 4 (s.rd (K.SESS_ID i)) ++ [l]
  let good : Bool := decide (l ≤ 3) && key != 0 && s.rd (H.chalLive i) == 1 && (q.payload.drop 4).take 32 == hmac (bytesBE 32 key) msg
  if good then (s.wrs [(K.SESS_RIGHTS i, l), (H.fails i, 0)]).authReply i 0 none
  else
    let n := s.rd (H.fails i) + 1
    let s := (s.wr (H.fails i) n).raise 0x8003 (sessIdx i) (s.rd (K.SESS_ID i)) (l * 256 + n)
    s.authReply i 0xC (if s.rd K.QCP_AUTH_FAIL_LIMIT ≤ n then some 3 else none)

/-- PING (R69). -/
def State.opPing (s : State) (i : Nat) : Reply :=
  ⟨0, [bytesBE 10 s.todP ++ [s.rd K.MGMT_ACTIVE, s.rd (K.SESS_RIGHTS i)]], s, none⟩

/-! ## READ, WRITE, BLOCK_READ, BLOCK_WRITE (R69, R70) -/

/-- READ. -/
def State.opRead (s : State) (i : Nat) (q : Req) : Reply :=
  let k := fld q.payload 0 3
  let r := s.readOne (s.rd (K.SESS_RIGHTS i)) k (q.flags.testBit 0)
  ⟨r.1, [q.payload.take 4 ++ r.2], if r.1 = 0 then s.winSeen (k / 256) (k % 256) (k % 256) else s, none⟩

/-- WRITE. -/
def State.opWrite (s : State) (i : Nat) (q : Req) (x : List Int) : Reply :=
  let a := s.writeOne (s.rd (K.SESS_RIGHTS i)) (fld q.payload 0 3) (q.payload.drop 4) ⟨q.port, i, x⟩
  ⟨a.st, [q.payload.take 4 ++ (if a.st = 7 then bytesBE 4 a.holder else [])], a.s, none⟩

/-- BLOCK_READ: its members end to end, in as many datagrams as they need. -/
def State.opBlockRead (s : State) (i : Nat) (q : Req) : Reply :=
  let r := s.readBlock (s.rd (K.SESS_RIGHTS i)) (fld q.payload 0 2) (fld q.payload 2 1) (fld q.payload 3 1) (q.flags.testBit 0)
  if r.1 ≠ 0 then ⟨r.1, [q.payload.take 4 ++ [r.2.1]], s, none⟩
  else ⟨0, (splitBlock (fld q.payload 2 1) r.2.2.1).map (fun p => q.payload.take 2 ++ [p.1, p.2.1] ++ p.2.2), r.2.2.2, none⟩

/-- BLOCK_WRITE. -/
def State.opBlockWrite (s : State) (i : Nat) (q : Req) (x : List Int) : Reply :=
  let a := s.writeBlock (s.rd (K.SESS_RIGHTS i)) (fld q.payload 0 2) (fld q.payload 2 1) (fld q.payload 3 1) (q.payload.drop 4) ⟨q.port, i, x⟩
  ⟨a.st, [q.payload.take 4 ++ (if a.st = 0 then [] else [a.sub, 0, 0, 0] ++ (if a.st = 7 then bytesBE 4 a.holder else []))], a.s, none⟩

/-! ## COMMIT and COMMIT_AT (R47, R69) -/

/-- COMMIT, or COMMIT_AT with its T. -/
def State.opCommit (s : State) (i : Nat) (q : Req) (at' : Option Nat) (mask : Nat) : Reply :=
  let v := fld q.payload 0 1
  if !holds (s.rd (K.SESS_RIGHTS i)) 1 then ⟨2, [v :: List.replicate 15 0], s, none⟩ else
  let c := s.commit v mask at' i
  let s := c.s
  if c.status = 4 then ⟨4, [v :: List.replicate 15 0], s, none⟩
  else if c.status = 5 then ⟨5, [v :: List.replicate 11 0 ++ [s.rd (K.SLV_STATE v), 0, 0, 0]], s, none⟩
  else
    ⟨c.status, [[v, s.rd (K.SLV_REASON v)] ++ bytesBE 2 (s.rd (K.SLV_REFUSER v)) ++ bytesBE 4 (s.rd (K.SLV_HOLDER v))
      ++ bytesBE 4 (s.rd (K.SLV_SEQ v)) ++ [s.rd (K.SLV_STATE v), c.preds.length, 0, 0]
      ++ c.preds.flatMap (fun p => [p.1, 0] ++ bytesBE 8 p.2)], s, none⟩

/-! ## SUBSCRIBE and UNSUBSCRIBE (R69, R79, R85) -/

/-- The members a KIND 0 subscription watches, as they read now. -/
def State.watch (s : State) (index first last : Nat) : List Nat :=
  (List.range (last + 1 - first)).map (fun i =>
    let k := K.at' index (first + i)
    match s.findObj k with | some l => s.readVal l k false | none => 0)

/-- Session i holds another subscription. -/
def State.addSub (s : State) (b : Sub) : State :=
  ({ s with subs := s.subs ++ [b] }.up K.NOTIF_SUBS_IN_USE (· + 1)).up (K.SESS_SUBS b.slot) (· + 1)

/-- An answer that carries only a STATUS. -/
def Reply.no (st : Nat) (s : State) : Reply := ⟨st, [[]], s, none⟩

/-- SUBSCRIBE. A KIND above 1 is answered RANGE, and the handle is the lowest from 1 the session does not hold (DESIGN CHOICE, log 58). -/
def State.opSubscribe (s : State) (i : Nat) (q : Req) : Reply :=
  let p := q.payload
  let rights := s.rd (K.SESS_RIGHTS i)
  let kind := fld p 0 1
  let iv := fld p 2 2
  let idx := fld p 4 2
  if kind = 1 ∧ s.rd (K.SESS_GEN i) < 3 then Reply.no 8 s
  else if !holds rights 0 then Reply.no 2 s
  else if 1 < kind ∨ (kind = 0 ∧ 60000 < iv) then Reply.no 4 s
  else if kind = 0 ∧ (fld p 7 1 < fld p 6 1 ∨ idx = 0x6811) then Reply.no 4 s
  else
    let bad := if kind = 1 then none else
      ((List.range (fld p 7 1 + 1 - fld p 6 1)).map (fun j => s.readStop rights (K.at' idx (fld p 6 1 + j)))).find? (· != 0)
    match bad with
    | some st => Reply.no st s
    | none =>
      let mine := s.subs.filter (fun b => b.slot == i)
      if 32 ≤ mine.length ∨ 256 ≤ s.subs.length then Reply.no 5 s else
      let h := ((List.range 33).find? (fun j => decide (1 ≤ j) && mine.all (fun b => b.handle != j))).getD 1
      let b : Sub := {
        slot := i, handle := h, kind := kind, minInt := iv,
        index := if kind = 0 then idx else 0, first := if kind = 0 then fld p 6 1 else 0, last := if kind = 0 then fld p 7 1 else 0,
        classes := if kind = 1 then idx else 0, ack := s.rd (K.SESS_GEN i) == 3 && q.flags.testBit 2, lastAt := 0,
        seen := if kind = 0 then s.watch idx (fld p 6 1) (fld p 7 1) else [], evs := [] }
      ⟨0, [bytesBE 2 h], s.addSub b, none⟩

/-- UNSUBSCRIBE: one handle, or all of the session's with 0xFFFF; a handle the session does not hold is answered RANGE (R69 gives no status;
DESIGN CHOICE, log 58). -/
def State.opUnsubscribe (s : State) (i : Nat) (q : Req) : Reply :=
  let h := fld q.payload 0 2
  let gone := s.subs.filter (fun b => b.slot == i && (h == 0xFFFF || b.handle == h))
  if gone = [] ∧ h ≠ 0xFFFF then ⟨4, [[]], s, none⟩ else
  ⟨0, [[]], ({ s with subs := s.subs.filter (fun b => !gone.contains b) }.up K.NOTIF_SUBS_IN_USE (fun v => v - gone.length)).up
    (K.SESS_SUBS i) (fun v => v - gone.length), none⟩

/-! ## A request of an open session (R68, R77) -/

/-- The payload of an answer SESSION, GENERATION or TYPE, which changes nothing (R68): the last column of R69, what it repeats of a short
request padded with zeros, FIRST as the failing SUB, of an AUTH the session's present values (DEDUCED and DESIGN CHOICE, log 56). -/
def State.refusalPayload (s : State) (i : Option Nat) (op : Nat) (q : Req) : List Nat :=
  let p := q.payload ++ List.replicate 4 0
  if op = 2 then (match i with | some i => s.authPayload i | none => [0xFF, 0, 0, 0] ++ List.replicate 16 0)
  else if op = 0x20 ∨ op = 0x21 then p.take 1 ++ List.replicate 15 0
  else if op = 0x12 ∨ op = 0x13 then p.take 4 ++ [fld p 2 1] ++ (if op = 0x13 then [0, 0, 0] else [])
  else if op = 0x10 ∨ op = 0x11 then p.take 4
  else []

/-- Execute an operation for session i. -/
def State.perform (s : State) (i op : Nat) (q : Req) (x : List Int) : Reply :=
  if op = 2 then s.opAuth i q
  else if op = 3 then s.opPing i
  else if op = 4 then ⟨0, [[]], s, if i = spiSlot then none else some 0⟩
  else if op = 0x10 then s.opRead i q
  else if op = 0x11 then s.opWrite i q x
  else if op = 0x12 then s.opBlockRead i q
  else if op = 0x13 then s.opBlockWrite i q x
  else if op = 0x20 then s.opCommit i q none (fld q.payload 4 216)
  else if op = 0x21 then s.opCommit i q (some (fld q.payload 4 10)) (fld q.payload 16 216)
  else if op = 0x30 then s.opSubscribe i q
  else s.opUnsubscribe i q

/-- A request of session i that is new: LAST_SEQ, the operation, its answer cached and sent, then what follows the answer (R77, R78). -/
def State.runNew (s : State) (i op : Nat) (q : Req) (x : List Int) : State :=
  let s := (s.touch i q).wr (K.SESS_LAST_SEQ i) (q.seq % 2 ^ 32)
  let gen := s.rd (K.SESS_GEN i)
  let id := s.sid i
  let r := s.perform i op q x
  let ans := answerMsgs q op gen id r.st r.parts
  let s := ans.foldl State.send (r.s.remember ⟨i, q.addr, q.udp, q.seq, ans, s.now⟩)
  let s : State := match r.close with | some why => s.sessClose i why | none => s
  s.afterAnswer

/-- A request other than HELLO (R68, R77, R87). The header GEN of an answer SESSION or GENERATION is the request's (R68 gives none; DESIGN
CHOICE, log 56). -/
def State.request (s : State) (op : Nat) (q : Req) (x : List Int) : State :=
  match s.findSess q with
  | none => s.answer q op q.gen q.session 0xB [s.refusalPayload none op q]
  | some i =>
    let id := if i = spiSlot then 0 else q.session
    if i ≠ spiSlot ∧ s.rd (K.SESS_STATE i) ≠ 1 then s.answer q op q.gen id 0xB [s.refusalPayload (some i) op q]
    else if !opKnown op || q.gen != s.rd (K.SESS_GEN i) then s.answer q op q.gen id 8 [s.refusalPayload (some i) op q]
    else
      match s.cached i q with
      | some e => (s.touch i q).resend q e
      | none =>
        if !newer q.seq (s.rd (K.SESS_LAST_SEQ i)) then s.incSat K.QCP_STALE_SEQ 1 0xFFFFFFFF
        else if q.payload.length < minPayload op q then s.answer q op q.gen id 3 [s.refusalPayload (some i) op q]
        else s.runNew i op q x

/-- An acknowledgement of a NOTIFY (R81). -/
def State.ack (s : State) (q : Req) : State :=
  match s.findSess q with
  | none => s
  | some i => { s with notes := s.notes.filter (fun n => n.slot != i || n.seq != q.seq) }

/-- A control port receives a datagram to the UDP port of QCP at one of its addresses, unless it is off (R32, R62, R64). -/
def State.hears (s : State) (q : Req) : Bool :=
  s.pdReady (3 + q.port) && s.rd (K.CTL_ENABLE q.port) != 0 && q.dport == s.rd (K.CTL_QCP_PORT q.port) && s.ownAddr q.port q.dst

/-- A datagram reaches a control port (0, 1), or a message the SPI target (2). Without an active pair nothing is answered or counted
(R71); in RECOVERY only the SPI target serves (R375). -/
def State.arrive (s : State) (op : Nat) (q : Req) (x : List Int) : State :=
  if !s.mgmtOn then s
  else if 2 < q.port ∨ (q.port < 2 ∧ (!s.hears q ∨ s.rd (H.recov) = 1)) then s
  else if badHeader op q then s.discard q.port
  else if op = 0x32 ∧ q.flags.testBit 7 then s.ack q
  else if op ≠ 1 then s.request op q x
  else if q.port = 2 then s.helloSpi q
  else if q.flags.testBit 3 then s.helloAgain q
  else s.helloOpen q

/-! ## The commands (R67) -/

/-- The outcome of a datagram with an operation. -/
def recv (op : Nat) (q : Req) (x : List Int) (s : State) : Host.Outcome State Fault Refusal := .next (s.arrive op q x)

/-- HELLO: a session opens (R72, R84); at the SPI target, its generation is negotiated (R89). -/
def execHello (q : Req) (s : State) : Host.Outcome State Fault Refusal := recv 1 { q with flags := q.flags &&& 0xF7 } [] s
/-- HELLO with RESUME (R72, R87). -/
def execHelloResume (q : Req) (s : State) : Host.Outcome State Fault Refusal := recv 1 { q with flags := q.flags ||| 8 } [] s
/-- AUTH (R75, R76). -/
def execAuth (q : Req) (s : State) : Host.Outcome State Fault Refusal := recv 2 q [] s
/-- PING (R69). -/
def execPing (q : Req) (s : State) : Host.Outcome State Fault Refusal := recv 3 q [] s
/-- BYE (R72). -/
def execBye (q : Req) (s : State) : Host.Outcome State Fault Refusal := recv 4 q [] s
/-- READ (R56, R69). -/
def execRead (q : Req) (s : State) : Host.Outcome State Fault Refusal := recv 0x10 q [] s
/-- WRITE (R39, R40); `x` is what the surroundings hand over for the object. -/
def execWrite (q : Req) (x : List Int) (s : State) : Host.Outcome State Fault Refusal := recv 0x11 q x s
/-- BLOCK_READ (R37, R70). -/
def execBlockRead (q : Req) (s : State) : Host.Outcome State Fault Refusal := recv 0x12 q [] s
/-- BLOCK_WRITE (R37, R43). -/
def execBlockWrite (q : Req) (x : List Int) (s : State) : Host.Outcome State Fault Refusal := recv 0x13 q x s
/-- COMMIT (R47). -/
def execCommit (q : Req) (s : State) : Host.Outcome State Fault Refusal := recv 0x20 q [] s
/-- COMMIT_AT (R51). -/
def execCommitAt (q : Req) (s : State) : Host.Outcome State Fault Refusal := recv 0x21 q [] s
/-- SUBSCRIBE (R79). -/
def execSubscribe (q : Req) (s : State) : Host.Outcome State Fault Refusal := recv 0x30 q [] s
/-- UNSUBSCRIBE (R69). -/
def execUnsubscribe (q : Req) (s : State) : Host.Outcome State Fault Refusal := recv 0x31 q [] s
/-- NOTIFY_ACK: a header with ANSWER set and the NOTIFY's SEQ and OP (R81). -/
def execNotifyAck (q : Req) (s : State) : Host.Outcome State Fault Refusal := recv 0x32 { q with flags := q.flags ||| 0x80 } [] s

/-! ## Notifications (R79 to R82) -/

/-- NOTIFY of session i that are not done with: unacknowledged, or waiting in the transmit queue of the SPI target (R80, R89). -/
def State.queued (s : State) (i : Nat) : Nat :=
  let spi := if i = spiSlot then (s.spiTx.filter (fun b => fld b 12 1 == 0x32)).map (fun b => fld b 8 4) else []
  (((s.notes.filter (fun n => n.slot == i)).map (·.seq)) ++ spi).eraseDups.length

/-- A NOTIFY is lost (R80, R81, R90). -/
def State.noteLost (s : State) (i seq : Nat) : State := (s.incSat K.NOTIF_LOST 1 0xFFFFFFFF).raise 0x8006 (sessIdx i) (s.sid i) seq

/-- Send a NOTIFY to the source of the session's last valid request, from the address that one was sent to (R63, R80; the address it
leaves from is DESIGN CHOICE, log 11). -/
def State.sendNote (s : State) (n : Note) : State :=
  let i := n.slot
  if s.rd (H.sessMute i) = 1 then s else
  s.send ⟨s.rd (K.SESS_PORT i), s.rd (H.sessOwn i), s.rd (K.SESS_ADDR i), s.rd (K.SESS_UDP i), s.rd (K.SESS_GEN i), if n.ack then 4 else 0, s.sid i, n.seq, 0x32,
    n.status, n.payload⟩

/-- Issue a NOTIFY: numbered; not sent while the session is SUSPENDED; dropped where 64 are queued (R80). -/
def State.issue (s : State) (i status : Nat) (ack : Bool) (payload : List Nat) : State :=
  let s := s.inc (K.SESS_NOTIFY_SEQ i) 1 (2 ^ 32)
  let seq := s.rd (K.SESS_NOTIFY_SEQ i)
  if i ≠ spiSlot ∧ s.rd (K.SESS_STATE i) ≠ 1 then s
  else if 64 ≤ s.queued i then s.noteLost i seq
  else
    let n : Note := ⟨i, seq, status, ack, payload, true, s.now, 0⟩
    (if ack then { s with notes := s.notes ++ [n] } else s).sendNote n

/-- Object items that fit one datagram: the members that changed, in subindex order, with the values then seen (R79, R80). LENGTH of a value
above 255 bytes is its length modulo 256 (R80 gives LENGTH one byte; DESIGN CHOICE, log 58). -/
def State.items (s : State) (b : Sub) : List Nat × Nat × List Nat :=
  (b.seen.zip (List.range b.seen.length)).foldl (fun (acc : List Nat × Nat × List Nat) p =>
    let sub := b.first + p.2
    let k := K.at' b.index sub
    match s.findObj k with
    | none => (acc.1, acc.2.1, acc.2.2 ++ [p.1])
    | some l =>
      let v := s.readVal l k false
      let n := l.row.ty.size
      if v = p.1 ∨ 1396 < acc.1.length + 4 + n ∨ 255 ≤ acc.2.1 then (acc.1, acc.2.1, acc.2.2 ++ [p.1])
      else (acc.1 ++ bytesBE 2 b.index ++ [sub, n % 256] ++ bytesBE n v, acc.2.1 + 1, acc.2.2 ++ [v])) ([], 0, [])

/-- Replace a subscription. -/
def State.putSub (s : State) (b : Sub) : State :=
  { s with subs := s.subs.map (fun c => if c.slot = b.slot ∧ c.handle = b.handle then b else c) }

/-- NOTIFY: what handle `h` of session i has to report: handle 0 the completion of a salvo the session committed (R82), KIND 0 the members
that changed, no sooner than MIN_INTERVAL after the last one, KIND 1 the events that occurred (R79, R80). -/
def execNotify (i : Fin 17) (h : Nat) (s : State) : Host.Outcome State Fault Refusal :=
  let i := i.val
  if !s.mgmtOn then .next s
  else if h = 0 then
    match s.done.find? (fun d => d.slot == i) with
    | none => .next s
    | some d =>
      let s : State := { s with done := s.done.erase d }
      .next (s.issue i d.status (s.rd (K.SESS_GEN i) == 3) ([0, 0, 1, 0] ++ bytesBE 2 (0x1440 + d.salvo) ++ [1, 1, d.state]))
  else
    match s.subs.find? (fun b => b.slot == i && b.handle == h) with
    | none => .next s
    | some b =>
      if b.kind = 1 then
        if b.evs = [] then .next s else
        let l := b.evs.take 43
        .next ((s.putSub { b with evs := b.evs.drop 43, lastAt := s.now + 1 }).issue i 0 b.ack
          (bytesBE 2 h ++ [l.length, 0] ++ l.flatMap (bytesBE 32)))
      else if b.lastAt ≠ 0 ∧ s.now + 1 < b.lastAt + b.minInt * 1000 then .next s
      else
        let r := s.items b
        if r.2.1 = 0 then .next s else
        .next ((s.putSub { b with seen := r.2.2, lastAt := s.now + 1 }).issue i 0 b.ack (bytesBE 2 h ++ [r.2.1, 0] ++ r.1))

/-- NOTIFY_RETRY: 20 ms without an acknowledgement: the NOTIFY is sent again, up to 3 times, then it is lost (R81). -/
def execNotifyRetry (i : Fin 17) (seq : Nat) (s : State) : Host.Outcome State Fault Refusal :=
  let i := i.val
  match s.notes.find? (fun n => n.slot == i && n.seq == seq) with
  | none => .next s
  | some n =>
    if !s.mgmtOn ∨ s.now < n.at' + 20000 ∨ (i ≠ spiSlot ∧ s.rd (K.SESS_STATE i) ≠ 1) then .next s
    else if 3 ≤ n.tries then .next ({ s with notes := s.notes.erase n }.noteLost i seq)
    else
      let m := { n with at' := s.now, tries := n.tries + 1 }
      .next ({ s with notes := s.notes.map (fun c => if c = n then m else c) }.sendNote m)

/-! ## Time limits (R72, R77) -/

/-- SESSION_TIMEOUT: no valid request for SESSION_TIMEOUT (R72). -/
def execSessionTimeout (i : Fin 16) (s : State) : Host.Outcome State Fault Refusal :=
  let i := i.val
  .next (if s.rd (K.SESS_STATE i) = 1 ∧ s.rd (H.lastReq i) + s.rd K.QCP_SESSION_TIMEOUT * 1000000 ≤ s.now then s.sessClose i 1 else s)

/-- RESUME_WINDOW_EXPIRY: a SUSPENDED session was not resumed in time (R72). -/
def execResumeWindowExpiry (i : Fin 16) (s : State) : Host.Outcome State Fault Refusal :=
  let i := i.val
  .next (if s.rd (K.SESS_STATE i) = 2 ∧ s.rd (H.suspAt i) + s.rd K.QCP_RESUME_WINDOW * 1000000 ≤ s.now then s.sessClose i 2 else s)

/-- REPLAY_EXPIRY: answers leave the cache once the tick has passed in which REPLAY_WINDOW ends: arrivals of that tick come first (R77). -/
def execReplayExpiry (s : State) : Host.Outcome State Fault Refusal :=
  .next { s with cache := s.cache.filter (fun e => decide (s.now ≤ e.at' + s.replayTicks)) }

/-! ## The SPI target (R88, R89) -/

/-- SPI_STATUS: the status byte; reading it clears CRC_ERR, OVERRUN and FRAME_ERR (R88). -/
def execSpiStatus (s : State) : Host.Outcome State Fault Refusal :=
  let b := (if s.mgmtOn then 1 else 0) + (if s.spiTx = [] then 0 else 2) + s.rd (H.spiErr)
  .next ({ s with spiOut := [b] }.wr (H.spiErr) 0)

/-- Set an error bit of the status byte: 2 CRC_ERR, 3 OVERRUN, 4 FRAME_ERR. -/
def State.spiError (s : State) (b : Nat) : State := s.setBit (H.spiErr) b true

/-- A framing error (R88, R90). The source of SPI_CRC, and of MALFORMED for port 2, is the SPI record 1140 (R90 names session and control-port
records only; DESIGN CHOICE, log 60). -/
def State.spiFraming (s : State) : State := (s.spiError 4).raise 0x800A 0x1140 0 1

/-- SPI_WRITE_MSG: `l` is what the host clocked after the command byte: LEN, the message, CRC, and bytes that are ignored (R88). A bad CRC
counts as such though RX_READY is clear (DESIGN CHOICE, log 60). -/
def execSpiWriteMsg (l : List Nat) (x : List Int) (s : State) : Host.Outcome State Fault Refusal :=
  let n := fld l 0 2
  let m := (l.drop 2).take n
  let s : State := { s with spiOut := [] }
  if l.length < 2 ∨ n < 16 ∨ 1416 < n ∨ l.length < n + 4 then .next s.spiFraming
  else if crc16 (l.take (n + 2)) ≠ fld l (n + 2) 2 then .next ((s.spiError 2).raise 0x800A 0x1140 1 0)
  else if !s.mgmtOn then .next (s.spiError 3)
  else
    .next (s.arrive (fld m 12 1) {
      port := 2, addr := 0, udp := 0, dst := 0, dport := 0, magic := fld m 0 2, gen := fld m 2 1, flags := fld m 3 1, session := fld m 4 4, seq := fld m 8 4,
      status := fld m 13 1, len := fld m 14 2, payload := m.drop 16 } x)

/-- SPI_READ_MSG: the host clocks `n` bytes after the turnaround byte; the message goes once its last CRC byte is out (R88). -/
def execSpiReadMsg (n : Nat) (s : State) : Host.Outcome State Fault Refusal :=
  let m := s.spiTx.headD []
  let l := bytesBE 2 m.length ++ m
  let out := l ++ bytesBE 2 (crc16 l)
  let s : State := { s with spiOut := out.take n }
  .next (if out.length ≤ n then { s with spiTx := s.spiTx.drop 1 } else s)

/-- SPI_BAD_COMMAND: the part drives MISO as 0x00 for the bytes clocked after the command, a number nothing fixes, and ignores them (R88,
log 60). -/
def execSpiBadCommand (s : State) : Host.Outcome State Fault Refusal :=
  .next ({ s with spiOut := List.replicate s.free 0 }.tick1.spiFraming)

/-! ## Commands that are a WRITE of one object -/

/-- A WRITE of value v to object k arrives as request `q`, whose payload it is; `x` as in WRITE. -/
def put (q : Req) (k v : Nat) (x : List Int) (s : State) : Host.Outcome State Fault Refusal :=
  let n := match locate k with | some l => l.row.ty.size | none => 0
  let p := bytesBE 3 k ++ [0] ++ bytesBE n v
  recv 0x11 { q with len := p.length, payload := p } x s

/-- LATENT_DISCARD: the Latent sets of the units of a UMASK are emptied (R50). -/
def execLatentDiscard (q : Req) (mask : Nat) (s : State) : Host.Outcome State Fault Refusal := put q K.LATENT_DISCARD mask [] s
/-- SLV_CANCEL: a write of SLV[v].CANCEL (R55). -/
def execSlvCancel (q : Req) (v : Fin 64) (x : Nat) (s : State) : Host.Outcome State Fault Refusal := put q (K.SLV_CANCEL v.val) x [] s
/-- SEL_MODE_WRITE; `d` is the phase of a candidate that is taken (R100). -/
def execSelModeWrite (q : Req) (j : Fin 2) (v : Nat) (d : Int) (s : State) : Host.Outcome State Fault Refusal := put q (K.SEL_MODE j.val) v [d] s
/-- NCO_WRITE (R105). -/
def execNcoWrite (q : Req) (j : Fin 2) (v : Nat) (s : State) : Host.Outcome State Fault Refusal := put q (K.SEL_NCO j.val) v [] s
/-- TOD_SET (R107). -/
def execTodSet (q : Req) (t : Nat) (s : State) : Host.Outcome State Fault Refusal := put q K.TOD_SET t [] s
/-- RELOCK_1: a family without lock is locked again where its control word stands (R116). -/
def execRelock1 (q : Req) (g : Fin 8) (s : State) : Host.Outcome State Fault Refusal := put q (K.GSYN_RELOCK g.val) 1 [] s
/-- RELOCK_2: with a band search (R116). -/
def execRelock2 (q : Req) (g : Fin 8) (s : State) : Host.Outcome State Fault Refusal := put q (K.GSYN_RELOCK g.val) 2 [] s
/-- LOL_CLEAR (R116). -/
def execLolClear (q : Req) (s : State) : Host.Outcome State Fault Refusal := put q K.LOL_CLEAR 1 [] s
/-- RAMP_RUN (R117). -/
def execRampRun (q : Req) (g : Fin 8) (s : State) : Host.Outcome State Fault Refusal := put q (K.GSYN_RAMP_RUN g.val) 1 [] s
/-- RAMP_HOLD (R117). -/
def execRampHold (q : Req) (g : Fin 8) (s : State) : Host.Outcome State Fault Refusal := put q (K.GSYN_RAMP_RUN g.val) 2 [] s
/-- RAMP_RETURN (R117). -/
def execRampReturn (q : Req) (g : Fin 8) (s : State) : Host.Outcome State Fault Refusal := put q (K.GSYN_RAMP_RUN g.val) 3 [] s
/-- IRQ_ACK (R128). -/
def execIrqAck (q : Req) (n : Fin 48) (v : Nat) (s : State) : Host.Outcome State Fault Refusal := put q (K.OUT_IRQ_ACK n.val) v [] s
/-- RATE_MODE_WRITE (R135). -/
def execRateModeWrite (q : Req) (n : Fin 48) (v : Nat) (s : State) : Host.Outcome State Fault Refusal := put q (K.IN_CFG_RATE_MODE n.val) v [] s
/-- BRACKET_SELECT (R150). -/
def execBracketSelect (q : Req) (n : Fin 48) (v : Nat) (s : State) : Host.Outcome State Fault Refusal := put q (K.IN_BRACKET_SELECT n.val) v [] s
/-- BRACKET_RELEASE (R170). -/
def execBracketRelease (q : Req) (n : Fin 48) (s : State) : Host.Outcome State Fault Refusal := put q (K.OUT_BRACKET_RELEASE n.val) 1 [] s
/-- SLATE_INSERT (R171). -/
def execSlateInsert (q : Req) (n : Fin 48) (s : State) : Host.Outcome State Fault Refusal := put q (K.OUT_SLATE_CMD n.val) 1 [] s
/-- SLATE_REMOVE (R171). -/
def execSlateRemove (q : Req) (n : Fin 48) (s : State) : Host.Outcome State Fault Refusal := put q (K.OUT_SLATE_CMD n.val) 0 [] s
/-- XBAR_RETEST (R349). -/
def execXbarRetest (q : Req) (v : Nat) (s : State) : Host.Outcome State Fault Refusal := put q K.XBAR_RETEST v [] s
/-- BUF_ALLOC (R220). -/
def execBufAlloc (q : Req) (b : Fin 2048) (s : State) : Host.Outcome State Fault Refusal := put q (K.BUF_ALLOC b.val) 1 [] s
/-- BUF_STATE_WRITE (R221). -/
def execBufStateWrite (q : Req) (b : Fin 2048) (v : Nat) (s : State) : Host.Outcome State Fault Refusal := put q (K.BUF_STATE b.val) v [] s
/-- BUF_FORCED: 0x80 to STATE (R223). -/
def execBufForced (q : Req) (b : Fin 2048) (s : State) : Host.Outcome State Fault Refusal := put q (K.BUF_STATE b.val) 0x80 [] s
/-- FENCE_DONE_WRITE (R273). -/
def execFenceDoneWrite (q : Req) (x : Fin 128) (v : Nat) (s : State) : Host.Outcome State Fault Refusal := put q (K.LAYER_FENCE_DONE x.val) v [] s
/-- PROOF_LEARN (R281). -/
def execProofLearn (q : Req) (p : Fin 64) (s : State) : Host.Outcome State Fault Refusal := put q (K.PRF_LEARN p.val) 1 [] s
/-- CST_GO (R339). -/
def execCstGo (q : Req) (s : State) : Host.Outcome State Fault Refusal := put q K.CST_GO 1 [] s
/-- CST_ABORT (R341). -/
def execCstAbort (q : Req) (s : State) : Host.Outcome State Fault Refusal := put q K.CST_ABORT 1 [] s
/-- CST_RESERVE_WRITE (R342). -/
def execCstReserveWrite (q : Req) (v : Nat) (s : State) : Host.Outcome State Fault Refusal := put q K.CST_RESERVE v [] s
/-- CST_IRQ_ACK (R346). -/
def execCstIrqAck (q : Req) (v : Nat) (s : State) : Host.Outcome State Fault Refusal := put q K.CST_IRQ_ACK v [] s
/-- CLUSTERS_RETEST (R353). -/
def execClustersRetest (q : Req) (p : Nat) (s : State) : Host.Outcome State Fault Refusal := put q K.CLUSTERS_RETEST p [] s
/-- ROTATE_NOW (R360). -/
def execRotateNow (q : Req) (s : State) : Host.Outcome State Fault Refusal := put q K.TSTRIP_ROTATE_NOW 1 [] s
/-- MGMT_FORCE_SWITCHOVER: a write of MGMT.SWITCHOVER (R356). -/
def execMgmtForceSwitchover (q : Req) (s : State) : Host.Outcome State Fault Refusal := put q K.MGMT_SWITCHOVER 1 [] s
/-- DOMAIN_ENABLE (R370). -/
def execDomainEnable (q : Req) (i : Fin 56) (s : State) : Host.Outcome State Fault Refusal := put q (K.PD_ENABLE i.val) 1 [] s
/-- DOMAIN_DISABLE (R370). -/
def execDomainDisable (q : Req) (i : Fin 56) (s : State) : Host.Outcome State Fault Refusal := put q (K.PD_ENABLE i.val) 0 [] s
/-- FORCE_OFF (R371). -/
def execForceOff (q : Req) (i : Fin 56) (s : State) : Host.Outcome State Fault Refusal := put q (K.PD_FORCE_OFF i.val) 1 [] s
/-- WARM_RESET (R367). -/
def execWarmReset (q : Req) (s : State) : Host.Outcome State Fault Refusal := put q K.RESET_WARM 1 [] s
/-- FW_VERIFY (R376). -/
def execFwVerify (q : Req) (v : Nat) (s : State) : Host.Outcome State Fault Refusal := put q K.FW_VERIFY v [] s
/-- FW_ACTIVATE; `cause` and `version` are what the standby pair finds of the image, 0 a valid one (R376). -/
def execFwActivate (q : Req) (v cause version : Nat) (s : State) : Host.Outcome State Fault Refusal := put q K.FW_ACTIVATE v [cause, version] s
/-- FW_CONFIRM (R376). -/
def execFwConfirm (q : Req) (s : State) : Host.Outcome State Fault Refusal := put q K.FW_CONFIRM 1 [] s
/-- FLASH_ERASE (R376). -/
def execFlashErase (q : Req) (s : State) : Host.Outcome State Fault Refusal := put q K.FLASH_ERASE 1 [] s
/-- FLASH_DATA_WRITE: 1,024 bytes, as the number they spell (R376). -/
def execFlashDataWrite (q : Req) (v : Nat) (s : State) : Host.Outcome State Fault Refusal := put q K.FLASH_DATA v [] s
/-- NEG_RELEASE (R385). -/
def execNegRelease (q : Req) (s : State) : Host.Outcome State Fault Refusal := put q K.NEG_RELEASE 1 [] s
/-- NEG_PRINT (R387). -/
def execNegPrint (q : Req) (v : Nat) (s : State) : Host.Outcome State Fault Refusal := put q K.NEG_PRINT v [] s
/-- PIN_FUNC_WRITE (R397). -/
def execPinFuncWrite (q : Req) (p : Fin 32) (v : Nat) (s : State) : Host.Outcome State Fault Refusal := put q (K.PIN_FUNC p.val) v [] s
/-- MEASURED_CLEAR (R208). -/
def execMeasuredClear (q : Req) (n : Fin 48) (s : State) : Host.Outcome State Fault Refusal := put q (K.OUT_MEASURED_CLEAR n.val) 1 [] s
/-- ADM_CHECK (R210). -/
def execAdmCheck (q : Req) (mask : Nat) (s : State) : Host.Outcome State Fault Refusal := put q K.ADM_CHECK mask [] s

/-- STATS.CLEAR of a block: inputs 0 to 47, outputs from 48, Easels from 96, FRCs from 112, audio groups from 128 (R58). -/
def statsKey (b : Nat) : Nat :=
  if b < 48 then K.IN_STATS_CLEAR b else if b < 96 then K.OUT_STATS_CLEAR (b - 48) else if b < 112 then K.EAS_STATS_CLEAR (b - 96)
  else if b < 128 then K.FRC_STATS_CLEAR (b - 112) else K.AIN_STATS_CLEAR (b - 128)

/-- STATS_CLEAR (R58). -/
def execStatsClear (q : Req) (b : Fin 176) (s : State) : Host.Outcome State Fault Refusal := put q (statsKey b.val) 1 [] s

/-- FLASH_DATA_READ: a READ of FLASH.DATA (R376). -/
def execFlashDataRead (q : Req) (s : State) : Host.Outcome State Fault Refusal :=
  recv 0x10 { q with len := 4, payload := bytesBE 3 K.FLASH_DATA ++ [0] } [] s

/-- WIN_DATA_READ: a READ of unit `first`, or a BLOCK_READ of units `first` to `last` of the window (R226). -/
def execWinDataRead (q : Req) (block : Bool) (first last : Fin 256) (s : State) : Host.Outcome State Fault Refusal :=
  if block then recv 0x12 { q with len := 4, payload := [0x68, 0x11, first.val, last.val] } [] s
  else recv 0x10 { q with len := 4, payload := [0x68, 0x11, first.val, 0] } [] s

/-- WIN_DATA_WRITE: a WRITE of unit `first`, or a BLOCK_WRITE of units `first` to `last`, of the bytes given (R226). -/
def execWinDataWrite (q : Req) (block : Bool) (first last : Fin 256) (bytes : List Nat) (s : State) : Host.Outcome State Fault Refusal :=
  if block then recv 0x13 { q with len := 4 + bytes.length, payload := [0x68, 0x11, first.val, last.val] ++ bytes } [] s
  else recv 0x11 { q with len := 4 + bytes.length, payload := [0x68, 0x11, first.val, 0] ++ bytes } [] s

end Sys2Proof.Machine
end

