-- ==== Sys2Proof/Machine/Dispatch.lean ====
section
/-! DEFINITION. The dispatch: one arm for each command. -/
namespace Sys2Proof.Machine

/-- What a command does to everything but the queue. -/
def exec (i : Instr) (s : State) : Host.Outcome State Fault Refusal :=
  match i with
  | .hello q => Sys2Proof.Machine.execHello q s
  | .helloResume q => Sys2Proof.Machine.execHelloResume q s
  | .auth q => Sys2Proof.Machine.execAuth q s
  | .ping q => Sys2Proof.Machine.execPing q s
  | .bye q => Sys2Proof.Machine.execBye q s
  | .read q => Sys2Proof.Machine.execRead q s
  | .write q x => Sys2Proof.Machine.execWrite q x s
  | .blockRead q => Sys2Proof.Machine.execBlockRead q s
  | .blockWrite q x => Sys2Proof.Machine.execBlockWrite q x s
  | .commit q => Sys2Proof.Machine.execCommit q s
  | .commitAt q => Sys2Proof.Machine.execCommitAt q s
  | .commitAtTimeReached v => Sys2Proof.Machine.execCommitAtTimeReached v s
  | .subscribe q => Sys2Proof.Machine.execSubscribe q s
  | .unsubscribe q => Sys2Proof.Machine.execUnsubscribe q s
  | .notify w h => Sys2Proof.Machine.execNotify w h s
  | .notifyAck q => Sys2Proof.Machine.execNotifyAck q s
  | .notifyRetry w seq => Sys2Proof.Machine.execNotifyRetry w seq s
  | .sessionTimeout w => Sys2Proof.Machine.execSessionTimeout w s
  | .resumeWindowExpiry w => Sys2Proof.Machine.execResumeWindowExpiry w s
  | .replayExpiry => Sys2Proof.Machine.execReplayExpiry s
  | .spiStatus => Sys2Proof.Machine.execSpiStatus s
  | .spiWriteMsg l x => Sys2Proof.Machine.execSpiWriteMsg l x s
  | .spiReadMsg n => Sys2Proof.Machine.execSpiReadMsg n s
  | .spiBadCommand => Sys2Proof.Machine.execSpiBadCommand s
  | .latentDiscard q mask => Sys2Proof.Machine.execLatentDiscard q mask s
  | .slvCancel q v x => Sys2Proof.Machine.execSlvCancel q v x s
  | .salvoTrigger p => Sys2Proof.Machine.execSalvoTrigger p s
  | .triggerHoldoffEnd p => Sys2Proof.Machine.execTriggerHoldoffEnd p s
  | .developmentPoint n => Sys2Proof.Machine.execDevelopmentPoint n s
  | .gsynDevelopment g t => Sys2Proof.Machine.execGsynDevelopment g t s
  | .gsynRateChange g d => Sys2Proof.Machine.execGsynRateChange g d s
  | .refSignalDetected k code lines num den => Sys2Proof.Machine.execRefSignalDetected k code lines num den s
  | .refLossOfSignal k => Sys2Proof.Machine.execRefLossOfSignal k s
  | .qualTimeExpiry k => Sys2Proof.Machine.execQualTimeExpiry k s
  | .wtrExpiry k => Sys2Proof.Machine.execWtrExpiry k s
  | .refMeasurement offs => Sys2Proof.Machine.execRefMeasurement offs s
  | .selectorEvaluation j d => Sys2Proof.Machine.execSelectorEvaluation j d s
  | .lockHoldExpiry j => Sys2Proof.Machine.execLockHoldExpiry j s
  | .phaseMeasurement j e => Sys2Proof.Machine.execPhaseMeasurement j e s
  | .selModeWrite q j v d => Sys2Proof.Machine.execSelModeWrite q j v d s
  | .ncoWrite q j v => Sys2Proof.Machine.execNcoWrite q j v s
  | .todSet q t => Sys2Proof.Machine.execTodSet q t s
  | .ptpSync p off delay log => Sys2Proof.Machine.execPtpSync p off delay log s
  | .ptpAnnounce p domain prio1 cls acc var prio2 gm steps utc log d => Sys2Proof.Machine.execPtpAnnounce p domain prio1 cls acc var prio2 gm steps utc log d s
  | .ptpAnnounceTimeout p => Sys2Proof.Machine.execPtpAnnounceTimeout p s
  | .ppsInEdge => Sys2Proof.Machine.execPpsInEdge s
  | .ppsOutSecond => Sys2Proof.Machine.execPpsOutSecond s
  | .gsynBandSearch g band word => Sys2Proof.Machine.execGsynBandSearch g band word s
  | .gsynLock g gain t => Sys2Proof.Machine.execGsynLock g gain t s
  | .gsynLol g word => Sys2Proof.Machine.execGsynLol g word s
  | .pllLol x word => Sys2Proof.Machine.execPllLol x word s
  | .relock1 q g => Sys2Proof.Machine.execRelock1 q g s
  | .relockTimeout g => Sys2Proof.Machine.execRelockTimeout g s
  | .relock2 q g => Sys2Proof.Machine.execRelock2 q g s
  | .lolClear q => Sys2Proof.Machine.execLolClear q s
  | .slewDone g => Sys2Proof.Machine.execSlewDone g s
  | .rampRun q g => Sys2Proof.Machine.execRampRun q g s
  | .rampHold q g => Sys2Proof.Machine.execRampHold q g s
  | .rampReturn q g => Sys2Proof.Machine.execRampReturn q g s
  | .rampSegmentEnd g => Sys2Proof.Machine.execRampSegmentEnd g s
  | .divsyncEdge moves => Sys2Proof.Machine.execDivsyncEdge moves s
  | .outGeneratorStart n t => Sys2Proof.Machine.execOutGeneratorStart n t s
  | .switchLine n ns => Sys2Proof.Machine.execSwitchLine n ns s
  | .lineStart n line lam room => Sys2Proof.Machine.execLineStart n line lam room s
  | .frameDone n => Sys2Proof.Machine.execFrameDone n s
  | .irqAck q n v => Sys2Proof.Machine.execIrqAck q n v s
  | .fetchCompletion n k => Sys2Proof.Machine.execFetchCompletion n k s
  | .rxEnergyPresent n => Sys2Proof.Machine.execRxEnergyPresent n s
  | .rxEnergyLost n => Sys2Proof.Machine.execRxEnergyLost n s
  | .cdrLock n rate => Sys2Proof.Machine.execCdrLock n rate s
  | .cdrDwellExpiry n => Sys2Proof.Machine.execCdrDwellExpiry n s
  | .cdrUnlock n => Sys2Proof.Machine.execCdrUnlock n s
  | .rateModeWrite q n v => Sys2Proof.Machine.execRateModeWrite q n v s
  | .trsAligned n mapping lines samples => Sys2Proof.Machine.execTrsAligned n mapping lines samples s
  | .rxFrameMeasured n m => Sys2Proof.Machine.execRxFrameMeasured n m s
  | .rxTrsLoss n => Sys2Proof.Machine.execRxTrsLoss n s
  | .rxLine n line trs off ln crcOk px => Sys2Proof.Machine.execRxLine n line trs off ln crcOk px s
  | .ancPacket n a => Sys2Proof.Machine.execAncPacket n a s
  | .rxSwitchLineStamp q k ns => Sys2Proof.Machine.execRxSwitchLineStamp q k ns s
  | .rxIntervalLatch n => Sys2Proof.Machine.execRxIntervalLatch n s
  | .bracketSelect q n v => Sys2Proof.Machine.execBracketSelect q n v s
  | .bracketRevert p => Sys2Proof.Machine.execBracketRevert p s
  | .bracketTakeover n cause => Sys2Proof.Machine.execBracketTakeover n cause s
  | .bracketRelease q n => Sys2Proof.Machine.execBracketRelease q n s
  | .slateInsert q n => Sys2Proof.Machine.execSlateInsert q n s
  | .slateRemove q n => Sys2Proof.Machine.execSlateRemove q n s
  | .slateAutoClear n => Sys2Proof.Machine.execSlateAutoClear n s
  | .segmentReceived d row seg a b => Sys2Proof.Machine.execSegmentReceived d row seg a b s
  | .planeReturnFrame p d => Sys2Proof.Machine.execPlaneReturnFrame p d s
  | .xbarRetest q v => Sys2Proof.Machine.execXbarRetest q v s
  | .burstGrant t waiting => Sys2Proof.Machine.execBurstGrant t waiting s
  | .burstCompletion t ecc => Sys2Proof.Machine.execBurstCompletion t ecc s
  | .lockTimeout t => Sys2Proof.Machine.execLockTimeout t s
  | .masterDrain m accepted => Sys2Proof.Machine.execMasterDrain m accepted s
  | .scrub st off ecc => Sys2Proof.Machine.execScrub st off ecc s
  | .pcFail st q test => Sys2Proof.Machine.execPcFail st q test s
  | .pcRebuildDone st sl => Sys2Proof.Machine.execPcRebuildDone st sl s
  | .mirrorSynced id => Sys2Proof.Machine.execMirrorSynced id s
  | .bufAlloc q b => Sys2Proof.Machine.execBufAlloc q b s
  | .bufStateWrite q b v => Sys2Proof.Machine.execBufStateWrite q b v s
  | .bufForced q b => Sys2Proof.Machine.execBufForced q b s
  | .winDataRead q block first last => Sys2Proof.Machine.execWinDataRead q block first last s
  | .winDataWrite q block first last bytes => Sys2Proof.Machine.execWinDataWrite q block first last bytes s
  | .canvasSwitchLine e ns lam => Sys2Proof.Machine.execCanvasSwitchLine e ns lam s
  | .canvasDevelopment e => Sys2Proof.Machine.execCanvasDevelopment e s
  | .fenceDoneWrite q x v => Sys2Proof.Machine.execFenceDoneWrite q x v s
  | .wbDone e => Sys2Proof.Machine.execWbDone e s
  | .proofSignature p => Sys2Proof.Machine.execProofSignature p s
  | .proofLearn q p => Sys2Proof.Machine.execProofLearn q p s
  | .frcSwitchLine f ns => Sys2Proof.Machine.execFrcSwitchLine f ns s
  | .frcDevelopment f => Sys2Proof.Machine.execFrcDevelopment f s
  | .motionEstimation f k j => Sys2Proof.Machine.execMotionEstimation f k j s
  | .cadenceFrame f k stamp => Sys2Proof.Machine.execCadenceFrame f k stamp s
  | .audioPacket n p => Sys2Proof.Machine.execAudioPacket n p s
  | .channelAbsent n c => Sys2Proof.Machine.execChannelAbsent n c s
  | .audioSample d ns => Sys2Proof.Machine.execAudioSample d ns s
  | .asrcRecover d => Sys2Proof.Machine.execAsrcRecover d s
  | .audioSlewEnd d => Sys2Proof.Machine.execAudioSlewEnd d s
  | .nonpcmEnd n j => Sys2Proof.Machine.execNonpcmEnd n j s
  | .nonpcmForcedSwitch d => Sys2Proof.Machine.execNonpcmForcedSwitch d s
  | .cstGo q => Sys2Proof.Machine.execCstGo q s
  | .cstAbort q => Sys2Proof.Machine.execCstAbort q s
  | .cstReserveWrite q v => Sys2Proof.Machine.execCstReserveWrite q v s
  | .cstLineComplete bad fault => Sys2Proof.Machine.execCstLineComplete bad fault s
  | .cstIrqAck q v => Sys2Proof.Machine.execCstIrqAck q v s
  | .clusterFault p cause => Sys2Proof.Machine.execClusterFault p cause s
  | .lineWatchdogExpiry p => Sys2Proof.Machine.execLineWatchdogExpiry p s
  | .failover us => Sys2Proof.Machine.execFailover us s
  | .clustersRetest q p => Sys2Proof.Machine.execClustersRetest q p s
  | .retestDone p pass => Sys2Proof.Machine.execRetestDone p pass s
  | .selfTestDone pass test => Sys2Proof.Machine.execSelfTestDone pass test s
  | .rotationPeriod => Sys2Proof.Machine.execRotationPeriod s
  | .rotateNow q => Sys2Proof.Machine.execRotateNow q s
  | .rotationCompare same => Sys2Proof.Machine.execRotationCompare same s
  | .rotationMove w => Sys2Proof.Machine.execRotationMove w s
  | .mgmtFault => Sys2Proof.Machine.execMgmtFault s
  | .mgmtWatchdogExpiry => Sys2Proof.Machine.execMgmtWatchdogExpiry s
  | .mgmtSwitchover => Sys2Proof.Machine.execMgmtSwitchover s
  | .mgmtForceSwitchover q => Sys2Proof.Machine.execMgmtForceSwitchover q s
  | .powerOnReset pwrgood => Sys2Proof.Machine.execPowerOnReset pwrgood s
  | .pinReset => Sys2Proof.Machine.execPinReset s
  | .warmReset q => Sys2Proof.Machine.execWarmReset q s
  | .imageLoad p cause version sec => Sys2Proof.Machine.execImageLoad p cause version sec s
  | .domainEnable q w => Sys2Proof.Machine.execDomainEnable q w s
  | .domainDisable q w => Sys2Proof.Machine.execDomainDisable q w s
  | .forceOff q w => Sys2Proof.Machine.execForceOff q w s
  | .domainReady w => Sys2Proof.Machine.execDomainReady w s
  | .funcReady w b => Sys2Proof.Machine.execFuncReady w b s
  | .domainFault w cause => Sys2Proof.Machine.execDomainFault w cause s
  | .fwVerify q v => Sys2Proof.Machine.execFwVerify q v s
  | .fwActivate q v cause version => Sys2Proof.Machine.execFwActivate q v cause version s
  | .fwConfirm q => Sys2Proof.Machine.execFwConfirm q s
  | .flashErase q => Sys2Proof.Machine.execFlashErase q s
  | .flashEraseDone => Sys2Proof.Machine.execFlashEraseDone s
  | .flashDataWrite q v => Sys2Proof.Machine.execFlashDataWrite q v s
  | .flashDataRead q => Sys2Proof.Machine.execFlashDataRead q s
  | .negPostDone => Sys2Proof.Machine.execNegPostDone s
  | .negRelease q => Sys2Proof.Machine.execNegRelease q s
  | .negPrint q v => Sys2Proof.Machine.execNegPrint q v s
  | .negPrintStart => Sys2Proof.Machine.execNegPrintStart s
  | .negPrinted ok => Sys2Proof.Machine.execNegPrinted ok s
  | .pinFuncWrite q p v => Sys2Proof.Machine.execPinFuncWrite q p v s
  | .eventOutPulseEnd p => Sys2Proof.Machine.execEventOutPulseEnd p s
  | .ctlLink c link => Sys2Proof.Machine.execCtlLink c link s
  | .statsClear q b => Sys2Proof.Machine.execStatsClear q b s
  | .measuredClear q n => Sys2Proof.Machine.execMeasuredClear q n s
  | .admCheck q mask => Sys2Proof.Machine.execAdmCheck q mask s
  | .resetRelease => Sys2Proof.Machine.execResetRelease s
  | .domainOff w => Sys2Proof.Machine.execDomainOff w s
  | .fwVerifyDone cause version => Sys2Proof.Machine.execFwVerifyDone cause version s
  | .ppsOutWidthEnd => Sys2Proof.Machine.execPpsOutWidthEnd s
  | .gpioInputLevel p high => Sys2Proof.Machine.execGpioInputLevel p high s
  | .refPhaseEvent k e => Sys2Proof.Machine.execRefPhaseEvent k e s

end Sys2Proof.Machine
end

