-- ==== Sys2Proof/Machine/Tick.lean ====
section
/-! DEFINITION. What the block does when no command waits: one tick of 1 us passes (log 1). -/
namespace Sys2Proof.Machine

/-- A stack's held load rises above a limit that faults have reduced, or comes back under it (R202, R355, R359). -/
def State.overSync (s : State) : State :=
  let low (k : Nat) : Bool := decide (s.rd k < 500000)
  let held := if low K.ADM_LIMIT_S0 || low K.ADM_LIMIT_S1 then s.heldLoad else (0, 0, 0)
  let o0 := low K.ADM_LIMIT_S0 && decide (s.rd K.ADM_LIMIT_S0 < held.2.1)
  let o1 := low K.ADM_LIMIT_S1 && decide (s.rd K.ADM_LIMIT_S1 < held.2.2)
  let yields := s.tstripFree && (o0 || o1)
  let s := s.wrs [(H.overLoad 0, if o0 then 1 else 0), (H.overLoad 1, if o1 then 1 else 0)]
  if yields then s.raise 0x700E 0x1A04 3 0 else s

/-- The end of a tick: pairs are judged, canvases develop, buffers retire, protection and the shadows follow the state, pins meet their
edges, the events raised take their numbers (R148, R224, R273, R346, R359, R381, R396). -/
def State.tickEnd (s : State) : State :=
  (((s.brEnd.canvasesDevelop.retireAll.overSync.protSync.tstSync.pinSync).clkSync 0).clkSync 1).recordTick.pulseEnds

/-- The beginning of the next tick: both timescales advance, the Copy Stand's buckets fill, the domains power up in turn (R91, R343, R369). -/
def State.tickBegin (s : State) : State :=
  ((({ s with tx := [], spiOut := [] }.up (H.now) (· + 1)).tsTick 0).tsTick 1).leapStep.cstFill.powerTick

/-- One tick; the part held in reset has no clock (R366). -/
def State.tick (s : State) : State := if s.rd (H.running) = 1 then s.tickEnd.tickBegin else s

end Sys2Proof.Machine
end

