-- ==== Sys2Proof/Safety.lean ====
section
/-! DEFINITION. What counts as a safe run of the block, and the words the statements use: what a command changes, and how a request of a
session is taken and answered. -/
namespace Sys2Proof

open Machine

/-- The state is in canonical form: the register file, the Latent sets, the frame store and the flash list rising keys, and nothing that
reads the same unlisted. -/
def Canonical (s : State) : Bool := regWf s.reg && alSorted s.lat && Memory.wf s.mem && cellsWf flashBlank s.flash

/-- From a state the block runs on for any number of steps. -/
def NeverStops (s : State) : Prop := ∀ k, ∃ t, core.run k s = .next t

/-! ## What a command changes -/

/-- The events a state holds that are not yet recorded: code, source and arguments of each (R381, R382). -/
def raisedOf (s : State) : List (Nat × Nat × Nat × Nat) := s.raised.map (fun e => (e.code, e.src, e.a1, e.a2))

/-- Every byte of the frame store and of the flash reads as before; the queue, the Latent sets and the committed stage are the same. -/
structure StoresKept (s t : State) : Prop where
  mem : ∀ a, t.rdMem a = s.rdMem a
  flash : ∀ a, t.rdFlash a = s.rdFlash a
  pending : t.pending = s.pending
  lat : t.lat = s.lat
  com : t.com = s.com
  due : t.due = s.due

/-- Nothing but registers and events differs. -/
structure OnlyRegisters (s t : State) : Prop extends StoresKept s t where
  vec : ∀ k, t.vec k = s.vec k
  tx : t.tx = s.tx
  cache : t.cache = s.cache
  subs : t.subs = s.subs
  notes : t.notes = s.notes
  done : t.done = s.done
  spiTx : t.spiTx = s.spiTx
  spiOut : t.spiOut = s.spiOut
  nu : t.nu = s.nu
  bursts : t.bursts = s.bursts
  freeCtr : t.freeCtr = s.freeCtr

/-- Every register but those named reads as before. -/
def RegsKept (ks : List Nat) (s t : State) : Prop := ∀ k, k ∉ ks → t.rd k = s.rd k

/-- The command completes: it gives the registers of `w` the values `w` names, leaves every other register, raises exactly the events
`ev`, and changes nothing else. -/
def Does (c : Instr) (s : State) (w : List (Nat × Nat)) (ev : List (Nat × Nat × Nat × Nat)) : Prop :=
  ∃ t, exec c s = .next t ∧ (∀ p ∈ w, t.rd p.1 = p.2) ∧ RegsKept (w.map Prod.fst) s t ∧ raisedOf t = raisedOf s ++ ev ∧ OnlyRegisters s t

/-- The command completes in a state of which `f` holds. -/
def Ends (c : Instr) (s : State) (f : State → Prop) : Prop := ∃ t, exec c s = .next t ∧ f t

/-- The command completes: it gives the registers of `w` the values `w` names, may change those of `others`, leaves every other register,
raises exactly the events `ev`, and leaves the stores alone. -/
def Changes (c : Instr) (s : State) (w : List (Nat × Nat)) (others : List Nat) (ev : List (Nat × Nat × Nat × Nat)) : Prop :=
  ∃ t, exec c s = .next t ∧ (∀ p ∈ w, t.rd p.1 = p.2) ∧ RegsKept (w.map Prod.fst ++ others) s t ∧ raisedOf t = raisedOf s ++ ev ∧ StoresKept s t

/-- The command finds its conditions not met and changes nothing. -/
def Idles (c : Instr) (s : State) : Prop := exec c s = .next s

/-- The commands after which no byte, no Latent value, no committed value and no waiting command differs. -/
def keepsStores : Instr → Bool
  | .notify _ _ | .notifyRetry _ _ | .sessionTimeout _ | .resumeWindowExpiry _ | .replayExpiry | .spiStatus
  | .spiReadMsg _ | .spiBadCommand | .triggerHoldoffEnd _ | .gsynRateChange _ _ | .refSignalDetected _ _ _ _ _
  | .refLossOfSignal _ | .qualTimeExpiry _ | .wtrExpiry _ | .refMeasurement _ | .selectorEvaluation _ _
  | .lockHoldExpiry _ | .phaseMeasurement _ _ | .ptpSync _ _ _ _ | .ptpAnnounce _ _ _ _ _ _ _ _ _ _ _ _
  | .ptpAnnounceTimeout _ | .ppsInEdge | .ppsOutSecond | .gsynBandSearch _ _ _ | .gsynLock _ _ _ | .gsynLol _ _
  | .pllLol _ _ | .relockTimeout _ | .slewDone _ | .rampSegmentEnd _ | .divsyncEdge _ | .outGeneratorStart _ _
  | .lineStart _ _ _ _ | .frameDone _ | .fetchCompletion _ _ | .rxEnergyPresent _ | .rxEnergyLost _ | .cdrLock _ _
  | .cdrDwellExpiry _ | .cdrUnlock _ | .trsAligned _ _ _ _ | .rxFrameMeasured _ _ | .rxTrsLoss _ | .rxIntervalLatch _
  | .bracketRevert _ | .bracketTakeover _ _ | .slateAutoClear _ | .segmentReceived _ _ _ _ _ | .planeReturnFrame _ _
  | .burstGrant _ _ | .lockTimeout _ | .pcRebuildDone _ _ | .proofSignature _ | .motionEstimation _ _ _
  | .cadenceFrame _ _ _ | .audioPacket _ _ | .channelAbsent _ _ | .audioSample _ _ | .asrcRecover _ | .audioSlewEnd _
  | .nonpcmEnd _ _ | .nonpcmForcedSwitch _ | .clusterFault _ _ | .lineWatchdogExpiry _ | .failover _ | .retestDone _ _
  | .selfTestDone _ _ | .rotationPeriod | .rotationCompare _ | .rotationMove _ | .mgmtFault | .mgmtWatchdogExpiry
  | .mgmtSwitchover | .imageLoad _ _ _ _ | .domainReady _ | .funcReady _ _ | .negPostDone | .negPrintStart
  | .eventOutPulseEnd _ | .ctlLink _ _ | .resetRelease | .domainOff _ | .fwVerifyDone _ _ | .ppsOutWidthEnd
  | .gpioInputLevel _ _ | .refPhaseEvent _ _ | .canvasDevelopment _ => true
  | _ => false

/-- The commands of the commit machinery: committed values develop, but no byte changes. -/
def keepsBytes : Instr → Bool
  | .commitAtTimeReached _ | .salvoTrigger _ | .developmentPoint _ | .gsynDevelopment _ _ | .switchLine _ _
  | .frcSwitchLine _ _ | .frcDevelopment _ => true
  | _ => false

/-- The commands that write the frame store and no other store. -/
def writesMemory : Instr → Bool
  | .rxLine _ _ _ _ _ _ _ | .ancPacket _ _ | .rxSwitchLineStamp _ _ _ | .burstCompletion _ _ | .masterDrain _ _ | .scrub _ _ _
  | .pcFail _ _ _ | .mirrorSynced _ | .wbDone _ | .cstLineComplete _ _ => true
  | _ => false

/-! ## Requests -/

/-- A management pair serves, outside RECOVERY; the SPI target, or a control port that is up and has the address and UDP port `q` was sent to;
its header is right (R32, R62, R64, R68, R71). -/
structure Door (s : State) (q : Req) : Prop where
  on : s.rd H.mgmtOn = 1
  normal : s.rd H.recov ≠ 1
  port : q.port ≤ 2
  up : q.port < 2 → s.rd (K.PD_STATE (3 + q.port)) = 3 ∧ s.rd (K.CTL_ENABLE q.port) = 1
  here : q.port < 2 → q.dport = s.rd (K.CTL_QCP_PORT q.port) ∧ s.ownAddr q.port q.dst = true
  magic : q.magic = 0x5A51
  plain : q.flags.testBit 7 = false

/-- The request passes the door and names session record i, which is open, in its generation (R65, R72, R84). -/
structure Heard (s : State) (q : Req) (i : Nat) : Prop extends Door s q where
  named : s.findSess q = some i
  open' : i ≠ 16 → s.rd (K.SESS_STATE i) = 1
  gen : q.gen = s.rd (K.SESS_GEN i)

/-- The request is not answered from the cache, and its SEQ is newer than LAST_SEQ (R77). -/
structure Fresh (s : State) (q : Req) (i : Nat) : Prop where
  uncached : ∀ e ∈ s.cache, ¬ (e.slot = i ∧ e.seq = q.seq ∧ s.now ≤ e.at' + s.replayTicks)
  newer : newer q.seq (s.rd (K.SESS_LAST_SEQ i)) = true

/-- A request the block executes for session i: heard, fresh, and of a right LEN. -/
structure Serves (s : State) (q : Req) (i : Nat) : Prop extends Heard s q i, Fresh s q i

/-- The request's own LEN is right (R65, R68). -/
def LenOk (q : Req) : Prop := q.len = q.payload.length ∧ q.len ≤ 1400

/-- The registers a request of session i changes by arriving. -/
def arrivalKeys (i : Nat) : List Nat :=
  [K.SESS_PORT i, H.lastReq i, H.sessMute i, H.warmPend, K.SESS_ADDR i, K.SESS_UDP i, H.sessOwn i, K.SESS_LAST_SEQ i]

/-- The state once request `q` of session i has arrived: answers go where it came from, the session's timer restarts, LAST_SEQ is its
SEQ (R63, R72, R77). -/
def arrived (q : Req) (i : Nat) (s : State) : State :=
  let s := s.wrs ([(K.SESS_PORT i, q.port), (H.lastReq i, s.now), (H.sessMute i, 0), (H.warmPend, 0)]
    ++ (if i = 16 then []
        else [(K.SESS_ADDR i, q.addr % 2 ^ 128), (K.SESS_UDP i, q.udp % 65536), (H.sessOwn i, q.dst % 2 ^ 128)]))
  s.wr (K.SESS_LAST_SEQ i) (q.seq % 2 ^ 32)

/-- The answer to `q`, from where it arrived to where it came from: its SEQ and OP, a STATUS and a payload (R65, R66). -/
def answerTo (s : State) (q : Req) (i op st : Nat) (payload : List Nat) : Msg :=
  ⟨q.port, q.dst, q.addr, q.udp, s.rd (K.SESS_GEN i), 0x80, if i = 16 then 0 else s.rd (K.SESS_ID i), q.seq, op, st, payload⟩

/-- State `m` with the answer remembered for replay and sent (R63, R77). -/
def replied (s : State) (q : Req) (i op st : Nat) (payload : List Nat) (m : State) : State :=
  let a := answerTo s q i op st payload
  (m.remember ⟨i, q.addr, q.udp, q.seq, [a], s.now⟩).send a

/-- A WRITE of object `k` is carried out: `f` is what it does, CFG_SEQ counts it, the answer is OK (R40, R57, R69); a warm reset it asked for
follows the answer (R367). -/
def wrote (s : State) (q : Req) (i k : Nat) (f : State → State) : State :=
  (replied s q i 0x11 0 (bytesBE 3 k ++ [0]) ((f (arrived q i s)).inc K.IDENT_CFG_SEQ 1 (2 ^ 64))).afterAnswer

/-- A WRITE of object `k` is not carried out: nothing changes but what its arrival and its answer do, and `f`, the events of the refusal
(R60). -/
def declined (s : State) (q : Req) (i k st : Nat) (extra : List Nat) (f : State → State) : State :=
  replied s q i 0x11 st (bytesBE 3 k ++ [0] ++ extra) (f (arrived q i s))

/-- A write of object `k` is answered OK: it gives the registers of `w` the values `w` names, raises the events `ev`, and changes nothing
beyond what its arrival and its answer change. -/
def Writes (c : Instr) (s : State) (q : Req) (i k : Nat) (w : List (Nat × Nat)) (ev : List (Nat × Nat × Nat × Nat)) : Prop :=
  let u := wrote s q i k id
  ∃ t, exec c s = .next t ∧ (∀ p ∈ w, t.rd p.1 = p.2) ∧ RegsKept (w.map Prod.fst) u t ∧ raisedOf t = raisedOf u ++ ev ∧ OnlyRegisters u t

/-- The command completes as `Does` says, and then what no state needs is released and protection follows the state (R197, R228, R357). -/
def Settles (c : Instr) (s : State) (w : List (Nat × Nat)) (ev : List (Nat × Nat × Nat × Nat)) : Prop :=
  ∃ t, exec c s = .next t.protSync ∧ (∀ p ∈ w, t.rd p.1 = p.2) ∧ RegsKept (w.map Prod.fst) s t ∧ raisedOf t = raisedOf s ++ ev ∧ OnlyRegisters s t

end Sys2Proof
end

