-- ==== Sys2Proof/Certificates/Slice0/Obligations.lean ====
section
/-! DEFINITION. The statements for the provers. The words they use (Does, Ends, Idles, Serves, wrote, declined and the rest) are defined in
Safety.lean. -/

open Sys2Proof Sys2Proof.Machine

/-- A step runs the command in front. With command c at the front of the queue, a step is what c does on the state with the queue's
rest. -/
def Obligations.StepRunsFront : Prop :=
  ∀ (c : Instr) (rest : List Instr) (s : State), step { s with pending := c :: rest } = exec c { s with pending := rest }

/-- With no command waiting a tick passes. The model's choice (log 1): on an empty queue a step is one 1 us tick, the end of this one
and the beginning of the next; a part held in reset has no clock, so that nothing changes. -/
def Obligations.EmptyQueueTicks : Prop :=
  ∀ s : State, s.pending = [] →
    (s.rd H.running = 1 → step s = .next s.tickEnd.tickBegin) ∧ (s.rd H.running ≠ 1 → step s = .next s)

/-- The block runs on for ever. No command faults or is refused: in every state every command completes and leaves the rest of the queue
as it was, every step completes with one command less, and a run goes on for any number of steps. -/
def Obligations.BlockNeverStops : Prop :=
  (∀ (c : Instr) (s : State), ∃ t, exec c s = .next t ∧ t.pending = s.pending) ∧
  (∀ s : State, ∃ t, step s = .next t ∧ t.pending = s.pending.tail) ∧
  (∀ s : State, NeverStops s)

/-- The state after reset is canonical. The reset state is in canonical form. -/
def Obligations.ResetCanonical : Prop :=
  Canonical State.reset = true

/-- Every step keeps the canonical form. From every state in canonical form, whatever waits in the queue, a step leads to a state in
canonical form: register file, Latent sets, frame store and flash stay sorted lists without an entry that reads the same unlisted. -/
def Obligations.StepKeepsCanonical : Prop :=
  ∀ s t : State, Canonical s = true → step s = .next t → Canonical t = true

/-- Equal readings are equal data. Two canonical states whose registers all read the same have the same register file; two whose bytes
of the frame store, or of the flash, all read the same have the same frame store, or flash. -/
def Obligations.CanonicalReadsDecide : Prop :=
  ∀ s t : State, Canonical s = true → Canonical t = true →
    ((∀ k, s.rd k = t.rd k) → s.reg = t.reg) ∧
    ((∀ a, s.rdMem a = t.rdMem a) → s.mem = t.mem) ∧
    ((∀ a, s.rdFlash a = t.rdFlash a) → s.flash = t.flash)

/-- A byte written to the frame store reads back, and only where it went. A write of a byte reaches its address, and the address of its
mirror where the region has one, unless the slot there has no pseudo-channel; every other address reads as before, and so does every
register. A fetch of the address then gives the byte, where the slot is in service and the unit is not known to be bad. -/
def Obligations.StoredByteReadsBack : Prop :=
  ∀ (s : State) (a v : Nat),
    (∀ c, c ≠ a → s.mirrorOf a ≠ some c → (s.fsWrite a v).rdMem c = s.rdMem c) ∧
    (∀ k, (s.fsWrite a v).rd k = s.rd k) ∧
    (s.deadAt a = false → s.mirrorOf a ≠ some a → (s.fsWrite a v).rdMem a = v % 256) ∧
    (s.deadAt a = true → s.mirrorOf a ≠ some a → (s.fsWrite a v).rdMem a = s.rdMem a) ∧
    (∀ m, s.mirrorOf a = some m → s.deadAt m = false → (s.fsWrite a v).rdMem m = v % 256) ∧
    (s.deadAt a = false → s.slotOut a = false → (s.vec H.eccBad).contains (a / 32) = false → s.mirrorOf a ≠ some a → (s.fsWrite a v).fsByte a = some (v % 256))

/-- Which commands leave the stores alone. 87 commands (keepsStores names them) change no byte of the frame store or of the flash, no
Latent value and no committed value; the commit machinery's (keepsBytes) change no byte and no Latent value; those that write the frame
store (writesMemory) change neither flash nor Latent nor committed values. -/
def Obligations.CommandsKeepStores : Prop :=
  ∀ (c : Instr) (s t : State), exec c s = .next t →
    (keepsStores c = true → StoresKept s t) ∧
    (keepsBytes c = true → (∀ a, t.rdMem a = s.rdMem a) ∧ (∀ a, t.rdFlash a = s.rdFlash a) ∧ t.lat = s.lat) ∧
    (writesMemory c = true → (∀ a, t.rdFlash a = s.rdFlash a) ∧ t.lat = s.lat ∧ t.com = s.com ∧ t.due = s.due)

/-- HELLO opens a session. A HELLO at a control port that is up, not yet answered, with 16 session records of which record i is the
first FREE one and a generation in both ranges: record i is OPEN in the highest such generation, with an ID no session carries, rights
VIEW if QCP.VIEW_OPEN else none, LAST_SEQ the request's, a new challenge and a new token; QCP.SESSIONS_OPEN counts, SESSION_OPEN is
raised, the answer goes back, from the address the request was sent to; nothing else changes. With all 16 records in use it is answered
BUSY, and with no common generation, or a header GEN below GEN_MIN (the model's choice, log 57), GENERATION; that answer is remembered
and nothing else happens. -/
def Obligations.HelloOpensSession : Prop :=
  ∀ (q : Req) (s : State), Door s q → q.port < 2 → LenOk q → 4 ≤ q.payload.length →
    (∀ e ∈ s.cache, ¬ (e.slot = 17 ∧ e.addr = q.addr ∧ e.udp = q.udp ∧ e.seq = q.seq ∧ s.now ≤ e.at' + s.replayTicks)) →
    (∀ g i : Nat, g = min (fld q.payload 0 1) (s.rd K.IDENT_GEN_MAX) → max (fld q.payload 1 1) (s.rd K.IDENT_GEN_MIN) ≤ g →
      fld q.payload 1 1 ≤ q.gen → i < 16 → s.rd (K.SESS_STATE i) = 0 → (∀ j < i, s.rd (K.SESS_STATE j) ≠ 0) →
      Ends (.hello q) s (fun t =>
        t.rd (K.SESS_STATE i) = 1 ∧ t.rd (K.SESS_GEN i) = g ∧ t.rd (K.SESS_RIGHTS i) = (if s.rd K.QCP_VIEW_OPEN = 1 then 0 else 0xFF) ∧
        t.rd (K.SESS_LAST_SEQ i) = q.seq % 2 ^ 32 ∧ t.rd (K.SESS_PORT i) = q.port ∧ t.rd (H.chalLive i) = 1 ∧
        t.rd (K.SESS_ID i) ≠ 0 ∧ (∀ j < 16, s.rd (K.SESS_ID j) ≠ t.rd (K.SESS_ID i)) ∧
        t.rd K.QCP_SESSIONS_OPEN = s.rd K.QCP_SESSIONS_OPEN + 1 ∧
        raisedOf t = raisedOf s ++ [(0x8001, 0x1110 + i, t.rd (K.SESS_ID i) % 2 ^ 32,
          (q.port * 65536 + g * 256 + t.rd (K.SESS_RIGHTS i)) % 2 ^ 32)] ∧
        RegsKept (arrivalKeys i ++ [K.SESS_STATE i, K.SESS_ID i, K.SESS_GEN i, K.SESS_RIGHTS i, H.fails i, K.QCP_SESSIONS_OPEN, H.chal i,
          H.chalLive i, H.token i]) s t ∧
        t.tx = s.tx ++ [⟨q.port, q.dst, q.addr, q.udp, g, 0x80, t.rd (K.SESS_ID i), q.seq, 1, 0,
          [g, t.rd (K.SESS_RIGHTS i), s.rd K.MGMT_ACTIVE, 0] ++ bytesBE 16 (t.rd (H.chal i)) ++ bytesBE 16 (t.rd (H.token i))⟩] ∧
        StoresKept s t ∧ t.subs = s.subs)) ∧
    (let answer (m : Msg) : Prop :=
       exec (.hello q) s = .next { s with tx := s.tx ++ [m], cache := ⟨17, q.addr, q.udp, q.seq, [m], s.now⟩ :: s.cache }
     (∀ g : Nat, g = min (fld q.payload 0 1) (s.rd K.IDENT_GEN_MAX) → max (fld q.payload 1 1) (s.rd K.IDENT_GEN_MIN) ≤ g →
       fld q.payload 1 1 ≤ q.gen → (∀ j < 16, s.rd (K.SESS_STATE j) ≠ 0) → answer ⟨q.port, q.dst, q.addr, q.udp, g, 0x80, 0, q.seq, 1, 5, []⟩) ∧
     (min (fld q.payload 0 1) (s.rd K.IDENT_GEN_MAX) < max (fld q.payload 1 1) (s.rd K.IDENT_GEN_MIN) ∨ q.gen < fld q.payload 1 1 →
       answer ⟨q.port, q.dst, q.addr, q.udp, q.gen, 0x80, 0, q.seq, 1, 8, [s.rd K.IDENT_GEN_MAX, s.rd K.IDENT_GEN_MIN]⟩))

/-- HELLO with RESUME needs the session's token. A HELLO with RESUME that names a session: with the right token, and a generation the
firmware still supports, the session is OPEN with its ID, rights, generation, LAST_SEQ, subscriptions, cached answers and notification
sequence as they were, with a new challenge and token, and SESSION_RESUME is raised if it was SUSPENDED; with the right token and a
generation outside the supported range GENERATION is answered and the session is closed with reason 4; with another token AUTH is
answered and nothing changes; where no session carries the ID, SESSION is answered and nothing changes. -/
def Obligations.ResumeNeedsToken : Prop :=
  ∀ (q : Req) (s : State), Door s q → q.port < 2 → LenOk q →
    (∀ i : Nat, s.findSess q = some i → 20 ≤ q.payload.length → fld q.payload 4 16 = s.rd (H.token i) → i < 16 →
      s.rd K.IDENT_GEN_MIN ≤ s.rd (K.SESS_GEN i) → s.rd (K.SESS_GEN i) ≤ s.rd K.IDENT_GEN_MAX →
      (s.rd (K.SESS_STATE i) = 1 ∨ s.rd (K.SESS_STATE i) = 2) →
      Ends (.helloResume q) s (fun t =>
        t.rd (K.SESS_STATE i) = 1 ∧ t.rd (H.chalLive i) = 1 ∧ t.rd (H.lastReq i) = s.now ∧
        RegsKept [K.SESS_STATE i, K.SESS_PORT i, H.lastReq i, H.sessMute i, H.warmPend, K.SESS_ADDR i, K.SESS_UDP i, H.sessOwn i, H.chal i,
          H.chalLive i, H.token i] s t ∧
        raisedOf t = raisedOf s ++ (if s.rd (K.SESS_STATE i) = 2
          then [(0x8005, 0x1110 + i, s.rd (K.SESS_ID i) % 2 ^ 32, s.rd (K.SESS_RIGHTS i) % 2 ^ 32)] else []) ∧
        t.tx = s.tx ++ [⟨q.port, q.dst, q.addr, q.udp, s.rd (K.SESS_GEN i), 0x80, q.session, q.seq, 1, 0,
          [s.rd (K.SESS_GEN i), s.rd (K.SESS_RIGHTS i), s.rd K.MGMT_ACTIVE, 0] ++ bytesBE 16 (t.rd (H.chal i))
            ++ bytesBE 16 (t.rd (H.token i))⟩] ∧
        t.subs = s.subs ∧ t.cache = s.cache ∧ t.notes = s.notes ∧ StoresKept s t)) ∧
    (∀ i : Nat, s.findSess q = some i → 20 ≤ q.payload.length → fld q.payload 4 16 = s.rd (H.token i) →
      (s.rd (K.SESS_GEN i) < s.rd K.IDENT_GEN_MIN ∨ s.rd K.IDENT_GEN_MAX < s.rd (K.SESS_GEN i)) →
      exec (.helloResume q) s = .next (({ s with tx := s.tx ++ [⟨q.port, q.dst, q.addr, q.udp, s.rd (K.SESS_GEN i), 0x80, q.session, q.seq, 1, 8,
        [s.rd K.IDENT_GEN_MAX, s.rd K.IDENT_GEN_MIN]⟩] } : State).sessClose i 4)) ∧
    (∀ i : Nat, s.findSess q = some i → 20 ≤ q.payload.length → fld q.payload 4 16 ≠ s.rd (H.token i) →
      exec (.helloResume q) s = .next { s with tx := s.tx ++ [⟨q.port, q.dst, q.addr, q.udp, s.rd (K.SESS_GEN i), 0x80, q.session, q.seq, 1, 0xC,
        []⟩] }) ∧
    (s.findSess q = none →
      exec (.helloResume q) s = .next { s with tx := s.tx ++ [⟨q.port, q.dst, q.addr, q.udp, q.gen, 0x80, q.session, q.seq, 1, 0xB, []⟩] })

/-- AUTH grants a level for the right proof only. An AUTH of an open network session with a live challenge: HMAC-SHA-256 under the
level's key over challenge, session and level gives the session that level; anything else counts a failure, raises AUTH_FAIL and answers
AUTH, and the QCP.AUTH_FAIL_LIMIT-th consecutive failure closes the session. Every answer carries a fresh challenge. On the SPI session
AUTH answers OK and changes no rights. -/
def Obligations.AuthGrantsRights : Prop :=
  ∀ (q : Req) (i : Nat) (s : State), Serves s q i → LenOk q → 36 ≤ q.payload.length →
    (i < 16 →
      let l := fld q.payload 0 1
      let key := s.rd (K.at' (0x1101 + l) 0)
      let n := s.rd (H.fails i) + 1
      let good := l ≤ 3 ∧ key ≠ 0 ∧ s.rd (H.chalLive i) = 1 ∧ (q.payload.drop 4).take 32 =
        hmac (bytesBE 32 key) (bytesBE 16 (s.rd (H.chal i)) ++ bytesBE 4 (s.rd (K.SESS_ID i)) ++ [l])
      let answer (st : Nat) (m : State) : State :=
        replied s q i 2 st ([m.rd (K.SESS_RIGHTS i), m.rd (H.fails i) % 256, 0, 0] ++ bytesBE 16 (m.rd (H.chal i))) m
      (good → exec (.auth q) s = .next (answer 0 (((arrived q i s).wrs [(K.SESS_RIGHTS i, l), (H.fails i, 0)]).newChal i))) ∧
      (¬ good →
        let m := (((arrived q i s).wr (H.fails i) n).raise 0x8003 (0x1110 + i) (s.rd (K.SESS_ID i)) (l * 256 + n)).newChal i
        exec (.auth q) s = .next (if s.rd K.QCP_AUTH_FAIL_LIMIT ≤ n then (answer 0xC m).sessClose i 3 else answer 0xC m))) ∧
    (i = 16 →
      let m := (arrived q i s).newChal i
      exec (.auth q) s = .next (replied s q i 2 0 ([m.rd (K.SESS_RIGHTS i), m.rd (H.fails i) % 256, 0, 0] ++ bytesBE 16 (m.rd (H.chal i))) m))

/-- PING tells the time; what BYE and a closed session leave. A PING of an open session is answered with the time of day, the active
management pair and the session's rights, and changes nothing but the session's bookkeeping. A BYE is answered OK, and then a network
session is closed with reason 0; the SPI session stays. A session that times out, or whose resume window elapses, is FREE with reason 1
or 2 in SESSION_CLOSE: its ID is 0, its token is invalid, its subscriptions, notifications, completions and cached answers are gone; the
Latent values it staged and the salvos it committed stay, and so do the other sessions. Before their time the commands change nothing. -/
def Obligations.SessionsAliveAndGone : Prop :=
  (∀ (q : Req) (i : Nat) (s : State), Serves s q i → LenOk q →
    exec (.ping q) s = .next (replied s q i 3 0 (bytesBE 10 s.todP ++ [s.rd K.MGMT_ACTIVE, s.rd (K.SESS_RIGHTS i)]) (arrived q i s)) ∧
    (i < 16 → exec (.bye q) s = .next ((replied s q i 4 0 [] (arrived q i s)).sessClose i 0)) ∧
    (i = 16 → exec (.bye q) s = .next (replied s q i 4 0 [] (arrived q i s)))) ∧
  (∀ (i : Fin 16) (s : State),
    let closes (c : Instr) (why : Nat) : Prop := Ends c s (fun t =>
      t.rd (K.SESS_STATE i.val) = 0 ∧ t.rd (K.SESS_ID i.val) = 0 ∧ t.rd (H.token i.val) = 0 ∧
      t.rd K.QCP_SESSIONS_OPEN = s.rd K.QCP_SESSIONS_OPEN - 1 ∧
      t.subs = s.subs.filter (fun b => b.slot != i.val) ∧ t.notes = s.notes.filter (fun b => b.slot != i.val) ∧
      t.done = s.done.filter (fun b => b.slot != i.val) ∧ t.cache = s.cache.filter (fun b => b.slot != i.val) ∧
      (∀ j < 17, j ≠ i.val → t.rd (K.SESS_STATE j) = s.rd (K.SESS_STATE j) ∧ t.rd (K.SESS_RIGHTS j) = s.rd (K.SESS_RIGHTS j)) ∧
      (∀ v < 64, t.rd (K.SLV_STATE v) = s.rd (K.SLV_STATE v)) ∧
      raisedOf t = raisedOf s ++ [(0x8002, 0x1110 + i.val, s.rd (K.SESS_ID i.val) % 2 ^ 32, why)] ∧ StoresKept s t)
    (s.rd (K.SESS_STATE i.val) = 1 → s.rd (H.lastReq i.val) + s.rd K.QCP_SESSION_TIMEOUT * 1000000 ≤ s.now → closes (.sessionTimeout i) 1) ∧
    (¬ (s.rd (K.SESS_STATE i.val) = 1 ∧ s.rd (H.lastReq i.val) + s.rd K.QCP_SESSION_TIMEOUT * 1000000 ≤ s.now) → Idles (.sessionTimeout i) s) ∧
    (s.rd (K.SESS_STATE i.val) = 2 → s.rd (H.suspAt i.val) + s.rd K.QCP_RESUME_WINDOW * 1000000 ≤ s.now →
      closes (.resumeWindowExpiry i) 2) ∧
    (¬ (s.rd (K.SESS_STATE i.val) = 2 ∧ s.rd (H.suspAt i.val) + s.rd K.QCP_RESUME_WINDOW * 1000000 ≤ s.now) →
      Idles (.resumeWindowExpiry i) s))

/-- A request is executed once. A request whose answer is still cached is answered from the cache, wherever it now comes from, and
executes nothing; one that is neither cached nor newer than LAST_SEQ is not answered and counts in QCP.STALE_SEQ. REPLAY_EXPIRY drops
the answers first sent longer than QCP.REPLAY_WINDOW ago and nothing else. Shown for a WRITE and a COMMIT. -/
def Obligations.ReplayAnswersOnce : Prop :=
  ∀ (q : Req) (x : List Int) (i : Nat) (s : State),
    (Heard s q i → LenOk q → ∀ c : Instr, (c = .write q x ∨ c = .commit q) →
      (∀ e : Cached, s.cached i q = some e →
        Ends c s (fun t => RegsKept (arrivalKeys i) s t ∧ t.rd (K.SESS_LAST_SEQ i) = s.rd (K.SESS_LAST_SEQ i) ∧ StoresKept s t ∧
          raisedOf t = raisedOf s ∧ t.cache = s.cache ∧
          (q.port < 2 → t.tx = s.tx ++ e.ans.map (fun m => { m with port := q.port, own := q.dst, addr := q.addr, udp := q.udp })))) ∧
      ((∀ e ∈ s.cache, ¬ (e.slot = i ∧ e.seq = q.seq ∧ s.now ≤ e.at' + s.replayTicks)) → newer q.seq (s.rd (K.SESS_LAST_SEQ i)) = false →
        Does c s [(K.QCP_STALE_SEQ, min (s.rd K.QCP_STALE_SEQ + 1) 0xFFFFFFFF)] [])) ∧
    exec .replayExpiry s = .next { s with cache := s.cache.filter (fun e => decide (s.now ≤ e.at' + s.replayTicks)) }

/-- Without a management pair nothing is answered or counted. While no management pair serves, every request of every kind leaves the
state as it was. -/
def Obligations.NobodyServes : Prop :=
  ∀ (q : Req) (x : List Int) (s : State), s.rd H.mgmtOn ≠ 1 →
    Idles (.hello q) s ∧ Idles (.helloResume q) s ∧ Idles (.auth q) s ∧ Idles (.ping q) s ∧ Idles (.bye q) s ∧ Idles (.read q) s ∧
    Idles (.write q x) s ∧ Idles (.blockRead q) s ∧ Idles (.blockWrite q x) s ∧ Idles (.commit q) s ∧ Idles (.commitAt q) s ∧
    Idles (.subscribe q) s ∧ Idles (.unsubscribe q) s ∧ Idles (.notifyAck q) s ∧ Idles (.cstGo q) s ∧ Idles (.warmReset q) s

/-- READ and BLOCK_READ return values and change nothing. A READ of an object the session may read is answered OK with the value in the
width of its type (the pending view of an RL object when LATENT is set, the default of a WO object), a READ of one it may not read
ACCESS, and of an address without an object NOT_PRESENT; the state changes only by the arrival and the answer. A BLOCK_READ of members
outside the window is answered with all of them end to end in as many datagrams as they need, or stops at the first it may not read. -/
def Obligations.ReadReturnsValue : Prop :=
  ∀ (q : Req) (i : Nat) (s : State), Serves s q i → LenOk q → 4 ≤ q.payload.length →
    let k := fld q.payload 0 3
    let a := arrived q i s
    let rights := s.rd (K.SESS_RIGHTS i)
    (∀ l : Loc, locate k = some l → k / 256 ≠ 0x6811 →
      (holds rights l.row.rd = true →
        exec (.read q) s = .next (replied s q i 0x10 0 (q.payload.take 4 ++ bytesBE l.row.ty.size (a.readVal l k (q.flags.testBit 0))) a)) ∧
      (holds rights l.row.rd = false → exec (.read q) s = .next (replied s q i 0x10 2 (q.payload.take 4) a))) ∧
    (locate k = none → exec (.read q) s = .next (replied s q i 0x10 (absent rights k) (q.payload.take 4) a)) ∧
    (∀ l : Loc, l.row.acc = .wo → a.readVal l k true = dflt k % 256 ^ l.row.ty.size) ∧
    (∀ (l : Loc) (v : Nat), l.row.acc = .rl → alGet s.lat k = some v → a.readVal l k true = v % 256 ^ l.row.ty.size) ∧
    (let index := fld q.payload 0 2
     let first := fld q.payload 2 1
     let last := fld q.payload 3 1
     let subs := (List.range (last + 1 - first)).map (fun m => first + m)
     index ≠ 0x6811 → first ≤ last →
      (∀ m : Nat, subs.find? (fun m => a.readStop rights (K.at' index m) != 0) = some m →
        exec (.blockRead q) s = .next (replied s q i 0x12 (a.readStop rights (K.at' index m)) (q.payload.take 4 ++ [m]) a)) ∧
      ((∀ m ∈ subs, a.readStop rights (K.at' index m) = 0) → 
        Ends (.blockRead q) s (fun t => RegsKept [] a t ∧ StoresKept s t ∧ raisedOf t = raisedOf s ∧
          (q.port < 2 → ∃ l : List Msg, t.tx = s.tx ++ l ∧ l ≠ [] ∧ (∀ m ∈ l, m.op = 0x12 ∧ m.status = 0 ∧ m.seq = q.seq) ∧
            l.flatMap (fun m => m.payload.drop 4) = subs.flatMap (fun m => match locate (K.at' index m) with
              | some o => bytesBE o.row.ty.size (a.readVal o (K.at' index m) (q.flags.testBit 0))
              | none => [])))))

/-- HELLO at the SPI target negotiates its generation. A HELLO at the SPI target, not yet answered and with a generation in both ranges,
with or without RESUME: its record takes the highest such generation and the request's SEQ, a new challenge and token; no session opens,
no rights change, no event is raised; the answer waits in the transmit queue. With no common generation, or a header GEN below GEN_MIN,
only an answer waits there. -/
def Obligations.SpiHelloNegotiates : Prop :=
  ∀ (q : Req) (s : State), Door s q → q.port = 2 → LenOk q → 4 ≤ q.payload.length →
    (∀ e ∈ s.cache, ¬ (e.slot = 16 ∧ e.seq = q.seq ∧ s.now ≤ e.at' + s.replayTicks)) →
    (∀ g : Nat, g = min (fld q.payload 0 1) (s.rd K.IDENT_GEN_MAX) → max (fld q.payload 1 1) (s.rd K.IDENT_GEN_MIN) ≤ g →
      fld q.payload 1 1 ≤ q.gen → ∀ c : Instr, (c = .hello q ∨ c = .helloResume q) →
      Ends c s (fun t =>
        t.rd (K.SESS_GEN 16) = g ∧ t.rd (K.SESS_LAST_SEQ 16) = q.seq % 2 ^ 32 ∧ t.rd (H.chalLive 16) = 1 ∧
        RegsKept (arrivalKeys 16 ++ [K.SESS_GEN 16, H.chal 16, H.chalLive 16, H.token 16]) s t ∧
        raisedOf t = raisedOf s ∧ StoresKept s t ∧ t.tx = s.tx ∧ t.subs = s.subs ∧ t.spiTx.length = s.spiTx.length + 1)) ∧
    (min (fld q.payload 0 1) (s.rd K.IDENT_GEN_MAX) < max (fld q.payload 1 1) (s.rd K.IDENT_GEN_MIN) ∨ q.gen < fld q.payload 1 1 →
      ∀ c : Instr, (c = .hello q ∨ c = .helloResume q) → Ends c s (fun t => RegsKept [] s t ∧ StoresKept s t ∧ raisedOf t = raisedOf s ∧
        t.spiTx.length = s.spiTx.length + 1))

/-- A datagram with a bad header is discarded. With another MAGIC, a LEN that is not the payload's or is above 1,400, or ANSWER set on a
request, a datagram a port receives at its own address and UDP port is not answered and not executed: nothing differs but the discard
counter of its port, which counts it, and MALFORMED, at most once a second (log 10). An acknowledgement of a NOTIFY carries ANSWER and
is discarded so only for the other reasons, or with a LEN that is not 0. -/
def Obligations.BadDatagramsAreDiscarded : Prop :=
  ∀ (q : Req) (x : List Int) (s : State), s.rd H.mgmtOn = 1 → s.rd H.recov ≠ 1 → q.port ≤ 2 →
    (q.port < 2 → s.rd (K.PD_STATE (3 + q.port)) = 3 ∧ s.rd (K.CTL_ENABLE q.port) = 1 ∧ q.dport = s.rd (K.CTL_QCP_PORT q.port) ∧
      s.ownAddr q.port q.dst = true) →
    let ill : Prop := q.magic ≠ 0x5A51 ∨ q.len ≠ q.payload.length ∨ 1400 < q.len
    ∀ c : Instr, (c ∈ [Instr.auth q, .ping q, .bye q, .read q, .write q x, .blockRead q, .blockWrite q x, .commit q, .commitAt q, .subscribe q,
        .unsubscribe q, .hello q, .helloResume q] ∧ (ill ∨ q.flags.testBit 7 = true) ∨ c = .notifyAck q ∧ (ill ∨ q.len ≠ 0)) →
    let k := if q.port = 2 then K.SPI_RX_DISCARD else K.CTL_RX_DISCARD q.port
    let src := if q.port = 2 then 0x1140 else 0x1130 + 8 * q.port
    let n := (s.rd (H.limCnt (3000 + q.port)) + 1) % 2 ^ 32
    let quiet := s.rd (H.limLast (3000 + q.port)) = 0 ∨ s.rd (H.limLast (3000 + q.port)) + 999999 ≤ s.now
    (quiet → Does c s [(k, min (s.rd k + 1) 0xFFFFFFFF), (H.limCnt (3000 + q.port), 0), (H.limLast (3000 + q.port), s.now + 1)]
      [(0x8008, src, q.port, n)]) ∧
    (¬ quiet → Does c s [(k, min (s.rd k + 1) 0xFFFFFFFF), (H.limCnt (3000 + q.port), n)] [])

/-- A WRITE is checked, then enters the Latent set or is answered why not. A WRITE by a served session: NOT_PRESENT for an address
without an object, ACCESS for one that is read-only or above the session's rights, TYPE for a value of another length, RANGE for one
outside the object's range, and then nothing has changed. A good value of an RL object enters its Latent set (a converter's PRESET 0 to
6 with the COEF, INOFF and OUTOFF it loads, any other object but a PRESET alone) and only that, CFG_SEQ counts, and the answer is OK;
one of a plain RW object of the bus arbiter or of a clock output is set. -/
def Obligations.WriteChecksInOrder : Prop :=
  ∀ (q : Req) (x : List Int) (i : Nat) (s : State), Serves s q i → LenOk q → 4 ≤ q.payload.length →
    let k := fld q.payload 0 3
    let rights := s.rd (K.SESS_RIGHTS i)
    let refused (st : Nat) : Prop := exec (.write q x) s = .next (replied s q i 0x11 st (q.payload.take 4) (arrived q i s))
    (locate k = none → refused (absent rights k)) ∧
    (∀ l : Loc, locate k = some l →
      ((l.row.acc = .ro ∨ holds rights l.row.wr = false) → refused 2) ∧
      (l.row.acc ≠ .ro → holds rights l.row.wr = true → l.row.ty.take (q.payload.drop 4) = none → refused 3) ∧
      (∀ v : Nat, l.row.acc ≠ .ro → holds rights l.row.wr = true → l.row.ty.take (q.payload.drop 4) = some v →
        (l.admits k v = false → refused 4) ∧
        (l.row.acc = .rl → l.admits k v = true → (arrived q i s).pairOk l v = true →
          exec (.write q x) s = .next (replied s q i 0x11 0 (q.payload.take 4) (((arrived q i s).stage l k v).inc K.IDENT_CFG_SEQ 1 (2 ^ 64)))) ∧
        (l.row.acc = .rl → ¬ (l.kind = .out ∧ l.off = 3 ∧ l.sub = 2) → ¬ (l.kind = .lay ∧ l.off = 3 ∧ l.sub = 1) →
          (arrived q i s).stage l k v = (arrived q i s).latPut k v) ∧
        (l.kind = .out → l.off = 3 → l.sub = 2 → v < 7 →
          let t := (arrived q i s).stage l k v
          (∀ j < 9, alGet t.lat (K.OUT_CONV_COEF l.i j) = some (ofInt 16 ((convPreset v).1.getD j 0))) ∧
          (∀ j < 3, alGet t.lat (K.OUT_CONV_INOFF l.i j) = some (ofInt 16 ((convPreset v).2.1.getD j 0)) ∧
            alGet t.lat (K.OUT_CONV_OUTOFF l.i j) = some (ofInt 16 ((convPreset v).2.2.getD j 0))) ∧ t = { s with reg := t.reg, lat := t.lat }) ∧
        (l.row.acc = .rw → (l.kind = .prio ∨ l.kind = .clko) → l.admits k v = true →
          exec (.write q x) s = .next (replied s q i 0x11 0 (q.payload.take 4) (((arrived q i s).wr k v).inc K.IDENT_CFG_SEQ 1 (2 ^ 64))))))

/-- A BLOCK_WRITE changes all members or none. A BLOCK_WRITE that is not answered OK or TIMEOUT leaves every register but those its
arrival changes, the Latent sets, the committed stage and the stores as they were. Where all members are RL objects without a partner
limit, in range and within rights, and the payload holds exactly their values, all values enter the Latent sets in subindex order, each
as a WRITE of it would, CFG_SEQ counts once (the model's choice, log 55) and the answer is OK. -/
def Obligations.BlockWriteIsAllOrNothing : Prop :=
  ∀ (q : Req) (x : List Int) (i : Nat) (s : State), Serves s q i → LenOk q → 4 ≤ q.payload.length →
    let index := fld q.payload 0 2
    let first := fld q.payload 2 1
    let last := fld q.payload 3 1
    let rights := s.rd (K.SESS_RIGHTS i)
    let a := (arrived q i s).writeBlock rights index first last (q.payload.drop 4) ⟨q.port, i, x⟩
    (last < first → exec (.blockWrite q x) s = .next (replied s q i 0x13 4 (q.payload.take 4 ++ [first, 0, 0, 0]) (arrived q i s))) ∧
    (a.st ≠ 0 → a.st ≠ 9 → Ends (.blockWrite q x) s (fun t => RegsKept [] (arrived q i s) t ∧ StoresKept s t ∧
      (∃ l, t.raised = s.raised ++ l) ∧ (∀ k, t.vec k = s.vec k) ∧ t.subs = s.subs ∧ t.notes = s.notes)) ∧
    (∀ l : List (Loc × Nat), first + l.length = last + 1 → l ≠ [] →
      (∀ j : Nat, ∀ p : Loc × Nat, l[j]? = some p → locate (K.at' index (first + j)) = some p.1 ∧ p.1.row.acc = .rl ∧ holds rights p.1.row.wr = true ∧
        paired p.1 = false ∧ p.2 < 256 ^ p.1.row.ty.size ∧ p.1.admits (K.at' index (first + j)) p.2 = true ∧
        (arrived q i s).pairOk p.1 p.2 = true) →
      q.payload.drop 4 = l.flatMap (fun p => bytesBE p.1.row.ty.size p.2) →
      exec (.blockWrite q x) s = .next (replied s q i 0x13 0 (q.payload.take 4)
        (((List.range l.length).zip l).foldl (fun (t : State) p => t.stage p.2.1 (K.at' index (first + p.1)) p.2.2) (arrived q i s)
          |>.inc K.IDENT_CFG_SEQ 1 (2 ^ 64))))

/-- COMMIT and COMMIT_AT are taken whole or refused. Without OPERATE the answer is ACCESS, with a bad salvo, mask or T RANGE, with the
salvo ARMED, SCHEDULED or DEVELOPING BUSY with its state, and nothing changes. Otherwise admission judges: a refusal is recorded in
SLV[v], the refusal log and COMMIT.REFUSED, raises SALVO_REFUSED and leaves the Latent sets and the committed state alone; an admitted
commit is taken (CommitMovesLatent says what that does) and answered OK with its predictions, as every request is before a warm reset it
might have asked for. -/
def Obligations.CommitIsTakenOrRefused : Prop :=
  ∀ (q : Req) (i : Nat) (s : State), Serves s q i → LenOk q → ∀ (c : Instr) (T : Option Nat) (op mask : Nat),
    (c = .commit q ∧ op = 0x20 ∧ T = none ∧ mask = fld q.payload 4 216 ∧ 220 ≤ q.payload.length ∨
      c = .commitAt q ∧ op = 0x21 ∧ T = some (fld q.payload 4 10) ∧ mask = fld q.payload 16 216 ∧ 232 ≤ q.payload.length) →
    let v := fld q.payload 0 1
    let a := arrived q i s
    let badT : Prop := ∃ p, T = some p ∧ (1000000000 ≤ p % 2 ^ 32 ∨ a.horizon < ofPtime p)
    let bad : Prop := 63 < v ∨ maskBad mask = true ∨ badT
    let st := s.rd (K.SLV_STATE v)
    let w := (a.askCommit mask).judge (s.rd K.COMMIT_NEXT_SEQ)
    (holds (s.rd (K.SESS_RIGHTS i)) 1 = false → exec c s = .next (replied s q i op 2 (v :: List.replicate 15 0) a)) ∧
    (holds (s.rd (K.SESS_RIGHTS i)) 1 = true →
      (bad → exec c s = .next (replied s q i op 4 (v :: List.replicate 15 0) a)) ∧
      (¬ bad → (st = 1 ∨ st = 2 ∨ st = 3) → exec c s = .next (replied s q i op 5 (v :: List.replicate 11 0 ++ [st, 0, 0, 0]) a)) ∧
      (¬ bad → ¬ (st = 1 ∨ st = 2 ∨ st = 3) →
        (∀ r : Refuse, w.refused = some r → Ends c s (fun t =>
          t.rd (K.SLV_STATE v) = 5 ∧ t.rd (K.SLV_UNITS v) = mask ∧ t.rd (K.SLV_SEQ v) = 0 ∧ t.rd (K.SLV_REASON v) = r.reason ∧
          t.rd (K.SLV_REFUSER v) = unitIdx r.unit ∧ t.rd (K.SLV_HOLDER v) = r.holder ∧
          t.rd K.COMMIT_REFUSED = (s.rd K.COMMIT_REFUSED + 1) % 2 ^ 32 ∧ t.rd K.REFLOG_HEAD = (s.rd K.REFLOG_HEAD + 1) % 2 ^ 32 ∧
          raisedOf t = raisedOf s ++ [(0x800D, 0x1440 + v, (r.reason * 65536 + unitIdx r.unit) % 2 ^ 32, r.holder % 2 ^ 32)] ∧
          StoresKept s t ∧
          RegsKept (arrivalKeys i ++ [K.SLV_STATE v, K.SLV_UNITS v, K.SLV_SEQ v, K.SLV_REASON v, K.SLV_REFUSER v, K.SLV_HOLDER v, K.SLV_AT v,
            K.SLV_FLAGS v, K.SLV_DEV_COUNT v, K.SLV_SUPERSEDED_COUNT v, K.SLV_COMPLETE_TIME v, K.SLV_CANCEL v, H.slvSess v, K.COMMIT_REFUSED,
            K.REFLOG_HEAD, K.REFLOG_ENTRY (s.rd K.REFLOG_HEAD % 32)]) s t)) ∧
        (w.refused = none →
          let d := a.commitTake v mask T i w
          exec c s = .next (replied s q i op 0 ([v, d.s.rd (K.SLV_REASON v)] ++ bytesBE 2 (d.s.rd (K.SLV_REFUSER v)) ++
            bytesBE 4 (d.s.rd (K.SLV_HOLDER v)) ++ bytesBE 4 (d.s.rd (K.SLV_SEQ v)) ++ [d.s.rd (K.SLV_STATE v), d.preds.length, 0, 0] ++
            d.preds.flatMap (fun p => [p.1, 0] ++ bytesBE 8 p.2)) d.s).afterAnswer)))

/-- An admitted commit empties the Latent sets of its units. Taking a commit leaves exactly the Latent entries of the other units and
changes no byte of a store; the entries of its units are in the committed stage under the grant number as it is entered, each once, with
every other object's entry as before. -/
def Obligations.CommitMovesLatent : Prop :=
  ∀ (s : State) (v mask slot : Nat) (T : Option Nat) (w : Verdict),
    let of (p : Nat × Nat) : Bool := match keyUnit (fun k => (alGet s.lat k).getD (s.nextRd k)) p.1 with
      | some u => (maskUnits mask).contains u
      | none => false
    let t := (s.commitTake v mask T slot w).s
    t.lat = s.lat.filter (fun p => !((s.lat.filter of).contains p)) ∧
    (∀ p ∈ t.lat, of p = false ∧ p ∈ s.lat) ∧ (∀ p ∈ s.lat, of p = false → p ∈ t.lat) ∧
    t.pending = s.pending ∧ (∀ a, t.rdMem a = s.rdMem a) ∧ (∀ a, t.rdFlash a = s.rdFlash a) ∧
    (∀ (l : List (Nat × Nat)) (seq : Nat),
      (∀ p ∈ l, (⟨p.1, p.2, v, seq⟩ : Com) ∈ (s.enterCom l v seq).com) ∧
      (∀ e ∈ s.com, (∀ p ∈ l, p.1 ≠ e.key) → e ∈ (s.enterCom l v seq).com) ∧
      (∀ e ∈ (s.enterCom l v seq).com, e ∈ s.com ∧ (∀ p ∈ l, p.1 ≠ e.key) ∨ ∃ p ∈ l, e = ⟨p.1, p.2, v, seq⟩))

/-- SUBSCRIBE and UNSUBSCRIBE. SUBSCRIBE: GENERATION for KIND 1 below generation 3, ACCESS without VIEW, RANGE for another KIND, for
KIND 0 with an interval above 60 s, a reversed range or WIN.DATA, the status of the first member that may not be read, BUSY beyond 32 of
the session or 256 in all; nothing then changes. Otherwise the session holds one more subscription under the lowest handle it does not
use, with the values the members have now, and both counts rise. UNSUBSCRIBE drops the handle, or with 0xFFFF all of the session's, and
answers RANGE for a handle it does not hold. -/
def Obligations.SubscribeAddsAWatch : Prop :=
  ∀ (q : Req) (i : Nat) (s : State), Serves s q i → LenOk q →
    let p := q.payload
    let a := arrived q i s
    let rights := s.rd (K.SESS_RIGHTS i)
    let kind := fld p 0 1
    let no (st : Nat) : Prop := exec (.subscribe q) s = .next (replied s q i 0x30 st [] a)
    (6 ≤ p.length → (kind = 0 → 8 ≤ p.length) →
      (kind = 1 → s.rd (K.SESS_GEN i) < 3 → no 8) ∧
      (¬ (kind = 1 ∧ s.rd (K.SESS_GEN i) < 3) → rights = 0xFF → no 2) ∧
      (¬ (kind = 1 ∧ s.rd (K.SESS_GEN i) < 3) → rights ≠ 0xFF →
        (1 < kind ∨ kind = 0 ∧ (60000 < fld p 2 2 ∨ fld p 7 1 < fld p 6 1 ∨ fld p 4 2 = 0x6811) → no 4) ∧
        (¬ (1 < kind ∨ kind = 0 ∧ (60000 < fld p 2 2 ∨ fld p 7 1 < fld p 6 1 ∨ fld p 4 2 = 0x6811)) →
          let stops := ((List.range (fld p 7 1 + 1 - fld p 6 1)).map (fun j => a.readStop rights (K.at' (fld p 4 2) (fld p 6 1 + j))))
          let mine := s.subs.filter (fun b => b.slot == i)
          (∀ st : Nat, kind = 0 → stops.find? (· != 0) = some st → no st) ∧
          ((kind = 1 ∨ ∀ st ∈ stops, st = 0) → (32 ≤ mine.length ∨ 256 ≤ s.subs.length) → no 5) ∧
          ((kind = 1 ∨ ∀ st ∈ stops, st = 0) → mine.length < 32 → s.subs.length < 256 →
            ∀ h : Nat, 1 ≤ h → (∀ b ∈ mine, b.handle ≠ h) → (∀ j : Nat, 1 ≤ j → j < h → ∃ b ∈ mine, b.handle = j) →
            Ends (.subscribe q) s (fun t => RegsKept (arrivalKeys i ++ [K.NOTIF_SUBS_IN_USE, K.SESS_SUBS i]) s t ∧
              t.rd K.NOTIF_SUBS_IN_USE = s.rd K.NOTIF_SUBS_IN_USE + 1 ∧ t.rd (K.SESS_SUBS i) = s.rd (K.SESS_SUBS i) + 1 ∧ StoresKept s t ∧
              ∃ b : Sub, t.subs = s.subs ++ [b] ∧ b.slot = i ∧ b.handle = h ∧ b.kind = kind ∧ b.minInt = fld p 2 2 ∧
                (kind = 0 → b.index = fld p 4 2 ∧ b.first = fld p 6 1 ∧ b.last = fld p 7 1 ∧
                  b.seen = a.watch (fld p 4 2) (fld p 6 1) (fld p 7 1)) ∧
                (kind = 1 → b.classes = fld p 4 2)))))) ∧
    (2 ≤ p.length →
      let gone (b : Sub) : Bool := b.slot == i && (fld p 0 2 == 0xFFFF || b.handle == fld p 0 2)
      (s.subs.filter gone = [] → fld p 0 2 ≠ 0xFFFF → exec (.unsubscribe q) s = .next (replied s q i 0x31 4 [] a)) ∧
      ((s.subs.filter gone ≠ [] ∨ fld p 0 2 = 0xFFFF) →
        Ends (.unsubscribe q) s (fun t => RegsKept (arrivalKeys i ++ [K.NOTIF_SUBS_IN_USE, K.SESS_SUBS i]) s t ∧
          t.rd K.NOTIF_SUBS_IN_USE = s.rd K.NOTIF_SUBS_IN_USE - (s.subs.filter gone).length ∧
          t.rd (K.SESS_SUBS i) = s.rd (K.SESS_SUBS i) - (s.subs.filter gone).length ∧ StoresKept s t ∧
          t.subs = s.subs.filter (fun b => !gone b))))

/-- NOTIFY reports what changed, is acknowledged, and is resent. A NOTIFY of a session that receives: of a KIND 1 handle up to 43
waiting events in order, of a KIND 0 handle the members that changed, of handle 0 the outcome of a salvo the session committed. Each
takes the next number; with 64 queued it is lost and reported. Of a KIND 0 handle nothing is sent before MIN_INTERVAL or without a
change. An acknowledgement removes the NOTIFY it names; after 20 ms without one the NOTIFY is sent again unchanged, after three repeats
it is given up with NOTIFY_LOST. -/
def Obligations.NotifyReportsChanges : Prop :=
  ∀ (i : Fin 16) (s : State), s.rd H.mgmtOn = 1 → s.rd (K.SESS_STATE i.val) = 1 → s.rd (H.sessMute i.val) = 0 → s.rd (K.SESS_PORT i.val) < 2 →
    s.rd (K.PD_STATE (3 + s.rd (K.SESS_PORT i.val))) = 3 → s.rd (K.CTL_ENABLE (s.rd (K.SESS_PORT i.val))) = 1 →
    let seq := (s.rd (K.SESS_NOTIFY_SEQ i.val) + 1) % 2 ^ 32
    let msg (st n flags : Nat) (p : List Nat) : Msg := ⟨s.rd (K.SESS_PORT i.val), s.rd (H.sessOwn i.val), s.rd (K.SESS_ADDR i.val), s.rd (K.SESS_UDP i.val),
      s.rd (K.SESS_GEN i.val), flags, s.rd (K.SESS_ID i.val), n, 0x32, st, p⟩
    (∀ (h : Nat) (b : Sub), h ≠ 0 → s.subs.find? (fun b => b.slot == i.val && b.handle == h) = some b → b.kind = 1 → b.evs ≠ [] →
      (s.queued i.val < 64 → Ends (.notify (i.castLE (by decide)) h) s (fun t =>
        t.tx = s.tx ++ [msg 0 seq (if b.ack then 4 else 0)
          (bytesBE 2 h ++ [(b.evs.take 43).length, 0] ++ (b.evs.take 43).flatMap (bytesBE 32))] ∧
        t.rd (K.SESS_NOTIFY_SEQ i.val) = seq ∧ RegsKept [K.SESS_NOTIFY_SEQ i.val] s t ∧ raisedOf t = raisedOf s ∧ StoresKept s t ∧
        t.notes.length = s.notes.length + (if b.ack then 1 else 0))) ∧
      (64 ≤ s.queued i.val → Ends (.notify (i.castLE (by decide)) h) s (fun t => t.tx = s.tx ∧ t.notes = s.notes ∧
        t.rd (K.SESS_NOTIFY_SEQ i.val) = seq ∧ t.rd K.NOTIF_LOST = min (s.rd K.NOTIF_LOST + 1) 0xFFFFFFFF ∧
        raisedOf t = raisedOf s ++ [(0x8006, 0x1110 + i.val, s.rd (K.SESS_ID i.val) % 2 ^ 32, seq)]))) ∧
    (∀ (h : Nat) (b : Sub), h ≠ 0 → s.subs.find? (fun b => b.slot == i.val && b.handle == h) = some b → b.kind = 0 →
      (b.lastAt ≠ 0 ∧ s.now + 1 < b.lastAt + b.minInt * 1000 ∨ (s.items b).2.1 = 0) → Idles (.notify (i.castLE (by decide)) h) s) ∧
    (∀ (h : Nat) (b : Sub), h ≠ 0 → s.subs.find? (fun b => b.slot == i.val && b.handle == h) = some b → b.kind = 0 →
      ¬ (b.lastAt ≠ 0 ∧ s.now + 1 < b.lastAt + b.minInt * 1000) → (s.items b).2.1 ≠ 0 → s.queued i.val < 64 →
      Ends (.notify (i.castLE (by decide)) h) s (fun t =>
        t.tx = s.tx ++ [msg 0 seq (if b.ack then 4 else 0) (bytesBE 2 h ++ [(s.items b).2.1, 0] ++ (s.items b).1)] ∧
        t.subs = s.subs.map (fun c => if c.slot = b.slot ∧ c.handle = b.handle then { b with seen := (s.items b).2.2, lastAt := s.now + 1 } else c))) ∧
    (∀ d : Done, s.done.find? (fun d => d.slot == i.val) = some d → s.queued i.val < 64 →
      Ends (.notify (i.castLE (by decide)) 0) s (fun t => t.done = s.done.erase d ∧ t.rd (K.SESS_NOTIFY_SEQ i.val) = seq ∧
        t.tx = s.tx ++ [msg d.status seq (if s.rd (K.SESS_GEN i.val) = 3 then 4 else 0)
          ([0, 0, 1, 0] ++ bytesBE 2 (0x1440 + d.salvo) ++ [1, 1, d.state])])) ∧
    (∀ q : Req, Door s q → q.payload = [] → q.len = 0 → s.findSess q = some i.val →
      exec (.notifyAck q) s = .next { s with notes := s.notes.filter (fun n => n.slot != i.val || n.seq != q.seq) }) ∧
    (∀ (n : Nat) (m : Note), s.notes.find? (fun m => m.slot == i.val && m.seq == n) = some m →
      (s.now < m.at' + 20000 → Idles (.notifyRetry (i.castLE (by decide)) n) s) ∧
      (m.at' + 20000 ≤ s.now → m.tries < 3 → Ends (.notifyRetry (i.castLE (by decide)) n) s (fun t =>
        t.tx = s.tx ++ [msg m.status m.seq (if m.ack then 4 else 0) m.payload] ∧
        t.notes = s.notes.map (fun c => if c = m then { m with at' := s.now, tries := m.tries + 1 } else c) ∧ RegsKept [] s t)) ∧
      (m.at' + 20000 ≤ s.now → 3 ≤ m.tries → Ends (.notifyRetry (i.castLE (by decide)) n) s (fun t =>
        t.tx = s.tx ∧ t.notes = s.notes.erase m ∧ raisedOf t = raisedOf s ++ [(0x8006, 0x1110 + i.val, s.rd (K.SESS_ID i.val) % 2 ^ 32, n % 2 ^ 32)])))

/-- The SPI target's transactions. STATUS returns the status byte and clears its error bits. A WRITE_MSG too short for its LEN, with a
LEN outside 16 to 1,416 or with a wrong CRC executes nothing, sets FRAME_ERR or CRC_ERR and raises SPI_CRC; without a management pair a
good one sets OVERRUN; a good one is the message its bytes spell. READ_MSG returns LEN, the oldest waiting message and their CRC, zeros
for the length where none waits, and drops the message once its last byte is out. An unknown command returns zeros for the bytes clocked
after it and sets FRAME_ERR. -/
def Obligations.SpiTransactions : Prop :=
  ∀ (l : List Nat) (x : List Int) (n : Nat) (s : State),
    let len := fld l 0 2
    let head := bytesBE 2 (s.spiTx.headD []).length ++ s.spiTx.headD []
    let out := head ++ bytesBE 2 (crc16 head)
    let short : Prop := l.length < 2 ∨ len < 16 ∨ 1416 < len ∨ l.length < len + 4
    let fails (c : Instr) (zeros bit : Nat) (ev : List (Nat × Nat × Nat × Nat)) : Prop := Ends c s (fun t =>
      t.spiOut = List.replicate zeros 0 ∧ t.rd H.spiErr = s.rd H.spiErr ||| 2 ^ bit ∧ RegsKept [H.spiErr] s t ∧ raisedOf t = raisedOf s ++ ev ∧ StoresKept s t ∧
      t.spiTx = s.spiTx ∧ t.tx = s.tx)
    (Ends .spiStatus s (fun t => t.spiOut = [(if s.rd H.mgmtOn = 1 then 1 else 0) + (if s.spiTx = [] then 0 else 2) + s.rd H.spiErr] ∧
      t.rd H.spiErr = 0 ∧ RegsKept [H.spiErr] s t ∧ raisedOf t = raisedOf s ∧ t.spiTx = s.spiTx ∧ StoresKept s t)) ∧
    (short → fails (.spiWriteMsg l x) 0 4 [(0x800A, 0x1140, 0, 1)]) ∧
    (¬ short → crc16 (l.take (len + 2)) ≠ fld l (len + 2) 2 → fails (.spiWriteMsg l x) 0 2 [(0x800A, 0x1140, 1, 0)]) ∧
    (¬ short → crc16 (l.take (len + 2)) = fld l (len + 2) 2 → s.rd H.mgmtOn ≠ 1 → fails (.spiWriteMsg l x) 0 3 []) ∧
    (¬ short → crc16 (l.take (len + 2)) = fld l (len + 2) 2 → s.rd H.mgmtOn = 1 → fld l 14 1 = 3 →
      exec (.spiWriteMsg l x) s = exec (.ping ⟨2, 0, 0, 0, 0, fld l 2 2, fld l 4 1, fld l 5 1, fld l 6 4, fld l 10 4, fld l 15 1, fld l 16 2,
        ((l.drop 2).take len).drop 16⟩) { s with spiOut := [] }) ∧
    Ends (.spiReadMsg n) s (fun t => t.spiOut = out.take n ∧ t.spiTx = (if out.length ≤ n then s.spiTx.drop 1 else s.spiTx) ∧ RegsKept [] s t ∧
      raisedOf t = raisedOf s ∧ StoresKept s t) ∧
    fails .spiBadCommand s.free 4 [(0x800A, 0x1140, 0, 1)]

/-- A reference candidate appears, waits, qualifies and goes. An ABSENT candidate whose domain is READY and whose signal is known
becomes QUALIFYING for QUAL_TIME the first time, WTR for the longer of QUAL_TIME and WTR after that, with its format and nominal rate; a
present one whose signal is found with another format or rate is lost and detected anew, and one found as it is stays. QUAL_TIME_EXPIRY
and WTR_EXPIRY make it QUALIFIED when its timer has run out with the candidate within its limits and no measurement of the tick takes it
out of them; REF_LOSS_OF_SIGNAL makes it ABSENT and clears what it reports once its signal is gone and no phase event of the tick is
waiting (arrivals come before expiries). Each move raises REF_STATE. Otherwise the commands change nothing. REF_MEASUREMENT gives every
present candidate that has one its OFFSET; one beyond its HARD limit is DISQUALIFIED; any other keeps its OFFSET and STATE. -/
def Obligations.CandidatesAppearAndGo : Prop :=
  ∀ (k : Fin 54) (s : State),
    let n := k.val
    let st := K.REF_STATE n
    let src := refIdx n
    let known (code num : Nat) : Prop := refType n = 3 ∧ 1 ≤ code ∧ code ≤ 3 ∨ refType n = 4 ∨ refType n = 1 ∧ 1 ≤ code ∧ code ≤ 5 ∧ 0 < num ∨
      refType n = 2 ∧ s.rd (K.REF_PTP_PORT_STATE n) = 3 ∨
      refType n = 0 ∧ s.rd (K.IN_STAT_STATE n) = 4 ∧ 1 ≤ s.rd (K.IN_STAT_FORMAT n) ∧ s.rd (K.IN_STAT_FORMAT n) ≤ 35
    let gone : Prop := if n < 48 then s.rd (K.IN_STAT_STATE n) ≠ 4
      else (refType n = 2 ∧ s.rd (K.REF_PTP_PORT_STATE n) ≠ 3) ∨ s.rd (H.refLoss n) ≤ s.now ∧ s.arrives (phaseOf n) = false
    let what (code lines num den : Nat) : List (Nat × Nat) :=
      match refType n with
      | 1 => [(K.REF_NOM_NUM n, num), (K.REF_NOM_DEN n, den), (K.REF_SYNC_FORMAT n, code), (K.REF_SYNC_LINES n, lines)]
      | 2 => [(K.REF_NOM_NUM n, 2 ^ (-(toInt 8 (s.rd (K.REF_PTP_SYNC_LOG n)))).toNat), (K.REF_NOM_DEN n, 1)]
      | 3 => [(K.REF_NOM_NUM n, 1000000), (K.REF_NOM_DEN n, 1), (K.REF_FREQ n, code)]
      | 4 => [(K.REF_NOM_NUM n, 48000), (K.REF_NOM_DEN n, 1)]
      | _ => match fmt (s.rd (K.IN_STAT_FORMAT n)) with
        | some f => [(K.REF_NOM_NUM n, rateNum f.rate * f.lines), (K.REF_NOM_DEN n, rateDen f.rate)]
        | none => []
    let wait := max (s.rd (K.REF_QUAL_TIME n)) (s.rd (K.REF_WTR n))
    let found : List (Nat × Nat × Nat × Nat) :=
      if s.rd (H.refQual n) = 0 then [(0x1001, src, n, 1)] else [(0x1001, src, n, 3), (0x1004, src, n, wait % 2 ^ 32)]
    (∀ code lines num den : Nat, s.pdReady (refPd n) = true → known code num →
      (s.rd st = 0 → s.rd (H.refQual n) = 0 → Changes (.refSignalDetected k code lines num den) s
        ((st, 1) :: (H.refTimer n, s.now + s.rd (K.REF_QUAL_TIME n) * 1000000) :: what code lines num den) [H.refLoss n] found) ∧
      (s.rd st = 0 → s.rd (H.refQual n) ≠ 0 → Changes (.refSignalDetected k code lines num den) s
        ((st, 3) :: (H.refTimer n, s.now + wait * 1000000) :: what code lines num den) [H.refLoss n] found) ∧
      (s.rd st ≠ 0 → (∀ p ∈ what code lines num den, s.rd p.1 = p.2) → Idles (.refSignalDetected k code lines num den) s) ∧
      (s.rd st ≠ 0 → ¬ (∀ p ∈ what code lines num den, s.rd p.1 = p.2) → Ends (.refSignalDetected k code lines num den) s (fun t =>
        t.rd st = (if s.rd (H.refQual n) = 0 then 1 else 3) ∧ t.rd (K.REF_OFFSET n) = 0 ∧ t.rd (K.REF_DRIFT n) = 0 ∧
        (∀ p ∈ what code lines num den, t.rd p.1 = p.2) ∧
        raisedOf t = raisedOf s ++ (0x1001, src, n, s.rd st * 256 % 2 ^ 32) :: found ∧ StoresKept s t))) ∧
    (∀ code lines num den : Nat, s.pdReady (refPd n) = false ∨ ¬ known code num → Idles (.refSignalDetected k code lines num den) s) ∧
    (s.rd st ≠ 0 → gone → Changes (.refLossOfSignal k) s
      [(st, 0), (K.REF_NOM_NUM n, 0), (K.REF_NOM_DEN n, 1), (K.REF_OFFSET n, 0), (K.REF_DRIFT n, 0), (H.refLoss n, 0)]
      [H.refLeft n, K.REF_SYNC_FORMAT n, K.REF_SYNC_LINES n, K.REF_FREQ n, K.SEL_STATUS 0, K.SEL_STATUS 1]
      [(0x1001, src, n, s.rd st * 256 % 2 ^ 32)]) ∧
    (s.rd st = 0 ∨ ¬ gone → Idles (.refLossOfSignal k) s) ∧
    (s.rd st = 1 → s.rd (H.refTimer n) ≤ s.now → s.within n = true → s.arrives (s.breaks n) = false →
      Does (.qualTimeExpiry k) s [(st, 2), (H.refQual n, 1)] [(0x1001, src, n, 0x102)]) ∧
    (s.rd st ≠ 1 ∨ s.now < s.rd (H.refTimer n) ∨ s.within n = false ∨ s.arrives (s.breaks n) = true → Idles (.qualTimeExpiry k) s) ∧
    (s.rd st = 3 → s.rd (H.refTimer n) ≤ s.now → s.within n = true → s.arrives (s.breaks n) = false →
      Does (.wtrExpiry k) s [(st, 2), (H.refQual n, 1)] [(0x1001, src, n, 0x302)]) ∧
    (s.rd st ≠ 3 ∨ s.now < s.rd (H.refTimer n) ∨ s.within n = false ∨ s.arrives (s.breaks n) = true → Idles (.wtrExpiry k) s) ∧
    (∀ offs : List Int, Ends (.refMeasurement offs) s (fun t => StoresKept s t ∧
      (∀ o : Int, s.rd st ≠ 0 → offs[n]? = some o → t.rd (K.REF_OFFSET n) = ofInt 32 o ∧
        (-2147483648 ≤ o → o ≤ 2147483647 → s.rd (K.REF_HARD n) < o.natAbs → t.rd st = 4)) ∧
      (s.rd st = 0 ∨ offs[n]? = none → t.rd (K.REF_OFFSET n) = s.rd (K.REF_OFFSET n) ∧ t.rd st = s.rd st)))

/-- A selector follows its MODE. SELECTOR_EVALUATION: in MODE AUTO ACTIVE is afterwards a QUALIFIED candidate of non-zero rank, the best
one when REVERTIVE is set, or 255 when there is none; in MODE FORCED without a QUALIFIED FORCE_K the selector enters holdover; in the
other modes nothing but bit 2 of STATUS changes. In every MODE bit 2 of STATUS says afterwards that no candidate is qualified. A written
MODE acts at once: HOLDOVER holds, FREE_RUN runs free with an NCO of 0, OPEN_LOOP holds with the NCO as it is, AUTO and FORCED are
evaluated. -/
def Obligations.SelectorsFollowTheirMode : Prop :=
  ∀ (j : Fin 2) (s : State),
    let m := s.rd (K.SEL_MODE j.val)
    let good (k : Nat) : Prop := k < 54 ∧ s.rd (K.REF_STATE k) = 2 ∧ s.rank j.val k ≠ 0
    (∀ d : Int,
      (2 ≤ m → Changes (.selectorEvaluation j d) s [] [K.SEL_STATUS j.val] []) ∧
      Ends (.selectorEvaluation j d) s (fun t => (t.rd (K.SEL_STATUS j.val)).testBit 2 = true ↔ ∀ k, ¬ good k) ∧
      (m = 1 → (s.rd (K.SEL_FORCE_K j.val) = 255 ∨ s.rd (K.REF_STATE (s.rd (K.SEL_FORCE_K j.val))) ≠ 2) → s.rd (K.SEL_STATE j.val) ≠ 3 →
        Ends (.selectorEvaluation j d) s (fun t => t.rd (K.SEL_STATE j.val) = 3 ∧ t.rd (K.SEL_ACTIVE j.val) = 255 ∧ t.rd (H.holdAt j.val) = s.now)) ∧
      (m = 0 → (∀ k, ¬ good k) → Ends (.selectorEvaluation j d) s (fun t => t.rd (K.SEL_ACTIVE j.val) = 255)) ∧
      (m = 0 → (∃ k, good k) → Ends (.selectorEvaluation j d) s (fun t => good (t.rd (K.SEL_ACTIVE j.val)) ∧
        (s.rd (K.SEL_REVERTIVE j.val) ≠ 0 → ∀ k, good k → s.rank j.val (t.rd (K.SEL_ACTIVE j.val)) ≤ s.rank j.val k)))) ∧
    (∀ (q : Req) (i : Nat), Serves s q i → holds (s.rd (K.SESS_RIGHTS i)) 2 = true →
      (∀ (v : Nat) (d : Int), v ≤ 1 →
        exec (.selModeWrite q j v d) s = .next (wrote s q i (K.SEL_MODE j.val) (fun n => ((n.wr (K.SEL_MODE j.val) v).qualCheck j.val).evalSel j.val d))) ∧
      (∀ d : Int, Ends (.selModeWrite q j 2 d) s (fun t => t.rd (K.SEL_MODE j.val) = 2 ∧ t.rd (K.SEL_STATE j.val) = 3 ∧
        t.rd (K.SEL_ACTIVE j.val) = 255 ∧ t.rd K.IDENT_CFG_SEQ = (s.rd K.IDENT_CFG_SEQ + 1) % 2 ^ 64)) ∧
      (∀ d : Int, Ends (.selModeWrite q j 3 d) s (fun t => t.rd (K.SEL_MODE j.val) = 3 ∧ t.rd (K.SEL_STATE j.val) = 0 ∧
        t.rd (K.SEL_ACTIVE j.val) = 255 ∧ t.rd (K.SEL_NCO j.val) = 0)) ∧
      (∀ d : Int, Ends (.selModeWrite q j 4 d) s (fun t => t.rd (K.SEL_MODE j.val) = 4 ∧ t.rd (K.SEL_STATE j.val) = 3 ∧
        t.rd (K.SEL_ACTIVE j.val) = 255 ∧ t.rd (K.SEL_NCO j.val) = s.rd (K.SEL_NCO j.val))))

/-- The soft limit of a selector's active candidate. After the measurements of a second bit 1 of STATUS of each selector says whether
the OFFSET of its active candidate exceeds SOFT, in magnitude; REF_SOFT has been raised once for each selector whose bit rose, and for
no other; each selector keeps its candidate. A written SOFT above HARD, or HARD below SOFT, is answered RANGE and changes nothing, but
for a default, which is always accepted (R39); an accepted SOFT is compared at once. -/
def Obligations.SoftLimitWarns : Prop :=
  ∀ s : State, (∀ j < 2, s.rd (K.SEL_ACTIVE j) < 54 ∨ s.rd (K.SEL_ACTIVE j) = 255) →
    let cand (j : Nat) : Nat := s.rd (K.SEL_ACTIVE j)
    let past (t : State) (j : Nat) : Bool := cand j != 255 && decide (t.rd (K.REF_SOFT (cand j)) < (t.rdI 32 (K.REF_OFFSET (cand j))).natAbs)
    let warned (t : State) (j : Nat) : List (Nat × Nat × Nat × Nat) :=
      if past t j && !s.bit (K.SEL_STATUS j) 1 then [(0x1002, refIdx (cand j), cand j, t.rd (K.REF_OFFSET (cand j)) % 2 ^ 32)] else []
    (∀ offs : List Int, Ends (.refMeasurement offs) s (fun t =>
      (∀ j < 2, t.rd (K.SEL_ACTIVE j) = cand j ∧ t.bit (K.SEL_STATUS j) 1 = past t j) ∧
      ((raisedOf t).drop (raisedOf s).length).filter (fun e => e.1 == 0x1002) = warned t 0 ++ warned t 1)) ∧
    (∀ (q : Req) (i k v : Nat) (x : List Int), Serves s q i → LenOk q → holds (s.rd (K.SESS_RIGHTS i)) 2 = true → k < 54 → 1 ≤ v → v ≤ 100000 →
      (q.payload = bytesBE 3 (K.REF_SOFT k) ++ [0] ++ bytesBE 4 v →
        (s.rd (K.REF_HARD k) < v → v ≠ dflt (K.REF_SOFT k) → exec (.write q x) s = .next (replied s q i 0x11 4 (q.payload.take 4) (arrived q i s))) ∧
        (v ≤ s.rd (K.REF_HARD k) ∨ v = dflt (K.REF_SOFT k) → Ends (.write q x) s (fun t => t.rd (K.REF_SOFT k) = v ∧
          ∀ j < 2, t.rd (K.SEL_ACTIVE j) = cand j ∧ t.bit (K.SEL_STATUS j) 1 = past t j))) ∧
      (q.payload = bytesBE 3 (K.REF_HARD k) ++ [0] ++ bytesBE 4 v → v < s.rd (K.REF_SOFT k) → v ≠ dflt (K.REF_HARD k) →
        exec (.write q x) s = .next (replied s q i 0x11 4 (q.payload.take 4) (arrived q i s))))

/-- In OPEN_LOOP software sets the NCO. In OPEN_LOOP a write of NCO within 100,000 ppb either way sets it at once and moves nothing
else; in every other mode it is BUSY. NCO reads what is in use in every mode. In OPEN_LOOP PHASE_ERR takes the phase of FORCE_K and
leaves the NCO alone; where FORCE_K is not present it reads 0x80000000. -/
def Obligations.OpenLoopNco : Prop :=
  ∀ (j : Fin 2) (s : State),
    let n := j.val
    let k := s.rd (K.SEL_FORCE_K n)
    let missing : Prop := k = 255 ∨ s.rd (K.REF_STATE k) = 0
    (∀ (q : Req) (i v : Nat), Serves s q i → holds (s.rd (K.SESS_RIGHTS i)) 3 = true → v < 2 ^ 64 → (toInt 64 v).natAbs ≤ 100000 * 2 ^ 32 →
      (s.rd (K.SEL_MODE n) = 4 → Ends (.ncoWrite q j v) s (fun t => t.rd (K.SEL_NCO n) = v ∧
        t.nu = ⟨n, s.rd (K.SEL_ACTIVE n), s.now, s.rd (K.SEL_STATE n) == 2, v⟩ :: s.nu ∧ RegsKept (arrivalKeys i ++ [K.SEL_NCO n, K.IDENT_CFG_SEQ]) s t ∧
        t.rd K.IDENT_CFG_SEQ = (s.rd K.IDENT_CFG_SEQ + 1) % 2 ^ 64 ∧ raisedOf t = raisedOf s ∧ StoresKept s t)) ∧
      (s.rd (K.SEL_MODE n) ≠ 4 → exec (.ncoWrite q j v) s = .next (declined s q i (K.SEL_NCO n) 5 [] id))) ∧
    (∃ l : Loc, locate (K.SEL_NCO n) = some l ∧ holds 0 l.row.rd = true ∧ s.readVal l (K.SEL_NCO n) false = s.rd (K.SEL_NCO n) % 2 ^ 64) ∧
    (s.rd (K.SEL_MODE n) = 4 → ∃ l : Loc, locate (K.SEL_PHASE_ERR n) = some l ∧ holds 0 l.row.rd = true ∧
      (missing → s.readVal l (K.SEL_PHASE_ERR n) false = 0x80000000) ∧
      (¬ missing → k < 54 → ∀ e : Int, Ends (.phaseMeasurement j e) s (fun t => t.readVal l (K.SEL_PHASE_ERR n) false = ofInt 32 e ∧
        (s.rd (K.SEL_ACTIVE n) = 255 → t.rd (K.SEL_NCO n) = s.rd (K.SEL_NCO n) ∧ t.nu = s.nu))))

/-- Phase samples, LOCKED and back. PHASE_MEASUREMENT sets PHASE_ERR, or 0x80000000 in OPEN_LOOP and FORCED where there is nothing to
measure; a LOCKED selector whose error exceeds four times LOCK_PHASE returns to ACQUIRING; LOCK_HOLD_EXPIRY makes an ACQUIRING one
LOCKED once the error has stayed within LOCK_PHASE for LOCK_HOLD, by the samples waiting in the tick too. The NCO follows by a law
nothing states (log 14). A phase event of a present candidate restarts its loss period and is a sample for the selectors that use it; of
an ABSENT one it does nothing. -/
def Obligations.PhaseSamplesReachTheLoop : Prop :=
  ∀ (j : Fin 2) (s : State),
    let n := j.val
    let k := if s.rd (K.SEL_MODE n) = 4 then s.rd (K.SEL_FORCE_K n) else s.rd (K.SEL_ACTIVE n)
    let from' := s.rd (H.lockFrom n)
    (∀ e : Int, (k = 255 ∨ s.rd (K.REF_STATE k) = 0) →
      ((s.rd (K.SEL_MODE n) = 4 ∨ s.rd (K.SEL_MODE n) = 1) → Does (.phaseMeasurement j e) s [(K.SEL_PHASE_ERR n, 0x80000000)] []) ∧
      (s.rd (K.SEL_MODE n) ≠ 4 → s.rd (K.SEL_MODE n) ≠ 1 → Idles (.phaseMeasurement j e) s)) ∧
    (∀ e : Int, ¬ (k = 255 ∨ s.rd (K.REF_STATE k) = 0) → Changes (.phaseMeasurement j e) s [(K.SEL_PHASE_ERR n, ofInt 32 e)]
      [H.lockFrom n, K.SEL_STATE n, K.SEL_NCO n]
      (if s.rd (K.SEL_STATE n) = 2 ∧ 4 * s.rd (K.SEL_LOCK_PHASE n) < e.natAbs then [(0x1006, selIdx n, n, 0x201)] else [])) ∧
    (∀ e : Int, ¬ (k = 255 ∨ s.rd (K.REF_STATE k) = 0) → s.rd (K.SEL_STATE n) = 2 → 4 * s.rd (K.SEL_LOCK_PHASE n) < e.natAbs →
      Ends (.phaseMeasurement j e) s (fun t => t.rd (K.SEL_STATE n) = 1)) ∧
    (s.rd (K.SEL_STATE n) = 1 → from' ≠ 0 → from' - 1 + s.rd (K.SEL_LOCK_HOLD n) * 1000 ≤ s.now → s.arrives (s.excursion n) = false →
      Changes (.lockHoldExpiry j) s [(K.SEL_STATE n, 2), (H.lockFrom n, 0)] [] [(0x1006, selIdx n, n, 0x102)]) ∧
    (s.rd (K.SEL_STATE n) ≠ 1 ∨ from' = 0 ∨ s.now < from' - 1 + s.rd (K.SEL_LOCK_HOLD n) * 1000 ∨ s.arrives (s.excursion n) = true →
      Idles (.lockHoldExpiry j) s) ∧
    (∀ (c : Fin 54) (e : Int), (s.rd (K.REF_STATE c.val) = 0 → Idles (.refPhaseEvent c e) s) ∧
      (s.rd (K.REF_STATE c.val) ≠ 0 → Ends (.refPhaseEvent c e) s (fun t => t.rd (H.refLoss c.val) = s.now + s.lossTicks c.val ∧ StoresKept s t ∧
        (∀ g < 2, s.rd (K.SEL_ACTIVE g) = c.val → t.rd (K.SEL_PHASE_ERR g) = ofInt 32 e) ∧
        (∀ g < 2, s.rd (K.SEL_ACTIVE g) ≠ c.val → t.rd (K.SEL_PHASE_ERR g) = s.rd (K.SEL_PHASE_ERR g) ∧ t.rd (K.SEL_STATE g) = s.rd (K.SEL_STATE g)))))

/-- The PTP ports. A Sync at a port that is UNCALIBRATED or SLAVE gives offset, path delay and rate, and makes it SLAVE; another rate
than a present candidate's is a loss and a new detection; at another port, or with a rate outside 1 to 128 a second, nothing happens.
The first Announce of the port's domain makes a LISTENING port UNCALIBRATED and names its grandmaster for ANN_TIMEOUT intervals, with
the UTC offset and the jump it announces; a grandmaster other than the last one raises PTP_GM_CHANGE, after a timeout too; one of
another domain, or of a grandmaster that is no better, changes nothing. When the time runs out the grandmaster is forgotten, the port
LISTENS and its candidate is ABSENT. -/
def Obligations.PtpPorts : Prop :=
  ∀ (p : Fin 2) (s : State),
    let k := 50 + p.val
    let ps := K.REF_PTP_PORT_STATE k
    (∀ off delay log : Int, 2 ≤ s.rd ps → s.rd ps ≠ 4 → -7 ≤ log → log ≤ 0 →
      Ends (.ptpSync p off delay log) s (fun t => t.rd ps = 3 ∧ t.rd (K.REF_PTP_OFFSET_NS k) = ofInt 32 off ∧
        t.rd (K.REF_PTP_MEAN_DELAY k) = ofInt 32 delay ∧ t.rd (K.REF_PTP_SYNC_LOG k) = ofInt 8 log ∧ StoresKept s t ∧
        (s.rd (K.REF_STATE k) = 0 → t.rd (K.REF_STATE k) = 0) ∧
        (s.rd (K.REF_STATE k) ≠ 0 → t.rd (K.REF_NOM_NUM k) = 2 ^ (-log).toNat) ∧
        (s.rd (K.REF_STATE k) ≠ 0 → s.rd (K.REF_NOM_NUM k) = 2 ^ (-log).toNat → t.rd (K.REF_STATE k) = s.rd (K.REF_STATE k)) ∧
        (s.rd (K.REF_STATE k) ≠ 0 → s.rd (K.REF_NOM_NUM k) ≠ 2 ^ (-log).toNat →
          t.rd (K.REF_STATE k) = if s.rd (H.refQual k) = 0 then 1 else 3) ∧
        (∀ j < 2, s.rd (K.SEL_ACTIVE j) = k → t.rd (K.SEL_PHASE_ERR j) = ofInt 32 (-off)) ∧
        (∀ j < 2, s.rd (K.SEL_ACTIVE j) ≠ k → t.rd (K.SEL_PHASE_ERR j) = s.rd (K.SEL_PHASE_ERR j)))) ∧
    (∀ off delay log : Int, s.rd ps < 2 ∨ s.rd ps = 4 ∨ log < -7 ∨ 0 < log → Idles (.ptpSync p off delay log) s) ∧
    (∀ (domain p1 cls acc var p2 gm steps : Nat) (utc : UtcData) (log d : Int),
      let c : Instr := .ptpAnnounce p domain p1 cls acc var p2 gm steps utc log d
      let first : Prop := domain = s.rd (K.REF_PTP_DOMAIN k) ∧ -3 ≤ log ∧ log ≤ 1 ∧ s.rd (H.annEnd p.val) = 0
      (s.rd ps = 1 → first → (s.rd (H.ptpGm p.val) = 0 ∨ s.rd (H.ptpGm p.val) = gm + 1) →
        Changes c s
          [(ps, 2), (K.REF_PTP_GM_ID k, gm), (H.ptpGm p.val, gm + 1), (H.ptpBest p.val, bmcaKey p1 cls acc var p2 gm steps),
            (H.annEnd p.val, s.now + s.rd (K.REF_PTP_ANN_TIMEOUT k) * (if log < 0 then 1000000 / 2 ^ (-log).toNat else 1000000 * 2 ^ log.toNat)),
            (H.ptpUtc p.val, ofInt 16 utc.offset + 1), (H.ptpJumpAt p.val, utc.leapAt), (H.ptpJump p.val, ofInt 16 utc.leap)]
          [K.TOD_UTC_OFFSET] [(0x1009, refIdx k, p.val, 0x102)]) ∧
      (s.rd ps ≠ 0 → s.rd ps ≠ 4 → first → s.rd (H.ptpGm p.val) ≠ 0 → s.rd (H.ptpGm p.val) ≠ gm + 1 → Ends c s (fun t =>
        t.rd (K.REF_PTP_GM_ID k) = gm ∧ (0x100A, refIdx k, p.val, gm % 2 ^ 32) ∈ raisedOf t ∧ StoresKept s t)) ∧
      ((s.rd ps = 0 ∨ s.rd ps = 4 ∨ domain ≠ s.rd (K.REF_PTP_DOMAIN k) ∨ log < -3 ∨ 1 < log ∨
        s.rd (H.annEnd p.val) ≠ 0 ∧ gm ≠ s.rd (K.REF_PTP_GM_ID k) ∧ s.rd (H.ptpBest p.val) ≤ bmcaKey p1 cls acc var p2 gm steps) →
        Idles c s)) ∧
    (s.rd (H.annEnd p.val) ≠ 0 → s.rd (H.annEnd p.val) ≤ s.now → Ends (.ptpAnnounceTimeout p) s (fun t => t.rd ps = 1 ∧
      t.rd (K.REF_PTP_GM_ID k) = 0 ∧ t.rd (H.annEnd p.val) = 0 ∧ t.rd (K.REF_STATE k) = 0 ∧ StoresKept s t)) ∧
    (s.rd (H.annEnd p.val) = 0 ∨ s.now < s.rd (H.annEnd p.val) → Idles (.ptpAnnounceTimeout p) s)

/-- PPS and the time of day. PPS_OUT rises in the first microsecond of a whole second of the time of day, for PPS_WIDTH. With PPS_MODE 1
an edge at PPS_IN moves each timescale that no PTP, SDI or SYNCIN reference holds to the nearest whole second, and no other. A write of
TOD.SET is BUSY while the selector follows PTP; else it moves the timescale to the value, or by whole frames of an SDI or SYNCIN
reference to the nearest, as a phase step, with PHASE_STEP and TOD_SET. -/
def Obligations.TimeOfDay : Prop :=
  ∀ s : State,
    (s.tod % 1000000000 < 1000 → ∃ t, exec .ppsOutSecond s = .next t ∧ t.rd H.ppsOut = 1 ∧ t.rd H.ppsOff = s.now + s.rd K.TOD_PPS_WIDTH ∧
      RegsKept [H.ppsOut, H.ppsOff] s t ∧ raisedOf t = raisedOf s ∧ OnlyRegisters s t) ∧
    (1000 ≤ s.tod % 1000000000 → Idles .ppsOutSecond s) ∧
    (s.rd H.ppsOut = 1 → s.rd H.ppsOff ≤ s.now → ∃ t, exec .ppsOutWidthEnd s = .next t ∧ t.rd H.ppsOut = 0 ∧
      RegsKept [H.ppsOut] s t ∧ raisedOf t = raisedOf s ∧ OnlyRegisters s t) ∧
    (s.rd H.ppsOut ≠ 1 ∨ s.now < s.rd H.ppsOff → Idles .ppsOutWidthEnd s) ∧
    (s.rd K.TOD_PPS_MODE ≠ 1 → Idles .ppsInEdge s) ∧
    (s.rd K.TOD_PPS_MODE = 1 → ∃ t, exec .ppsInEdge s = .next t ∧ StoresKept s t ∧ ∀ j < 2,
      let a := s.rd (K.SEL_ACTIVE j)
      ((a = 255 ∨ a = 52 ∨ a = 53) → t.rd (H.tsNs j) = (s.rd (H.tsNs j) + 500000000) / 1000000000 * 1000000000 ∧ t.rd (H.tsFrac j) = 0) ∧
      (a ≠ 255 → a ≠ 52 → a ≠ 53 → t.rd (H.tsNs j) = s.rd (H.tsNs j) ∧ t.rd (H.tsFrac j) = s.rd (H.tsFrac j))) ∧
    (∀ (q : Req) (i v : Nat), Serves s q i → holds (s.rd (K.SESS_RIGHTS i)) 3 = true → v < 2 ^ 80 → v % 2 ^ 32 < 1000000000 →
      let j := s.rd K.TOD_SEL
      let a := s.rd (K.SEL_ACTIVE j)
      (j < 2 → (a = 50 ∨ a = 51) → exec (.todSet q v) s = .next (declined s q i K.TOD_SET 5 [] id)) ∧
      (a ≠ 50 → a ≠ 51 → j < 2 → ∃ t, exec (.todSet q v) s = .next t ∧ t.rd K.TOD_SET = v ∧
        t.rd K.IDENT_CFG_SEQ = (s.rd K.IDENT_CFG_SEQ + 1) % 2 ^ 64 ∧
        t.rd (H.tsNs j) = ((s.rd (H.tsNs j) : Int) + s.todShift j (ofPtime v)).toNat ∧
        (52 ≤ a → t.rd (H.tsNs j) = ofPtime v) ∧
        (∃ x, (0x1008, selIdx j, j, x) ∈ raisedOf t) ∧ (∃ x, (0x100B, 0x9C10, j, x) ∈ raisedOf t)))

/-- A family searches, locks, freezes and is relocked. GSYN_BAND_SEARCH ends a search with a band and a word, ACQUIRING; GSYN_LOCK locks
an ACQUIRING family whose phase error has stayed within 1 ns for 1 ms or more of that time, and clears its timeout (shown with no
development waiting to be counted); GSYN_LOL freezes a LOCKED one at its word, RELOCK_TIMEOUT one that RELOCK 1 has not locked within
100 ms; running outputs show it. RELOCK 1 makes a FROZEN family ACQUIRING for 100 ms, RELOCK 2 searches again unless something consumes
it, LOL_CLEAR leaves set only the flags of PLLs still frozen, PLL_LOL sets them and freezes the word. GSYN_RATE_CHANGE puts the
developed RATE in force. Otherwise the commands change nothing. -/
def Obligations.FamiliesLockAndFreeze : Prop :=
  ∀ (g : Fin 8) (s : State),
    let n := g.val
    let st := K.GSYN_STATE n
    let shown := (List.range 48).map K.OUT_TSTATE ++ (List.range 16).map K.EAS_STATE_TSTATE ++ (List.range 16).map K.FRC_STATE_TSTATE
    let freezes (c : Instr) (word : Nat) : Prop :=
      Changes c s [(st, 4), (K.GSYN_LOL n, 1), (K.GSYN_CTRL_WORD n, word % 2 ^ 32), (H.gRelock n, 0)] shown [(0x100D, gsynIdx n, n, word % 2 ^ 32)] ∧
      Ends c s (fun t => ∀ o < 48, t.rd (K.OUT_TSTATE o) =
        if s.rd (K.OUT_FAMILY o) = n ∧ s.rd (K.OUT_TSTATE o) ≠ 0 then 2 else s.rd (K.OUT_TSTATE o))
    (∀ band word : Nat,
      (s.rd st = 1 → Does (.gsynBandSearch g band word) s
        [(st, 2), (K.GSYN_BAND n, band % 64), (K.GSYN_CTRL_WORD n, word % 2 ^ 32), (H.gAcq n, s.now)] []) ∧
      (s.rd st ≠ 1 → Idles (.gsynBandSearch g band word) s)) ∧
    (∀ (gain : Int) (seen : LockSeen),
      let steady : Prop := 1000 ≤ seen.held ∧ s.rd (H.gAcq n) + seen.held ≤ s.now
      (s.rd st = 2 → steady → s.vec (H.devWait (unitGsyn n)) = [] → Ends (.gsynLock g gain seen) s (fun t => t.rd st = 3 ∧ t.rd (H.gRelock n) = 0 ∧
        t.rd (H.gLate n) = 0 ∧ StoresKept s t ∧
        (∀ o < 48, s.rd (K.OUT_FAMILY o) = n → s.rd (K.OUT_TSTATE o) ≠ 0 → t.rd (K.OUT_TSTATE o) = 1))) ∧
      (s.rd st ≠ 2 ∨ ¬ steady → Idles (.gsynLock g gain seen) s)) ∧
    (∀ word : Nat, (s.rd st = 3 → freezes (.gsynLol g word) word) ∧ (s.rd st ≠ 3 → Idles (.gsynLol g word) s)) ∧
    (s.rd st = 2 → s.rd (H.gRelock n) ≠ 0 → s.rd (H.gRelock n) ≤ s.now → freezes (.relockTimeout g) (s.rd (K.GSYN_CTRL_WORD n))) ∧
    (s.rd st ≠ 2 ∨ s.rd (H.gRelock n) = 0 ∨ s.now < s.rd (H.gRelock n) → Idles (.relockTimeout g) s) ∧
    (∀ d : Int, (s.rd (H.gPend n) = 0 → Idles (.gsynRateChange g d) s) ∧
      (s.rd (H.gPend n) ≠ 0 → Ends (.gsynRateChange g d) s (fun t => t.rd (H.gPend n) = 0 ∧ t.rd (H.gRate n) = s.rd (K.GSYN_RATE n) + 1 ∧
        t.rd (K.GSYN_RATE n) = s.rd (K.GSYN_RATE n) ∧ StoresKept s t))) ∧
    (∀ x word : Nat,
      (x = 0 → Settles (.pllLol x word) s [(K.SYSPLL_STATE, 2), (K.LOL, s.rd K.LOL ||| 1), (H.pllWord 0, word % 2 ^ 32)]
        [(0x100E, 0x9C00, 0, word % 2 ^ 32)]) ∧
      (x = 1 → Settles (.pllLol x word) s [(K.AUDPLL_STATE, 2), (K.LOL, s.rd K.LOL ||| 2), (H.pllWord 1, word % 2 ^ 32)]
        [(0x100E, 0x9C00, 1, word % 2 ^ 32)]) ∧
      (16 ≤ x → x < 28 → Settles (.pllLol x word) s
        [(H.txFrozen (x - 16), 1), (K.TXPLL_LOL, s.rd K.TXPLL_LOL ||| 2 ^ (x - 16)), (H.pllWord x, word % 2 ^ 32)]
        [(0x100E, 0x9C00, x, word % 2 ^ 32)])) ∧
    (∀ (q : Req) (i : Nat), Serves s q i → holds (s.rd (K.SESS_RIGHTS i)) 2 = true →
      (s.rd st = 4 → Writes (.relock1 q g) s q i (K.GSYN_RELOCK n)
        [(K.GSYN_RELOCK n, 1), (K.GSYN_LOL n, 0), (st, 2), (H.gAcq n, s.now), (H.gRelock n, s.now + 100000)] []) ∧
      (s.rd st ≠ 4 → Writes (.relock1 q g) s q i (K.GSYN_RELOCK n) [(K.GSYN_RELOCK n, 1), (K.GSYN_LOL n, 0)] []) ∧
      (s.consumers n ≠ 0 → exec (.relock2 q g) s = .next (declined s q i (K.GSYN_RELOCK n) 5 [] id)) ∧
      (s.consumers n = 0 → s.rd st = 0 → Writes (.relock2 q g) s q i (K.GSYN_RELOCK n) [(K.GSYN_RELOCK n, 2), (K.GSYN_LOL n, 0)] []) ∧
      (s.consumers n = 0 → s.rd st ≠ 0 → Ends (.relock2 q g) s (fun t => t.rd st = 1 ∧ t.rd (K.GSYN_LOL n) = 0 ∧ t.rd (K.GSYN_RELOCK n) = 2 ∧
        raisedOf t = raisedOf s ∧ StoresKept s t ∧ (s.rd (K.GSYN_RAMP_STATUS_STATE n) = 3 → t.rd (K.GSYN_RAMP_STATUS_STATE n) = 0))) ∧
      Writes (.lolClear q) s q i K.LOL_CLEAR
        [(K.LOL_CLEAR, 1), (K.LOL, (if s.rd K.SYSPLL_STATE = 2 then 1 else 0) + (if s.rd K.AUDPLL_STATE = 2 then 2 else 0)),
          (K.TXPLL_LOL, (List.range 12).foldl (fun a t => if s.rd (H.txFrozen t) = 1 then a + 2 ^ t else a) 0)] [])

/-- Slews end, ramps step through their segments, DIVSYNC restarts. SLEW_DONE ends a slew whose time is over: the offset is the base
again, the distance has been covered, and the duration is reported; a step that waited starts the next slew. RAMP_SEGMENT_END goes to
the next segment, or ends the profile with its offset. RAMP_RUN and RAMP_HOLD start the profile and hold it; RAMP_RETURN brings the
offset to 0, as a segment numbered 255 (the model's choice, log 70), after which the accumulated phase is slewed back; all are BUSY
during a slew. A DIVSYNC edge, at most every 10 ms, restarts the synced dividers and takes in the DIVSYNC families. -/
def Obligations.SlewsAndRamps : Prop :=
  ∀ (g : Fin 8) (s : State),
    let n := g.val
    let st := K.GSYN_RAMP_STATUS_STATE n
    let seg := K.GSYN_RAMP_STATUS_SEG n
    let realigned (s t : State) : Prop := t.rd st = 3 ∧ t.rd (H.gWait n) = 0 ∧ t.rd (H.gStart n) = s.now ∧
      (∃ x, raisedOf t = raisedOf s ++ [(0x1010, gsynIdx n, n, x)]) ∧ StoresKept s t
    let ended : Prop := s.rd (H.gEnd n) ≤ s.now
    let rest := s.rd64 (K.GSYN_PHASE_NS n) + s.rd64 (H.gDist n) + s.rd64 (H.gBase n) * ((s.now - s.rd (H.gAt n) : Nat) : Int) / 1000000
    (s.rd st = 3 → ended → s.rd64 (H.gWait n) = 0 → Changes (.slewDone g) s
      [(st, 0), (K.GSYN_OFFSET n, ofInt 32 (s.rd64 (H.gBase n))), (K.GSYN_PHASE_NS n, ofInt 64 rest), (H.gDist n, 0), (H.gAt n, s.now)] []
      [(0x1011, gsynIdx n, n, (s.now - s.rd (H.gStart n)) / 1000 % 2 ^ 32)]) ∧
    (s.rd st = 3 → ended → s.rd64 (H.gWait n) ≠ 0 → Ends (.slewDone g) s (fun t => t.rd st = 3 ∧ t.rd (H.gWait n) = 0 ∧ t.rd (H.gStart n) = s.now)) ∧
    (s.rd st ≠ 3 ∨ ¬ ended → Idles (.slewDone g) s) ∧
    (s.rd st = 1 → ended → s.rd seg ≠ 255 → s.rd seg + 1 < s.rd (K.GSYN_RAMP_COUNT n) → Changes (.rampSegmentEnd g) s [(st, 1), (seg, s.rd seg + 1)]
      [H.gEnd n, K.GSYN_OFFSET n, K.GSYN_PHASE_NS n, H.gAt n] []) ∧
    (s.rd st = 1 → ended → s.rd seg ≠ 255 → s.rd (K.GSYN_RAMP_COUNT n) ≤ s.rd seg + 1 → s.rd64 (H.gWait n) = 0 → Changes (.rampSegmentEnd g) s
      [(st, 0), (seg, 255), (K.GSYN_OFFSET n, ofInt 32 (s.gNow n).1)] [K.GSYN_PHASE_NS n, H.gAt n]
      [(0x100F, gsynIdx n, n, ofInt 32 (s.gNow n).1)]) ∧
    (s.rd st = 1 → ended → s.rd seg = 255 → Ends (.rampSegmentEnd g) s (fun t => realigned s t ∧ t.rd seg = 255)) ∧
    (s.rd st ≠ 1 ∨ ¬ ended → Idles (.rampSegmentEnd g) s) ∧
    (∀ (q : Req) (i : Nat), Serves s q i → holds (s.rd (K.SESS_RIGHTS i)) 2 = true →
      (s.rd st = 3 → ∀ c : Instr, (c = .rampRun q g ∨ c = .rampHold q g ∨ c = .rampReturn q g) →
        exec c s = .next (declined s q i (K.GSYN_RAMP_RUN n) 5 [] id)) ∧
      (s.rd st ≠ 3 → 0 < s.rd (K.GSYN_RAMP_COUNT n) → Ends (.rampRun q g) s (fun t => t.rd st = 1 ∧ t.rd seg = 0 ∧ t.rd (K.GSYN_RAMP_RUN n) = 1 ∧
        raisedOf t = raisedOf s ∧ StoresKept s t)) ∧
      (s.rd st ≠ 3 → Ends (.rampHold q g) s (fun t => t.rd st = 2 ∧ t.rd seg = s.rd seg ∧ t.rd (K.GSYN_OFFSET n) = ofInt 32 (s.gNow n).1 ∧
        t.rd (K.GSYN_RAMP_RUN n) = 2 ∧ t.vec (H.gProf n) = [] ∧ raisedOf t = raisedOf s ∧ StoresKept s t)) ∧
      (s.rd st ≠ 3 → (s.gNow n).1 = 0 → Ends (.rampReturn q g) s (fun t => t.rd seg = 255 ∧ t.rd (K.GSYN_RAMP_RUN n) = 3 ∧ realigned s t)) ∧
      (s.rd st ≠ 3 → (s.gNow n).1 ≠ 0 → Ends (.rampReturn q g) s (fun t => t.rd st = 1 ∧ t.rd seg = 255 ∧ t.rd (K.GSYN_RAMP_RUN n) = 3 ∧
        t.rd (H.gEnd n) = s.now + (s.gNow n).1.natAbs * 1000000 / s.rd (K.GSYN_SLEW_SLOPE n) ∧ raisedOf t = raisedOf s ∧ StoresKept s t))) ∧
    (∀ moves : List Int,
      (s.rd H.divAt ≠ 0 → s.now < s.rd H.divAt - 1 + 10000 → Idles (.divsyncEdge moves) s) ∧
      ((s.rd H.divAt = 0 ∨ s.rd H.divAt - 1 + 10000 ≤ s.now) → Ends (.divsyncEdge moves) s (fun t => t.rd H.divAt = s.now + 1 ∧ StoresKept s t ∧
        (∀ c < 2, t.rd (H.divRestart c) = if s.rd (K.CLKOUT_SYNC c) = 1 then s.now else s.rd (H.divRestart c)) ∧
        (∀ f < 8, s.rd (K.GSYN_DIVSYNC f) = 1 → t.rd (H.gDivsync f) = 1) ∧
        (∀ f < 8, s.rd (K.GSYN_DIVSYNC f) ≠ 1 → t.rd (H.gDivsync f) = s.rd (H.gDivsync f) ∧ t.rd (K.GSYN_OFFSET f) = s.rd (K.GSYN_OFFSET f)) ∧
        ∃ (l : List (Nat × Nat × Nat × Nat)) (a : Nat), raisedOf t = raisedOf s ++ l ++
          [(0x1012, 0x9A00, ((List.range 8).filter (fun f => s.rd (K.GSYN_DIVSYNC f) == 1)).foldl (fun m f => m + 2 ^ f) 0, a)])))

/-- Flags, levels and counters of an output. FRAME_DONE sets PENDING bit 2 of a running output. FETCH_COMPLETION raises the line
buffer's level, at most to 16,384, and the class follows. IRQ.ACK clears the bits it names, but one whose event occurs in the same tick
stays; MEASURED.CLEAR restarts MAX and MIN, STATS.CLEAR zeroes every TOTAL of its block and nothing else, and is remembered for a latch
of the same tick. -/
def Obligations.OutputFlagsAndCounters : Prop :=
  ∀ (n : Fin 48) (s : State),
    let p := K.OUT_IRQ_PENDING n.val
    let lev (k : Nat) := min 16384 (s.rd (K.OUT_FETCH_LEVEL n.val) + k)
    (s.rd (K.OUT_TSTATE n.val) ≠ 0 → Does (.frameDone n) s [(p, s.rd p ||| 4), (H.irqAt (4 * n.val + 2), s.now + 1)] []) ∧
    (s.rd (K.OUT_TSTATE n.val) = 0 → Idles (.frameDone n) s) ∧
    (∀ k : Nat, Does (.fetchCompletion n k) s [(K.OUT_FETCH_LEVEL n.val, lev k),
      (H.fetchLow n.val, max (s.rd (H.fetchLow n.val)) (16384 - lev k)),
      (K.OUT_FETCH_CLASS n.val, fetchClass (s.rd (K.OUT_FETCH_CLASS n.val)) (lev k) (s.rd (K.OUT_FETCH_W1 n.val)) (s.rd (K.OUT_FETCH_W2 n.val)))] []) ∧
    (∀ (q : Req) (i : Nat), Serves s q i → holds (s.rd (K.SESS_RIGHTS i)) 1 = true →
      (∀ v : Nat, v ≤ 15 → (∀ b < 4, s.rd (H.irqAt (4 * n.val + b)) ≠ s.now + 1) →
        Writes (.irqAck q n v) s q i (K.OUT_IRQ_ACK n.val) [(K.OUT_IRQ_ACK n.val, v), (p, s.rd p &&& (15 - v))] []) ∧
      (∀ v : Nat, v ≤ 15 → Ends (.irqAck q n v) s (fun t => ∀ b < 4, (t.rd p).testBit b =
        ((s.rd p).testBit b && (!v.testBit b || s.rd (H.irqAt (4 * n.val + b)) == s.now + 1)))) ∧
      Writes (.measuredClear q n) s q i (K.OUT_MEASURED_CLEAR n.val)
        [(K.OUT_MEASURED_CLEAR n.val, 1), (K.OUT_MEASURED_MAX n.val, 0), (K.OUT_MEASURED_MIN n.val, 0xFFFFFFFF)] [] ∧
      (∀ b : Fin 176,
        let x := b.val
        let total : Nat → Nat := if x < 48 then K.IN_TOTAL x else if x < 96 then K.OUT_TOTAL (x - 48) else if x < 112 then K.EAS_TOTAL (x - 96)
          else if x < 128 then K.FRC_TOTAL (x - 112) else K.AIN_TOTAL (x - 128)
        let last := if x < 48 then 11 else if x < 96 then 8 else if x < 128 then 10 else 7
        Writes (.statsClear q b) s q i (statsKey x) ((statsKey x, 1) :: (H.clrAt (total 1), s.now + 1) :: (List.range last).map (fun m => (total (m + 1), 0))) []))

/-- Slates and takeovers. SLATE.CMD is BUSY while disarmed, else the slate waits for the next switch line, inserted by command. After
CLEAR_FRAMES clean frames a slate that a mismatch inserted is removed. A failing primary of a bracketed pair whose STATE is armed is
taken over by its partner, with the cause and an event, its running frame counts, and the line it was sending, lost, goes out as a held
line, counted; a partner that fails while it serves ends the takeover; RELEASE is BUSY without a takeover or while its cause persists. -/
def Obligations.SlatesAndTakeovers : Prop :=
  ∀ (n : Fin 48) (s : State),
    let m := n.val
    let cleared : Prop := s.rd (K.OUT_SLATE_STATE m) = 2 ∧ s.rd (H.slateCause m) = 1 ∧ s.rd (K.OUT_SLATE_CLEAR_FRAMES m) ≠ 0 ∧
      s.rd (K.OUT_SLATE_CLEAR_FRAMES m) ≤ s.rd (H.slateClean m)
    let role := s.rd (K.OUT_BRACKET_ROLE m)
    let st := s.rd (K.OUT_BRACKET_STATE m)
    let line := s.rd (H.outLineNo m)
    let lk := wireLinks (s.air (K.OUT_FORMAT m)) (s.air (K.OUT_QUAD_MODE (m / 4 * 4)))
    let row := lineRow lk.2.1 (if lk.1 = 4 ∧ lk.2.2 = false then (line + 1) / 2 else line)
    let prim := (List.range 48).find? (fun p => s.air (K.OUT_BRACKET_PARTNER p) == m && s.rd (K.OUT_BRACKET_ROLE p) == 1)
    (cleared → Does (.slateAutoClear n) s [(H.slatePend m, 2)] []) ∧ (¬ cleared → Idles (.slateAutoClear n) s) ∧
    (∀ c : Nat,
      (role = 1 → st ≠ 1 → Settles (.bracketTakeover n c) s [(H.tkCause m, c % 2 + 1)] []) ∧
      (role = 1 → st = 1 → exec (.bracketTakeover n c) s = .next ((s.takeover m (c % 2)).lineLost m).protSync) ∧
      (role = 1 → st = 1 → row = none → Settles (.bracketTakeover n c) s
        [(H.tkCause m, c % 2 + 1), (K.OUT_BRACKET_STATE m, 2), (H.tkCnt m, 1), (H.tkRel m, 0),
          (K.OUT_RUN m 7, min (s.rd (K.OUT_RUN m 7) + 1) 0xFFFFFFFF), (H.cntWas (K.OUT_RUN m 7), s.runWas (K.OUT_RUN m 7)),
          (H.cntAt (K.OUT_RUN m 7), s.now + 1)]
        [(0x3008, outIdx m, m, (c % 2 * 256 + s.air (K.OUT_BRACKET_PARTNER m)) % 2 ^ 32)]) ∧
      (role ≠ 1 → ∀ p : Nat, prim = some p → s.rd (K.OUT_BRACKET_STATE p) = 2 → Settles (.bracketTakeover n c) s
        [(K.OUT_BRACKET_STATE p, 3)] [(0x300A, outIdx p, p, m)]) ∧
      (role ≠ 1 → (∀ p : Nat, prim = some p → s.rd (K.OUT_BRACKET_STATE p) ≠ 2) → exec (.bracketTakeover n c) s = .next s.protSync)) ∧
    (lk.1 = 1 → row ≠ none → s.rd (H.heldAt m) ≠ line + 1 → (s.lineLost m).rd (H.heldCnt m) = (s.rd (H.heldCnt m) + 1) % 2 ^ 32 ∧
      (s.lineLost m).vec (H.outLine m) = s.vec (H.lastAct (2 * m + lineField (s.air (K.OUT_FORMAT m)) line))) ∧
    (∀ (q : Req) (i : Nat), Serves s q i → holds (s.rd (K.SESS_RIGHTS i)) 1 = true →
      (s.rd (K.OUT_SLATE_STATE m) = 0 → exec (.slateInsert q n) s = .next (declined s q i (K.OUT_SLATE_CMD m) 5 [] id) ∧
        exec (.slateRemove q n) s = .next (declined s q i (K.OUT_SLATE_CMD m) 5 [] id)) ∧
      (s.rd (K.OUT_SLATE_STATE m) = 1 → Writes (.slateInsert q n) s q i (K.OUT_SLATE_CMD m)
        [(K.OUT_SLATE_CMD m, 1), (H.slatePend m, 1), (H.slateCause m, 0)] []) ∧
      (s.rd (K.OUT_SLATE_STATE m) = 2 → Writes (.slateInsert q n) s q i (K.OUT_SLATE_CMD m) [(K.OUT_SLATE_CMD m, 1), (H.slatePend m, 1)] []) ∧
      (s.rd (K.OUT_SLATE_STATE m) ≠ 0 → Writes (.slateRemove q n) s q i (K.OUT_SLATE_CMD m) [(K.OUT_SLATE_CMD m, 0), (H.slatePend m, 2)] []) ∧
      (st < 2 ∨ s.rd (H.tkCause m) ≠ 0 → exec (.bracketRelease q n) s = .next (declined s q i (K.OUT_BRACKET_RELEASE m) 5 [] id)) ∧
      (2 ≤ st → s.rd (H.tkCause m) = 0 → Writes (.bracketRelease q n) s q i (K.OUT_BRACKET_RELEASE m)
        [(K.OUT_BRACKET_RELEASE m, 1), (H.tkRel m, 1)] []))

/-- An output's frames start, follow each other and end, line by line. An output with FORMAT 0, without a READY transmitter or without a
LOCKED family does not start; where its generator starts, its frame and its audio begin with it. At a switch line the running frame ends
(what its counters held before the tick goes to LAST and, unless a STATS.CLEAR of the tick acts after it, onto TOTAL; what the tick has
counted stays in RUN under the next number) and the next one opens under the next 48-bit number, or the output stops where FORMAT 0 has
developed. A development point, DEV_GUARD lines before the switch line and once a frame, develops what the output owes and marks the
point passed; what it developed is due no more. At any other line, and for a stopped output, it is nothing. A line of an output without
a format, or one that a shortened frame leaves out, does nothing to the output. A line start of a running one sends the line, its
ancillary packets and the interrupt flags of its place in the frame: PENDING bit 0 where active picture turns into blanking, bit 1 once
a frame at LINE_MATCH, bit 2 not. -/
def Obligations.OutputFramesAndLines : Prop :=
  (∀ (n : Fin 48) (s : State),
    let m := n.val
    let g := s.rd (K.OUT_FAMILY m)
    let idle : Prop := s.rd (K.OUT_TSTATE m) ≠ 0 ∨ s.rd (K.OUT_FORMAT m) = 0 ∨ s.funcReady (20 + m / 4) 0 = false ∨
      s.funcReady (20 + m / 4) (1 + m % 4) = false ∨ s.rd (K.GSYN_STATE g) ≠ 3
    let next := (s.rd (K.OUT_EVT_FRAME m) + 1) % 2 ^ 48
    let here : Prop := s.rd (K.OUT_TSTATE m) ≠ 0 ∧ s.rd (H.devPassed m) ≠ 1 ∧ s.linesLeft m = s.rd (K.OUT_DEV_GUARD m)
    let follow (t : State) : State := t.pinEdges 4 (fun a => a / 256 == m)
    (∀ t : Nat, idle → Idles (.outGeneratorStart n t) s) ∧
    (∀ t : Nat, ¬ idle → exec (.outGeneratorStart n t) s = .next (if (s.genStart m t).rd (K.OUT_TSTATE m) = 0 then s.genStart m t
      else ((s.genStart m t).audOutput m).protSync)) ∧
    (∀ ns : Nat,
      (s.rd (K.OUT_TSTATE m) = 0 → exec (.switchLine n ns) s = .next (follow s)) ∧
      (s.rd (K.OUT_TSTATE m) ≠ 0 → s.rd (K.OUT_FORMAT m) ≠ 0 → exec (.switchLine n ns) s =
        .next (follow (((s.endFrame m next).openFrame m ((s.endFrame m next).tod + ns % 1000) next).audOutput m).protSync)) ∧
      (s.rd (K.OUT_TSTATE m) ≠ 0 → s.rd (K.OUT_FORMAT m) = 0 → exec (.switchLine n ns) s =
        .next (follow (((s.endFrame m next).outStop m ((s.endFrame m next).tod + ns % 1000) next).audOutput m).protSync))) ∧
    (∀ f j : Nat, 2 ≤ j → j ≤ 7 → (s.endFrame m f).rd (K.OUT_LAST m j) = s.runWas (K.OUT_RUN m j) ∧
      (s.endFrame m f).rd (K.OUT_RUN m j) = s.rd (K.OUT_RUN m j) - s.runWas (K.OUT_RUN m j) ∧
      (s.endFrame m f).rd (K.OUT_TOTAL m j) =
        if s.rd (H.clrAt (K.OUT_TOTAL m 1)) = s.now + 1 then 0 else (s.rd (K.OUT_TOTAL m j) + s.runWas (K.OUT_RUN m j)) % 2 ^ 64) ∧
    (∀ f : Nat, (s.endFrame m f).rd (K.OUT_RUN m 1) = f ∧ (s.endFrame m f).rd (K.OUT_LAST m 1) = s.rd (K.OUT_RUN m 1)) ∧
    (¬ here → Idles (.developmentPoint n) s) ∧
    (here → Ends (.developmentPoint n) s (fun t => (∀ d ∈ t.due, d ∈ s.due) ∧ (∀ d ∈ s.eligible m false, d ∉ t.due) ∧
      (∀ c ∈ t.com, c ∈ s.com) ∧ t.lat = s.lat)) ∧
    (here → s.due = [] → Does (.developmentPoint n) s [(H.devPassed m, 1)] [])) ∧
  (∀ (n : Fin 48) (line room : Nat) (lam : Int) (s : State),
    let m := n.val
    let c := s.air (K.OUT_FORMAT m)
    let p := K.OUT_IRQ_PENDING m
    (s.rd (K.OUT_TSTATE m) = 0 → Idles (.lineStart n line lam room) s) ∧
    (s.rd (K.OUT_TSTATE m) ≠ 0 → fmt c = none →
      exec (.lineStart n line lam room) s = .next (s.pinEdges 7 (fun a => a == m))) ∧
    (∀ g : Fmt, s.rd (K.OUT_TSTATE m) ≠ 0 → fmt c = some g → (line = 0 ∨ g.lines < line + (s.outExtra m).2) →
      exec (.lineStart n line lam room) s = .next (s.pinEdges 7 (fun a => a == m))) ∧
    (∀ g : Fmt, s.rd (K.OUT_TSTATE m) ≠ 0 → fmt c = some g → line ≠ 0 → line + (s.outExtra m).2 ≤ g.lines →
      let blank := !lineActive c line && lineActive c (s.rd (H.outLineNo m))
      let match' := decide (line = s.rd (K.OUT_LINE_MATCH m)) && s.rd (H.lmFrame m) != s.rd (K.OUT_EVT_FRAME m) + 1
      Ends (.lineStart n line lam room) s (fun t => t.rd (H.outLineNo m) = line ∧
        (t.rd p).testBit 0 = ((s.rd p).testBit 0 || blank) ∧ (t.rd p).testBit 1 = ((s.rd p).testBit 1 || match') ∧
        (t.rd p).testBit 2 = (s.rd p).testBit 2 ∧ (match' = true → t.rd (H.lmFrame m) = s.rd (K.OUT_EVT_FRAME m) + 1) ∧
        t.rd (K.OUT_EVT_FRAME m) = s.rd (K.OUT_EVT_FRAME m) ∧ StoresKept s t)))

/-- A receiver searches, locks, aligns and falls back. Energy at a receiver whose functions are READY starts the search; in AUTO every 2
ms the next rate is tried; a lock at a rate it tries makes it PRESENT at that rate, two TRS a whole number of lines apart ALIGNED with
the measurement in progress; unlocking returns it to the search, counted, losing the energy to NO_SIGNAL, and what it measured reads 0
again. Each move raises IN_STATE; a VALID input that falls loses its format and its reference candidate. Outside a quad; otherwise
nothing changes. -/
def Obligations.ReceiverFindsItsRate : Prop :=
  ∀ (n : Fin 48) (s : State),
    let m := n.val
    let st := K.IN_STAT_STATE m
    let cleared := [(K.IN_STAT_MAPPING m, 0), (K.IN_STAT_LINES m, 0), (K.IN_STAT_SAMPLES m, 0), (H.linkFmt m, 0), (H.linkAt m, 0), (H.measPs m, 0),
      (K.IN_PID_VALID m, 0), (K.IN_PID_MISMATCH m, 0)]
    let moved (old new : Nat) : Nat × Nat × Nat × Nat := (0x2001, inIdx m, m, old * 256 + new)
    let run6 := min (s.rd (K.IN_RUN m 6) + 1) 0xFFFFFFFF
    let counted := [(K.IN_RUN m 6, run6), (H.cntWas (K.IN_RUN m 6), s.runWas (K.IN_RUN m 6)), (H.cntAt (K.IN_RUN m 6), s.now + 1)]
    (s.rd st = 0 → s.funcReady (8 + m / 4) (m % 4) = true → Changes (.rxEnergyPresent n) s
      ([(st, 1), (K.IN_STAT_RATE m, 0), (H.cdrTry m, 0), (H.cdrAt m, s.now)] ++ cleared) [] [moved 0 1]) ∧
    (s.rd st ≠ 0 ∨ s.funcReady (8 + m / 4) (m % 4) = false → Idles (.rxEnergyPresent n) s) ∧
    (∀ rate : Nat,
      (s.rd st = 1 → 1 ≤ rate → rate ≤ 9 → rateClassOf rate = s.tries m → Changes (.cdrLock n rate) s
        ([(st, 2), (K.IN_STAT_RATE m, rate)] ++ cleared) [] [moved 1 2]) ∧
      (s.rd st ≠ 1 ∨ rate = 0 ∨ 9 < rate ∨ rateClassOf rate ≠ s.tries m → Idles (.cdrLock n rate) s)) ∧
    (let due : Prop := s.rd st = 1 ∧ s.rd (K.IN_CFG_RATE_MODE m) = 0 ∧ s.rd (H.cdrAt m) + 2000 ≤ s.now
     (due → Does (.cdrDwellExpiry n) s [(H.cdrTry m, (s.rd (H.cdrTry m) + 1) % 5), (H.cdrAt m, s.now)] []) ∧
     (¬ due → Idles (.cdrDwellExpiry n) s)) ∧
    (∀ mapping lines samples : Nat,
      (s.rd st = 2 → Does (.trsAligned n mapping lines samples) s [(st, 3), (K.IN_STAT_MAPPING m, mapping % 256), (K.IN_STAT_LINES m, lines % 65536),
        (K.IN_STAT_SAMPLES m, samples % 65536), (H.trsAt m, s.now), (H.trsRun m, 0)] [moved 2 3]) ∧
      (s.rd st ≠ 2 → Idles (.trsAligned n mapping lines samples) s)) ∧
    (s.rd (K.IN_QUAD_MODE (4 * (m / 4))) = 0 →
      (s.rd st < 2 → Idles (.cdrUnlock n) s) ∧
      ((s.rd st = 2 ∨ s.rd st = 3) → Changes (.cdrUnlock n) s ([(st, 1), (K.IN_STAT_RATE m, 0), (H.cdrTry m, 0),
        (H.cdrAt m, s.now)] ++ counted ++ cleared) [] [moved (s.rd st) 1]) ∧
      (s.rd st = 0 → Idles (.rxEnergyLost n) s) ∧
      (1 ≤ s.rd st → s.rd st ≤ 3 → Changes (.rxEnergyLost n) s ([(st, 0), (K.IN_STAT_RATE m, 0)] ++ cleared) [] [moved (s.rd st) 0]) ∧
      (s.rd st = 4 → Ends (.rxEnergyLost n) s (fun t => t.rd st = 0 ∧ t.rd (K.IN_STAT_FORMAT m) = 0 ∧ t.rd (K.REF_STATE m) = 0 ∧ StoresKept s t)) ∧
      (∀ (q : Req) (i v : Nat), Serves s q i → holds (s.rd (K.SESS_RIGHTS i)) 2 = true → v ≤ 5 →
        (s.rd st = 0 → Writes (.rateModeWrite q n v) s q i (K.IN_CFG_RATE_MODE m) [(K.IN_CFG_RATE_MODE m, v)] []) ∧
        (s.rd st = 1 → Writes (.rateModeWrite q n v) s q i (K.IN_CFG_RATE_MODE m)
          [(K.IN_CFG_RATE_MODE m, v), (H.cdrTry m, 0), (H.cdrAt m, s.now)] []) ∧
        (2 ≤ s.rd st → (v = 0 ∨ rateClassOf (s.rd (K.IN_STAT_RATE m)) = v) →
          Writes (.rateModeWrite q n v) s q i (K.IN_CFG_RATE_MODE m) [(K.IN_CFG_RATE_MODE m, v)] []) ∧
        ((s.rd st = 2 ∨ s.rd st = 3) → v ≠ 0 → rateClassOf (s.rd (K.IN_STAT_RATE m)) ≠ v → Ends (.rateModeWrite q n v) s (fun t =>
          t.rd st = 1 ∧ t.rd (K.IN_CFG_RATE_MODE m) = v ∧ t.rd (K.IN_RUN m 6) = run6 ∧ raisedOf t = raisedOf s ++ [moved (s.rd st) 1]))))

/-- Two agreeing frames make an input VALID. A measured frame that agrees with the one before it makes an ALIGNED input outside a quad
VALID with the format decided on; one that agrees with the measurement in use keeps a VALID input as it is; one that agrees with neither
is remembered, counted where a format is in use, and changes neither state nor format. Losing the TRS for two lines, with none waiting
in the tick, returns the receiver to PRESENT. The switch line of a VALID input outside a quad stamps the frame, latches its counters
(what RUN held before the tick to LAST), and begins a new count of its packets; an input that is not VALID is not stamped, and latches
at 20 ms intervals instead. Below ALIGNED nothing is measured. -/
def Obligations.FramesMakeAnInputValid : Prop :=
  ∀ (n : Fin 48) (s : State),
    let m := n.val
    let st := K.IN_STAT_STATE m
    let alone : Prop := s.rd (K.IN_QUAD_MODE (4 * (m / 4))) = 0
    let cleared (k : Nat) : Prop := s.rd (H.clrAt (k)) = s.now + 1
    (∀ x : Meas,
      (s.rd st < 3 → exec (.rxFrameMeasured n x) s = .next s) ∧
      (s.rd st = 3 → alone → s.rd (H.linkFmt m) = 0 → s.vec (H.meas m) = measKey x → ∃ t, exec (.rxFrameMeasured n x) s = .next t ∧
        t.rd st = 4 ∧ t.rd (K.IN_STAT_FORMAT m) = decide' false x ∧ t.rd (K.IN_STAT_LINES m) = x.lines % 65536 ∧
        t.rd (K.IN_STAT_SAMPLES m) = x.spl % 65536 ∧ t.rd (H.linkFmt m) = decide' false x + 1 ∧ t.vec (H.measOk m) = measKey x ∧ StoresKept s t) ∧
      (s.rd st = 4 → s.rd (H.linkFmt m) ≠ 0 → s.vec (H.measOk m) = measKey x → ∃ t, exec (.rxFrameMeasured n x) s = .next t ∧
        t.rd st = 4 ∧ t.rd (K.IN_STAT_FORMAT m) = s.rd (K.IN_STAT_FORMAT m) ∧ t.rd (H.measPs m) = x.period ∧
        t.rd (K.IN_RUN m 2) = s.rd (K.IN_RUN m 2) ∧ StoresKept s t) ∧
      (3 ≤ s.rd st → s.rd (H.linkFmt m) ≠ 0 → s.vec (H.measOk m) ≠ measKey x → s.vec (H.meas m) ≠ measKey x →
        ∃ t, exec (.rxFrameMeasured n x) s = .next t ∧ t.vec (H.meas m) = measKey x ∧ t.vec (H.measOk m) = s.vec (H.measOk m) ∧ t.rd st = s.rd st ∧
        t.rd (K.IN_STAT_FORMAT m) = s.rd (K.IN_STAT_FORMAT m) ∧ t.rd (K.IN_STAT_LINES m) = x.lines % 65536 ∧
        t.rd (K.IN_RUN m 2) = min (s.rd (K.IN_RUN m 2) + 1) 0xFFFFFFFF ∧ StoresKept s t) ∧
      (3 ≤ s.rd st → s.rd (H.linkFmt m) = 0 → s.vec (H.meas m) ≠ measKey x →
        ∃ t, exec (.rxFrameMeasured n x) s = .next t ∧ t.vec (H.meas m) = measKey x ∧ t.rd st = s.rd st ∧
        t.rd (K.IN_RUN m 2) = s.rd (K.IN_RUN m 2) ∧ StoresKept s t)) ∧
    (s.rd st = 3 → alone → s.rd (H.trsAt m) + s.twoLines m ≤ s.now → s.arrives (trsOf m) = false → ∃ t, exec (.rxTrsLoss n) s = .next t ∧
      t.rd st = 2 ∧ t.rd (K.IN_STAT_LINES m) = 0 ∧ t.rd (K.IN_STAT_RATE m) = s.rd (K.IN_STAT_RATE m) ∧ t.vec (H.meas m) = [] ∧ StoresKept s t) ∧
    (s.rd st = 4 → alone → s.rd (H.trsAt m) + s.twoLines m ≤ s.now → s.arrives (trsOf m) = false → ∃ t, exec (.rxTrsLoss n) s = .next t ∧
      t.rd st = 2 ∧ t.rd (K.IN_STAT_FORMAT m) = 0 ∧ t.rd (K.REF_STATE m) = 0 ∧ StoresKept s t) ∧
    (s.rd st < 3 ∨ s.now < s.rd (H.trsAt m) + s.twoLines m ∨ s.arrives (trsOf m) = true → exec (.rxTrsLoss n) s = .next s) ∧
    (∀ (q : Fin 12) (link : Fin 4) (ns : Nat), 4 * q.val + link.val = m →
      (s.rd st ≠ 4 → alone → exec (.rxSwitchLineStamp q link ns) s = .next s) ∧
      (s.rd st = 4 → alone → ∃ t, exec (.rxSwitchLineStamp q link ns) s = .next t ∧
        t.rd (K.IN_TIMING_FRAME_TIME m) = ptime (s.tod + ns % 1000) ∧ t.rd (H.inFrame m) = (s.rd (H.inFrame m) + 1) % 2 ^ 48 ∧
        t.rd (K.IN_RUN m 1) = (s.rd (H.inFrame m) + 1) % 2 ^ 48 ∧ t.vec (H.ancFwd m) = [] ∧ t.vec (H.ancPrev m) = s.vec (H.ancFwd m) ∧
        (∀ k < 16, t.rd (H.ancLine (16 * m + k)) = 0) ∧
        (∀ j, 2 ≤ j → j ≤ 11 → t.rd (K.IN_LAST m j) = s.runWas (K.IN_RUN m j)) ∧
        (∀ j, 2 ≤ j → j ≤ 11 → ¬ cleared (K.IN_TOTAL m 1) →
          t.rd (K.IN_TOTAL m j) = (s.rd (K.IN_TOTAL m j) + s.runWas (K.IN_RUN m j)) % 2 ^ 64))) ∧
    (s.rd st = 4 ∨ s.now < s.rd (H.inBoundAt m) + 20000 → exec (.rxIntervalLatch n) s = .next s) ∧
    (s.rd st ≠ 4 → s.rd (H.inBoundAt m) + 20000 ≤ s.now → ∃ t, exec (.rxIntervalLatch n) s = .next t ∧
      t.rd (H.inBoundAt m) = s.now ∧ t.rd (K.IN_RUN m 1) = 2 ^ 63 + (s.tod + 999) / 20000000 % 2 ^ 48 ∧
      (2 ^ 63 ≤ s.rd (K.IN_RUN m 1) → t.rd (K.IN_LAST m 1) = s.rd (K.IN_RUN m 1)) ∧ 2 ^ 63 ≤ t.rd (K.IN_LAST m 1) ∧
      (∀ j, 2 ≤ j → j ≤ 11 → t.rd (K.IN_LAST m j) = s.runWas (K.IN_RUN m j) ∧
        t.rd (K.IN_RUN m j) = s.rd (K.IN_RUN m j) - s.runWas (K.IN_RUN m j)) ∧
      (∀ j, 2 ≤ j → j ≤ 11 → ¬ cleared (K.IN_TOTAL m 1) →
        t.rd (K.IN_TOTAL m j) = (s.rd (K.IN_TOTAL m j) + s.runWas (K.IN_RUN m j)) % 2 ^ 64) ∧
      (∀ j, 2 ≤ j → j ≤ 7 → t.rd (K.AIN_LAST m j) = s.runWas (K.AIN_RUN m j)) ∧ StoresKept s t)

/-- Received lines are checked and stored. Below ALIGNED a line is nothing. A good line of an input without a format only shows that TRS
arrive. Each TRS of a line that is wrong or missing, a wrong line number and a wrong CRC of an input that is not SD each count in their
own counter. A good line of a VALID input becomes the line in use, and its key row where the input is a key, and goes, at its row, to
the slot its ring is writing; where none takes the present frame no byte changes. -/
def Obligations.ReceivedLines : Prop :=
  ∀ (n : Fin 48) (s : State) (line ln : Nat) (off : Int) (px : List Nat),
    let m := n.val
    let up (j i : Nat) := min (s.rd (K.IN_RUN m j) + i) 0xFFFFFFFF
    let keyIn := s.rd (K.IN_CFG_KEY_INPUT m) == 1
    let got := if s.rd (K.IN_STAT_SAMPLING m) = 0 then widen422 keyIn px else widen444 keyIn px
    (∀ (trs : Nat) (ok : Bool), s.rd (K.IN_STAT_STATE m) < 3 → Idles (.rxLine n line trs off ln ok px) s) ∧
    (3 ≤ s.rd (K.IN_STAT_STATE m) → s.rd (H.linkFmt m) = 0 → Does (.rxLine n line 0 off line true px) s
      [(H.trsAt m, s.now), (H.trsRun m, 0)] []) ∧
    (3 ≤ s.rd (K.IN_STAT_STATE m) → s.rd (H.linkFmt m) = 0 → s.rd (K.IN_STAT_MAPPING m) ≠ 1 → s.primaryOf m = none →
      (ln ≠ line → Ends (.rxLine n line 0 off ln true px) s (fun t => t.rd (K.IN_RUN m 3) = up 3 1 ∧ t.rd (K.IN_RUN m 2) = s.rd (K.IN_RUN m 2) ∧
        t.rd (K.IN_RUN m 4) = s.rd (K.IN_RUN m 4))) ∧
      Ends (.rxLine n line 0 off line false px) s (fun t => t.rd (K.IN_RUN m 4) = up 4 1 ∧ t.rd (K.IN_RUN m 2) = s.rd (K.IN_RUN m 2) ∧
        t.rd (K.IN_RUN m 3) = s.rd (K.IN_RUN m 3)) ∧
      (∀ e v : Nat, 1 ≤ e → e ≤ 2 → 1 ≤ v → v ≤ 2 → Ends (.rxLine n line (e + 4 * v) off line true px) s (fun t =>
        t.rd (K.IN_RUN m 2) = up 2 2 ∧ t.rd (K.IN_RUN m 3) = s.rd (K.IN_RUN m 3) ∧ t.rd (H.trsAt m) = s.rd (H.trsAt m))) ∧
      (∀ e : Nat, 1 ≤ e → e ≤ 2 → Ends (.rxLine n line e off line true px) s (fun t => t.rd (K.IN_RUN m 2) = up 2 1 ∧
        t.rd (K.IN_RUN m 3) = s.rd (K.IN_RUN m 3) ∧ t.rd (K.IN_RUN m 4) = s.rd (K.IN_RUN m 4) ∧ t.rd (H.trsAt m) = s.now))) ∧
    (∀ c row : Nat, 3 ≤ s.rd (K.IN_STAT_STATE m) → s.rd (H.linkFmt m) = c + 1 → c ≠ 0xFF → lineRow c line = some row →
      let f := if 2 ≤ (activeLines c).length ∧ ((activeLines c).getD 1 (0, 0)).1 ≤ line then 1 else 0
      let words := got.map Pix.word
      let u := (((s.wr (H.trsAt m) s.now).wr (H.trsRun m) 0).setVec (H.rxLine m) words).setVec (H.rxAct (2 * m + f)) words
      exec (.rxLine n line 0 off line true px) s = .next ((if keyIn then u.setVec (H.keyRow (m * 8192 + row)) words else u).ringLine m row got) ∧
      (s.ringOf m = none →
        Ends (.rxLine n line 0 off line true px) s (fun t => (∀ a, t.rdMem a = s.rdMem a) ∧ t.vec (H.rxAct (2 * m + f)) = words)))

/-- Ancillary packets are quarantined, filtered, limited or forwarded. A packet with wrong parity, with a wrong checksum where these are
quarantined, running out of blanking or lying in the active picture goes to the quarantine, at its head, and counts; of an ordinary
packet (no payload identifier, timecode or audio) one that the filter drops counts in its counter, one beyond the limit of its line in
another, and one that passes counts as forwarded and, of a supported signal, is kept for the frame. Below ALIGNED a packet is nothing. -/
def Obligations.AncillaryPackets : Prop :=
  ∀ (n : Fin 48) (a : Anc) (s : State),
    let m := n.val
    let did := a.did % 256
    let sdid := a.sdid % 256
    let x := 16 * m + a.link % 16
    let why := ancReason a
    let up (j : Nat) := min (s.rd (K.IN_RUN m j) + 1) 0xFFFFFFFF
    let marks (j : Nat) : List Nat := [K.IN_RUN m j, H.cntWas (K.IN_RUN m j), H.cntAt (K.IN_RUN m j)]
    let plain : Prop := why = 0 ∧ ¬ (did = 0x41 ∧ sdid = 1) ∧ ¬ (did = 0x60 ∧ sdid = 0x60) ∧ audioDid did = false ∧ s.rd (H.ancLine x) = a.line
    (s.rd (K.IN_STAT_STATE m) < 3 → Idles (.ancPacket n a) s) ∧
    (3 ≤ s.rd (K.IN_STAT_STATE m) → why ≠ 0 → (why ≠ 2 ∨ s.rd (K.IN_ANC_CHECKSUM m) = 0) → Ends (.ancPacket n a) s (fun t =>
      t.rd (K.IN_QUAR_HEAD m) = (s.rd (K.IN_QUAR_HEAD m) + 1) % 2 ^ 32 ∧ t.rd (K.IN_RUN m 10) = up 10 ∧ t.rd (K.IN_RUN m 7) = s.rd (K.IN_RUN m 7) ∧
      StoresKept s t ∧ t.vec (H.ancFwd m) = s.vec (H.ancFwd m))) ∧
    (3 ≤ s.rd (K.IN_STAT_STATE m) → plain →
      (s.ancPass m did sdid = false → Changes (.ancPacket n a) s [(K.IN_RUN m 8, up 8)] (marks 8) []) ∧
      (s.ancPass m did sdid = true → s.rd (K.IN_ANC_MAX_PER_LINE m) ≤ s.rd (H.ancCnt x) →
        Ends (.ancPacket n a) s (fun t => t.rd (K.IN_RUN m 9) = up 9 ∧ t.rd (K.IN_RUN m 7) = s.rd (K.IN_RUN m 7) ∧
          t.vec (H.ancFwd m) = s.vec (H.ancFwd m) ∧ StoresKept s t)) ∧
      (s.ancPass m did sdid = true → s.rd (H.ancCnt x) < s.rd (K.IN_ANC_MAX_PER_LINE m) → s.rd (H.ancCnt x) < 2 ^ 16 - 1 →
        (s.rd (H.linkFmt m) = 0x100 → Changes (.ancPacket n a) s [(K.IN_RUN m 7, up 7), (H.ancCnt x, s.rd (H.ancCnt x) + 1)] (marks 7) []) ∧
        (s.rd (H.linkFmt m) ≠ 0x100 → s.ringOf m = none → Ends (.ancPacket n a) s (fun t =>
          t.rd (K.IN_RUN m 7) = up 7 ∧ t.rd (H.ancCnt x) = s.rd (H.ancCnt x) + 1 ∧ t.vec (H.ancFwd m) = s.vec (H.ancFwd m) ++ ancRecord a ∧
          RegsKept (marks 7 ++ [H.ancCnt x]) s t ∧ raisedOf t = raisedOf s ∧ StoresKept s t))))

/-- A pair of inputs selects and reverts. BRACKET.SELECT is BUSY for an input that is not healthy and for an input that leads no pair;
else the pair takes the input. BRACKET_REVERT takes the primary back after enough healthy frames, with REVERT set, and otherwise changes
nothing. -/
def Obligations.PairsOfInputs : Prop :=
  ∀ (n : Fin 48) (s : State),
    let p := n.val
    let back : Prop := s.rd (K.IN_BRACKET_ROLE p) = 1 ∧ s.rd (K.IN_BRACKET_REVERT p) = 1 ∧ s.rd (K.IN_BRACKET_STATE p) = 3 ∧
      s.rd (K.IN_BRACKET_REVERT_FRAMES p) ≤ s.rd (H.brHealthy p) ∧ s.healthy p p = true
    let from' := s.rd (K.IN_BRACKET_ACTIVE p)
    let new := if s.healthy p (s.rd (K.IN_BRACKET_PARTNER p)) then 1 else 2
    (back → from' ≠ p → s.rd (K.IN_BRACKET_PARTNER p) ≠ p → Does (.bracketRevert n) s [(K.IN_BRACKET_ACTIVE p, p), (K.IN_BRACKET_STATE p, new)]
      [(0x200C, inIdx p, p, (2 * 65536 + from' * 256 + p) % 2 ^ 32), (0x200E, inIdx p, p, new)]) ∧
    (¬ back → Idles (.bracketRevert n) s) ∧
    (∀ (q : Req) (i v : Nat), Serves s q i → holds (s.rd (K.SESS_RIGHTS i)) 1 = true → v ≤ 1 →
      let x := if v = 0 then p else s.rd (K.IN_BRACKET_PARTNER p)
      (s.rd (K.IN_BRACKET_ROLE p) ≠ 1 ∨ s.healthy p x = false → exec (.bracketSelect q n v) s = .next (declined s q i (K.IN_BRACKET_SELECT p) 5 [] id)) ∧
      (s.rd (K.IN_BRACKET_ROLE p) = 1 → s.healthy p x = true → Ends (.bracketSelect q n v) s (fun t => t.rd (K.IN_BRACKET_ACTIVE p) = x ∧
        t.rd (K.IN_BRACKET_SELECT p) = v ∧ t.rd K.IDENT_CFG_SEQ = (s.rd K.IDENT_CFG_SEQ + 1) % 2 ^ 64 ∧ StoresKept s t)))

/-- A buffer is allocated, becomes READY, is freed, and is forced. ALLOC of a FREE buffer without a mirror takes the lowest address of
its stack where the whole pages fit, overlapping no allocation; it is WRITING from then. Without room, or on a stack that is not usable
(log 73), the answer is BUSY with BUF_ALLOC_FAIL, of a geometry that breaks the format's rules RANGE (log 75), of a buffer that is not
FREE BUSY. A written STATE: WRITING becomes READY when nobody writes it, READY becomes WRITING when nobody holds it, either becomes FREE
and returns its space, RETIRING notes the wish; else BUSY. 0x80 frees a buffer at once where no reader and no commit names it, with
BUF_FORCED. -/
def Obligations.BufferLifecycle : Prop :=
  ∀ (q : Req) (i : Nat) (b : Fin 2048) (s : State), Serves s q i → holds (s.rd (K.SESS_RIGHTS i)) 1 = true →
    let n := b.val
    let st := s.rd (K.BUF_STATE n)
    let pitch := s.bufPitch n
    let size := pages (pitch * s.rd (K.BUF_HEIGHT n))
    let want := s.rd (K.BUF_STACK n)
    let free (k : Nat) : Nat := if s.stackReady k then freeOn s.allocs k else 0
    let stack := if want = 2 then (if free 0 < free 1 then 1 else 0) else want
    let fit := if s.stackReady stack then lowestFit s.allocs stack size else none
    let moved (old new : Nat) := (0x5008, 0x6000 + n, n, old * 256 + new)
    let held := s.bufHeld n = true
    let frees (c : Instr) (ev : List (Nat × Nat × Nat × Nat)) : Prop := Ends c s (fun t => t.rd (K.BUF_STATE n) = 0 ∧ t.rd (K.BUF_SIZE n) = 0 ∧
      t.rd (K.BUF_REFCOUNT n) = 0 ∧ t.allocs = (s.allocs.filter (fun p => p.1 != n)).filter (fun p => p.1 != 4096 + n) ∧
      raisedOf t = raisedOf s ++ ev ∧ StoresKept s t)
    (st ≠ 0 → exec (.bufAlloc q b) s = .next (declined s q i (K.BUF_ALLOC n) 5 [] id)) ∧
    (st = 0 → s.geomBad n = true → exec (.bufAlloc q b) s = .next (declined s q i (K.BUF_ALLOC n) 4 [] id)) ∧
    (st = 0 → s.geomBad n = false → fit = none → exec (.bufAlloc q b) s = .next (declined s q i (K.BUF_ALLOC n) 5 []
      (fun m => m.raise 0x500B (0x6000 + n) n (if s.stackReady stack then largestOn s.allocs stack / 4096 else 0)))) ∧
    (∀ a : Nat, st = 0 → s.geomBad n = false → s.rd (K.BUF_PROTECT n) ≠ 2 → fit = some a →
      (∀ p ∈ s.allocs, overlaps a size p.2.1 p.2.2 = false) ∧ stackBase stack ≤ a ∧ a + size ≤ stackBase stack + bufSpace ∧
      Ends (.bufAlloc q b) s (fun t => t.rd (K.BUF_STATE n) = 1 ∧ t.rd (K.BUF_ADDR n) = a ∧ t.rd (K.BUF_SIZE n) = size ∧
        t.rd (K.BUF_PITCH n) = pitch ∧ t.rd (K.BUF_STACK n) = stack ∧ t.rd (K.BUF_REFCOUNT n) = 0 ∧ t.rd (K.BUF_DAMAGED n) = 0 ∧
        t.allocs = s.allocs ++ [(n, a, size)] ∧ t.rd K.COMMIT_NEXT_SEQ = (s.rd K.COMMIT_NEXT_SEQ + 1) % 2 ^ 32 ∧
        raisedOf t = raisedOf s ++ [moved 0 1] ∧ StoresKept s t)) ∧
    (s.cstHolds n = true → ∀ v, v ≤ 2 → exec (.bufStateWrite q b v) s = .next (declined s q i (K.BUF_STATE n) 5 [] id)) ∧
    (s.cstHolds n = false →
      (∀ v, v ≤ 2 → v = st → Writes (.bufStateWrite q b v) s q i (K.BUF_STATE n) [] []) ∧
      (st = 1 → s.rd (K.BUF_WRITER n) = 0 → Writes (.bufStateWrite q b 2) s q i (K.BUF_STATE n) [(K.BUF_STATE n, 2)] [moved 1 2]) ∧
      (st = 1 → s.rd (K.BUF_WRITER n) ≠ 0 → exec (.bufStateWrite q b 2) s = .next (declined s q i (K.BUF_STATE n) 5 [] id)) ∧
      (st = 2 → ¬ held → s.rd (H.bufFree n) = 0 →
        Writes (.bufStateWrite q b 1) s q i (K.BUF_STATE n) [(K.BUF_STATE n, 1), (K.BUF_DAMAGED n, 0)] [moved 2 1]) ∧
      (st = 2 → held → exec (.bufStateWrite q b 1) s = .next (declined s q i (K.BUF_STATE n) 5 [] id)) ∧
      ((st = 1 ∨ st = 2) → ¬ held → s.rd (K.BUF_WRITER n) = 0 → frees (.bufStateWrite q b 0) [moved st 0]) ∧
      (st = 4 → s.bufPending n = 0 → Writes (.bufStateWrite q b 0) s q i (K.BUF_STATE n) [(H.bufFree n, 1)] []) ∧
      (st = 3 → ∀ v, v ≤ 2 → exec (.bufStateWrite q b v) s = .next (declined s q i (K.BUF_STATE n) 5 [] id)) ∧
      (st = 0 → Writes (.bufForced q b) s q i (K.BUF_STATE n) [] []) ∧
      ((st = 1 ∨ st = 2) → s.rd (K.BUF_REFCOUNT n) = 0 → s.com = [] →
        frees (.bufForced q b) [(0x500A, 0x6000 + n, n, 0), moved st 0]) ∧
      (st = 3 → s.rd (K.BUF_REFCOUNT n) ≠ 0 → Ends (.bufForced q b) s (fun t => t.rd (K.BUF_STATE n) = 4 ∧ t.rd (H.bufFree n) = 1)))

/-- The window reads and writes the frame store. A unit of the window that lies in a buffer and is served reads as its 32 bytes, one
that no copy serves marks the buffer DAMAGED, one outside a buffer answers RANGE. A written unit that no guard holds goes to the frame
store, byte for byte where the buffer has no mirror and its slots serve; where the guard blocks it the answer is BUSY, reported, and no
byte changes. -/
def Obligations.WindowAccess : Prop :=
  ∀ (q : Req) (i : Nat) (u : Fin 256) (s : State), Serves s q i → 1 ≤ u.val → u.val ≤ 40 →
    let k := u.val
    let a := s.winAddr k
    let head := [0x68, 0x11, k, 0]
    (holds (s.rd (K.SESS_RIGHTS i)) 2 = true →
      (s.winInside k k = true → (s.fsByte a).isSome = true →
        exec (.winDataRead q false u u) s = .next (replied s q i 0x10 0 (head ++ bytesBE 32 (s.winGet k)) (arrived q i s))) ∧
      (s.winInside k k = true → s.fsByte a = none → Ends (.winDataRead q false u u) s (fun t => t.rd (K.BUF_DAMAGED (s.ownerBuf a)) = 1 ∧ StoresKept s t)) ∧
      (s.winInside k k = false → exec (.winDataRead q false u u) s = .next (replied s q i 0x10 4 head (arrived q i s)))) ∧
    (holds (s.rd (K.SESS_RIGHTS i)) 2 = true → ∀ l : List Nat, l.length = 32 → (∀ x ∈ l, x < 256) →
      (s.winInside k k = false → exec (.winDataWrite q false u u l) s = .next (replied s q i 0x11 4 head (arrived q i s))) ∧
      (s.winInside k k = true → s.guardHit a 32 = none →
        exec (.winDataWrite q false u u l) s = .next (wrote s q i (K.at' 0x6811 k) (fun n => n.winPut k (ofBytes l)))) ∧
      (s.winInside k k = true → s.guardHit a 32 = none → (∀ j < 32, s.mirrorOf (a + j) = none ∧ s.deadAt (a + j) = false) →
        Ends (.winDataWrite q false u u l) s (fun t => (∀ j < 32, t.rdMem (a + j) = l.getD j 0) ∧
          (∀ c, (c < a ∨ a + 32 ≤ c) → t.rdMem c = s.rdMem c) ∧ t.lat = s.lat ∧ t.com = s.com)) ∧
      (∀ p : Alloc, s.winInside k k = true → s.guardHit a 32 = some p → (s.guarded s.mgmtMaster a p).2 = true →
        Ends (.winDataWrite q false u u l) s (fun t => (∀ c, t.rdMem c = s.rdMem c) ∧
          t.rd K.BMX_GUARD_HITS = min (s.rd K.BMX_GUARD_HITS + 1) 0xFFFFFFFF ∧ t.rd K.IDENT_CFG_SEQ = s.rd K.IDENT_CFG_SEQ)))

/-- A target port grants the highest level, and every burst completes once. Of the bursts that may leave for the port, each the first of
its stream there, the one granted has the highest level and among equals the next turn after the last master granted; it is in flight
with the completion code of its address phase, its master's port is ACTIVE with one more outstanding, and no byte changes. Where none
may leave, the port only remembers what waits. The oldest burst of a target closes: a write with code 0 writes its beats under their
masks and nothing else, one with another code writes nothing; a clean read of bytes that are served delivers them, one with an
uncorrectable unit and no mirror is counted and delivers zeros; a failed burst enters the error log, and one without a path counts and
is reported. LOCK_TIMEOUT ends an overdue lock whose closing burst is not granted in the tick; a drain ends a resetting port's bursts;
the scrubber steps on, counting what it corrects. -/
def Obligations.BurstsAreGrantedAndComplete : Prop :=
  (∀ (t : Nat) (l : List Burst) (s : State), t < 128 → (∀ b ∈ l, b.master < 128) →
    let may (b : Burst) : Prop := b ∈ l ∧ s.burstReady t b = true ∧ streamFirst l b = true
    let order (b : Burst) : Nat := turn (s.rd (H.lastGrant t)) b.master
    ((∀ b, ¬ may b) → Changes (.burstGrant t l) s [] [] []) ∧
    ((∃ b, may b) → ∃ b, may b ∧
      (∀ x, may x → s.burstLevel x ≤ s.burstLevel b ∧ (s.burstLevel x = s.burstLevel b → order b ≤ order x)) ∧
      Ends (.burstGrant t l) s (fun u => u.bursts = s.bursts ++ [⟨b, t, ((s.burstWaits t (l.erase b)).addressPhase t b).2⟩] ∧
        u.rd (H.lastGrant t) = b.master + 1 ∧
        u.rd (K.PORT_STATE b.master) = 1 ∧ u.rd (K.PORT_OUTSTANDING b.master) = (s.rd (K.PORT_OUTSTANDING b.master) + 1) % 256 ∧
        StoresKept s u))) ∧
  (∀ (s : State),
    (∀ (t : Nat) (ecc : List Nat), (∀ f ∈ s.bursts, f.target ≠ t) → Idles (.burstCompletion t ecc) s) ∧
    (∀ (t : Nat) (ecc : List Nat) (f : Flight), s.bursts.find? (fun f => f.target == t) = some f → f.b.master < 128 →
      let u := ({ s with bursts := s.bursts.erase f } : State).portClose f.b.master
      (f.b.write = true → f.code = 0 →
        exec (.burstCompletion t ecc) s = .next ((u.lockEnds t f).writeBeats f.b.addr f.b.beats f.b.beats.length)) ∧
      (f.b.write = true → f.code ≠ 0 → Ends (.burstCompletion t ecc) s (fun v => v.bursts = s.bursts.erase f ∧ (∀ a, v.rdMem a = s.rdMem a) ∧
        v.rd K.ERRLOG_HEAD = (s.rd K.ERRLOG_HEAD + 1) % 2 ^ 32 ∧
        raisedOf v = raisedOf s ++ (if f.code = 3 then [(0x500D, 0xE000, (f.b.master * 256 + t) % 2 ^ 32, f.b.addr / 256 % 2 ^ 32)] else []) ∧
        (f.code = 3 → v.rd K.BMX_NOMAP = min (s.rd K.BMX_NOMAP + 1) 0xFFFFFFFF))) ∧
      (f.b.write = false → f.code = 0 → ecc = [] →
        (∀ j < 64 * f.b.beats.length, s.fsByte (f.b.addr + j) = some (s.rdMem (f.b.addr + j))) → Ends (.burstCompletion t ecc) s (fun v =>
          v.vec (H.busData f.b.master) = s.rdMems f.b.addr (64 * f.b.beats.length) ∧ v.bursts = s.bursts.erase f ∧
          (∀ a, v.rdMem a = s.rdMem a) ∧ raisedOf v = raisedOf s)) ∧
      (f.b.write = false → f.code = 0 → ecc = [2] → f.b.beats ≠ [] → (slotAtAddr f.b.addr).isSome = true → s.mirrorSynced f.b.addr = false →
        Ends (.burstCompletion t ecc) s (fun v => v.vec (H.busData f.b.master) = List.replicate (64 * f.b.beats.length) 0 ∧
          v.rd K.FS_ECC_UNCORRECTABLE = (s.rd K.FS_ECC_UNCORRECTABLE + 1) % 2 ^ 64 ∧ v.rd K.ERRLOG_HEAD = (s.rd K.ERRLOG_HEAD + 1) % 2 ^ 32))) ∧
    (∀ (t : Nat), t < 128 → s.rd (H.lockBy t) ≤ 128 →
      let m := s.rd (H.lockBy t) - 1
      (s.rd (H.lockBy t) ≠ 0 → s.rd (H.lockClose t) ≠ 1 → s.rd (H.lockEnd t) ≤ s.now → s.arrives (closesLock t m) = false → Does (.lockTimeout t) s [(H.lockBy t, 0), (H.lockCnt t, 0),
        (H.lockBroken (m * 128 + t), 1), (K.BMX_LOCK_TIMEOUTS, min (s.rd K.BMX_LOCK_TIMEOUTS + 1) 0xFFFFFFFF)]
        [(0x500E, 0xE000, m * 256 + t, s.rd (H.lockDone t) % 2 ^ 32)]) ∧
      (s.rd (H.lockBy t) = 0 ∨ s.rd (H.lockClose t) = 1 ∨ s.now < s.rd (H.lockEnd t) ∨ s.arrives (closesLock t m) = true → Idles (.lockTimeout t) s)) ∧
    (∀ (m : Nat) (l : List Nat), m < 128 → (m = 0x70 → s.rd K.CST_STATUS_STATE ≠ 2) →
      (s.rd (K.PORT_STATE m) ≠ 2 → Idles (.masterDrain m l) s) ∧
      (s.rd (K.PORT_STATE m) = 2 → Ends (.masterDrain m l) s (fun v => v.bursts = s.bursts.filter (fun f => f.b.master != m) ∧
        v.rd (K.PORT_STATE m) = 3 ∧ v.rd (K.PORT_OUTSTANDING m) = 0 ∧
        ((∀ f ∈ s.bursts, f.b.master = m → f.b.write = false ∨ f.code ≠ 0) → ∀ a, v.rdMem a = s.rdMem a)))) ∧
    (∀ l : List Nat, s.rd (K.PORT_STATE 0x70) = 2 → s.rd K.CST_STATUS_STATE = 2 → Ends (.masterDrain 0x70 l) s (fun v =>
      v.rd (K.PORT_STATE 0x70) = 3 ∧ v.rd K.CST_STATUS_STATE = 0 ∧ v.rd K.CST_STATUS_END_TIME = s.todP ∧
      v.bursts = s.bursts.filter (fun f => f.b.master != 0x70))) ∧
    (∀ (st : Fin 2) (off : Nat), Changes (.scrub st off 0) s [(H.scrubPos, off + 32)] [] [] ∧
      (off < bufSpace → Ends (.scrub st off 1) s (fun v => v.rd H.scrubPos = off + 32 ∧
        v.rd K.FS_ECC_CORRECTED = (s.rd K.FS_ECC_CORRECTED + 1) % 2 ^ 64 ∧ (∀ a, v.rdMem a = s.rdMem a)))))

/-- A pseudo-channel fails, a slot is rebuilt, a mirror is synced. A pseudo-channel that has failed already changes nothing more.
Failing, the spare leaves the map with PC_FAIL; one that serves a slot, whose content is lost where no mirror keeps it, hands it to the
spare, to be rebuilt, or, without one, leaves the slot dead and the stack with one slot fewer. A rebuilt slot serves again. A buffer's
mirror that is copied holds the buffer's bytes and is in sync, as is a ring's after three frames. -/
def Obligations.PseudoChannelsAndMirrors : Prop :=
  ∀ (s : State),
    (∀ (st : Fin 2) (q : Fin 32),
      let x := 32 * st.val + q.val
      let arg := st.val * 256 + q.val
      let map := bytesBE 32 (s.rd (pcmapKey st.val))
      let spare := map.getD 31 0xFF
      let serves (sl : Nat) : Prop := (List.range 31).find? (fun i => map.getD i 0xFF == q.val && s.rd (H.slotDead (32 * st.val + i)) == 0) = some sl
      (s.rd (H.pcFailed x) = 1 → exec (.pcFail st q none) s = .next s.protSync) ∧
      (s.rd (H.pcFailed x) ≠ 1 → spare = q.val → Settles (.pcFail st q none) s
        [(H.pcFailed x, 1), (pcmapKey st.val, packBE 8 (map.set 31 0xFF))] [(0x5003, 0x6800, arg, 0xFF)]) ∧
      (∀ sl : Nat, s.rd (H.pcFailed x) ≠ 1 → spare ≠ q.val → serves sl →
        (∀ p ∈ s.allocs, p.1 < 2048 ∨ (4096 ≤ p.1 ∧ p.1 < 6144) ∨ (8192 ≤ p.1 ∧ p.1 < 8240) ∨ (12288 ≤ p.1 ∧ p.1 < 12336)) →
        (spare ≠ 0xFF → ∃ u : State, exec (.pcFail st q none) s = .next u.protSync ∧ u.rd (H.pcFailed x) = 1 ∧
          u.rd (H.slotLost (32 * st.val + sl)) = 1 ∧ u.rd (H.slotRebuild (32 * st.val + sl)) = 1 ∧ u.rd (pcmapKey st.val) = packBE 8 (((map.set sl spare)).set 31 0xFF)) ∧
        (spare = 0xFF → ∃ u : State, exec (.pcFail st q none) s = .next u.protSync ∧ u.rd (H.pcFailed x) = 1 ∧
          u.rd (H.slotLost (32 * st.val + sl)) = 1 ∧ u.rd (H.slotDead (32 * st.val + sl)) = 1 ∧
          u.rd (if st.val = 0 then K.FS_USABLE_S0 else K.FS_USABLE_S1) = s.rd (if st.val = 0 then K.FS_USABLE_S0 else K.FS_USABLE_S1) - 1))) ∧
    (∀ (st : Fin 2) (sl : Fin 31),
      let k := H.slotRebuild (32 * st.val + sl.val)
      (s.rd k = 0 → exec (.pcRebuildDone st sl) s = .next s.protSync) ∧
      (s.rd k ≠ 0 → s.mirrorsOn st.val sl.val = [] → Settles (.pcRebuildDone st sl) s [(k, 0)] [])) ∧
    (∀ id : Nat, id < 2048 →
      (s.rd (K.BUF_MIRROR id) ≠ 1 → exec (.mirrorSynced id) s = .next s.protSync) ∧
      (s.rd (K.BUF_MIRROR id) = 1 → ∃ u : State, exec (.mirrorSynced id) s = .next u.protSync ∧ u.rd (K.BUF_MIRROR id) = 2 ∧
        RegsKept [K.BUF_MIRROR id] s u ∧
        raisedOf u = raisedOf s ++ [(0x5006, 0x6000 + id, id, min (s.rd (K.BUF_SIZE id)) 0xFFFFFFFF)] ∧
        (∀ j < s.rd (K.BUF_SIZE id), u.rdMem (s.rd (K.BUF_MIRROR_ADDR id) + j) = s.rdMem (s.rd (K.BUF_ADDR id) + j)) ∧
        (∀ a, (a < s.rd (K.BUF_MIRROR_ADDR id) ∨ s.rd (K.BUF_MIRROR_ADDR id) + s.rd (K.BUF_SIZE id) ≤ a) → u.rdMem a = s.rdMem a))) ∧
    (∀ i : Nat, i < 48 → s.rd (K.RING_MIRROR i) = 1 → 3 ≤ s.rd (H.ringSince i) → Settles (.mirrorSynced (0x8000 + i)) s
      [(K.RING_MIRROR i, 2)] [(0x5006, 0x6840 + i, 0x8000 + i, min (3 * s.rd (K.RING_SLOT_BYTES i)) 0xFFFFFFFF)])

/-- LATENT_DISCARD empties the Latent sets of the units named. A write of a UMASK with at least one unit and no reserved bit leaves
exactly the Latent entries whose unit the mask does not name; the committed stage and every register but those a request and its answer
write read as before. -/
def Obligations.LatentDiscardEmpties : Prop :=
  ∀ (q : Req) (i mask : Nat) (s : State), Serves s q i → holds (s.rd (K.SESS_RIGHTS i)) 1 = true → mask < 256 ^ 216 → maskBad mask = false →
    let unit (k : Nat) : Option Nat := keyUnit (fun j => (alGet s.lat j).getD (s.nextRd j)) k
    Ends (.latentDiscard q mask) s (fun t =>
      t.lat = s.lat.filter (fun p => match unit p.1 with | some u => !(maskUnits mask).contains u | none => true) ∧
      (∀ p ∈ s.lat, ∀ u ∈ maskUnits mask, unit p.1 = some u → p ∉ t.lat) ∧
      (∀ p ∈ s.lat, (∀ u ∈ maskUnits mask, unit p.1 ≠ some u) → p ∈ t.lat) ∧ (∀ p ∈ t.lat, p ∈ s.lat) ∧
      t.com = s.com ∧ t.due = s.due ∧ (∀ a, t.rdMem a = s.rdMem a) ∧ (∀ a, t.rdFlash a = s.rdFlash a) ∧ raisedOf t = raisedOf s ∧
      t.rd K.LATENT_DISCARD = mask ∧ t.rd K.IDENT_CFG_SEQ = (s.rd K.IDENT_CFG_SEQ + 1) % 2 ^ 64 ∧
      RegsKept (arrivalKeys i ++ [K.LATENT_DISCARD, K.IDENT_CFG_SEQ]) s t)

/-- Salvos wait for a time and for a trigger, develop, and are cancelled. A SCHEDULED salvo whose T is reached is ARMED if it has a
trigger, else its units without timing develop. An edge at a READY pin of function SALVO_TRIGGER during the 10 ms of its hold-off, or
with no ARMED salvo, is only reported; else every ARMED salvo of the pin that was accepted in an earlier tick is DEVELOPING, flagged and
reported, and no other changes state. A family's development point pays what it owes. A CANCEL of another state, or of a salvo whose
trigger waits in the tick, is BUSY; one that admission refuses is BUSY and reported; else the salvo is CANCELLED and its values are
Latent again unless a newer one is. ADM.CHECK only records what admission answers. -/
def Obligations.SalvosWaitAndFire : Prop :=
  ∀ (s : State),
    (∀ v : Fin 64,
      let st := s.rd (K.SLV_STATE v.val)
      let reached : Prop := ofPtime (s.rd (K.SLV_AT v.val)) ≤ s.tod + 999
      let units := maskUnits (s.rd (K.SLV_UNITS v.val))
      (st ≠ 2 ∨ ¬ reached → Idles (.commitAtTimeReached v) s) ∧
      (st = 2 → reached → s.rd (K.SLV_TRIGGER v.val) ≠ 0xFF → Does (.commitAtTimeReached v) s [(K.SLV_STATE v.val, 1)] []) ∧
      (st = 2 → reached → s.rd (K.SLV_TRIGGER v.val) = 0xFF →
        exec (.commitAtTimeReached v) s = .next ((s.freeUnits units).comSync units) ∧
        ((∀ u ∈ units, s.unitStopped u = false) → exec (.commitAtTimeReached v) s = .next (s.comSync units)))) ∧
    (∀ p : Fin 32,
      let h := s.rd (H.trigHold p.val)
      let mine : Prop := s.pdReady 55 = true ∧ s.rd (K.PIN_FUNC p.val) = 6
      let held : Prop := h ≠ 0 ∧ s.now < h + 10000
      let armed (v : Nat) : Prop := v < 64 ∧ s.rd (K.SLV_STATE v) = 1 ∧ s.rd (K.SLV_TRIGGER v) = p.val ∧
        ∀ d ∈ s.due, d.seq = s.rd (K.SLV_SEQ v) → d.at' ≠ s.now
      (¬ mine → Idles (.salvoTrigger p) s) ∧
      (mine → held → Does (.salvoTrigger p) s [] [(0x800C, 0x1E00, p.val, 1)]) ∧
      (mine → ¬ held → (∀ v, ¬ armed v) → Does (.salvoTrigger p) s [] [(0x800C, 0x1E00, p.val, 0)]) ∧
      (mine → ¬ held → (∃ v, armed v) → ∃ (u : State) (units : List Nat), exec (.salvoTrigger p) s = .next ((u.freeUnits units).comSync units) ∧
        u.rd (H.trigHold p.val) = s.now + 1 ∧ u.lat = s.lat ∧ u.com = s.com ∧ u.due.map Due.seq = s.due.map Due.seq ∧
        (∀ v, armed v → u.rd (K.SLV_STATE v) = 3 ∧ (u.rd (K.SLV_FLAGS v)).testBit 2 = true ∧
          (0x800B, 0x1440 + v, p.val * 256 + v, s.tod % 1000000000) ∈ raisedOf u ∧
          (∀ w ∈ maskUnits (s.rd (K.SLV_UNITS v)), w ∈ units)) ∧
        (∀ v < 64, ¬ armed v → u.rd (K.SLV_STATE v) = s.rd (K.SLV_STATE v) ∧ u.rd (K.SLV_FLAGS v) = s.rd (K.SLV_FLAGS v))) ∧
      (h ≠ 0 → h + 9999 ≤ s.now → Does (.triggerHoldoffEnd p) s [(H.trigHold p.val, 0)] []) ∧
      (h = 0 ∨ s.now < h + 9999 → Idles (.triggerHoldoffEnd p) s)) ∧
    (∀ (g : Fin 8) (t : Nat),
      let u := unitGsyn g.val
      (s.unitStopped u = true ∨ s.eligible u false = [] → Idles (.gsynDevelopment g t) s) ∧
      (s.unitStopped u = false → s.eligible u false ≠ [] → Ends (.gsynDevelopment g t) s (fun r =>
        (∀ d ∈ s.eligible u false, d ∉ r.due) ∧ (∀ d ∈ r.due, d ∈ s.due) ∧ (∀ c ∈ r.com, c ∈ s.com) ∧ r.lat = s.lat ∧
        r.vec (H.devWait u) = [] ∧ (∀ a, r.rdMem a = s.rdMem a))) ∧
      (s.unitStopped u = false → s.eligible u false ≠ [] → (∀ d ∈ s.due, d.salvo < 64) → s.vec (H.devWait u) = [] → Ends (.gsynDevelopment g t) s (fun r =>
        r.rd (devKey u 1) = familyFrame t (toInt 32 (r.rd (K.GSYN_PHASE_OFFSET g.val))) (r.rd (K.GSYN_RATE g.val)) % 2 ^ 48 ∧
        r.rd (devKey u 2) = ptime t))) ∧
    (∀ (q : Req) (i : Nat), Serves s q i → holds (s.rd (K.SESS_RIGHTS i)) 1 = true →
      (∀ mask : Nat, mask < 256 ^ 216 → maskBad mask = true →
        exec (.latentDiscard q mask) s = .next (declined s q i K.LATENT_DISCARD 4 [] id) ∧
        exec (.admCheck q mask) s = .next (declined s q i K.ADM_CHECK 4 [] id)) ∧
      (∀ mask : Nat, mask < 256 ^ 216 → maskBad mask = false →
        let w := ((arrived q i s).askCommit mask).judge (s.rd K.COMMIT_NEXT_SEQ)
        let r := w.refused.getD ⟨0, 0, 0, 0, 0⟩
        Writes (.admCheck q mask) s q i K.ADM_CHECK [(K.ADM_CHECK, mask), (K.CHECK_RESULT_REASON, r.reason),
          (K.CHECK_RESULT_REFUSER, if w.refused.isSome then unitIdx r.unit else 0), (K.CHECK_RESULT_HOLDER, r.holder),
          (K.CHECK_RESULT_LOAD_TOTAL, w.load.1), (K.CHECK_RESULT_LOAD_S0, w.load.2.1), (K.CHECK_RESULT_LOAD_S1, w.load.2.2),
          (K.CHECK_RESULT_CFG_SEQ, (s.rd K.IDENT_CFG_SEQ + 1) % 2 ^ 64)] []) ∧
      (∀ v : Fin 64,
        let st := s.rd (K.SLV_STATE v.val)
        let seq := s.rd (K.SLV_SEQ v.val)
        let a := arrived q i s
        let back := (s.com.filter (fun c => c.seq == seq)).filter (fun c => decide (c.key < 16777216) && (alGet s.lat c.key).isNone)
        let rest : State := { a with
          com := s.com.filter (fun c => c.seq != seq)
          due := s.due.filter (fun d => d.seq != seq)
          lat := back.foldl (fun l c => alSet l c.key c.val) s.lat }
        let w := (a.askCancel rest (s.rd (K.SLV_UNITS v.val))).judge 0
        ((st ≠ 1 ∧ st ≠ 2) ∨ s.triggerDue v.val = true → exec (.slvCancel q v 1) s = .next (declined s q i (K.SLV_CANCEL v.val) 5 [] id)) ∧
        ((st = 1 ∨ st = 2) → s.triggerDue v.val = false → ∀ r : Refuse, w.refused = some r → exec (.slvCancel q v 1) s = .next (declined s q i (K.SLV_CANCEL v.val) 5 []
          (fun m => m.raise 0x800D (0x1440 + v.val) (r.reason * 65536 + unitIdx r.unit) r.holder))) ∧
        ((st = 1 ∨ st = 2) → s.triggerDue v.val = false → w.refused = none → Ends (.slvCancel q v 1) s (fun t => t.rd (K.SLV_STATE v.val) = 6 ∧
          t.rd (K.SLV_CANCEL v.val) = 1 ∧ t.rd K.IDENT_CFG_SEQ = (s.rd K.IDENT_CFG_SEQ + 1) % 2 ^ 64 ∧ (∀ d ∈ t.due, d ∈ s.due ∧ d.seq ≠ seq) ∧
          (∀ k x, alGet s.lat k = some x → alGet t.lat k = some x) ∧
          (∀ c ∈ s.com, c.seq = seq → c.key < 16777216 → alGet s.lat c.key = none →
            ∃ d ∈ s.com, d.seq = seq ∧ d.key = c.key ∧ alGet t.lat c.key = some d.val)))))

/-- A destination takes the good copy of a segment. A segment of a row that a destination takes: a copy nothing changed in transit
passes, of a plane that is off or that brought nothing there is none; where one plane's copy is good the destination holds that one and
loses nothing; where both are good and differ the destination holds that of its preferred plane, and the disagreement is counted while
the Test Strip is free to compare; where neither is good it holds the row before of the same field, and the loss is counted. A returned
plane is in service once it has carried a frame of every destination. RETEST is BUSY unless the plane is FAILED; a retested plane
returns. -/
def Obligations.CrossbarTakesGoodCopies : Prop :=
  ∀ (d : Fin 72) (s : State),
    (∀ (row seg : Nat) (a b : Option (List (Nat × Nat))),
      let c : Instr := .segmentReceived d row seg a b
      let settles (f : State → Prop) : Prop := ∃ t : State, exec c s = .next t.protSync ∧ StoresKept s t ∧ f t
      (s.destSrc d.val = none → exec c s = .next s.protSync) ∧
      (∀ src : Nat, s.destSrc d.val = some src →
        let f := s.portFmt d.val src
        let sz := fmtSize f
        let n := min 256 (sz.1 - 256 * seg)
        let copy (p : Nat) (x : Option (List (Nat × Nat))) : Option (List Nat) := s.segCopy p d.val src row seg x
        let k := H.xbRow (d.val * 8192 + row)
        let holds' (l : List Nat) (t : State) : Prop := t.vec k = splice (s.vec k) (256 * seg) l
        let same (key : Nat) (t : State) : Prop := t.rd key = s.rd key
        let more (key : Nat) (t : State) : Prop := t.rd key = min (s.rd key + 1) 0xFFFFFFFF
        (∀ p : Nat, (s.rd (planeKey p) = 2 → ∀ x, copy p x = none) ∧ copy p none = none ∧
          (s.rd (planeKey p) ≠ 2 → copy p (some []) = some (s.segWords d.val src row seg))) ∧
        (sz.2 ≤ row ∨ sz.1 ≤ 256 * seg → exec c s = .next s.protSync) ∧
        (row < sz.2 → 256 * seg < sz.1 →
          (∀ l, copy 0 a = some l → copy 1 b = some l → settles (fun t => holds' l t ∧ same K.XBAR_SEGMENTS_LOST t ∧ same K.XBAR_DISAGREE t ∧
            (s.rd (H.xbPref d.val) < 2 → raisedOf t = raisedOf s))) ∧
          (∀ l, copy 0 a = some l → copy 1 b = none → settles (fun t => holds' l t ∧ same K.XBAR_SEGMENTS_LOST t ∧ same K.XBAR_DISAGREE t)) ∧
          (∀ l, copy 0 a = none → copy 1 b = some l → settles (fun t => holds' l t ∧ same K.XBAR_SEGMENTS_LOST t ∧ same K.XBAR_DISAGREE t)) ∧
          (∀ l m, copy 0 a = some l → copy 1 b = some m → l ≠ m → settles (fun t => (holds' l t ∨ holds' m t) ∧
            (s.rd (H.xbPref d.val) = 0 → holds' l t) ∧ (s.rd (H.xbPref d.val) = 1 → holds' m t) ∧ same K.XBAR_SEGMENTS_LOST t ∧
            (s.tstripFree = true → more K.XBAR_DISAGREE t) ∧ (s.tstripFree = false → same K.XBAR_DISAGREE t))) ∧
          (copy 0 a = none → copy 1 b = none → settles (fun t => more K.XBAR_SEGMENTS_LOST t ∧ same K.XBAR_DISAGREE t ∧
            holds' (((s.vec (H.xbRow (d.val * 8192 + rowBefore sz.2 row (match fmt f with | some g => g.interlaced | none => false)))).drop
              (256 * seg)).take n) t))))) ∧
    (∀ p : Fin 2,
      let m := s.rd (H.xbRet p.val) ||| 2 ^ d.val
      (s.rd (planeKey p.val) ≠ 3 → Idles (.planeReturnFrame p d) s) ∧
      (s.rd (planeKey p.val) = 3 → (∃ x ∈ s.liveDests, m.testBit x = false) → Settles (.planeReturnFrame p d) s [(H.xbRet p.val, m)] []) ∧
      (s.rd (planeKey p.val) = 3 → (∀ x ∈ s.liveDests, m.testBit x = true) → Settles (.planeReturnFrame p d) s
        [(H.xbRet p.val, m), (planeKey p.val, 0)] [(0x7002, 0x1A01, p.val, 0)])) ∧
    (∀ (q : Req) (i v : Nat), Serves s q i → holds (s.rd (K.SESS_RIGHTS i)) 2 = true → v ≤ 1 →
      (s.rd (planeKey v) ≠ 1 → exec (.xbarRetest q v) s = .next (declined s q i K.XBAR_RETEST 5 [] id)) ∧
      (s.rd (planeKey v) = 1 →
        exec (.xbarRetest q v) s = .next (wrote s q i K.XBAR_RETEST (fun m => ((m.wr K.XBAR_RETEST v).planeReturn v).protSync)) ∧
        (s.liveDests ≠ [] → Ends (.xbarRetest q v) s (fun t => t.rd (planeKey v) = 3))))

/-- A canvas starts, develops, frames follow, it is written back, it stops. An Easel without a cluster, and a stopped one that may not
start, does nothing at a switch line. Where it may start it opens the family's frame; a running one, after a development point of the
same tick, ends its frame, whose counters as they stood before the tick go to LAST and TOTAL, and opens the next or stops. A development
point, one in a frame, is noted, and at the end of its tick the Easel pays what it owes. The end of a ONE_FRAME write-back writes the
canvas to its buffer, which is READY and has no writer. A fence takes the value written. -/
def Obligations.CanvasFrames : Prop :=
  ∀ (e : Fin 16) (s : State),
    let n := e.val
    let u := unitEas n
    let off : Prop := s.unmapped u = true
    let st := s.rd (K.EAS_STATE_TSTATE n)
    let r : State := if (s.vec H.easDev).contains n then (s.setVec H.easDev ((s.vec H.easDev).filter (fun d => d != n))).canvasDevelop n else s
    let next := (r.rd (K.EAS_CANVAS_EVT_FRAME n) + 1) % 2 ^ 48
    (∀ (ns : Nat) (lam : Int),
      let c : Instr := .canvasSwitchLine e ns lam
      let at' := s.tod + ns % 1000
      (off ∨ st = 0 ∧ s.canvasReady n = false → Idles c s) ∧
      (¬ off → st = 0 → s.canvasReady n = true → ∀ f : Fmt, fmt (s.rd (K.EAS_CANVAS_FORMAT n)) = some f →
        let frame := familyFrame ((at' : Int) - offsetNs (toInt 32 (s.rd (K.EAS_CANVAS_TIMING_OFFSET n))) f.rate).toNat
          (toInt 32 (s.rd (K.GSYN_PHASE_OFFSET (s.rd (K.EAS_CANVAS_FAMILY n))))) f.rate
        exec c s = .next ((s.wrs [(K.EAS_STATE_TSTATE n, 1), (K.EAS_RUN n 1, frame)]).canvasOpen n at' frame lam).protSync) ∧
      (¬ off → st ≠ 0 → r.rd (K.EAS_CANVAS_FORMAT n) ≠ 0 →
        exec c s = .next ((r.canvasEnd n next).canvasOpen n at' next lam).protSync) ∧
      (¬ off → st ≠ 0 → r.rd (K.EAS_CANVAS_FORMAT n) = 0 →
        exec c s = .next ((r.canvasEnd n next).canvasStop n at' next).protSync)) ∧
    (∀ j, 2 ≤ j → j ≤ 8 → (s.canvasEnd n next).rd (K.EAS_LAST n j) = s.runWas (K.EAS_RUN n j) ∧
      (s.canvasEnd n next).rd (K.EAS_RUN n j) = s.rd (K.EAS_RUN n j) - s.runWas (K.EAS_RUN n j) ∧
      (s.rd (H.clrAt (K.EAS_TOTAL n 1)) ≠ s.now + 1 →
        (s.canvasEnd n next).rd (K.EAS_TOTAL n j) = (s.rd (K.EAS_TOTAL n j) + s.runWas (K.EAS_RUN n j)) % 2 ^ 64)) ∧
    (let idle : Prop := st = 0 ∨ (s.rd (H.devPassed u) = 1 ∧ s.rd (H.unitWait u) = 0) ∨ s.noCluster u = true
     (idle → Idles (.canvasDevelopment e) s) ∧
     (¬ idle → exec (.canvasDevelopment e) s = .next ((s.wr (H.devPassed u) 1).setVec H.easDev (s.vec H.easDev ++ [n])))) ∧
    (let t := s.canvasDevelop n
     t.lat = s.lat ∧ (∀ d ∈ s.eligible u false, d ∉ t.due) ∧ (∀ d ∈ t.due, d ∈ s.due) ∧ (∀ a, t.rdMem a = s.rdMem a) ∧
      (s.eligible u false ≠ [] → t.rd (devKey u 1) = (t.rd (K.EAS_CANVAS_EVT_FRAME n) + 1) % 2 ^ 48)) ∧
    (s.wbBuf n = none → Idles (.wbDone e) s) ∧
    (∀ b : Nat, s.wbBuf n = some b →
      let ends : Prop := s.air (K.EAS_WB_MODE n) = 2 ∧ s.rd (K.EAS_WB_STATE n) = 1 ∧ st ≠ 0 ∧ ¬ off
      (¬ ends → Idles (.wbDone e) s) ∧
      (ends → s.rd (H.wbRedo n) = 1 → Does (.wbDone e) s [(H.wbRedo n, 0)] []) ∧
      (ends → s.rd (H.wbRedo n) ≠ 1 → Ends (.wbDone e) s (fun t => t.rd (K.EAS_WB_STATE n) = 2 ∧ t.rd (H.wbDone n) = 1 ∧
        t.rd (K.BUF_WRITER b) = 0 ∧ t.rd (K.BUF_STATE b) = 2 ∧ (∀ a, t.rdMem a = (s.writeBack n b).rdMem a) ∧
        t.rd (K.EAS_RUN n 9) = min (s.rd (K.EAS_RUN n 9) + 1) 0xFFFFFFFF ∧ t.lat = s.lat ∧ t.com = s.com ∧
        raisedOf t = raisedOf s ++ (if s.rd (K.BUF_STATE b) = 2 then [] else [(0x5008, 0x6000 + b, b, (s.rd (K.BUF_STATE b) * 256 + 2) % 2 ^ 32)])
          ++ [(0x4207, easIdx n, n, s.rd (K.EAS_CANVAS_EVT_FRAME n) % 2 ^ 32)]))) ∧
    (∀ (q : Req) (i v : Nat) (x : Fin 128), Serves s q i → holds (s.rd (K.SESS_RIGHTS i)) 1 = true → v < 2 ^ 32 →
      Writes (.fenceDoneWrite q x v) s q i (K.LAYER_FENCE_DONE x.val) [(K.LAYER_FENCE_DONE x.val, v)] [])

/-- A Proof region's signature is final, compared and learnt. When the last sample of a region is sent its signature is the complement
of the CRC of the frame. In modes 1 and 2 it is compared with EXPECTED: equal, the region MATCHES, with PROOF_MATCH and the frames that
did not match after a mismatch; different, it MISMATCHES and both counts grow, with PROOF_MISMATCH at the first. In mode 2 with LEARN
pending it becomes EXPECTED. In mode 3 it is compared with the shadow's, or NOT_CHECKED without one. LEARN is BUSY outside mode 2. A
region that is off, or whose output is stopped, does nothing. -/
def Obligations.ProofRegions : Prop :=
  ∀ (p : Fin 64) (s : State),
    let k := p.val
    let n := s.rd (K.PRF_CFG_OUT k)
    let mode := s.air (K.PRF_CFG_MODE k)
    let off : Prop := 48 ≤ n ∨ mode = 0 ∨ s.rd (K.OUT_TSTATE n) = 0
    let sig := s.rd (H.prfCrc k) ^^^ 0xFFFFFFFF
    let learning : Prop := mode = 2 ∧ s.rd (H.prfLearn k) = 1
    let bad := s.rd (H.prfBad k)
    let run := s.rd (K.PRF_STATUS_RUN k)
    let c : Instr := .proofSignature p
    let basic := [(K.PRF_STATUS_SIG k, sig), (K.PRF_STATUS_SIG_FRAME k, s.rd (K.OUT_EVT_FRAME n))]
    let matched := if 0 < bad then [(0x4302, prfIdx k, k * 256 + n, bad % 2 ^ 32)] else []
    (off → Idles c s) ∧
    (¬ off → mode ≠ 3 → ¬ learning → sig = s.rd (K.PRF_EXPECTED k) →
      Changes c s (basic ++ [(K.PRF_STATUS_STATE k, 1), (K.PRF_STATUS_RUN k, 0), (H.prfBad k, 0)]) [H.tkCause n] matched) ∧
    (¬ off → mode ≠ 3 → ¬ learning → sig ≠ s.rd (K.PRF_EXPECTED k) → run + 1 ≠ s.air (K.PRF_CFG_MISMATCH_FRAMES k) →
      Does c s (basic ++ [(K.PRF_STATUS_STATE k, 2), (K.PRF_STATUS_RUN k, min (run + 1) 255), (H.prfBad k, min (bad + 1) 0xFFFFFFFF),
          (K.PRF_STATUS_MISMATCHES k, min (s.rd (K.PRF_STATUS_MISMATCHES k) + 1) 0xFFFFFFFF)])
        (if 0 < bad then [] else [(0x4301, prfIdx k, k * 256 + n, sig % 2 ^ 32)])) ∧
    (¬ off → mode ≠ 3 → ¬ learning → sig ≠ s.rd (K.PRF_EXPECTED k) → run + 1 = s.air (K.PRF_CFG_MISMATCH_FRAMES k) →
      let act := s.air (K.PRF_CFG_ACTION k)
      let slated : Prop := act = 2 ∧ s.rd (K.OUT_SLATE_STATE n) = 1
      let w := basic ++ [(K.PRF_STATUS_STATE k, 2), (K.PRF_STATUS_RUN k, min (run + 1) 255), (H.prfBad k, min (bad + 1) 0xFFFFFFFF), (K.PRF_STATUS_ACTION_FRAME k, s.rd (K.OUT_EVT_FRAME n)),
        (K.PRF_STATUS_MISMATCHES k, min (s.rd (K.PRF_STATUS_MISMATCHES k) + 1) 0xFFFFFFFF)]
      let ev := (if 0 < bad then [] else [(0x4301, prfIdx k, k * 256 + n, sig % 2 ^ 32)]) ++ [(0x4304, prfIdx k, k * 256 + n, act % 2 ^ 32)]
      (act ≠ 1 → ¬ slated → Does c s w ev) ∧
      (slated → Does c s (w ++ [(H.slatePend n, 1), (H.slateCause n, 1)]) ev) ∧
      (act = 1 → ∃ t : State, exec c s = .next (if s.rd (K.OUT_BRACKET_ROLE n) = 1 then t.takeover n 2 else t.partnerFails n) ∧ (∀ x ∈ w, t.rd x.1 = x.2) ∧ RegsKept (w.map Prod.fst) s t ∧
        raisedOf t = raisedOf s ++ ev ∧ OnlyRegisters s t)) ∧
    (¬ off → learning → Changes c s (basic ++ [(K.PRF_EXPECTED k, sig), (H.prfLearn k, 0), (K.PRF_STATUS_STATE k, 1), (K.PRF_STATUS_RUN k, 0),
      (H.prfBad k, 0)])
      [H.tkCause n] ([(0x4303, prfIdx k, k * 256 + n, sig % 2 ^ 32)] ++ matched)) ∧
    (¬ off → mode = 3 →
      let src := s.air (K.OUT_ROUTE_SRC (s.routeUnit n))
      let shadowed : Prop := 48 ≤ src ∧ src < 64 ∧ s.rd (K.EAS_STATE_SHADOW (src - 48)) = 1 ∧ s.rd (H.prfRows k) = 0
      (¬ shadowed → Does c s (basic ++ [(K.PRF_STATUS_STATE k, 3)]) []) ∧
      (shadowed → s.rd (H.prfShadow k) = s.rd (H.prfCrc k) →
        Changes c s (basic ++ [(K.PRF_STATUS_SHADOW_SIG k, sig), (K.PRF_STATUS_STATE k, 1), (K.PRF_STATUS_RUN k, 0), (H.prfBad k, 0)]) [H.tkCause n] matched)) ∧
    (∀ (q : Req) (i : Nat), Serves s q i → holds (s.rd (K.SESS_RIGHTS i)) 1 = true →
      (s.rd (K.PRF_CFG_MODE k) ≠ 2 → exec (.proofLearn q p) s = .next (declined s q i (K.PRF_LEARN k) 5 [] id)) ∧
      (s.rd (K.PRF_CFG_MODE k) = 2 → Writes (.proofLearn q p) s q i (K.PRF_LEARN k)
        [(K.PRF_LEARN k, 1), (H.prfLearn k, 1), (K.PRF_STATUS_STATE k, 4)] []))

/-- A converter starts, develops, keeps cadence and estimates motion. A converter without a cluster, and a stopped one that may not
start, does nothing at an output switch line; it opens the family's frame; a running one latches its counters as they stood before the
tick, and opens the next frame or stops. A development point, one in a frame, pays what the converter owes. A wire frame of an unlocked
stream is judged, remembered and taken with its stamp, and a pattern that shows locks the cadence; a repeat of the locked pattern is
discarded; a flag other than the pattern's breaks it. The estimator stores the vector field of the pair each way and its confidences,
and changes nothing else; outside MOTION mode it does nothing. -/
def Obligations.ConverterFrames : Prop :=
  ∀ (e : Fin 16) (s : State),
    let n := e.val
    let u := unitFrc n
    let off : Prop := s.unmapped u = true
    let st := s.rd (K.FRC_STATE_TSTATE n)
    let next := (s.rd (K.FRC_FRC_EVT_FRAME n) + 1) % 2 ^ 48
    let idle : Prop := st = 0 ∨ (s.rd (H.devPassed u) = 1 ∧ s.rd (H.unitWait u) = 0) ∨ s.noCluster u = true
    let latched := s.latch (K.FRC_RUN n) (K.FRC_LAST n) (K.FRC_TOTAL n) 10 next
    (∀ ns : Nat,
      let c : Instr := .frcSwitchLine e ns
      let at' := s.tod + ns % 1000
      (off ∨ st = 0 ∧ s.frcReady n = false → Idles c s) ∧
      (¬ off → st = 0 → s.frcReady n = true → ∀ f : Fmt, fmt (s.rd (K.FRC_OTIM_FORMAT n)) = some f →
        let frame := familyFrame ((at' : Int) - offsetNs (toInt 32 (s.rd (K.FRC_OTIM_TIMING_OFFSET n))) f.rate).toNat
          (toInt 32 (s.rd (K.GSYN_PHASE_OFFSET (s.rd (K.FRC_OTIM_FAMILY n))))) f.rate
        exec c s = .next (((s.wrs [(K.FRC_STATE_TSTATE n, 1), (K.FRC_RUN n 1, frame)]).frcStart n).frcOpen n at' frame).protSync) ∧
      (¬ off → st ≠ 0 → s.rd (K.FRC_OTIM_FORMAT n) ≠ 0 → exec c s = .next (latched.frcOpen n at' next).protSync) ∧
      (¬ off → st ≠ 0 → s.rd (K.FRC_OTIM_FORMAT n) = 0 → exec c s = .next (latched.frcStop n at' next).protSync)) ∧
    (∀ j, 2 ≤ j → j ≤ 10 → latched.rd (K.FRC_LAST n j) = s.runWas (K.FRC_RUN n j) ∧
      latched.rd (K.FRC_RUN n j) = s.rd (K.FRC_RUN n j) - s.runWas (K.FRC_RUN n j) ∧
      (s.rd (H.clrAt (K.FRC_TOTAL n 1)) ≠ s.now + 1 →
        latched.rd (K.FRC_TOTAL n j) = (s.rd (K.FRC_TOTAL n j) + s.runWas (K.FRC_RUN n j)) % 2 ^ 64)) ∧
    (idle → Idles (.frcDevelopment e) s) ∧
    (¬ idle → ∃ t : State, exec (.frcDevelopment e) s = .next t.protSync ∧ t.rd (H.devPassed u) = 1 ∧ t.lat = s.lat ∧
      (∀ d ∈ s.eligible u false, d ∉ t.due) ∧ (∀ d ∈ t.due, d ∈ s.due) ∧ (∀ a, t.rdMem a = s.rdMem a) ∧
      (s.eligible u false ≠ [] → t.rd (devKey u 1) = (t.rd (K.FRC_FRC_EVT_FRAME n) + 1) % 2 ^ 48)) ∧
    (∀ k : Fin 4,
      let x := frcX n k.val
      let held := s.frcHeld x
      (∀ stamp : Nat,
        let c : Instr := .cadenceFrame e k stamp
        let pic := s.frcWire n k.val
        let cad := s.rd (K.FRC_STREAM_CADENCE n k.val)
        let prev := s.rd (H.frcPrev x)
        let rep : Nat := if cad ≠ 0 ∧ prev ≠ 0 ∧ isRepeat (s.rd (K.FRC_EST_REPEAT_DIFF n)) pic (s.frcPicture x (prev - 1)) = true then 1 else 0
        let j := s.frcSlot x
        let old := s.vec (H.frcFlags x)
        let l := (rep :: old).take 16
        let lock := s.rd (K.FRC_SSTAT_CADENCE_STATE n k.val)
        let new := if cad = 2 ∧ is32 l = true then 2 else if cad ≠ 0 ∧ is22 l = true then 1 else 0
        let seen (t : State) : Prop := t.vec (H.frcFlags x) = l ∧ t.rd (H.frcPrev x) = j + 1 ∧ StoresKept s t ∧
          (∀ y < pic.h, t.vec (H.frcRow ((x * 16 + j) * 8192 + y)) = (List.range pic.w).map (fun i => (pic.px i y).word))
        (s.rd (K.FRC_SSTAT_STATE n k.val) = 0 ∨ s.rd (K.FRC_STREAM_KIND n k.val) = 0 → Idles c s) ∧
        (s.rd (K.FRC_SSTAT_STATE n k.val) ≠ 0 → s.rd (K.FRC_STREAM_KIND n k.val) ≠ 0 → pic.h ≤ 8192 →
          (lock = 0 → Ends c s (fun t => seen t ∧ t.frcHeld x = (if 12 ≤ held.length then held.drop 1 else held) ++ [(stamp, stamp, j)] ∧
            t.rd (K.FRC_SSTAT_CADENCE_STATE n k.val) = new ∧
            raisedOf t = raisedOf s ++ (if new = 0 then [] else [(0x4402, frcIdx n, n * 256 + k.val, new)]))) ∧
          (lock ≠ 0 → dueFlag lock old = rep → rep = 1 → Ends c s (fun t => seen t ∧ t.frcHeld x = held ∧
            t.rd (K.FRC_SSTAT_CADENCE_STATE n k.val) = lock ∧ raisedOf t = raisedOf s)) ∧
          (lock ≠ 0 → dueFlag lock old ≠ rep → Ends c s (fun t => seen t ∧ t.rd (K.FRC_SSTAT_CADENCE_STATE n k.val) = 0 ∧
            t.rd (K.FRC_RUN n 8) = min (s.rd (K.FRC_RUN n 8) + 1) 0xFFFFFFFF ∧ (rep = 1 → t.frcHeld x = held) ∧
            raisedOf t = raisedOf s ++ [(0x4403, frcIdx n, n * 256 + k.val, stamp % 1000000000)])))) ∧
      (∀ j : Fin 16,
        let c : Instr := .motionEstimation e k j
        let i := held.findIdx (fun p => p.2.2 == j.val)
        let y := 16 * x + j.val
        (s.rd (K.FRC_STREAM_MODE n k.val) ≠ 3 ∨ held[i]? = none ∨ held[i + 1]? = none → Idles c s) ∧
        (∀ pa pb : Held, s.rd (K.FRC_STREAM_MODE n k.val) = 3 → held[i]? = some pa → held[i + 1]? = some pb → Ends c s (fun t =>
          RegsKept [] s t ∧ StoresKept s t ∧ raisedOf t = raisedOf s ∧ t.freeCtr = s.freeCtr ∧
          (∀ q, q ≠ H.frcFwd y → q ≠ H.frcBwd y → q ≠ H.frcConf y → t.vec q = s.vec q) ∧
          (t.vec (H.frcFwd y)).length = (t.vec (H.frcConf y)).length ∧ (∀ v ∈ t.vec (H.frcConf y), v ≤ 255) ∧
          (i = 0 → t.vec (H.frcFwd y) = (estimate (s.frcPicture x pa.2.2) (s.frcPicture x pb.2.2) []).map (fun v => encVec v.1) ∧
            t.vec (H.frcBwd y) = (estimate (s.frcPicture x pb.2.2) (s.frcPicture x pa.2.2) []).map (fun v => encVec v.1) ∧
            t.vec (H.frcConf y) = (estimate (s.frcPicture x pa.2.2) (s.frcPicture x pb.2.2) []).map (fun v => confidence v.2))))))

/-- Audio packets arrive, channels go absent, bursts end. Audio of an input that is not at least ALIGNED, and of groups 5 to 8 where its
mapping has none, is ignored. A packet beyond correction is counted and only that. A control packet sets its group's rate, with an event
for another rate than 48 kHz; a data packet marks its group present with its word length, and a group without a control packet counts as
synchronous. A sample without a gap becomes the newest of its channel's history. A channel without a sample for 64 periods, which
repeated the one before, is ABSENT, and its group with its last channel; a non-PCM pair without a burst for NONPCM_HOLD is PCM again. -/
def Obligations.AudioArrives : Prop :=
  ∀ (i : Fin 48) (s : State),
    let n := i.val
    (∀ p : AudioPkt,
      let c : Instr := .audioPacket i p
      let g := p.group % 8
      let x := 8 * n + g
      let one (k : Nat) : Nat := min (s.rd (K.AIN_RUN n k) + 1) 0xFFFFFFFF
      let counts (k : Nat) : List Nat := [K.AIN_RUN n k, H.cntWas (K.AIN_RUN n k), H.cntAt (K.AIN_RUN n k)]
      let mapping := s.rd (K.IN_STAT_MAPPING n)
      let deaf : Prop := s.rd (K.IN_STAT_STATE n) < 3 ∨ (4 ≤ g ∧ mapping ≠ 4 ∧ mapping ≠ 5 ∧ mapping ≠ 6)
      (deaf → Idles c s) ∧
      (¬ deaf →
        (p.result = 2 → Ends c s (fun t => t.rd (K.AIN_RUN n 2) = one 2 ∧ t.rd (K.AIN_RUN n 4) = one 4 ∧ (∀ k, t.vec k = s.vec k) ∧
          RegsKept (counts 2 ++ counts 4 ++ [H.limCnt (2900 + n), H.limLast (2900 + n)]) s t ∧ StoresKept s t)) ∧
        (p.result ≠ 2 → p.control = true → Ends c s (fun t => t.rd (K.AIN_RUN n 2) = one 2 ∧ t.rd (H.ainRate x) = (if p.rate = 1 then 1 else 2) ∧
          (t.rd (K.AIN_STAT_SYNC n)).testBit g = p.sync ∧ (∀ k, t.vec k = s.vec k) ∧ StoresKept s t ∧
          (p.result = 1 → t.rd (K.AIN_RUN n 3) = one 3) ∧ (p.result ≠ 1 → t.rd (K.AIN_RUN n 3) = s.rd (K.AIN_RUN n 3)) ∧
          RegsKept (counts 2 ++ counts 3 ++ [H.ainRate x, K.AIN_STAT_SYNC n, K.AIN_STAT_RATE n]) s t ∧
          raisedOf t = raisedOf s ++ (if p.rate ≠ 1 ∧ s.rd (H.ainRate x) ≠ 2 then [(0x6002, ainIdx n, n, (g + 1) * 256 + p.rate % 256)] else []))) ∧
        (p.result ≠ 2 → p.control = false → Ends c s (fun t => t.rd (K.AIN_RUN n 2) = one 2 ∧ (t.rd (K.AIN_STAT_GROUPS n)).testBit g = true ∧
          (t.rd (K.AIN_STAT_WORD24 n)).testBit g = p.word24 ∧ t.rd (H.ainGot x) = 1 ∧ t.rd (H.ainRate x) = s.rd (H.ainRate x) ∧
          (s.rd (H.ainRate x) = 0 → (t.rd (K.AIN_STAT_SYNC n)).testBit g = true) ∧
          t.rd (K.AIN_STAT_RATE_OFFSET n) = ofInt 32 p.ppb ∧ StoresKept s t ∧
          (p.dbnOk = false → t.rd (K.AIN_RUN n 5) = one 5) ∧ (p.dbnOk = true → t.rd (K.AIN_RUN n 5) = s.rd (K.AIN_RUN n 5)))))) ∧
    (∀ (c : Fin 32) (at' v : Nat), s.rd (H.ainLast (32 * n + c.val)) = 0 →
      (s.sampleIn n c.val at' v).histNewest (32 * n + c.val) = some (at', v % 2 ^ 24) ∧
      (s.sampleIn n c.val at' v).rd (H.ainLast (32 * n + c.val)) = s.now + 1 ∧
      RegsKept [H.ainLast (32 * n + c.val)] s (s.sampleIn n c.val at' v)) ∧
    (∀ c : Fin 32,
      let src := 32 * n + c.val
      let last := s.rd (H.ainLast src)
      let p := s.rd (K.AIN_STAT_PRESENT n)
      (last ≠ 0 → s.now < last - 1 + 1334 → Idles (.channelAbsent i c) s) ∧
      (last = 0 ∨ last - 1 + 1334 ≤ s.now → Ends (.channelAbsent i c) s (fun t => t.rd (H.ainLast src) = 0 ∧
        (t.rd (K.AIN_STAT_PRESENT n)).testBit c.val = false ∧ t.rd (H.ainGap (8 * n + c.val / 4)) = 1 ∧ StoresKept s t ∧
        (∀ b < 32, b ≠ c.val → (t.rd (K.AIN_STAT_PRESENT n)).testBit b = p.testBit b) ∧
        ((∀ b < 32, b / 4 = c.val / 4 → b ≠ c.val → s.rd (H.ainLast (32 * n + b)) = 0) →
          (t.rd (K.AIN_STAT_GROUPS n)).testBit (c.val / 4) = false ∧ t.rd (H.ainRate (8 * n + c.val / 4)) = 0) ∧
        (last ≠ 0 → ∀ q, s.histNewest src = some q → t.histNewest src = some (q.1 + samplesNs 64, q.2) ∧
          t.rd (K.AIN_RUN n 6) = min (s.rd (K.AIN_RUN n 6) + 64) 0xFFFFFFFF) ∧
        ((∀ d < 1536, s.air (K.DST_SRC d) ≠ src) → raisedOf t = raisedOf s ++
          (if p.testBit c.val then [(0x6001, ainIdx n, n, (p - 2 ^ c.val) % 2 ^ 32)] else []))))) ∧
    (∀ j : Fin 16,
      let x := 16 * n + j.val
      let v := s.rd (K.AIN_STAT_NONPCM n)
      let past : Prop := s.rd K.AUD_NONPCM_HOLD * 125 ≤ (s.now + 1 - s.rd (H.npAt x)) * 6
      (v.testBit j.val = false ∨ ¬ past → Idles (.nonpcmEnd i j) s) ∧
      (v.testBit j.val = true → past → Does (.nonpcmEnd i j) s [(K.AIN_STAT_NONPCM n, v - 2 ^ j.val), (K.AIN_DATATYPE_PAIR n j.val, 0)]
        [(0x6005, ainIdx n, n * 256 + j.val, s.rd (H.npBursts x) % 2 ^ 32)]))

/-- Destinations send their samples, recover, slew and switch non-PCM. A destination of a stopped output, or of a half that is not
usable, sends nothing. Else its sample is its mix with gain, crossfaded, clipped to the embedder's width, unless its channel is not
sent. ASRC_RECOVER gives the ASRC back after a second inside its range, with one switch more; a slew that has reached its target ends
there; a non-PCM switch that has waited NONPCM_WAIT samples happens and is reported. Otherwise the commands change nothing. -/
def Obligations.AudioLeaves : Prop :=
  ∀ (x : Fin 1536) (s : State),
    let d := x.val
    let n := d / 32
    let runs : Prop := s.rd (K.OUT_TSTATE n) ≠ 0 ∧ s.pdUsable (51 + d / 768) = true
    (∀ ns : Nat,
      let r := (s.audRange d).audCheck d
      let g := r.gainStep d
      let y := g.2.mixOut d (s.tod + ns % 1000) g.1 (mixes (g.2.vec (H.audMix d)))
      (¬ runs → Does (.audioSample x ns) s [(H.audWire d, 0)] []) ∧
      (runs → r.rd (H.audLost d) = 0 → r.rd (H.npPend d) = 0 → g.2.srcNonPcm (g.2.air (K.DST_SRC d)) = false → Ends (.audioSample x ns) s (fun t =>
        t.rd (H.audOut d) = ofInt 24 y ∧ t.rd (H.audWire d) = (if g.2.notSent d then 0 else embedSample (g.2.sd20 d) y + 1) ∧
        t.rd (K.DST_STATE d) = g.2.dstState d ∧ t.vec (H.audMix d) = unmixes (mixStep (mixes (g.2.vec (H.audMix d)))) ∧
        t.rd (H.audAsync d) = 0 ∧ raisedOf t = raisedOf r ∧ StoresKept s t))) ∧
    (let from' := s.rd (H.audIn d)
      let ripe : Prop := s.rd (K.DST_CLOCK d) = 3 ∧ from' ≠ 0 ∧ from' - 1 + 1000000 ≤ s.now
      (¬ ripe → Idles (.asrcRecover x) s) ∧
      (ripe → s.rd (H.audLost d) ≠ 0 → Does (.asrcRecover x) s [(K.DST_CLOCK d, 2)] []) ∧
      (ripe → s.rd (H.audLost d) = 0 → Changes (.asrcRecover x) s
        [(K.DST_CLOCK d, 2), (K.DST_SWITCHES d, (s.rd (K.DST_SWITCHES d) + 1) % 2 ^ 32)] [] [])) ∧
    (let goal := s.rd (H.audGoal d)
      let there : Prop := goal ≠ 0 ∧ s.audD d = goal - 1
      (¬ there → Idles (.audioSlewEnd x) s) ∧
      (there → Does (.audioSlewEnd x) s [(K.DST_DELAY_ACTIVE d, goal - 1), (H.audGoal d, 0),
        (K.DST_FOLLOW_STATE d, if s.rd (K.DST_FOLLOW_STATE d) = 2 then 1 else s.rd (K.DST_FOLLOW_STATE d))] [])) ∧
    (let w := s.rd (H.npPend d)
      let ripe : Prop := w ≠ 0 ∧ s.rd K.AUD_NONPCM_WAIT ≤ w - 1
      (¬ ripe → Idles (.nonpcmForcedSwitch x) s) ∧
      (ripe → ∀ src delay clk : Nat, s.vec (H.npCfg d) = [src, delay, clk] → Changes (.nonpcmForcedSwitch x) s
        [(H.npPend d, 0), (K.DST_DELAY_ACTIVE d, delay), (H.audGoal d, 0), (K.DST_SWITCHES d, (s.rd (K.DST_SWITCHES d) + 1) % 2 ^ 32),
          (H.npZero d, if s.srcNonPcm src then s.tod - delay + 1 else 0)] []
        [(0x600D, dstIdx d, d, (w - 1) % 2 ^ 32)]) ∧
      (ripe → (∀ src delay clk : Nat, s.vec (H.npCfg d) ≠ [src, delay, clk]) → Does (.nonpcmForcedSwitch x) s [(H.npPend d, 0)]
        [(0x600D, dstIdx d, d, (w - 1) % 2 ^ 32)]))

/-- ROTATE and MIRROR place each source pixel as the mapping says. For ROTATE and MIRROR the unit of the source at (x, y) is the unit u
of destination row v, (u, v) being the offset reflected by FLIP and then turned by ROT, with its bytes as they are; a pair of Q422,
which is turned by 180 degrees at most, has Y0 and Y1 exchanged where the turn and the reflection together reverse the row, and keeps Cb
and Cr. -/
def Obligations.CopyStandTurns : Prop :=
  (∀ (s : State) (d p : Plane), (s.rd K.CST_OP = 2 ∨ s.rd K.CST_OP = 3) → s.bufPlane (s.rd K.CST_DST_BUF) = some d → s.cstSrc = some p →
    s.cstRot < 4 → (d.f = 0 → s.cstRot % 2 = 0) →
    let w := unitsIn d.f (s.rd K.CST_W)
    let h := s.rd K.CST_H
    let ub := unitBytes d.f
    ∀ x y, x < w → y < h →
      let xm := if s.cstFlip.testBit 0 then w - 1 - x else x
      let ym := if s.cstFlip.testBit 1 then h - 1 - y else y
      let uv : Nat × Nat := match s.cstRot with
        | 0 => (xm, ym)
        | 1 => (h - 1 - ym, xm)
        | 2 => (w - 1 - xm, h - 1 - ym)
        | _ => (ym, w - 1 - xm)
      let a := p.base + (s.rd K.CST_SRC_Y + y) * p.pitch + (unitsIn d.f (s.rd K.CST_SRC_X) + x) * ub
      let bytes := (List.range ub).map (fun i => s.fetchByte (a + i))
      let reversed : Prop := ¬ (s.cstFlip.testBit 0 = true ↔ s.cstRot = 2)
      ∃ c : CstUnit, (s.cstRow uv.2)[uv.1]? = some c ∧ c.src = some a ∧
        c.addr = d.base + (s.rd K.CST_DST_Y + uv.2) * d.pitch + (unitsIn d.f (s.rd K.CST_DST_X) + uv.1) * ub ∧
        (d.f ≠ 0 → c.data = bytes) ∧ (¬ reversed → c.data = bytes) ∧ (d.f = 0 → reversed → c.data = swapPair bytes)) ∧
  (∀ y0 cb y1 cr : Nat, y0 < 1024 → cb < 1024 → y1 < 1024 → cr < 1024 →
    swapPair (bytesBE 5 (y1 * 2 ^ 30 + cr * 2 ^ 20 + y0 * 2 ^ 10 + cb)).reverse = (bytesBE 5 (y0 * 2 ^ 30 + cr * 2 ^ 20 + y1 * 2 ^ 10 + cb)).reverse)

/-- The Copy Stand is set going, writes line by line, ends, and is aborted. GO answers with the first check that fails, with its RESULT
and CST_REFUSED, or starts the operation and claims the destination. A completed line writes its units to their addresses and nothing
else, moves LINES_DONE and the beats in BYTES, and the last one ends with DONE; a failed read marks the destination DAMAGED and ends in
READ_ERROR; a failed write ends in WRITE_ERROR with no byte of the line written. ABORT is BUSY when IDLE and ends a running operation,
after the drain of what is in flight. ACK clears the bits it names, but for one whose event occurred in the same tick. -/
def Obligations.CopyStandRuns : Prop :=
  ∀ s : State,
    let b := s.rd K.CST_DST_BUF
    let st := s.rd K.CST_STATUS_STATE
    (∀ (q : Req) (i : Nat), Serves s q i → holds (s.rd (K.SESS_RIGHTS i)) 1 = true →
      let refused (status res holder : Nat) (extra : List Nat) : Prop :=
        exec (.cstGo q) s = .next (declined s q i K.CST_GO status extra (fun m => m.cstRefuse res holder))
      (st ≠ 0 ∨ s.pdReady 53 = false → exec (.cstGo q) s = .next (declined s q i K.CST_GO 5 [] id)) ∧
      (st = 0 → s.pdReady 53 = true →
        (s.cstFormatOk = false → refused 4 2 0 []) ∧
        (s.cstFormatOk = true → s.cstBoundsOk = false → refused 4 3 0 []) ∧
        (s.cstFormatOk = true → s.cstBoundsOk = true → s.cstAlignOk = false → refused 4 4 0 []) ∧
        (s.cstFormatOk = true → s.cstBoundsOk = true → s.cstAlignOk = true →
          (s.cstOverlapBad = true → refused 4 5 0 []) ∧
          (s.cstOverlapBad = false → s.cstHolder ≠ 0 → refused 7 6 s.cstHolder (bytesBE 4 s.cstHolder)) ∧
          (s.cstOverlapBad = false → s.cstHolder = 0 → s.cstGuarded = true → s.rd K.FS_GUARD_POLICY = 0 → refused 5 7 0 []) ∧
          (s.cstOverlapBad = false → s.cstHolder = 0 → (s.cstGuarded = false ∨ s.rd K.FS_GUARD_POLICY ≠ 0) →
            Writes (.cstGo q) s q i K.CST_GO [(K.CST_GO, 1), (K.CST_STATUS_STATE, 1), (K.CST_STATUS_RESULT, 0), (K.CST_STATUS_LINES_DONE, 0),
              (K.CST_STATUS_TOP_DONE, 0), (K.CST_STATUS_START_TIME, s.todP), (K.BUF_WRITER b, 0x8000), (H.cstErr, 0),
              (H.cstExempt, if s.cstGuarded then 0 else b + 1)] []))) ∧
      (st = 0 → exec (.cstAbort q) s = .next (declined s q i K.CST_ABORT 5 [] id)) ∧
      (st = 2 → Writes (.cstAbort q) s q i K.CST_ABORT [(K.CST_ABORT, 1)] []) ∧
      (st = 1 → Ends (.cstAbort q) s (fun t => t.rd K.CST_STATUS_RESULT = 8 ∧ (t.rd K.CST_IRQ_PENDING).testBit 2 = true ∧ StoresKept s t ∧
        t.rd K.CST_STATUS_LINES_DONE = s.rd K.CST_STATUS_LINES_DONE ∧
        raisedOf t = raisedOf s ++ [(0x4504, 0x8000, 0, s.rd K.CST_STATUS_LINES_DONE % 2 ^ 32)] ∧
        t.rd K.CST_STATUS_STATE = (if s.bursts.any (fun f => f.b.master == 0x70) then 2 else 0) ∧
        t.rd (K.PORT_STATE 0x70) = (if s.bursts.any (fun f => f.b.master == 0x70) then 2 else 3))) ∧
      (∀ v : Nat, v ≤ 7 → ∃ p : Nat, Writes (.cstIrqAck q v) s q i K.CST_IRQ_ACK [(K.CST_IRQ_ACK, v), (K.CST_IRQ_PENDING, p)] [] ∧
        (∀ j < 3, p.testBit j = ((s.rd K.CST_IRQ_PENDING).testBit j && (!v.testBit j || s.rd (H.cstIrqAt j) == s.now + 1))))) ∧
    (∀ (bad : List Nat) (fault : Bool),
      let c : Instr := .cstLineComplete bad fault
      let h := s.cstDstSize.2
      let k := s.rd K.CST_STATUS_LINES_DONE
      let row := s.cstRow (if s.cstUpward then h - 1 - k else k)
      let ub := (row.head?.map (fun u => u.data.length)).getD 1
      let dst := beatsOf ub (row.map (fun u => u.addr))
      let src := beatsOf ub (row.filterMap (fun u => u.src))
      let last : Prop := h ≤ k + 1
      (st ≠ 1 → Idles c s) ∧
      (st = 1 → fault = true → Ends c s (fun t => t.rd K.CST_STATUS_STATE = 0 ∧ t.rd K.CST_STATUS_RESULT = 10 ∧
        (t.rd K.CST_IRQ_PENDING).testBit 2 = true ∧ t.rd K.CST_STATUS_LINES_DONE = k ∧ StoresKept s t)) ∧
      (st = 1 → fault = false → b < 2048 → s.rd H.cstExempt = b + 1 → bad = [] →
        (∀ u ∈ row, ∀ a, u.src = some a → ∀ j < ub, (s.fsByte (a + j)).isSome = true) →
        (∀ u ∈ row, ∀ j < ub, s.mirrorOf (u.addr + j) = none ∧ s.deadAt (u.addr + j) = false) →
        Ends c s (fun t => t.rd K.CST_STATUS_LINES_DONE = k + 1 ∧
          (∀ u ∈ row, ∀ j < ub, t.rdMem (u.addr + j) = u.data.getD j 0 % 256) ∧
          (∀ a, (∀ u ∈ row, a < u.addr ∨ u.addr + ub ≤ a) → t.rdMem a = s.rdMem a) ∧ t.lat = s.lat ∧ t.com = s.com ∧
          (s.cstRot % 2 = 0 → t.rd K.CST_STATUS_BYTES = (s.rd K.CST_STATUS_BYTES + 64 * (src.length + dst.length)) % 2 ^ 64) ∧
          (¬ last → t.rd K.CST_STATUS_STATE = 1) ∧
          (last → s.rd H.cstErr = 0 → t.rd K.CST_STATUS_STATE = 0 ∧ t.rd K.CST_STATUS_RESULT = 1 ∧
            t.rd K.CST_STATUS_OPS = (s.rd K.CST_STATUS_OPS + 1) % 2 ^ 32 ∧ (t.rd K.CST_IRQ_PENDING).testBit 0 = true))) ∧
      (st = 1 → fault = false → b < 2048 → s.rd H.cstExempt = b + 1 → 0 < ub → (∃ u ∈ row, ∃ a, u.src = some a ∧ a / 64 ∈ bad) →
        Ends c s (fun t => t.rd (K.BUF_DAMAGED b) = 1 ∧ t.rd K.CST_STATUS_LINES_DONE = k + 1 ∧
          (last → t.rd K.CST_STATUS_STATE = 0 ∧ t.rd K.CST_STATUS_RESULT = 9 ∧ t.rd K.CST_STATUS_OPS = s.rd K.CST_STATUS_OPS))))

/-- The Copy Stand's reservation. RESERVE counts whole in the total and half on each stack in the held load of every state, whatever the
Copy Stand does. A raise with which the held load would exceed one of the three limits is answered BUSY and changes nothing; any other
raise, and every reduction, takes effect at once. -/
def Obligations.ReserveIsChecked : Prop :=
  let held (m : State) : Nat × Nat × Nat := loadOf ((List.range 80).flatMap (⟨m, [], m.vCom, m.vCom, [], [], []⟩ : Ask).held)
  (∀ s : State,
    let half := s.rd K.ADM_FIXED / 2 + s.rd K.CST_RESERVE / 2
    s.heldLoad = ((held s).1 + (s.rd K.ADM_FIXED + s.rd K.CST_RESERVE), (held s).2.1 + half, (held s).2.2 + half)) ∧
  (∀ (q : Req) (i v : Nat) (s : State), Serves s q i → holds (s.rd (K.SESS_RIGHTS i)) 2 = true → v ≤ 47520 → v % 2 = 0 →
    let m := (arrived q i s).wr K.CST_RESERVE v
    let half := s.rd K.ADM_FIXED / 2 + v / 2
    let past : Prop := s.rd K.ADM_LIMIT_TOTAL < (held m).1 + (s.rd K.ADM_FIXED + v) ∨ s.rd K.ADM_LIMIT_S0 < (held m).2.1 + half ∨
      s.rd K.ADM_LIMIT_S1 < (held m).2.2 + half
    (s.rd K.CST_RESERVE < v → past → exec (.cstReserveWrite q v) s = .next (declined s q i K.CST_RESERVE 5 [] id)) ∧
    (s.rd K.CST_RESERVE < v → ¬ past → Writes (.cstReserveWrite q v) s q i K.CST_RESERVE [(K.CST_RESERVE, v)] []) ∧
    (v ≤ s.rd K.CST_RESERVE → Writes (.cstReserveWrite q v) s q i K.CST_RESERVE [(K.CST_RESERVE, v)] []))

/-- Clusters fail, fail over, are tested and rotate. A serviceable cluster that fails is FAILED with CLUSTER_FAULT: the spare loads its
state, or its logical cluster has none any more, and a failed spare is no spare. FAILOVER puts the logical cluster on the spare. RETEST
is BUSY unless the cluster failed or is off; passing, a cluster takes an unmapped logical cluster, or is the spare, or waits. A
self-test of the spare makes it sound or fails it. A rotation starts when it may, goes on when the copies agree, is abandoned when they
differ, and moves the map once every unit has moved; with a fault of a cluster of the map waiting in the tick none of these steps
happens. Otherwise nothing happens. -/
def Obligations.ClustersAndRotations : Prop :=
  ∀ s : State,
    let spare := s.rd K.CLMAP_SPARE
    let rot := s.rd (H.rotT)
    let thus (c : Instr) (f : State → Prop) : Prop := ∃ u : State, exec c s = .next u.protSync ∧ f u ∧ StoresKept s u
    (∀ (p : Fin 9) (cause : Nat),
      let st := s.rd (K.CLUSTERS_CL_STATE p.val)
      let down : Prop := st = 2 ∨ st = 3 ∨ st = 4
      let failed (f : State → Prop) : Prop := thus (.clusterFault p cause) (fun u => u.rd (K.CLUSTERS_CL_STATE p.val) = 2 ∧
        (0x7006, 0x1A02, p.val, cause % 2 ^ 32) ∈ raisedOf u ∧ f u)
      (exec (.lineWatchdogExpiry p) s = exec (.clusterFault p 2) s) ∧
      (down → exec (.clusterFault p cause) s = .next s.protSync) ∧
      (¬ down → rot = 0 → spare < 9 ∨ spare = 0xFF →
        (s.logicalOf p.val = none → spare ≠ p.val → failed (fun u => u.rd K.CLMAP_SPARE = spare ∧ u.rd K.CLMAP_SEQ = s.rd K.CLMAP_SEQ)) ∧
        (s.logicalOf p.val = none → spare = p.val → s.rd (H.foFrom) = 0 → failed (fun u => u.rd K.CLMAP_SPARE = 0xFF ∧ u.rd (H.spareOk) = 0 ∧
          u.rd K.CLMAP_SEQ = (s.rd K.CLMAP_SEQ + 1) % 2 ^ 32)) ∧
        (∀ c, s.logicalOf p.val = some c → (spare = 0xFF ∨ s.rd (H.foFrom) ≠ 0) → failed (fun u => u.rd (K.CLMAP_PHYS c) = 0xFF ∧
          u.rd (K.EAS_STATE_PHYS_CLUSTER (2 * c)) = 0xFF ∧ u.rd (K.FRC_STATE_PHYS_CLUSTER (2 * c + 1)) = 0xFF ∧
          (0x7008, 0x1A02, c, (s.clusterOutputs c).length) ∈ raisedOf u ∧ u.rd K.CLMAP_SEQ = (s.rd K.CLMAP_SEQ + 1) % 2 ^ 32)) ∧
        (∀ c, s.logicalOf p.val = some c → spare ≠ 0xFF → s.rd (H.foFrom) = 0 → failed (fun u => u.rd (H.foFrom) = p.val + 1 ∧
          u.rd (H.foTo) = spare ∧ u.rd (K.CLMAP_PHYS c) = p.val ∧ u.rd K.CLMAP_SEQ = s.rd K.CLMAP_SEQ)))) ∧
    (∀ us : Nat,
      let frm := s.rd (H.foFrom)
      let to' := s.rd (H.foTo)
      (frm = 0 ∨ s.logicalOf (frm - 1) = none → Idles (.failover us) s) ∧
      (∀ c, frm ≠ 0 → s.logicalOf (frm - 1) = some c → to' < 9 → thus (.failover us) (fun u => u.rd (K.CLMAP_PHYS c) = to' ∧
        u.rd (K.CLUSTERS_CL_STATE to') = 0 ∧ u.rd K.CLMAP_SPARE = 0xFF ∧ u.rd (H.foFrom) = 0 ∧ u.rd K.CLUSTERS_LAST_INTERRUPT = us ∧
        u.rd K.CLMAP_SEQ = (s.rd K.CLMAP_SEQ + 1) % 2 ^ 32 ∧ u.rd K.CLUSTERS_FAILOVERS = (s.rd K.CLUSTERS_FAILOVERS + 1) % 2 ^ 32 ∧
        (0x7007, 0x1A02, (c * 65536 + (frm - 1) * 256 + to') % 2 ^ 32, us % 2 ^ 32) ∈ raisedOf u))) ∧
    (∀ p : Fin 9,
      let k := K.CLUSTERS_CL_STATE p.val
      let free := (List.range 8).find? (fun c => s.rd (K.CLMAP_PHYS c) == 0xFF)
      (s.rd k ≠ 4 → ∀ pass : Bool, Idles (.retestDone p pass) s) ∧
      (s.rd k = 4 → Does (.retestDone p false) s [(k, 2)] [] ∧
        (∀ c, free = some c → thus (.retestDone p true) (fun u => u.rd (K.CLMAP_PHYS c) = p.val ∧ u.rd k = 0 ∧
          (0x7009, 0x1A02, c * 256 + p.val, 0) ∈ raisedOf u)) ∧
        (free = none → spare = 0xFF → thus (.retestDone p true) (fun u => u.rd K.CLMAP_SPARE = p.val ∧ u.rd k = 1 ∧ u.rd (H.spareOk) = 1)) ∧
        (free = none → spare ≠ 0xFF → thus (.retestDone p true) (fun u => u.rd k = 1 ∧ u.rd K.CLMAP_SPARE = spare ∧ u.rd K.CLMAP_SEQ = s.rd K.CLMAP_SEQ))) ∧
      (∀ (q : Req) (i : Nat), Serves s q i → holds (s.rd (K.SESS_RIGHTS i)) 2 = true →
        (s.rd k ≠ 2 → s.rd k ≠ 3 → exec (.clustersRetest q p.val) s = .next (declined s q i K.CLUSTERS_RETEST 5 [] id)) ∧
        ((s.rd k = 2 ∨ s.rd k = 3) → Ends (.clustersRetest q p.val) s (fun t => t.rd k = 4 ∧ t.rd K.CLUSTERS_RETEST = p.val ∧
          t.rd (K.PD_ENABLE (34 + p.val)) = 1 ∧ t.rd K.IDENT_CFG_SEQ = (s.rd K.IDENT_CFG_SEQ + 1) % 2 ^ 64 ∧ StoresKept s t)))) ∧
    (∀ test : Nat,
      let idle : Prop := spare = 0xFF ∨ rot ≠ 0 ∨ s.rd (H.foFrom) ≠ 0 ∨ s.tstripFree = false ∨ s.faultDue = true
      (idle → ∀ pass : Bool, Idles (.selfTestDone pass test) s) ∧
      (¬ idle → s.rd (H.rotMis) = 0 → Does (.selfTestDone true test) s [(H.spareOk, 1), (K.TSTRIP_LAST_PASS, s.todP),
        (K.TSTRIP_PASSES, (s.rd K.TSTRIP_PASSES + 1) % 2 ^ 32)] []) ∧
      (¬ idle → s.rd (H.rotMis) ≠ 0 → s.rd (H.rotMis) ≤ 9 → spare < 9 → spare ≠ s.rd (H.rotMis) - 1 → s.rd (H.rotC) < 8 →
        thus (.selfTestDone true test) (fun u => u.rd (K.CLUSTERS_CL_STATE (s.rd (H.rotMis) - 1)) = 2 ∧ u.rd (H.rotMis) = 0 ∧
          (0x7006, 0x1A02, s.rd (H.rotMis) - 1, 6) ∈ raisedOf u)) ∧
      (¬ idle → spare < 9 → thus (.selfTestDone false test) (fun u => u.rd (K.CLUSTERS_CL_STATE spare) = 2 ∧ u.rd K.CLMAP_SPARE = 0xFF ∧
        u.rd (H.rotMis) = 0 ∧ u.rd K.CLMAP_SEQ = (s.rd K.CLMAP_SEQ + 1) % 2 ^ 32 ∧ (0x700D, 0x1A04, spare, test % 2 ^ 32) ∈ raisedOf u))) ∧
    (let off : Prop := s.rd K.TSTRIP_ROT_PERIOD = 0 ∨ s.rd K.TSTRIP_ENABLE = 0
      let due := ptime (s.tod + s.rd K.TSTRIP_ROT_PERIOD * 60000000000)
      (off → Idles .rotationPeriod s) ∧
      (¬ off → s.mayRotate = false → Does .rotationPeriod s [(K.TSTRIP_NEXT_ROT, due)] []) ∧
      (∀ t : Nat, ¬ off → s.mayRotate = true → s.rotTarget = some t → spare < 9 → thus .rotationPeriod (fun u => u.rd (H.rotT) = t + 1 ∧
        u.rd (H.rotP) = spare ∧ u.rd (H.rotPhase) = 1 ∧ u.rd (K.CLUSTERS_CL_STATE spare) = 5 ∧ u.rd K.TSTRIP_NEXT_ROT = due ∧
        (0x700A, 0x1A04, (s.logicalOf t).getD 0 * 65536 + t * 256 + spare, 0) ∈ raisedOf u)) ∧
      (∀ (q : Req) (i : Nat), Serves s q i → holds (s.rd (K.SESS_RIGHTS i)) 2 = true →
        (s.mayRotate = false → exec (.rotateNow q) s = .next (declined s q i K.TSTRIP_ROTATE_NOW 5 [] id)) ∧
        (s.mayRotate = true → spare < 9 → Ends (.rotateNow q) s (fun t => t.rd (K.CLUSTERS_CL_STATE spare) = 5 ∧ t.rd K.TSTRIP_ROTATE_NOW = 1 ∧
          t.rd K.IDENT_CFG_SEQ = (s.rd K.IDENT_CFG_SEQ + 1) % 2 ^ 64)))) ∧
    (let c := s.rd (H.rotC)
      let p := s.rd (H.rotP)
      let args := (c * 65536 + (rot - 1) * 256 + p) % 2 ^ 32
      (s.rd (H.rotPhase) ≠ 1 ∨ s.faultDue = true → ∀ same : Bool, Idles (.rotationCompare same) s) ∧
      (s.rd (H.rotPhase) = 1 → s.faultDue = false → s.rotUnits &&& s.rd (H.rotMoved) ≠ s.rotUnits → Settles (.rotationCompare true) s [(H.rotPhase, 2)] []) ∧
      (s.rd (H.rotPhase) = 1 → s.faultDue = false → p < 9 → Ends (.rotationCompare false) s (fun t => t.rd (H.rotT) = 0 ∧ t.rd (H.rotPhase) = 0 ∧ t.rd (H.rotMis) = rot ∧
        t.rd K.TSTRIP_ROT_ABORTS = (s.rd K.TSTRIP_ROT_ABORTS + 1) % 2 ^ 32 ∧ (0x700C, 0x1A04, args, 0) ∈ raisedOf t ∧
        (s.rd (K.CLUSTERS_CL_STATE p) = 5 → t.rd (K.CLUSTERS_CL_STATE p) = 1) ∧ StoresKept s t)) ∧
      (∀ x : Fin 4,
        let m := s.rd (H.rotMoved) ||| 2 ^ x.val
        (s.rd (H.rotPhase) < 2 ∨ s.faultDue = true → Idles (.rotationMove x) s) ∧
        (2 ≤ s.rd (H.rotPhase) → s.faultDue = false → s.rotUnits &&& m ≠ s.rotUnits → Settles (.rotationMove x) s [(H.rotMoved, m)] []) ∧
        (s.rd (H.rotPhase) = 2 → s.faultDue = false → s.rotUnits &&& m = s.rotUnits → c < 8 → p < 9 → 1 ≤ rot → rot ≤ 9 → p ≠ rot - 1 → thus (.rotationMove x) (fun u =>
          u.rd (K.CLMAP_PHYS c) = p ∧ u.rd K.CLMAP_SPARE = rot - 1 ∧ u.rd (K.CLUSTERS_CL_STATE p) = 0 ∧ u.rd (K.CLUSTERS_CL_STATE (rot - 1)) = 1 ∧
          u.rd (H.rotT) = 0 ∧ u.rd (H.spareOk) = 0 ∧ u.rd K.TSTRIP_ROTATIONS = (s.rd K.TSTRIP_ROTATIONS + 1) % 2 ^ 32 ∧
          (0x700B, 0x1A04, args, (s.now - s.rd (H.rotAt)) / 1000 % 2 ^ 32) ∈ raisedOf u))))

/-- Management pairs fail, take over and load their images. A failing or unwatched active pair stops serving; a lone pair is reset, its
sessions suspended and an activation of the last 600 s taken back. The standby pair takes over where it is READY: it is active, the
change counts and is raised with its cause, open sessions are SUSPENDED; without a READY standby nothing happens, and MGMT.SWITCHOVER
answers BUSY. An image that is valid makes the pair serve, or the standby READY; a wrong one is INVALID and the other slot is next. A
control port's link follows its cable while the port is up and enabled, with its PTP clock. -/
def Obligations.ManagementPairs : Prop :=
  ∀ s : State,
    let on : Prop := s.rd H.mgmtOn = 1
    let p := s.rd K.MGMT_ACTIVE
    let st := s.rd K.MGMT_STANDBY_STATE
    let mm := 0x71 + p
    let suspends (t : State) : Prop := s.rd K.QCP_RESUME_WINDOW ≠ 0 → ∀ j < 16,
      t.rd (K.SESS_STATE j) = if s.rd (K.SESS_STATE j) = 1 then 2 else s.rd (K.SESS_STATE j)
    (∀ c : Instr, ∀ cause : Nat, (c = .mgmtFault ∧ cause = 0) ∨ (c = .mgmtWatchdogExpiry ∧ cause = 1) →
      (¬ on → Idles c s) ∧
      (on → p < 2 → st ≠ 1 → st ≠ 2 → Changes c s [(H.mgmtOn, 0), (H.mgmtCause, cause + 1)]
        ([K.NEG_PRINT_STATE, K.PORT_STATE mm, K.PORT_OUTSTANDING mm, K.PORT_LAST_DRAIN mm] ++
          (List.range 4).flatMap (fun j => [H.lockBy (0x40 + j), H.lockCnt (0x40 + j), H.lockClose (0x40 + j)])) []) ∧
      (on → p < 2 → st = 1 ∨ st = 2 → Ends c s (fun t => t.rd H.mgmtOn = 0 ∧ t.rd H.mgmtCause = cause + 1 ∧ t.rd (K.PD_FUNCS (1 + p)) = 0 ∧
        suspends t ∧ StoresKept s t ∧
        (s.rd K.FW_PENDING ≠ 0xFF → s.now ≤ s.rd H.pendEnd → t.rd (H.pairSlot p) = s.rd H.pendOld ∧ t.rd K.FW_PENDING = 0xFF ∧
          (0x9009, 0x1010, s.rd H.pendOld % 2 ^ 32, s.rd (H.pairVer p) % 2 ^ 32) ∈ raisedOf t)))) ∧
    (let cause := s.rd H.mgmtCause
     let back : Prop := s.rd K.FW_PENDING ≠ 0xFF ∧ (cause = 1 ∨ cause = 2) ∧ s.now ≤ s.rd H.pendEnd
     (cause = 0 ∨ (st ≠ 0 ∧ ¬ (back ∧ st = 3)) → Idles .mgmtSwitchover s) ∧
     (cause ≠ 0 → st = 0 → ¬ back → p < 2 → Ends .mgmtSwitchover s (fun t => t.rd K.MGMT_ACTIVE = 1 - p ∧
        t.rd K.MGMT_SWITCHOVERS = (s.rd K.MGMT_SWITCHOVERS + 1) % 2 ^ 32 ∧ t.rd K.MGMT_LAST_SWITCH = s.todP ∧
        t.rd K.MGMT_STANDBY_STATE = (if s.rd (K.PD_STATE (1 + p)) = 3 then 3 else 2) ∧ t.rd (K.PD_FUNCS (1 + p)) = 0 ∧
        (0x700F, 0x1A05, 1 - p, (cause - 1) % 2 ^ 32) ∈ raisedOf t ∧ suspends t ∧ StoresKept s t))) ∧
    (∀ (q : Req) (i : Nat), Serves s q i → holds (s.rd (K.SESS_RIGHTS i)) 3 = true →
      (st ≠ 0 → exec (.mgmtForceSwitchover q) s = .next (declined s q i K.MGMT_SWITCHOVER 5 [] id)) ∧
      (st = 0 → p < 2 → Ends (.mgmtForceSwitchover q) s (fun t => t.rd H.mgmtOn = 0 ∧ t.rd H.mgmtCause = 3 ∧ t.rd K.MGMT_SWITCHOVER = 1 ∧
        t.rd K.IDENT_CFG_SEQ = (s.rd K.IDENT_CFG_SEQ + 1) % 2 ^ 64 ∧ raisedOf t = raisedOf s ∧ StoresKept s t))) ∧
    (∀ (m : Fin 2) (cause version sec : Nat),
      let r := m.val
      let c : Instr := .imageLoad m cause version sec
      let b := s.rd (H.pairSlot r)
      let first : Prop := ¬ on ∧ (s.rd H.mgmtCause = 0 ∨ p = r)
      let loads : Prop := s.rd (K.PD_STATE (1 + r)) = 3 ∧ (s.rd (K.PD_FUNCS (1 + r))).testBit 0 = false ∧ s.rd (H.loadTry r) < 2
      (¬ loads → Idles c s) ∧
      (loads → cause ≠ 0 → s.rd (H.loadTry r) = 0 → ¬ (first ∧ s.rd K.FW_PENDING ≠ 0xFF) →
        Does c s [(slotState b, 2), (H.pairSlot r, 1 - b), (H.loadTry r, 1)] [(0x9007, 0x1010, b % 2 ^ 32, cause % 2 ^ 32)]) ∧
      (loads → cause = 0 → on → s.rd H.recov = 0 → Ends c s (fun t => t.rd (slotState b) = 1 ∧ t.rd (slotVer b) = version % 2 ^ 32 ∧
        (t.rd (K.PD_FUNCS (1 + r))).testBit 0 = true ∧ t.rd K.MGMT_STANDBY_STATE = 0 ∧ StoresKept s t)) ∧
      (loads → cause = 0 → ¬ on → s.rd H.mgmtCause = 0 → ∃ u : State, exec c s = .next u.protSync ∧ u.rd H.mgmtOn = 1 ∧ u.rd H.recov = 0 ∧
        u.rd K.MGMT_ACTIVE = r ∧ u.rd K.IDENT_FW_SLOT = b ∧ u.rd K.IDENT_FW_VERSION = version % 2 ^ 32 ∧ u.rd (slotState b) = 1 ∧
        (s.rd H.booted ≠ 1 → (0x9005, 0x1840, (b * 256 + r) % 2 ^ 32, (s.now - s.rd H.relAt) / 1000 % 2 ^ 32) ∈ raisedOf u) ∧ StoresKept s u)) ∧
    (∀ (m : Fin 2) (l : Fin 3),
      let c := m.val
      let link := K.CTL_LINK c
      let new := if l.val ≠ 0 ∧ s.rd (K.PD_STATE (3 + c)) = 3 ∧ (s.rd (K.PD_FUNCS (3 + c))).testBit 0 = true ∧ s.rd (K.CTL_ENABLE c) = 1
        then l.val else 0
      (s.rd link = new → Idles (.ctlLink m l) s) ∧
      (s.rd link ≠ new → Ends (.ctlLink m l) s (fun t => t.rd link = new ∧ (0x8007, 0x1130 + 8 * c, c, new) ∈ raisedOf t ∧
        (new = 0 → t.rd (K.REF_PTP_PORT_STATE (50 + c)) = 0 ∧ t.rd (K.REF_STATE (50 + c)) = 0) ∧
        (new ≠ 0 → s.rd (K.REF_PTP_PORT_STATE (50 + c)) = 0 → t.rd (K.REF_PTP_PORT_STATE (50 + c)) = 1) ∧ StoresKept s t)))

/-- What a reset leaves, and how domains go on and off. A power-on or pin reset holds the part with every register at its reset value
but what fuses, flash and the outside keep, both stores of pictures empty and the flash as it was. Its release raises RESET_CAUSE first
and switches domains on as the boot configuration says. A warm reset keeps the scratch area, the flash, the fault counts and the waiting
commands. ENABLE 1 asks for power and clears a FAULT; ENABLE 0 is RANGE for AON and REFCLK, BUSY for a domain in use, and else powers it
down; FORCE_OFF does so whatever the use. A domain becomes READY, its functions report, a fault takes them away, and POWERING_DOWN ends
in OFF, each with its event. -/
def Obligations.ResetsAndDomains : Prop :=
  ∀ s : State,
    (∀ c : Instr, ∀ cause : Nat, (c = .powerOnReset false ∧ cause = 0) ∨ (c = .powerOnReset true ∧ cause = 1) ∨ (c = .pinReset ∧ cause = 2) →
      Ends c s (fun t => t.rd H.rstCause = cause ∧ t.rd H.running = 0 ∧ t.pending = s.pending ∧ t.flash = s.flash ∧ t.freeCtr = s.freeCtr ∧
        t.lat = [] ∧ t.com = [] ∧ t.due = [] ∧ t.tx = [] ∧ t.cache = [] ∧ t.subs = [] ∧ t.bursts = [] ∧
        (∀ a, t.rdMem a = State.reset.rdMem a) ∧
        (∀ k, k ≠ H.rstCause → t.rd k = if keepCold k then s.rd k else State.reset.rd k))) ∧
    (let cause := s.rd H.rstCause
     let mask := match s.bootCfg with | some l => bootMask l | none => 2 ^ 56 - 1
     (s.rd H.running = 1 → Idles .resetRelease s) ∧
     (s.rd H.running ≠ 1 → Ends .resetRelease s (fun t => t.rd H.running = 1 ∧ t.rd K.RESET_CAUSE = cause ∧ t.rd (K.PD_STATE 0) = 3 ∧
        t.rd (K.PD_FUNCS 0) = 7 ∧ (∀ i < 56, t.rd (K.PD_ENABLE i) = if mask.testBit i then 1 else 0) ∧
        t.rd K.XO_FREQ = (match s.bootCfg with | some l => fld l 8 4 | none => 54000000) ∧
        t.rd K.MGMT_STANDBY_STATE = (if mask.testBit 1 ∧ mask.testBit 2 then 3 else 2) ∧
        raisedOf t = raisedOf s ++ (0x9004, 0x1840, cause % 2 ^ 32, 0) :: (if s.bootCfg = none then [(0x9006, 0x1840, 3, 0)] else []) ∧
        StoresKept s t))) ∧
    (∀ (q : Req) (j : Nat), Serves s q j → holds (s.rd (K.SESS_RIGHTS j)) 3 = true →
      Ends (.warmReset q) s (fun t => t.rd K.RESET_CAUSE = 3 ∧ t.rd H.warm = (s.rd H.warm + 1) % 2 ^ 32 ∧ t.lat = [] ∧ t.com = [] ∧ t.due = [] ∧
        t.subs = [] ∧ t.cache = [] ∧ t.flash = s.flash ∧ t.pending = s.pending ∧
        (∀ a, t.rdMem a = if place a = .scratch then s.rdMem a else State.reset.rdMem a) ∧
        t.rd (K.PD_STATE 0) = 3 ∧ (∀ i, 0 < i → i < 56 → t.rd (K.PD_STATE i) = 0) ∧ (∀ i < 56, t.rd (K.PD_FAULTS i) = s.rd (K.PD_FAULTS i)))) ∧
    (∀ d : Fin 56,
      let i := d.val
      let en := K.PD_ENABLE i
      let st := K.PD_STATE i
      let x := s.rd st
      let quiet : Prop := 20 ≤ i → i ≤ 31 → ∀ k < 4, s.rd (K.OUT_TSTATE (4 * (i - 20) + k)) = 0
      let pair : Prop := (i = 1 ∨ i = 2) ∧ s.rd K.MGMT_ACTIVE = i - 1
      let off (t : State) : Prop := t.rd en = 0 ∧ t.rd st = 4 ∧ t.rd (K.PD_FUNCS i) = 0 ∧
        (0x9001, 0x1800 + i, i, (x * 256 + 4) % 2 ^ 32) ∈ raisedOf t
      (∀ (q : Req) (j : Nat), Serves s q j → holds (s.rd (K.SESS_RIGHTS j)) 2 = true →
        (x = 3 → s.rd en = 1 → Writes (.domainEnable q d) s q j en [] []) ∧
        (x = 5 → Writes (.domainEnable q d) s q j en [(en, 1), (H.pdOn i, s.now + 1), (st, 0)] [(0x9001, 0x1800 + i, i, 1280)]) ∧
        (x ≠ 5 → ¬ (x = 3 ∧ s.rd en = 1) → Writes (.domainEnable q d) s q j en [(en, 1), (H.pdOn i, s.now + 1)] []) ∧
        (i = 0 ∨ i = 5 → exec (.domainDisable q d) s = .next (declined s q j en 4 [] id)) ∧
        (i ≠ 0 → i ≠ 5 →
          (s.rd en = 0 → Writes (.domainDisable q d) s q j en [] []) ∧
          (s.rd en ≠ 0 → (arrived q j s).pdUsed i q.port = true → exec (.domainDisable q d) s = .next (declined s q j en 5 [] id)) ∧
          (s.rd en ≠ 0 → (arrived q j s).pdUsed i q.port = false →
            (x = 0 ∨ x = 4 → Writes (.domainDisable q d) s q j en [(en, 0)] []) ∧
            (x = 5 → Writes (.domainDisable q d) s q j en [(en, 0), (st, 0)] [(0x9001, 0x1800 + i, i, 1280)]) ∧
            (x = 1 ∨ x = 2 ∨ x = 3 → quiet → Ends (.domainDisable q d) s off)))) ∧
      (∀ (q : Req) (j : Nat), Serves s q j → holds (s.rd (K.SESS_RIGHTS j)) 3 = true →
        (i = 0 ∨ i = 5 ∨ pair → exec (.forceOff q d) s = .next (declined s q j (K.PD_FORCE_OFF i) 4 [] id)) ∧
        (i ≠ 0 → i ≠ 5 → ¬ pair →
          (x = 0 ∨ x = 4 → Writes (.forceOff q d) s q j (K.PD_FORCE_OFF i) [(K.PD_FORCE_OFF i, 1), (en, 0)] []) ∧
          (x = 5 → Writes (.forceOff q d) s q j (K.PD_FORCE_OFF i) [(K.PD_FORCE_OFF i, 1), (en, 0), (st, 0)] [(0x9001, 0x1800 + i, i, 1280)]) ∧
          (x = 1 ∨ x = 2 ∨ x = 3 → quiet → Ends (.forceOff q d) s (fun t => off t ∧ t.rd (K.PD_FORCE_OFF i) = 1)))) ∧
      (x ≠ 1 → x ≠ 2 → Idles (.domainReady d) s) ∧
      (x = 1 ∨ x = 2 → Ends (.domainReady d) s (fun t => t.rd st = 3 ∧ t.rd (K.PD_READY_TIME i) = s.todP ∧
        (0x9001, 0x1800 + i, i, x * 256 + 3) ∈ raisedOf t ∧ StoresKept s t ∧
        (pdWith i = true → t.rd (K.PD_FUNCS i) = pdFuncs i ∧ (0x9003, 0x1800 + i, i, pdFuncs i) ∈ raisedOf t))) ∧
      (∀ b : Fin 32,
        let no : Prop := x ≠ 3 ∨ (s.rd (K.PD_FUNCS i)).testBit b.val = true ∨ (pdFuncs i).testBit b.val = false ∨ i = 1 ∨ i = 2
        let f := s.rd (K.PD_FUNCS i) ||| 2 ^ b.val
        (no → Idles (.funcReady d b) s) ∧
        (¬ no → Ends (.funcReady d b) s (fun t => t.rd (K.PD_FUNCS i) = f ∧ (0x9003, 0x1800 + i, i, f % 2 ^ 32) ∈ raisedOf t ∧ StoresKept s t))) ∧
      (∀ cause : Nat, (x ≠ 1 → x ≠ 2 → x ≠ 3 → Idles (.domainFault d cause) s) ∧
        (x = 1 ∨ x = 2 ∨ x = 3 → quiet → Ends (.domainFault d cause) s (fun t => t.rd st = 5 ∧ t.rd (K.PD_FUNCS i) = 0 ∧
          t.rd (K.PD_FAULTS i) = (s.rd (K.PD_FAULTS i) + 1) % 2 ^ 32 ∧ (0x9002, 0x1800 + i, i, cause % 2 ^ 32) ∈ raisedOf t))) ∧
      (x = 4 → Does (.domainOff d) s [(st, 0)] [(0x9001, 0x1800 + i, i, 1024)]) ∧ (x ≠ 4 → Idles (.domainOff d) s))

/-- Firmware and flash, the Negative's printing, the pins. VERIFY and ERASE answer TIMEOUT and run on, or BUSY; their ends set the
slot's state or erase the sector. FLASH.DATA programs 1,024 bytes, each bit only from 1 to 0, and advances ADDR; a read returns the
bytes. ACTIVATE hands over to the image, CONFIRM makes it the boot slot in both copies. RELEASE is BUSY unless FROZEN, which it makes
read so first; a print takes the named slot or the one it picks, waits for a management pair, and ends in a VALID slot, or an INVALID
one on a flash error; the last POST entry freezes. FUNC is claimed, released, BUSY or in CONFLICT; a level at a ball is taken over; a
pulse that has lasted PULSE ends with its tick. -/
def Obligations.FirmwareNegativePins : Prop :=
  ∀ s : State, Canonical s = true →
    (∀ (q : Req) (i : Nat), Serves s q i → holds (s.rd (K.SESS_RIGHTS i)) 3 = true →
      let counts (t : State) : Prop := t.rd K.IDENT_CFG_SEQ = (s.rd K.IDENT_CFG_SEQ + 1) % 2 ^ 64
      let p := s.rd K.MGMT_ACTIVE
      let pend := s.rd K.FW_PENDING
      let a := s.rd K.FLASH_ADDR
      let shut : Prop := s.rd K.FLASH_STATE ≠ 0 ∨ s.flashShut a = true
      (∀ v < 256,
        (2 ≤ v → exec (.fwVerify q v) s = .next (declined s q i K.FW_VERIFY 4 [] id)) ∧
        (v < 2 → s.rd H.verify ≠ 0 → exec (.fwVerify q v) s = .next (declined s q i K.FW_VERIFY 5 [] id)) ∧
        (v < 2 → s.rd H.verify = 0 → exec (.fwVerify q v) s = .next (declined s q i K.FW_VERIFY 9 []
          (fun m => (m.wrs [(K.FW_VERIFY, v), (H.verify, v + 1)]).inc K.IDENT_CFG_SEQ 1 (2 ^ 64)))) ∧
        (∀ cause version : Nat,
          let c : Instr := .fwActivate q v cause version
          let st := s.rd K.MGMT_STANDBY_STATE
          let stops (t : State) : Prop := t.rd K.FW_PENDING = v ∧ t.rd H.pendOld = s.rd (H.pairSlot p) ∧ t.rd H.pendEnd = s.now + 600000000 ∧
            t.rd H.mgmtOn = 0 ∧ t.rd H.mgmtCause = 4 ∧ (0x9008, 0x1010, v, version % 2 ^ 32) ∈ raisedOf t ∧ counts t
          (2 ≤ v → exec c s = .next (declined s q i K.FW_ACTIVATE 4 [] id)) ∧
          (v < 2 → st ≠ 2 → st ≠ 0 ∨ cause ≠ 0 → exec c s = .next (declined s q i K.FW_ACTIVATE 5 [] id)) ∧
          (v < 2 → p < 2 → st = 0 → cause = 0 → Ends c s (fun t => stops t ∧ t.rd (slotState v) = 1 ∧ t.rd (slotVer v) = version % 2 ^ 32 ∧
            t.rd (H.pairSlot (1 - p)) = v)) ∧
          (v < 2 → p < 2 → st = 2 → Ends c s (fun t => stops t ∧ t.rd (H.pairSlot p) = v)))) ∧
      (pend = 0xFF → exec (.fwConfirm q) s = .next (declined s q i K.FW_CONFIRM 5 [] id)) ∧
      (pend < 0xFF → Ends (.fwConfirm q) s (fun t => t.rd K.FW_PENDING = 0xFF ∧ t.rd K.FW_BOOT_SLOT = pend ∧ counts t ∧
        t.rd K.FW_SEC_VERSION = max (s.rd K.FW_SEC_VERSION) (s.rd (H.pairSec p)) ∧ t.rdFlash 5 = pend ∧ t.rdFlash 0x1005 = pend ∧
        (∀ x, 0x2000 ≤ x → t.rdFlash x = s.rdFlash x) ∧
        raisedOf t = raisedOf s ++ [(0x900A, 0x1010, pend, max (s.rd K.FW_SEC_VERSION) (s.rd (H.pairSec p)) % 2 ^ 32)])) ∧
      (shut → exec (.flashErase q) s = .next (declined s q i K.FLASH_ERASE 5 [] id) ∧
        ∀ v, exec (.flashDataWrite q v) s = .next (declined s q i K.FLASH_DATA 5 [] id)) ∧
      (¬ shut → exec (.flashErase q) s = .next (declined s q i K.FLASH_ERASE 9 [] (fun m =>
          (m.wrs [(K.FLASH_ERASE, 1), (K.FLASH_STATE, 1), (H.eraseAt, a / 65536 * 65536)]).inc K.IDENT_CFG_SEQ 1 (2 ^ 64))) ∧
        ∀ v, Ends (.flashDataWrite q v) s (fun t => t.rd K.FLASH_ADDR = (a + 1024) % 0x2000000 ∧ counts t ∧
          (∀ j < 1024, t.rdFlash (a + j) = s.rdFlash (a + j) &&& (bytesBE 1024 v).getD j 0) ∧
          (∀ x, x < a ∨ a + 1024 ≤ x → t.rdFlash x = s.rdFlash x) ∧ ∀ x, t.rdMem x = s.rdMem x)) ∧
      exec (.flashDataRead q) s = .next (replied s q i 0x10 0 (bytesBE 3 K.FLASH_DATA ++ [0] ++ bytesBE 1024 s.flashData) (arrived q i s))) ∧
    (s.rd H.verify = 0 → ∀ cause version, Idles (.fwVerifyDone cause version) s) ∧
    (s.rd H.verify ≠ 0 → ∀ cause version : Nat,
      let b := s.rd H.verify - 1
      (s.slotUsed b = true → Does (.fwVerifyDone cause version) s
        [(H.verify, 0), (slotState b, if cause = 0 then 1 else 2), (slotVer b, version % 2 ^ 32)] []) ∧
      (s.slotUsed b = false → Does (.fwVerifyDone cause version) s [(H.verify, 0), (slotState b, 0), (slotVer b, 0)] [])) ∧
    (s.rd K.FLASH_STATE ≠ 1 → Idles .flashEraseDone s) ∧
    (s.rd K.FLASH_STATE = 1 →
      let e := s.rd H.eraseAt
      Ends .flashEraseDone s (fun t => t.rd K.FLASH_STATE = 0 ∧ (∀ x, t.rdFlash x = if e ≤ x ∧ x < e + 65536 then 0xFF else s.rdFlash x) ∧
        RegsKept [K.FLASH_STATE, K.FW_SLOT_A_STATE, K.FW_SLOT_A_VER, K.FW_SLOT_B_STATE, K.FW_SLOT_B_VER] s t ∧ raisedOf t = raisedOf s ∧
        ∀ x, t.rdMem x = s.rdMem x)) ∧
    (let ps := s.rd K.NEG_PRINT_STATE
     let starts (j cause : Nat) : List (Nat × Nat) := [(K.NEG_PRINT_STATE, if s.rd H.mgmtOn = 1 then 2 else 1), (H.printSlot, j),
       (H.printCause, cause), (H.printFrom, s.rd K.NEG_WRITTEN)]
     let frozen : Prop := s.rd K.NEG_STATE = 1 ∧ s.rd H.negLeft = 0
     let post (f : List (Nat × Nat) → List (Nat × Nat × Nat × Nat) → Prop) : Prop :=
       (s.rd K.NEG_AUTO_PRINT = 0 → f [(K.NEG_STATE, 2)] []) ∧
       (s.rd K.NEG_AUTO_PRINT ≠ 0 → ps ≠ 0 → f [(K.NEG_STATE, 2), (H.negAuto, 1)] []) ∧
       (s.rd K.NEG_AUTO_PRINT ≠ 0 → ps = 0 → (s.slotPick = none → f [(K.NEG_STATE, 2)] [(0x7016, 0x1C00, 0xFF, 1)]) ∧
         ∀ j, s.slotPick = some j → f ((K.NEG_STATE, 2) :: starts j 1) [])
     (∀ (q : Req) (i : Nat), Serves s q i → holds (s.rd (K.SESS_RIGHTS i)) 1 = true →
        let releases (w : List (Nat × Nat)) (ev : List (Nat × Nat × Nat × Nat)) : Prop :=
          Writes (.negRelease q) s q i K.NEG_RELEASE ([(K.NEG_RELEASE, 1), (H.negRel, 1)] ++ w) ev
        (s.rd K.NEG_STATE = 2 → s.rd H.negRel = 0 → releases [] []) ∧
        (frozen → s.rd H.negRel = 0 → post releases) ∧
        (¬ (s.negFrozen = true ∧ s.rd H.negRel = 0) → exec (.negRelease q) s = .next (declined s q i K.NEG_RELEASE 5 [] id)) ∧
        (∀ v < 256,
          let no (st : Nat) : Prop := exec (.negPrint q v) s = .next (declined s q i K.NEG_PRINT st [] id)
          let yes (j : Nat) : Prop := Writes (.negPrint q v) s q i K.NEG_PRINT ((K.NEG_PRINT, v) :: starts j 0) []
          (4 ≤ v → v ≠ 0xFF → no 4) ∧ (v < 4 ∨ v = 0xFF → ps ≠ 0 → no 5) ∧
          (v < 4 → ps = 0 → ((s.rd K.NEG_LOCK).testBit v = true → no 5) ∧ ((s.rd K.NEG_LOCK).testBit v = false → yes v)) ∧
          (v = 0xFF → ps = 0 → (s.slotPick = none → no 5) ∧ ∀ j, s.slotPick = some j → yes j))) ∧
     (¬ frozen → Idles .negPostDone s) ∧ (frozen → post (Does .negPostDone s)) ∧
     (ps = 1 ∧ s.rd H.mgmtOn = 1 → Does .negPrintStart s [(K.NEG_PRINT_STATE, 2), (H.printFrom, s.rd K.NEG_WRITTEN)] []) ∧
     (¬ (ps = 1 ∧ s.rd H.mgmtOn = 1) → Idles .negPrintStart s) ∧
     (∀ ok : Bool,
        let j := s.rd H.printSlot
        let n := s.printCount
        let seq := (s.rd H.printSeq + 1) % 2 ^ 32
        (ps ≠ 2 → Idles (.negPrinted ok) s) ∧
        (ps = 2 → j < 4 → s.rd H.printCause < 2 → s.rd H.negAuto ≠ 1 → Ends (.negPrinted ok) s (fun t => t.rd K.NEG_PRINT_STATE = 0 ∧
          (∀ x, x < slotFlash j ∨ slotFlash j + 0x40000 ≤ x → t.rdFlash x = s.rdFlash x) ∧ (∀ x, t.rdMem x = s.rdMem x) ∧
          (ok = true → t.rd (K.SLOT_STATE j) = 1 ∧ t.rd (K.SLOT_ENTRIES j) = n ∧ t.rd (K.SLOT_PRINT_SEQ j) = seq ∧ t.rd H.printSeq = seq ∧
            raisedOf t = raisedOf s ++ [(0x7015, 0x1C00, j, n)]) ∧
          (ok = false → t.rd (K.SLOT_STATE j) = 2 ∧ (∀ x, slotFlash j ≤ x → x < slotFlash j + 0x40000 → t.rdFlash x = 0xFF) ∧
            raisedOf t = raisedOf s ++ [(0x7016, 0x1C00, j, 0)]))))) ∧
    (∀ pin : Fin 32,
      let p := pin.val
      let k := K.PIN_FUNC p
      let f := s.rd k
      let ready : Prop := s.rd (K.PD_STATE 55) = 3
      (∀ (q : Req) (i v : Nat), Serves s q i → holds (s.rd (K.SESS_RIGHTS i)) 2 = true → v ≤ 9 →
        let no (st : Nat) (l : List Nat) : Prop := exec (.pinFuncWrite q pin v) s = .next (declined s q i k st l id)
        (¬ ready → no 5 []) ∧ (ready → v = f → Writes (.pinFuncWrite q pin v) s q i k [] []) ∧
        (ready → v ≠ f → v ≠ 0 → f ≠ 0 → no 7 (bytesBE 4 k)) ∧ (ready → v = 0 → f ≠ 0 → s.pinArmed p = true → no 5 []) ∧
        (ready → v ≠ f → v = 0 ∨ f = 0 → ¬ (v = 0 ∧ s.pinArmed p = true) →
          (argOk v (s.rd (K.PIN_ARG p)) = false → no 4 []) ∧
          (argOk v (s.rd (K.PIN_ARG p)) = true → Ends (.pinFuncWrite q pin v) s (fun t => t.rd k = v ∧ t.rd (H.pinArg p) = s.rd (K.PIN_ARG p) ∧
            t.rd (H.pinPol p) = s.rd (K.PIN_POLARITY p) ∧ (∀ r < 32, r ≠ p → t.rd (K.PIN_FUNC r) = s.rd (K.PIN_FUNC r)) ∧
            raisedOf t = raisedOf s ∧ StoresKept s t)))) ∧
      (s.rd (H.pinEnd p) = 0 ∨ s.now + 1 < s.rd (H.pinEnd p) → Idles (.eventOutPulseEnd pin) s) ∧
      (s.rd (H.pinEnd p) ≠ 0 → s.rd (H.pinEnd p) ≤ s.now + 1 → Does (.eventOutPulseEnd pin) s [(H.pinDue p, 1)] []) ∧
      (∀ high : Bool,
        let level := if high then 1 else 0
        (ready → pinInput f = true → Does (.gpioInputLevel pin high) s [(H.pinIn p, level), (H.pinArg p, s.rd (K.PIN_ARG p)),
          (H.pinPol p, s.rd (K.PIN_POLARITY p))] []) ∧
        (¬ (ready ∧ pinInput f = true) → Does (.gpioInputLevel pin high) s [(H.pinIn p, level)] [])))
end

