-- ==== Sys2Proof/Laws/Lists.lean ====
section
/-! SUPPORT. Reading after writing, and canonical forms, of the sorted lists the state is made of. -/
namespace Sys2Proof.Machine

/-! ## Lists of (key, value) -/

/-- A key reads as it was set. -/
theorem alGet_alSet_self (l : List (Nat × Nat)) (k v : Nat) : alGet (alSet l k v) k = some v := by
  induction l with
  | nil => simp [alSet, alGet]
  | cons p t ih =>
    obtain ⟨a, b⟩ := p
    simp only [alSet]
    by_cases h1 : k < a
    · simp [h1, alGet]
    · by_cases h2 : a = k
      · simp [h2, alGet]
      · simp [h1, h2, alGet, ih]

/-- Setting a key leaves the others. -/
theorem alGet_alSet_ne (l : List (Nat × Nat)) {k j : Nat} (v : Nat) (h : j ≠ k) : alGet (alSet l k v) j = alGet l j := by
  have h' : k ≠ j := fun e => h e.symm
  induction l with
  | nil => simp [alSet, alGet, h']
  | cons p t ih =>
    obtain ⟨a, b⟩ := p
    simp only [alSet]
    by_cases h1 : k < a
    · simp [h1, alGet, h']
    · by_cases h2 : a = k
      · subst h2; simp [alGet, h']
      · simp [h1, h2, alGet, ih]

/-- A dropped key is not listed. -/
theorem alGet_alErase_self (l : List (Nat × Nat)) (k : Nat) : alGet (alErase l k) k = none := by
  induction l with
  | nil => rfl
  | cons p t ih =>
    obtain ⟨a, b⟩ := p
    unfold alErase at ih ⊢
    by_cases h : a = k
    · simp [h, ih]
    · simp [h, alGet, ih]

/-- Dropping a key leaves the others. -/
theorem alGet_alErase_ne (l : List (Nat × Nat)) {k j : Nat} (h : j ≠ k) : alGet (alErase l k) j = alGet l j := by
  induction l with
  | nil => rfl
  | cons p t ih =>
    obtain ⟨a, b⟩ := p
    unfold alErase at ih ⊢
    by_cases h1 : a = k
    · subst h1
      simp [alGet, Ne.symm h, ih]
    · by_cases h2 : a = j
      · subst h2; simp [h1, alGet]
      · simp [h1, h2, alGet, ih]

/-- Rising keys, as a statement about the head and the rest. -/
theorem alSorted_cons (a v : Nat) (t : List (Nat × Nat)) :
    alSorted ((a, v) :: t) = true ↔ (∀ p ∈ t, a < p.1) ∧ alSorted t = true := by
  induction t generalizing a v with
  | nil => simp [alSorted]
  | cons p t ih =>
    obtain ⟨b, w⟩ := p
    simp only [alSorted, Bool.and_eq_true, decide_eq_true_eq]
    constructor
    · rintro ⟨h, hs⟩
      have h2 := (ih b w).1 hs
      refine ⟨?_, hs⟩
      intro q hq
      rcases List.mem_cons.1 hq with rfl | hq
      · exact h
      · exact Nat.lt_trans h (h2.1 q hq)
    · rintro ⟨h, hs⟩
      exact ⟨h (b, w) (List.mem_cons_self ..), hs⟩

/-- What a list holds after setting a key. -/
theorem mem_alSet {l : List (Nat × Nat)} {k v : Nat} {p : Nat × Nat} (h : p ∈ alSet l k v) : p = (k, v) ∨ p ∈ l := by
  induction l with
  | nil => simpa [alSet] using h
  | cons q t ih =>
    obtain ⟨a, b⟩ := q
    simp only [alSet] at h
    split at h
    · rcases List.mem_cons.1 h with h | h
      · exact .inl h
      · exact .inr h
    · split at h
      · rcases List.mem_cons.1 h with h | h
        · exact .inl h
        · exact .inr (List.mem_cons_of_mem _ h)
      · rcases List.mem_cons.1 h with h | h
        · exact .inr (by simp [h])
        · rcases ih h with h | h
          · exact .inl h
          · exact .inr (List.mem_cons_of_mem _ h)

/-- Setting a key keeps the keys rising. -/
theorem alSorted_alSet {l : List (Nat × Nat)} (k v : Nat) (h : alSorted l = true) : alSorted (alSet l k v) = true := by
  induction l with
  | nil => rfl
  | cons q t ih =>
    obtain ⟨a, b⟩ := q
    have hc := (alSorted_cons a b t).1 h
    simp only [alSet]
    split
    · rename_i hk
      refine (alSorted_cons k v _).2 ⟨?_, h⟩
      intro p hp
      rcases List.mem_cons.1 hp with rfl | hp
      · exact hk
      · exact Nat.lt_trans hk (hc.1 p hp)
    · split
      · rename_i _ he
        subst he
        exact (alSorted_cons _ v t).2 hc
      · rename_i h1 h2
        refine (alSorted_cons a b _).2 ⟨?_, ih hc.2⟩
        intro p hp
        rcases mem_alSet hp with rfl | hp
        · exact Nat.lt_of_le_of_ne (Nat.le_of_not_lt h1) h2
        · exact hc.1 p hp

/-- A part of a list with rising keys has rising keys. -/
theorem alSorted_filter {l : List (Nat × Nat)} (f : Nat × Nat → Bool) (h : alSorted l = true) : alSorted (l.filter f) = true := by
  induction l with
  | nil => rfl
  | cons q t ih =>
    obtain ⟨a, b⟩ := q
    have hc := (alSorted_cons a b t).1 h
    by_cases hf : f (a, b) = true
    · rw [List.filter_cons_of_pos hf]
      exact (alSorted_cons a b _).2 ⟨fun p hp => hc.1 p (List.mem_filter.1 hp).1, ih hc.2⟩
    · rw [List.filter_cons_of_neg hf]
      exact ih hc.2

/-! ## Lists of numbers under a number -/

/-- A list reads as it was put. -/
theorem vecGet_vecSet_self (l : List (Nat × List Nat)) (k : Nat) (v : List Nat) : vecGet (vecSet l k v) k = v := by
  induction l with
  | nil => simp [vecSet, vecGet]
  | cons p t ih =>
    obtain ⟨a, b⟩ := p
    simp only [vecSet]
    by_cases h1 : k < a
    · simp [h1, vecGet]
    · by_cases h2 : a = k
      · simp [h2, vecGet]
      · simp [h1, h2, vecGet, ih]

/-- Putting a list leaves the others. -/
theorem vecGet_vecSet_ne (l : List (Nat × List Nat)) {k j : Nat} (v : List Nat) (h : j ≠ k) : vecGet (vecSet l k v) j = vecGet l j := by
  have h' : k ≠ j := fun e => h e.symm
  induction l with
  | nil => simp [vecSet, vecGet, h']
  | cons p t ih =>
    obtain ⟨a, b⟩ := p
    simp only [vecSet]
    by_cases h1 : k < a
    · simp [h1, vecGet, h']
    · by_cases h2 : a = k
      · subst h2; simp [vecGet, h']
      · simp [h1, h2, vecGet, ih]

/-! ## Stores of bytes -/

/-- A byte reads as it was listed. -/
theorem cellGet_cellSet_self (l : List Host.Cell) (a : Nat) (b : BitVec 8) : cellGet (cellSet l a b) a = some b := by
  induction l with
  | nil => simp [cellSet, cellGet]
  | cons p t ih =>
    obtain ⟨c, d⟩ := p
    simp only [cellSet]
    by_cases h1 : a < c
    · simp [h1, cellGet]
    · by_cases h2 : c = a
      · simp [h2, cellGet]
      · simp [h1, h2, cellGet, ih]

/-- Listing a byte leaves the others. -/
theorem cellGet_cellSet_ne (l : List Host.Cell) {a c : Nat} (b : BitVec 8) (h : c ≠ a) : cellGet (cellSet l a b) c = cellGet l c := by
  have h' : a ≠ c := fun e => h e.symm
  induction l with
  | nil => simp [cellSet, cellGet, h']
  | cons p t ih =>
    obtain ⟨d, e⟩ := p
    simp only [cellSet]
    by_cases h1 : a < d
    · simp [h1, cellGet, h']
    · by_cases h2 : d = a
      · subst h2; simp [cellGet, h']
      · simp [h1, h2, cellGet, ih]

/-- A dropped address is not listed. -/
theorem cellGet_cellErase_self (l : List Host.Cell) (a : Nat) : cellGet (cellErase l a) a = none := by
  induction l with
  | nil => rfl
  | cons p t ih =>
    obtain ⟨c, d⟩ := p
    unfold cellErase at ih ⊢
    by_cases h : c = a
    · simp [h, ih]
    · simp [h, cellGet, ih]

/-- Dropping an address leaves the others. -/
theorem cellGet_cellErase_ne (l : List Host.Cell) {a c : Nat} (h : c ≠ a) : cellGet (cellErase l a) c = cellGet l c := by
  induction l with
  | nil => rfl
  | cons p t ih =>
    obtain ⟨d, e⟩ := p
    unfold cellErase at ih ⊢
    by_cases h1 : d = a
    · subst h1
      simp [cellGet, Ne.symm h, ih]
    · by_cases h2 : d = c
      · subst h2; simp [h1, cellGet]
      · simp [h1, h2, cellGet, ih]

/-- A byte reads as it was written. -/
theorem cellRd_cellWr_self (z : BitVec 8) (l : List Host.Cell) (a : Nat) (b : BitVec 8) : cellRd z (cellWr z l a b) a = b := by
  unfold cellRd cellWr
  by_cases h : b = z
  · simp [h, cellGet_cellErase_self]
  · simp [h, cellGet_cellSet_self]

/-- A write leaves the other bytes. -/
theorem cellRd_cellWr_ne (z : BitVec 8) (l : List Host.Cell) {a c : Nat} (b : BitVec 8) (h : c ≠ a) :
    cellRd z (cellWr z l a b) c = cellRd z l c := by
  unfold cellRd cellWr
  by_cases h1 : b = z
  · simp [h1, cellGet_cellErase_ne l h]
  · simp [h1, cellGet_cellSet_ne l b h]

/-- Rising addresses, as a statement about the head and the rest. -/
theorem cellSorted_cons (a : Nat) (v : BitVec 8) (t : List Host.Cell) :
    cellSorted ((a, v) :: t) = true ↔ (∀ p ∈ t, a < p.1) ∧ cellSorted t = true := by
  induction t generalizing a v with
  | nil => simp [cellSorted]
  | cons p t ih =>
    obtain ⟨b, w⟩ := p
    simp only [cellSorted, Bool.and_eq_true, decide_eq_true_eq]
    constructor
    · rintro ⟨h, hs⟩
      have h2 := (ih b w).1 hs
      refine ⟨?_, hs⟩
      intro q hq
      rcases List.mem_cons.1 hq with rfl | hq
      · exact h
      · exact Nat.lt_trans h (h2.1 q hq)
    · rintro ⟨h, hs⟩
      exact ⟨h (b, w) (List.mem_cons_self ..), hs⟩

/-- What a store lists after listing a byte. -/
theorem mem_cellSet {l : List Host.Cell} {a : Nat} {b : BitVec 8} {p : Host.Cell} (h : p ∈ cellSet l a b) : p = (a, b) ∨ p ∈ l := by
  induction l with
  | nil => simpa [cellSet] using h
  | cons q t ih =>
    obtain ⟨c, d⟩ := q
    simp only [cellSet] at h
    split at h
    · rcases List.mem_cons.1 h with h | h
      · exact .inl h
      · exact .inr h
    · split at h
      · rcases List.mem_cons.1 h with h | h
        · exact .inl h
        · exact .inr (List.mem_cons_of_mem _ h)
      · rcases List.mem_cons.1 h with h | h
        · exact .inr (by simp [h])
        · rcases ih h with h | h
          · exact .inl h
          · exact .inr (List.mem_cons_of_mem _ h)

/-- Listing a byte keeps the addresses rising. -/
theorem cellSorted_cellSet {l : List Host.Cell} (a : Nat) (b : BitVec 8) (h : cellSorted l = true) : cellSorted (cellSet l a b) = true := by
  induction l with
  | nil => rfl
  | cons q t ih =>
    obtain ⟨c, d⟩ := q
    have hc := (cellSorted_cons c d t).1 h
    simp only [cellSet]
    split
    · rename_i hk
      refine (cellSorted_cons a b _).2 ⟨?_, h⟩
      intro p hp
      rcases List.mem_cons.1 hp with rfl | hp
      · exact hk
      · exact Nat.lt_trans hk (hc.1 p hp)
    · split
      · rename_i _ he
        subst he
        exact (cellSorted_cons _ b t).2 hc
      · rename_i h1 h2
        refine (cellSorted_cons c d _).2 ⟨?_, ih hc.2⟩
        intro p hp
        rcases mem_cellSet hp with rfl | hp
        · exact Nat.lt_of_le_of_ne (Nat.le_of_not_lt h1) h2
        · exact hc.1 p hp

/-- A part of a store with rising addresses has rising addresses. -/
theorem cellSorted_filter {l : List Host.Cell} (f : Host.Cell → Bool) (h : cellSorted l = true) : cellSorted (l.filter f) = true := by
  induction l with
  | nil => rfl
  | cons q t ih =>
    obtain ⟨a, b⟩ := q
    have hc := (cellSorted_cons a b t).1 h
    by_cases hf : f (a, b) = true
    · rw [List.filter_cons_of_pos hf]
      exact (cellSorted_cons a b _).2 ⟨fun p hp => hc.1 p (List.mem_filter.1 hp).1, ih hc.2⟩
    · rw [List.filter_cons_of_neg hf]
      exact ih hc.2

/-- A part of a canonical store is canonical. -/
theorem cellsWf_filter {z : BitVec 8} {l : List Host.Cell} (f : Host.Cell → Bool) (h : cellsWf z l = true) : cellsWf z (l.filter f) = true := by
  unfold cellsWf at h ⊢
  simp only [Bool.and_eq_true, List.all_eq_true] at h ⊢
  exact ⟨cellSorted_filter f h.1, fun p hp => h.2 p (List.mem_filter.1 hp).1⟩

/-- A write keeps the canonical form of a store. -/
theorem cellsWf_cellWr {z : BitVec 8} {l : List Host.Cell} (a : Nat) (b : BitVec 8) (h : cellsWf z l = true) :
    cellsWf z (cellWr z l a b) = true := by
  unfold cellWr
  by_cases hb : b = z
  · rw [if_pos hb]
    exact cellsWf_filter _ h
  · rw [if_neg hb]
    unfold cellsWf at h ⊢
    simp only [Bool.and_eq_true, List.all_eq_true] at h ⊢
    refine ⟨cellSorted_cellSet a b h.1, ?_⟩
    intro p hp
    rcases mem_cellSet hp with rfl | hp
    · simpa using hb
    · exact h.2 p hp

/-- A part of a canonical register file is canonical. -/
theorem regWf_filter {l : List (Nat × Nat)} (f : Nat × Nat → Bool) (h : regWf l = true) : regWf (l.filter f) = true := by
  unfold regWf at h ⊢
  simp only [Bool.and_eq_true, List.all_eq_true] at h ⊢
  exact ⟨alSorted_filter f h.1, fun p hp => h.2 p (List.mem_filter.1 hp).1⟩

/-- Listing a value that is no default keeps the canonical form. -/
theorem regWf_alSet {l : List (Nat × Nat)} (k v : Nat) (hv : v ≠ dflt k) (h : regWf l = true) : regWf (alSet l k v) = true := by
  unfold regWf at h ⊢
  simp only [Bool.and_eq_true, List.all_eq_true] at h ⊢
  refine ⟨alSorted_alSet k v h.1, ?_⟩
  intro p hp
  rcases mem_alSet hp with rfl | hp
  · simpa using hv
  · exact h.2 p hp

end Sys2Proof.Machine
end

