-- ==== Sys2Proof/Laws/State.lean ====
section
/-! SUPPORT. What each primitive update of the state leaves alone, one lemma for each field and update, and what the updated part reads
as afterwards. -/
namespace Sys2Proof.Machine

/-! ## wr -/

/-- `wr` leaves `pending`. -/
@[simp] theorem State.wr_pending (s : State) (k v : Nat) : (s.wr k v).pending = s.pending := rfl
/-- `wr` leaves `lat`. -/
@[simp] theorem State.wr_lat (s : State) (k v : Nat) : (s.wr k v).lat = s.lat := rfl
/-- `wr` leaves `com`. -/
@[simp] theorem State.wr_com (s : State) (k v : Nat) : (s.wr k v).com = s.com := rfl
/-- `wr` leaves `due`. -/
@[simp] theorem State.wr_due (s : State) (k v : Nat) : (s.wr k v).due = s.due := rfl
/-- `wr` leaves `mem`. -/
@[simp] theorem State.wr_mem (s : State) (k v : Nat) : (s.wr k v).mem = s.mem := rfl
/-- `wr` leaves `flash`. -/
@[simp] theorem State.wr_flash (s : State) (k v : Nat) : (s.wr k v).flash = s.flash := rfl
/-- `wr` leaves `raised`. -/
@[simp] theorem State.wr_raised (s : State) (k v : Nat) : (s.wr k v).raised = s.raised := rfl
/-- `wr` leaves `tx`. -/
@[simp] theorem State.wr_tx (s : State) (k v : Nat) : (s.wr k v).tx = s.tx := rfl
/-- `wr` leaves `cache`. -/
@[simp] theorem State.wr_cache (s : State) (k v : Nat) : (s.wr k v).cache = s.cache := rfl
/-- `wr` leaves `subs`. -/
@[simp] theorem State.wr_subs (s : State) (k v : Nat) : (s.wr k v).subs = s.subs := rfl
/-- `wr` leaves `notes`. -/
@[simp] theorem State.wr_notes (s : State) (k v : Nat) : (s.wr k v).notes = s.notes := rfl
/-- `wr` leaves `done`. -/
@[simp] theorem State.wr_done (s : State) (k v : Nat) : (s.wr k v).done = s.done := rfl
/-- `wr` leaves `spiTx`. -/
@[simp] theorem State.wr_spiTx (s : State) (k v : Nat) : (s.wr k v).spiTx = s.spiTx := rfl
/-- `wr` leaves `spiOut`. -/
@[simp] theorem State.wr_spiOut (s : State) (k v : Nat) : (s.wr k v).spiOut = s.spiOut := rfl
/-- `wr` leaves `vecs`. -/
@[simp] theorem State.wr_vecs (s : State) (k v : Nat) : (s.wr k v).vecs = s.vecs := rfl
/-- `wr` leaves `nu`. -/
@[simp] theorem State.wr_nu (s : State) (k v : Nat) : (s.wr k v).nu = s.nu := rfl
/-- `wr` leaves `bursts`. -/
@[simp] theorem State.wr_bursts (s : State) (k v : Nat) : (s.wr k v).bursts = s.bursts := rfl
/-- `wr` leaves `freeCtr`. -/
@[simp] theorem State.wr_freeCtr (s : State) (k v : Nat) : (s.wr k v).freeCtr = s.freeCtr := rfl

/-! ## up -/

/-- `up` leaves `pending`. -/
@[simp] theorem State.up_pending (s : State) (k : Nat) (f : Nat → Nat) : (s.up k f).pending = s.pending := rfl
/-- `up` leaves `lat`. -/
@[simp] theorem State.up_lat (s : State) (k : Nat) (f : Nat → Nat) : (s.up k f).lat = s.lat := rfl
/-- `up` leaves `com`. -/
@[simp] theorem State.up_com (s : State) (k : Nat) (f : Nat → Nat) : (s.up k f).com = s.com := rfl
/-- `up` leaves `due`. -/
@[simp] theorem State.up_due (s : State) (k : Nat) (f : Nat → Nat) : (s.up k f).due = s.due := rfl
/-- `up` leaves `mem`. -/
@[simp] theorem State.up_mem (s : State) (k : Nat) (f : Nat → Nat) : (s.up k f).mem = s.mem := rfl
/-- `up` leaves `flash`. -/
@[simp] theorem State.up_flash (s : State) (k : Nat) (f : Nat → Nat) : (s.up k f).flash = s.flash := rfl
/-- `up` leaves `raised`. -/
@[simp] theorem State.up_raised (s : State) (k : Nat) (f : Nat → Nat) : (s.up k f).raised = s.raised := rfl
/-- `up` leaves `tx`. -/
@[simp] theorem State.up_tx (s : State) (k : Nat) (f : Nat → Nat) : (s.up k f).tx = s.tx := rfl
/-- `up` leaves `cache`. -/
@[simp] theorem State.up_cache (s : State) (k : Nat) (f : Nat → Nat) : (s.up k f).cache = s.cache := rfl
/-- `up` leaves `subs`. -/
@[simp] theorem State.up_subs (s : State) (k : Nat) (f : Nat → Nat) : (s.up k f).subs = s.subs := rfl
/-- `up` leaves `notes`. -/
@[simp] theorem State.up_notes (s : State) (k : Nat) (f : Nat → Nat) : (s.up k f).notes = s.notes := rfl
/-- `up` leaves `done`. -/
@[simp] theorem State.up_done (s : State) (k : Nat) (f : Nat → Nat) : (s.up k f).done = s.done := rfl
/-- `up` leaves `spiTx`. -/
@[simp] theorem State.up_spiTx (s : State) (k : Nat) (f : Nat → Nat) : (s.up k f).spiTx = s.spiTx := rfl
/-- `up` leaves `spiOut`. -/
@[simp] theorem State.up_spiOut (s : State) (k : Nat) (f : Nat → Nat) : (s.up k f).spiOut = s.spiOut := rfl
/-- `up` leaves `vecs`. -/
@[simp] theorem State.up_vecs (s : State) (k : Nat) (f : Nat → Nat) : (s.up k f).vecs = s.vecs := rfl
/-- `up` leaves `nu`. -/
@[simp] theorem State.up_nu (s : State) (k : Nat) (f : Nat → Nat) : (s.up k f).nu = s.nu := rfl
/-- `up` leaves `bursts`. -/
@[simp] theorem State.up_bursts (s : State) (k : Nat) (f : Nat → Nat) : (s.up k f).bursts = s.bursts := rfl
/-- `up` leaves `freeCtr`. -/
@[simp] theorem State.up_freeCtr (s : State) (k : Nat) (f : Nat → Nat) : (s.up k f).freeCtr = s.freeCtr := rfl

/-! ## inc -/

/-- `inc` leaves `pending`. -/
@[simp] theorem State.inc_pending (s : State) (k n m : Nat) : (s.inc k n m).pending = s.pending := rfl
/-- `inc` leaves `lat`. -/
@[simp] theorem State.inc_lat (s : State) (k n m : Nat) : (s.inc k n m).lat = s.lat := rfl
/-- `inc` leaves `com`. -/
@[simp] theorem State.inc_com (s : State) (k n m : Nat) : (s.inc k n m).com = s.com := rfl
/-- `inc` leaves `due`. -/
@[simp] theorem State.inc_due (s : State) (k n m : Nat) : (s.inc k n m).due = s.due := rfl
/-- `inc` leaves `mem`. -/
@[simp] theorem State.inc_mem (s : State) (k n m : Nat) : (s.inc k n m).mem = s.mem := rfl
/-- `inc` leaves `flash`. -/
@[simp] theorem State.inc_flash (s : State) (k n m : Nat) : (s.inc k n m).flash = s.flash := rfl
/-- `inc` leaves `raised`. -/
@[simp] theorem State.inc_raised (s : State) (k n m : Nat) : (s.inc k n m).raised = s.raised := rfl
/-- `inc` leaves `tx`. -/
@[simp] theorem State.inc_tx (s : State) (k n m : Nat) : (s.inc k n m).tx = s.tx := rfl
/-- `inc` leaves `cache`. -/
@[simp] theorem State.inc_cache (s : State) (k n m : Nat) : (s.inc k n m).cache = s.cache := rfl
/-- `inc` leaves `subs`. -/
@[simp] theorem State.inc_subs (s : State) (k n m : Nat) : (s.inc k n m).subs = s.subs := rfl
/-- `inc` leaves `notes`. -/
@[simp] theorem State.inc_notes (s : State) (k n m : Nat) : (s.inc k n m).notes = s.notes := rfl
/-- `inc` leaves `done`. -/
@[simp] theorem State.inc_done (s : State) (k n m : Nat) : (s.inc k n m).done = s.done := rfl
/-- `inc` leaves `spiTx`. -/
@[simp] theorem State.inc_spiTx (s : State) (k n m : Nat) : (s.inc k n m).spiTx = s.spiTx := rfl
/-- `inc` leaves `spiOut`. -/
@[simp] theorem State.inc_spiOut (s : State) (k n m : Nat) : (s.inc k n m).spiOut = s.spiOut := rfl
/-- `inc` leaves `vecs`. -/
@[simp] theorem State.inc_vecs (s : State) (k n m : Nat) : (s.inc k n m).vecs = s.vecs := rfl
/-- `inc` leaves `nu`. -/
@[simp] theorem State.inc_nu (s : State) (k n m : Nat) : (s.inc k n m).nu = s.nu := rfl
/-- `inc` leaves `bursts`. -/
@[simp] theorem State.inc_bursts (s : State) (k n m : Nat) : (s.inc k n m).bursts = s.bursts := rfl
/-- `inc` leaves `freeCtr`. -/
@[simp] theorem State.inc_freeCtr (s : State) (k n m : Nat) : (s.inc k n m).freeCtr = s.freeCtr := rfl

/-! ## incSat -/

/-- `incSat` leaves `pending`. -/
@[simp] theorem State.incSat_pending (s : State) (k n m : Nat) : (s.incSat k n m).pending = s.pending := rfl
/-- `incSat` leaves `lat`. -/
@[simp] theorem State.incSat_lat (s : State) (k n m : Nat) : (s.incSat k n m).lat = s.lat := rfl
/-- `incSat` leaves `com`. -/
@[simp] theorem State.incSat_com (s : State) (k n m : Nat) : (s.incSat k n m).com = s.com := rfl
/-- `incSat` leaves `due`. -/
@[simp] theorem State.incSat_due (s : State) (k n m : Nat) : (s.incSat k n m).due = s.due := rfl
/-- `incSat` leaves `mem`. -/
@[simp] theorem State.incSat_mem (s : State) (k n m : Nat) : (s.incSat k n m).mem = s.mem := rfl
/-- `incSat` leaves `flash`. -/
@[simp] theorem State.incSat_flash (s : State) (k n m : Nat) : (s.incSat k n m).flash = s.flash := rfl
/-- `incSat` leaves `raised`. -/
@[simp] theorem State.incSat_raised (s : State) (k n m : Nat) : (s.incSat k n m).raised = s.raised := rfl
/-- `incSat` leaves `tx`. -/
@[simp] theorem State.incSat_tx (s : State) (k n m : Nat) : (s.incSat k n m).tx = s.tx := rfl
/-- `incSat` leaves `cache`. -/
@[simp] theorem State.incSat_cache (s : State) (k n m : Nat) : (s.incSat k n m).cache = s.cache := rfl
/-- `incSat` leaves `subs`. -/
@[simp] theorem State.incSat_subs (s : State) (k n m : Nat) : (s.incSat k n m).subs = s.subs := rfl
/-- `incSat` leaves `notes`. -/
@[simp] theorem State.incSat_notes (s : State) (k n m : Nat) : (s.incSat k n m).notes = s.notes := rfl
/-- `incSat` leaves `done`. -/
@[simp] theorem State.incSat_done (s : State) (k n m : Nat) : (s.incSat k n m).done = s.done := rfl
/-- `incSat` leaves `spiTx`. -/
@[simp] theorem State.incSat_spiTx (s : State) (k n m : Nat) : (s.incSat k n m).spiTx = s.spiTx := rfl
/-- `incSat` leaves `spiOut`. -/
@[simp] theorem State.incSat_spiOut (s : State) (k n m : Nat) : (s.incSat k n m).spiOut = s.spiOut := rfl
/-- `incSat` leaves `vecs`. -/
@[simp] theorem State.incSat_vecs (s : State) (k n m : Nat) : (s.incSat k n m).vecs = s.vecs := rfl
/-- `incSat` leaves `nu`. -/
@[simp] theorem State.incSat_nu (s : State) (k n m : Nat) : (s.incSat k n m).nu = s.nu := rfl
/-- `incSat` leaves `bursts`. -/
@[simp] theorem State.incSat_bursts (s : State) (k n m : Nat) : (s.incSat k n m).bursts = s.bursts := rfl
/-- `incSat` leaves `freeCtr`. -/
@[simp] theorem State.incSat_freeCtr (s : State) (k n m : Nat) : (s.incSat k n m).freeCtr = s.freeCtr := rfl

/-! ## countFrame -/

/-- `countFrame` leaves `pending`. -/
@[simp] theorem State.countFrame_pending (s : State) (k n : Nat) : (s.countFrame k n).pending = s.pending := rfl
/-- `countFrame` leaves `lat`. -/
@[simp] theorem State.countFrame_lat (s : State) (k n : Nat) : (s.countFrame k n).lat = s.lat := rfl
/-- `countFrame` leaves `com`. -/
@[simp] theorem State.countFrame_com (s : State) (k n : Nat) : (s.countFrame k n).com = s.com := rfl
/-- `countFrame` leaves `due`. -/
@[simp] theorem State.countFrame_due (s : State) (k n : Nat) : (s.countFrame k n).due = s.due := rfl
/-- `countFrame` leaves `mem`. -/
@[simp] theorem State.countFrame_mem (s : State) (k n : Nat) : (s.countFrame k n).mem = s.mem := rfl
/-- `countFrame` leaves `flash`. -/
@[simp] theorem State.countFrame_flash (s : State) (k n : Nat) : (s.countFrame k n).flash = s.flash := rfl
/-- `countFrame` leaves `raised`. -/
@[simp] theorem State.countFrame_raised (s : State) (k n : Nat) : (s.countFrame k n).raised = s.raised := rfl
/-- `countFrame` leaves `tx`. -/
@[simp] theorem State.countFrame_tx (s : State) (k n : Nat) : (s.countFrame k n).tx = s.tx := rfl
/-- `countFrame` leaves `cache`. -/
@[simp] theorem State.countFrame_cache (s : State) (k n : Nat) : (s.countFrame k n).cache = s.cache := rfl
/-- `countFrame` leaves `subs`. -/
@[simp] theorem State.countFrame_subs (s : State) (k n : Nat) : (s.countFrame k n).subs = s.subs := rfl
/-- `countFrame` leaves `notes`. -/
@[simp] theorem State.countFrame_notes (s : State) (k n : Nat) : (s.countFrame k n).notes = s.notes := rfl
/-- `countFrame` leaves `done`. -/
@[simp] theorem State.countFrame_done (s : State) (k n : Nat) : (s.countFrame k n).done = s.done := rfl
/-- `countFrame` leaves `spiTx`. -/
@[simp] theorem State.countFrame_spiTx (s : State) (k n : Nat) : (s.countFrame k n).spiTx = s.spiTx := rfl
/-- `countFrame` leaves `spiOut`. -/
@[simp] theorem State.countFrame_spiOut (s : State) (k n : Nat) : (s.countFrame k n).spiOut = s.spiOut := rfl
/-- `countFrame` leaves `vecs`. -/
@[simp] theorem State.countFrame_vecs (s : State) (k n : Nat) : (s.countFrame k n).vecs = s.vecs := rfl
/-- `countFrame` leaves `nu`. -/
@[simp] theorem State.countFrame_nu (s : State) (k n : Nat) : (s.countFrame k n).nu = s.nu := rfl
/-- `countFrame` leaves `bursts`. -/
@[simp] theorem State.countFrame_bursts (s : State) (k n : Nat) : (s.countFrame k n).bursts = s.bursts := rfl
/-- `countFrame` leaves `freeCtr`. -/
@[simp] theorem State.countFrame_freeCtr (s : State) (k n : Nat) : (s.countFrame k n).freeCtr = s.freeCtr := rfl

/-! ## count -/

/-- `count` leaves `pending`. -/
@[simp] theorem State.count_pending (s : State) (k n : Nat) : (s.count k n).pending = s.pending := rfl
/-- `count` leaves `lat`. -/
@[simp] theorem State.count_lat (s : State) (k n : Nat) : (s.count k n).lat = s.lat := rfl
/-- `count` leaves `com`. -/
@[simp] theorem State.count_com (s : State) (k n : Nat) : (s.count k n).com = s.com := rfl
/-- `count` leaves `due`. -/
@[simp] theorem State.count_due (s : State) (k n : Nat) : (s.count k n).due = s.due := rfl
/-- `count` leaves `mem`. -/
@[simp] theorem State.count_mem (s : State) (k n : Nat) : (s.count k n).mem = s.mem := rfl
/-- `count` leaves `flash`. -/
@[simp] theorem State.count_flash (s : State) (k n : Nat) : (s.count k n).flash = s.flash := rfl
/-- `count` leaves `raised`. -/
@[simp] theorem State.count_raised (s : State) (k n : Nat) : (s.count k n).raised = s.raised := rfl
/-- `count` leaves `tx`. -/
@[simp] theorem State.count_tx (s : State) (k n : Nat) : (s.count k n).tx = s.tx := rfl
/-- `count` leaves `cache`. -/
@[simp] theorem State.count_cache (s : State) (k n : Nat) : (s.count k n).cache = s.cache := rfl
/-- `count` leaves `subs`. -/
@[simp] theorem State.count_subs (s : State) (k n : Nat) : (s.count k n).subs = s.subs := rfl
/-- `count` leaves `notes`. -/
@[simp] theorem State.count_notes (s : State) (k n : Nat) : (s.count k n).notes = s.notes := rfl
/-- `count` leaves `done`. -/
@[simp] theorem State.count_done (s : State) (k n : Nat) : (s.count k n).done = s.done := rfl
/-- `count` leaves `spiTx`. -/
@[simp] theorem State.count_spiTx (s : State) (k n : Nat) : (s.count k n).spiTx = s.spiTx := rfl
/-- `count` leaves `spiOut`. -/
@[simp] theorem State.count_spiOut (s : State) (k n : Nat) : (s.count k n).spiOut = s.spiOut := rfl
/-- `count` leaves `vecs`. -/
@[simp] theorem State.count_vecs (s : State) (k n : Nat) : (s.count k n).vecs = s.vecs := rfl
/-- `count` leaves `nu`. -/
@[simp] theorem State.count_nu (s : State) (k n : Nat) : (s.count k n).nu = s.nu := rfl
/-- `count` leaves `bursts`. -/
@[simp] theorem State.count_bursts (s : State) (k n : Nat) : (s.count k n).bursts = s.bursts := rfl
/-- `count` leaves `freeCtr`. -/
@[simp] theorem State.count_freeCtr (s : State) (k n : Nat) : (s.count k n).freeCtr = s.freeCtr := rfl

/-! ## clr -/

/-- `clr` leaves `pending`. -/
@[simp] theorem State.clr_pending (s : State) (k : Nat) : (s.clr k).pending = s.pending := rfl
/-- `clr` leaves `lat`. -/
@[simp] theorem State.clr_lat (s : State) (k : Nat) : (s.clr k).lat = s.lat := rfl
/-- `clr` leaves `com`. -/
@[simp] theorem State.clr_com (s : State) (k : Nat) : (s.clr k).com = s.com := rfl
/-- `clr` leaves `due`. -/
@[simp] theorem State.clr_due (s : State) (k : Nat) : (s.clr k).due = s.due := rfl
/-- `clr` leaves `mem`. -/
@[simp] theorem State.clr_mem (s : State) (k : Nat) : (s.clr k).mem = s.mem := rfl
/-- `clr` leaves `flash`. -/
@[simp] theorem State.clr_flash (s : State) (k : Nat) : (s.clr k).flash = s.flash := rfl
/-- `clr` leaves `raised`. -/
@[simp] theorem State.clr_raised (s : State) (k : Nat) : (s.clr k).raised = s.raised := rfl
/-- `clr` leaves `tx`. -/
@[simp] theorem State.clr_tx (s : State) (k : Nat) : (s.clr k).tx = s.tx := rfl
/-- `clr` leaves `cache`. -/
@[simp] theorem State.clr_cache (s : State) (k : Nat) : (s.clr k).cache = s.cache := rfl
/-- `clr` leaves `subs`. -/
@[simp] theorem State.clr_subs (s : State) (k : Nat) : (s.clr k).subs = s.subs := rfl
/-- `clr` leaves `notes`. -/
@[simp] theorem State.clr_notes (s : State) (k : Nat) : (s.clr k).notes = s.notes := rfl
/-- `clr` leaves `done`. -/
@[simp] theorem State.clr_done (s : State) (k : Nat) : (s.clr k).done = s.done := rfl
/-- `clr` leaves `spiTx`. -/
@[simp] theorem State.clr_spiTx (s : State) (k : Nat) : (s.clr k).spiTx = s.spiTx := rfl
/-- `clr` leaves `spiOut`. -/
@[simp] theorem State.clr_spiOut (s : State) (k : Nat) : (s.clr k).spiOut = s.spiOut := rfl
/-- `clr` leaves `vecs`. -/
@[simp] theorem State.clr_vecs (s : State) (k : Nat) : (s.clr k).vecs = s.vecs := rfl
/-- `clr` leaves `nu`. -/
@[simp] theorem State.clr_nu (s : State) (k : Nat) : (s.clr k).nu = s.nu := rfl
/-- `clr` leaves `bursts`. -/
@[simp] theorem State.clr_bursts (s : State) (k : Nat) : (s.clr k).bursts = s.bursts := rfl
/-- `clr` leaves `freeCtr`. -/
@[simp] theorem State.clr_freeCtr (s : State) (k : Nat) : (s.clr k).freeCtr = s.freeCtr := rfl

/-! ## setBit -/

/-- `setBit` leaves `pending`. -/
@[simp] theorem State.setBit_pending (s : State) (k i : Nat) (b : Bool) : (s.setBit k i b).pending = s.pending := rfl
/-- `setBit` leaves `lat`. -/
@[simp] theorem State.setBit_lat (s : State) (k i : Nat) (b : Bool) : (s.setBit k i b).lat = s.lat := rfl
/-- `setBit` leaves `com`. -/
@[simp] theorem State.setBit_com (s : State) (k i : Nat) (b : Bool) : (s.setBit k i b).com = s.com := rfl
/-- `setBit` leaves `due`. -/
@[simp] theorem State.setBit_due (s : State) (k i : Nat) (b : Bool) : (s.setBit k i b).due = s.due := rfl
/-- `setBit` leaves `mem`. -/
@[simp] theorem State.setBit_mem (s : State) (k i : Nat) (b : Bool) : (s.setBit k i b).mem = s.mem := rfl
/-- `setBit` leaves `flash`. -/
@[simp] theorem State.setBit_flash (s : State) (k i : Nat) (b : Bool) : (s.setBit k i b).flash = s.flash := rfl
/-- `setBit` leaves `raised`. -/
@[simp] theorem State.setBit_raised (s : State) (k i : Nat) (b : Bool) : (s.setBit k i b).raised = s.raised := rfl
/-- `setBit` leaves `tx`. -/
@[simp] theorem State.setBit_tx (s : State) (k i : Nat) (b : Bool) : (s.setBit k i b).tx = s.tx := rfl
/-- `setBit` leaves `cache`. -/
@[simp] theorem State.setBit_cache (s : State) (k i : Nat) (b : Bool) : (s.setBit k i b).cache = s.cache := rfl
/-- `setBit` leaves `subs`. -/
@[simp] theorem State.setBit_subs (s : State) (k i : Nat) (b : Bool) : (s.setBit k i b).subs = s.subs := rfl
/-- `setBit` leaves `notes`. -/
@[simp] theorem State.setBit_notes (s : State) (k i : Nat) (b : Bool) : (s.setBit k i b).notes = s.notes := rfl
/-- `setBit` leaves `done`. -/
@[simp] theorem State.setBit_done (s : State) (k i : Nat) (b : Bool) : (s.setBit k i b).done = s.done := rfl
/-- `setBit` leaves `spiTx`. -/
@[simp] theorem State.setBit_spiTx (s : State) (k i : Nat) (b : Bool) : (s.setBit k i b).spiTx = s.spiTx := rfl
/-- `setBit` leaves `spiOut`. -/
@[simp] theorem State.setBit_spiOut (s : State) (k i : Nat) (b : Bool) : (s.setBit k i b).spiOut = s.spiOut := rfl
/-- `setBit` leaves `vecs`. -/
@[simp] theorem State.setBit_vecs (s : State) (k i : Nat) (b : Bool) : (s.setBit k i b).vecs = s.vecs := rfl
/-- `setBit` leaves `nu`. -/
@[simp] theorem State.setBit_nu (s : State) (k i : Nat) (b : Bool) : (s.setBit k i b).nu = s.nu := rfl
/-- `setBit` leaves `bursts`. -/
@[simp] theorem State.setBit_bursts (s : State) (k i : Nat) (b : Bool) : (s.setBit k i b).bursts = s.bursts := rfl
/-- `setBit` leaves `freeCtr`. -/
@[simp] theorem State.setBit_freeCtr (s : State) (k i : Nat) (b : Bool) : (s.setBit k i b).freeCtr = s.freeCtr := rfl

/-! ## wrI -/

/-- `wrI` leaves `pending`. -/
@[simp] theorem State.wrI_pending (s : State) (w k : Nat) (i : Int) : (s.wrI w k i).pending = s.pending := rfl
/-- `wrI` leaves `lat`. -/
@[simp] theorem State.wrI_lat (s : State) (w k : Nat) (i : Int) : (s.wrI w k i).lat = s.lat := rfl
/-- `wrI` leaves `com`. -/
@[simp] theorem State.wrI_com (s : State) (w k : Nat) (i : Int) : (s.wrI w k i).com = s.com := rfl
/-- `wrI` leaves `due`. -/
@[simp] theorem State.wrI_due (s : State) (w k : Nat) (i : Int) : (s.wrI w k i).due = s.due := rfl
/-- `wrI` leaves `mem`. -/
@[simp] theorem State.wrI_mem (s : State) (w k : Nat) (i : Int) : (s.wrI w k i).mem = s.mem := rfl
/-- `wrI` leaves `flash`. -/
@[simp] theorem State.wrI_flash (s : State) (w k : Nat) (i : Int) : (s.wrI w k i).flash = s.flash := rfl
/-- `wrI` leaves `raised`. -/
@[simp] theorem State.wrI_raised (s : State) (w k : Nat) (i : Int) : (s.wrI w k i).raised = s.raised := rfl
/-- `wrI` leaves `tx`. -/
@[simp] theorem State.wrI_tx (s : State) (w k : Nat) (i : Int) : (s.wrI w k i).tx = s.tx := rfl
/-- `wrI` leaves `cache`. -/
@[simp] theorem State.wrI_cache (s : State) (w k : Nat) (i : Int) : (s.wrI w k i).cache = s.cache := rfl
/-- `wrI` leaves `subs`. -/
@[simp] theorem State.wrI_subs (s : State) (w k : Nat) (i : Int) : (s.wrI w k i).subs = s.subs := rfl
/-- `wrI` leaves `notes`. -/
@[simp] theorem State.wrI_notes (s : State) (w k : Nat) (i : Int) : (s.wrI w k i).notes = s.notes := rfl
/-- `wrI` leaves `done`. -/
@[simp] theorem State.wrI_done (s : State) (w k : Nat) (i : Int) : (s.wrI w k i).done = s.done := rfl
/-- `wrI` leaves `spiTx`. -/
@[simp] theorem State.wrI_spiTx (s : State) (w k : Nat) (i : Int) : (s.wrI w k i).spiTx = s.spiTx := rfl
/-- `wrI` leaves `spiOut`. -/
@[simp] theorem State.wrI_spiOut (s : State) (w k : Nat) (i : Int) : (s.wrI w k i).spiOut = s.spiOut := rfl
/-- `wrI` leaves `vecs`. -/
@[simp] theorem State.wrI_vecs (s : State) (w k : Nat) (i : Int) : (s.wrI w k i).vecs = s.vecs := rfl
/-- `wrI` leaves `nu`. -/
@[simp] theorem State.wrI_nu (s : State) (w k : Nat) (i : Int) : (s.wrI w k i).nu = s.nu := rfl
/-- `wrI` leaves `bursts`. -/
@[simp] theorem State.wrI_bursts (s : State) (w k : Nat) (i : Int) : (s.wrI w k i).bursts = s.bursts := rfl
/-- `wrI` leaves `freeCtr`. -/
@[simp] theorem State.wrI_freeCtr (s : State) (w k : Nat) (i : Int) : (s.wrI w k i).freeCtr = s.freeCtr := rfl

/-! ## publish -/

/-- `publish` leaves `pending`. -/
@[simp] theorem State.publish_pending (s : State) (k : Nat) : (s.publish k).pending = s.pending := rfl
/-- `publish` leaves `lat`. -/
@[simp] theorem State.publish_lat (s : State) (k : Nat) : (s.publish k).lat = s.lat := rfl
/-- `publish` leaves `com`. -/
@[simp] theorem State.publish_com (s : State) (k : Nat) : (s.publish k).com = s.com := rfl
/-- `publish` leaves `due`. -/
@[simp] theorem State.publish_due (s : State) (k : Nat) : (s.publish k).due = s.due := rfl
/-- `publish` leaves `mem`. -/
@[simp] theorem State.publish_mem (s : State) (k : Nat) : (s.publish k).mem = s.mem := rfl
/-- `publish` leaves `flash`. -/
@[simp] theorem State.publish_flash (s : State) (k : Nat) : (s.publish k).flash = s.flash := rfl
/-- `publish` leaves `raised`. -/
@[simp] theorem State.publish_raised (s : State) (k : Nat) : (s.publish k).raised = s.raised := rfl
/-- `publish` leaves `tx`. -/
@[simp] theorem State.publish_tx (s : State) (k : Nat) : (s.publish k).tx = s.tx := rfl
/-- `publish` leaves `cache`. -/
@[simp] theorem State.publish_cache (s : State) (k : Nat) : (s.publish k).cache = s.cache := rfl
/-- `publish` leaves `subs`. -/
@[simp] theorem State.publish_subs (s : State) (k : Nat) : (s.publish k).subs = s.subs := rfl
/-- `publish` leaves `notes`. -/
@[simp] theorem State.publish_notes (s : State) (k : Nat) : (s.publish k).notes = s.notes := rfl
/-- `publish` leaves `done`. -/
@[simp] theorem State.publish_done (s : State) (k : Nat) : (s.publish k).done = s.done := rfl
/-- `publish` leaves `spiTx`. -/
@[simp] theorem State.publish_spiTx (s : State) (k : Nat) : (s.publish k).spiTx = s.spiTx := rfl
/-- `publish` leaves `spiOut`. -/
@[simp] theorem State.publish_spiOut (s : State) (k : Nat) : (s.publish k).spiOut = s.spiOut := rfl
/-- `publish` leaves `vecs`. -/
@[simp] theorem State.publish_vecs (s : State) (k : Nat) : (s.publish k).vecs = s.vecs := rfl
/-- `publish` leaves `nu`. -/
@[simp] theorem State.publish_nu (s : State) (k : Nat) : (s.publish k).nu = s.nu := rfl
/-- `publish` leaves `bursts`. -/
@[simp] theorem State.publish_bursts (s : State) (k : Nat) : (s.publish k).bursts = s.bursts := rfl
/-- `publish` leaves `freeCtr`. -/
@[simp] theorem State.publish_freeCtr (s : State) (k : Nat) : (s.publish k).freeCtr = s.freeCtr := rfl

/-! ## setVec -/

/-- `setVec` leaves `pending`. -/
@[simp] theorem State.setVec_pending (s : State) (k : Nat) (v : List Nat) : (s.setVec k v).pending = s.pending := rfl
/-- `setVec` leaves `reg`. -/
@[simp] theorem State.setVec_reg (s : State) (k : Nat) (v : List Nat) : (s.setVec k v).reg = s.reg := rfl
/-- `setVec` leaves `lat`. -/
@[simp] theorem State.setVec_lat (s : State) (k : Nat) (v : List Nat) : (s.setVec k v).lat = s.lat := rfl
/-- `setVec` leaves `com`. -/
@[simp] theorem State.setVec_com (s : State) (k : Nat) (v : List Nat) : (s.setVec k v).com = s.com := rfl
/-- `setVec` leaves `due`. -/
@[simp] theorem State.setVec_due (s : State) (k : Nat) (v : List Nat) : (s.setVec k v).due = s.due := rfl
/-- `setVec` leaves `mem`. -/
@[simp] theorem State.setVec_mem (s : State) (k : Nat) (v : List Nat) : (s.setVec k v).mem = s.mem := rfl
/-- `setVec` leaves `flash`. -/
@[simp] theorem State.setVec_flash (s : State) (k : Nat) (v : List Nat) : (s.setVec k v).flash = s.flash := rfl
/-- `setVec` leaves `raised`. -/
@[simp] theorem State.setVec_raised (s : State) (k : Nat) (v : List Nat) : (s.setVec k v).raised = s.raised := rfl
/-- `setVec` leaves `tx`. -/
@[simp] theorem State.setVec_tx (s : State) (k : Nat) (v : List Nat) : (s.setVec k v).tx = s.tx := rfl
/-- `setVec` leaves `cache`. -/
@[simp] theorem State.setVec_cache (s : State) (k : Nat) (v : List Nat) : (s.setVec k v).cache = s.cache := rfl
/-- `setVec` leaves `subs`. -/
@[simp] theorem State.setVec_subs (s : State) (k : Nat) (v : List Nat) : (s.setVec k v).subs = s.subs := rfl
/-- `setVec` leaves `notes`. -/
@[simp] theorem State.setVec_notes (s : State) (k : Nat) (v : List Nat) : (s.setVec k v).notes = s.notes := rfl
/-- `setVec` leaves `done`. -/
@[simp] theorem State.setVec_done (s : State) (k : Nat) (v : List Nat) : (s.setVec k v).done = s.done := rfl
/-- `setVec` leaves `spiTx`. -/
@[simp] theorem State.setVec_spiTx (s : State) (k : Nat) (v : List Nat) : (s.setVec k v).spiTx = s.spiTx := rfl
/-- `setVec` leaves `spiOut`. -/
@[simp] theorem State.setVec_spiOut (s : State) (k : Nat) (v : List Nat) : (s.setVec k v).spiOut = s.spiOut := rfl
/-- `setVec` leaves `nu`. -/
@[simp] theorem State.setVec_nu (s : State) (k : Nat) (v : List Nat) : (s.setVec k v).nu = s.nu := rfl
/-- `setVec` leaves `bursts`. -/
@[simp] theorem State.setVec_bursts (s : State) (k : Nat) (v : List Nat) : (s.setVec k v).bursts = s.bursts := rfl
/-- `setVec` leaves `freeCtr`. -/
@[simp] theorem State.setVec_freeCtr (s : State) (k : Nat) (v : List Nat) : (s.setVec k v).freeCtr = s.freeCtr := rfl

/-! ## tick1 -/

/-- `tick1` leaves `pending`. -/
@[simp] theorem State.tick1_pending (s : State) : (s.tick1).pending = s.pending := rfl
/-- `tick1` leaves `reg`. -/
@[simp] theorem State.tick1_reg (s : State) : (s.tick1).reg = s.reg := rfl
/-- `tick1` leaves `lat`. -/
@[simp] theorem State.tick1_lat (s : State) : (s.tick1).lat = s.lat := rfl
/-- `tick1` leaves `com`. -/
@[simp] theorem State.tick1_com (s : State) : (s.tick1).com = s.com := rfl
/-- `tick1` leaves `due`. -/
@[simp] theorem State.tick1_due (s : State) : (s.tick1).due = s.due := rfl
/-- `tick1` leaves `mem`. -/
@[simp] theorem State.tick1_mem (s : State) : (s.tick1).mem = s.mem := rfl
/-- `tick1` leaves `flash`. -/
@[simp] theorem State.tick1_flash (s : State) : (s.tick1).flash = s.flash := rfl
/-- `tick1` leaves `raised`. -/
@[simp] theorem State.tick1_raised (s : State) : (s.tick1).raised = s.raised := rfl
/-- `tick1` leaves `tx`. -/
@[simp] theorem State.tick1_tx (s : State) : (s.tick1).tx = s.tx := rfl
/-- `tick1` leaves `cache`. -/
@[simp] theorem State.tick1_cache (s : State) : (s.tick1).cache = s.cache := rfl
/-- `tick1` leaves `subs`. -/
@[simp] theorem State.tick1_subs (s : State) : (s.tick1).subs = s.subs := rfl
/-- `tick1` leaves `notes`. -/
@[simp] theorem State.tick1_notes (s : State) : (s.tick1).notes = s.notes := rfl
/-- `tick1` leaves `done`. -/
@[simp] theorem State.tick1_done (s : State) : (s.tick1).done = s.done := rfl
/-- `tick1` leaves `spiTx`. -/
@[simp] theorem State.tick1_spiTx (s : State) : (s.tick1).spiTx = s.spiTx := rfl
/-- `tick1` leaves `spiOut`. -/
@[simp] theorem State.tick1_spiOut (s : State) : (s.tick1).spiOut = s.spiOut := rfl
/-- `tick1` leaves `vecs`. -/
@[simp] theorem State.tick1_vecs (s : State) : (s.tick1).vecs = s.vecs := rfl
/-- `tick1` leaves `nu`. -/
@[simp] theorem State.tick1_nu (s : State) : (s.tick1).nu = s.nu := rfl
/-- `tick1` leaves `bursts`. -/
@[simp] theorem State.tick1_bursts (s : State) : (s.tick1).bursts = s.bursts := rfl

/-! ## wrMem -/

/-- `wrMem` leaves `pending`. -/
@[simp] theorem State.wrMem_pending (s : State) (a v : Nat) : (s.wrMem a v).pending = s.pending := rfl
/-- `wrMem` leaves `reg`. -/
@[simp] theorem State.wrMem_reg (s : State) (a v : Nat) : (s.wrMem a v).reg = s.reg := rfl
/-- `wrMem` leaves `lat`. -/
@[simp] theorem State.wrMem_lat (s : State) (a v : Nat) : (s.wrMem a v).lat = s.lat := rfl
/-- `wrMem` leaves `com`. -/
@[simp] theorem State.wrMem_com (s : State) (a v : Nat) : (s.wrMem a v).com = s.com := rfl
/-- `wrMem` leaves `due`. -/
@[simp] theorem State.wrMem_due (s : State) (a v : Nat) : (s.wrMem a v).due = s.due := rfl
/-- `wrMem` leaves `flash`. -/
@[simp] theorem State.wrMem_flash (s : State) (a v : Nat) : (s.wrMem a v).flash = s.flash := rfl
/-- `wrMem` leaves `raised`. -/
@[simp] theorem State.wrMem_raised (s : State) (a v : Nat) : (s.wrMem a v).raised = s.raised := rfl
/-- `wrMem` leaves `tx`. -/
@[simp] theorem State.wrMem_tx (s : State) (a v : Nat) : (s.wrMem a v).tx = s.tx := rfl
/-- `wrMem` leaves `cache`. -/
@[simp] theorem State.wrMem_cache (s : State) (a v : Nat) : (s.wrMem a v).cache = s.cache := rfl
/-- `wrMem` leaves `subs`. -/
@[simp] theorem State.wrMem_subs (s : State) (a v : Nat) : (s.wrMem a v).subs = s.subs := rfl
/-- `wrMem` leaves `notes`. -/
@[simp] theorem State.wrMem_notes (s : State) (a v : Nat) : (s.wrMem a v).notes = s.notes := rfl
/-- `wrMem` leaves `done`. -/
@[simp] theorem State.wrMem_done (s : State) (a v : Nat) : (s.wrMem a v).done = s.done := rfl
/-- `wrMem` leaves `spiTx`. -/
@[simp] theorem State.wrMem_spiTx (s : State) (a v : Nat) : (s.wrMem a v).spiTx = s.spiTx := rfl
/-- `wrMem` leaves `spiOut`. -/
@[simp] theorem State.wrMem_spiOut (s : State) (a v : Nat) : (s.wrMem a v).spiOut = s.spiOut := rfl
/-- `wrMem` leaves `vecs`. -/
@[simp] theorem State.wrMem_vecs (s : State) (a v : Nat) : (s.wrMem a v).vecs = s.vecs := rfl
/-- `wrMem` leaves `nu`. -/
@[simp] theorem State.wrMem_nu (s : State) (a v : Nat) : (s.wrMem a v).nu = s.nu := rfl
/-- `wrMem` leaves `bursts`. -/
@[simp] theorem State.wrMem_bursts (s : State) (a v : Nat) : (s.wrMem a v).bursts = s.bursts := rfl
/-- `wrMem` leaves `freeCtr`. -/
@[simp] theorem State.wrMem_freeCtr (s : State) (a v : Nat) : (s.wrMem a v).freeCtr = s.freeCtr := rfl

/-! ## wrFlash -/

/-- `wrFlash` leaves `pending`. -/
@[simp] theorem State.wrFlash_pending (s : State) (a v : Nat) : (s.wrFlash a v).pending = s.pending := rfl
/-- `wrFlash` leaves `reg`. -/
@[simp] theorem State.wrFlash_reg (s : State) (a v : Nat) : (s.wrFlash a v).reg = s.reg := rfl
/-- `wrFlash` leaves `lat`. -/
@[simp] theorem State.wrFlash_lat (s : State) (a v : Nat) : (s.wrFlash a v).lat = s.lat := rfl
/-- `wrFlash` leaves `com`. -/
@[simp] theorem State.wrFlash_com (s : State) (a v : Nat) : (s.wrFlash a v).com = s.com := rfl
/-- `wrFlash` leaves `due`. -/
@[simp] theorem State.wrFlash_due (s : State) (a v : Nat) : (s.wrFlash a v).due = s.due := rfl
/-- `wrFlash` leaves `mem`. -/
@[simp] theorem State.wrFlash_mem (s : State) (a v : Nat) : (s.wrFlash a v).mem = s.mem := rfl
/-- `wrFlash` leaves `raised`. -/
@[simp] theorem State.wrFlash_raised (s : State) (a v : Nat) : (s.wrFlash a v).raised = s.raised := rfl
/-- `wrFlash` leaves `tx`. -/
@[simp] theorem State.wrFlash_tx (s : State) (a v : Nat) : (s.wrFlash a v).tx = s.tx := rfl
/-- `wrFlash` leaves `cache`. -/
@[simp] theorem State.wrFlash_cache (s : State) (a v : Nat) : (s.wrFlash a v).cache = s.cache := rfl
/-- `wrFlash` leaves `subs`. -/
@[simp] theorem State.wrFlash_subs (s : State) (a v : Nat) : (s.wrFlash a v).subs = s.subs := rfl
/-- `wrFlash` leaves `notes`. -/
@[simp] theorem State.wrFlash_notes (s : State) (a v : Nat) : (s.wrFlash a v).notes = s.notes := rfl
/-- `wrFlash` leaves `done`. -/
@[simp] theorem State.wrFlash_done (s : State) (a v : Nat) : (s.wrFlash a v).done = s.done := rfl
/-- `wrFlash` leaves `spiTx`. -/
@[simp] theorem State.wrFlash_spiTx (s : State) (a v : Nat) : (s.wrFlash a v).spiTx = s.spiTx := rfl
/-- `wrFlash` leaves `spiOut`. -/
@[simp] theorem State.wrFlash_spiOut (s : State) (a v : Nat) : (s.wrFlash a v).spiOut = s.spiOut := rfl
/-- `wrFlash` leaves `vecs`. -/
@[simp] theorem State.wrFlash_vecs (s : State) (a v : Nat) : (s.wrFlash a v).vecs = s.vecs := rfl
/-- `wrFlash` leaves `nu`. -/
@[simp] theorem State.wrFlash_nu (s : State) (a v : Nat) : (s.wrFlash a v).nu = s.nu := rfl
/-- `wrFlash` leaves `bursts`. -/
@[simp] theorem State.wrFlash_bursts (s : State) (a v : Nat) : (s.wrFlash a v).bursts = s.bursts := rfl
/-- `wrFlash` leaves `freeCtr`. -/
@[simp] theorem State.wrFlash_freeCtr (s : State) (a v : Nat) : (s.wrFlash a v).freeCtr = s.freeCtr := rfl

/-! ## raise -/

/-- `raise` leaves `pending`. -/
@[simp] theorem State.raise_pending (s : State) (code src a1 a2 : Nat) : (s.raise code src a1 a2).pending = s.pending := rfl
/-- `raise` leaves `reg`. -/
@[simp] theorem State.raise_reg (s : State) (code src a1 a2 : Nat) : (s.raise code src a1 a2).reg = s.reg := rfl
/-- `raise` leaves `lat`. -/
@[simp] theorem State.raise_lat (s : State) (code src a1 a2 : Nat) : (s.raise code src a1 a2).lat = s.lat := rfl
/-- `raise` leaves `com`. -/
@[simp] theorem State.raise_com (s : State) (code src a1 a2 : Nat) : (s.raise code src a1 a2).com = s.com := rfl
/-- `raise` leaves `due`. -/
@[simp] theorem State.raise_due (s : State) (code src a1 a2 : Nat) : (s.raise code src a1 a2).due = s.due := rfl
/-- `raise` leaves `mem`. -/
@[simp] theorem State.raise_mem (s : State) (code src a1 a2 : Nat) : (s.raise code src a1 a2).mem = s.mem := rfl
/-- `raise` leaves `flash`. -/
@[simp] theorem State.raise_flash (s : State) (code src a1 a2 : Nat) : (s.raise code src a1 a2).flash = s.flash := rfl
/-- `raise` leaves `tx`. -/
@[simp] theorem State.raise_tx (s : State) (code src a1 a2 : Nat) : (s.raise code src a1 a2).tx = s.tx := rfl
/-- `raise` leaves `cache`. -/
@[simp] theorem State.raise_cache (s : State) (code src a1 a2 : Nat) : (s.raise code src a1 a2).cache = s.cache := rfl
/-- `raise` leaves `subs`. -/
@[simp] theorem State.raise_subs (s : State) (code src a1 a2 : Nat) : (s.raise code src a1 a2).subs = s.subs := rfl
/-- `raise` leaves `notes`. -/
@[simp] theorem State.raise_notes (s : State) (code src a1 a2 : Nat) : (s.raise code src a1 a2).notes = s.notes := rfl
/-- `raise` leaves `done`. -/
@[simp] theorem State.raise_done (s : State) (code src a1 a2 : Nat) : (s.raise code src a1 a2).done = s.done := rfl
/-- `raise` leaves `spiTx`. -/
@[simp] theorem State.raise_spiTx (s : State) (code src a1 a2 : Nat) : (s.raise code src a1 a2).spiTx = s.spiTx := rfl
/-- `raise` leaves `spiOut`. -/
@[simp] theorem State.raise_spiOut (s : State) (code src a1 a2 : Nat) : (s.raise code src a1 a2).spiOut = s.spiOut := rfl
/-- `raise` leaves `vecs`. -/
@[simp] theorem State.raise_vecs (s : State) (code src a1 a2 : Nat) : (s.raise code src a1 a2).vecs = s.vecs := rfl
/-- `raise` leaves `nu`. -/
@[simp] theorem State.raise_nu (s : State) (code src a1 a2 : Nat) : (s.raise code src a1 a2).nu = s.nu := rfl
/-- `raise` leaves `bursts`. -/
@[simp] theorem State.raise_bursts (s : State) (code src a1 a2 : Nat) : (s.raise code src a1 a2).bursts = s.bursts := rfl
/-- `raise` leaves `freeCtr`. -/
@[simp] theorem State.raise_freeCtr (s : State) (code src a1 a2 : Nat) : (s.raise code src a1 a2).freeCtr = s.freeCtr := rfl

/-! ## Reading after writing -/

/-- An object reads as it was written. -/
@[simp] theorem State.rd_wr_self (s : State) (k v : Nat) : (s.wr k v).rd k = v := by
  unfold State.rd State.wr
  by_cases h : v = dflt k
  · simp [h, alGet_alErase_self]
  · simp [h, alGet_alSet_self]

/-- A write leaves every other object. -/
theorem State.rd_wr_ne (s : State) {k j : Nat} (v : Nat) (h : j ≠ k) : (s.wr k v).rd j = s.rd j := by
  unfold State.rd State.wr
  by_cases h1 : v = dflt k
  · simp [h1, alGet_alErase_ne _ h]
  · simp [h1, alGet_alSet_ne _ v h]

/-- Writing an object twice. -/
theorem State.rd_wr (s : State) (k v j : Nat) : (s.wr k v).rd j = if j = k then v else s.rd j := by
  by_cases h : j = k
  · subst h; simp
  · simp [h, State.rd_wr_ne s v h]

/-- Raising an event changes no object. -/
@[simp] theorem State.rd_raise (s : State) (code src a1 a2 k : Nat) : (s.raise code src a1 a2).rd k = s.rd k := rfl
/-- Putting a list changes no object. -/
@[simp] theorem State.rd_setVec (s : State) (i : Nat) (v : List Nat) (k : Nat) : (s.setVec i v).rd k = s.rd k := rfl
/-- Taking a free value changes no object. -/
@[simp] theorem State.rd_tick1 (s : State) (k : Nat) : s.tick1.rd k = s.rd k := rfl
/-- Writing a byte of the frame store changes no object. -/
@[simp] theorem State.rd_wrMem (s : State) (a v k : Nat) : (s.wrMem a v).rd k = s.rd k := rfl
/-- Writing a byte of the flash changes no object. -/
@[simp] theorem State.rd_wrFlash (s : State) (a v k : Nat) : (s.wrFlash a v).rd k = s.rd k := rfl

/-- A list reads as it was put. -/
@[simp] theorem State.vec_setVec_self (s : State) (k : Nat) (v : List Nat) : (s.setVec k v).vec k = v := vecGet_vecSet_self _ _ _
/-- Putting a list leaves every other one. -/
theorem State.vec_setVec_ne (s : State) {k j : Nat} (v : List Nat) (h : j ≠ k) : (s.setVec k v).vec j = s.vec j := vecGet_vecSet_ne _ v h
/-- Writing an object changes no list. -/
@[simp] theorem State.vec_wr (s : State) (k v j : Nat) : (s.wr k v).vec j = s.vec j := rfl
/-- Raising an event changes no list. -/
@[simp] theorem State.vec_raise (s : State) (code src a1 a2 j : Nat) : (s.raise code src a1 a2).vec j = s.vec j := rfl

/-- A byte of the frame store reads as it was written. -/
theorem State.rdMem_wrMem_self (s : State) (a v : Nat) : (s.wrMem a v).rdMem a = v % 256 := by
  unfold State.rdMem State.wrMem
  simp [cellRd_cellWr_self]
/-- A write leaves every other byte. -/
theorem State.rdMem_wrMem_ne (s : State) {a c : Nat} (v : Nat) (h : c ≠ a) : (s.wrMem a v).rdMem c = s.rdMem c := by
  unfold State.rdMem State.wrMem
  simp [cellRd_cellWr_ne _ _ _ h]
/-- A byte of the flash reads as it was put. -/
theorem State.rdFlash_wrFlash_self (s : State) (a v : Nat) : (s.wrFlash a v).rdFlash a = v % 256 := by
  unfold State.rdFlash State.wrFlash
  simp [cellRd_cellWr_self]
/-- Putting a byte leaves every other one. -/
theorem State.rdFlash_wrFlash_ne (s : State) {a c : Nat} (v : Nat) (h : c ≠ a) : (s.wrFlash a v).rdFlash c = s.rdFlash c := by
  unfold State.rdFlash State.wrFlash
  simp [cellRd_cellWr_ne _ _ _ h]

/-! ## Canonical forms -/

/-- Writing an object keeps the register file canonical. -/
theorem State.regWf_wr (s : State) (k v : Nat) (h : regWf s.reg = true) : regWf (s.wr k v).reg = true := by
  unfold State.wr
  by_cases hv : v = dflt k
  · simp only [hv, if_true]
    exact regWf_filter _ h
  · simp only [hv, if_false]
    exact regWf_alSet k v hv h
/-- Writing a byte keeps the frame store canonical. -/
theorem State.memWf_wrMem (s : State) (a v : Nat) (h : Memory.wf s.mem = true) : Memory.wf (s.wrMem a v).mem = true := cellsWf_cellWr a _ h
/-- Putting a byte keeps the flash canonical. -/
theorem State.flashWf_wrFlash (s : State) (a v : Nat) (h : cellsWf flashBlank s.flash = true) :
    cellsWf flashBlank (s.wrFlash a v).flash = true := cellsWf_cellWr a _ h

/-! ## Folds -/

/-- What every step of a fold keeps, the fold keeps. -/
theorem foldl_keeps {α β : Type} {P : β → Prop} {f : β → α → β} (l : List α) (hf : ∀ t a, P t → P (f t a)) {s : β} (h : P s) :
    P (l.foldl f s) := by
  induction l generalizing s with
  | nil => exact h
  | cons a t ih => exact ih (hf s a h)

/-- What every round keeps, `upto` keeps. -/
theorem State.upto_keeps {P : State → Prop} {n : Nat} {f : Nat → State → State} (hf : ∀ i t, P t → P (f i t)) {s : State} (h : P s) :
    P (s.upto n f) := foldl_keeps _ (fun t i => hf i t) h

/-- What every write keeps, `wrs` keeps. -/
theorem State.wrs_keeps {P : State → Prop} (hw : ∀ t k v, P t → P (State.wr t k v)) (l : List (Nat × Nat)) {s : State} (h : P s) :
    P (s.wrs l) := by
  unfold State.wrs
  exact foldl_keeps l (fun (t : State) (p : Nat × Nat) => hw t p.1 p.2) h

/-- Several writes leave every object they do not name. -/
theorem State.rd_wrs_ne (s : State) (l : List (Nat × Nat)) {j : Nat} (h : ∀ p ∈ l, j ≠ p.1) : (s.wrs l).rd j = s.rd j := by
  unfold State.wrs
  induction l generalizing s with
  | nil => rfl
  | cons p t ih =>
    simp only [List.foldl_cons]
    rw [ih _ (fun q hq => h q (List.mem_cons_of_mem _ hq))]
    exact State.rd_wr_ne s p.2 (h p (List.mem_cons_self ..))

end Sys2Proof.Machine
end

