-- ==== Sys2Proof/Laws/Kept.lean ====
section
/-! SUPPORT. Properties of the state that every primitive update keeps: the shape of every proof that a command keeps something. A property
is `Kept` when writing a register, a list or bookkeeping keeps it; the other four structures add the committed stage, the Latent sets, the
frame store and the flash. -/
namespace Sys2Proof.Machine

/-- Registers, lists, events, messages and the other bookkeeping may change. -/
structure Kept (P : State → Prop) : Prop where
  wr : ∀ s k v, P s → P (s.wr k v)
  vecs : ∀ s x, P s → P { s with vecs := x }
  raised : ∀ s x, P s → P { s with raised := x }
  tx : ∀ s x, P s → P { s with tx := x }
  cache : ∀ s x, P s → P { s with cache := x }
  subs : ∀ s x, P s → P { s with subs := x }
  notes : ∀ s x, P s → P { s with notes := x }
  done : ∀ s x, P s → P { s with done := x }
  spiTx : ∀ s x, P s → P { s with spiTx := x }
  spiOut : ∀ s x, P s → P { s with spiOut := x }
  nu : ∀ s x, P s → P { s with nu := x }
  bursts : ∀ s x, P s → P { s with bursts := x }
  freeCtr : ∀ s x, P s → P { s with freeCtr := x }

/-- The committed stage and what is due may change. -/
structure KeptCom (P : State → Prop) : Prop where
  com : ∀ s x, P s → P { s with com := x }
  due : ∀ s x, P s → P { s with due := x }

/-- The Latent sets may change to other sorted lists. -/
structure KeptLat (P : State → Prop) : Prop where
  lat : ∀ s x, (alSorted s.lat = true → alSorted x = true) → P s → P { s with lat := x }

/-- Bytes of the frame store may change. -/
structure KeptMem (P : State → Prop) : Prop where
  wrMem : ∀ s a v, P s → P (s.wrMem a v)

/-- Bytes of the flash may change. -/
structure KeptFlash (P : State → Prop) : Prop where
  wrFlash : ∀ s a v, P s → P (s.wrFlash a v)
  filter : ∀ s f, P s → P { s with flash := s.flash.filter f }

/-- The part may be reset: the queue and the flash stay, registers and bytes of the stores stay or go, the rest starts anew. -/
structure KeptBoot (P : State → Prop) : Prop where
  warm : ∀ (s : State) f m x, P s → P { State.reset with pending := s.pending, flash := s.flash, mem := s.mem.filter m, tx := x, freeCtr := s.freeCtr, reg := s.reg.filter f }
  cold : ∀ (s : State) f, P s → P { State.reset with pending := s.pending, flash := s.flash, freeCtr := s.freeCtr, reg := s.reg.filter f }

/-- Four lists that change together. -/
theorem four_keeps {P : State → Prop} (hP : Kept P) {s : State} {a : List Sub} {b : List Note} {c : List Done} {d : List Cached} (h : P s) :
    P { s with subs := a, notes := b, done := c, cache := d } := by
  have h1 := hP.subs s a h
  have h2 := hP.notes _ b h1
  have h3 := hP.done _ c h2
  exact hP.cache _ d h3

/-- A part of the Latent sets goes. -/
theorem latFilter_keeps {P : State → Prop} (hL : KeptLat P) {s : State} {f : Nat × Nat → Bool} (h : P s) :
    P { s with lat := s.lat.filter f } := hL.lat s _ (alSorted_filter f) h

/-- A value enters the Latent sets. -/
theorem latPut_keeps {P : State → Prop} (hL : KeptLat P) {s : State} {k v : Nat} (h : P s) : P (s.latPut k v) :=
  hL.lat s _ (alSorted_alSet k v) h

/-- Committed values return to the Latent sets. -/
theorem latBack_keeps {P : State → Prop} (hC : KeptCom P) (hL : KeptLat P) {s : State} {a b : List Com} {d : List Due} (h : P s) :
    P { s with com := a, due := d, lat := b.foldl (fun l c => alSet l c.key c.val) s.lat } := by
  have h1 := hL.lat s (b.foldl (fun l c => alSet l c.key c.val) s.lat)
    (fun hs => foldl_keeps (P := fun l => alSorted l = true) b (fun l (c : Com) hl => alSorted_alSet c.key c.val hl) hs) h
  have h2 := hC.com _ a h1
  exact hC.due _ d h2

/-- The outcome's state, if there is one, has a property. -/
def onOut (P : State → Prop) : Host.Outcome State Fault Refusal → Prop
  | .next s => P s
  | _ => True

/-- A next state has the property when its state has. -/
theorem onOut_next {P : State → Prop} {s : State} (h : P s) : onOut P (.next s) := h

/-- What follows on a step that goes on keeps what it keeps. -/
theorem onNext_keeps {P : State → Prop} {f : State → State} {o : Host.Outcome State Fault Refusal} (h : onOut P o)
    (hf : ∀ t, P t → P (f t)) : onOut P (onNext f o) := by
  cases o with
  | next s => exact hf s h
  | fault r => exact h
  | refused r => exact h

/-- The state an answer carries has a property. -/
def onAns (P : State → Prop) (a : Ans) : Prop := P a.s
/-- The state a block's answer carries has a property. -/
def onBAns (P : State → Prop) (a : BAns) : Prop := P a.s
/-- The state a reply carries has a property. -/
def onReply (P : State → Prop) (a : Reply) : Prop := P a.s
/-- The state a commit's answer carries has a property. -/
def onCom (P : State → Prop) (a : ComAns) : Prop := P a.s
/-- The state in front of a pair has a property. -/
def onFst {β : Type} (P : State → Prop) (a : State × β) : Prop := P a.1
/-- The state at the end of a pair has a property. -/
def onSnd {β : Type} (P : State → Prop) (a : β × State) : Prop := P a.2
/-- The state at the end of four has a property. -/
def onLast {α β γ : Type} (P : State → Prop) (a : α × β × γ × State) : Prop := P a.2.2.2

theorem onAns_mk {P : State → Prop} {a b : Nat} {s : State} (h : P s) : onAns P ⟨a, b, s⟩ := h
theorem onBAns_mk {P : State → Prop} {a b c : Nat} {s : State} (h : P s) : onBAns P ⟨a, b, c, s⟩ := h
theorem onReply_mk {P : State → Prop} {a : Nat} {l : List (List Nat)} {c : Option Nat} {s : State} (h : P s) : onReply P ⟨a, l, s, c⟩ := h
theorem onCom_mk {P : State → Prop} {a : Nat} {l : List (Nat × Nat)} {s : State} (h : P s) : onCom P ⟨a, s, l⟩ := h
theorem onFst_mk {β : Type} {P : State → Prop} {b : β} {s : State} (h : P s) : onFst P (s, b) := h
theorem onSnd_mk {β : Type} {P : State → Prop} {b : β} {s : State} (h : P s) : onSnd P (b, s) := h
theorem onLast_mk {α β γ : Type} {P : State → Prop} {a : α} {b : β} {c : γ} {s : State} (h : P s) : onLast P (a, b, c, s) := h

/-- A local state keeps the property, and then what is made of it. -/
theorem keep_cut {P : State → Prop} {Q : Prop} {x : State} (h : P x) (k : P x → Q) : Q := k h

/-- A local function keeps the property, and then what is made of it. -/
theorem keep_fun {P : State → Prop} {Q : Prop} {x : State → State} (h : ∀ t, P t → P (x t)) (k : (∀ t, P t → P (x t)) → Q) : Q := k h

/-- Both branches keep the property. -/
theorem ite_keeps {P : State → Prop} {c : Prop} [Decidable c] {a b : State} (h : P a) (k : P b) : P (if c then a else b) := by
  split
  · exact h
  · exact k

theorem ite_out {P : State → Prop} {c : Prop} [Decidable c] {a b : Host.Outcome State Fault Refusal} (h : onOut P a) (k : onOut P b) : onOut P (if c then a else b) := by
  split
  · exact h
  · exact k

theorem ite_ans {P : State → Prop} {c : Prop} [Decidable c] {a b : Ans} (h : onAns P a) (k : onAns P b) : onAns P (if c then a else b) := by
  split
  · exact h
  · exact k

theorem ite_bans {P : State → Prop} {c : Prop} [Decidable c] {a b : BAns} (h : onBAns P a) (k : onBAns P b) : onBAns P (if c then a else b) := by
  split
  · exact h
  · exact k

theorem ite_reply {P : State → Prop} {c : Prop} [Decidable c] {a b : Reply} (h : onReply P a) (k : onReply P b) : onReply P (if c then a else b) := by
  split
  · exact h
  · exact k

theorem ite_com {P : State → Prop} {c : Prop} [Decidable c] {a b : ComAns} (h : onCom P a) (k : onCom P b) : onCom P (if c then a else b) := by
  split
  · exact h
  · exact k

theorem ite_fst {β : Type} {P : State → Prop} {c : Prop} [Decidable c] {a b : State × β} (h : onFst P a) (k : onFst P b) : onFst P (if c then a else b) := by
  split
  · exact h
  · exact k

theorem ite_snd {β : Type} {P : State → Prop} {c : Prop} [Decidable c] {a b : β × State} (h : onSnd P a) (k : onSnd P b) : onSnd P (if c then a else b) := by
  split
  · exact h
  · exact k

theorem wr_keeps {P : State → Prop} (hP : Kept P) {s : State} {k v : Nat} (h : P s) : P (s.wr k v) := hP.wr s k v h
theorem setVec_keeps {P : State → Prop} (hP : Kept P) {s : State} {k : Nat} {v : List Nat} (h : P s) : P (s.setVec k v) := hP.vecs s _ h
theorem raise_keeps {P : State → Prop} (hP : Kept P) {s : State} {a b c d : Nat} (h : P s) : P (s.raise a b c d) := hP.raised s _ h
theorem tick1_keeps {P : State → Prop} (hP : Kept P) {s : State} (h : P s) : P s.tick1 := hP.freeCtr s _ h
theorem wrs_keeps {P : State → Prop} (hP : Kept P) {s : State} {l : List (Nat × Nat)} (h : P s) : P (s.wrs l) :=
  State.wrs_keeps (fun t k v => hP.wr t k v) l h
theorem upto_keeps {P : State → Prop} {n : Nat} {f : Nat → State → State} {s : State} (h : P s) (hf : ∀ i t, P t → P (f i t)) : P (s.upto n f) :=
  State.upto_keeps hf h
theorem fold_keeps {α : Type} {P : State → Prop} {f : State → α → State} {l : List α} {s : State} (h : P s) (hf : ∀ t a, P t → P (f t a)) :
    P (l.foldl f s) := foldl_keeps l hf h

theorem fold_fst_keeps {α β : Type} {P : State → Prop} {f : State × β → α → State × β} {l : List α} {a : State × β} (h : P a.1)
    (hf : ∀ t a, P t.1 → P (f t a).1) : P (l.foldl f a).1 := foldl_keeps (P := fun (t : State × β) => P t.1) l hf h

end Sys2Proof.Machine
end

