-- ==== Sys2Proof/Laws/KeepsOps.lean ====
section
/-! SUPPORT. What the operations of Machine/Ops.lean keep. -/
set_option linter.all false
set_option maxRecDepth 8000
namespace Sys2Proof.Machine

theorem up_keeps {P : State → Prop} (hP : Kept P) {s : State} {k : Nat} {f : Nat → Nat} (_ : P s) :
    P (State.up s k f) := by
  unfold State.up
  repeat' first
    | with_reducible assumption
    | (intro _x)
    | (extract_lets +onlyGivenNames x; refine keep_cut (P := P) (x := x) ?_ ?_; (on_goal 1 => subst x); (on_goal 2 => (intro _h; try clear_value x)))
    | (extract_lets +onlyGivenNames x; refine keep_cut (P := P) (x := x.s) ?_ ?_; (on_goal 1 => subst x); (on_goal 2 => (intro _h; try clear_value x)))
    | (extract_lets +onlyGivenNames x; refine keep_cut (P := P) (x := x.1) ?_ ?_; (on_goal 1 => subst x); (on_goal 2 => (intro _h; try clear_value x)))
    | (extract_lets +onlyGivenNames x; refine keep_cut (P := P) (x := x.2) ?_ ?_; (on_goal 1 => subst x); (on_goal 2 => (intro _h; try clear_value x)))
    | (extract_lets +onlyGivenNames x; try clear_value x)
    | with_reducible apply wr_keeps hP
    | with_reducible refine ite_keeps ?_ ?_
    | split

theorem inc_keeps {P : State → Prop} (hP : Kept P) {s : State} {k : Nat} {n : Nat} {m : Nat} (_ : P s) :
    P (State.inc s k n m) := by
  unfold State.inc
  repeat' first
    | with_reducible assumption
    | (intro _x)
    | (extract_lets +onlyGivenNames x; refine keep_cut (P := P) (x := x) ?_ ?_; (on_goal 1 => subst x); (on_goal 2 => (intro _h; try clear_value x)))
    | (extract_lets +onlyGivenNames x; refine keep_cut (P := P) (x := x.s) ?_ ?_; (on_goal 1 => subst x); (on_goal 2 => (intro _h; try clear_value x)))
    | (extract_lets +onlyGivenNames x; refine keep_cut (P := P) (x := x.1) ?_ ?_; (on_goal 1 => subst x); (on_goal 2 => (intro _h; try clear_value x)))
    | (extract_lets +onlyGivenNames x; refine keep_cut (P := P) (x := x.2) ?_ ?_; (on_goal 1 => subst x); (on_goal 2 => (intro _h; try clear_value x)))
    | (extract_lets +onlyGivenNames x; try clear_value x)
    | with_reducible apply up_keeps hP
    | with_reducible refine ite_keeps ?_ ?_
    | split

theorem incSat_keeps {P : State → Prop} (hP : Kept P) {s : State} {k : Nat} {n : Nat} {m : Nat} (_ : P s) :
    P (State.incSat s k n m) := by
  unfold State.incSat
  repeat' first
    | with_reducible assumption
    | (intro _x)
    | (extract_lets +onlyGivenNames x; refine keep_cut (P := P) (x := x) ?_ ?_; (on_goal 1 => subst x); (on_goal 2 => (intro _h; try clear_value x)))
    | (extract_lets +onlyGivenNames x; refine keep_cut (P := P) (x := x.s) ?_ ?_; (on_goal 1 => subst x); (on_goal 2 => (intro _h; try clear_value x)))
    | (extract_lets +onlyGivenNames x; refine keep_cut (P := P) (x := x.1) ?_ ?_; (on_goal 1 => subst x); (on_goal 2 => (intro _h; try clear_value x)))
    | (extract_lets +onlyGivenNames x; refine keep_cut (P := P) (x := x.2) ?_ ?_; (on_goal 1 => subst x); (on_goal 2 => (intro _h; try clear_value x)))
    | (extract_lets +onlyGivenNames x; try clear_value x)
    | with_reducible apply up_keeps hP
    | with_reducible refine ite_keeps ?_ ?_
    | split

theorem countFrame_keeps {P : State → Prop} (hP : Kept P) {s : State} {k : Nat} {n : Nat} (_ : P s) :
    P (State.countFrame s k n) := by
  unfold State.countFrame
  repeat' first
    | with_reducible assumption
    | (intro _x)
    | (extract_lets +onlyGivenNames x; refine keep_cut (P := P) (x := x) ?_ ?_; (on_goal 1 => subst x); (on_goal 2 => (intro _h; try clear_value x)))
    | (extract_lets +onlyGivenNames x; refine keep_cut (P := P) (x := x.s) ?_ ?_; (on_goal 1 => subst x); (on_goal 2 => (intro _h; try clear_value x)))
    | (extract_lets +onlyGivenNames x; refine keep_cut (P := P) (x := x.1) ?_ ?_; (on_goal 1 => subst x); (on_goal 2 => (intro _h; try clear_value x)))
    | (extract_lets +onlyGivenNames x; refine keep_cut (P := P) (x := x.2) ?_ ?_; (on_goal 1 => subst x); (on_goal 2 => (intro _h; try clear_value x)))
    | (extract_lets +onlyGivenNames x; try clear_value x)
    | with_reducible apply incSat_keeps hP
    | with_reducible refine ite_keeps ?_ ?_
    | split

theorem count_keeps {P : State → Prop} (hP : Kept P) {s : State} {k : Nat} {n : Nat} (_ : P s) :
    P (State.count s k n) := by
  unfold State.count
  repeat' first
    | with_reducible assumption
    | (intro _x)
    | (extract_lets +onlyGivenNames x; refine keep_cut (P := P) (x := x) ?_ ?_; (on_goal 1 => subst x); (on_goal 2 => (intro _h; try clear_value x)))
    | (extract_lets +onlyGivenNames x; refine keep_cut (P := P) (x := x.s) ?_ ?_; (on_goal 1 => subst x); (on_goal 2 => (intro _h; try clear_value x)))
    | (extract_lets +onlyGivenNames x; refine keep_cut (P := P) (x := x.1) ?_ ?_; (on_goal 1 => subst x); (on_goal 2 => (intro _h; try clear_value x)))
    | (extract_lets +onlyGivenNames x; refine keep_cut (P := P) (x := x.2) ?_ ?_; (on_goal 1 => subst x); (on_goal 2 => (intro _h; try clear_value x)))
    | (extract_lets +onlyGivenNames x; try clear_value x)
    | with_reducible apply wr_keeps hP
    | with_reducible apply countFrame_keeps hP
    | with_reducible refine ite_keeps ?_ ?_
    | split

theorem clr_keeps {P : State → Prop} (hP : Kept P) {s : State} {k : Nat} (_ : P s) :
    P (State.clr s k) := by
  unfold State.clr
  repeat' first
    | with_reducible assumption
    | (intro _x)
    | (extract_lets +onlyGivenNames x; refine keep_cut (P := P) (x := x) ?_ ?_; (on_goal 1 => subst x); (on_goal 2 => (intro _h; try clear_value x)))
    | (extract_lets +onlyGivenNames x; refine keep_cut (P := P) (x := x.s) ?_ ?_; (on_goal 1 => subst x); (on_goal 2 => (intro _h; try clear_value x)))
    | (extract_lets +onlyGivenNames x; refine keep_cut (P := P) (x := x.1) ?_ ?_; (on_goal 1 => subst x); (on_goal 2 => (intro _h; try clear_value x)))
    | (extract_lets +onlyGivenNames x; refine keep_cut (P := P) (x := x.2) ?_ ?_; (on_goal 1 => subst x); (on_goal 2 => (intro _h; try clear_value x)))
    | (extract_lets +onlyGivenNames x; try clear_value x)
    | with_reducible apply wr_keeps hP
    | with_reducible refine ite_keeps ?_ ?_
    | split

theorem setBit_keeps {P : State → Prop} (hP : Kept P) {s : State} {k : Nat} {i : Nat} {b : Bool} (_ : P s) :
    P (State.setBit s k i b) := by
  unfold State.setBit
  repeat' first
    | with_reducible assumption
    | (intro _x)
    | (extract_lets +onlyGivenNames x; refine keep_cut (P := P) (x := x) ?_ ?_; (on_goal 1 => subst x); (on_goal 2 => (intro _h; try clear_value x)))
    | (extract_lets +onlyGivenNames x; refine keep_cut (P := P) (x := x.s) ?_ ?_; (on_goal 1 => subst x); (on_goal 2 => (intro _h; try clear_value x)))
    | (extract_lets +onlyGivenNames x; refine keep_cut (P := P) (x := x.1) ?_ ?_; (on_goal 1 => subst x); (on_goal 2 => (intro _h; try clear_value x)))
    | (extract_lets +onlyGivenNames x; refine keep_cut (P := P) (x := x.2) ?_ ?_; (on_goal 1 => subst x); (on_goal 2 => (intro _h; try clear_value x)))
    | (extract_lets +onlyGivenNames x; try clear_value x)
    | with_reducible apply up_keeps hP
    | with_reducible refine ite_keeps ?_ ?_
    | split

theorem publish_keeps {P : State → Prop} (hP : Kept P) {s : State} {k : Nat} (_ : P s) :
    P (State.publish s k) := by
  unfold State.publish
  repeat' first
    | with_reducible assumption
    | (intro _x)
    | (extract_lets +onlyGivenNames x; refine keep_cut (P := P) (x := x) ?_ ?_; (on_goal 1 => subst x); (on_goal 2 => (intro _h; try clear_value x)))
    | (extract_lets +onlyGivenNames x; refine keep_cut (P := P) (x := x.s) ?_ ?_; (on_goal 1 => subst x); (on_goal 2 => (intro _h; try clear_value x)))
    | (extract_lets +onlyGivenNames x; refine keep_cut (P := P) (x := x.1) ?_ ?_; (on_goal 1 => subst x); (on_goal 2 => (intro _h; try clear_value x)))
    | (extract_lets +onlyGivenNames x; refine keep_cut (P := P) (x := x.2) ?_ ?_; (on_goal 1 => subst x); (on_goal 2 => (intro _h; try clear_value x)))
    | (extract_lets +onlyGivenNames x; try clear_value x)
    | with_reducible apply wr_keeps hP
    | with_reducible refine ite_keeps ?_ ?_
    | split

theorem totalClear_keeps {P : State → Prop} (hP : Kept P) {s : State} {total : Nat → Nat} {last' : Nat} (_ : P s) :
    P (State.totalClear s total last') := by
  unfold State.totalClear
  repeat' first
    | with_reducible assumption
    | (intro _x)
    | (extract_lets +onlyGivenNames x; refine keep_cut (P := P) (x := x) ?_ ?_; (on_goal 1 => subst x); (on_goal 2 => (intro _h; try clear_value x)))
    | (extract_lets +onlyGivenNames x; refine keep_cut (P := P) (x := x.s) ?_ ?_; (on_goal 1 => subst x); (on_goal 2 => (intro _h; try clear_value x)))
    | (extract_lets +onlyGivenNames x; refine keep_cut (P := P) (x := x.1) ?_ ?_; (on_goal 1 => subst x); (on_goal 2 => (intro _h; try clear_value x)))
    | (extract_lets +onlyGivenNames x; refine keep_cut (P := P) (x := x.2) ?_ ?_; (on_goal 1 => subst x); (on_goal 2 => (intro _h; try clear_value x)))
    | (extract_lets +onlyGivenNames x; try clear_value x)
    | with_reducible apply wr_keeps hP
    | with_reducible apply fold_keeps
    | with_reducible apply fold_fst_keeps
    | with_reducible refine ite_keeps ?_ ?_
    | split

theorem latch_keeps {P : State → Prop} (hP : Kept P) {s : State} {run : Nat → Nat} {last : Nat → Nat} {total : Nat → Nat} {last' : Nat} {frame : Nat} (_ : P s) :
    P (State.latch s run last total last' frame) := by
  unfold State.latch
  repeat' first
    | with_reducible assumption
    | (intro _x)
    | (extract_lets +onlyGivenNames x; refine keep_cut (P := P) (x := x) ?_ ?_; (on_goal 1 => subst x); (on_goal 2 => (intro _h; try clear_value x)))
    | (extract_lets +onlyGivenNames x; refine keep_cut (P := P) (x := x.s) ?_ ?_; (on_goal 1 => subst x); (on_goal 2 => (intro _h; try clear_value x)))
    | (extract_lets +onlyGivenNames x; refine keep_cut (P := P) (x := x.1) ?_ ?_; (on_goal 1 => subst x); (on_goal 2 => (intro _h; try clear_value x)))
    | (extract_lets +onlyGivenNames x; refine keep_cut (P := P) (x := x.2) ?_ ?_; (on_goal 1 => subst x); (on_goal 2 => (intro _h; try clear_value x)))
    | (extract_lets +onlyGivenNames x; try clear_value x)
    | with_reducible apply wr_keeps hP
    | with_reducible apply fold_keeps
    | with_reducible apply fold_fst_keeps
    | with_reducible apply inc_keeps hP
    | with_reducible apply totalClear_keeps hP
    | with_reducible refine ite_keeps ?_ ?_
    | split

theorem wrI_keeps {P : State → Prop} (hP : Kept P) {s : State} {w : Nat} {k : Nat} {i : Int} (_ : P s) :
    P (State.wrI s w k i) := by
  unfold State.wrI
  repeat' first
    | with_reducible assumption
    | (intro _x)
    | (extract_lets +onlyGivenNames x; refine keep_cut (P := P) (x := x) ?_ ?_; (on_goal 1 => subst x); (on_goal 2 => (intro _h; try clear_value x)))
    | (extract_lets +onlyGivenNames x; refine keep_cut (P := P) (x := x.s) ?_ ?_; (on_goal 1 => subst x); (on_goal 2 => (intro _h; try clear_value x)))
    | (extract_lets +onlyGivenNames x; refine keep_cut (P := P) (x := x.1) ?_ ?_; (on_goal 1 => subst x); (on_goal 2 => (intro _h; try clear_value x)))
    | (extract_lets +onlyGivenNames x; refine keep_cut (P := P) (x := x.2) ?_ ?_; (on_goal 1 => subst x); (on_goal 2 => (intro _h; try clear_value x)))
    | (extract_lets +onlyGivenNames x; try clear_value x)
    | with_reducible apply wr_keeps hP
    | with_reducible refine ite_keeps ?_ ?_
    | split

theorem wrMems_keeps {P : State → Prop} (hP : Kept P) (hM : KeptMem P) {s : State} {a : Nat} {l : List Nat} (h : P s) : P (s.wrMems a l) := by
  induction l generalizing s a with
  | nil => exact h
  | cons b t ih => exact ih (hM.wrMem _ _ _ h)

end Sys2Proof.Machine
end

