-- ==== Sys2Proof/Laws/KeepsFlags.lean ====
section
/-! SUPPORT. What the operations of Machine/Flags.lean keep. -/
set_option linter.all false
set_option maxRecDepth 8000
namespace Sys2Proof.Machine

theorem raiseLim_keeps {P : State → Prop} (hP : Kept P) {s : State} {id : Nat} {code : Nat} {src : Nat} {args : Nat → Nat × Nat} (_ : P s) :
    P (State.raiseLim s id code src args) := by
  unfold State.raiseLim
  repeat' first
    | with_reducible assumption
    | (intro _x)
    | (extract_lets +onlyGivenNames x; refine keep_cut (P := P) (x := x) ?_ ?_; (on_goal 1 => subst x); (on_goal 2 => (intro _h; try clear_value x)))
    | (extract_lets +onlyGivenNames x; refine keep_cut (P := P) (x := x.s) ?_ ?_; (on_goal 1 => subst x); (on_goal 2 => (intro _h; try clear_value x)))
    | (extract_lets +onlyGivenNames x; refine keep_cut (P := P) (x := x.1) ?_ ?_; (on_goal 1 => subst x); (on_goal 2 => (intro _h; try clear_value x)))
    | (extract_lets +onlyGivenNames x; refine keep_cut (P := P) (x := x.2) ?_ ?_; (on_goal 1 => subst x); (on_goal 2 => (intro _h; try clear_value x)))
    | (extract_lets +onlyGivenNames x; try clear_value x)
    | with_reducible apply wr_keeps hP
    | with_reducible apply raise_keeps hP
    | with_reducible apply inc_keeps hP
    | with_reducible refine ite_keeps ?_ ?_
    | split

theorem irqSet_keeps {P : State → Prop} (hP : Kept P) {s : State} {n : Nat} {b : Nat} (_ : P s) :
    P (State.irqSet s n b) := by
  unfold State.irqSet
  repeat' first
    | with_reducible assumption
    | (intro _x)
    | (extract_lets +onlyGivenNames x; refine keep_cut (P := P) (x := x) ?_ ?_; (on_goal 1 => subst x); (on_goal 2 => (intro _h; try clear_value x)))
    | (extract_lets +onlyGivenNames x; refine keep_cut (P := P) (x := x.s) ?_ ?_; (on_goal 1 => subst x); (on_goal 2 => (intro _h; try clear_value x)))
    | (extract_lets +onlyGivenNames x; refine keep_cut (P := P) (x := x.1) ?_ ?_; (on_goal 1 => subst x); (on_goal 2 => (intro _h; try clear_value x)))
    | (extract_lets +onlyGivenNames x; refine keep_cut (P := P) (x := x.2) ?_ ?_; (on_goal 1 => subst x); (on_goal 2 => (intro _h; try clear_value x)))
    | (extract_lets +onlyGivenNames x; try clear_value x)
    | with_reducible apply wr_keeps hP
    | with_reducible apply setBit_keeps hP
    | with_reducible refine ite_keeps ?_ ?_
    | split

end Sys2Proof.Machine
end

