-- ==== Sys2Proof/Laws/KeepsClocks.lean ====
section
/-! SUPPORT. What the operations of Machine/Clocks.lean keep. -/
set_option linter.all false
set_option maxRecDepth 8000
namespace Sys2Proof.Machine

theorem refMove_keeps {P : State → Prop} (hP : Kept P) {s : State} {k : Nat} {new : Nat} (_ : P s) :
    P (State.refMove s k new) := by
  unfold State.refMove
  repeat' first
    | with_reducible assumption
    | (intro _x)
    | (extract_lets +onlyGivenNames x; refine keep_cut (P := P) (x := x) ?_ ?_; (on_goal 1 => subst x); (on_goal 2 => (intro _h; try clear_value x)))
    | (extract_lets +onlyGivenNames x; refine keep_cut (P := P) (x := x.s) ?_ ?_; (on_goal 1 => subst x); (on_goal 2 => (intro _h; try clear_value x)))
    | (extract_lets +onlyGivenNames x; refine keep_cut (P := P) (x := x.1) ?_ ?_; (on_goal 1 => subst x); (on_goal 2 => (intro _h; try clear_value x)))
    | (extract_lets +onlyGivenNames x; refine keep_cut (P := P) (x := x.2) ?_ ?_; (on_goal 1 => subst x); (on_goal 2 => (intro _h; try clear_value x)))
    | (extract_lets +onlyGivenNames x; try clear_value x)
    | with_reducible apply wr_keeps hP
    | with_reducible apply raise_keeps hP
    | with_reducible refine ite_keeps ?_ ?_
    | split

theorem softCheck_keeps {P : State → Prop} (hP : Kept P) {s : State} {j : Nat} (_ : P s) :
    P (State.softCheck s j) := by
  unfold State.softCheck
  repeat' first
    | with_reducible assumption
    | (intro _x)
    | (extract_lets +onlyGivenNames x; refine keep_cut (P := P) (x := x) ?_ ?_; (on_goal 1 => subst x); (on_goal 2 => (intro _h; try clear_value x)))
    | (extract_lets +onlyGivenNames x; refine keep_cut (P := P) (x := x.s) ?_ ?_; (on_goal 1 => subst x); (on_goal 2 => (intro _h; try clear_value x)))
    | (extract_lets +onlyGivenNames x; refine keep_cut (P := P) (x := x.1) ?_ ?_; (on_goal 1 => subst x); (on_goal 2 => (intro _h; try clear_value x)))
    | (extract_lets +onlyGivenNames x; refine keep_cut (P := P) (x := x.2) ?_ ?_; (on_goal 1 => subst x); (on_goal 2 => (intro _h; try clear_value x)))
    | (extract_lets +onlyGivenNames x; try clear_value x)
    | with_reducible apply raise_keeps hP
    | with_reducible apply setBit_keeps hP
    | with_reducible refine ite_keeps ?_ ?_
    | split

theorem refLose_keeps {P : State → Prop} (hP : Kept P) {s : State} {k : Nat} (_ : P s) :
    P (State.refLose s k) := by
  unfold State.refLose
  repeat' first
    | with_reducible assumption
    | (intro _x)
    | (extract_lets +onlyGivenNames x; refine keep_cut (P := P) (x := x) ?_ ?_; (on_goal 1 => subst x); (on_goal 2 => (intro _h; try clear_value x)))
    | (extract_lets +onlyGivenNames x; refine keep_cut (P := P) (x := x.s) ?_ ?_; (on_goal 1 => subst x); (on_goal 2 => (intro _h; try clear_value x)))
    | (extract_lets +onlyGivenNames x; refine keep_cut (P := P) (x := x.1) ?_ ?_; (on_goal 1 => subst x); (on_goal 2 => (intro _h; try clear_value x)))
    | (extract_lets +onlyGivenNames x; refine keep_cut (P := P) (x := x.2) ?_ ?_; (on_goal 1 => subst x); (on_goal 2 => (intro _h; try clear_value x)))
    | (extract_lets +onlyGivenNames x; try clear_value x)
    | with_reducible apply wr_keeps hP
    | with_reducible apply setVec_keeps hP
    | with_reducible apply wrs_keeps hP
    | with_reducible apply upto_keeps
    | with_reducible apply refMove_keeps hP
    | with_reducible apply softCheck_keeps hP
    | with_reducible refine ite_keeps ?_ ?_
    | split

theorem ansErr_keeps0 {P : State → Prop} (hP : Kept P) {st : Nat} {s : State} (_ : P s) :
    onAns P (ansErr st s) := by
  unfold ansErr
  repeat' first
    | with_reducible assumption
    | (intro _x)
    | (extract_lets +onlyGivenNames x; refine keep_cut (P := P) (x := x) ?_ ?_; (on_goal 1 => subst x); (on_goal 2 => (intro _h; try clear_value x)))
    | (extract_lets +onlyGivenNames x; refine keep_cut (P := P) (x := x.s) ?_ ?_; (on_goal 1 => subst x); (on_goal 2 => (intro _h; try clear_value x)))
    | (extract_lets +onlyGivenNames x; refine keep_cut (P := P) (x := x.1) ?_ ?_; (on_goal 1 => subst x); (on_goal 2 => (intro _h; try clear_value x)))
    | (extract_lets +onlyGivenNames x; refine keep_cut (P := P) (x := x.2) ?_ ?_; (on_goal 1 => subst x); (on_goal 2 => (intro _h; try clear_value x)))
    | (extract_lets +onlyGivenNames x; try clear_value x)
    | with_reducible refine ite_ans ?_ ?_
    | with_reducible apply onAns_mk
    | with_reducible refine ite_keeps ?_ ?_
    | split

theorem ansErr_keeps {P : State → Prop} (hP : Kept P) {st : Nat} {s : State} (h0 : P s) :
    P (ansErr st s).s := ansErr_keeps0 hP h0

theorem ansRange_keeps0 {P : State → Prop} (hP : Kept P) {s : State} (_ : P s) :
    onAns P (ansRange s) := by
  unfold ansRange
  repeat' first
    | with_reducible assumption
    | (intro _x)
    | (extract_lets +onlyGivenNames x; refine keep_cut (P := P) (x := x) ?_ ?_; (on_goal 1 => subst x); (on_goal 2 => (intro _h; try clear_value x)))
    | (extract_lets +onlyGivenNames x; refine keep_cut (P := P) (x := x.s) ?_ ?_; (on_goal 1 => subst x); (on_goal 2 => (intro _h; try clear_value x)))
    | (extract_lets +onlyGivenNames x; refine keep_cut (P := P) (x := x.1) ?_ ?_; (on_goal 1 => subst x); (on_goal 2 => (intro _h; try clear_value x)))
    | (extract_lets +onlyGivenNames x; refine keep_cut (P := P) (x := x.2) ?_ ?_; (on_goal 1 => subst x); (on_goal 2 => (intro _h; try clear_value x)))
    | (extract_lets +onlyGivenNames x; try clear_value x)
    | with_reducible refine ite_ans ?_ ?_
    | with_reducible apply ansErr_keeps hP
    | with_reducible apply ansErr_keeps0 hP
    | with_reducible apply onAns_mk
    | with_reducible refine ite_keeps ?_ ?_
    | split

theorem ansRange_keeps {P : State → Prop} (hP : Kept P) {s : State} (h0 : P s) :
    P (ansRange s).s := ansRange_keeps0 hP h0

theorem ansOk_keeps0 {P : State → Prop} (hP : Kept P) {s : State} (_ : P s) :
    onAns P (ansOk s) := by
  unfold ansOk
  repeat' first
    | with_reducible assumption
    | (intro _x)
    | (extract_lets +onlyGivenNames x; refine keep_cut (P := P) (x := x) ?_ ?_; (on_goal 1 => subst x); (on_goal 2 => (intro _h; try clear_value x)))
    | (extract_lets +onlyGivenNames x; refine keep_cut (P := P) (x := x.s) ?_ ?_; (on_goal 1 => subst x); (on_goal 2 => (intro _h; try clear_value x)))
    | (extract_lets +onlyGivenNames x; refine keep_cut (P := P) (x := x.1) ?_ ?_; (on_goal 1 => subst x); (on_goal 2 => (intro _h; try clear_value x)))
    | (extract_lets +onlyGivenNames x; refine keep_cut (P := P) (x := x.2) ?_ ?_; (on_goal 1 => subst x); (on_goal 2 => (intro _h; try clear_value x)))
    | (extract_lets +onlyGivenNames x; try clear_value x)
    | with_reducible refine ite_ans ?_ ?_
    | with_reducible apply onAns_mk
    | with_reducible refine ite_keeps ?_ ?_
    | split

theorem ansOk_keeps {P : State → Prop} (hP : Kept P) {s : State} (h0 : P s) :
    P (ansOk s).s := ansOk_keeps0 hP h0

theorem ansBusy_keeps0 {P : State → Prop} (hP : Kept P) {s : State} (_ : P s) :
    onAns P (ansBusy s) := by
  unfold ansBusy
  repeat' first
    | with_reducible assumption
    | (intro _x)
    | (extract_lets +onlyGivenNames x; refine keep_cut (P := P) (x := x) ?_ ?_; (on_goal 1 => subst x); (on_goal 2 => (intro _h; try clear_value x)))
    | (extract_lets +onlyGivenNames x; refine keep_cut (P := P) (x := x.s) ?_ ?_; (on_goal 1 => subst x); (on_goal 2 => (intro _h; try clear_value x)))
    | (extract_lets +onlyGivenNames x; refine keep_cut (P := P) (x := x.1) ?_ ?_; (on_goal 1 => subst x); (on_goal 2 => (intro _h; try clear_value x)))
    | (extract_lets +onlyGivenNames x; refine keep_cut (P := P) (x := x.2) ?_ ?_; (on_goal 1 => subst x); (on_goal 2 => (intro _h; try clear_value x)))
    | (extract_lets +onlyGivenNames x; try clear_value x)
    | with_reducible refine ite_ans ?_ ?_
    | with_reducible apply ansErr_keeps hP
    | with_reducible apply ansErr_keeps0 hP
    | with_reducible apply onAns_mk
    | with_reducible refine ite_keeps ?_ ?_
    | split

theorem ansBusy_keeps {P : State → Prop} (hP : Kept P) {s : State} (h0 : P s) :
    P (ansBusy s).s := ansBusy_keeps0 hP h0

theorem ansConflict_keeps0 {P : State → Prop} (hP : Kept P) {h : Nat} {s : State} (_ : P s) :
    onAns P (ansConflict h s) := by
  unfold ansConflict
  repeat' first
    | with_reducible assumption
    | (intro _x)
    | (extract_lets +onlyGivenNames x; refine keep_cut (P := P) (x := x) ?_ ?_; (on_goal 1 => subst x); (on_goal 2 => (intro _h; try clear_value x)))
    | (extract_lets +onlyGivenNames x; refine keep_cut (P := P) (x := x.s) ?_ ?_; (on_goal 1 => subst x); (on_goal 2 => (intro _h; try clear_value x)))
    | (extract_lets +onlyGivenNames x; refine keep_cut (P := P) (x := x.1) ?_ ?_; (on_goal 1 => subst x); (on_goal 2 => (intro _h; try clear_value x)))
    | (extract_lets +onlyGivenNames x; refine keep_cut (P := P) (x := x.2) ?_ ?_; (on_goal 1 => subst x); (on_goal 2 => (intro _h; try clear_value x)))
    | (extract_lets +onlyGivenNames x; try clear_value x)
    | with_reducible refine ite_ans ?_ ?_
    | with_reducible apply onAns_mk
    | with_reducible refine ite_keeps ?_ ?_
    | split

theorem ansConflict_keeps {P : State → Prop} (hP : Kept P) {h : Nat} {s : State} (h0 : P s) :
    P (ansConflict h s).s := ansConflict_keeps0 hP h0

theorem utcFollow_keeps {P : State → Prop} (hP : Kept P) {s : State} (_ : P s) :
    P (State.utcFollow s) := by
  unfold State.utcFollow
  repeat' first
    | with_reducible assumption
    | (intro _x)
    | (extract_lets +onlyGivenNames x; refine keep_cut (P := P) (x := x) ?_ ?_; (on_goal 1 => subst x); (on_goal 2 => (intro _h; try clear_value x)))
    | (extract_lets +onlyGivenNames x; refine keep_cut (P := P) (x := x.s) ?_ ?_; (on_goal 1 => subst x); (on_goal 2 => (intro _h; try clear_value x)))
    | (extract_lets +onlyGivenNames x; refine keep_cut (P := P) (x := x.1) ?_ ?_; (on_goal 1 => subst x); (on_goal 2 => (intro _h; try clear_value x)))
    | (extract_lets +onlyGivenNames x; refine keep_cut (P := P) (x := x.2) ?_ ?_; (on_goal 1 => subst x); (on_goal 2 => (intro _h; try clear_value x)))
    | (extract_lets +onlyGivenNames x; try clear_value x)
    | with_reducible apply wr_keeps hP
    | with_reducible refine ite_keeps ?_ ?_
    | split

theorem wckStep_keeps {P : State → Prop} (hP : Kept P) {s : State} {d : Int} (_ : P s) :
    P (State.wckStep s d) := by
  unfold State.wckStep
  repeat' first
    | with_reducible assumption
    | (intro _x)
    | (extract_lets +onlyGivenNames x; refine keep_cut (P := P) (x := x) ?_ ?_; (on_goal 1 => subst x); (on_goal 2 => (intro _h; try clear_value x)))
    | (extract_lets +onlyGivenNames x; refine keep_cut (P := P) (x := x.s) ?_ ?_; (on_goal 1 => subst x); (on_goal 2 => (intro _h; try clear_value x)))
    | (extract_lets +onlyGivenNames x; refine keep_cut (P := P) (x := x.1) ?_ ?_; (on_goal 1 => subst x); (on_goal 2 => (intro _h; try clear_value x)))
    | (extract_lets +onlyGivenNames x; refine keep_cut (P := P) (x := x.2) ?_ ?_; (on_goal 1 => subst x); (on_goal 2 => (intro _h; try clear_value x)))
    | (extract_lets +onlyGivenNames x; try clear_value x)
    | with_reducible apply setVec_keeps hP
    | with_reducible refine ite_keeps ?_ ?_
    | split

theorem shiftKey_keeps {P : State → Prop} (hP : Kept P) {t : State} {k : Nat} {d : Int} (_ : P t) :
    P (State.shiftKey t k d) := by
  unfold State.shiftKey
  repeat' first
    | with_reducible assumption
    | (intro _x)
    | (extract_lets +onlyGivenNames x; refine keep_cut (P := P) (x := x) ?_ ?_; (on_goal 1 => subst x); (on_goal 2 => (intro _h; try clear_value x)))
    | (extract_lets +onlyGivenNames x; refine keep_cut (P := P) (x := x.s) ?_ ?_; (on_goal 1 => subst x); (on_goal 2 => (intro _h; try clear_value x)))
    | (extract_lets +onlyGivenNames x; refine keep_cut (P := P) (x := x.1) ?_ ?_; (on_goal 1 => subst x); (on_goal 2 => (intro _h; try clear_value x)))
    | (extract_lets +onlyGivenNames x; refine keep_cut (P := P) (x := x.2) ?_ ?_; (on_goal 1 => subst x); (on_goal 2 => (intro _h; try clear_value x)))
    | (extract_lets +onlyGivenNames x; try clear_value x)
    | with_reducible apply wr_keeps hP
    | with_reducible refine ite_keeps ?_ ?_
    | split

theorem todStep_keeps {P : State → Prop} (hP : Kept P) {s : State} {d : Int} (_ : P s) :
    P (State.todStep s d) := by
  unfold State.todStep
  repeat' first
    | with_reducible assumption
    | (intro _x)
    | (extract_lets +onlyGivenNames x; refine keep_cut (P := P) (x := x) ?_ ?_; (on_goal 1 => subst x); (on_goal 2 => (intro _h; try clear_value x)))
    | (extract_lets +onlyGivenNames x; refine keep_cut (P := P) (x := x.s) ?_ ?_; (on_goal 1 => subst x); (on_goal 2 => (intro _h; try clear_value x)))
    | (extract_lets +onlyGivenNames x; refine keep_cut (P := P) (x := x.1) ?_ ?_; (on_goal 1 => subst x); (on_goal 2 => (intro _h; try clear_value x)))
    | (extract_lets +onlyGivenNames x; refine keep_cut (P := P) (x := x.2) ?_ ?_; (on_goal 1 => subst x); (on_goal 2 => (intro _h; try clear_value x)))
    | (extract_lets +onlyGivenNames x; try clear_value x)
    | with_reducible apply setVec_keeps hP
    | with_reducible apply upto_keeps
    | with_reducible apply wckStep_keeps hP
    | with_reducible apply shiftKey_keeps hP
    | with_reducible refine ite_keeps ?_ ?_
    | split
    | with_reducible apply hP.vecs

theorem todSelWrite_keeps0 {P : State → Prop} (hP : Kept P) {v : Nat} {s : State} (_ : P s) :
    onAns P (todSelWrite v s) := by
  unfold todSelWrite
  repeat' first
    | with_reducible assumption
    | (intro _x)
    | (extract_lets +onlyGivenNames x; refine keep_cut (P := P) (x := x) ?_ ?_; (on_goal 1 => subst x); (on_goal 2 => (intro _h; try clear_value x)))
    | (extract_lets +onlyGivenNames x; refine keep_cut (P := P) (x := x.s) ?_ ?_; (on_goal 1 => subst x); (on_goal 2 => (intro _h; try clear_value x)))
    | (extract_lets +onlyGivenNames x; refine keep_cut (P := P) (x := x.1) ?_ ?_; (on_goal 1 => subst x); (on_goal 2 => (intro _h; try clear_value x)))
    | (extract_lets +onlyGivenNames x; refine keep_cut (P := P) (x := x.2) ?_ ?_; (on_goal 1 => subst x); (on_goal 2 => (intro _h; try clear_value x)))
    | (extract_lets +onlyGivenNames x; try clear_value x)
    | with_reducible refine ite_ans ?_ ?_
    | with_reducible apply wr_keeps hP
    | with_reducible apply ansOk_keeps hP
    | with_reducible apply ansOk_keeps0 hP
    | with_reducible apply utcFollow_keeps hP
    | with_reducible apply todStep_keeps hP
    | with_reducible apply onAns_mk
    | with_reducible refine ite_keeps ?_ ?_
    | split

theorem todSelWrite_keeps {P : State → Prop} (hP : Kept P) {v : Nat} {s : State} (h0 : P s) :
    P (todSelWrite v s).s := todSelWrite_keeps0 hP h0

theorem tsMove_keeps {P : State → Prop} (hP : Kept P) {s : State} {j : Nat} {d : Int} (_ : P s) :
    P (State.tsMove s j d) := by
  unfold State.tsMove
  repeat' first
    | with_reducible assumption
    | (intro _x)
    | (extract_lets +onlyGivenNames x; refine keep_cut (P := P) (x := x) ?_ ?_; (on_goal 1 => subst x); (on_goal 2 => (intro _h; try clear_value x)))
    | (extract_lets +onlyGivenNames x; refine keep_cut (P := P) (x := x.s) ?_ ?_; (on_goal 1 => subst x); (on_goal 2 => (intro _h; try clear_value x)))
    | (extract_lets +onlyGivenNames x; refine keep_cut (P := P) (x := x.1) ?_ ?_; (on_goal 1 => subst x); (on_goal 2 => (intro _h; try clear_value x)))
    | (extract_lets +onlyGivenNames x; refine keep_cut (P := P) (x := x.2) ?_ ?_; (on_goal 1 => subst x); (on_goal 2 => (intro _h; try clear_value x)))
    | (extract_lets +onlyGivenNames x; try clear_value x)
    | with_reducible apply wr_keeps hP
    | with_reducible apply todStep_keeps hP
    | with_reducible refine ite_keeps ?_ ?_
    | split

theorem adjustFrame_keeps {P : State → Prop} (hP : Kept P) {s : State} {n : Nat} (_ : P s) :
    P (State.adjustFrame s n) := by
  unfold State.adjustFrame
  repeat' first
    | with_reducible assumption
    | (intro _x)
    | (extract_lets +onlyGivenNames x; refine keep_cut (P := P) (x := x) ?_ ?_; (on_goal 1 => subst x); (on_goal 2 => (intro _h; try clear_value x)))
    | (extract_lets +onlyGivenNames x; refine keep_cut (P := P) (x := x.s) ?_ ?_; (on_goal 1 => subst x); (on_goal 2 => (intro _h; try clear_value x)))
    | (extract_lets +onlyGivenNames x; refine keep_cut (P := P) (x := x.1) ?_ ?_; (on_goal 1 => subst x); (on_goal 2 => (intro _h; try clear_value x)))
    | (extract_lets +onlyGivenNames x; refine keep_cut (P := P) (x := x.2) ?_ ?_; (on_goal 1 => subst x); (on_goal 2 => (intro _h; try clear_value x)))
    | (extract_lets +onlyGivenNames x; try clear_value x)
    | with_reducible apply wr_keeps hP
    | with_reducible apply wr64_keeps hP
    | with_reducible refine ite_keeps ?_ ?_
    | split

theorem outStepBy_keeps {P : State → Prop} (hP : Kept P) {s : State} {n : Nat} {g : Nat} {d : Int} {here : Bool} (_ : P s) :
    P (State.outStepBy s n g d here) := by
  unfold State.outStepBy
  repeat' first
    | with_reducible assumption
    | (intro _x)
    | (extract_lets +onlyGivenNames x; refine keep_cut (P := P) (x := x) ?_ ?_; (on_goal 1 => subst x); (on_goal 2 => (intro _h; try clear_value x)))
    | (extract_lets +onlyGivenNames x; refine keep_cut (P := P) (x := x.s) ?_ ?_; (on_goal 1 => subst x); (on_goal 2 => (intro _h; try clear_value x)))
    | (extract_lets +onlyGivenNames x; refine keep_cut (P := P) (x := x.1) ?_ ?_; (on_goal 1 => subst x); (on_goal 2 => (intro _h; try clear_value x)))
    | (extract_lets +onlyGivenNames x; refine keep_cut (P := P) (x := x.2) ?_ ?_; (on_goal 1 => subst x); (on_goal 2 => (intro _h; try clear_value x)))
    | (extract_lets +onlyGivenNames x; try clear_value x)
    | with_reducible apply setVec_keeps hP
    | with_reducible apply adjustFrame_keeps hP
    | with_reducible refine ite_keeps ?_ ?_
    | split

theorem gProfile_keeps {P : State → Prop} (hP : Kept P) {s : State} {g : Nat} {l : List Piece} (_ : P s) :
    P (State.gProfile s g l) := by
  unfold State.gProfile
  repeat' first
    | with_reducible assumption
    | (intro _x)
    | (extract_lets +onlyGivenNames x; refine keep_cut (P := P) (x := x) ?_ ?_; (on_goal 1 => subst x); (on_goal 2 => (intro _h; try clear_value x)))
    | (extract_lets +onlyGivenNames x; refine keep_cut (P := P) (x := x.s) ?_ ?_; (on_goal 1 => subst x); (on_goal 2 => (intro _h; try clear_value x)))
    | (extract_lets +onlyGivenNames x; refine keep_cut (P := P) (x := x.1) ?_ ?_; (on_goal 1 => subst x); (on_goal 2 => (intro _h; try clear_value x)))
    | (extract_lets +onlyGivenNames x; refine keep_cut (P := P) (x := x.2) ?_ ?_; (on_goal 1 => subst x); (on_goal 2 => (intro _h; try clear_value x)))
    | (extract_lets +onlyGivenNames x; try clear_value x)
    | with_reducible apply wr_keeps hP
    | with_reducible apply setVec_keeps hP
    | with_reducible apply wr64_keeps hP
    | with_reducible apply wrI_keeps hP
    | with_reducible refine ite_keeps ?_ ?_
    | split

theorem slewTo_keeps {P : State → Prop} (hP : Kept P) {s : State} {g : Nat} {base : Int} {dist : Int} {going : Bool} (_ : P s) :
    P (State.slewTo s g base dist going) := by
  unfold State.slewTo
  repeat' first
    | with_reducible assumption
    | (intro _x)
    | (extract_lets +onlyGivenNames x; refine keep_cut (P := P) (x := x) ?_ ?_; (on_goal 1 => subst x); (on_goal 2 => (intro _h; try clear_value x)))
    | (extract_lets +onlyGivenNames x; refine keep_cut (P := P) (x := x.s) ?_ ?_; (on_goal 1 => subst x); (on_goal 2 => (intro _h; try clear_value x)))
    | (extract_lets +onlyGivenNames x; refine keep_cut (P := P) (x := x.1) ?_ ?_; (on_goal 1 => subst x); (on_goal 2 => (intro _h; try clear_value x)))
    | (extract_lets +onlyGivenNames x; refine keep_cut (P := P) (x := x.2) ?_ ?_; (on_goal 1 => subst x); (on_goal 2 => (intro _h; try clear_value x)))
    | (extract_lets +onlyGivenNames x; try clear_value x)
    | with_reducible apply wr_keeps hP
    | with_reducible apply raise_keeps hP
    | with_reducible apply gProfile_keeps hP
    | with_reducible apply wr64_keeps hP
    | with_reducible refine ite_keeps ?_ ?_
    | split

theorem slewBy_keeps {P : State → Prop} (hP : Kept P) {s : State} {g : Nat} {d : Int} (_ : P s) :
    P (State.slewBy s g d) := by
  unfold State.slewBy
  repeat' first
    | with_reducible assumption
    | (intro _x)
    | (extract_lets +onlyGivenNames x; refine keep_cut (P := P) (x := x) ?_ ?_; (on_goal 1 => subst x); (on_goal 2 => (intro _h; try clear_value x)))
    | (extract_lets +onlyGivenNames x; refine keep_cut (P := P) (x := x.s) ?_ ?_; (on_goal 1 => subst x); (on_goal 2 => (intro _h; try clear_value x)))
    | (extract_lets +onlyGivenNames x; refine keep_cut (P := P) (x := x.1) ?_ ?_; (on_goal 1 => subst x); (on_goal 2 => (intro _h; try clear_value x)))
    | (extract_lets +onlyGivenNames x; refine keep_cut (P := P) (x := x.2) ?_ ?_; (on_goal 1 => subst x); (on_goal 2 => (intro _h; try clear_value x)))
    | (extract_lets +onlyGivenNames x; try clear_value x)
    | with_reducible apply slewTo_keeps hP
    | with_reducible apply wr64_keeps hP
    | with_reducible refine ite_keeps ?_ ?_
    | split

theorem famStepAt_keeps {P : State → Prop} (hP : Kept P) {s : State} {g : Nat} {d : Int} {here : Bool} (_ : P s) :
    P (State.famStepAt s g d here) := by
  unfold State.famStepAt
  repeat' first
    | with_reducible assumption
    | (intro _x)
    | (extract_lets +onlyGivenNames x; refine keep_cut (P := P) (x := x) ?_ ?_; (on_goal 1 => subst x); (on_goal 2 => (intro _h; try clear_value x)))
    | (extract_lets +onlyGivenNames x; refine keep_cut (P := P) (x := x.s) ?_ ?_; (on_goal 1 => subst x); (on_goal 2 => (intro _h; try clear_value x)))
    | (extract_lets +onlyGivenNames x; refine keep_cut (P := P) (x := x.1) ?_ ?_; (on_goal 1 => subst x); (on_goal 2 => (intro _h; try clear_value x)))
    | (extract_lets +onlyGivenNames x; refine keep_cut (P := P) (x := x.2) ?_ ?_; (on_goal 1 => subst x); (on_goal 2 => (intro _h; try clear_value x)))
    | (extract_lets +onlyGivenNames x; try clear_value x)
    | with_reducible apply upto_keeps
    | with_reducible apply wr64_keeps hP
    | with_reducible apply outStepBy_keeps hP
    | with_reducible apply slewBy_keeps hP
    | with_reducible refine ite_keeps ?_ ?_
    | split

theorem famStep_keeps {P : State → Prop} (hP : Kept P) {s : State} {g : Nat} {d : Int} (_ : P s) :
    P (State.famStep s g d) := by
  unfold State.famStep
  repeat' first
    | with_reducible assumption
    | (intro _x)
    | (extract_lets +onlyGivenNames x; refine keep_cut (P := P) (x := x) ?_ ?_; (on_goal 1 => subst x); (on_goal 2 => (intro _h; try clear_value x)))
    | (extract_lets +onlyGivenNames x; refine keep_cut (P := P) (x := x.s) ?_ ?_; (on_goal 1 => subst x); (on_goal 2 => (intro _h; try clear_value x)))
    | (extract_lets +onlyGivenNames x; refine keep_cut (P := P) (x := x.1) ?_ ?_; (on_goal 1 => subst x); (on_goal 2 => (intro _h; try clear_value x)))
    | (extract_lets +onlyGivenNames x; refine keep_cut (P := P) (x := x.2) ?_ ?_; (on_goal 1 => subst x); (on_goal 2 => (intro _h; try clear_value x)))
    | (extract_lets +onlyGivenNames x; try clear_value x)
    | with_reducible apply famStepAt_keeps hP
    | with_reducible refine ite_keeps ?_ ?_
    | split

theorem famSteps_keeps {P : State → Prop} (hP : Kept P) {s : State} {j : Nat} {d : Int} (_ : P s) :
    P (State.famSteps s j d) := by
  unfold State.famSteps
  repeat' first
    | with_reducible assumption
    | (intro _x)
    | (extract_lets +onlyGivenNames x; refine keep_cut (P := P) (x := x) ?_ ?_; (on_goal 1 => subst x); (on_goal 2 => (intro _h; try clear_value x)))
    | (extract_lets +onlyGivenNames x; refine keep_cut (P := P) (x := x.s) ?_ ?_; (on_goal 1 => subst x); (on_goal 2 => (intro _h; try clear_value x)))
    | (extract_lets +onlyGivenNames x; refine keep_cut (P := P) (x := x.1) ?_ ?_; (on_goal 1 => subst x); (on_goal 2 => (intro _h; try clear_value x)))
    | (extract_lets +onlyGivenNames x; refine keep_cut (P := P) (x := x.2) ?_ ?_; (on_goal 1 => subst x); (on_goal 2 => (intro _h; try clear_value x)))
    | (extract_lets +onlyGivenNames x; try clear_value x)
    | with_reducible apply upto_keeps
    | with_reducible apply famStep_keeps hP
    | with_reducible refine ite_keeps ?_ ?_
    | split

theorem phaseStep_keeps {P : State → Prop} (hP : Kept P) {s : State} {j : Nat} {d : Int} (_ : P s) :
    P (State.phaseStep s j d) := by
  unfold State.phaseStep
  repeat' first
    | with_reducible assumption
    | (intro _x)
    | (extract_lets +onlyGivenNames x; refine keep_cut (P := P) (x := x) ?_ ?_; (on_goal 1 => subst x); (on_goal 2 => (intro _h; try clear_value x)))
    | (extract_lets +onlyGivenNames x; refine keep_cut (P := P) (x := x.s) ?_ ?_; (on_goal 1 => subst x); (on_goal 2 => (intro _h; try clear_value x)))
    | (extract_lets +onlyGivenNames x; refine keep_cut (P := P) (x := x.1) ?_ ?_; (on_goal 1 => subst x); (on_goal 2 => (intro _h; try clear_value x)))
    | (extract_lets +onlyGivenNames x; refine keep_cut (P := P) (x := x.2) ?_ ?_; (on_goal 1 => subst x); (on_goal 2 => (intro _h; try clear_value x)))
    | (extract_lets +onlyGivenNames x; try clear_value x)
    | with_reducible apply raise_keeps hP
    | with_reducible apply wr64_keeps hP
    | with_reducible apply tsMove_keeps hP
    | with_reducible apply famSteps_keeps hP
    | with_reducible refine ite_keeps ?_ ?_
    | split

theorem todSet_keeps0 {P : State → Prop} (hP : Kept P) {v : Nat} {s : State} (_ : P s) :
    onAns P (todSet v s) := by
  unfold todSet
  repeat' first
    | with_reducible assumption
    | (intro _x)
    | (extract_lets +onlyGivenNames x; refine keep_cut (P := P) (x := x) ?_ ?_; (on_goal 1 => subst x); (on_goal 2 => (intro _h; try clear_value x)))
    | (extract_lets +onlyGivenNames x; refine keep_cut (P := P) (x := x.s) ?_ ?_; (on_goal 1 => subst x); (on_goal 2 => (intro _h; try clear_value x)))
    | (extract_lets +onlyGivenNames x; refine keep_cut (P := P) (x := x.1) ?_ ?_; (on_goal 1 => subst x); (on_goal 2 => (intro _h; try clear_value x)))
    | (extract_lets +onlyGivenNames x; refine keep_cut (P := P) (x := x.2) ?_ ?_; (on_goal 1 => subst x); (on_goal 2 => (intro _h; try clear_value x)))
    | (extract_lets +onlyGivenNames x; try clear_value x)
    | with_reducible refine ite_ans ?_ ?_
    | with_reducible apply wr_keeps hP
    | with_reducible apply raise_keeps hP
    | with_reducible apply ansBusy_keeps hP
    | with_reducible apply ansBusy_keeps0 hP
    | with_reducible apply ansOk_keeps hP
    | with_reducible apply ansOk_keeps0 hP
    | with_reducible apply phaseStep_keeps hP
    | with_reducible apply onAns_mk
    | with_reducible refine ite_keeps ?_ ?_
    | split

theorem todSet_keeps {P : State → Prop} (hP : Kept P) {v : Nat} {s : State} (h0 : P s) :
    P (todSet v s).s := todSet_keeps0 hP h0

theorem utcWrite_keeps0 {P : State → Prop} (hP : Kept P) {v : Nat} {s : State} (_ : P s) :
    onAns P (utcWrite v s) := by
  unfold utcWrite
  repeat' first
    | with_reducible assumption
    | (intro _x)
    | (extract_lets +onlyGivenNames x; refine keep_cut (P := P) (x := x) ?_ ?_; (on_goal 1 => subst x); (on_goal 2 => (intro _h; try clear_value x)))
    | (extract_lets +onlyGivenNames x; refine keep_cut (P := P) (x := x.s) ?_ ?_; (on_goal 1 => subst x); (on_goal 2 => (intro _h; try clear_value x)))
    | (extract_lets +onlyGivenNames x; refine keep_cut (P := P) (x := x.1) ?_ ?_; (on_goal 1 => subst x); (on_goal 2 => (intro _h; try clear_value x)))
    | (extract_lets +onlyGivenNames x; refine keep_cut (P := P) (x := x.2) ?_ ?_; (on_goal 1 => subst x); (on_goal 2 => (intro _h; try clear_value x)))
    | (extract_lets +onlyGivenNames x; try clear_value x)
    | with_reducible refine ite_ans ?_ ?_
    | with_reducible apply wr_keeps hP
    | with_reducible apply ansBusy_keeps hP
    | with_reducible apply ansBusy_keeps0 hP
    | with_reducible apply ansOk_keeps hP
    | with_reducible apply ansOk_keeps0 hP
    | with_reducible apply onAns_mk
    | with_reducible refine ite_keeps ?_ ?_
    | split

theorem utcWrite_keeps {P : State → Prop} (hP : Kept P) {v : Nat} {s : State} (h0 : P s) :
    P (utcWrite v s).s := utcWrite_keeps0 hP h0

theorem lolClear_keeps0 {P : State → Prop} (hP : Kept P) {s : State} (_ : P s) :
    onAns P (lolClear s) := by
  unfold lolClear
  repeat' first
    | with_reducible assumption
    | (intro _x)
    | (extract_lets +onlyGivenNames x; refine keep_cut (P := P) (x := x) ?_ ?_; (on_goal 1 => subst x); (on_goal 2 => (intro _h; try clear_value x)))
    | (extract_lets +onlyGivenNames x; refine keep_cut (P := P) (x := x.s) ?_ ?_; (on_goal 1 => subst x); (on_goal 2 => (intro _h; try clear_value x)))
    | (extract_lets +onlyGivenNames x; refine keep_cut (P := P) (x := x.1) ?_ ?_; (on_goal 1 => subst x); (on_goal 2 => (intro _h; try clear_value x)))
    | (extract_lets +onlyGivenNames x; refine keep_cut (P := P) (x := x.2) ?_ ?_; (on_goal 1 => subst x); (on_goal 2 => (intro _h; try clear_value x)))
    | (extract_lets +onlyGivenNames x; try clear_value x)
    | with_reducible refine ite_ans ?_ ?_
    | with_reducible apply wrs_keeps hP
    | with_reducible apply fold_keeps
    | with_reducible apply fold_fst_keeps
    | with_reducible apply ansOk_keeps hP
    | with_reducible apply ansOk_keeps0 hP
    | with_reducible apply onAns_mk
    | with_reducible refine ite_keeps ?_ ?_
    | split

theorem lolClear_keeps {P : State → Prop} (hP : Kept P) {s : State} (h0 : P s) :
    P (lolClear s).s := lolClear_keeps0 hP h0

theorem ptpMove_keeps {P : State → Prop} (hP : Kept P) {s : State} {p : Nat} {new : Nat} (_ : P s) :
    P (State.ptpMove s p new) := by
  unfold State.ptpMove
  repeat' first
    | with_reducible assumption
    | (intro _x)
    | (extract_lets +onlyGivenNames x; refine keep_cut (P := P) (x := x) ?_ ?_; (on_goal 1 => subst x); (on_goal 2 => (intro _h; try clear_value x)))
    | (extract_lets +onlyGivenNames x; refine keep_cut (P := P) (x := x.s) ?_ ?_; (on_goal 1 => subst x); (on_goal 2 => (intro _h; try clear_value x)))
    | (extract_lets +onlyGivenNames x; refine keep_cut (P := P) (x := x.1) ?_ ?_; (on_goal 1 => subst x); (on_goal 2 => (intro _h; try clear_value x)))
    | (extract_lets +onlyGivenNames x; refine keep_cut (P := P) (x := x.2) ?_ ?_; (on_goal 1 => subst x); (on_goal 2 => (intro _h; try clear_value x)))
    | (extract_lets +onlyGivenNames x; try clear_value x)
    | with_reducible apply wr_keeps hP
    | with_reducible apply raise_keeps hP
    | with_reducible refine ite_keeps ?_ ?_
    | split

theorem pllFreeze_keeps {P : State → Prop} (hP : Kept P) {s : State} {x : Nat} {word : Nat} (_ : P s) :
    P (State.pllFreeze s x word) := by
  unfold State.pllFreeze
  repeat' first
    | with_reducible assumption
    | (intro _x)
    | (extract_lets +onlyGivenNames x; refine keep_cut (P := P) (x := x) ?_ ?_; (on_goal 1 => subst x); (on_goal 2 => (intro _h; try clear_value x)))
    | (extract_lets +onlyGivenNames x; refine keep_cut (P := P) (x := x.s) ?_ ?_; (on_goal 1 => subst x); (on_goal 2 => (intro _h; try clear_value x)))
    | (extract_lets +onlyGivenNames x; refine keep_cut (P := P) (x := x.1) ?_ ?_; (on_goal 1 => subst x); (on_goal 2 => (intro _h; try clear_value x)))
    | (extract_lets +onlyGivenNames x; refine keep_cut (P := P) (x := x.2) ?_ ?_; (on_goal 1 => subst x); (on_goal 2 => (intro _h; try clear_value x)))
    | (extract_lets +onlyGivenNames x; try clear_value x)
    | with_reducible apply wr_keeps hP
    | with_reducible apply raise_keeps hP
    | with_reducible refine ite_keeps ?_ ?_
    | split

theorem wtrStart_keeps {P : State → Prop} (hP : Kept P) {s : State} {k : Nat} (_ : P s) :
    P (State.wtrStart s k) := by
  unfold State.wtrStart
  repeat' first
    | with_reducible assumption
    | (intro _x)
    | (extract_lets +onlyGivenNames x; refine keep_cut (P := P) (x := x) ?_ ?_; (on_goal 1 => subst x); (on_goal 2 => (intro _h; try clear_value x)))
    | (extract_lets +onlyGivenNames x; refine keep_cut (P := P) (x := x.s) ?_ ?_; (on_goal 1 => subst x); (on_goal 2 => (intro _h; try clear_value x)))
    | (extract_lets +onlyGivenNames x; refine keep_cut (P := P) (x := x.1) ?_ ?_; (on_goal 1 => subst x); (on_goal 2 => (intro _h; try clear_value x)))
    | (extract_lets +onlyGivenNames x; refine keep_cut (P := P) (x := x.2) ?_ ?_; (on_goal 1 => subst x); (on_goal 2 => (intro _h; try clear_value x)))
    | (extract_lets +onlyGivenNames x; try clear_value x)
    | with_reducible apply wr_keeps hP
    | with_reducible apply raise_keeps hP
    | with_reducible apply refMove_keeps hP
    | with_reducible refine ite_keeps ?_ ?_
    | split

theorem limitCheck_keeps {P : State → Prop} (hP : Kept P) {s : State} {k : Nat} (_ : P s) :
    P (State.limitCheck s k) := by
  unfold State.limitCheck
  repeat' first
    | with_reducible assumption
    | (intro _x)
    | (extract_lets +onlyGivenNames x; refine keep_cut (P := P) (x := x) ?_ ?_; (on_goal 1 => subst x); (on_goal 2 => (intro _h; try clear_value x)))
    | (extract_lets +onlyGivenNames x; refine keep_cut (P := P) (x := x.s) ?_ ?_; (on_goal 1 => subst x); (on_goal 2 => (intro _h; try clear_value x)))
    | (extract_lets +onlyGivenNames x; refine keep_cut (P := P) (x := x.1) ?_ ?_; (on_goal 1 => subst x); (on_goal 2 => (intro _h; try clear_value x)))
    | (extract_lets +onlyGivenNames x; refine keep_cut (P := P) (x := x.2) ?_ ?_; (on_goal 1 => subst x); (on_goal 2 => (intro _h; try clear_value x)))
    | (extract_lets +onlyGivenNames x; try clear_value x)
    | with_reducible apply raise_keeps hP
    | with_reducible apply wtrStart_keeps hP
    | with_reducible apply refMove_keeps hP
    | with_reducible refine ite_keeps ?_ ?_
    | split

theorem loopParams_keeps {P : State → Prop} (hP : Kept P) {s : State} {j : Nat} (_ : P s) :
    P (State.loopParams s j) := by
  unfold State.loopParams
  repeat' first
    | with_reducible assumption
    | (intro _x)
    | (extract_lets +onlyGivenNames x; refine keep_cut (P := P) (x := x) ?_ ?_; (on_goal 1 => subst x); (on_goal 2 => (intro _h; try clear_value x)))
    | (extract_lets +onlyGivenNames x; refine keep_cut (P := P) (x := x.s) ?_ ?_; (on_goal 1 => subst x); (on_goal 2 => (intro _h; try clear_value x)))
    | (extract_lets +onlyGivenNames x; refine keep_cut (P := P) (x := x.1) ?_ ?_; (on_goal 1 => subst x); (on_goal 2 => (intro _h; try clear_value x)))
    | (extract_lets +onlyGivenNames x; refine keep_cut (P := P) (x := x.2) ?_ ?_; (on_goal 1 => subst x); (on_goal 2 => (intro _h; try clear_value x)))
    | (extract_lets +onlyGivenNames x; try clear_value x)
    | with_reducible apply wrs_keeps hP
    | with_reducible refine ite_keeps ?_ ?_
    | split

theorem refWrite_keeps0 {P : State → Prop} (hP : Kept P) {k : Nat} {key : Nat} {v : Nat} {s : State} (_ : P s) :
    onAns P (refWrite k key v s) := by
  unfold refWrite
  repeat' first
    | with_reducible assumption
    | (intro _x)
    | (extract_lets +onlyGivenNames x; refine keep_cut (P := P) (x := x) ?_ ?_; (on_goal 1 => subst x); (on_goal 2 => (intro _h; try clear_value x)))
    | (extract_lets +onlyGivenNames x; refine keep_cut (P := P) (x := x.s) ?_ ?_; (on_goal 1 => subst x); (on_goal 2 => (intro _h; try clear_value x)))
    | (extract_lets +onlyGivenNames x; refine keep_cut (P := P) (x := x.1) ?_ ?_; (on_goal 1 => subst x); (on_goal 2 => (intro _h; try clear_value x)))
    | (extract_lets +onlyGivenNames x; refine keep_cut (P := P) (x := x.2) ?_ ?_; (on_goal 1 => subst x); (on_goal 2 => (intro _h; try clear_value x)))
    | (extract_lets +onlyGivenNames x; try clear_value x)
    | with_reducible refine ite_ans ?_ ?_
    | with_reducible apply wr_keeps hP
    | with_reducible apply upto_keeps
    | with_reducible apply ansOk_keeps hP
    | with_reducible apply ansOk_keeps0 hP
    | with_reducible apply ansRange_keeps hP
    | with_reducible apply ansRange_keeps0 hP
    | with_reducible apply softCheck_keeps hP
    | with_reducible apply limitCheck_keeps hP
    | with_reducible apply loopParams_keeps hP
    | with_reducible apply onAns_mk
    | with_reducible refine ite_keeps ?_ ?_
    | split

theorem refWrite_keeps {P : State → Prop} (hP : Kept P) {k : Nat} {key : Nat} {v : Nat} {s : State} (h0 : P s) :
    P (refWrite k key v s).s := refWrite_keeps0 hP h0

theorem qualCheck_keeps {P : State → Prop} (hP : Kept P) {s : State} {j : Nat} (_ : P s) :
    P (State.qualCheck s j) := by
  unfold State.qualCheck
  repeat' first
    | with_reducible assumption
    | (intro _x)
    | (extract_lets +onlyGivenNames x; refine keep_cut (P := P) (x := x) ?_ ?_; (on_goal 1 => subst x); (on_goal 2 => (intro _h; try clear_value x)))
    | (extract_lets +onlyGivenNames x; refine keep_cut (P := P) (x := x.s) ?_ ?_; (on_goal 1 => subst x); (on_goal 2 => (intro _h; try clear_value x)))
    | (extract_lets +onlyGivenNames x; refine keep_cut (P := P) (x := x.1) ?_ ?_; (on_goal 1 => subst x); (on_goal 2 => (intro _h; try clear_value x)))
    | (extract_lets +onlyGivenNames x; refine keep_cut (P := P) (x := x.2) ?_ ?_; (on_goal 1 => subst x); (on_goal 2 => (intro _h; try clear_value x)))
    | (extract_lets +onlyGivenNames x; try clear_value x)
    | with_reducible apply setBit_keeps hP
    | with_reducible refine ite_keeps ?_ ?_
    | split

theorem setActive_keeps {P : State → Prop} (hP : Kept P) {s : State} {j : Nat} {k : Nat} (_ : P s) :
    P (State.setActive s j k) := by
  unfold State.setActive
  repeat' first
    | with_reducible assumption
    | (intro _x)
    | (extract_lets +onlyGivenNames x; refine keep_cut (P := P) (x := x) ?_ ?_; (on_goal 1 => subst x); (on_goal 2 => (intro _h; try clear_value x)))
    | (extract_lets +onlyGivenNames x; refine keep_cut (P := P) (x := x.s) ?_ ?_; (on_goal 1 => subst x); (on_goal 2 => (intro _h; try clear_value x)))
    | (extract_lets +onlyGivenNames x; refine keep_cut (P := P) (x := x.1) ?_ ?_; (on_goal 1 => subst x); (on_goal 2 => (intro _h; try clear_value x)))
    | (extract_lets +onlyGivenNames x; refine keep_cut (P := P) (x := x.2) ?_ ?_; (on_goal 1 => subst x); (on_goal 2 => (intro _h; try clear_value x)))
    | (extract_lets +onlyGivenNames x; try clear_value x)
    | with_reducible apply wr_keeps hP
    | with_reducible apply raise_keeps hP
    | with_reducible apply setBit_keeps hP
    | with_reducible apply inc_keeps hP
    | with_reducible refine ite_keeps ?_ ?_
    | split

theorem setNco_keeps {P : State → Prop} (hP : Kept P) {s : State} {j : Nat} {raw : Nat} (_ : P s) :
    P (State.setNco s j raw) := by
  unfold State.setNco
  repeat' first
    | with_reducible assumption
    | (intro _x)
    | (extract_lets +onlyGivenNames x; refine keep_cut (P := P) (x := x) ?_ ?_; (on_goal 1 => subst x); (on_goal 2 => (intro _h; try clear_value x)))
    | (extract_lets +onlyGivenNames x; refine keep_cut (P := P) (x := x.s) ?_ ?_; (on_goal 1 => subst x); (on_goal 2 => (intro _h; try clear_value x)))
    | (extract_lets +onlyGivenNames x; refine keep_cut (P := P) (x := x.1) ?_ ?_; (on_goal 1 => subst x); (on_goal 2 => (intro _h; try clear_value x)))
    | (extract_lets +onlyGivenNames x; refine keep_cut (P := P) (x := x.2) ?_ ?_; (on_goal 1 => subst x); (on_goal 2 => (intro _h; try clear_value x)))
    | (extract_lets +onlyGivenNames x; try clear_value x)
    | with_reducible apply wr_keeps hP
    | with_reducible refine ite_keeps ?_ ?_
    | split
    | with_reducible apply hP.nu

theorem selMove_keeps {P : State → Prop} (hP : Kept P) {s : State} {j : Nat} {new : Nat} (_ : P s) :
    P (State.selMove s j new) := by
  unfold State.selMove
  dsimp only
  repeat' first
    | with_reducible assumption
    | with_reducible apply wr_keeps hP
    | with_reducible apply raise_keeps hP
    | (intro _x)
    | with_reducible refine ite_keeps ?_ ?_
    | split
    | with_reducible apply hP.nu

theorem enterHoldover_keeps {P : State → Prop} (hP : Kept P) {s : State} {j : Nat} (_ : P s) :
    P (State.enterHoldover s j) := by
  unfold State.enterHoldover
  repeat' first
    | with_reducible assumption
    | (intro _x)
    | (extract_lets +onlyGivenNames x; refine keep_cut (P := P) (x := x) ?_ ?_; (on_goal 1 => subst x); (on_goal 2 => (intro _h; try clear_value x)))
    | (extract_lets +onlyGivenNames x; refine keep_cut (P := P) (x := x.s) ?_ ?_; (on_goal 1 => subst x); (on_goal 2 => (intro _h; try clear_value x)))
    | (extract_lets +onlyGivenNames x; refine keep_cut (P := P) (x := x.1) ?_ ?_; (on_goal 1 => subst x); (on_goal 2 => (intro _h; try clear_value x)))
    | (extract_lets +onlyGivenNames x; refine keep_cut (P := P) (x := x.2) ?_ ?_; (on_goal 1 => subst x); (on_goal 2 => (intro _h; try clear_value x)))
    | (extract_lets +onlyGivenNames x; try clear_value x)
    | with_reducible apply wr_keeps hP
    | with_reducible apply setActive_keeps hP
    | with_reducible apply setNco_keeps hP
    | with_reducible apply selMove_keeps hP
    | with_reducible refine ite_keeps ?_ ?_
    | split

theorem take_keeps {P : State → Prop} (hP : Kept P) {s : State} {j : Nat} {k : Nat} {d : Int} (_ : P s) :
    P (State.take s j k d) := by
  unfold State.take
  repeat' first
    | with_reducible assumption
    | (intro _x)
    | (extract_lets +onlyGivenNames x; refine keep_cut (P := P) (x := x) ?_ ?_; (on_goal 1 => subst x); (on_goal 2 => (intro _h; try clear_value x)))
    | (extract_lets +onlyGivenNames x; refine keep_cut (P := P) (x := x.s) ?_ ?_; (on_goal 1 => subst x); (on_goal 2 => (intro _h; try clear_value x)))
    | (extract_lets +onlyGivenNames x; refine keep_cut (P := P) (x := x.1) ?_ ?_; (on_goal 1 => subst x); (on_goal 2 => (intro _h; try clear_value x)))
    | (extract_lets +onlyGivenNames x; refine keep_cut (P := P) (x := x.2) ?_ ?_; (on_goal 1 => subst x); (on_goal 2 => (intro _h; try clear_value x)))
    | (extract_lets +onlyGivenNames x; try clear_value x)
    | with_reducible apply utcFollow_keeps hP
    | with_reducible apply softCheck_keeps hP
    | with_reducible apply phaseStep_keeps hP
    | with_reducible apply selMove_keeps hP
    | with_reducible apply loopParams_keeps hP
    | with_reducible apply setActive_keeps hP
    | with_reducible refine ite_keeps ?_ ?_
    | split

theorem evalAuto_keeps {P : State → Prop} (hP : Kept P) {s : State} {j : Nat} {d : Int} (_ : P s) :
    P (State.evalAuto s j d) := by
  unfold State.evalAuto
  dsimp only
  repeat' first
    | with_reducible assumption
    | with_reducible apply raise_keeps hP
    | with_reducible apply fold_keeps
    | with_reducible apply fold_fst_keeps
    | with_reducible apply enterHoldover_keeps hP
    | with_reducible apply setBit_keeps hP
    | with_reducible apply take_keeps hP
    | (intro _x)
    | with_reducible refine ite_keeps ?_ ?_
    | split

theorem evalSel_keeps {P : State → Prop} (hP : Kept P) {s : State} {j : Nat} {d : Int} (_ : P s) :
    P (State.evalSel s j d) := by
  unfold State.evalSel
  repeat' first
    | with_reducible assumption
    | (intro _x)
    | (extract_lets +onlyGivenNames x; refine keep_cut (P := P) (x := x) ?_ ?_; (on_goal 1 => subst x); (on_goal 2 => (intro _h; try clear_value x)))
    | (extract_lets +onlyGivenNames x; refine keep_cut (P := P) (x := x.s) ?_ ?_; (on_goal 1 => subst x); (on_goal 2 => (intro _h; try clear_value x)))
    | (extract_lets +onlyGivenNames x; refine keep_cut (P := P) (x := x.1) ?_ ?_; (on_goal 1 => subst x); (on_goal 2 => (intro _h; try clear_value x)))
    | (extract_lets +onlyGivenNames x; refine keep_cut (P := P) (x := x.2) ?_ ?_; (on_goal 1 => subst x); (on_goal 2 => (intro _h; try clear_value x)))
    | (extract_lets +onlyGivenNames x; try clear_value x)
    | with_reducible apply qualCheck_keeps hP
    | with_reducible apply evalAuto_keeps hP
    | with_reducible apply take_keeps hP
    | with_reducible apply enterHoldover_keeps hP
    | with_reducible refine ite_keeps ?_ ?_
    | split

theorem selModeWrite_keeps0 {P : State → Prop} (hP : Kept P) {j : Nat} {v : Nat} {d : Int} {s : State} (_ : P s) :
    onAns P (selModeWrite j v d s) := by
  unfold selModeWrite
  repeat' first
    | with_reducible assumption
    | (intro _x)
    | (extract_lets +onlyGivenNames x; refine keep_cut (P := P) (x := x) ?_ ?_; (on_goal 1 => subst x); (on_goal 2 => (intro _h; try clear_value x)))
    | (extract_lets +onlyGivenNames x; refine keep_cut (P := P) (x := x.s) ?_ ?_; (on_goal 1 => subst x); (on_goal 2 => (intro _h; try clear_value x)))
    | (extract_lets +onlyGivenNames x; refine keep_cut (P := P) (x := x.1) ?_ ?_; (on_goal 1 => subst x); (on_goal 2 => (intro _h; try clear_value x)))
    | (extract_lets +onlyGivenNames x; refine keep_cut (P := P) (x := x.2) ?_ ?_; (on_goal 1 => subst x); (on_goal 2 => (intro _h; try clear_value x)))
    | (extract_lets +onlyGivenNames x; try clear_value x)
    | with_reducible refine ite_ans ?_ ?_
    | with_reducible apply wr_keeps hP
    | with_reducible apply qualCheck_keeps hP
    | with_reducible apply ansOk_keeps hP
    | with_reducible apply ansOk_keeps0 hP
    | with_reducible apply enterHoldover_keeps hP
    | with_reducible apply selMove_keeps hP
    | with_reducible apply setNco_keeps hP
    | with_reducible apply setActive_keeps hP
    | with_reducible apply evalSel_keeps hP
    | with_reducible apply onAns_mk
    | with_reducible refine ite_keeps ?_ ?_
    | split

theorem selModeWrite_keeps {P : State → Prop} (hP : Kept P) {j : Nat} {v : Nat} {d : Int} {s : State} (h0 : P s) :
    P (selModeWrite j v d s).s := selModeWrite_keeps0 hP h0

theorem ncoWrite_keeps0 {P : State → Prop} (hP : Kept P) {j : Nat} {v : Nat} {s : State} (_ : P s) :
    onAns P (ncoWrite j v s) := by
  unfold ncoWrite
  repeat' first
    | with_reducible assumption
    | (intro _x)
    | (extract_lets +onlyGivenNames x; refine keep_cut (P := P) (x := x) ?_ ?_; (on_goal 1 => subst x); (on_goal 2 => (intro _h; try clear_value x)))
    | (extract_lets +onlyGivenNames x; refine keep_cut (P := P) (x := x.s) ?_ ?_; (on_goal 1 => subst x); (on_goal 2 => (intro _h; try clear_value x)))
    | (extract_lets +onlyGivenNames x; refine keep_cut (P := P) (x := x.1) ?_ ?_; (on_goal 1 => subst x); (on_goal 2 => (intro _h; try clear_value x)))
    | (extract_lets +onlyGivenNames x; refine keep_cut (P := P) (x := x.2) ?_ ?_; (on_goal 1 => subst x); (on_goal 2 => (intro _h; try clear_value x)))
    | (extract_lets +onlyGivenNames x; try clear_value x)
    | with_reducible refine ite_ans ?_ ?_
    | with_reducible apply ansOk_keeps hP
    | with_reducible apply ansOk_keeps0 hP
    | with_reducible apply setNco_keeps hP
    | with_reducible apply ansBusy_keeps hP
    | with_reducible apply ansBusy_keeps0 hP
    | with_reducible apply onAns_mk
    | with_reducible refine ite_keeps ?_ ?_
    | split

theorem ncoWrite_keeps {P : State → Prop} (hP : Kept P) {j : Nat} {v : Nat} {s : State} (h0 : P s) :
    P (ncoWrite j v s).s := ncoWrite_keeps0 hP h0

theorem relockWrite_keeps0 {P : State → Prop} (hP : Kept P) {g : Nat} {v : Nat} {s : State} (_ : P s) :
    onAns P (relockWrite g v s) := by
  unfold relockWrite
  repeat' first
    | with_reducible assumption
    | (intro _x)
    | (extract_lets +onlyGivenNames x; refine keep_cut (P := P) (x := x) ?_ ?_; (on_goal 1 => subst x); (on_goal 2 => (intro _h; try clear_value x)))
    | (extract_lets +onlyGivenNames x; refine keep_cut (P := P) (x := x.s) ?_ ?_; (on_goal 1 => subst x); (on_goal 2 => (intro _h; try clear_value x)))
    | (extract_lets +onlyGivenNames x; refine keep_cut (P := P) (x := x.1) ?_ ?_; (on_goal 1 => subst x); (on_goal 2 => (intro _h; try clear_value x)))
    | (extract_lets +onlyGivenNames x; refine keep_cut (P := P) (x := x.2) ?_ ?_; (on_goal 1 => subst x); (on_goal 2 => (intro _h; try clear_value x)))
    | (extract_lets +onlyGivenNames x; try clear_value x)
    | with_reducible refine ite_ans ?_ ?_
    | with_reducible apply wr_keeps hP
    | with_reducible apply wrs_keeps hP
    | with_reducible apply ansBusy_keeps hP
    | with_reducible apply ansBusy_keeps0 hP
    | with_reducible apply ansOk_keeps hP
    | with_reducible apply ansOk_keeps0 hP
    | with_reducible apply wr64_keeps hP
    | with_reducible apply gProfile_keeps hP
    | with_reducible apply onAns_mk
    | with_reducible refine ite_keeps ?_ ?_
    | split

theorem relockWrite_keeps {P : State → Prop} (hP : Kept P) {g : Nat} {v : Nat} {s : State} (h0 : P s) :
    P (relockWrite g v s).s := relockWrite_keeps0 hP h0

theorem rampDone_keeps {P : State → Prop} (hP : Kept P) {s : State} {g : Nat} (_ : P s) :
    P (State.rampDone s g) := by
  unfold State.rampDone
  repeat' first
    | with_reducible assumption
    | (intro _x)
    | (extract_lets +onlyGivenNames x; refine keep_cut (P := P) (x := x) ?_ ?_; (on_goal 1 => subst x); (on_goal 2 => (intro _h; try clear_value x)))
    | (extract_lets +onlyGivenNames x; refine keep_cut (P := P) (x := x.s) ?_ ?_; (on_goal 1 => subst x); (on_goal 2 => (intro _h; try clear_value x)))
    | (extract_lets +onlyGivenNames x; refine keep_cut (P := P) (x := x.1) ?_ ?_; (on_goal 1 => subst x); (on_goal 2 => (intro _h; try clear_value x)))
    | (extract_lets +onlyGivenNames x; refine keep_cut (P := P) (x := x.2) ?_ ?_; (on_goal 1 => subst x); (on_goal 2 => (intro _h; try clear_value x)))
    | (extract_lets +onlyGivenNames x; try clear_value x)
    | with_reducible apply wr_keeps hP
    | with_reducible apply raise_keeps hP
    | with_reducible apply wrs_keeps hP
    | with_reducible apply slewBy_keeps hP
    | with_reducible refine ite_keeps ?_ ?_
    | split

theorem rampGo_keeps {P : State → Prop} (hP : Kept P) {s : State} {g : Nat} {i : Nat} (_ : P s) :
    P (State.rampGo s g i) := by
  unfold State.rampGo
  repeat' first
    | with_reducible assumption
    | (intro _x)
    | (extract_lets +onlyGivenNames x; refine keep_cut (P := P) (x := x) ?_ ?_; (on_goal 1 => subst x); (on_goal 2 => (intro _h; try clear_value x)))
    | (extract_lets +onlyGivenNames x; refine keep_cut (P := P) (x := x.s) ?_ ?_; (on_goal 1 => subst x); (on_goal 2 => (intro _h; try clear_value x)))
    | (extract_lets +onlyGivenNames x; refine keep_cut (P := P) (x := x.1) ?_ ?_; (on_goal 1 => subst x); (on_goal 2 => (intro _h; try clear_value x)))
    | (extract_lets +onlyGivenNames x; refine keep_cut (P := P) (x := x.2) ?_ ?_; (on_goal 1 => subst x); (on_goal 2 => (intro _h; try clear_value x)))
    | (extract_lets +onlyGivenNames x; try clear_value x)
    | with_reducible apply wrs_keeps hP
    | with_reducible apply gProfile_keeps hP
    | with_reducible apply rampDone_keeps hP
    | with_reducible refine ite_keeps ?_ ?_
    | split

theorem realign_keeps {P : State → Prop} (hP : Kept P) {s : State} {g : Nat} (_ : P s) :
    P (State.realign s g) := by
  unfold State.realign
  repeat' first
    | with_reducible assumption
    | (intro _x)
    | (extract_lets +onlyGivenNames x; refine keep_cut (P := P) (x := x) ?_ ?_; (on_goal 1 => subst x); (on_goal 2 => (intro _h; try clear_value x)))
    | (extract_lets +onlyGivenNames x; refine keep_cut (P := P) (x := x.s) ?_ ?_; (on_goal 1 => subst x); (on_goal 2 => (intro _h; try clear_value x)))
    | (extract_lets +onlyGivenNames x; refine keep_cut (P := P) (x := x.1) ?_ ?_; (on_goal 1 => subst x); (on_goal 2 => (intro _h; try clear_value x)))
    | (extract_lets +onlyGivenNames x; refine keep_cut (P := P) (x := x.2) ?_ ?_; (on_goal 1 => subst x); (on_goal 2 => (intro _h; try clear_value x)))
    | (extract_lets +onlyGivenNames x; try clear_value x)
    | with_reducible apply wr_keeps hP
    | with_reducible apply gProfile_keeps hP
    | with_reducible apply wr64_keeps hP
    | with_reducible apply slewTo_keeps hP
    | with_reducible refine ite_keeps ?_ ?_
    | split

theorem rampWrite_keeps0 {P : State → Prop} (hP : Kept P) {g : Nat} {v : Nat} {s : State} (_ : P s) :
    onAns P (rampWrite g v s) := by
  unfold rampWrite
  repeat' first
    | with_reducible assumption
    | (intro _x)
    | (extract_lets +onlyGivenNames x; refine keep_cut (P := P) (x := x) ?_ ?_; (on_goal 1 => subst x); (on_goal 2 => (intro _h; try clear_value x)))
    | (extract_lets +onlyGivenNames x; refine keep_cut (P := P) (x := x.s) ?_ ?_; (on_goal 1 => subst x); (on_goal 2 => (intro _h; try clear_value x)))
    | (extract_lets +onlyGivenNames x; refine keep_cut (P := P) (x := x.1) ?_ ?_; (on_goal 1 => subst x); (on_goal 2 => (intro _h; try clear_value x)))
    | (extract_lets +onlyGivenNames x; refine keep_cut (P := P) (x := x.2) ?_ ?_; (on_goal 1 => subst x); (on_goal 2 => (intro _h; try clear_value x)))
    | (extract_lets +onlyGivenNames x; try clear_value x)
    | with_reducible refine ite_ans ?_ ?_
    | with_reducible apply wr_keeps hP
    | with_reducible apply wrs_keeps hP
    | with_reducible apply ansBusy_keeps hP
    | with_reducible apply ansBusy_keeps0 hP
    | with_reducible apply ansOk_keeps hP
    | with_reducible apply ansOk_keeps0 hP
    | with_reducible apply rampGo_keeps hP
    | with_reducible apply gProfile_keeps hP
    | with_reducible apply realign_keeps hP
    | with_reducible apply onAns_mk
    | with_reducible refine ite_keeps ?_ ?_
    | split

theorem rampWrite_keeps {P : State → Prop} (hP : Kept P) {g : Nat} {v : Nat} {s : State} (h0 : P s) :
    P (rampWrite g v s).s := rampWrite_keeps0 hP h0

theorem gsynWrite_keeps0 {P : State → Prop} (hP : Kept P) {g : Nat} {key : Nat} {v : Nat} {d : Int} {s : State} (_ : P s) :
    onAns P (gsynWrite g key v d s) := by
  unfold gsynWrite
  repeat' first
    | with_reducible assumption
    | (intro _x)
    | (extract_lets +onlyGivenNames x; refine keep_cut (P := P) (x := x) ?_ ?_; (on_goal 1 => subst x); (on_goal 2 => (intro _h; try clear_value x)))
    | (extract_lets +onlyGivenNames x; refine keep_cut (P := P) (x := x.s) ?_ ?_; (on_goal 1 => subst x); (on_goal 2 => (intro _h; try clear_value x)))
    | (extract_lets +onlyGivenNames x; refine keep_cut (P := P) (x := x.1) ?_ ?_; (on_goal 1 => subst x); (on_goal 2 => (intro _h; try clear_value x)))
    | (extract_lets +onlyGivenNames x; refine keep_cut (P := P) (x := x.2) ?_ ?_; (on_goal 1 => subst x); (on_goal 2 => (intro _h; try clear_value x)))
    | (extract_lets +onlyGivenNames x; try clear_value x)
    | with_reducible refine ite_ans ?_ ?_
    | with_reducible apply wr_keeps hP
    | with_reducible apply ansBusy_keeps hP
    | with_reducible apply ansBusy_keeps0 hP
    | with_reducible apply ansOk_keeps hP
    | with_reducible apply ansOk_keeps0 hP
    | with_reducible apply famStep_keeps hP
    | with_reducible apply onAns_mk
    | with_reducible refine ite_keeps ?_ ?_
    | split

theorem gsynWrite_keeps {P : State → Prop} (hP : Kept P) {g : Nat} {key : Nat} {v : Nat} {d : Int} {s : State} (h0 : P s) :
    P (gsynWrite g key v d s).s := gsynWrite_keeps0 hP h0

theorem lossRestart_keeps {P : State → Prop} (hP : Kept P) {s : State} {k : Nat} (_ : P s) :
    P (State.lossRestart s k) := by
  unfold State.lossRestart
  repeat' first
    | with_reducible assumption
    | (intro _x)
    | (extract_lets +onlyGivenNames x; refine keep_cut (P := P) (x := x) ?_ ?_; (on_goal 1 => subst x); (on_goal 2 => (intro _h; try clear_value x)))
    | (extract_lets +onlyGivenNames x; refine keep_cut (P := P) (x := x.s) ?_ ?_; (on_goal 1 => subst x); (on_goal 2 => (intro _h; try clear_value x)))
    | (extract_lets +onlyGivenNames x; refine keep_cut (P := P) (x := x.1) ?_ ?_; (on_goal 1 => subst x); (on_goal 2 => (intro _h; try clear_value x)))
    | (extract_lets +onlyGivenNames x; refine keep_cut (P := P) (x := x.2) ?_ ?_; (on_goal 1 => subst x); (on_goal 2 => (intro _h; try clear_value x)))
    | (extract_lets +onlyGivenNames x; try clear_value x)
    | with_reducible apply wr_keeps hP
    | with_reducible refine ite_keeps ?_ ?_
    | split

theorem refFound_keeps {P : State → Prop} (hP : Kept P) {s : State} {k : Nat} (_ : P s) :
    P (State.refFound s k) := by
  unfold State.refFound
  repeat' first
    | with_reducible assumption
    | (intro _x)
    | (extract_lets +onlyGivenNames x; refine keep_cut (P := P) (x := x) ?_ ?_; (on_goal 1 => subst x); (on_goal 2 => (intro _h; try clear_value x)))
    | (extract_lets +onlyGivenNames x; refine keep_cut (P := P) (x := x.s) ?_ ?_; (on_goal 1 => subst x); (on_goal 2 => (intro _h; try clear_value x)))
    | (extract_lets +onlyGivenNames x; refine keep_cut (P := P) (x := x.1) ?_ ?_; (on_goal 1 => subst x); (on_goal 2 => (intro _h; try clear_value x)))
    | (extract_lets +onlyGivenNames x; refine keep_cut (P := P) (x := x.2) ?_ ?_; (on_goal 1 => subst x); (on_goal 2 => (intro _h; try clear_value x)))
    | (extract_lets +onlyGivenNames x; try clear_value x)
    | with_reducible apply wr_keeps hP
    | with_reducible apply setVec_keeps hP
    | with_reducible apply lossRestart_keeps hP
    | with_reducible apply refMove_keeps hP
    | with_reducible apply wtrStart_keeps hP
    | with_reducible refine ite_keeps ?_ ?_
    | split

theorem phaseSample_keeps {P : State → Prop} (hP : Kept P) {s : State} {j : Nat} {e : Int} (_ : P s) :
    P (State.phaseSample s j e) := by
  unfold State.phaseSample
  repeat' first
    | with_reducible assumption
    | (intro _x)
    | (extract_lets +onlyGivenNames x; refine keep_cut (P := P) (x := x) ?_ ?_; (on_goal 1 => subst x); (on_goal 2 => (intro _h; try clear_value x)))
    | (extract_lets +onlyGivenNames x; refine keep_cut (P := P) (x := x.s) ?_ ?_; (on_goal 1 => subst x); (on_goal 2 => (intro _h; try clear_value x)))
    | (extract_lets +onlyGivenNames x; refine keep_cut (P := P) (x := x.1) ?_ ?_; (on_goal 1 => subst x); (on_goal 2 => (intro _h; try clear_value x)))
    | (extract_lets +onlyGivenNames x; refine keep_cut (P := P) (x := x.2) ?_ ?_; (on_goal 1 => subst x); (on_goal 2 => (intro _h; try clear_value x)))
    | (extract_lets +onlyGivenNames x; try clear_value x)
    | with_reducible apply wr_keeps hP
    | with_reducible apply wrI_keeps hP
    | with_reducible apply selMove_keeps hP
    | with_reducible apply setNco_keeps hP
    | with_reducible refine ite_keeps ?_ ?_
    | split

theorem execPtpSync_keeps {P : State → Prop} (hP : Kept P) {p : Fin 2} {off : Int} {delay : Int} {log : Int} {s : State} (_ : P s) :
    onOut P (execPtpSync p off delay log s) := by
  unfold execPtpSync
  repeat' first
    | with_reducible assumption
    | (intro _x)
    | (extract_lets +onlyGivenNames x; refine keep_cut (P := P) (x := x) ?_ ?_; (on_goal 1 => subst x); (on_goal 2 => (intro _h; try clear_value x)))
    | (extract_lets +onlyGivenNames x; refine keep_cut (P := P) (x := x.s) ?_ ?_; (on_goal 1 => subst x); (on_goal 2 => (intro _h; try clear_value x)))
    | (extract_lets +onlyGivenNames x; refine keep_cut (P := P) (x := x.1) ?_ ?_; (on_goal 1 => subst x); (on_goal 2 => (intro _h; try clear_value x)))
    | (extract_lets +onlyGivenNames x; refine keep_cut (P := P) (x := x.2) ?_ ?_; (on_goal 1 => subst x); (on_goal 2 => (intro _h; try clear_value x)))
    | (extract_lets +onlyGivenNames x; try clear_value x)
    | with_reducible refine ite_out ?_ ?_
    | with_reducible apply wrs_keeps hP
    | with_reducible apply upto_keeps
    | with_reducible apply wrI_keeps hP
    | with_reducible apply ptpMove_keeps hP
    | with_reducible apply lossRestart_keeps hP
    | with_reducible apply refFound_keeps hP
    | with_reducible apply refLose_keeps hP
    | with_reducible apply phaseSample_keeps hP
    | with_reducible apply loopParams_keeps hP
    | with_reducible apply onOut_next
    | with_reducible refine ite_keeps ?_ ?_
    | split

theorem timerDone_keeps {P : State → Prop} (hP : Kept P) {s : State} {k : Nat} {st : Nat} (_ : P s) :
    P (State.timerDone s k st) := by
  unfold State.timerDone
  repeat' first
    | with_reducible assumption
    | (intro _x)
    | (extract_lets +onlyGivenNames x; refine keep_cut (P := P) (x := x) ?_ ?_; (on_goal 1 => subst x); (on_goal 2 => (intro _h; try clear_value x)))
    | (extract_lets +onlyGivenNames x; refine keep_cut (P := P) (x := x.s) ?_ ?_; (on_goal 1 => subst x); (on_goal 2 => (intro _h; try clear_value x)))
    | (extract_lets +onlyGivenNames x; refine keep_cut (P := P) (x := x.1) ?_ ?_; (on_goal 1 => subst x); (on_goal 2 => (intro _h; try clear_value x)))
    | (extract_lets +onlyGivenNames x; refine keep_cut (P := P) (x := x.2) ?_ ?_; (on_goal 1 => subst x); (on_goal 2 => (intro _h; try clear_value x)))
    | (extract_lets +onlyGivenNames x; try clear_value x)
    | with_reducible apply refMove_keeps hP
    | with_reducible refine ite_keeps ?_ ?_
    | split

theorem execLockHoldExpiry_keeps {P : State → Prop} (hP : Kept P) {j : Fin 2} {s : State} (_ : P s) :
    onOut P (execLockHoldExpiry j s) := by
  unfold execLockHoldExpiry
  repeat' first
    | with_reducible assumption
    | (intro _x)
    | (extract_lets +onlyGivenNames x; refine keep_cut (P := P) (x := x) ?_ ?_; (on_goal 1 => subst x); (on_goal 2 => (intro _h; try clear_value x)))
    | (extract_lets +onlyGivenNames x; refine keep_cut (P := P) (x := x.s) ?_ ?_; (on_goal 1 => subst x); (on_goal 2 => (intro _h; try clear_value x)))
    | (extract_lets +onlyGivenNames x; refine keep_cut (P := P) (x := x.1) ?_ ?_; (on_goal 1 => subst x); (on_goal 2 => (intro _h; try clear_value x)))
    | (extract_lets +onlyGivenNames x; refine keep_cut (P := P) (x := x.2) ?_ ?_; (on_goal 1 => subst x); (on_goal 2 => (intro _h; try clear_value x)))
    | (extract_lets +onlyGivenNames x; try clear_value x)
    | with_reducible refine ite_out ?_ ?_
    | with_reducible apply selMove_keeps hP
    | with_reducible apply onOut_next
    | with_reducible refine ite_keeps ?_ ?_
    | split

theorem leapStep_keeps {P : State → Prop} (hP : Kept P) {s : State} (_ : P s) :
    P (State.leapStep s) := by
  unfold State.leapStep
  repeat' first
    | with_reducible assumption
    | (intro _x)
    | (extract_lets +onlyGivenNames x; refine keep_cut (P := P) (x := x) ?_ ?_; (on_goal 1 => subst x); (on_goal 2 => (intro _h; try clear_value x)))
    | (extract_lets +onlyGivenNames x; refine keep_cut (P := P) (x := x.s) ?_ ?_; (on_goal 1 => subst x); (on_goal 2 => (intro _h; try clear_value x)))
    | (extract_lets +onlyGivenNames x; refine keep_cut (P := P) (x := x.1) ?_ ?_; (on_goal 1 => subst x); (on_goal 2 => (intro _h; try clear_value x)))
    | (extract_lets +onlyGivenNames x; refine keep_cut (P := P) (x := x.2) ?_ ?_; (on_goal 1 => subst x); (on_goal 2 => (intro _h; try clear_value x)))
    | (extract_lets +onlyGivenNames x; try clear_value x)
    | with_reducible apply wr_keeps hP
    | with_reducible apply utcFollow_keeps hP
    | with_reducible refine ite_keeps ?_ ?_
    | split

theorem tsTick_keeps {P : State → Prop} (hP : Kept P) {s : State} {j : Nat} (_ : P s) :
    P (State.tsTick s j) := by
  unfold State.tsTick
  repeat' first
    | with_reducible assumption
    | (intro _x)
    | (extract_lets +onlyGivenNames x; refine keep_cut (P := P) (x := x) ?_ ?_; (on_goal 1 => subst x); (on_goal 2 => (intro _h; try clear_value x)))
    | (extract_lets +onlyGivenNames x; refine keep_cut (P := P) (x := x.s) ?_ ?_; (on_goal 1 => subst x); (on_goal 2 => (intro _h; try clear_value x)))
    | (extract_lets +onlyGivenNames x; refine keep_cut (P := P) (x := x.1) ?_ ?_; (on_goal 1 => subst x); (on_goal 2 => (intro _h; try clear_value x)))
    | (extract_lets +onlyGivenNames x; refine keep_cut (P := P) (x := x.2) ?_ ?_; (on_goal 1 => subst x); (on_goal 2 => (intro _h; try clear_value x)))
    | (extract_lets +onlyGivenNames x; try clear_value x)
    | with_reducible apply wr_keeps hP
    | with_reducible refine ite_keeps ?_ ?_
    | split

theorem execSlewDone_keeps {P : State → Prop} (hP : Kept P) {g : Fin 8} {s : State} (_ : P s) :
    onOut P (execSlewDone g s) := by
  unfold execSlewDone
  repeat' first
    | with_reducible assumption
    | (intro _x)
    | (extract_lets +onlyGivenNames x; refine keep_cut (P := P) (x := x) ?_ ?_; (on_goal 1 => subst x); (on_goal 2 => (intro _h; try clear_value x)))
    | (extract_lets +onlyGivenNames x; refine keep_cut (P := P) (x := x.s) ?_ ?_; (on_goal 1 => subst x); (on_goal 2 => (intro _h; try clear_value x)))
    | (extract_lets +onlyGivenNames x; refine keep_cut (P := P) (x := x.1) ?_ ?_; (on_goal 1 => subst x); (on_goal 2 => (intro _h; try clear_value x)))
    | (extract_lets +onlyGivenNames x; refine keep_cut (P := P) (x := x.2) ?_ ?_; (on_goal 1 => subst x); (on_goal 2 => (intro _h; try clear_value x)))
    | (extract_lets +onlyGivenNames x; try clear_value x)
    | with_reducible refine ite_out ?_ ?_
    | with_reducible apply wr_keeps hP
    | with_reducible apply raise_keeps hP
    | with_reducible apply wrs_keeps hP
    | with_reducible apply wr64_keeps hP
    | with_reducible apply wrI_keeps hP
    | with_reducible apply gProfile_keeps hP
    | with_reducible apply slewBy_keeps hP
    | with_reducible apply onOut_next
    | with_reducible refine ite_keeps ?_ ?_
    | split

theorem execDivsyncEdge_keeps {P : State → Prop} (hP : Kept P) {moves : List Int} {s : State} (_ : P s) :
    onOut P (execDivsyncEdge moves s) := by
  unfold execDivsyncEdge
  repeat' first
    | with_reducible assumption
    | (intro _x)
    | (extract_lets +onlyGivenNames x; refine keep_cut (P := P) (x := x) ?_ ?_; (on_goal 1 => subst x); (on_goal 2 => (intro _h; try clear_value x)))
    | (extract_lets +onlyGivenNames x; refine keep_cut (P := P) (x := x.s) ?_ ?_; (on_goal 1 => subst x); (on_goal 2 => (intro _h; try clear_value x)))
    | (extract_lets +onlyGivenNames x; refine keep_cut (P := P) (x := x.1) ?_ ?_; (on_goal 1 => subst x); (on_goal 2 => (intro _h; try clear_value x)))
    | (extract_lets +onlyGivenNames x; refine keep_cut (P := P) (x := x.2) ?_ ?_; (on_goal 1 => subst x); (on_goal 2 => (intro _h; try clear_value x)))
    | (extract_lets +onlyGivenNames x; try clear_value x)
    | with_reducible refine ite_out ?_ ?_
    | with_reducible apply wr_keeps hP
    | with_reducible apply raise_keeps hP
    | with_reducible apply upto_keeps
    | with_reducible apply fold_keeps
    | with_reducible apply fold_fst_keeps
    | with_reducible apply famStep_keeps hP
    | with_reducible apply onOut_next
    | with_reducible refine ite_keeps ?_ ?_
    | split

theorem pllLol_keeps {P : State → Prop} (hP : Kept P) {x : Nat} {word : Nat} {s : State} (_ : P s) :
    onOut P (pllLol x word s) := by
  unfold pllLol
  repeat' first
    | with_reducible assumption
    | (intro _x)
    | (extract_lets +onlyGivenNames x; refine keep_cut (P := P) (x := x) ?_ ?_; (on_goal 1 => subst x); (on_goal 2 => (intro _h; try clear_value x)))
    | (extract_lets +onlyGivenNames x; refine keep_cut (P := P) (x := x.s) ?_ ?_; (on_goal 1 => subst x); (on_goal 2 => (intro _h; try clear_value x)))
    | (extract_lets +onlyGivenNames x; refine keep_cut (P := P) (x := x.1) ?_ ?_; (on_goal 1 => subst x); (on_goal 2 => (intro _h; try clear_value x)))
    | (extract_lets +onlyGivenNames x; refine keep_cut (P := P) (x := x.2) ?_ ?_; (on_goal 1 => subst x); (on_goal 2 => (intro _h; try clear_value x)))
    | (extract_lets +onlyGivenNames x; try clear_value x)
    | with_reducible refine ite_out ?_ ?_
    | with_reducible apply wr_keeps hP
    | with_reducible apply pllFreeze_keeps hP
    | with_reducible apply setBit_keeps hP
    | with_reducible apply onOut_next
    | with_reducible refine ite_keeps ?_ ?_
    | split

theorem clkSync_keeps {P : State → Prop} (hP : Kept P) {s : State} {c : Nat} (_ : P s) :
    P (State.clkSync s c) := by
  unfold State.clkSync
  repeat' first
    | with_reducible assumption
    | (intro _x)
    | (extract_lets +onlyGivenNames x; refine keep_cut (P := P) (x := x) ?_ ?_; (on_goal 1 => subst x); (on_goal 2 => (intro _h; try clear_value x)))
    | (extract_lets +onlyGivenNames x; refine keep_cut (P := P) (x := x.s) ?_ ?_; (on_goal 1 => subst x); (on_goal 2 => (intro _h; try clear_value x)))
    | (extract_lets +onlyGivenNames x; refine keep_cut (P := P) (x := x.1) ?_ ?_; (on_goal 1 => subst x); (on_goal 2 => (intro _h; try clear_value x)))
    | (extract_lets +onlyGivenNames x; refine keep_cut (P := P) (x := x.2) ?_ ?_; (on_goal 1 => subst x); (on_goal 2 => (intro _h; try clear_value x)))
    | (extract_lets +onlyGivenNames x; try clear_value x)
    | with_reducible apply setVec_keeps hP
    | with_reducible refine ite_keeps ?_ ?_
    | split

theorem measure_keeps {P : State → Prop} (hP : Kept P) {s : State} {k : Nat} {off : Int} (_ : P s) :
    P (State.measure s k off) := by
  unfold State.measure
  repeat' first
    | with_reducible assumption
    | (intro _x)
    | (extract_lets +onlyGivenNames x; refine keep_cut (P := P) (x := x) ?_ ?_; (on_goal 1 => subst x); (on_goal 2 => (intro _h; try clear_value x)))
    | (extract_lets +onlyGivenNames x; refine keep_cut (P := P) (x := x.s) ?_ ?_; (on_goal 1 => subst x); (on_goal 2 => (intro _h; try clear_value x)))
    | (extract_lets +onlyGivenNames x; refine keep_cut (P := P) (x := x.1) ?_ ?_; (on_goal 1 => subst x); (on_goal 2 => (intro _h; try clear_value x)))
    | (extract_lets +onlyGivenNames x; refine keep_cut (P := P) (x := x.2) ?_ ?_; (on_goal 1 => subst x); (on_goal 2 => (intro _h; try clear_value x)))
    | (extract_lets +onlyGivenNames x; try clear_value x)
    | with_reducible apply wr_keeps hP
    | with_reducible apply setVec_keeps hP
    | with_reducible apply wrI_keeps hP
    | with_reducible apply limitCheck_keeps hP
    | with_reducible refine ite_keeps ?_ ?_
    | split

theorem execSelectorEvaluation_keeps {P : State → Prop} (hP : Kept P) {j : Fin 2} {d : Int} {s : State} (_ : P s) :
    onOut P (execSelectorEvaluation j d s) := by
  unfold execSelectorEvaluation
  repeat' first
    | with_reducible assumption
    | (intro _x)
    | (extract_lets +onlyGivenNames x; refine keep_cut (P := P) (x := x) ?_ ?_; (on_goal 1 => subst x); (on_goal 2 => (intro _h; try clear_value x)))
    | (extract_lets +onlyGivenNames x; refine keep_cut (P := P) (x := x.s) ?_ ?_; (on_goal 1 => subst x); (on_goal 2 => (intro _h; try clear_value x)))
    | (extract_lets +onlyGivenNames x; refine keep_cut (P := P) (x := x.1) ?_ ?_; (on_goal 1 => subst x); (on_goal 2 => (intro _h; try clear_value x)))
    | (extract_lets +onlyGivenNames x; refine keep_cut (P := P) (x := x.2) ?_ ?_; (on_goal 1 => subst x); (on_goal 2 => (intro _h; try clear_value x)))
    | (extract_lets +onlyGivenNames x; try clear_value x)
    | with_reducible refine ite_out ?_ ?_
    | with_reducible apply evalSel_keeps hP
    | with_reducible apply onOut_next
    | with_reducible refine ite_keeps ?_ ?_
    | split

theorem execPpsOutWidthEnd_keeps {P : State → Prop} (hP : Kept P) {s : State} (_ : P s) :
    onOut P (execPpsOutWidthEnd s) := by
  unfold execPpsOutWidthEnd
  repeat' first
    | with_reducible assumption
    | (intro _x)
    | (extract_lets +onlyGivenNames x; refine keep_cut (P := P) (x := x) ?_ ?_; (on_goal 1 => subst x); (on_goal 2 => (intro _h; try clear_value x)))
    | (extract_lets +onlyGivenNames x; refine keep_cut (P := P) (x := x.s) ?_ ?_; (on_goal 1 => subst x); (on_goal 2 => (intro _h; try clear_value x)))
    | (extract_lets +onlyGivenNames x; refine keep_cut (P := P) (x := x.1) ?_ ?_; (on_goal 1 => subst x); (on_goal 2 => (intro _h; try clear_value x)))
    | (extract_lets +onlyGivenNames x; refine keep_cut (P := P) (x := x.2) ?_ ?_; (on_goal 1 => subst x); (on_goal 2 => (intro _h; try clear_value x)))
    | (extract_lets +onlyGivenNames x; try clear_value x)
    | with_reducible refine ite_out ?_ ?_
    | with_reducible apply wr_keeps hP
    | with_reducible apply onOut_next
    | with_reducible refine ite_keeps ?_ ?_
    | split

theorem tstates_keeps {P : State → Prop} (hP : Kept P) {s : State} {g : Nat} {v : Nat} (_ : P s) :
    P (State.tstates s g v) := by
  unfold State.tstates
  repeat' first
    | with_reducible assumption
    | (intro _x)
    | (extract_lets +onlyGivenNames x; refine keep_cut (P := P) (x := x) ?_ ?_; (on_goal 1 => subst x); (on_goal 2 => (intro _h; try clear_value x)))
    | (extract_lets +onlyGivenNames x; refine keep_cut (P := P) (x := x.s) ?_ ?_; (on_goal 1 => subst x); (on_goal 2 => (intro _h; try clear_value x)))
    | (extract_lets +onlyGivenNames x; refine keep_cut (P := P) (x := x.1) ?_ ?_; (on_goal 1 => subst x); (on_goal 2 => (intro _h; try clear_value x)))
    | (extract_lets +onlyGivenNames x; refine keep_cut (P := P) (x := x.2) ?_ ?_; (on_goal 1 => subst x); (on_goal 2 => (intro _h; try clear_value x)))
    | (extract_lets +onlyGivenNames x; try clear_value x)
    | with_reducible apply wr_keeps hP
    | with_reducible apply upto_keeps
    | with_reducible refine ite_keeps ?_ ?_
    | split

theorem gsynLock_keeps {P : State → Prop} (hP : Kept P) {s : State} {g : Nat} {gain : Int} (_ : P s) :
    P (State.gsynLock s g gain) := by
  unfold State.gsynLock
  repeat' first
    | with_reducible assumption
    | (intro _x)
    | (extract_lets +onlyGivenNames x; refine keep_cut (P := P) (x := x) ?_ ?_; (on_goal 1 => subst x); (on_goal 2 => (intro _h; try clear_value x)))
    | (extract_lets +onlyGivenNames x; refine keep_cut (P := P) (x := x.s) ?_ ?_; (on_goal 1 => subst x); (on_goal 2 => (intro _h; try clear_value x)))
    | (extract_lets +onlyGivenNames x; refine keep_cut (P := P) (x := x.1) ?_ ?_; (on_goal 1 => subst x); (on_goal 2 => (intro _h; try clear_value x)))
    | (extract_lets +onlyGivenNames x; refine keep_cut (P := P) (x := x.2) ?_ ?_; (on_goal 1 => subst x); (on_goal 2 => (intro _h; try clear_value x)))
    | (extract_lets +onlyGivenNames x; try clear_value x)
    | with_reducible apply wr_keeps hP
    | with_reducible apply raise_keeps hP
    | with_reducible apply wrs_keeps hP
    | with_reducible apply tstates_keeps hP
    | with_reducible apply famStep_keeps hP
    | with_reducible refine ite_keeps ?_ ?_
    | split

theorem execPtpAnnounce_keeps {P : State → Prop} (hP : Kept P) {p : Fin 2} {domain : Nat} {prio1 : Nat} {cls : Nat} {acc : Nat} {var : Nat} {prio2 : Nat} {gm : Nat} {steps : Nat} {utc : UtcData} {log : Int} {d : Int} {s : State} (_ : P s) :
    onOut P (execPtpAnnounce p domain prio1 cls acc var prio2 gm steps utc log d s) := by
  unfold execPtpAnnounce
  repeat' first
    | with_reducible assumption
    | (intro _x)
    | (extract_lets +onlyGivenNames x; refine keep_cut (P := P) (x := x) ?_ ?_; (on_goal 1 => subst x); (on_goal 2 => (intro _h; try clear_value x)))
    | (extract_lets +onlyGivenNames x; refine keep_cut (P := P) (x := x.s) ?_ ?_; (on_goal 1 => subst x); (on_goal 2 => (intro _h; try clear_value x)))
    | (extract_lets +onlyGivenNames x; refine keep_cut (P := P) (x := x.1) ?_ ?_; (on_goal 1 => subst x); (on_goal 2 => (intro _h; try clear_value x)))
    | (extract_lets +onlyGivenNames x; refine keep_cut (P := P) (x := x.2) ?_ ?_; (on_goal 1 => subst x); (on_goal 2 => (intro _h; try clear_value x)))
    | (extract_lets +onlyGivenNames x; try clear_value x)
    | with_reducible refine ite_out ?_ ?_
    | with_reducible apply raise_keeps hP
    | with_reducible apply wrs_keeps hP
    | with_reducible apply upto_keeps
    | with_reducible apply ptpMove_keeps hP
    | with_reducible apply utcFollow_keeps hP
    | with_reducible apply phaseStep_keeps hP
    | with_reducible apply onOut_next
    | with_reducible refine ite_keeps ?_ ?_
    | split

theorem execRefPhaseEvent_keeps {P : State → Prop} (hP : Kept P) {k : Fin 54} {e : Int} {s : State} (_ : P s) :
    onOut P (execRefPhaseEvent k e s) := by
  unfold execRefPhaseEvent
  repeat' first
    | with_reducible assumption
    | (intro _x)
    | (extract_lets +onlyGivenNames x; refine keep_cut (P := P) (x := x) ?_ ?_; (on_goal 1 => subst x); (on_goal 2 => (intro _h; try clear_value x)))
    | (extract_lets +onlyGivenNames x; refine keep_cut (P := P) (x := x.s) ?_ ?_; (on_goal 1 => subst x); (on_goal 2 => (intro _h; try clear_value x)))
    | (extract_lets +onlyGivenNames x; refine keep_cut (P := P) (x := x.1) ?_ ?_; (on_goal 1 => subst x); (on_goal 2 => (intro _h; try clear_value x)))
    | (extract_lets +onlyGivenNames x; refine keep_cut (P := P) (x := x.2) ?_ ?_; (on_goal 1 => subst x); (on_goal 2 => (intro _h; try clear_value x)))
    | (extract_lets +onlyGivenNames x; try clear_value x)
    | with_reducible refine ite_out ?_ ?_
    | with_reducible apply upto_keeps
    | with_reducible apply lossRestart_keeps hP
    | with_reducible apply phaseSample_keeps hP
    | with_reducible apply onOut_next
    | with_reducible refine ite_keeps ?_ ?_
    | split

theorem execQualTimeExpiry_keeps {P : State → Prop} (hP : Kept P) {k : Fin 54} {s : State} (_ : P s) :
    onOut P (execQualTimeExpiry k s) := by
  unfold execQualTimeExpiry
  repeat' first
    | with_reducible assumption
    | (intro _x)
    | (extract_lets +onlyGivenNames x; refine keep_cut (P := P) (x := x) ?_ ?_; (on_goal 1 => subst x); (on_goal 2 => (intro _h; try clear_value x)))
    | (extract_lets +onlyGivenNames x; refine keep_cut (P := P) (x := x.s) ?_ ?_; (on_goal 1 => subst x); (on_goal 2 => (intro _h; try clear_value x)))
    | (extract_lets +onlyGivenNames x; refine keep_cut (P := P) (x := x.1) ?_ ?_; (on_goal 1 => subst x); (on_goal 2 => (intro _h; try clear_value x)))
    | (extract_lets +onlyGivenNames x; refine keep_cut (P := P) (x := x.2) ?_ ?_; (on_goal 1 => subst x); (on_goal 2 => (intro _h; try clear_value x)))
    | (extract_lets +onlyGivenNames x; try clear_value x)
    | with_reducible refine ite_out ?_ ?_
    | with_reducible apply timerDone_keeps hP
    | with_reducible apply onOut_next
    | with_reducible refine ite_keeps ?_ ?_
    | split

theorem gsynFreeze_keeps {P : State → Prop} (hP : Kept P) {s : State} {g : Nat} {word : Nat} (_ : P s) :
    P (State.gsynFreeze s g word) := by
  unfold State.gsynFreeze
  repeat' first
    | with_reducible assumption
    | (intro _x)
    | (extract_lets +onlyGivenNames x; refine keep_cut (P := P) (x := x) ?_ ?_; (on_goal 1 => subst x); (on_goal 2 => (intro _h; try clear_value x)))
    | (extract_lets +onlyGivenNames x; refine keep_cut (P := P) (x := x.s) ?_ ?_; (on_goal 1 => subst x); (on_goal 2 => (intro _h; try clear_value x)))
    | (extract_lets +onlyGivenNames x; refine keep_cut (P := P) (x := x.1) ?_ ?_; (on_goal 1 => subst x); (on_goal 2 => (intro _h; try clear_value x)))
    | (extract_lets +onlyGivenNames x; refine keep_cut (P := P) (x := x.2) ?_ ?_; (on_goal 1 => subst x); (on_goal 2 => (intro _h; try clear_value x)))
    | (extract_lets +onlyGivenNames x; try clear_value x)
    | with_reducible apply raise_keeps hP
    | with_reducible apply wrs_keeps hP
    | with_reducible apply tstates_keeps hP
    | with_reducible refine ite_keeps ?_ ?_
    | split

theorem execRelockTimeout_keeps {P : State → Prop} (hP : Kept P) {g : Fin 8} {s : State} (_ : P s) :
    onOut P (execRelockTimeout g s) := by
  unfold execRelockTimeout
  repeat' first
    | with_reducible assumption
    | (intro _x)
    | (extract_lets +onlyGivenNames x; refine keep_cut (P := P) (x := x) ?_ ?_; (on_goal 1 => subst x); (on_goal 2 => (intro _h; try clear_value x)))
    | (extract_lets +onlyGivenNames x; refine keep_cut (P := P) (x := x.s) ?_ ?_; (on_goal 1 => subst x); (on_goal 2 => (intro _h; try clear_value x)))
    | (extract_lets +onlyGivenNames x; refine keep_cut (P := P) (x := x.1) ?_ ?_; (on_goal 1 => subst x); (on_goal 2 => (intro _h; try clear_value x)))
    | (extract_lets +onlyGivenNames x; refine keep_cut (P := P) (x := x.2) ?_ ?_; (on_goal 1 => subst x); (on_goal 2 => (intro _h; try clear_value x)))
    | (extract_lets +onlyGivenNames x; try clear_value x)
    | with_reducible refine ite_out ?_ ?_
    | with_reducible apply gsynFreeze_keeps hP
    | with_reducible apply onOut_next
    | with_reducible refine ite_keeps ?_ ?_
    | split

theorem execRefMeasurement_keeps {P : State → Prop} (hP : Kept P) {offs : List Int} {s : State} (_ : P s) :
    onOut P (execRefMeasurement offs s) := by
  unfold execRefMeasurement
  repeat' first
    | with_reducible assumption
    | (intro _x)
    | (extract_lets +onlyGivenNames x; refine keep_cut (P := P) (x := x) ?_ ?_; (on_goal 1 => subst x); (on_goal 2 => (intro _h; try clear_value x)))
    | (extract_lets +onlyGivenNames x; refine keep_cut (P := P) (x := x.s) ?_ ?_; (on_goal 1 => subst x); (on_goal 2 => (intro _h; try clear_value x)))
    | (extract_lets +onlyGivenNames x; refine keep_cut (P := P) (x := x.1) ?_ ?_; (on_goal 1 => subst x); (on_goal 2 => (intro _h; try clear_value x)))
    | (extract_lets +onlyGivenNames x; refine keep_cut (P := P) (x := x.2) ?_ ?_; (on_goal 1 => subst x); (on_goal 2 => (intro _h; try clear_value x)))
    | (extract_lets +onlyGivenNames x; try clear_value x)
    | with_reducible refine ite_out ?_ ?_
    | with_reducible apply upto_keeps
    | with_reducible apply measure_keeps hP
    | with_reducible apply softCheck_keeps hP
    | with_reducible apply onOut_next
    | with_reducible refine ite_keeps ?_ ?_
    | split

theorem execPtpAnnounceTimeout_keeps {P : State → Prop} (hP : Kept P) {p : Fin 2} {s : State} (_ : P s) :
    onOut P (execPtpAnnounceTimeout p s) := by
  unfold execPtpAnnounceTimeout
  repeat' first
    | with_reducible assumption
    | (intro _x)
    | (extract_lets +onlyGivenNames x; refine keep_cut (P := P) (x := x) ?_ ?_; (on_goal 1 => subst x); (on_goal 2 => (intro _h; try clear_value x)))
    | (extract_lets +onlyGivenNames x; refine keep_cut (P := P) (x := x.s) ?_ ?_; (on_goal 1 => subst x); (on_goal 2 => (intro _h; try clear_value x)))
    | (extract_lets +onlyGivenNames x; refine keep_cut (P := P) (x := x.1) ?_ ?_; (on_goal 1 => subst x); (on_goal 2 => (intro _h; try clear_value x)))
    | (extract_lets +onlyGivenNames x; refine keep_cut (P := P) (x := x.2) ?_ ?_; (on_goal 1 => subst x); (on_goal 2 => (intro _h; try clear_value x)))
    | (extract_lets +onlyGivenNames x; try clear_value x)
    | with_reducible refine ite_out ?_ ?_
    | with_reducible apply wrs_keeps hP
    | with_reducible apply refLose_keeps hP
    | with_reducible apply ptpMove_keeps hP
    | with_reducible apply onOut_next
    | with_reducible refine ite_keeps ?_ ?_
    | split

theorem execGsynRateChange_keeps {P : State → Prop} (hP : Kept P) {g : Fin 8} {d : Int} {s : State} (_ : P s) :
    onOut P (execGsynRateChange g d s) := by
  unfold execGsynRateChange
  repeat' first
    | with_reducible assumption
    | (intro _x)
    | (extract_lets +onlyGivenNames x; refine keep_cut (P := P) (x := x) ?_ ?_; (on_goal 1 => subst x); (on_goal 2 => (intro _h; try clear_value x)))
    | (extract_lets +onlyGivenNames x; refine keep_cut (P := P) (x := x.s) ?_ ?_; (on_goal 1 => subst x); (on_goal 2 => (intro _h; try clear_value x)))
    | (extract_lets +onlyGivenNames x; refine keep_cut (P := P) (x := x.1) ?_ ?_; (on_goal 1 => subst x); (on_goal 2 => (intro _h; try clear_value x)))
    | (extract_lets +onlyGivenNames x; refine keep_cut (P := P) (x := x.2) ?_ ?_; (on_goal 1 => subst x); (on_goal 2 => (intro _h; try clear_value x)))
    | (extract_lets +onlyGivenNames x; try clear_value x)
    | with_reducible refine ite_out ?_ ?_
    | with_reducible apply wr_keeps hP
    | with_reducible apply setVec_keeps hP
    | with_reducible apply wrs_keeps hP
    | with_reducible apply upto_keeps
    | with_reducible apply famStepAt_keeps hP
    | with_reducible apply onOut_next
    | with_reducible refine ite_keeps ?_ ?_
    | split

theorem execRefSignalDetected_keeps {P : State → Prop} (hP : Kept P) {k : Fin 54} {code : Nat} {lines : Nat} {num : Nat} {den : Nat} {s : State} (_ : P s) :
    onOut P (execRefSignalDetected k code lines num den s) := by
  unfold execRefSignalDetected
  dsimp only
  repeat' first
    | with_reducible assumption
    | with_reducible apply wrs_keeps hP
    | with_reducible apply refFound_keeps hP
    | with_reducible apply refLose_keeps hP
    | with_reducible apply onOut_next
    | (intro _x)
    | with_reducible refine ite_keeps ?_ ?_
    | split

theorem execGsynBandSearch_keeps {P : State → Prop} (hP : Kept P) {g : Fin 8} {band : Nat} {word : Nat} {s : State} (_ : P s) :
    onOut P (execGsynBandSearch g band word s) := by
  unfold execGsynBandSearch
  repeat' first
    | with_reducible assumption
    | (intro _x)
    | (extract_lets +onlyGivenNames x; refine keep_cut (P := P) (x := x) ?_ ?_; (on_goal 1 => subst x); (on_goal 2 => (intro _h; try clear_value x)))
    | (extract_lets +onlyGivenNames x; refine keep_cut (P := P) (x := x.s) ?_ ?_; (on_goal 1 => subst x); (on_goal 2 => (intro _h; try clear_value x)))
    | (extract_lets +onlyGivenNames x; refine keep_cut (P := P) (x := x.1) ?_ ?_; (on_goal 1 => subst x); (on_goal 2 => (intro _h; try clear_value x)))
    | (extract_lets +onlyGivenNames x; refine keep_cut (P := P) (x := x.2) ?_ ?_; (on_goal 1 => subst x); (on_goal 2 => (intro _h; try clear_value x)))
    | (extract_lets +onlyGivenNames x; try clear_value x)
    | with_reducible refine ite_out ?_ ?_
    | with_reducible apply wrs_keeps hP
    | with_reducible apply onOut_next
    | with_reducible refine ite_keeps ?_ ?_
    | split

theorem execWtrExpiry_keeps {P : State → Prop} (hP : Kept P) {k : Fin 54} {s : State} (_ : P s) :
    onOut P (execWtrExpiry k s) := by
  unfold execWtrExpiry
  repeat' first
    | with_reducible assumption
    | (intro _x)
    | (extract_lets +onlyGivenNames x; refine keep_cut (P := P) (x := x) ?_ ?_; (on_goal 1 => subst x); (on_goal 2 => (intro _h; try clear_value x)))
    | (extract_lets +onlyGivenNames x; refine keep_cut (P := P) (x := x.s) ?_ ?_; (on_goal 1 => subst x); (on_goal 2 => (intro _h; try clear_value x)))
    | (extract_lets +onlyGivenNames x; refine keep_cut (P := P) (x := x.1) ?_ ?_; (on_goal 1 => subst x); (on_goal 2 => (intro _h; try clear_value x)))
    | (extract_lets +onlyGivenNames x; refine keep_cut (P := P) (x := x.2) ?_ ?_; (on_goal 1 => subst x); (on_goal 2 => (intro _h; try clear_value x)))
    | (extract_lets +onlyGivenNames x; try clear_value x)
    | with_reducible refine ite_out ?_ ?_
    | with_reducible apply timerDone_keeps hP
    | with_reducible apply onOut_next
    | with_reducible refine ite_keeps ?_ ?_
    | split

theorem execPpsOutSecond_keeps {P : State → Prop} (hP : Kept P) {s : State} (_ : P s) :
    onOut P (execPpsOutSecond s) := by
  unfold execPpsOutSecond
  repeat' first
    | with_reducible assumption
    | (intro _x)
    | (extract_lets +onlyGivenNames x; refine keep_cut (P := P) (x := x) ?_ ?_; (on_goal 1 => subst x); (on_goal 2 => (intro _h; try clear_value x)))
    | (extract_lets +onlyGivenNames x; refine keep_cut (P := P) (x := x.s) ?_ ?_; (on_goal 1 => subst x); (on_goal 2 => (intro _h; try clear_value x)))
    | (extract_lets +onlyGivenNames x; refine keep_cut (P := P) (x := x.1) ?_ ?_; (on_goal 1 => subst x); (on_goal 2 => (intro _h; try clear_value x)))
    | (extract_lets +onlyGivenNames x; refine keep_cut (P := P) (x := x.2) ?_ ?_; (on_goal 1 => subst x); (on_goal 2 => (intro _h; try clear_value x)))
    | (extract_lets +onlyGivenNames x; try clear_value x)
    | with_reducible refine ite_out ?_ ?_
    | with_reducible apply wrs_keeps hP
    | with_reducible apply onOut_next
    | with_reducible refine ite_keeps ?_ ?_
    | split

theorem execPhaseMeasurement_keeps {P : State → Prop} (hP : Kept P) {j : Fin 2} {e : Int} {s : State} (_ : P s) :
    onOut P (execPhaseMeasurement j e s) := by
  unfold execPhaseMeasurement
  repeat' first
    | with_reducible assumption
    | (intro _x)
    | (extract_lets +onlyGivenNames x; refine keep_cut (P := P) (x := x) ?_ ?_; (on_goal 1 => subst x); (on_goal 2 => (intro _h; try clear_value x)))
    | (extract_lets +onlyGivenNames x; refine keep_cut (P := P) (x := x.s) ?_ ?_; (on_goal 1 => subst x); (on_goal 2 => (intro _h; try clear_value x)))
    | (extract_lets +onlyGivenNames x; refine keep_cut (P := P) (x := x.1) ?_ ?_; (on_goal 1 => subst x); (on_goal 2 => (intro _h; try clear_value x)))
    | (extract_lets +onlyGivenNames x; refine keep_cut (P := P) (x := x.2) ?_ ?_; (on_goal 1 => subst x); (on_goal 2 => (intro _h; try clear_value x)))
    | (extract_lets +onlyGivenNames x; try clear_value x)
    | with_reducible refine ite_out ?_ ?_
    | with_reducible apply wr_keeps hP
    | with_reducible apply phaseSample_keeps hP
    | with_reducible apply onOut_next
    | with_reducible refine ite_keeps ?_ ?_
    | split

theorem execRampSegmentEnd_keeps {P : State → Prop} (hP : Kept P) {g : Fin 8} {s : State} (_ : P s) :
    onOut P (execRampSegmentEnd g s) := by
  unfold execRampSegmentEnd
  repeat' first
    | with_reducible assumption
    | (intro _x)
    | (extract_lets +onlyGivenNames x; refine keep_cut (P := P) (x := x) ?_ ?_; (on_goal 1 => subst x); (on_goal 2 => (intro _h; try clear_value x)))
    | (extract_lets +onlyGivenNames x; refine keep_cut (P := P) (x := x.s) ?_ ?_; (on_goal 1 => subst x); (on_goal 2 => (intro _h; try clear_value x)))
    | (extract_lets +onlyGivenNames x; refine keep_cut (P := P) (x := x.1) ?_ ?_; (on_goal 1 => subst x); (on_goal 2 => (intro _h; try clear_value x)))
    | (extract_lets +onlyGivenNames x; refine keep_cut (P := P) (x := x.2) ?_ ?_; (on_goal 1 => subst x); (on_goal 2 => (intro _h; try clear_value x)))
    | (extract_lets +onlyGivenNames x; try clear_value x)
    | with_reducible refine ite_out ?_ ?_
    | with_reducible apply realign_keeps hP
    | with_reducible apply rampGo_keeps hP
    | with_reducible apply onOut_next
    | with_reducible refine ite_keeps ?_ ?_
    | split

theorem execGsynLol_keeps {P : State → Prop} (hP : Kept P) {g : Fin 8} {word : Nat} {s : State} (_ : P s) :
    onOut P (execGsynLol g word s) := by
  unfold execGsynLol
  repeat' first
    | with_reducible assumption
    | (intro _x)
    | (extract_lets +onlyGivenNames x; refine keep_cut (P := P) (x := x) ?_ ?_; (on_goal 1 => subst x); (on_goal 2 => (intro _h; try clear_value x)))
    | (extract_lets +onlyGivenNames x; refine keep_cut (P := P) (x := x.s) ?_ ?_; (on_goal 1 => subst x); (on_goal 2 => (intro _h; try clear_value x)))
    | (extract_lets +onlyGivenNames x; refine keep_cut (P := P) (x := x.1) ?_ ?_; (on_goal 1 => subst x); (on_goal 2 => (intro _h; try clear_value x)))
    | (extract_lets +onlyGivenNames x; refine keep_cut (P := P) (x := x.2) ?_ ?_; (on_goal 1 => subst x); (on_goal 2 => (intro _h; try clear_value x)))
    | (extract_lets +onlyGivenNames x; try clear_value x)
    | with_reducible refine ite_out ?_ ?_
    | with_reducible apply gsynFreeze_keeps hP
    | with_reducible apply onOut_next
    | with_reducible refine ite_keeps ?_ ?_
    | split

theorem execPpsInEdge_keeps {P : State → Prop} (hP : Kept P) {s : State} (_ : P s) :
    onOut P (execPpsInEdge s) := by
  unfold execPpsInEdge
  repeat' first
    | with_reducible assumption
    | (intro _x)
    | (extract_lets +onlyGivenNames x; refine keep_cut (P := P) (x := x) ?_ ?_; (on_goal 1 => subst x); (on_goal 2 => (intro _h; try clear_value x)))
    | (extract_lets +onlyGivenNames x; refine keep_cut (P := P) (x := x.s) ?_ ?_; (on_goal 1 => subst x); (on_goal 2 => (intro _h; try clear_value x)))
    | (extract_lets +onlyGivenNames x; refine keep_cut (P := P) (x := x.1) ?_ ?_; (on_goal 1 => subst x); (on_goal 2 => (intro _h; try clear_value x)))
    | (extract_lets +onlyGivenNames x; refine keep_cut (P := P) (x := x.2) ?_ ?_; (on_goal 1 => subst x); (on_goal 2 => (intro _h; try clear_value x)))
    | (extract_lets +onlyGivenNames x; try clear_value x)
    | with_reducible refine ite_out ?_ ?_
    | with_reducible apply wr_keeps hP
    | with_reducible apply upto_keeps
    | with_reducible apply famSteps_keeps hP
    | with_reducible apply tsMove_keeps hP
    | with_reducible apply onOut_next
    | with_reducible refine ite_keeps ?_ ?_
    | split

theorem execRefLossOfSignal_keeps {P : State → Prop} (hP : Kept P) {k : Fin 54} {s : State} (_ : P s) :
    onOut P (execRefLossOfSignal k s) := by
  unfold execRefLossOfSignal
  repeat' first
    | with_reducible assumption
    | (intro _x)
    | (extract_lets +onlyGivenNames x; refine keep_cut (P := P) (x := x) ?_ ?_; (on_goal 1 => subst x); (on_goal 2 => (intro _h; try clear_value x)))
    | (extract_lets +onlyGivenNames x; refine keep_cut (P := P) (x := x.s) ?_ ?_; (on_goal 1 => subst x); (on_goal 2 => (intro _h; try clear_value x)))
    | (extract_lets +onlyGivenNames x; refine keep_cut (P := P) (x := x.1) ?_ ?_; (on_goal 1 => subst x); (on_goal 2 => (intro _h; try clear_value x)))
    | (extract_lets +onlyGivenNames x; refine keep_cut (P := P) (x := x.2) ?_ ?_; (on_goal 1 => subst x); (on_goal 2 => (intro _h; try clear_value x)))
    | (extract_lets +onlyGivenNames x; try clear_value x)
    | with_reducible refine ite_out ?_ ?_
    | with_reducible apply refLose_keeps hP
    | with_reducible apply onOut_next
    | with_reducible refine ite_keeps ?_ ?_
    | split

end Sys2Proof.Machine
end

