-- ==== Sys2Proof/Laws/KeepsFrameStore.lean ====
section
/-! SUPPORT. What the operations of Machine/FrameStore.lean keep. -/
set_option linter.all false
set_option maxRecDepth 8000
namespace Sys2Proof.Machine

theorem setAllocs_keeps {P : State → Prop} (hP : Kept P) {s : State} {l : List Alloc} (_ : P s) :
    P (State.setAllocs s l) := by
  unfold State.setAllocs
  repeat' first
    | with_reducible assumption
    | (intro _x)
    | (extract_lets +onlyGivenNames x; refine keep_cut (P := P) (x := x) ?_ ?_; (on_goal 1 => subst x); (on_goal 2 => (intro _h; try clear_value x)))
    | (extract_lets +onlyGivenNames x; refine keep_cut (P := P) (x := x.s) ?_ ?_; (on_goal 1 => subst x); (on_goal 2 => (intro _h; try clear_value x)))
    | (extract_lets +onlyGivenNames x; refine keep_cut (P := P) (x := x.1) ?_ ?_; (on_goal 1 => subst x); (on_goal 2 => (intro _h; try clear_value x)))
    | (extract_lets +onlyGivenNames x; refine keep_cut (P := P) (x := x.2) ?_ ?_; (on_goal 1 => subst x); (on_goal 2 => (intro _h; try clear_value x)))
    | (extract_lets +onlyGivenNames x; try clear_value x)
    | with_reducible apply setVec_keeps hP
    | with_reducible refine ite_keeps ?_ ?_
    | split

theorem release_keeps {P : State → Prop} (hP : Kept P) {s : State} {id : Nat} (_ : P s) :
    P (State.release s id) := by
  unfold State.release
  repeat' first
    | with_reducible assumption
    | (intro _x)
    | (extract_lets +onlyGivenNames x; refine keep_cut (P := P) (x := x) ?_ ?_; (on_goal 1 => subst x); (on_goal 2 => (intro _h; try clear_value x)))
    | (extract_lets +onlyGivenNames x; refine keep_cut (P := P) (x := x.s) ?_ ?_; (on_goal 1 => subst x); (on_goal 2 => (intro _h; try clear_value x)))
    | (extract_lets +onlyGivenNames x; refine keep_cut (P := P) (x := x.1) ?_ ?_; (on_goal 1 => subst x); (on_goal 2 => (intro _h; try clear_value x)))
    | (extract_lets +onlyGivenNames x; refine keep_cut (P := P) (x := x.2) ?_ ?_; (on_goal 1 => subst x); (on_goal 2 => (intro _h; try clear_value x)))
    | (extract_lets +onlyGivenNames x; try clear_value x)
    | with_reducible apply setAllocs_keeps hP
    | with_reducible refine ite_keeps ?_ ?_
    | split

theorem ringRelease_keeps {P : State → Prop} (hP : Kept P) {s : State} {i : Nat} (_ : P s) :
    P (State.ringRelease s i) := by
  unfold State.ringRelease
  repeat' first
    | with_reducible assumption
    | (intro _x)
    | (extract_lets +onlyGivenNames x; refine keep_cut (P := P) (x := x) ?_ ?_; (on_goal 1 => subst x); (on_goal 2 => (intro _h; try clear_value x)))
    | (extract_lets +onlyGivenNames x; refine keep_cut (P := P) (x := x.s) ?_ ?_; (on_goal 1 => subst x); (on_goal 2 => (intro _h; try clear_value x)))
    | (extract_lets +onlyGivenNames x; refine keep_cut (P := P) (x := x.1) ?_ ?_; (on_goal 1 => subst x); (on_goal 2 => (intro _h; try clear_value x)))
    | (extract_lets +onlyGivenNames x; refine keep_cut (P := P) (x := x.2) ?_ ?_; (on_goal 1 => subst x); (on_goal 2 => (intro _h; try clear_value x)))
    | (extract_lets +onlyGivenNames x; try clear_value x)
    | with_reducible apply wrs_keeps hP
    | with_reducible apply release_keeps hP
    | with_reducible apply clr_keeps hP
    | with_reducible refine ite_keeps ?_ ?_
    | split

theorem bufMove_keeps {P : State → Prop} (hP : Kept P) {s : State} {b : Nat} {new : Nat} (_ : P s) :
    P (State.bufMove s b new) := by
  unfold State.bufMove
  repeat' first
    | with_reducible assumption
    | (intro _x)
    | (extract_lets +onlyGivenNames x; refine keep_cut (P := P) (x := x) ?_ ?_; (on_goal 1 => subst x); (on_goal 2 => (intro _h; try clear_value x)))
    | (extract_lets +onlyGivenNames x; refine keep_cut (P := P) (x := x.s) ?_ ?_; (on_goal 1 => subst x); (on_goal 2 => (intro _h; try clear_value x)))
    | (extract_lets +onlyGivenNames x; refine keep_cut (P := P) (x := x.1) ?_ ?_; (on_goal 1 => subst x); (on_goal 2 => (intro _h; try clear_value x)))
    | (extract_lets +onlyGivenNames x; refine keep_cut (P := P) (x := x.2) ?_ ?_; (on_goal 1 => subst x); (on_goal 2 => (intro _h; try clear_value x)))
    | (extract_lets +onlyGivenNames x; try clear_value x)
    | with_reducible apply wr_keeps hP
    | with_reducible apply raise_keeps hP
    | with_reducible apply wrs_keeps hP
    | with_reducible apply release_keeps hP
    | with_reducible apply clr_keeps hP
    | with_reducible refine ite_keeps ?_ ?_
    | split

theorem refDown_keeps {P : State → Prop} (hP : Kept P) {s : State} {r : Nat} {b : Nat} (_ : P s) :
    P (State.refDown s r b) := by
  unfold State.refDown
  repeat' first
    | with_reducible assumption
    | (intro _x)
    | (extract_lets +onlyGivenNames x; refine keep_cut (P := P) (x := x) ?_ ?_; (on_goal 1 => subst x); (on_goal 2 => (intro _h; try clear_value x)))
    | (extract_lets +onlyGivenNames x; refine keep_cut (P := P) (x := x.s) ?_ ?_; (on_goal 1 => subst x); (on_goal 2 => (intro _h; try clear_value x)))
    | (extract_lets +onlyGivenNames x; refine keep_cut (P := P) (x := x.1) ?_ ?_; (on_goal 1 => subst x); (on_goal 2 => (intro _h; try clear_value x)))
    | (extract_lets +onlyGivenNames x; refine keep_cut (P := P) (x := x.2) ?_ ?_; (on_goal 1 => subst x); (on_goal 2 => (intro _h; try clear_value x)))
    | (extract_lets +onlyGivenNames x; try clear_value x)
    | with_reducible apply setVec_keeps hP
    | with_reducible apply up_keeps hP
    | with_reducible apply inc_keeps hP
    | with_reducible apply bufMove_keeps hP
    | with_reducible refine ite_keeps ?_ ?_
    | split

theorem refUp_keeps {P : State → Prop} (hP : Kept P) {s : State} {b : Nat} (_ : P s) :
    P (State.refUp s b) := by
  unfold State.refUp
  repeat' first
    | with_reducible assumption
    | (intro _x)
    | (extract_lets +onlyGivenNames x; refine keep_cut (P := P) (x := x) ?_ ?_; (on_goal 1 => subst x); (on_goal 2 => (intro _h; try clear_value x)))
    | (extract_lets +onlyGivenNames x; refine keep_cut (P := P) (x := x.s) ?_ ?_; (on_goal 1 => subst x); (on_goal 2 => (intro _h; try clear_value x)))
    | (extract_lets +onlyGivenNames x; refine keep_cut (P := P) (x := x.1) ?_ ?_; (on_goal 1 => subst x); (on_goal 2 => (intro _h; try clear_value x)))
    | (extract_lets +onlyGivenNames x; refine keep_cut (P := P) (x := x.2) ?_ ?_; (on_goal 1 => subst x); (on_goal 2 => (intro _h; try clear_value x)))
    | (extract_lets +onlyGivenNames x; try clear_value x)
    | with_reducible apply inc_keeps hP
    | with_reducible apply bufMove_keeps hP
    | with_reducible refine ite_keeps ?_ ?_
    | split

theorem retireLater_keeps {P : State → Prop} (hP : Kept P) {s : State} {l : List Nat} (_ : P s) :
    P (State.retireLater s l) := by
  unfold State.retireLater
  repeat' first
    | with_reducible assumption
    | (intro _x)
    | (extract_lets +onlyGivenNames x; refine keep_cut (P := P) (x := x) ?_ ?_; (on_goal 1 => subst x); (on_goal 2 => (intro _h; try clear_value x)))
    | (extract_lets +onlyGivenNames x; refine keep_cut (P := P) (x := x.s) ?_ ?_; (on_goal 1 => subst x); (on_goal 2 => (intro _h; try clear_value x)))
    | (extract_lets +onlyGivenNames x; refine keep_cut (P := P) (x := x.1) ?_ ?_; (on_goal 1 => subst x); (on_goal 2 => (intro _h; try clear_value x)))
    | (extract_lets +onlyGivenNames x; refine keep_cut (P := P) (x := x.2) ?_ ?_; (on_goal 1 => subst x); (on_goal 2 => (intro _h; try clear_value x)))
    | (extract_lets +onlyGivenNames x; try clear_value x)
    | with_reducible apply setVec_keeps hP
    | with_reducible refine ite_keeps ?_ ?_
    | split

theorem forcedLeave_keeps {P : State → Prop} (hP : Kept P) {s : State} {r : Nat} (_ : P s) :
    P (State.forcedLeave s r) := by
  unfold State.forcedLeave
  repeat' first
    | with_reducible assumption
    | (intro _x)
    | (extract_lets +onlyGivenNames x; refine keep_cut (P := P) (x := x) ?_ ?_; (on_goal 1 => subst x); (on_goal 2 => (intro _h; try clear_value x)))
    | (extract_lets +onlyGivenNames x; refine keep_cut (P := P) (x := x.s) ?_ ?_; (on_goal 1 => subst x); (on_goal 2 => (intro _h; try clear_value x)))
    | (extract_lets +onlyGivenNames x; refine keep_cut (P := P) (x := x.1) ?_ ?_; (on_goal 1 => subst x); (on_goal 2 => (intro _h; try clear_value x)))
    | (extract_lets +onlyGivenNames x; refine keep_cut (P := P) (x := x.2) ?_ ?_; (on_goal 1 => subst x); (on_goal 2 => (intro _h; try clear_value x)))
    | (extract_lets +onlyGivenNames x; try clear_value x)
    | with_reducible apply setVec_keeps hP
    | with_reducible apply fold_keeps
    | with_reducible apply fold_fst_keeps
    | with_reducible apply retireLater_keeps hP
    | with_reducible apply up_keeps hP
    | with_reducible refine ite_keeps ?_ ?_
    | split

theorem leaveAll_keeps {P : State → Prop} (hP : Kept P) {s : State} {r : Nat} (_ : P s) :
    P (State.leaveAll s r) := by
  unfold State.leaveAll
  repeat' first
    | with_reducible assumption
    | (intro _x)
    | (extract_lets +onlyGivenNames x; refine keep_cut (P := P) (x := x) ?_ ?_; (on_goal 1 => subst x); (on_goal 2 => (intro _h; try clear_value x)))
    | (extract_lets +onlyGivenNames x; refine keep_cut (P := P) (x := x.s) ?_ ?_; (on_goal 1 => subst x); (on_goal 2 => (intro _h; try clear_value x)))
    | (extract_lets +onlyGivenNames x; refine keep_cut (P := P) (x := x.1) ?_ ?_; (on_goal 1 => subst x); (on_goal 2 => (intro _h; try clear_value x)))
    | (extract_lets +onlyGivenNames x; refine keep_cut (P := P) (x := x.2) ?_ ?_; (on_goal 1 => subst x); (on_goal 2 => (intro _h; try clear_value x)))
    | (extract_lets +onlyGivenNames x; try clear_value x)
    | with_reducible apply setVec_keeps hP
    | with_reducible apply fold_keeps
    | with_reducible apply fold_fst_keeps
    | with_reducible apply forcedLeave_keeps hP
    | with_reducible apply retireLater_keeps hP
    | with_reducible apply up_keeps hP
    | with_reducible refine ite_keeps ?_ ?_
    | split

theorem damage_keeps {P : State → Prop} (hP : Kept P) {s : State} {a : Nat} (_ : P s) :
    P (State.damage s a) := by
  unfold State.damage
  repeat' first
    | with_reducible assumption
    | (intro _x)
    | (extract_lets +onlyGivenNames x; refine keep_cut (P := P) (x := x) ?_ ?_; (on_goal 1 => subst x); (on_goal 2 => (intro _h; try clear_value x)))
    | (extract_lets +onlyGivenNames x; refine keep_cut (P := P) (x := x.s) ?_ ?_; (on_goal 1 => subst x); (on_goal 2 => (intro _h; try clear_value x)))
    | (extract_lets +onlyGivenNames x; refine keep_cut (P := P) (x := x.1) ?_ ?_; (on_goal 1 => subst x); (on_goal 2 => (intro _h; try clear_value x)))
    | (extract_lets +onlyGivenNames x; refine keep_cut (P := P) (x := x.2) ?_ ?_; (on_goal 1 => subst x); (on_goal 2 => (intro _h; try clear_value x)))
    | (extract_lets +onlyGivenNames x; try clear_value x)
    | with_reducible apply wr_keeps hP
    | with_reducible refine ite_keeps ?_ ?_
    | split

theorem guarded_keeps0 {P : State → Prop} (hP : Kept P) {s : State} {m : Nat} {a : Nat} {p : Alloc} (_ : P s) :
    onFst P (State.guarded s m a p) := by
  unfold State.guarded
  repeat' first
    | with_reducible assumption
    | (intro _x)
    | (extract_lets +onlyGivenNames x; refine keep_cut (P := P) (x := x) ?_ ?_; (on_goal 1 => subst x); (on_goal 2 => (intro _h; try clear_value x)))
    | (extract_lets +onlyGivenNames x; refine keep_cut (P := P) (x := x.s) ?_ ?_; (on_goal 1 => subst x); (on_goal 2 => (intro _h; try clear_value x)))
    | (extract_lets +onlyGivenNames x; refine keep_cut (P := P) (x := x.1) ?_ ?_; (on_goal 1 => subst x); (on_goal 2 => (intro _h; try clear_value x)))
    | (extract_lets +onlyGivenNames x; refine keep_cut (P := P) (x := x.2) ?_ ?_; (on_goal 1 => subst x); (on_goal 2 => (intro _h; try clear_value x)))
    | (extract_lets +onlyGivenNames x; try clear_value x)
    | with_reducible refine ite_fst ?_ ?_
    | with_reducible apply raise_keeps hP
    | with_reducible apply incSat_keeps hP
    | with_reducible apply onFst_mk
    | with_reducible refine ite_keeps ?_ ?_
    | split

theorem guarded_keeps {P : State → Prop} (hP : Kept P) {s : State} {m : Nat} {a : Nat} {p : Alloc} (h0 : P s) :
    P (State.guarded s m a p).1 := guarded_keeps0 hP h0

theorem winCheck_keeps0 {P : State → Prop} (hP : Kept P) {first : Nat} {last : Nat} {write : Bool} {s : State} (_ : P s) :
    onAns P (winCheck first last write s) := by
  unfold winCheck
  repeat' first
    | with_reducible assumption
    | (intro _x)
    | (extract_lets +onlyGivenNames x; refine keep_cut (P := P) (x := x) ?_ ?_; (on_goal 1 => subst x); (on_goal 2 => (intro _h; try clear_value x)))
    | (extract_lets +onlyGivenNames x; refine keep_cut (P := P) (x := x.s) ?_ ?_; (on_goal 1 => subst x); (on_goal 2 => (intro _h; try clear_value x)))
    | (extract_lets +onlyGivenNames x; refine keep_cut (P := P) (x := x.1) ?_ ?_; (on_goal 1 => subst x); (on_goal 2 => (intro _h; try clear_value x)))
    | (extract_lets +onlyGivenNames x; refine keep_cut (P := P) (x := x.2) ?_ ?_; (on_goal 1 => subst x); (on_goal 2 => (intro _h; try clear_value x)))
    | (extract_lets +onlyGivenNames x; try clear_value x)
    | with_reducible refine ite_ans ?_ ?_
    | with_reducible apply fold_keeps
    | with_reducible apply fold_fst_keeps
    | with_reducible apply ansRange_keeps hP
    | with_reducible apply ansRange_keeps0 hP
    | with_reducible apply ansOk_keeps hP
    | with_reducible apply ansOk_keeps0 hP
    | with_reducible apply damage_keeps hP
    | with_reducible apply guarded_keeps hP
    | with_reducible apply guarded_keeps0 hP
    | with_reducible apply ansBusy_keeps hP
    | with_reducible apply ansBusy_keeps0 hP
    | with_reducible apply onAns_mk
    | with_reducible refine ite_keeps ?_ ?_
    | split

theorem winCheck_keeps {P : State → Prop} (hP : Kept P) {first : Nat} {last : Nat} {write : Bool} {s : State} (h0 : P s) :
    P (winCheck first last write s).s := winCheck_keeps0 hP h0

theorem unlock_keeps {P : State → Prop} (hP : Kept P) {s : State} {m : Nat} (_ : P s) :
    P (State.unlock s m) := by
  unfold State.unlock
  repeat' first
    | with_reducible assumption
    | (intro _x)
    | (extract_lets +onlyGivenNames x; refine keep_cut (P := P) (x := x) ?_ ?_; (on_goal 1 => subst x); (on_goal 2 => (intro _h; try clear_value x)))
    | (extract_lets +onlyGivenNames x; refine keep_cut (P := P) (x := x.s) ?_ ?_; (on_goal 1 => subst x); (on_goal 2 => (intro _h; try clear_value x)))
    | (extract_lets +onlyGivenNames x; refine keep_cut (P := P) (x := x.1) ?_ ?_; (on_goal 1 => subst x); (on_goal 2 => (intro _h; try clear_value x)))
    | (extract_lets +onlyGivenNames x; refine keep_cut (P := P) (x := x.2) ?_ ?_; (on_goal 1 => subst x); (on_goal 2 => (intro _h; try clear_value x)))
    | (extract_lets +onlyGivenNames x; try clear_value x)
    | with_reducible apply wrs_keeps hP
    | with_reducible apply upto_keeps
    | with_reducible refine ite_keeps ?_ ?_
    | split

theorem portReset_keeps {P : State → Prop} (hP : Kept P) {s : State} {m : Nat} (_ : P s) :
    P (State.portReset s m) := by
  unfold State.portReset
  repeat' first
    | with_reducible assumption
    | (intro _x)
    | (extract_lets +onlyGivenNames x; refine keep_cut (P := P) (x := x) ?_ ?_; (on_goal 1 => subst x); (on_goal 2 => (intro _h; try clear_value x)))
    | (extract_lets +onlyGivenNames x; refine keep_cut (P := P) (x := x.s) ?_ ?_; (on_goal 1 => subst x); (on_goal 2 => (intro _h; try clear_value x)))
    | (extract_lets +onlyGivenNames x; refine keep_cut (P := P) (x := x.1) ?_ ?_; (on_goal 1 => subst x); (on_goal 2 => (intro _h; try clear_value x)))
    | (extract_lets +onlyGivenNames x; refine keep_cut (P := P) (x := x.2) ?_ ?_; (on_goal 1 => subst x); (on_goal 2 => (intro _h; try clear_value x)))
    | (extract_lets +onlyGivenNames x; try clear_value x)
    | with_reducible apply wr_keeps hP
    | with_reducible apply wrs_keeps hP
    | with_reducible apply unlock_keeps hP
    | with_reducible refine ite_keeps ?_ ?_
    | split

theorem heal_keeps {P : State → Prop} (hP : Kept P) {s : State} {x : Nat} (_ : P s) :
    P (State.heal s x) := by
  unfold State.heal
  repeat' first
    | with_reducible assumption
    | (intro _x)
    | (extract_lets +onlyGivenNames x; refine keep_cut (P := P) (x := x) ?_ ?_; (on_goal 1 => subst x); (on_goal 2 => (intro _h; try clear_value x)))
    | (extract_lets +onlyGivenNames x; refine keep_cut (P := P) (x := x.s) ?_ ?_; (on_goal 1 => subst x); (on_goal 2 => (intro _h; try clear_value x)))
    | (extract_lets +onlyGivenNames x; refine keep_cut (P := P) (x := x.1) ?_ ?_; (on_goal 1 => subst x); (on_goal 2 => (intro _h; try clear_value x)))
    | (extract_lets +onlyGivenNames x; refine keep_cut (P := P) (x := x.2) ?_ ?_; (on_goal 1 => subst x); (on_goal 2 => (intro _h; try clear_value x)))
    | (extract_lets +onlyGivenNames x; try clear_value x)
    | with_reducible apply setVec_keeps hP
    | with_reducible refine ite_keeps ?_ ?_
    | split

theorem putByte_keeps {P : State → Prop} (hP : Kept P) (hM : KeptMem P) {s : State} {x : Nat} {v : Nat} (_ : P s) :
    P (State.putByte s x v) := by
  unfold State.putByte
  repeat' first
    | with_reducible assumption
    | (intro _x)
    | (extract_lets +onlyGivenNames x; refine keep_cut (P := P) (x := x) ?_ ?_; (on_goal 1 => subst x); (on_goal 2 => (intro _h; try clear_value x)))
    | (extract_lets +onlyGivenNames x; refine keep_cut (P := P) (x := x.s) ?_ ?_; (on_goal 1 => subst x); (on_goal 2 => (intro _h; try clear_value x)))
    | (extract_lets +onlyGivenNames x; refine keep_cut (P := P) (x := x.1) ?_ ?_; (on_goal 1 => subst x); (on_goal 2 => (intro _h; try clear_value x)))
    | (extract_lets +onlyGivenNames x; refine keep_cut (P := P) (x := x.2) ?_ ?_; (on_goal 1 => subst x); (on_goal 2 => (intro _h; try clear_value x)))
    | (extract_lets +onlyGivenNames x; try clear_value x)
    | with_reducible apply hM.wrMem
    | with_reducible apply heal_keeps hP
    | with_reducible refine ite_keeps ?_ ?_
    | split

theorem fsWrite_keeps {P : State → Prop} (hP : Kept P) (hM : KeptMem P) {s : State} {a : Nat} {v : Nat} (_ : P s) :
    P (State.fsWrite s a v) := by
  unfold State.fsWrite
  repeat' first
    | with_reducible assumption
    | (intro _x)
    | (extract_lets +onlyGivenNames x; refine keep_cut (P := P) (x := x) ?_ ?_; (on_goal 1 => subst x); (on_goal 2 => (intro _h; try clear_value x)))
    | (extract_lets +onlyGivenNames x; refine keep_cut (P := P) (x := x.s) ?_ ?_; (on_goal 1 => subst x); (on_goal 2 => (intro _h; try clear_value x)))
    | (extract_lets +onlyGivenNames x; refine keep_cut (P := P) (x := x.1) ?_ ?_; (on_goal 1 => subst x); (on_goal 2 => (intro _h; try clear_value x)))
    | (extract_lets +onlyGivenNames x; refine keep_cut (P := P) (x := x.2) ?_ ?_; (on_goal 1 => subst x); (on_goal 2 => (intro _h; try clear_value x)))
    | (extract_lets +onlyGivenNames x; try clear_value x)
    | with_reducible apply putByte_keeps hP hM
    | with_reducible refine ite_keeps ?_ ?_
    | split

theorem fsWrites_keeps {P : State → Prop} (hP : Kept P) (hM : KeptMem P) {s : State} {a : Nat} {l : List Nat} (h : P s) : P (s.fsWrites a l) := by
  induction l generalizing s a with
  | nil => exact h
  | cons b t ih => exact ih (fsWrite_keeps hP hM h)

theorem winPut_keeps {P : State → Prop} (hP : Kept P) (hM : KeptMem P) {s : State} {k : Nat} {v : Nat} (_ : P s) :
    P (State.winPut s k v) := by
  unfold State.winPut
  repeat' first
    | with_reducible assumption
    | (intro _x)
    | (extract_lets +onlyGivenNames x; refine keep_cut (P := P) (x := x) ?_ ?_; (on_goal 1 => subst x); (on_goal 2 => (intro _h; try clear_value x)))
    | (extract_lets +onlyGivenNames x; refine keep_cut (P := P) (x := x.s) ?_ ?_; (on_goal 1 => subst x); (on_goal 2 => (intro _h; try clear_value x)))
    | (extract_lets +onlyGivenNames x; refine keep_cut (P := P) (x := x.1) ?_ ?_; (on_goal 1 => subst x); (on_goal 2 => (intro _h; try clear_value x)))
    | (extract_lets +onlyGivenNames x; refine keep_cut (P := P) (x := x.2) ?_ ?_; (on_goal 1 => subst x); (on_goal 2 => (intro _h; try clear_value x)))
    | (extract_lets +onlyGivenNames x; try clear_value x)
    | with_reducible apply fsWrites_keeps hP hM
    | with_reducible refine ite_keeps ?_ ?_
    | split

theorem ringPlace_keeps {P : State → Prop} (hP : Kept P) {s : State} {i : Nat} {st : Nat} {a : Nat} {bytes : Nat} {f : Nat} {c : Nat} (_ : P s) :
    P (State.ringPlace s i st a bytes f c) := by
  unfold State.ringPlace
  repeat' first
    | with_reducible assumption
    | (intro _x)
    | (extract_lets +onlyGivenNames x; refine keep_cut (P := P) (x := x) ?_ ?_; (on_goal 1 => subst x); (on_goal 2 => (intro _h; try clear_value x)))
    | (extract_lets +onlyGivenNames x; refine keep_cut (P := P) (x := x.s) ?_ ?_; (on_goal 1 => subst x); (on_goal 2 => (intro _h; try clear_value x)))
    | (extract_lets +onlyGivenNames x; refine keep_cut (P := P) (x := x.1) ?_ ?_; (on_goal 1 => subst x); (on_goal 2 => (intro _h; try clear_value x)))
    | (extract_lets +onlyGivenNames x; refine keep_cut (P := P) (x := x.2) ?_ ?_; (on_goal 1 => subst x); (on_goal 2 => (intro _h; try clear_value x)))
    | (extract_lets +onlyGivenNames x; try clear_value x)
    | with_reducible apply wrs_keeps hP
    | with_reducible apply setAllocs_keeps hP
    | with_reducible refine ite_keeps ?_ ?_
    | split

theorem pcmapPut_keeps {P : State → Prop} (hP : Kept P) {s : State} {st : Nat} {i : Nat} {q : Nat} (_ : P s) :
    P (State.pcmapPut s st i q) := by
  unfold State.pcmapPut
  repeat' first
    | with_reducible assumption
    | (intro _x)
    | (extract_lets +onlyGivenNames x; refine keep_cut (P := P) (x := x) ?_ ?_; (on_goal 1 => subst x); (on_goal 2 => (intro _h; try clear_value x)))
    | (extract_lets +onlyGivenNames x; refine keep_cut (P := P) (x := x.s) ?_ ?_; (on_goal 1 => subst x); (on_goal 2 => (intro _h; try clear_value x)))
    | (extract_lets +onlyGivenNames x; refine keep_cut (P := P) (x := x.1) ?_ ?_; (on_goal 1 => subst x); (on_goal 2 => (intro _h; try clear_value x)))
    | (extract_lets +onlyGivenNames x; refine keep_cut (P := P) (x := x.2) ?_ ?_; (on_goal 1 => subst x); (on_goal 2 => (intro _h; try clear_value x)))
    | (extract_lets +onlyGivenNames x; try clear_value x)
    | with_reducible apply up_keeps hP
    | with_reducible refine ite_keeps ?_ ?_
    | split

theorem slotLose_keeps {P : State → Prop} (hP : Kept P) (hM : KeptMem P) {s : State} {st : Nat} {sl : Nat} (_ : P s) :
    P (State.slotLose s st sl) := by
  unfold State.slotLose
  repeat' first
    | with_reducible assumption
    | (intro _x)
    | (extract_lets +onlyGivenNames x; refine keep_cut (P := P) (x := x) ?_ ?_; (on_goal 1 => subst x); (on_goal 2 => (intro _h; try clear_value x)))
    | (extract_lets +onlyGivenNames x; refine keep_cut (P := P) (x := x.s) ?_ ?_; (on_goal 1 => subst x); (on_goal 2 => (intro _h; try clear_value x)))
    | (extract_lets +onlyGivenNames x; refine keep_cut (P := P) (x := x.1) ?_ ?_; (on_goal 1 => subst x); (on_goal 2 => (intro _h; try clear_value x)))
    | (extract_lets +onlyGivenNames x; refine keep_cut (P := P) (x := x.2) ?_ ?_; (on_goal 1 => subst x); (on_goal 2 => (intro _h; try clear_value x)))
    | (extract_lets +onlyGivenNames x; try clear_value x)
    | with_reducible apply tick1_keeps hP
    | with_reducible apply hM.wrMem
    | with_reducible apply fold_keeps
    | with_reducible apply fold_fst_keeps
    | with_reducible refine ite_keeps ?_ ?_
    | split

theorem limitSync_keeps {P : State → Prop} (hP : Kept P) {s : State} (_ : P s) :
    P (State.limitSync s) := by
  unfold State.limitSync
  repeat' first
    | with_reducible assumption
    | (intro _x)
    | (extract_lets +onlyGivenNames x; refine keep_cut (P := P) (x := x) ?_ ?_; (on_goal 1 => subst x); (on_goal 2 => (intro _h; try clear_value x)))
    | (extract_lets +onlyGivenNames x; refine keep_cut (P := P) (x := x.s) ?_ ?_; (on_goal 1 => subst x); (on_goal 2 => (intro _h; try clear_value x)))
    | (extract_lets +onlyGivenNames x; refine keep_cut (P := P) (x := x.1) ?_ ?_; (on_goal 1 => subst x); (on_goal 2 => (intro _h; try clear_value x)))
    | (extract_lets +onlyGivenNames x; refine keep_cut (P := P) (x := x.2) ?_ ?_; (on_goal 1 => subst x); (on_goal 2 => (intro _h; try clear_value x)))
    | (extract_lets +onlyGivenNames x; try clear_value x)
    | with_reducible apply wrs_keeps hP
    | with_reducible refine ite_keeps ?_ ?_
    | split

theorem pcFail_keeps {P : State → Prop} (hP : Kept P) (hM : KeptMem P) {s : State} {st : Nat} {q : Nat} (_ : P s) :
    P (State.pcFail s st q) := by
  unfold State.pcFail
  repeat' first
    | with_reducible assumption
    | (intro _x)
    | (extract_lets +onlyGivenNames x; refine keep_cut (P := P) (x := x) ?_ ?_; (on_goal 1 => subst x); (on_goal 2 => (intro _h; try clear_value x)))
    | (extract_lets +onlyGivenNames x; refine keep_cut (P := P) (x := x.s) ?_ ?_; (on_goal 1 => subst x); (on_goal 2 => (intro _h; try clear_value x)))
    | (extract_lets +onlyGivenNames x; refine keep_cut (P := P) (x := x.1) ?_ ?_; (on_goal 1 => subst x); (on_goal 2 => (intro _h; try clear_value x)))
    | (extract_lets +onlyGivenNames x; refine keep_cut (P := P) (x := x.2) ?_ ?_; (on_goal 1 => subst x); (on_goal 2 => (intro _h; try clear_value x)))
    | (extract_lets +onlyGivenNames x; try clear_value x)
    | with_reducible apply wr_keeps hP
    | with_reducible apply setVec_keeps hP
    | with_reducible apply raise_keeps hP
    | with_reducible apply fold_keeps
    | with_reducible apply fold_fst_keeps
    | with_reducible apply pcmapPut_keeps hP
    | with_reducible apply slotLose_keeps hP hM
    | with_reducible apply limitSync_keeps hP
    | with_reducible apply up_keeps hP
    | with_reducible refine ite_keeps ?_ ?_
    | split

theorem cancelNamers_keeps {P : State → Prop} (hP : Kept P) (hC : KeptCom P) {s : State} {b : Nat} (_ : P s) :
    P (State.cancelNamers s b) := by
  unfold State.cancelNamers
  repeat' first
    | with_reducible assumption
    | (intro _x)
    | (extract_lets +onlyGivenNames x; refine keep_cut (P := P) (x := x) ?_ ?_; (on_goal 1 => subst x); (on_goal 2 => (intro _h; try clear_value x)))
    | (extract_lets +onlyGivenNames x; refine keep_cut (P := P) (x := x.s) ?_ ?_; (on_goal 1 => subst x); (on_goal 2 => (intro _h; try clear_value x)))
    | (extract_lets +onlyGivenNames x; refine keep_cut (P := P) (x := x.1) ?_ ?_; (on_goal 1 => subst x); (on_goal 2 => (intro _h; try clear_value x)))
    | (extract_lets +onlyGivenNames x; refine keep_cut (P := P) (x := x.2) ?_ ?_; (on_goal 1 => subst x); (on_goal 2 => (intro _h; try clear_value x)))
    | (extract_lets +onlyGivenNames x; try clear_value x)
    | with_reducible apply fold_keeps
    | with_reducible apply fold_fst_keeps
    | with_reducible refine ite_keeps ?_ ?_
    | split
    | with_reducible apply hC.com
    | with_reducible apply hC.due

theorem cancelReaders_keeps {P : State → Prop} (hP : Kept P) {s : State} {b : Nat} (_ : P s) :
    P (State.cancelReaders s b) := by
  unfold State.cancelReaders
  repeat' first
    | with_reducible assumption
    | (intro _x)
    | (extract_lets +onlyGivenNames x; refine keep_cut (P := P) (x := x) ?_ ?_; (on_goal 1 => subst x); (on_goal 2 => (intro _h; try clear_value x)))
    | (extract_lets +onlyGivenNames x; refine keep_cut (P := P) (x := x.s) ?_ ?_; (on_goal 1 => subst x); (on_goal 2 => (intro _h; try clear_value x)))
    | (extract_lets +onlyGivenNames x; refine keep_cut (P := P) (x := x.1) ?_ ?_; (on_goal 1 => subst x); (on_goal 2 => (intro _h; try clear_value x)))
    | (extract_lets +onlyGivenNames x; refine keep_cut (P := P) (x := x.2) ?_ ?_; (on_goal 1 => subst x); (on_goal 2 => (intro _h; try clear_value x)))
    | (extract_lets +onlyGivenNames x; try clear_value x)
    | with_reducible apply wr_keeps hP
    | with_reducible apply setVec_keeps hP
    | with_reducible apply upto_keeps
    | with_reducible refine ite_keeps ?_ ?_
    | split

theorem bufForceWrite_keeps0 {P : State → Prop} (hP : Kept P) (hC : KeptCom P) {b : Nat} {s : State} (_ : P s) :
    onAns P (bufForceWrite b s) := by
  unfold bufForceWrite
  repeat' first
    | with_reducible assumption
    | (intro _x)
    | (extract_lets +onlyGivenNames x; refine keep_cut (P := P) (x := x) ?_ ?_; (on_goal 1 => subst x); (on_goal 2 => (intro _h; try clear_value x)))
    | (extract_lets +onlyGivenNames x; refine keep_cut (P := P) (x := x.s) ?_ ?_; (on_goal 1 => subst x); (on_goal 2 => (intro _h; try clear_value x)))
    | (extract_lets +onlyGivenNames x; refine keep_cut (P := P) (x := x.1) ?_ ?_; (on_goal 1 => subst x); (on_goal 2 => (intro _h; try clear_value x)))
    | (extract_lets +onlyGivenNames x; refine keep_cut (P := P) (x := x.2) ?_ ?_; (on_goal 1 => subst x); (on_goal 2 => (intro _h; try clear_value x)))
    | (extract_lets +onlyGivenNames x; try clear_value x)
    | with_reducible refine ite_ans ?_ ?_
    | with_reducible apply wr_keeps hP
    | with_reducible apply setVec_keeps hP
    | with_reducible apply raise_keeps hP
    | with_reducible apply upto_keeps
    | with_reducible apply ansOk_keeps hP
    | with_reducible apply ansOk_keeps0 hP
    | with_reducible apply cancelNamers_keeps hP hC
    | with_reducible apply bufMove_keeps hP
    | with_reducible apply cancelReaders_keeps hP
    | with_reducible apply onAns_mk
    | with_reducible refine ite_keeps ?_ ?_
    | split
    | with_reducible apply hC.com
    | with_reducible apply hC.due

theorem bufForceWrite_keeps {P : State → Prop} (hP : Kept P) (hC : KeptCom P) {b : Nat} {s : State} (h0 : P s) :
    P (bufForceWrite b s).s := bufForceWrite_keeps0 hP hC h0

theorem bufStateWrite_keeps0 {P : State → Prop} (hP : Kept P) {b : Nat} {v : Nat} {s : State} (_ : P s) :
    onAns P (bufStateWrite b v s) := by
  unfold bufStateWrite
  repeat' first
    | with_reducible assumption
    | (intro _x)
    | (extract_lets +onlyGivenNames x; refine keep_cut (P := P) (x := x) ?_ ?_; (on_goal 1 => subst x); (on_goal 2 => (intro _h; try clear_value x)))
    | (extract_lets +onlyGivenNames x; refine keep_cut (P := P) (x := x.s) ?_ ?_; (on_goal 1 => subst x); (on_goal 2 => (intro _h; try clear_value x)))
    | (extract_lets +onlyGivenNames x; refine keep_cut (P := P) (x := x.1) ?_ ?_; (on_goal 1 => subst x); (on_goal 2 => (intro _h; try clear_value x)))
    | (extract_lets +onlyGivenNames x; refine keep_cut (P := P) (x := x.2) ?_ ?_; (on_goal 1 => subst x); (on_goal 2 => (intro _h; try clear_value x)))
    | (extract_lets +onlyGivenNames x; try clear_value x)
    | with_reducible refine ite_ans ?_ ?_
    | with_reducible apply wr_keeps hP
    | with_reducible apply ansOk_keeps hP
    | with_reducible apply ansOk_keeps0 hP
    | with_reducible apply bufMove_keeps hP
    | with_reducible apply ansBusy_keeps hP
    | with_reducible apply ansBusy_keeps0 hP
    | with_reducible apply onAns_mk
    | with_reducible refine ite_keeps ?_ ?_
    | split

theorem bufStateWrite_keeps {P : State → Prop} (hP : Kept P) {b : Nat} {v : Nat} {s : State} (h0 : P s) :
    P (bufStateWrite b v s).s := bufStateWrite_keeps0 hP h0

theorem bufAllocWrite_keeps0 {P : State → Prop} (hP : Kept P) {b : Nat} {s : State} (_ : P s) :
    onAns P (bufAllocWrite b s) := by
  unfold bufAllocWrite
  split
  · exact onAns_mk ‹_›
  split
  · exact onAns_mk ‹_›
  extract_lets +onlyGivenNames pitch size want l free st always fit fail
  have hf : onAns P fail := ansBusy_keeps0 hP (raise_keeps hP ‹_›)
  clear_value fail fit always st free l want size pitch
  split
  · exact hf
  extract_lets +onlyGivenNames m
  clear_value m
  split
  · exact hf
  refine ansOk_keeps0 hP (bufMove_keeps hP (inc_keeps hP ?_))
  repeat' first
    | with_reducible assumption
    | with_reducible apply wrs_keeps hP
    | with_reducible apply wr_keeps hP
    | with_reducible apply setAllocs_keeps hP
    | split

theorem bufAllocWrite_keeps {P : State → Prop} (hP : Kept P) {b : Nat} {s : State} (h0 : P s) :
    P (bufAllocWrite b s).s := bufAllocWrite_keeps0 hP h0

theorem bufGeomWrite_keeps0 {P : State → Prop} (hP : Kept P) {b : Nat} {key : Nat} {v : Nat} {s : State} (_ : P s) :
    onAns P (bufGeomWrite b key v s) := by
  unfold bufGeomWrite
  repeat' first
    | with_reducible assumption
    | (intro _x)
    | (extract_lets +onlyGivenNames x; refine keep_cut (P := P) (x := x) ?_ ?_; (on_goal 1 => subst x); (on_goal 2 => (intro _h; try clear_value x)))
    | (extract_lets +onlyGivenNames x; refine keep_cut (P := P) (x := x.s) ?_ ?_; (on_goal 1 => subst x); (on_goal 2 => (intro _h; try clear_value x)))
    | (extract_lets +onlyGivenNames x; refine keep_cut (P := P) (x := x.1) ?_ ?_; (on_goal 1 => subst x); (on_goal 2 => (intro _h; try clear_value x)))
    | (extract_lets +onlyGivenNames x; refine keep_cut (P := P) (x := x.2) ?_ ?_; (on_goal 1 => subst x); (on_goal 2 => (intro _h; try clear_value x)))
    | (extract_lets +onlyGivenNames x; try clear_value x)
    | with_reducible refine ite_ans ?_ ?_
    | with_reducible apply wr_keeps hP
    | with_reducible apply ansBusy_keeps hP
    | with_reducible apply ansBusy_keeps0 hP
    | with_reducible apply ansRange_keeps hP
    | with_reducible apply ansRange_keeps0 hP
    | with_reducible apply ansOk_keeps hP
    | with_reducible apply ansOk_keeps0 hP
    | with_reducible apply onAns_mk
    | with_reducible refine ite_keeps ?_ ?_
    | split

theorem bufGeomWrite_keeps {P : State → Prop} (hP : Kept P) {b : Nat} {key : Nat} {v : Nat} {s : State} (h0 : P s) :
    P (bufGeomWrite b key v s).s := bufGeomWrite_keeps0 hP h0

theorem winAdvance_keeps {P : State → Prop} (hP : Kept P) {s : State} {first : Nat} {last : Nat} (_ : P s) :
    P (State.winAdvance s first last) := by
  unfold State.winAdvance
  repeat' first
    | with_reducible assumption
    | (intro _x)
    | (extract_lets +onlyGivenNames x; refine keep_cut (P := P) (x := x) ?_ ?_; (on_goal 1 => subst x); (on_goal 2 => (intro _h; try clear_value x)))
    | (extract_lets +onlyGivenNames x; refine keep_cut (P := P) (x := x.s) ?_ ?_; (on_goal 1 => subst x); (on_goal 2 => (intro _h; try clear_value x)))
    | (extract_lets +onlyGivenNames x; refine keep_cut (P := P) (x := x.1) ?_ ?_; (on_goal 1 => subst x); (on_goal 2 => (intro _h; try clear_value x)))
    | (extract_lets +onlyGivenNames x; refine keep_cut (P := P) (x := x.2) ?_ ?_; (on_goal 1 => subst x); (on_goal 2 => (intro _h; try clear_value x)))
    | (extract_lets +onlyGivenNames x; try clear_value x)
    | with_reducible apply inc_keeps hP
    | with_reducible refine ite_keeps ?_ ?_
    | split

theorem lockEnds_keeps {P : State → Prop} (hP : Kept P) {s : State} {t : Nat} {f : Flight} (_ : P s) :
    P (State.lockEnds s t f) := by
  unfold State.lockEnds
  repeat' first
    | with_reducible assumption
    | (intro _x)
    | (extract_lets +onlyGivenNames x; refine keep_cut (P := P) (x := x) ?_ ?_; (on_goal 1 => subst x); (on_goal 2 => (intro _h; try clear_value x)))
    | (extract_lets +onlyGivenNames x; refine keep_cut (P := P) (x := x.s) ?_ ?_; (on_goal 1 => subst x); (on_goal 2 => (intro _h; try clear_value x)))
    | (extract_lets +onlyGivenNames x; refine keep_cut (P := P) (x := x.1) ?_ ?_; (on_goal 1 => subst x); (on_goal 2 => (intro _h; try clear_value x)))
    | (extract_lets +onlyGivenNames x; refine keep_cut (P := P) (x := x.2) ?_ ?_; (on_goal 1 => subst x); (on_goal 2 => (intro _h; try clear_value x)))
    | (extract_lets +onlyGivenNames x; try clear_value x)
    | with_reducible apply wrs_keeps hP
    | with_reducible apply inc_keeps hP
    | with_reducible refine ite_keeps ?_ ?_
    | split

theorem pcFailure_keeps {P : State → Prop} (hP : Kept P) (hM : KeptMem P) {st : Fin 2} {q : Fin 32} {test : Option Nat} {s : State} (_ : P s) :
    P (pcFailure st q test s) := by
  unfold pcFailure
  repeat' first
    | with_reducible assumption
    | (intro _x)
    | (extract_lets +onlyGivenNames x; refine keep_cut (P := P) (x := x) ?_ ?_; (on_goal 1 => subst x); (on_goal 2 => (intro _h; try clear_value x)))
    | (extract_lets +onlyGivenNames x; refine keep_cut (P := P) (x := x.s) ?_ ?_; (on_goal 1 => subst x); (on_goal 2 => (intro _h; try clear_value x)))
    | (extract_lets +onlyGivenNames x; refine keep_cut (P := P) (x := x.1) ?_ ?_; (on_goal 1 => subst x); (on_goal 2 => (intro _h; try clear_value x)))
    | (extract_lets +onlyGivenNames x; refine keep_cut (P := P) (x := x.2) ?_ ?_; (on_goal 1 => subst x); (on_goal 2 => (intro _h; try clear_value x)))
    | (extract_lets +onlyGivenNames x; try clear_value x)
    | with_reducible apply raise_keeps hP
    | with_reducible apply pcFail_keeps hP hM
    | with_reducible refine ite_keeps ?_ ?_
    | split

theorem burstWaits_keeps {P : State → Prop} (hP : Kept P) {s : State} {t : Nat} {l : List Burst} (_ : P s) :
    P (State.burstWaits s t l) := by
  unfold State.burstWaits
  repeat' first
    | with_reducible assumption
    | (intro _x)
    | (extract_lets +onlyGivenNames x; refine keep_cut (P := P) (x := x) ?_ ?_; (on_goal 1 => subst x); (on_goal 2 => (intro _h; try clear_value x)))
    | (extract_lets +onlyGivenNames x; refine keep_cut (P := P) (x := x.s) ?_ ?_; (on_goal 1 => subst x); (on_goal 2 => (intro _h; try clear_value x)))
    | (extract_lets +onlyGivenNames x; refine keep_cut (P := P) (x := x.1) ?_ ?_; (on_goal 1 => subst x); (on_goal 2 => (intro _h; try clear_value x)))
    | (extract_lets +onlyGivenNames x; refine keep_cut (P := P) (x := x.2) ?_ ?_; (on_goal 1 => subst x); (on_goal 2 => (intro _h; try clear_value x)))
    | (extract_lets +onlyGivenNames x; try clear_value x)
    | with_reducible apply setVec_keeps hP
    | with_reducible refine ite_keeps ?_ ?_
    | split

theorem writeBeats_keeps {P : State → Prop} (hP : Kept P) (hM : KeptMem P) {s : State} {a : Nat} {l : List (Nat × List Nat)} {n : Nat}
    (h : P s) : P (s.writeBeats a l n) := by
  induction l generalizing s a n with
  | nil => cases n <;> exact h
  | cons b t ih =>
    cases n with
    | zero => exact h
    | succ n =>
      refine ih (fold_keeps h (fun u i hu => ?_))
      split
      · exact fsWrite_keeps hP hM hu
      · exact hu

theorem errLog_keeps {P : State → Prop} (hP : Kept P) {s : State} {m : Nat} {t : Nat} {code : Nat} {written : Nat} {beats : Nat} {a : Nat} (_ : P s) :
    P (State.errLog s m t code written beats a) := by
  unfold State.errLog
  repeat' first
    | with_reducible assumption
    | (intro _x)
    | (extract_lets +onlyGivenNames x; refine keep_cut (P := P) (x := x) ?_ ?_; (on_goal 1 => subst x); (on_goal 2 => (intro _h; try clear_value x)))
    | (extract_lets +onlyGivenNames x; refine keep_cut (P := P) (x := x.s) ?_ ?_; (on_goal 1 => subst x); (on_goal 2 => (intro _h; try clear_value x)))
    | (extract_lets +onlyGivenNames x; refine keep_cut (P := P) (x := x.1) ?_ ?_; (on_goal 1 => subst x); (on_goal 2 => (intro _h; try clear_value x)))
    | (extract_lets +onlyGivenNames x; refine keep_cut (P := P) (x := x.2) ?_ ?_; (on_goal 1 => subst x); (on_goal 2 => (intro _h; try clear_value x)))
    | (extract_lets +onlyGivenNames x; try clear_value x)
    | with_reducible apply wr_keeps hP
    | with_reducible apply inc_keeps hP
    | with_reducible refine ite_keeps ?_ ?_
    | split

theorem drain_keeps {P : State → Prop} (hP : Kept P) (hM : KeptMem P) {s : State} {m : Nat} {accepted : List Nat} (_ : P s) :
    P (State.drain s m accepted) := by
  unfold State.drain
  dsimp only
  repeat' first
    | with_reducible assumption
    | with_reducible apply raise_keeps hP
    | with_reducible apply wrs_keeps hP
    | with_reducible apply fold_keeps
    | with_reducible apply fold_fst_keeps
    | with_reducible apply writeBeats_keeps hP hM
    | with_reducible apply incSat_keeps hP
    | with_reducible apply errLog_keeps hP
    | with_reducible apply unlock_keeps hP
    | (intro _x)
    | with_reducible refine ite_keeps ?_ ?_
    | split
    | with_reducible apply hP.bursts

theorem bufRetire_keeps {P : State → Prop} (hP : Kept P) {s : State} {b : Nat} (_ : P s) :
    P (State.bufRetire s b) := by
  unfold State.bufRetire
  repeat' first
    | with_reducible assumption
    | (intro _x)
    | (extract_lets +onlyGivenNames x; refine keep_cut (P := P) (x := x) ?_ ?_; (on_goal 1 => subst x); (on_goal 2 => (intro _h; try clear_value x)))
    | (extract_lets +onlyGivenNames x; refine keep_cut (P := P) (x := x.s) ?_ ?_; (on_goal 1 => subst x); (on_goal 2 => (intro _h; try clear_value x)))
    | (extract_lets +onlyGivenNames x; refine keep_cut (P := P) (x := x.1) ?_ ?_; (on_goal 1 => subst x); (on_goal 2 => (intro _h; try clear_value x)))
    | (extract_lets +onlyGivenNames x; refine keep_cut (P := P) (x := x.2) ?_ ?_; (on_goal 1 => subst x); (on_goal 2 => (intro _h; try clear_value x)))
    | (extract_lets +onlyGivenNames x; try clear_value x)
    | with_reducible apply wr_keeps hP
    | with_reducible apply raise_keeps hP
    | with_reducible apply bufMove_keeps hP
    | with_reducible refine ite_keeps ?_ ?_
    | split

theorem bucketTake_keeps {P : State → Prop} (hP : Kept P) {s : State} {b : Burst} (_ : P s) :
    P (State.bucketTake s b) := by
  unfold State.bucketTake
  repeat' first
    | with_reducible assumption
    | (intro _x)
    | (extract_lets +onlyGivenNames x; refine keep_cut (P := P) (x := x) ?_ ?_; (on_goal 1 => subst x); (on_goal 2 => (intro _h; try clear_value x)))
    | (extract_lets +onlyGivenNames x; refine keep_cut (P := P) (x := x.s) ?_ ?_; (on_goal 1 => subst x); (on_goal 2 => (intro _h; try clear_value x)))
    | (extract_lets +onlyGivenNames x; refine keep_cut (P := P) (x := x.1) ?_ ?_; (on_goal 1 => subst x); (on_goal 2 => (intro _h; try clear_value x)))
    | (extract_lets +onlyGivenNames x; refine keep_cut (P := P) (x := x.2) ?_ ?_; (on_goal 1 => subst x); (on_goal 2 => (intro _h; try clear_value x)))
    | (extract_lets +onlyGivenNames x; try clear_value x)
    | with_reducible apply up_keeps hP
    | with_reducible refine ite_keeps ?_ ?_
    | split

theorem eccGood_keeps {P : State → Prop} (hP : Kept P) {s : State} {a : Nat} (_ : P s) :
    P (State.eccGood s a) := by
  unfold State.eccGood
  repeat' first
    | with_reducible assumption
    | (intro _x)
    | (extract_lets +onlyGivenNames x; refine keep_cut (P := P) (x := x) ?_ ?_; (on_goal 1 => subst x); (on_goal 2 => (intro _h; try clear_value x)))
    | (extract_lets +onlyGivenNames x; refine keep_cut (P := P) (x := x.s) ?_ ?_; (on_goal 1 => subst x); (on_goal 2 => (intro _h; try clear_value x)))
    | (extract_lets +onlyGivenNames x; refine keep_cut (P := P) (x := x.1) ?_ ?_; (on_goal 1 => subst x); (on_goal 2 => (intro _h; try clear_value x)))
    | (extract_lets +onlyGivenNames x; refine keep_cut (P := P) (x := x.2) ?_ ?_; (on_goal 1 => subst x); (on_goal 2 => (intro _h; try clear_value x)))
    | (extract_lets +onlyGivenNames x; try clear_value x)
    | with_reducible apply setVec_keeps hP
    | with_reducible refine ite_keeps ?_ ?_
    | split

theorem pcError_keeps {P : State → Prop} (hP : Kept P) (hM : KeptMem P) {s : State} {st : Nat} {sl : Nat} (_ : P s) :
    P (State.pcError s st sl) := by
  unfold State.pcError
  repeat' first
    | with_reducible assumption
    | (intro _x)
    | (extract_lets +onlyGivenNames x; refine keep_cut (P := P) (x := x) ?_ ?_; (on_goal 1 => subst x); (on_goal 2 => (intro _h; try clear_value x)))
    | (extract_lets +onlyGivenNames x; refine keep_cut (P := P) (x := x.s) ?_ ?_; (on_goal 1 => subst x); (on_goal 2 => (intro _h; try clear_value x)))
    | (extract_lets +onlyGivenNames x; refine keep_cut (P := P) (x := x.1) ?_ ?_; (on_goal 1 => subst x); (on_goal 2 => (intro _h; try clear_value x)))
    | (extract_lets +onlyGivenNames x; refine keep_cut (P := P) (x := x.2) ?_ ?_; (on_goal 1 => subst x); (on_goal 2 => (intro _h; try clear_value x)))
    | (extract_lets +onlyGivenNames x; try clear_value x)
    | with_reducible apply setVec_keeps hP
    | with_reducible apply pcFail_keeps hP hM
    | with_reducible refine ite_keeps ?_ ?_
    | split

theorem eccRead_keeps0 {P : State → Prop} (hP : Kept P) (hM : KeptMem P) {s : State} {m : Nat} {a : Nat} {ecc : Nat} (_ : P s) :
    onFst P (State.eccRead s m a ecc) := by
  unfold State.eccRead
  repeat' first
    | with_reducible assumption
    | (intro _x)
    | (extract_lets +onlyGivenNames x; refine keep_cut (P := P) (x := x) ?_ ?_; (on_goal 1 => subst x); (on_goal 2 => (intro _h; try clear_value x)))
    | (extract_lets +onlyGivenNames x; refine keep_cut (P := P) (x := x.s) ?_ ?_; (on_goal 1 => subst x); (on_goal 2 => (intro _h; try clear_value x)))
    | (extract_lets +onlyGivenNames x; refine keep_cut (P := P) (x := x.1) ?_ ?_; (on_goal 1 => subst x); (on_goal 2 => (intro _h; try clear_value x)))
    | (extract_lets +onlyGivenNames x; refine keep_cut (P := P) (x := x.2) ?_ ?_; (on_goal 1 => subst x); (on_goal 2 => (intro _h; try clear_value x)))
    | (extract_lets +onlyGivenNames x; try clear_value x)
    | with_reducible refine ite_fst ?_ ?_
    | with_reducible apply setVec_keeps hP
    | with_reducible apply raise_keeps hP
    | with_reducible apply raiseLim_keeps hP
    | with_reducible apply inc_keeps hP
    | with_reducible apply eccGood_keeps hP
    | with_reducible apply pcError_keeps hP hM
    | with_reducible apply damage_keeps hP
    | with_reducible apply onFst_mk
    | with_reducible refine ite_keeps ?_ ?_
    | split

theorem eccRead_keeps {P : State → Prop} (hP : Kept P) (hM : KeptMem P) {s : State} {m : Nat} {a : Nat} {ecc : Nat} (h0 : P s) :
    P (State.eccRead s m a ecc).1 := eccRead_keeps0 hP hM h0

theorem retireAll_keeps {P : State → Prop} (hP : Kept P) {s : State} (_ : P s) :
    P (State.retireAll s) := by
  unfold State.retireAll
  repeat' first
    | with_reducible assumption
    | (intro _x)
    | (extract_lets +onlyGivenNames x; refine keep_cut (P := P) (x := x) ?_ ?_; (on_goal 1 => subst x); (on_goal 2 => (intro _h; try clear_value x)))
    | (extract_lets +onlyGivenNames x; refine keep_cut (P := P) (x := x.s) ?_ ?_; (on_goal 1 => subst x); (on_goal 2 => (intro _h; try clear_value x)))
    | (extract_lets +onlyGivenNames x; refine keep_cut (P := P) (x := x.1) ?_ ?_; (on_goal 1 => subst x); (on_goal 2 => (intro _h; try clear_value x)))
    | (extract_lets +onlyGivenNames x; refine keep_cut (P := P) (x := x.2) ?_ ?_; (on_goal 1 => subst x); (on_goal 2 => (intro _h; try clear_value x)))
    | (extract_lets +onlyGivenNames x; try clear_value x)
    | with_reducible apply setVec_keeps hP
    | with_reducible apply fold_keeps
    | with_reducible apply fold_fst_keeps
    | with_reducible apply bufRetire_keeps hP
    | with_reducible refine ite_keeps ?_ ?_
    | split

theorem mirrorSynced'_keeps {P : State → Prop} (hP : Kept P) (hM : KeptMem P) {id : Nat} {s : State} (_ : P s) :
    onOut P (mirrorSynced' id s) := by
  unfold mirrorSynced'
  repeat' first
    | with_reducible assumption
    | (intro _x)
    | (extract_lets +onlyGivenNames x; refine keep_cut (P := P) (x := x) ?_ ?_; (on_goal 1 => subst x); (on_goal 2 => (intro _h; try clear_value x)))
    | (extract_lets +onlyGivenNames x; refine keep_cut (P := P) (x := x.s) ?_ ?_; (on_goal 1 => subst x); (on_goal 2 => (intro _h; try clear_value x)))
    | (extract_lets +onlyGivenNames x; refine keep_cut (P := P) (x := x.1) ?_ ?_; (on_goal 1 => subst x); (on_goal 2 => (intro _h; try clear_value x)))
    | (extract_lets +onlyGivenNames x; refine keep_cut (P := P) (x := x.2) ?_ ?_; (on_goal 1 => subst x); (on_goal 2 => (intro _h; try clear_value x)))
    | (extract_lets +onlyGivenNames x; try clear_value x)
    | with_reducible refine ite_out ?_ ?_
    | with_reducible apply wr_keeps hP
    | with_reducible apply raise_keeps hP
    | with_reducible apply wrMems_keeps hP hM
    | with_reducible apply onOut_next
    | with_reducible refine ite_keeps ?_ ?_
    | split

theorem pcRebuilt_keeps {P : State → Prop} (hP : Kept P) {st : Fin 2} {sl : Fin 31} {s : State} (_ : P s) :
    P (pcRebuilt st sl s) := by
  unfold pcRebuilt
  repeat' first
    | with_reducible assumption
    | (intro _x)
    | (extract_lets +onlyGivenNames x; refine keep_cut (P := P) (x := x) ?_ ?_; (on_goal 1 => subst x); (on_goal 2 => (intro _h; try clear_value x)))
    | (extract_lets +onlyGivenNames x; refine keep_cut (P := P) (x := x.s) ?_ ?_; (on_goal 1 => subst x); (on_goal 2 => (intro _h; try clear_value x)))
    | (extract_lets +onlyGivenNames x; refine keep_cut (P := P) (x := x.1) ?_ ?_; (on_goal 1 => subst x); (on_goal 2 => (intro _h; try clear_value x)))
    | (extract_lets +onlyGivenNames x; refine keep_cut (P := P) (x := x.2) ?_ ?_; (on_goal 1 => subst x); (on_goal 2 => (intro _h; try clear_value x)))
    | (extract_lets +onlyGivenNames x; try clear_value x)
    | with_reducible apply wr_keeps hP
    | with_reducible apply raise_keeps hP
    | with_reducible apply fold_keeps
    | with_reducible apply fold_fst_keeps
    | with_reducible refine ite_keeps ?_ ?_
    | split

theorem addressPhase_keeps0 {P : State → Prop} (hP : Kept P) {s : State} {t : Nat} {b : Burst} (_ : P s) :
    onFst P (State.addressPhase s t b) := by
  unfold State.addressPhase
  repeat' first
    | with_reducible assumption
    | (intro _x)
    | (extract_lets +onlyGivenNames x; refine keep_cut (P := P) (x := x) ?_ ?_; (on_goal 1 => subst x); (on_goal 2 => (intro _h; try clear_value x)))
    | (extract_lets +onlyGivenNames x; refine keep_cut (P := P) (x := x.s) ?_ ?_; (on_goal 1 => subst x); (on_goal 2 => (intro _h; try clear_value x)))
    | (extract_lets +onlyGivenNames x; refine keep_cut (P := P) (x := x.1) ?_ ?_; (on_goal 1 => subst x); (on_goal 2 => (intro _h; try clear_value x)))
    | (extract_lets +onlyGivenNames x; refine keep_cut (P := P) (x := x.2) ?_ ?_; (on_goal 1 => subst x); (on_goal 2 => (intro _h; try clear_value x)))
    | (extract_lets +onlyGivenNames x; try clear_value x)
    | with_reducible refine ite_fst ?_ ?_
    | with_reducible apply wr_keeps hP
    | with_reducible apply wrs_keeps hP
    | with_reducible apply inc_keeps hP
    | with_reducible apply guarded_keeps hP
    | with_reducible apply guarded_keeps0 hP
    | with_reducible apply onFst_mk
    | with_reducible refine ite_keeps ?_ ?_
    | split

theorem addressPhase_keeps {P : State → Prop} (hP : Kept P) {s : State} {t : Nat} {b : Burst} (h0 : P s) :
    P (State.addressPhase s t b).1 := addressPhase_keeps0 hP h0

theorem eccReads_keeps0 {P : State → Prop} (hP : Kept P) (hM : KeptMem P) {s : State} {m : Nat} {l ecc : List Nat} (h : P s) :
    onFst P (s.eccReads m l ecc) := by
  induction l generalizing s ecc with
  | nil => exact h
  | cons a t ih => exact ih (eccRead_keeps hP hM h)

theorem eccReads_keeps {P : State → Prop} (hP : Kept P) (hM : KeptMem P) {s : State} {m : Nat} {l ecc : List Nat} (h : P s) :
    P (s.eccReads m l ecc).1 := eccReads_keeps0 hP hM h

theorem execScrub_keeps {P : State → Prop} (hP : Kept P) (hM : KeptMem P) {st : Fin 2} {off : Nat} {ecc : Nat} {s : State} (_ : P s) :
    onOut P (execScrub st off ecc s) := by
  unfold execScrub
  dsimp only
  repeat' first
    | with_reducible assumption
    | with_reducible apply wr_keeps hP
    | with_reducible apply eccRead_keeps hP hM
    | with_reducible apply eccRead_keeps0 hP hM
    | with_reducible apply onOut_next
    | (intro _x)
    | with_reducible refine ite_keeps ?_ ?_
    | split

theorem portClose_keeps {P : State → Prop} (hP : Kept P) {s : State} {m : Nat} (_ : P s) :
    P (State.portClose s m) := by
  unfold State.portClose
  repeat' first
    | with_reducible assumption
    | (intro _x)
    | (extract_lets +onlyGivenNames x; refine keep_cut (P := P) (x := x) ?_ ?_; (on_goal 1 => subst x); (on_goal 2 => (intro _h; try clear_value x)))
    | (extract_lets +onlyGivenNames x; refine keep_cut (P := P) (x := x.s) ?_ ?_; (on_goal 1 => subst x); (on_goal 2 => (intro _h; try clear_value x)))
    | (extract_lets +onlyGivenNames x; refine keep_cut (P := P) (x := x.1) ?_ ?_; (on_goal 1 => subst x); (on_goal 2 => (intro _h; try clear_value x)))
    | (extract_lets +onlyGivenNames x; refine keep_cut (P := P) (x := x.2) ?_ ?_; (on_goal 1 => subst x); (on_goal 2 => (intro _h; try clear_value x)))
    | (extract_lets +onlyGivenNames x; try clear_value x)
    | with_reducible apply wr_keeps hP
    | with_reducible apply up_keeps hP
    | with_reducible refine ite_keeps ?_ ?_
    | split

theorem portGrant_keeps {P : State → Prop} (hP : Kept P) {s : State} {m : Nat} (_ : P s) :
    P (State.portGrant s m) := by
  unfold State.portGrant
  repeat' first
    | with_reducible assumption
    | (intro _x)
    | (extract_lets +onlyGivenNames x; refine keep_cut (P := P) (x := x) ?_ ?_; (on_goal 1 => subst x); (on_goal 2 => (intro _h; try clear_value x)))
    | (extract_lets +onlyGivenNames x; refine keep_cut (P := P) (x := x.s) ?_ ?_; (on_goal 1 => subst x); (on_goal 2 => (intro _h; try clear_value x)))
    | (extract_lets +onlyGivenNames x; refine keep_cut (P := P) (x := x.1) ?_ ?_; (on_goal 1 => subst x); (on_goal 2 => (intro _h; try clear_value x)))
    | (extract_lets +onlyGivenNames x; refine keep_cut (P := P) (x := x.2) ?_ ?_; (on_goal 1 => subst x); (on_goal 2 => (intro _h; try clear_value x)))
    | (extract_lets +onlyGivenNames x; try clear_value x)
    | with_reducible apply wr_keeps hP
    | with_reducible apply inc_keeps hP
    | with_reducible refine ite_keeps ?_ ?_
    | split

theorem execBurstCompletion_keeps {P : State → Prop} (hP : Kept P) (hM : KeptMem P) {t : Nat} {ecc : List Nat} {s : State} (_ : P s) :
    onOut P (execBurstCompletion t ecc s) := by
  unfold execBurstCompletion
  split
  · exact ‹P s›
  rename_i f _
  extract_lets +onlyGivenNames s1 n r s2 code s3 s4 s5
  refine keep_cut (P := P) (x := s1) (lockEnds_keeps hP (portClose_keeps hP (hP.bursts _ _ ‹P s›))) (fun h1 => ?_)
  clear_value s1
  refine keep_cut (P := P) (x := s2) ?_ (fun h2 => ?_)
  · subst s2 r
    split
    · exact eccReads_keeps hP hM h1
    · exact h1
  clear_value code s2 r n
  refine keep_cut (P := P) (x := s3) ?_ (fun h3 => ?_)
  · subst s3
    split
    · split
      · exact writeBeats_keeps hP hM h2
      · exact setVec_keeps hP h2
    · split
      · exact h2
      · exact setVec_keeps hP h2
  clear_value s3
  refine keep_cut (P := P) (x := s4) ?_ (fun h4 => ?_)
  · subst s4
    split
    · exact damage_keeps hP h3
    · exact h3
  clear_value s4
  refine keep_cut (P := P) (x := s5) ?_ (fun h5 => ?_)
  · subst s5
    split
    · exact h4
    · exact errLog_keeps hP h4
  clear_value s5
  refine onOut_next ?_
  split
  · exact raise_keeps hP (incSat_keeps hP h5)
  · exact h5

theorem execBurstGrant_keeps {P : State → Prop} (hP : Kept P) {t : Nat} {waiting : List Burst} {s : State} (_ : P s) :
    onOut P (execBurstGrant t waiting s) := by
  unfold execBurstGrant
  repeat' first
    | with_reducible assumption
    | (intro _x)
    | (extract_lets +onlyGivenNames x; refine keep_cut (P := P) (x := x) ?_ ?_; (on_goal 1 => subst x); (on_goal 2 => (intro _h; try clear_value x)))
    | (extract_lets +onlyGivenNames x; refine keep_cut (P := P) (x := x.s) ?_ ?_; (on_goal 1 => subst x); (on_goal 2 => (intro _h; try clear_value x)))
    | (extract_lets +onlyGivenNames x; refine keep_cut (P := P) (x := x.1) ?_ ?_; (on_goal 1 => subst x); (on_goal 2 => (intro _h; try clear_value x)))
    | (extract_lets +onlyGivenNames x; refine keep_cut (P := P) (x := x.2) ?_ ?_; (on_goal 1 => subst x); (on_goal 2 => (intro _h; try clear_value x)))
    | (extract_lets +onlyGivenNames x; try clear_value x)
    | with_reducible refine ite_out ?_ ?_
    | with_reducible apply wr_keeps hP
    | with_reducible apply burstWaits_keeps hP
    | with_reducible apply addressPhase_keeps hP
    | with_reducible apply addressPhase_keeps0 hP
    | with_reducible apply bucketTake_keeps hP
    | with_reducible apply portGrant_keeps hP
    | with_reducible apply onOut_next
    | with_reducible refine ite_keeps ?_ ?_
    | split
    | with_reducible apply hP.bursts

theorem execLockTimeout_keeps {P : State → Prop} (hP : Kept P) {t : Nat} {s : State} (_ : P s) :
    onOut P (execLockTimeout t s) := by
  unfold execLockTimeout
  repeat' first
    | with_reducible assumption
    | (intro _x)
    | (extract_lets +onlyGivenNames x; refine keep_cut (P := P) (x := x) ?_ ?_; (on_goal 1 => subst x); (on_goal 2 => (intro _h; try clear_value x)))
    | (extract_lets +onlyGivenNames x; refine keep_cut (P := P) (x := x.s) ?_ ?_; (on_goal 1 => subst x); (on_goal 2 => (intro _h; try clear_value x)))
    | (extract_lets +onlyGivenNames x; refine keep_cut (P := P) (x := x.1) ?_ ?_; (on_goal 1 => subst x); (on_goal 2 => (intro _h; try clear_value x)))
    | (extract_lets +onlyGivenNames x; refine keep_cut (P := P) (x := x.2) ?_ ?_; (on_goal 1 => subst x); (on_goal 2 => (intro _h; try clear_value x)))
    | (extract_lets +onlyGivenNames x; try clear_value x)
    | with_reducible refine ite_out ?_ ?_
    | with_reducible apply raise_keeps hP
    | with_reducible apply wrs_keeps hP
    | with_reducible apply incSat_keeps hP
    | with_reducible apply onOut_next
    | with_reducible refine ite_keeps ?_ ?_
    | split

end Sys2Proof.Machine
end

