-- ==== Sys2Proof/Laws/KeepsCanvas.lean ====
section
/-! SUPPORT. What the operations of Machine/Canvas.lean keep. -/
set_option linter.all false
set_option maxRecDepth 8000
namespace Sys2Proof.Machine

theorem writeBack_keeps {P : State → Prop} (hP : Kept P) (hM : KeptMem P) {s : State} {e : Nat} {b : Nat} (_ : P s) :
    P (State.writeBack s e b) := by
  unfold State.writeBack
  repeat' first
    | with_reducible assumption
    | (intro _x)
    | (extract_lets +onlyGivenNames x; refine keep_cut (P := P) (x := x) ?_ ?_; (on_goal 1 => subst x); (on_goal 2 => (intro _h; try clear_value x)))
    | (extract_lets +onlyGivenNames x; refine keep_cut (P := P) (x := x.s) ?_ ?_; (on_goal 1 => subst x); (on_goal 2 => (intro _h; try clear_value x)))
    | (extract_lets +onlyGivenNames x; refine keep_cut (P := P) (x := x.1) ?_ ?_; (on_goal 1 => subst x); (on_goal 2 => (intro _h; try clear_value x)))
    | (extract_lets +onlyGivenNames x; refine keep_cut (P := P) (x := x.2) ?_ ?_; (on_goal 1 => subst x); (on_goal 2 => (intro _h; try clear_value x)))
    | (extract_lets +onlyGivenNames x; try clear_value x)
    | with_reducible apply upto_keeps
    | with_reducible apply fsWrites_keeps hP hM
    | with_reducible refine ite_keeps ?_ ?_
    | split

end Sys2Proof.Machine
end

