-- ==== Sys2Proof/Laws/KeepsFrc.lean ====
section
/-! SUPPORT. What the operations of Machine/Frc.lean keep. -/
set_option linter.all false
set_option maxRecDepth 8000
namespace Sys2Proof.Machine

theorem frcMove_keeps {P : State → Prop} (hP : Kept P) {s : State} {f : Nat} {k : Nat} {new : Nat} (_ : P s) :
    P (State.frcMove s f k new) := by
  unfold State.frcMove
  repeat' first
    | with_reducible assumption
    | (intro _x)
    | (extract_lets +onlyGivenNames x; refine keep_cut (P := P) (x := x) ?_ ?_; (on_goal 1 => subst x); (on_goal 2 => (intro _h; try clear_value x)))
    | (extract_lets +onlyGivenNames x; refine keep_cut (P := P) (x := x.s) ?_ ?_; (on_goal 1 => subst x); (on_goal 2 => (intro _h; try clear_value x)))
    | (extract_lets +onlyGivenNames x; refine keep_cut (P := P) (x := x.1) ?_ ?_; (on_goal 1 => subst x); (on_goal 2 => (intro _h; try clear_value x)))
    | (extract_lets +onlyGivenNames x; refine keep_cut (P := P) (x := x.2) ?_ ?_; (on_goal 1 => subst x); (on_goal 2 => (intro _h; try clear_value x)))
    | (extract_lets +onlyGivenNames x; try clear_value x)
    | with_reducible apply wr_keeps hP
    | with_reducible apply raise_keeps hP
    | with_reducible refine ite_keeps ?_ ?_
    | split

theorem frcLose_keeps {P : State → Prop} (hP : Kept P) {s : State} {f : Nat} {k : Nat} {cause : Nat} (_ : P s) :
    P (State.frcLose s f k cause) := by
  unfold State.frcLose
  repeat' first
    | with_reducible assumption
    | (intro _x)
    | (extract_lets +onlyGivenNames x; refine keep_cut (P := P) (x := x) ?_ ?_; (on_goal 1 => subst x); (on_goal 2 => (intro _h; try clear_value x)))
    | (extract_lets +onlyGivenNames x; refine keep_cut (P := P) (x := x.s) ?_ ?_; (on_goal 1 => subst x); (on_goal 2 => (intro _h; try clear_value x)))
    | (extract_lets +onlyGivenNames x; refine keep_cut (P := P) (x := x.1) ?_ ?_; (on_goal 1 => subst x); (on_goal 2 => (intro _h; try clear_value x)))
    | (extract_lets +onlyGivenNames x; refine keep_cut (P := P) (x := x.2) ?_ ?_; (on_goal 1 => subst x); (on_goal 2 => (intro _h; try clear_value x)))
    | (extract_lets +onlyGivenNames x; try clear_value x)
    | with_reducible apply raise_keeps hP
    | with_reducible apply wrs_keeps hP
    | with_reducible apply frcMove_keeps hP
    | with_reducible refine ite_keeps ?_ ?_
    | split

theorem setHeld_keeps {P : State → Prop} (hP : Kept P) {s : State} {x : Nat} {l : List Held} (_ : P s) :
    P (State.setHeld s x l) := by
  unfold State.setHeld
  repeat' first
    | with_reducible assumption
    | (intro _x)
    | (extract_lets +onlyGivenNames x; refine keep_cut (P := P) (x := x) ?_ ?_; (on_goal 1 => subst x); (on_goal 2 => (intro _h; try clear_value x)))
    | (extract_lets +onlyGivenNames x; refine keep_cut (P := P) (x := x.s) ?_ ?_; (on_goal 1 => subst x); (on_goal 2 => (intro _h; try clear_value x)))
    | (extract_lets +onlyGivenNames x; refine keep_cut (P := P) (x := x.1) ?_ ?_; (on_goal 1 => subst x); (on_goal 2 => (intro _h; try clear_value x)))
    | (extract_lets +onlyGivenNames x; refine keep_cut (P := P) (x := x.2) ?_ ?_; (on_goal 1 => subst x); (on_goal 2 => (intro _h; try clear_value x)))
    | (extract_lets +onlyGivenNames x; try clear_value x)
    | with_reducible apply setVec_keeps hP
    | with_reducible refine ite_keeps ?_ ?_
    | split

theorem frcPrime_keeps {P : State → Prop} (hP : Kept P) {s : State} {f : Nat} {k : Nat} (_ : P s) :
    P (State.frcPrime s f k) := by
  unfold State.frcPrime
  repeat' first
    | with_reducible assumption
    | (intro _x)
    | (extract_lets +onlyGivenNames x; refine keep_cut (P := P) (x := x) ?_ ?_; (on_goal 1 => subst x); (on_goal 2 => (intro _h; try clear_value x)))
    | (extract_lets +onlyGivenNames x; refine keep_cut (P := P) (x := x.s) ?_ ?_; (on_goal 1 => subst x); (on_goal 2 => (intro _h; try clear_value x)))
    | (extract_lets +onlyGivenNames x; refine keep_cut (P := P) (x := x.1) ?_ ?_; (on_goal 1 => subst x); (on_goal 2 => (intro _h; try clear_value x)))
    | (extract_lets +onlyGivenNames x; refine keep_cut (P := P) (x := x.2) ?_ ?_; (on_goal 1 => subst x); (on_goal 2 => (intro _h; try clear_value x)))
    | (extract_lets +onlyGivenNames x; try clear_value x)
    | with_reducible apply wr_keeps hP
    | with_reducible apply setVec_keeps hP
    | with_reducible apply wrs_keeps hP
    | with_reducible apply setHeld_keeps hP
    | with_reducible apply frcMove_keeps hP
    | with_reducible refine ite_keeps ?_ ?_
    | split

theorem frcLossFrame_keeps {P : State → Prop} (hP : Kept P) {s : State} {f : Nat} {k : Nat} (_ : P s) :
    P (State.frcLossFrame s f k) := by
  unfold State.frcLossFrame
  repeat' first
    | with_reducible assumption
    | (intro _x)
    | (extract_lets +onlyGivenNames x; refine keep_cut (P := P) (x := x) ?_ ?_; (on_goal 1 => subst x); (on_goal 2 => (intro _h; try clear_value x)))
    | (extract_lets +onlyGivenNames x; refine keep_cut (P := P) (x := x.s) ?_ ?_; (on_goal 1 => subst x); (on_goal 2 => (intro _h; try clear_value x)))
    | (extract_lets +onlyGivenNames x; refine keep_cut (P := P) (x := x.1) ?_ ?_; (on_goal 1 => subst x); (on_goal 2 => (intro _h; try clear_value x)))
    | (extract_lets +onlyGivenNames x; refine keep_cut (P := P) (x := x.2) ?_ ?_; (on_goal 1 => subst x); (on_goal 2 => (intro _h; try clear_value x)))
    | (extract_lets +onlyGivenNames x; try clear_value x)
    | with_reducible apply wr_keeps hP
    | with_reducible apply wrs_keeps hP
    | with_reducible apply count_keeps hP
    | with_reducible apply inc_keeps hP
    | with_reducible refine ite_keeps ?_ ?_
    | split

theorem frcRecover_keeps {P : State → Prop} (hP : Kept P) {s : State} {f : Nat} {k : Nat} {cause : Nat} (_ : P s) :
    P (State.frcRecover s f k cause) := by
  unfold State.frcRecover
  repeat' first
    | with_reducible assumption
    | (intro _x)
    | (extract_lets +onlyGivenNames x; refine keep_cut (P := P) (x := x) ?_ ?_; (on_goal 1 => subst x); (on_goal 2 => (intro _h; try clear_value x)))
    | (extract_lets +onlyGivenNames x; refine keep_cut (P := P) (x := x.s) ?_ ?_; (on_goal 1 => subst x); (on_goal 2 => (intro _h; try clear_value x)))
    | (extract_lets +onlyGivenNames x; refine keep_cut (P := P) (x := x.1) ?_ ?_; (on_goal 1 => subst x); (on_goal 2 => (intro _h; try clear_value x)))
    | (extract_lets +onlyGivenNames x; refine keep_cut (P := P) (x := x.2) ?_ ?_; (on_goal 1 => subst x); (on_goal 2 => (intro _h; try clear_value x)))
    | (extract_lets +onlyGivenNames x; try clear_value x)
    | with_reducible apply wr_keeps hP
    | with_reducible apply raise_keeps hP
    | with_reducible refine ite_keeps ?_ ?_
    | split

theorem frcStream_keeps {P : State → Prop} (hP : Kept P) {s : State} {f : Nat} {k : Nat} {to' : Nat} (_ : P s) :
    P (State.frcStream s f k to') := by
  unfold State.frcStream
  repeat' first
    | with_reducible assumption
    | (intro _x)
    | (extract_lets +onlyGivenNames x; refine keep_cut (P := P) (x := x) ?_ ?_; (on_goal 1 => subst x); (on_goal 2 => (intro _h; try clear_value x)))
    | (extract_lets +onlyGivenNames x; refine keep_cut (P := P) (x := x.s) ?_ ?_; (on_goal 1 => subst x); (on_goal 2 => (intro _h; try clear_value x)))
    | (extract_lets +onlyGivenNames x; refine keep_cut (P := P) (x := x.1) ?_ ?_; (on_goal 1 => subst x); (on_goal 2 => (intro _h; try clear_value x)))
    | (extract_lets +onlyGivenNames x; refine keep_cut (P := P) (x := x.2) ?_ ?_; (on_goal 1 => subst x); (on_goal 2 => (intro _h; try clear_value x)))
    | (extract_lets +onlyGivenNames x; try clear_value x)
    | with_reducible apply wr_keeps hP
    | with_reducible apply raise_keeps hP
    | with_reducible apply wrs_keeps hP
    | with_reducible apply count_keeps hP
    | with_reducible apply frcPrime_keeps hP
    | with_reducible apply frcLossFrame_keeps hP
    | with_reducible apply frcLose_keeps hP
    | with_reducible apply frcRecover_keeps hP
    | with_reducible apply frcMove_keeps hP
    | with_reducible apply up_keeps hP
    | with_reducible apply raiseLim_keeps hP
    | with_reducible refine ite_keeps ?_ ?_
    | split

theorem frcFix_keeps {P : State → Prop} (hP : Kept P) {s : State} {f : Nat} {k : Nat} (_ : P s) :
    P (State.frcFix s f k) := by
  unfold State.frcFix
  repeat' first
    | with_reducible assumption
    | (intro _x)
    | (extract_lets +onlyGivenNames x; refine keep_cut (P := P) (x := x) ?_ ?_; (on_goal 1 => subst x); (on_goal 2 => (intro _h; try clear_value x)))
    | (extract_lets +onlyGivenNames x; refine keep_cut (P := P) (x := x.s) ?_ ?_; (on_goal 1 => subst x); (on_goal 2 => (intro _h; try clear_value x)))
    | (extract_lets +onlyGivenNames x; refine keep_cut (P := P) (x := x.1) ?_ ?_; (on_goal 1 => subst x); (on_goal 2 => (intro _h; try clear_value x)))
    | (extract_lets +onlyGivenNames x; refine keep_cut (P := P) (x := x.2) ?_ ?_; (on_goal 1 => subst x); (on_goal 2 => (intro _h; try clear_value x)))
    | (extract_lets +onlyGivenNames x; try clear_value x)
    | with_reducible apply wr_keeps hP
    | with_reducible refine ite_keeps ?_ ?_
    | split

theorem frcStart_keeps {P : State → Prop} (hP : Kept P) {s : State} {f : Nat} (_ : P s) :
    P (State.frcStart s f) := by
  unfold State.frcStart
  repeat' first
    | with_reducible assumption
    | (intro _x)
    | (extract_lets +onlyGivenNames x; refine keep_cut (P := P) (x := x) ?_ ?_; (on_goal 1 => subst x); (on_goal 2 => (intro _h; try clear_value x)))
    | (extract_lets +onlyGivenNames x; refine keep_cut (P := P) (x := x.s) ?_ ?_; (on_goal 1 => subst x); (on_goal 2 => (intro _h; try clear_value x)))
    | (extract_lets +onlyGivenNames x; refine keep_cut (P := P) (x := x.1) ?_ ?_; (on_goal 1 => subst x); (on_goal 2 => (intro _h; try clear_value x)))
    | (extract_lets +onlyGivenNames x; refine keep_cut (P := P) (x := x.2) ?_ ?_; (on_goal 1 => subst x); (on_goal 2 => (intro _h; try clear_value x)))
    | (extract_lets +onlyGivenNames x; try clear_value x)
    | with_reducible apply upto_keeps
    | with_reducible apply frcPrime_keeps hP
    | with_reducible apply frcFix_keeps hP
    | with_reducible refine ite_keeps ?_ ?_
    | split

theorem frcDeveloped_keeps {P : State → Prop} (hP : Kept P) {s : State} {old : State} {f : Nat} (_ : P s) (_ : P old) :
    P (State.frcDeveloped s old f) := by
  unfold State.frcDeveloped
  repeat' first
    | with_reducible assumption
    | (intro _x)
    | (extract_lets +onlyGivenNames x; refine keep_cut (P := P) (x := x) ?_ ?_; (on_goal 1 => subst x); (on_goal 2 => (intro _h; try clear_value x)))
    | (extract_lets +onlyGivenNames x; refine keep_cut (P := P) (x := x.s) ?_ ?_; (on_goal 1 => subst x); (on_goal 2 => (intro _h; try clear_value x)))
    | (extract_lets +onlyGivenNames x; refine keep_cut (P := P) (x := x.1) ?_ ?_; (on_goal 1 => subst x); (on_goal 2 => (intro _h; try clear_value x)))
    | (extract_lets +onlyGivenNames x; refine keep_cut (P := P) (x := x.2) ?_ ?_; (on_goal 1 => subst x); (on_goal 2 => (intro _h; try clear_value x)))
    | (extract_lets +onlyGivenNames x; try clear_value x)
    | with_reducible apply wr_keeps hP
    | with_reducible apply wrs_keeps hP
    | with_reducible apply upto_keeps
    | with_reducible apply fold_keeps
    | with_reducible apply fold_fst_keeps
    | with_reducible apply setHeld_keeps hP
    | with_reducible apply frcMove_keeps hP
    | with_reducible apply frcPrime_keeps hP
    | with_reducible apply frcFix_keeps hP
    | with_reducible apply frcRecover_keeps hP
    | with_reducible refine ite_keeps ?_ ?_
    | split

theorem execCadenceFrame_keeps {P : State → Prop} (hP : Kept P) {f : Fin 16} {k : Fin 4} {stamp : Nat} {s : State} (_ : P s) :
    onOut P (execCadenceFrame f k stamp s) := by
  unfold execCadenceFrame
  repeat' first
    | with_reducible assumption
    | (intro _x)
    | (extract_lets +onlyGivenNames x; refine keep_cut (P := P) (x := x) ?_ ?_; (on_goal 1 => subst x); (on_goal 2 => (intro _h; try clear_value x)))
    | (extract_lets +onlyGivenNames x; refine keep_cut (P := P) (x := x.s) ?_ ?_; (on_goal 1 => subst x); (on_goal 2 => (intro _h; try clear_value x)))
    | (extract_lets +onlyGivenNames x; refine keep_cut (P := P) (x := x.1) ?_ ?_; (on_goal 1 => subst x); (on_goal 2 => (intro _h; try clear_value x)))
    | (extract_lets +onlyGivenNames x; refine keep_cut (P := P) (x := x.2) ?_ ?_; (on_goal 1 => subst x); (on_goal 2 => (intro _h; try clear_value x)))
    | (extract_lets +onlyGivenNames x; try clear_value x)
    | with_reducible refine ite_out ?_ ?_
    | with_reducible apply wr_keeps hP
    | with_reducible apply setVec_keeps hP
    | with_reducible apply raise_keeps hP
    | with_reducible apply wrs_keeps hP
    | with_reducible apply upto_keeps
    | with_reducible apply count_keeps hP
    | with_reducible apply setHeld_keeps hP
    | with_reducible apply onOut_next
    | with_reducible refine ite_keeps ?_ ?_
    | split

theorem execMotionEstimation_keeps {P : State → Prop} (hP : Kept P) {f : Fin 16} {k : Fin 4} {j : Fin 16} {s : State} (_ : P s) :
    onOut P (execMotionEstimation f k j s) := by
  unfold execMotionEstimation
  repeat' first
    | with_reducible assumption
    | (intro _x)
    | (extract_lets +onlyGivenNames x; refine keep_cut (P := P) (x := x) ?_ ?_; (on_goal 1 => subst x); (on_goal 2 => (intro _h; try clear_value x)))
    | (extract_lets +onlyGivenNames x; refine keep_cut (P := P) (x := x.s) ?_ ?_; (on_goal 1 => subst x); (on_goal 2 => (intro _h; try clear_value x)))
    | (extract_lets +onlyGivenNames x; refine keep_cut (P := P) (x := x.1) ?_ ?_; (on_goal 1 => subst x); (on_goal 2 => (intro _h; try clear_value x)))
    | (extract_lets +onlyGivenNames x; refine keep_cut (P := P) (x := x.2) ?_ ?_; (on_goal 1 => subst x); (on_goal 2 => (intro _h; try clear_value x)))
    | (extract_lets +onlyGivenNames x; try clear_value x)
    | with_reducible refine ite_out ?_ ?_
    | with_reducible apply setVec_keeps hP
    | with_reducible apply onOut_next
    | with_reducible refine ite_keeps ?_ ?_
    | split

theorem frcFailover_keeps {P : State → Prop} (hP : Kept P) {s : State} {f : Nat} {k : Nat} (_ : P s) :
    P (State.frcFailover s f k) := by
  unfold State.frcFailover
  repeat' first
    | with_reducible assumption
    | (intro _x)
    | (extract_lets +onlyGivenNames x; refine keep_cut (P := P) (x := x) ?_ ?_; (on_goal 1 => subst x); (on_goal 2 => (intro _h; try clear_value x)))
    | (extract_lets +onlyGivenNames x; refine keep_cut (P := P) (x := x.s) ?_ ?_; (on_goal 1 => subst x); (on_goal 2 => (intro _h; try clear_value x)))
    | (extract_lets +onlyGivenNames x; refine keep_cut (P := P) (x := x.1) ?_ ?_; (on_goal 1 => subst x); (on_goal 2 => (intro _h; try clear_value x)))
    | (extract_lets +onlyGivenNames x; refine keep_cut (P := P) (x := x.2) ?_ ?_; (on_goal 1 => subst x); (on_goal 2 => (intro _h; try clear_value x)))
    | (extract_lets +onlyGivenNames x; try clear_value x)
    | with_reducible apply setVec_keeps hP
    | with_reducible apply upto_keeps
    | with_reducible apply frcRecover_keeps hP
    | with_reducible apply frcMove_keeps hP
    | with_reducible refine ite_keeps ?_ ?_
    | split

end Sys2Proof.Machine
end

