-- ==== Sys2Proof/Laws/KeepsReceive.lean ====
section
/-! SUPPORT. What the operations of Machine/Receive.lean keep. -/
set_option linter.all false
set_option maxRecDepth 8000
namespace Sys2Proof.Machine

theorem framePassed_keeps {P : State → Prop} (hP : Kept P) {s : State} {n : Nat} (_ : P s) :
    P (State.framePassed s n) := by
  unfold State.framePassed
  repeat' first
    | with_reducible assumption
    | (intro _x)
    | (extract_lets +onlyGivenNames x; refine keep_cut (P := P) (x := x) ?_ ?_; (on_goal 1 => subst x); (on_goal 2 => (intro _h; try clear_value x)))
    | (extract_lets +onlyGivenNames x; refine keep_cut (P := P) (x := x.s) ?_ ?_; (on_goal 1 => subst x); (on_goal 2 => (intro _h; try clear_value x)))
    | (extract_lets +onlyGivenNames x; refine keep_cut (P := P) (x := x.1) ?_ ?_; (on_goal 1 => subst x); (on_goal 2 => (intro _h; try clear_value x)))
    | (extract_lets +onlyGivenNames x; refine keep_cut (P := P) (x := x.2) ?_ ?_; (on_goal 1 => subst x); (on_goal 2 => (intro _h; try clear_value x)))
    | (extract_lets +onlyGivenNames x; try clear_value x)
    | with_reducible apply wr_keeps hP
    | with_reducible apply wrs_keeps hP
    | with_reducible apply upto_keeps
    | with_reducible apply up_keeps hP
    | with_reducible refine ite_keeps ?_ ?_
    | split

theorem pidFrame_keeps {P : State → Prop} (hP : Kept P) {s : State} {n : Nat} {c : Nat} (_ : P s) :
    P (State.pidFrame s n c) := by
  unfold State.pidFrame
  repeat' first
    | with_reducible assumption
    | (intro _x)
    | (extract_lets +onlyGivenNames x; refine keep_cut (P := P) (x := x) ?_ ?_; (on_goal 1 => subst x); (on_goal 2 => (intro _h; try clear_value x)))
    | (extract_lets +onlyGivenNames x; refine keep_cut (P := P) (x := x.s) ?_ ?_; (on_goal 1 => subst x); (on_goal 2 => (intro _h; try clear_value x)))
    | (extract_lets +onlyGivenNames x; refine keep_cut (P := P) (x := x.1) ?_ ?_; (on_goal 1 => subst x); (on_goal 2 => (intro _h; try clear_value x)))
    | (extract_lets +onlyGivenNames x; refine keep_cut (P := P) (x := x.2) ?_ ?_; (on_goal 1 => subst x); (on_goal 2 => (intro _h; try clear_value x)))
    | (extract_lets +onlyGivenNames x; try clear_value x)
    | with_reducible apply wr_keeps hP
    | with_reducible apply raise_keeps hP
    | with_reducible apply count_keeps hP
    | with_reducible refine ite_keeps ?_ ?_
    | split

theorem inPicture_keeps {P : State → Prop} (hP : Kept P) {s : State} {n : Nat} (_ : P s) :
    P (State.inPicture s n) := by
  unfold State.inPicture
  repeat' first
    | with_reducible assumption
    | (intro _x)
    | (extract_lets +onlyGivenNames x; refine keep_cut (P := P) (x := x) ?_ ?_; (on_goal 1 => subst x); (on_goal 2 => (intro _h; try clear_value x)))
    | (extract_lets +onlyGivenNames x; refine keep_cut (P := P) (x := x.s) ?_ ?_; (on_goal 1 => subst x); (on_goal 2 => (intro _h; try clear_value x)))
    | (extract_lets +onlyGivenNames x; refine keep_cut (P := P) (x := x.1) ?_ ?_; (on_goal 1 => subst x); (on_goal 2 => (intro _h; try clear_value x)))
    | (extract_lets +onlyGivenNames x; refine keep_cut (P := P) (x := x.2) ?_ ?_; (on_goal 1 => subst x); (on_goal 2 => (intro _h; try clear_value x)))
    | (extract_lets +onlyGivenNames x; try clear_value x)
    | with_reducible apply wrs_keeps hP
    | with_reducible refine ite_keeps ?_ ?_
    | split

theorem brFails_keeps {P : State → Prop} (hP : Kept P) {s : State} {i : Nat} {cause : Nat} (_ : P s) :
    P (State.brFails s i cause) := by
  unfold State.brFails
  repeat' first
    | with_reducible assumption
    | (intro _x)
    | (extract_lets +onlyGivenNames x; refine keep_cut (P := P) (x := x) ?_ ?_; (on_goal 1 => subst x); (on_goal 2 => (intro _h; try clear_value x)))
    | (extract_lets +onlyGivenNames x; refine keep_cut (P := P) (x := x.s) ?_ ?_; (on_goal 1 => subst x); (on_goal 2 => (intro _h; try clear_value x)))
    | (extract_lets +onlyGivenNames x; refine keep_cut (P := P) (x := x.1) ?_ ?_; (on_goal 1 => subst x); (on_goal 2 => (intro _h; try clear_value x)))
    | (extract_lets +onlyGivenNames x; refine keep_cut (P := P) (x := x.2) ?_ ?_; (on_goal 1 => subst x); (on_goal 2 => (intro _h; try clear_value x)))
    | (extract_lets +onlyGivenNames x; try clear_value x)
    | with_reducible apply wr_keeps hP
    | with_reducible apply setVec_keeps hP
    | with_reducible refine ite_keeps ?_ ?_
    | split

theorem inMove_keeps {P : State → Prop} (hP : Kept P) {s : State} {n : Nat} {new : Nat} (_ : P s) :
    P (State.inMove s n new) := by
  unfold State.inMove
  repeat' first
    | with_reducible assumption
    | (intro _x)
    | (extract_lets +onlyGivenNames x; refine keep_cut (P := P) (x := x) ?_ ?_; (on_goal 1 => subst x); (on_goal 2 => (intro _h; try clear_value x)))
    | (extract_lets +onlyGivenNames x; refine keep_cut (P := P) (x := x.s) ?_ ?_; (on_goal 1 => subst x); (on_goal 2 => (intro _h; try clear_value x)))
    | (extract_lets +onlyGivenNames x; refine keep_cut (P := P) (x := x.1) ?_ ?_; (on_goal 1 => subst x); (on_goal 2 => (intro _h; try clear_value x)))
    | (extract_lets +onlyGivenNames x; refine keep_cut (P := P) (x := x.2) ?_ ?_; (on_goal 1 => subst x); (on_goal 2 => (intro _h; try clear_value x)))
    | (extract_lets +onlyGivenNames x; try clear_value x)
    | with_reducible apply wr_keeps hP
    | with_reducible apply setVec_keeps hP
    | with_reducible apply raise_keeps hP
    | with_reducible apply wrs_keeps hP
    | with_reducible apply upto_keeps
    | with_reducible apply clr_keeps hP
    | with_reducible apply readersCheck_keeps hP
    | with_reducible apply brFails_keeps hP
    | with_reducible apply refLose_keeps hP
    | with_reducible refine ite_keeps ?_ ?_
    | split

theorem brState_keeps {P : State → Prop} (hP : Kept P) {s : State} {p : Nat} {new : Nat} (_ : P s) :
    P (State.brState s p new) := by
  unfold State.brState
  repeat' first
    | with_reducible assumption
    | (intro _x)
    | (extract_lets +onlyGivenNames x; refine keep_cut (P := P) (x := x) ?_ ?_; (on_goal 1 => subst x); (on_goal 2 => (intro _h; try clear_value x)))
    | (extract_lets +onlyGivenNames x; refine keep_cut (P := P) (x := x.s) ?_ ?_; (on_goal 1 => subst x); (on_goal 2 => (intro _h; try clear_value x)))
    | (extract_lets +onlyGivenNames x; refine keep_cut (P := P) (x := x.1) ?_ ?_; (on_goal 1 => subst x); (on_goal 2 => (intro _h; try clear_value x)))
    | (extract_lets +onlyGivenNames x; refine keep_cut (P := P) (x := x.2) ?_ ?_; (on_goal 1 => subst x); (on_goal 2 => (intro _h; try clear_value x)))
    | (extract_lets +onlyGivenNames x; try clear_value x)
    | with_reducible apply wr_keeps hP
    | with_reducible apply raise_keeps hP
    | with_reducible refine ite_keeps ?_ ?_
    | split

theorem swapReaders_keeps {P : State → Prop} (hP : Kept P) {s : State} {from' : Nat} {to' : Nat} (_ : P s) :
    P (State.swapReaders s from' to') := by
  unfold State.swapReaders
  repeat' first
    | with_reducible assumption
    | (intro _x)
    | (extract_lets +onlyGivenNames x; refine keep_cut (P := P) (x := x) ?_ ?_; (on_goal 1 => subst x); (on_goal 2 => (intro _h; try clear_value x)))
    | (extract_lets +onlyGivenNames x; refine keep_cut (P := P) (x := x.s) ?_ ?_; (on_goal 1 => subst x); (on_goal 2 => (intro _h; try clear_value x)))
    | (extract_lets +onlyGivenNames x; refine keep_cut (P := P) (x := x.1) ?_ ?_; (on_goal 1 => subst x); (on_goal 2 => (intro _h; try clear_value x)))
    | (extract_lets +onlyGivenNames x; refine keep_cut (P := P) (x := x.2) ?_ ?_; (on_goal 1 => subst x); (on_goal 2 => (intro _h; try clear_value x)))
    | (extract_lets +onlyGivenNames x; try clear_value x)
    | with_reducible apply wrs_keeps hP
    | with_reducible apply upto_keeps
    | with_reducible refine ite_keeps ?_ ?_
    | split

theorem brTake_keeps {P : State → Prop} (hP : Kept P) {s : State} {p : Nat} {i : Nat} {cause : Nat} (_ : P s) :
    P (State.brTake s p i cause) := by
  unfold State.brTake
  repeat' first
    | with_reducible assumption
    | (intro _x)
    | (extract_lets +onlyGivenNames x; refine keep_cut (P := P) (x := x) ?_ ?_; (on_goal 1 => subst x); (on_goal 2 => (intro _h; try clear_value x)))
    | (extract_lets +onlyGivenNames x; refine keep_cut (P := P) (x := x.s) ?_ ?_; (on_goal 1 => subst x); (on_goal 2 => (intro _h; try clear_value x)))
    | (extract_lets +onlyGivenNames x; refine keep_cut (P := P) (x := x.1) ?_ ?_; (on_goal 1 => subst x); (on_goal 2 => (intro _h; try clear_value x)))
    | (extract_lets +onlyGivenNames x; refine keep_cut (P := P) (x := x.2) ?_ ?_; (on_goal 1 => subst x); (on_goal 2 => (intro _h; try clear_value x)))
    | (extract_lets +onlyGivenNames x; try clear_value x)
    | with_reducible apply wr_keeps hP
    | with_reducible apply raise_keeps hP
    | with_reducible apply swapReaders_keeps hP
    | with_reducible refine ite_keeps ?_ ?_
    | split

theorem brEval_keeps {P : State → Prop} (hP : Kept P) {s : State} {p : Nat} {cause : Nat} (_ : P s) :
    P (State.brEval s p cause) := by
  unfold State.brEval
  repeat' first
    | with_reducible assumption
    | (intro _x)
    | (extract_lets +onlyGivenNames x; refine keep_cut (P := P) (x := x) ?_ ?_; (on_goal 1 => subst x); (on_goal 2 => (intro _h; try clear_value x)))
    | (extract_lets +onlyGivenNames x; refine keep_cut (P := P) (x := x.s) ?_ ?_; (on_goal 1 => subst x); (on_goal 2 => (intro _h; try clear_value x)))
    | (extract_lets +onlyGivenNames x; refine keep_cut (P := P) (x := x.1) ?_ ?_; (on_goal 1 => subst x); (on_goal 2 => (intro _h; try clear_value x)))
    | (extract_lets +onlyGivenNames x; refine keep_cut (P := P) (x := x.2) ?_ ?_; (on_goal 1 => subst x); (on_goal 2 => (intro _h; try clear_value x)))
    | (extract_lets +onlyGivenNames x; try clear_value x)
    | with_reducible apply raise_keeps hP
    | with_reducible apply brState_keeps hP
    | with_reducible apply brTake_keeps hP
    | with_reducible apply readersCheck_keeps hP
    | with_reducible refine ite_keeps ?_ ?_
    | split

theorem inFormat_keeps {P : State → Prop} (hP : Kept P) {s : State} {n : Nat} {c : Nat} (_ : P s) :
    P (State.inFormat s n c) := by
  unfold State.inFormat
  repeat' first
    | with_reducible assumption
    | (intro _x)
    | (extract_lets +onlyGivenNames x; refine keep_cut (P := P) (x := x) ?_ ?_; (on_goal 1 => subst x); (on_goal 2 => (intro _h; try clear_value x)))
    | (extract_lets +onlyGivenNames x; refine keep_cut (P := P) (x := x.s) ?_ ?_; (on_goal 1 => subst x); (on_goal 2 => (intro _h; try clear_value x)))
    | (extract_lets +onlyGivenNames x; refine keep_cut (P := P) (x := x.1) ?_ ?_; (on_goal 1 => subst x); (on_goal 2 => (intro _h; try clear_value x)))
    | (extract_lets +onlyGivenNames x; refine keep_cut (P := P) (x := x.2) ?_ ?_; (on_goal 1 => subst x); (on_goal 2 => (intro _h; try clear_value x)))
    | (extract_lets +onlyGivenNames x; try clear_value x)
    | with_reducible apply raise_keeps hP
    | with_reducible apply wrs_keeps hP
    | with_reducible apply inMove_keeps hP
    | with_reducible apply inc_keeps hP
    | with_reducible apply inPicture_keeps hP
    | with_reducible apply brEval_keeps hP
    | with_reducible apply refLose_keeps hP
    | with_reducible apply readersCheck_keeps hP
    | with_reducible refine ite_keeps ?_ ?_
    | split

theorem quadTo_keeps {P : State → Prop} (hP : Kept P) {s : State} {n : Nat} {new : Nat} (_ : P s) :
    P (State.quadTo s n new) := by
  unfold State.quadTo
  repeat' first
    | with_reducible assumption
    | (intro _x)
    | (extract_lets +onlyGivenNames x; refine keep_cut (P := P) (x := x) ?_ ?_; (on_goal 1 => subst x); (on_goal 2 => (intro _h; try clear_value x)))
    | (extract_lets +onlyGivenNames x; refine keep_cut (P := P) (x := x.s) ?_ ?_; (on_goal 1 => subst x); (on_goal 2 => (intro _h; try clear_value x)))
    | (extract_lets +onlyGivenNames x; refine keep_cut (P := P) (x := x.1) ?_ ?_; (on_goal 1 => subst x); (on_goal 2 => (intro _h; try clear_value x)))
    | (extract_lets +onlyGivenNames x; refine keep_cut (P := P) (x := x.2) ?_ ?_; (on_goal 1 => subst x); (on_goal 2 => (intro _h; try clear_value x)))
    | (extract_lets +onlyGivenNames x; try clear_value x)
    | with_reducible apply wr_keeps hP
    | with_reducible apply inMove_keeps hP
    | with_reducible refine ite_keeps ?_ ?_
    | split

theorem quadEval_keeps {P : State → Prop} (hP : Kept P) {s : State} {q : Nat} (_ : P s) :
    P (State.quadEval s q) := by
  unfold State.quadEval
  repeat' first
    | with_reducible assumption
    | (intro _x)
    | (extract_lets +onlyGivenNames x; refine keep_cut (P := P) (x := x) ?_ ?_; (on_goal 1 => subst x); (on_goal 2 => (intro _h; try clear_value x)))
    | (extract_lets +onlyGivenNames x; refine keep_cut (P := P) (x := x.s) ?_ ?_; (on_goal 1 => subst x); (on_goal 2 => (intro _h; try clear_value x)))
    | (extract_lets +onlyGivenNames x; refine keep_cut (P := P) (x := x.1) ?_ ?_; (on_goal 1 => subst x); (on_goal 2 => (intro _h; try clear_value x)))
    | (extract_lets +onlyGivenNames x; refine keep_cut (P := P) (x := x.2) ?_ ?_; (on_goal 1 => subst x); (on_goal 2 => (intro _h; try clear_value x)))
    | (extract_lets +onlyGivenNames x; try clear_value x)
    | with_reducible apply wr_keeps hP
    | with_reducible apply raise_keeps hP
    | with_reducible apply upto_keeps
    | with_reducible apply fold_keeps
    | with_reducible apply fold_fst_keeps
    | with_reducible apply quadTo_keeps hP
    | with_reducible apply inFormat_keeps hP
    | with_reducible refine ite_keeps ?_ ?_
    | split

theorem linkValid_keeps {P : State → Prop} (hP : Kept P) {s : State} {n : Nat} {c : Nat} (_ : P s) :
    P (State.linkValid s n c) := by
  unfold State.linkValid
  repeat' first
    | with_reducible assumption
    | (intro _x)
    | (extract_lets +onlyGivenNames x; refine keep_cut (P := P) (x := x) ?_ ?_; (on_goal 1 => subst x); (on_goal 2 => (intro _h; try clear_value x)))
    | (extract_lets +onlyGivenNames x; refine keep_cut (P := P) (x := x.s) ?_ ?_; (on_goal 1 => subst x); (on_goal 2 => (intro _h; try clear_value x)))
    | (extract_lets +onlyGivenNames x; refine keep_cut (P := P) (x := x.1) ?_ ?_; (on_goal 1 => subst x); (on_goal 2 => (intro _h; try clear_value x)))
    | (extract_lets +onlyGivenNames x; refine keep_cut (P := P) (x := x.2) ?_ ?_; (on_goal 1 => subst x); (on_goal 2 => (intro _h; try clear_value x)))
    | (extract_lets +onlyGivenNames x; try clear_value x)
    | with_reducible apply wr_keeps hP
    | with_reducible apply inFormat_keeps hP
    | with_reducible apply quadEval_keeps hP
    | with_reducible refine ite_keeps ?_ ?_
    | split

theorem execRxFrameMeasured_keeps {P : State → Prop} (hP : Kept P) {n : Fin 48} {m : Meas} {s : State} (_ : P s) :
    onOut P (execRxFrameMeasured n m s) := by
  unfold execRxFrameMeasured
  repeat' first
    | with_reducible assumption
    | (intro _x)
    | (extract_lets +onlyGivenNames x; refine keep_cut (P := P) (x := x) ?_ ?_; (on_goal 1 => subst x); (on_goal 2 => (intro _h; try clear_value x)))
    | (extract_lets +onlyGivenNames x; refine keep_cut (P := P) (x := x.s) ?_ ?_; (on_goal 1 => subst x); (on_goal 2 => (intro _h; try clear_value x)))
    | (extract_lets +onlyGivenNames x; refine keep_cut (P := P) (x := x.1) ?_ ?_; (on_goal 1 => subst x); (on_goal 2 => (intro _h; try clear_value x)))
    | (extract_lets +onlyGivenNames x; refine keep_cut (P := P) (x := x.2) ?_ ?_; (on_goal 1 => subst x); (on_goal 2 => (intro _h; try clear_value x)))
    | (extract_lets +onlyGivenNames x; try clear_value x)
    | with_reducible refine ite_out ?_ ?_
    | with_reducible apply wr_keeps hP
    | with_reducible apply setVec_keeps hP
    | with_reducible apply wrs_keeps hP
    | with_reducible apply framePassed_keeps hP
    | with_reducible apply pidFrame_keeps hP
    | with_reducible apply inPicture_keeps hP
    | with_reducible apply linkValid_keeps hP
    | with_reducible apply raiseLim_keeps hP
    | with_reducible apply count_keeps hP
    | with_reducible apply onOut_next
    | with_reducible refine ite_keeps ?_ ?_
    | split

theorem execBracketRevert_keeps {P : State → Prop} (hP : Kept P) {p : Fin 48} {s : State} (_ : P s) :
    onOut P (execBracketRevert p s) := by
  unfold execBracketRevert
  repeat' first
    | with_reducible assumption
    | (intro _x)
    | (extract_lets +onlyGivenNames x; refine keep_cut (P := P) (x := x) ?_ ?_; (on_goal 1 => subst x); (on_goal 2 => (intro _h; try clear_value x)))
    | (extract_lets +onlyGivenNames x; refine keep_cut (P := P) (x := x.s) ?_ ?_; (on_goal 1 => subst x); (on_goal 2 => (intro _h; try clear_value x)))
    | (extract_lets +onlyGivenNames x; refine keep_cut (P := P) (x := x.1) ?_ ?_; (on_goal 1 => subst x); (on_goal 2 => (intro _h; try clear_value x)))
    | (extract_lets +onlyGivenNames x; refine keep_cut (P := P) (x := x.2) ?_ ?_; (on_goal 1 => subst x); (on_goal 2 => (intro _h; try clear_value x)))
    | (extract_lets +onlyGivenNames x; try clear_value x)
    | with_reducible refine ite_out ?_ ?_
    | with_reducible apply brEval_keeps hP
    | with_reducible apply brTake_keeps hP
    | with_reducible apply onOut_next
    | with_reducible refine ite_keeps ?_ ?_
    | split

theorem inDown_keeps {P : State → Prop} (hP : Kept P) {s : State} {n : Nat} {new : Nat} (_ : P s) :
    P (State.inDown s n new) := by
  unfold State.inDown
  repeat' first
    | with_reducible assumption
    | (intro _x)
    | (extract_lets +onlyGivenNames x; refine keep_cut (P := P) (x := x) ?_ ?_; (on_goal 1 => subst x); (on_goal 2 => (intro _h; try clear_value x)))
    | (extract_lets +onlyGivenNames x; refine keep_cut (P := P) (x := x.s) ?_ ?_; (on_goal 1 => subst x); (on_goal 2 => (intro _h; try clear_value x)))
    | (extract_lets +onlyGivenNames x; refine keep_cut (P := P) (x := x.1) ?_ ?_; (on_goal 1 => subst x); (on_goal 2 => (intro _h; try clear_value x)))
    | (extract_lets +onlyGivenNames x; refine keep_cut (P := P) (x := x.2) ?_ ?_; (on_goal 1 => subst x); (on_goal 2 => (intro _h; try clear_value x)))
    | (extract_lets +onlyGivenNames x; try clear_value x)
    | with_reducible apply inMove_keeps hP
    | with_reducible apply quadEval_keeps hP
    | with_reducible refine ite_keeps ?_ ?_
    | split

theorem cdrUnlock_keeps {P : State → Prop} (hP : Kept P) {s : State} {n : Nat} (_ : P s) :
    P (State.cdrUnlock s n) := by
  unfold State.cdrUnlock
  repeat' first
    | with_reducible assumption
    | (intro _x)
    | (extract_lets +onlyGivenNames x; refine keep_cut (P := P) (x := x) ?_ ?_; (on_goal 1 => subst x); (on_goal 2 => (intro _h; try clear_value x)))
    | (extract_lets +onlyGivenNames x; refine keep_cut (P := P) (x := x.s) ?_ ?_; (on_goal 1 => subst x); (on_goal 2 => (intro _h; try clear_value x)))
    | (extract_lets +onlyGivenNames x; refine keep_cut (P := P) (x := x.1) ?_ ?_; (on_goal 1 => subst x); (on_goal 2 => (intro _h; try clear_value x)))
    | (extract_lets +onlyGivenNames x; refine keep_cut (P := P) (x := x.2) ?_ ?_; (on_goal 1 => subst x); (on_goal 2 => (intro _h; try clear_value x)))
    | (extract_lets +onlyGivenNames x; try clear_value x)
    | with_reducible apply wrs_keeps hP
    | with_reducible apply inDown_keeps hP
    | with_reducible apply count_keeps hP
    | with_reducible refine ite_keeps ?_ ?_
    | split

theorem rateModeWrite_keeps0 {P : State → Prop} (hP : Kept P) {n : Nat} {v : Nat} {s : State} (_ : P s) :
    onAns P (rateModeWrite n v s) := by
  unfold rateModeWrite
  repeat' first
    | with_reducible assumption
    | (intro _x)
    | (extract_lets +onlyGivenNames x; refine keep_cut (P := P) (x := x) ?_ ?_; (on_goal 1 => subst x); (on_goal 2 => (intro _h; try clear_value x)))
    | (extract_lets +onlyGivenNames x; refine keep_cut (P := P) (x := x.s) ?_ ?_; (on_goal 1 => subst x); (on_goal 2 => (intro _h; try clear_value x)))
    | (extract_lets +onlyGivenNames x; refine keep_cut (P := P) (x := x.1) ?_ ?_; (on_goal 1 => subst x); (on_goal 2 => (intro _h; try clear_value x)))
    | (extract_lets +onlyGivenNames x; refine keep_cut (P := P) (x := x.2) ?_ ?_; (on_goal 1 => subst x); (on_goal 2 => (intro _h; try clear_value x)))
    | (extract_lets +onlyGivenNames x; try clear_value x)
    | with_reducible refine ite_ans ?_ ?_
    | with_reducible apply wr_keeps hP
    | with_reducible apply wrs_keeps hP
    | with_reducible apply ansOk_keeps hP
    | with_reducible apply ansOk_keeps0 hP
    | with_reducible apply cdrUnlock_keeps hP
    | with_reducible apply onAns_mk
    | with_reducible refine ite_keeps ?_ ?_
    | split

theorem rateModeWrite_keeps {P : State → Prop} (hP : Kept P) {n : Nat} {v : Nat} {s : State} (h0 : P s) :
    P (rateModeWrite n v s).s := rateModeWrite_keeps0 hP h0

theorem keyInputWrite_keeps0 {P : State → Prop} (hP : Kept P) {n : Nat} {v : Nat} {s : State} (_ : P s) :
    onAns P (keyInputWrite n v s) := by
  unfold keyInputWrite
  repeat' first
    | with_reducible assumption
    | (intro _x)
    | (extract_lets +onlyGivenNames x; refine keep_cut (P := P) (x := x) ?_ ?_; (on_goal 1 => subst x); (on_goal 2 => (intro _h; try clear_value x)))
    | (extract_lets +onlyGivenNames x; refine keep_cut (P := P) (x := x.s) ?_ ?_; (on_goal 1 => subst x); (on_goal 2 => (intro _h; try clear_value x)))
    | (extract_lets +onlyGivenNames x; refine keep_cut (P := P) (x := x.1) ?_ ?_; (on_goal 1 => subst x); (on_goal 2 => (intro _h; try clear_value x)))
    | (extract_lets +onlyGivenNames x; refine keep_cut (P := P) (x := x.2) ?_ ?_; (on_goal 1 => subst x); (on_goal 2 => (intro _h; try clear_value x)))
    | (extract_lets +onlyGivenNames x; try clear_value x)
    | with_reducible refine ite_ans ?_ ?_
    | with_reducible apply wr_keeps hP
    | with_reducible apply ansBusy_keeps hP
    | with_reducible apply ansBusy_keeps0 hP
    | with_reducible apply ansOk_keeps hP
    | with_reducible apply ansOk_keeps0 hP
    | with_reducible apply onAns_mk
    | with_reducible refine ite_keeps ?_ ?_
    | split

theorem keyInputWrite_keeps {P : State → Prop} (hP : Kept P) {n : Nat} {v : Nat} {s : State} (h0 : P s) :
    P (keyInputWrite n v s).s := keyInputWrite_keeps0 hP h0

theorem inPartnerWrite_keeps0 {P : State → Prop} (hP : Kept P) {n : Nat} {v : Nat} {s : State} (_ : P s) :
    onAns P (inPartnerWrite n v s) := by
  unfold inPartnerWrite
  repeat' first
    | with_reducible assumption
    | (intro _x)
    | (extract_lets +onlyGivenNames x; refine keep_cut (P := P) (x := x) ?_ ?_; (on_goal 1 => subst x); (on_goal 2 => (intro _h; try clear_value x)))
    | (extract_lets +onlyGivenNames x; refine keep_cut (P := P) (x := x.s) ?_ ?_; (on_goal 1 => subst x); (on_goal 2 => (intro _h; try clear_value x)))
    | (extract_lets +onlyGivenNames x; refine keep_cut (P := P) (x := x.1) ?_ ?_; (on_goal 1 => subst x); (on_goal 2 => (intro _h; try clear_value x)))
    | (extract_lets +onlyGivenNames x; refine keep_cut (P := P) (x := x.2) ?_ ?_; (on_goal 1 => subst x); (on_goal 2 => (intro _h; try clear_value x)))
    | (extract_lets +onlyGivenNames x; try clear_value x)
    | with_reducible refine ite_ans ?_ ?_
    | with_reducible apply wr_keeps hP
    | with_reducible apply wrs_keeps hP
    | with_reducible apply ansRange_keeps hP
    | with_reducible apply ansRange_keeps0 hP
    | with_reducible apply ansBusy_keeps hP
    | with_reducible apply ansBusy_keeps0 hP
    | with_reducible apply ansConflict_keeps hP
    | with_reducible apply ansConflict_keeps0 hP
    | with_reducible apply inc_keeps hP
    | with_reducible apply ansOk_keeps hP
    | with_reducible apply ansOk_keeps0 hP
    | with_reducible apply brEval_keeps hP
    | with_reducible apply brState_keeps hP
    | with_reducible apply onAns_mk
    | with_reducible refine ite_keeps ?_ ?_
    | split

theorem inPartnerWrite_keeps {P : State → Prop} (hP : Kept P) {n : Nat} {v : Nat} {s : State} (h0 : P s) :
    P (inPartnerWrite n v s).s := inPartnerWrite_keeps0 hP h0

theorem selectWrite_keeps0 {P : State → Prop} (hP : Kept P) {p : Nat} {v : Nat} {s : State} (_ : P s) :
    onAns P (selectWrite p v s) := by
  unfold selectWrite
  repeat' first
    | with_reducible assumption
    | (intro _x)
    | (extract_lets +onlyGivenNames x; refine keep_cut (P := P) (x := x) ?_ ?_; (on_goal 1 => subst x); (on_goal 2 => (intro _h; try clear_value x)))
    | (extract_lets +onlyGivenNames x; refine keep_cut (P := P) (x := x.s) ?_ ?_; (on_goal 1 => subst x); (on_goal 2 => (intro _h; try clear_value x)))
    | (extract_lets +onlyGivenNames x; refine keep_cut (P := P) (x := x.1) ?_ ?_; (on_goal 1 => subst x); (on_goal 2 => (intro _h; try clear_value x)))
    | (extract_lets +onlyGivenNames x; refine keep_cut (P := P) (x := x.2) ?_ ?_; (on_goal 1 => subst x); (on_goal 2 => (intro _h; try clear_value x)))
    | (extract_lets +onlyGivenNames x; try clear_value x)
    | with_reducible refine ite_ans ?_ ?_
    | with_reducible apply wr_keeps hP
    | with_reducible apply ansBusy_keeps hP
    | with_reducible apply ansBusy_keeps0 hP
    | with_reducible apply ansOk_keeps hP
    | with_reducible apply ansOk_keeps0 hP
    | with_reducible apply brEval_keeps hP
    | with_reducible apply brTake_keeps hP
    | with_reducible apply onAns_mk
    | with_reducible refine ite_keeps ?_ ?_
    | split

theorem selectWrite_keeps {P : State → Prop} (hP : Kept P) {p : Nat} {v : Nat} {s : State} (h0 : P s) :
    P (selectWrite p v s).s := selectWrite_keeps0 hP h0

theorem quadModeWrite_keeps0 {P : State → Prop} (hP : Kept P) {n : Nat} {v : Nat} {s : State} (_ : P s) :
    onAns P (quadModeWrite n v s) := by
  unfold quadModeWrite
  repeat' first
    | with_reducible assumption
    | (intro _x)
    | (extract_lets +onlyGivenNames x; refine keep_cut (P := P) (x := x) ?_ ?_; (on_goal 1 => subst x); (on_goal 2 => (intro _h; try clear_value x)))
    | (extract_lets +onlyGivenNames x; refine keep_cut (P := P) (x := x.s) ?_ ?_; (on_goal 1 => subst x); (on_goal 2 => (intro _h; try clear_value x)))
    | (extract_lets +onlyGivenNames x; refine keep_cut (P := P) (x := x.1) ?_ ?_; (on_goal 1 => subst x); (on_goal 2 => (intro _h; try clear_value x)))
    | (extract_lets +onlyGivenNames x; refine keep_cut (P := P) (x := x.2) ?_ ?_; (on_goal 1 => subst x); (on_goal 2 => (intro _h; try clear_value x)))
    | (extract_lets +onlyGivenNames x; try clear_value x)
    | with_reducible refine ite_ans ?_ ?_
    | with_reducible apply wr_keeps hP
    | with_reducible apply upto_keeps
    | with_reducible apply ansBusy_keeps hP
    | with_reducible apply ansBusy_keeps0 hP
    | with_reducible apply inFormat_keeps hP
    | with_reducible apply ansOk_keeps hP
    | with_reducible apply ansOk_keeps0 hP
    | with_reducible apply quadEval_keeps hP
    | with_reducible apply onAns_mk
    | with_reducible refine ite_keeps ?_ ?_
    | split

theorem quadModeWrite_keeps {P : State → Prop} (hP : Kept P) {n : Nat} {v : Nat} {s : State} (h0 : P s) :
    P (quadModeWrite n v s).s := quadModeWrite_keeps0 hP h0

theorem tcPacket_keeps {P : State → Prop} (hP : Kept P) {s : State} {n : Nat} {udw : List Nat} (_ : P s) :
    P (State.tcPacket s n udw) := by
  unfold State.tcPacket
  repeat' first
    | with_reducible assumption
    | (intro _x)
    | (extract_lets +onlyGivenNames x; refine keep_cut (P := P) (x := x) ?_ ?_; (on_goal 1 => subst x); (on_goal 2 => (intro _h; try clear_value x)))
    | (extract_lets +onlyGivenNames x; refine keep_cut (P := P) (x := x.s) ?_ ?_; (on_goal 1 => subst x); (on_goal 2 => (intro _h; try clear_value x)))
    | (extract_lets +onlyGivenNames x; refine keep_cut (P := P) (x := x.1) ?_ ?_; (on_goal 1 => subst x); (on_goal 2 => (intro _h; try clear_value x)))
    | (extract_lets +onlyGivenNames x; refine keep_cut (P := P) (x := x.2) ?_ ?_; (on_goal 1 => subst x); (on_goal 2 => (intro _h; try clear_value x)))
    | (extract_lets +onlyGivenNames x; try clear_value x)
    | with_reducible apply raise_keeps hP
    | with_reducible apply wrs_keeps hP
    | with_reducible apply setBit_keeps hP
    | with_reducible refine ite_keeps ?_ ?_
    | split

theorem phaseStamp_keeps {P : State → Prop} (hP : Kept P) {s : State} {n : Nat} {stamp : Nat} (_ : P s) :
    P (State.phaseStamp s n stamp) := by
  unfold State.phaseStamp
  repeat' first
    | with_reducible assumption
    | (intro _x)
    | (extract_lets +onlyGivenNames x; refine keep_cut (P := P) (x := x) ?_ ?_; (on_goal 1 => subst x); (on_goal 2 => (intro _h; try clear_value x)))
    | (extract_lets +onlyGivenNames x; refine keep_cut (P := P) (x := x.s) ?_ ?_; (on_goal 1 => subst x); (on_goal 2 => (intro _h; try clear_value x)))
    | (extract_lets +onlyGivenNames x; refine keep_cut (P := P) (x := x.1) ?_ ?_; (on_goal 1 => subst x); (on_goal 2 => (intro _h; try clear_value x)))
    | (extract_lets +onlyGivenNames x; refine keep_cut (P := P) (x := x.2) ?_ ?_; (on_goal 1 => subst x); (on_goal 2 => (intro _h; try clear_value x)))
    | (extract_lets +onlyGivenNames x; try clear_value x)
    | with_reducible apply wr_keeps hP
    | with_reducible apply setVec_keeps hP
    | with_reducible apply upto_keeps
    | with_reducible apply clr_keeps hP
    | with_reducible refine ite_keeps ?_ ?_
    | split

theorem trsLine_keeps {P : State → Prop} (hP : Kept P) {s : State} {n : Nat} {line : Nat} {trs : Nat} {off : Int} (_ : P s) :
    P (State.trsLine s n line trs off) := by
  unfold State.trsLine
  repeat' first
    | with_reducible assumption
    | (intro _x)
    | (extract_lets +onlyGivenNames x; refine keep_cut (P := P) (x := x) ?_ ?_; (on_goal 1 => subst x); (on_goal 2 => (intro _h; try clear_value x)))
    | (extract_lets +onlyGivenNames x; refine keep_cut (P := P) (x := x.s) ?_ ?_; (on_goal 1 => subst x); (on_goal 2 => (intro _h; try clear_value x)))
    | (extract_lets +onlyGivenNames x; refine keep_cut (P := P) (x := x.1) ?_ ?_; (on_goal 1 => subst x); (on_goal 2 => (intro _h; try clear_value x)))
    | (extract_lets +onlyGivenNames x; refine keep_cut (P := P) (x := x.2) ?_ ?_; (on_goal 1 => subst x); (on_goal 2 => (intro _h; try clear_value x)))
    | (extract_lets +onlyGivenNames x; try clear_value x)
    | with_reducible apply wr_keeps hP
    | with_reducible apply raise_keeps hP
    | with_reducible apply wrs_keeps hP
    | with_reducible apply fold_keeps
    | with_reducible apply fold_fst_keeps
    | with_reducible apply raiseLim_keeps hP
    | with_reducible apply count_keeps hP
    | with_reducible refine ite_keeps ?_ ?_
    | split

theorem putPix_keeps {P : State → Prop} (hP : Kept P) (hM : KeptMem P) {f : Nat} {base : Nat} {pitch : Nat} {y : Nat} {x : Nat} {l : List Pix} {s : State} (_ : P s) :
    P (State.putPix f base pitch y x l s) := by
  unfold State.putPix
  repeat' first
    | with_reducible assumption
    | (intro _x)
    | (extract_lets +onlyGivenNames x; refine keep_cut (P := P) (x := x) ?_ ?_; (on_goal 1 => subst x); (on_goal 2 => (intro _h; try clear_value x)))
    | (extract_lets +onlyGivenNames x; refine keep_cut (P := P) (x := x.s) ?_ ?_; (on_goal 1 => subst x); (on_goal 2 => (intro _h; try clear_value x)))
    | (extract_lets +onlyGivenNames x; refine keep_cut (P := P) (x := x.1) ?_ ?_; (on_goal 1 => subst x); (on_goal 2 => (intro _h; try clear_value x)))
    | (extract_lets +onlyGivenNames x; refine keep_cut (P := P) (x := x.2) ?_ ?_; (on_goal 1 => subst x); (on_goal 2 => (intro _h; try clear_value x)))
    | (extract_lets +onlyGivenNames x; try clear_value x)
    | with_reducible apply fsWrites_keeps hP hM
    | with_reducible refine ite_keeps ?_ ?_
    | split

theorem ringLine_keeps {P : State → Prop} (hP : Kept P) (hM : KeptMem P) {s : State} {n : Nat} {row : Nat} {l : List Pix} (_ : P s) :
    P (State.ringLine s n row l) := by
  unfold State.ringLine
  repeat' first
    | with_reducible assumption
    | (intro _x)
    | (extract_lets +onlyGivenNames x; refine keep_cut (P := P) (x := x) ?_ ?_; (on_goal 1 => subst x); (on_goal 2 => (intro _h; try clear_value x)))
    | (extract_lets +onlyGivenNames x; refine keep_cut (P := P) (x := x.s) ?_ ?_; (on_goal 1 => subst x); (on_goal 2 => (intro _h; try clear_value x)))
    | (extract_lets +onlyGivenNames x; refine keep_cut (P := P) (x := x.1) ?_ ?_; (on_goal 1 => subst x); (on_goal 2 => (intro _h; try clear_value x)))
    | (extract_lets +onlyGivenNames x; refine keep_cut (P := P) (x := x.2) ?_ ?_; (on_goal 1 => subst x); (on_goal 2 => (intro _h; try clear_value x)))
    | (extract_lets +onlyGivenNames x; try clear_value x)
    | with_reducible apply upto_keeps
    | with_reducible apply inc_keeps hP
    | with_reducible apply putPix_keeps hP hM
    | with_reducible refine ite_keeps ?_ ?_
    | split

theorem execRxLine_keeps {P : State → Prop} (hP : Kept P) (hM : KeptMem P) {n : Fin 48} {line : Nat} {trs : Nat} {off : Int} {ln : Nat} {crcOk : Bool} {px : List Nat} {s : State} (_ : P s) :
    onOut P (execRxLine n line trs off ln crcOk px s) := by
  unfold execRxLine
  repeat' first
    | with_reducible assumption
    | (intro _x)
    | (extract_lets +onlyGivenNames x; refine keep_cut (P := P) (x := x) ?_ ?_; (on_goal 1 => subst x); (on_goal 2 => (intro _h; try clear_value x)))
    | (extract_lets +onlyGivenNames x; refine keep_cut (P := P) (x := x.s) ?_ ?_; (on_goal 1 => subst x); (on_goal 2 => (intro _h; try clear_value x)))
    | (extract_lets +onlyGivenNames x; refine keep_cut (P := P) (x := x.1) ?_ ?_; (on_goal 1 => subst x); (on_goal 2 => (intro _h; try clear_value x)))
    | (extract_lets +onlyGivenNames x; refine keep_cut (P := P) (x := x.2) ?_ ?_; (on_goal 1 => subst x); (on_goal 2 => (intro _h; try clear_value x)))
    | (extract_lets +onlyGivenNames x; try clear_value x)
    | with_reducible refine ite_out ?_ ?_
    | with_reducible apply setVec_keeps hP
    | with_reducible apply trsLine_keeps hP
    | with_reducible apply count_keeps hP
    | with_reducible apply inc_keeps hP
    | with_reducible apply raiseLim_keeps hP
    | with_reducible apply brFails_keeps hP
    | with_reducible apply ringLine_keeps hP hM
    | with_reducible apply onOut_next
    | with_reducible refine ite_keeps ?_ ?_
    | split

theorem execRxEnergyLost_keeps {P : State → Prop} (hP : Kept P) {n : Fin 48} {s : State} (_ : P s) :
    onOut P (execRxEnergyLost n s) := by
  unfold execRxEnergyLost
  repeat' first
    | with_reducible assumption
    | (intro _x)
    | (extract_lets +onlyGivenNames x; refine keep_cut (P := P) (x := x) ?_ ?_; (on_goal 1 => subst x); (on_goal 2 => (intro _h; try clear_value x)))
    | (extract_lets +onlyGivenNames x; refine keep_cut (P := P) (x := x.s) ?_ ?_; (on_goal 1 => subst x); (on_goal 2 => (intro _h; try clear_value x)))
    | (extract_lets +onlyGivenNames x; refine keep_cut (P := P) (x := x.1) ?_ ?_; (on_goal 1 => subst x); (on_goal 2 => (intro _h; try clear_value x)))
    | (extract_lets +onlyGivenNames x; refine keep_cut (P := P) (x := x.2) ?_ ?_; (on_goal 1 => subst x); (on_goal 2 => (intro _h; try clear_value x)))
    | (extract_lets +onlyGivenNames x; try clear_value x)
    | with_reducible refine ite_out ?_ ?_
    | with_reducible apply inDown_keeps hP
    | with_reducible apply onOut_next
    | with_reducible refine ite_keeps ?_ ?_
    | split

theorem brJudge_keeps {P : State → Prop} (hP : Kept P) : ∀ {s : State} {l : List Nat}, P s → P (s.brJudge l)
  | _, [], h => h
  | _, [_], h => h
  | s, p :: c :: t, h => show P ((s.brEval p c).brJudge t) from brJudge_keeps hP (brEval_keeps hP h)

theorem brEnd_keeps {P : State → Prop} (hP : Kept P) {s : State} (_ : P s) :
    P (State.brEnd s) := by
  unfold State.brEnd
  repeat' first
    | with_reducible assumption
    | (intro _x)
    | (extract_lets +onlyGivenNames x; refine keep_cut (P := P) (x := x) ?_ ?_; (on_goal 1 => subst x); (on_goal 2 => (intro _h; try clear_value x)))
    | (extract_lets +onlyGivenNames x; refine keep_cut (P := P) (x := x.s) ?_ ?_; (on_goal 1 => subst x); (on_goal 2 => (intro _h; try clear_value x)))
    | (extract_lets +onlyGivenNames x; refine keep_cut (P := P) (x := x.1) ?_ ?_; (on_goal 1 => subst x); (on_goal 2 => (intro _h; try clear_value x)))
    | (extract_lets +onlyGivenNames x; refine keep_cut (P := P) (x := x.2) ?_ ?_; (on_goal 1 => subst x); (on_goal 2 => (intro _h; try clear_value x)))
    | (extract_lets +onlyGivenNames x; try clear_value x)
    | with_reducible apply setVec_keeps hP
    | with_reducible apply brJudge_keeps hP
    | with_reducible refine ite_keeps ?_ ?_
    | split

theorem ancBad_keeps {P : State → Prop} (hP : Kept P) {s : State} {n : Nat} {a : Anc} {reason : Nat} (_ : P s) :
    P (State.ancBad s n a reason) := by
  unfold State.ancBad
  repeat' first
    | with_reducible assumption
    | (intro _x)
    | (extract_lets +onlyGivenNames x; refine keep_cut (P := P) (x := x) ?_ ?_; (on_goal 1 => subst x); (on_goal 2 => (intro _h; try clear_value x)))
    | (extract_lets +onlyGivenNames x; refine keep_cut (P := P) (x := x.s) ?_ ?_; (on_goal 1 => subst x); (on_goal 2 => (intro _h; try clear_value x)))
    | (extract_lets +onlyGivenNames x; refine keep_cut (P := P) (x := x.1) ?_ ?_; (on_goal 1 => subst x); (on_goal 2 => (intro _h; try clear_value x)))
    | (extract_lets +onlyGivenNames x; refine keep_cut (P := P) (x := x.2) ?_ ?_; (on_goal 1 => subst x); (on_goal 2 => (intro _h; try clear_value x)))
    | (extract_lets +onlyGivenNames x; try clear_value x)
    | with_reducible apply raiseLim_keeps hP
    | with_reducible apply count_keeps hP
    | with_reducible refine ite_keeps ?_ ?_
    | split

theorem quarantine_keeps {P : State → Prop} (hP : Kept P) {s : State} {n : Nat} {a : Anc} {reason : Nat} (_ : P s) :
    P (State.quarantine s n a reason) := by
  unfold State.quarantine
  repeat' first
    | with_reducible assumption
    | (intro _x)
    | (extract_lets +onlyGivenNames x; refine keep_cut (P := P) (x := x) ?_ ?_; (on_goal 1 => subst x); (on_goal 2 => (intro _h; try clear_value x)))
    | (extract_lets +onlyGivenNames x; refine keep_cut (P := P) (x := x.s) ?_ ?_; (on_goal 1 => subst x); (on_goal 2 => (intro _h; try clear_value x)))
    | (extract_lets +onlyGivenNames x; refine keep_cut (P := P) (x := x.1) ?_ ?_; (on_goal 1 => subst x); (on_goal 2 => (intro _h; try clear_value x)))
    | (extract_lets +onlyGivenNames x; refine keep_cut (P := P) (x := x.2) ?_ ?_; (on_goal 1 => subst x); (on_goal 2 => (intro _h; try clear_value x)))
    | (extract_lets +onlyGivenNames x; try clear_value x)
    | with_reducible apply wr_keeps hP
    | with_reducible apply ancBad_keeps hP
    | with_reducible apply inc_keeps hP
    | with_reducible refine ite_keeps ?_ ?_
    | split

theorem execCdrUnlock_keeps {P : State → Prop} (hP : Kept P) {n : Fin 48} {s : State} (_ : P s) :
    onOut P (execCdrUnlock n s) := by
  unfold execCdrUnlock
  repeat' first
    | with_reducible assumption
    | (intro _x)
    | (extract_lets +onlyGivenNames x; refine keep_cut (P := P) (x := x) ?_ ?_; (on_goal 1 => subst x); (on_goal 2 => (intro _h; try clear_value x)))
    | (extract_lets +onlyGivenNames x; refine keep_cut (P := P) (x := x.s) ?_ ?_; (on_goal 1 => subst x); (on_goal 2 => (intro _h; try clear_value x)))
    | (extract_lets +onlyGivenNames x; refine keep_cut (P := P) (x := x.1) ?_ ?_; (on_goal 1 => subst x); (on_goal 2 => (intro _h; try clear_value x)))
    | (extract_lets +onlyGivenNames x; refine keep_cut (P := P) (x := x.2) ?_ ?_; (on_goal 1 => subst x); (on_goal 2 => (intro _h; try clear_value x)))
    | (extract_lets +onlyGivenNames x; try clear_value x)
    | with_reducible refine ite_out ?_ ?_
    | with_reducible apply cdrUnlock_keeps hP
    | with_reducible apply onOut_next
    | with_reducible refine ite_keeps ?_ ?_
    | split

theorem ancStore_keeps {P : State → Prop} (hP : Kept P) (hM : KeptMem P) {s : State} {n : Nat} {rec : List Nat} (_ : P s) :
    P (State.ancStore s n rec) := by
  unfold State.ancStore
  repeat' first
    | with_reducible assumption
    | (intro _x)
    | (extract_lets +onlyGivenNames x; refine keep_cut (P := P) (x := x) ?_ ?_; (on_goal 1 => subst x); (on_goal 2 => (intro _h; try clear_value x)))
    | (extract_lets +onlyGivenNames x; refine keep_cut (P := P) (x := x.s) ?_ ?_; (on_goal 1 => subst x); (on_goal 2 => (intro _h; try clear_value x)))
    | (extract_lets +onlyGivenNames x; refine keep_cut (P := P) (x := x.1) ?_ ?_; (on_goal 1 => subst x); (on_goal 2 => (intro _h; try clear_value x)))
    | (extract_lets +onlyGivenNames x; refine keep_cut (P := P) (x := x.2) ?_ ?_; (on_goal 1 => subst x); (on_goal 2 => (intro _h; try clear_value x)))
    | (extract_lets +onlyGivenNames x; try clear_value x)
    | with_reducible apply wr_keeps hP
    | with_reducible apply raiseLim_keeps hP
    | with_reducible apply fsWrites_keeps hP hM
    | with_reducible refine ite_keeps ?_ ?_
    | split

theorem rxIntervalLatch_keeps {P : State → Prop} (hP : Kept P) {n : Fin 48} {s : State} (_ : P s) :
    onOut P (rxIntervalLatch n s) := by
  unfold rxIntervalLatch
  repeat' first
    | with_reducible assumption
    | (intro _x)
    | (extract_lets +onlyGivenNames x; refine keep_cut (P := P) (x := x) ?_ ?_; (on_goal 1 => subst x); (on_goal 2 => (intro _h; try clear_value x)))
    | (extract_lets +onlyGivenNames x; refine keep_cut (P := P) (x := x.s) ?_ ?_; (on_goal 1 => subst x); (on_goal 2 => (intro _h; try clear_value x)))
    | (extract_lets +onlyGivenNames x; refine keep_cut (P := P) (x := x.1) ?_ ?_; (on_goal 1 => subst x); (on_goal 2 => (intro _h; try clear_value x)))
    | (extract_lets +onlyGivenNames x; refine keep_cut (P := P) (x := x.2) ?_ ?_; (on_goal 1 => subst x); (on_goal 2 => (intro _h; try clear_value x)))
    | (extract_lets +onlyGivenNames x; try clear_value x)
    | with_reducible refine ite_out ?_ ?_
    | with_reducible apply wr_keeps hP
    | with_reducible apply latch_keeps hP
    | with_reducible apply onOut_next
    | with_reducible refine ite_keeps ?_ ?_
    | split

theorem execRxEnergyPresent_keeps {P : State → Prop} (hP : Kept P) {n : Fin 48} {s : State} (_ : P s) :
    onOut P (execRxEnergyPresent n s) := by
  unfold execRxEnergyPresent
  repeat' first
    | with_reducible assumption
    | (intro _x)
    | (extract_lets +onlyGivenNames x; refine keep_cut (P := P) (x := x) ?_ ?_; (on_goal 1 => subst x); (on_goal 2 => (intro _h; try clear_value x)))
    | (extract_lets +onlyGivenNames x; refine keep_cut (P := P) (x := x.s) ?_ ?_; (on_goal 1 => subst x); (on_goal 2 => (intro _h; try clear_value x)))
    | (extract_lets +onlyGivenNames x; refine keep_cut (P := P) (x := x.1) ?_ ?_; (on_goal 1 => subst x); (on_goal 2 => (intro _h; try clear_value x)))
    | (extract_lets +onlyGivenNames x; refine keep_cut (P := P) (x := x.2) ?_ ?_; (on_goal 1 => subst x); (on_goal 2 => (intro _h; try clear_value x)))
    | (extract_lets +onlyGivenNames x; try clear_value x)
    | with_reducible refine ite_out ?_ ?_
    | with_reducible apply wrs_keeps hP
    | with_reducible apply inMove_keeps hP
    | with_reducible apply onOut_next
    | with_reducible refine ite_keeps ?_ ?_
    | split

theorem rxTrsLoss_keeps {P : State → Prop} (hP : Kept P) {n : Fin 48} {s : State} (_ : P s) :
    onOut P (rxTrsLoss n s) := by
  unfold rxTrsLoss
  repeat' first
    | with_reducible assumption
    | (intro _x)
    | (extract_lets +onlyGivenNames x; refine keep_cut (P := P) (x := x) ?_ ?_; (on_goal 1 => subst x); (on_goal 2 => (intro _h; try clear_value x)))
    | (extract_lets +onlyGivenNames x; refine keep_cut (P := P) (x := x.s) ?_ ?_; (on_goal 1 => subst x); (on_goal 2 => (intro _h; try clear_value x)))
    | (extract_lets +onlyGivenNames x; refine keep_cut (P := P) (x := x.1) ?_ ?_; (on_goal 1 => subst x); (on_goal 2 => (intro _h; try clear_value x)))
    | (extract_lets +onlyGivenNames x; refine keep_cut (P := P) (x := x.2) ?_ ?_; (on_goal 1 => subst x); (on_goal 2 => (intro _h; try clear_value x)))
    | (extract_lets +onlyGivenNames x; try clear_value x)
    | with_reducible refine ite_out ?_ ?_
    | with_reducible apply inDown_keeps hP
    | with_reducible apply onOut_next
    | with_reducible refine ite_keeps ?_ ?_
    | split

theorem pairStamp_keeps {P : State → Prop} (hP : Kept P) {s : State} {n : Nat} (_ : P s) :
    P (State.pairStamp s n) := by
  unfold State.pairStamp
  repeat' first
    | with_reducible assumption
    | (intro _x)
    | (extract_lets +onlyGivenNames x; refine keep_cut (P := P) (x := x) ?_ ?_; (on_goal 1 => subst x); (on_goal 2 => (intro _h; try clear_value x)))
    | (extract_lets +onlyGivenNames x; refine keep_cut (P := P) (x := x.s) ?_ ?_; (on_goal 1 => subst x); (on_goal 2 => (intro _h; try clear_value x)))
    | (extract_lets +onlyGivenNames x; refine keep_cut (P := P) (x := x.1) ?_ ?_; (on_goal 1 => subst x); (on_goal 2 => (intro _h; try clear_value x)))
    | (extract_lets +onlyGivenNames x; refine keep_cut (P := P) (x := x.2) ?_ ?_; (on_goal 1 => subst x); (on_goal 2 => (intro _h; try clear_value x)))
    | (extract_lets +onlyGivenNames x; try clear_value x)
    | with_reducible apply wr_keeps hP
    | with_reducible apply wrI_keeps hP
    | with_reducible apply brEval_keeps hP
    | with_reducible apply up_keeps hP
    | with_reducible refine ite_keeps ?_ ?_
    | split

theorem ringSlot_keeps {P : State → Prop} (hP : Kept P) (hM : KeptMem P) {s : State} {i : Nat} {stamp : Nat} (_ : P s) :
    P (State.ringSlot s i stamp) := by
  unfold State.ringSlot
  repeat' first
    | with_reducible assumption
    | (intro _x)
    | (extract_lets +onlyGivenNames x; refine keep_cut (P := P) (x := x) ?_ ?_; (on_goal 1 => subst x); (on_goal 2 => (intro _h; try clear_value x)))
    | (extract_lets +onlyGivenNames x; refine keep_cut (P := P) (x := x.s) ?_ ?_; (on_goal 1 => subst x); (on_goal 2 => (intro _h; try clear_value x)))
    | (extract_lets +onlyGivenNames x; refine keep_cut (P := P) (x := x.1) ?_ ?_; (on_goal 1 => subst x); (on_goal 2 => (intro _h; try clear_value x)))
    | (extract_lets +onlyGivenNames x; refine keep_cut (P := P) (x := x.2) ?_ ?_; (on_goal 1 => subst x); (on_goal 2 => (intro _h; try clear_value x)))
    | (extract_lets +onlyGivenNames x; try clear_value x)
    | with_reducible apply wr_keeps hP
    | with_reducible apply wrs_keeps hP
    | with_reducible apply fold_keeps
    | with_reducible apply fold_fst_keeps
    | with_reducible apply inc_keeps hP
    | with_reducible apply fsWrites_keeps hP hM
    | with_reducible refine ite_keeps ?_ ?_
    | split

theorem execCdrLock_keeps {P : State → Prop} (hP : Kept P) {n : Fin 48} {rate : Nat} {s : State} (_ : P s) :
    onOut P (execCdrLock n rate s) := by
  unfold execCdrLock
  repeat' first
    | with_reducible assumption
    | (intro _x)
    | (extract_lets +onlyGivenNames x; refine keep_cut (P := P) (x := x) ?_ ?_; (on_goal 1 => subst x); (on_goal 2 => (intro _h; try clear_value x)))
    | (extract_lets +onlyGivenNames x; refine keep_cut (P := P) (x := x.s) ?_ ?_; (on_goal 1 => subst x); (on_goal 2 => (intro _h; try clear_value x)))
    | (extract_lets +onlyGivenNames x; refine keep_cut (P := P) (x := x.1) ?_ ?_; (on_goal 1 => subst x); (on_goal 2 => (intro _h; try clear_value x)))
    | (extract_lets +onlyGivenNames x; refine keep_cut (P := P) (x := x.2) ?_ ?_; (on_goal 1 => subst x); (on_goal 2 => (intro _h; try clear_value x)))
    | (extract_lets +onlyGivenNames x; try clear_value x)
    | with_reducible refine ite_out ?_ ?_
    | with_reducible apply wr_keeps hP
    | with_reducible apply inMove_keeps hP
    | with_reducible apply onOut_next
    | with_reducible refine ite_keeps ?_ ?_
    | split

theorem ancLate_keeps {P : State → Prop} (hP : Kept P) {s : State} {n : Nat} (_ : P s) :
    P (State.ancLate s n) := by
  unfold State.ancLate
  repeat' first
    | with_reducible assumption
    | (intro _x)
    | (extract_lets +onlyGivenNames x; refine keep_cut (P := P) (x := x) ?_ ?_; (on_goal 1 => subst x); (on_goal 2 => (intro _h; try clear_value x)))
    | (extract_lets +onlyGivenNames x; refine keep_cut (P := P) (x := x.s) ?_ ?_; (on_goal 1 => subst x); (on_goal 2 => (intro _h; try clear_value x)))
    | (extract_lets +onlyGivenNames x; refine keep_cut (P := P) (x := x.1) ?_ ?_; (on_goal 1 => subst x); (on_goal 2 => (intro _h; try clear_value x)))
    | (extract_lets +onlyGivenNames x; refine keep_cut (P := P) (x := x.2) ?_ ?_; (on_goal 1 => subst x); (on_goal 2 => (intro _h; try clear_value x)))
    | (extract_lets +onlyGivenNames x; try clear_value x)
    | with_reducible apply raiseLim_keeps hP
    | with_reducible apply count_keeps hP
    | with_reducible refine ite_keeps ?_ ?_
    | split

theorem frameStart_keeps {P : State → Prop} (hP : Kept P) (hM : KeptMem P) {s : State} {n : Nat} {stamp : Nat} (_ : P s) :
    P (State.frameStart s n stamp) := by
  unfold State.frameStart
  repeat' first
    | with_reducible assumption
    | (intro _x)
    | (extract_lets +onlyGivenNames x; refine keep_cut (P := P) (x := x) ?_ ?_; (on_goal 1 => subst x); (on_goal 2 => (intro _h; try clear_value x)))
    | (extract_lets +onlyGivenNames x; refine keep_cut (P := P) (x := x.s) ?_ ?_; (on_goal 1 => subst x); (on_goal 2 => (intro _h; try clear_value x)))
    | (extract_lets +onlyGivenNames x; refine keep_cut (P := P) (x := x.1) ?_ ?_; (on_goal 1 => subst x); (on_goal 2 => (intro _h; try clear_value x)))
    | (extract_lets +onlyGivenNames x; refine keep_cut (P := P) (x := x.2) ?_ ?_; (on_goal 1 => subst x); (on_goal 2 => (intro _h; try clear_value x)))
    | (extract_lets +onlyGivenNames x; try clear_value x)
    | with_reducible apply wr_keeps hP
    | with_reducible apply setVec_keeps hP
    | with_reducible apply wrs_keeps hP
    | with_reducible apply upto_keeps
    | with_reducible apply phaseStamp_keeps hP
    | with_reducible apply inc_keeps hP
    | with_reducible apply latch_keeps hP
    | with_reducible apply pairStamp_keeps hP
    | with_reducible apply ringSlot_keeps hP hM
    | with_reducible refine ite_keeps ?_ ?_
    | split

theorem rxSwitchLineStamp_keeps {P : State → Prop} (hP : Kept P) (hM : KeptMem P) {q : Fin 12} {k : Fin 4} {ns : Nat} {s : State} (_ : P s) :
    onOut P (rxSwitchLineStamp q k ns s) := by
  unfold rxSwitchLineStamp
  repeat' first
    | with_reducible assumption
    | (intro _x)
    | (extract_lets +onlyGivenNames x; refine keep_cut (P := P) (x := x) ?_ ?_; (on_goal 1 => subst x); (on_goal 2 => (intro _h; try clear_value x)))
    | (extract_lets +onlyGivenNames x; refine keep_cut (P := P) (x := x.s) ?_ ?_; (on_goal 1 => subst x); (on_goal 2 => (intro _h; try clear_value x)))
    | (extract_lets +onlyGivenNames x; refine keep_cut (P := P) (x := x.1) ?_ ?_; (on_goal 1 => subst x); (on_goal 2 => (intro _h; try clear_value x)))
    | (extract_lets +onlyGivenNames x; refine keep_cut (P := P) (x := x.2) ?_ ?_; (on_goal 1 => subst x); (on_goal 2 => (intro _h; try clear_value x)))
    | (extract_lets +onlyGivenNames x; try clear_value x)
    | with_reducible refine ite_out ?_ ?_
    | with_reducible apply wr_keeps hP
    | with_reducible apply frameStart_keeps hP hM
    | with_reducible apply quadEval_keeps hP
    | with_reducible apply onOut_next
    | with_reducible refine ite_keeps ?_ ?_
    | split

theorem execAncPacket_keeps {P : State → Prop} (hP : Kept P) (hM : KeptMem P) {n : Fin 48} {a : Anc} {s : State} (_ : P s) :
    onOut P (execAncPacket n a s) := by
  unfold execAncPacket
  repeat' first
    | with_reducible assumption
    | (intro _x)
    | (extract_lets +onlyGivenNames x; refine keep_cut (P := P) (x := x) ?_ ?_; (on_goal 1 => subst x); (on_goal 2 => (intro _h; try clear_value x)))
    | (extract_lets +onlyGivenNames x; refine keep_cut (P := P) (x := x.s) ?_ ?_; (on_goal 1 => subst x); (on_goal 2 => (intro _h; try clear_value x)))
    | (extract_lets +onlyGivenNames x; refine keep_cut (P := P) (x := x.1) ?_ ?_; (on_goal 1 => subst x); (on_goal 2 => (intro _h; try clear_value x)))
    | (extract_lets +onlyGivenNames x; refine keep_cut (P := P) (x := x.2) ?_ ?_; (on_goal 1 => subst x); (on_goal 2 => (intro _h; try clear_value x)))
    | (extract_lets +onlyGivenNames x; try clear_value x)
    | with_reducible refine ite_out ?_ ?_
    | with_reducible apply wr_keeps hP
    | with_reducible apply setVec_keeps hP
    | with_reducible apply wrs_keeps hP
    | with_reducible apply quarantine_keeps hP
    | with_reducible apply ancBad_keeps hP
    | with_reducible apply tcPacket_keeps hP
    | with_reducible apply ancLate_keeps hP
    | with_reducible apply inc_keeps hP
    | with_reducible apply count_keeps hP
    | with_reducible apply ancStore_keeps hP hM
    | with_reducible apply onOut_next
    | with_reducible refine ite_keeps ?_ ?_
    | split

theorem execCdrDwellExpiry_keeps {P : State → Prop} (hP : Kept P) {n : Fin 48} {s : State} (_ : P s) :
    onOut P (execCdrDwellExpiry n s) := by
  unfold execCdrDwellExpiry
  repeat' first
    | with_reducible assumption
    | (intro _x)
    | (extract_lets +onlyGivenNames x; refine keep_cut (P := P) (x := x) ?_ ?_; (on_goal 1 => subst x); (on_goal 2 => (intro _h; try clear_value x)))
    | (extract_lets +onlyGivenNames x; refine keep_cut (P := P) (x := x.s) ?_ ?_; (on_goal 1 => subst x); (on_goal 2 => (intro _h; try clear_value x)))
    | (extract_lets +onlyGivenNames x; refine keep_cut (P := P) (x := x.1) ?_ ?_; (on_goal 1 => subst x); (on_goal 2 => (intro _h; try clear_value x)))
    | (extract_lets +onlyGivenNames x; refine keep_cut (P := P) (x := x.2) ?_ ?_; (on_goal 1 => subst x); (on_goal 2 => (intro _h; try clear_value x)))
    | (extract_lets +onlyGivenNames x; try clear_value x)
    | with_reducible refine ite_out ?_ ?_
    | with_reducible apply wrs_keeps hP
    | with_reducible apply onOut_next
    | with_reducible refine ite_keeps ?_ ?_
    | split

theorem execTrsAligned_keeps {P : State → Prop} (hP : Kept P) {n : Fin 48} {mapping : Nat} {lines : Nat} {samples : Nat} {s : State} (_ : P s) :
    onOut P (execTrsAligned n mapping lines samples s) := by
  unfold execTrsAligned
  repeat' first
    | with_reducible assumption
    | (intro _x)
    | (extract_lets +onlyGivenNames x; refine keep_cut (P := P) (x := x) ?_ ?_; (on_goal 1 => subst x); (on_goal 2 => (intro _h; try clear_value x)))
    | (extract_lets +onlyGivenNames x; refine keep_cut (P := P) (x := x.s) ?_ ?_; (on_goal 1 => subst x); (on_goal 2 => (intro _h; try clear_value x)))
    | (extract_lets +onlyGivenNames x; refine keep_cut (P := P) (x := x.1) ?_ ?_; (on_goal 1 => subst x); (on_goal 2 => (intro _h; try clear_value x)))
    | (extract_lets +onlyGivenNames x; refine keep_cut (P := P) (x := x.2) ?_ ?_; (on_goal 1 => subst x); (on_goal 2 => (intro _h; try clear_value x)))
    | (extract_lets +onlyGivenNames x; try clear_value x)
    | with_reducible refine ite_out ?_ ?_
    | with_reducible apply wrs_keeps hP
    | with_reducible apply inMove_keeps hP
    | with_reducible apply onOut_next
    | with_reducible refine ite_keeps ?_ ?_
    | split

end Sys2Proof.Machine
end

