-- ==== Sys2Proof/Laws/KeepsCommit.lean ====
section
/-! SUPPORT. What the operations of Machine/Commit.lean keep. -/
set_option linter.all false
set_option maxRecDepth 8000
namespace Sys2Proof.Machine

theorem latentDiscardWrite_keeps0 {P : State → Prop} (hP : Kept P) (hL : KeptLat P) {mask : Nat} {s : State} (_ : P s) :
    onAns P (latentDiscardWrite mask s) := by
  unfold latentDiscardWrite
  repeat' first
    | with_reducible assumption
    | (intro _x)
    | (extract_lets +onlyGivenNames x; refine keep_cut (P := P) (x := x) ?_ ?_; (on_goal 1 => subst x); (on_goal 2 => (intro _h; try clear_value x)))
    | (extract_lets +onlyGivenNames x; refine keep_cut (P := P) (x := x.s) ?_ ?_; (on_goal 1 => subst x); (on_goal 2 => (intro _h; try clear_value x)))
    | (extract_lets +onlyGivenNames x; refine keep_cut (P := P) (x := x.1) ?_ ?_; (on_goal 1 => subst x); (on_goal 2 => (intro _h; try clear_value x)))
    | (extract_lets +onlyGivenNames x; refine keep_cut (P := P) (x := x.2) ?_ ?_; (on_goal 1 => subst x); (on_goal 2 => (intro _h; try clear_value x)))
    | (extract_lets +onlyGivenNames x; try clear_value x)
    | with_reducible refine ite_ans ?_ ?_
    | with_reducible apply wr_keeps hP
    | with_reducible apply ansRange_keeps hP
    | with_reducible apply ansRange_keeps0 hP
    | with_reducible apply ansOk_keeps hP
    | with_reducible apply ansOk_keeps0 hP
    | (exact latFilter_keeps hL ‹P s›)
    | with_reducible apply onAns_mk
    | with_reducible refine ite_keeps ?_ ?_
    | split

theorem latentDiscardWrite_keeps {P : State → Prop} (hP : Kept P) (hL : KeptLat P) {mask : Nat} {s : State} (h0 : P s) :
    P (latentDiscardWrite mask s).s := latentDiscardWrite_keeps0 hP hL h0

theorem slvTriggerWrite_keeps0 {P : State → Prop} (hP : Kept P) {v : Nat} {p : Nat} {s : State} (_ : P s) :
    onAns P (slvTriggerWrite v p s) := by
  unfold slvTriggerWrite
  repeat' first
    | with_reducible assumption
    | (intro _x)
    | (extract_lets +onlyGivenNames x; refine keep_cut (P := P) (x := x) ?_ ?_; (on_goal 1 => subst x); (on_goal 2 => (intro _h; try clear_value x)))
    | (extract_lets +onlyGivenNames x; refine keep_cut (P := P) (x := x.s) ?_ ?_; (on_goal 1 => subst x); (on_goal 2 => (intro _h; try clear_value x)))
    | (extract_lets +onlyGivenNames x; refine keep_cut (P := P) (x := x.1) ?_ ?_; (on_goal 1 => subst x); (on_goal 2 => (intro _h; try clear_value x)))
    | (extract_lets +onlyGivenNames x; refine keep_cut (P := P) (x := x.2) ?_ ?_; (on_goal 1 => subst x); (on_goal 2 => (intro _h; try clear_value x)))
    | (extract_lets +onlyGivenNames x; try clear_value x)
    | with_reducible refine ite_ans ?_ ?_
    | with_reducible apply wr_keeps hP
    | with_reducible apply ansBusy_keeps hP
    | with_reducible apply ansBusy_keeps0 hP
    | with_reducible apply ansRange_keeps hP
    | with_reducible apply ansRange_keeps0 hP
    | with_reducible apply ansOk_keeps hP
    | with_reducible apply ansOk_keeps0 hP
    | with_reducible apply onAns_mk
    | with_reducible refine ite_keeps ?_ ?_
    | split

theorem slvTriggerWrite_keeps {P : State → Prop} (hP : Kept P) {v : Nat} {p : Nat} {s : State} (h0 : P s) :
    P (slvTriggerWrite v p s).s := slvTriggerWrite_keeps0 hP h0

theorem grantPlaces_keeps {P : State → Prop} (hP : Kept P) {s : State} {v : Verdict} (_ : P s) :
    P (State.grantPlaces s v) := by
  unfold State.grantPlaces
  repeat' first
    | with_reducible assumption
    | (intro _x)
    | (extract_lets +onlyGivenNames x; refine keep_cut (P := P) (x := x) ?_ ?_; (on_goal 1 => subst x); (on_goal 2 => (intro _h; try clear_value x)))
    | (extract_lets +onlyGivenNames x; refine keep_cut (P := P) (x := x.s) ?_ ?_; (on_goal 1 => subst x); (on_goal 2 => (intro _h; try clear_value x)))
    | (extract_lets +onlyGivenNames x; refine keep_cut (P := P) (x := x.1) ?_ ?_; (on_goal 1 => subst x); (on_goal 2 => (intro _h; try clear_value x)))
    | (extract_lets +onlyGivenNames x; refine keep_cut (P := P) (x := x.2) ?_ ?_; (on_goal 1 => subst x); (on_goal 2 => (intro _h; try clear_value x)))
    | (extract_lets +onlyGivenNames x; try clear_value x)
    | with_reducible apply wr_keeps hP
    | with_reducible apply wrs_keeps hP
    | with_reducible apply fold_keeps
    | with_reducible apply fold_fst_keeps
    | with_reducible apply ringPlace_keeps hP
    | with_reducible apply ringRelease_keeps hP
    | with_reducible apply setAllocs_keeps hP
    | with_reducible refine ite_keeps ?_ ?_
    | split

theorem comSync_keeps {P : State → Prop} (hP : Kept P) {s : State} {units : List Nat} (_ : P s) :
    P (State.comSync s units) := by
  unfold State.comSync
  repeat' first
    | with_reducible assumption
    | (intro _x)
    | (extract_lets +onlyGivenNames x; refine keep_cut (P := P) (x := x) ?_ ?_; (on_goal 1 => subst x); (on_goal 2 => (intro _h; try clear_value x)))
    | (extract_lets +onlyGivenNames x; refine keep_cut (P := P) (x := x.s) ?_ ?_; (on_goal 1 => subst x); (on_goal 2 => (intro _h; try clear_value x)))
    | (extract_lets +onlyGivenNames x; refine keep_cut (P := P) (x := x.1) ?_ ?_; (on_goal 1 => subst x); (on_goal 2 => (intro _h; try clear_value x)))
    | (extract_lets +onlyGivenNames x; refine keep_cut (P := P) (x := x.2) ?_ ?_; (on_goal 1 => subst x); (on_goal 2 => (intro _h; try clear_value x)))
    | (extract_lets +onlyGivenNames x; try clear_value x)
    | with_reducible apply fold_keeps
    | with_reducible apply fold_fst_keeps
    | with_reducible apply txqSync_keeps hP
    | with_reducible apply ringsSync_keeps hP
    | with_reducible apply protSync_keeps hP
    | with_reducible apply tstSync_keeps hP
    | with_reducible refine ite_keeps ?_ ?_
    | split

theorem wbTake_keeps {P : State → Prop} (hP : Kept P) {s : State} (_ : P s) :
    P (State.wbTake s) := by
  unfold State.wbTake
  repeat' first
    | with_reducible assumption
    | (intro _x)
    | (extract_lets +onlyGivenNames x; refine keep_cut (P := P) (x := x) ?_ ?_; (on_goal 1 => subst x); (on_goal 2 => (intro _h; try clear_value x)))
    | (extract_lets +onlyGivenNames x; refine keep_cut (P := P) (x := x.s) ?_ ?_; (on_goal 1 => subst x); (on_goal 2 => (intro _h; try clear_value x)))
    | (extract_lets +onlyGivenNames x; refine keep_cut (P := P) (x := x.1) ?_ ?_; (on_goal 1 => subst x); (on_goal 2 => (intro _h; try clear_value x)))
    | (extract_lets +onlyGivenNames x; refine keep_cut (P := P) (x := x.2) ?_ ?_; (on_goal 1 => subst x); (on_goal 2 => (intro _h; try clear_value x)))
    | (extract_lets +onlyGivenNames x; try clear_value x)
    | with_reducible apply wr_keeps hP
    | with_reducible apply upto_keeps
    | with_reducible refine ite_keeps ?_ ?_
    | split

theorem slvCancelWrite_keeps0 {P : State → Prop} (hP : Kept P) (hC : KeptCom P) (hL : KeptLat P) {v : Nat} {x : Nat} {s : State} (_ : P s) :
    onAns P (slvCancelWrite v x s) := by
  unfold slvCancelWrite
  repeat' first
    | with_reducible assumption
    | (intro _x)
    | (extract_lets +onlyGivenNames x; refine keep_cut (P := P) (x := x) ?_ ?_; (on_goal 1 => subst x); (on_goal 2 => (intro _h; try clear_value x)))
    | (extract_lets +onlyGivenNames x; refine keep_cut (P := P) (x := x.s) ?_ ?_; (on_goal 1 => subst x); (on_goal 2 => (intro _h; try clear_value x)))
    | (extract_lets +onlyGivenNames x; refine keep_cut (P := P) (x := x.1) ?_ ?_; (on_goal 1 => subst x); (on_goal 2 => (intro _h; try clear_value x)))
    | (extract_lets +onlyGivenNames x; refine keep_cut (P := P) (x := x.2) ?_ ?_; (on_goal 1 => subst x); (on_goal 2 => (intro _h; try clear_value x)))
    | (extract_lets +onlyGivenNames x; try clear_value x)
    | with_reducible refine ite_ans ?_ ?_
    | with_reducible apply raise_keeps hP
    | with_reducible apply wrs_keeps hP
    | with_reducible apply fold_keeps
    | with_reducible apply fold_fst_keeps
    | with_reducible apply ansBusy_keeps hP
    | with_reducible apply ansBusy_keeps0 hP
    | with_reducible apply predDrop_keeps hP
    | with_reducible apply grantPlaces_keeps hP
    | with_reducible apply salvoDone_keeps hP
    | with_reducible apply ansOk_keeps hP
    | with_reducible apply ansOk_keeps0 hP
    | with_reducible apply comSync_keeps hP
    | with_reducible apply wbTake_keeps hP
    | (exact latBack_keeps hC hL ‹P s›)
    | with_reducible apply onAns_mk
    | with_reducible refine ite_keeps ?_ ?_
    | split
    | with_reducible apply hC.com
    | with_reducible apply hC.due

theorem slvCancelWrite_keeps {P : State → Prop} (hP : Kept P) (hC : KeptCom P) (hL : KeptLat P) {v : Nat} {x : Nat} {s : State} (h0 : P s) :
    P (slvCancelWrite v x s).s := slvCancelWrite_keeps0 hP hC hL h0

theorem slvWrite_keeps {P : State → Prop} (hP : Kept P) {s : State} {salvo : Nat} {state : Nat} {mask : Nat} {seq : Nat} {reason : Nat} {refuser : Nat} {holder : Nat} {at' : Nat} {flags : Nat} (_ : P s) :
    P (State.slvWrite s salvo state mask seq reason refuser holder at' flags) := by
  unfold State.slvWrite
  repeat' first
    | with_reducible assumption
    | (intro _x)
    | (extract_lets +onlyGivenNames x; refine keep_cut (P := P) (x := x) ?_ ?_; (on_goal 1 => subst x); (on_goal 2 => (intro _h; try clear_value x)))
    | (extract_lets +onlyGivenNames x; refine keep_cut (P := P) (x := x.s) ?_ ?_; (on_goal 1 => subst x); (on_goal 2 => (intro _h; try clear_value x)))
    | (extract_lets +onlyGivenNames x; refine keep_cut (P := P) (x := x.1) ?_ ?_; (on_goal 1 => subst x); (on_goal 2 => (intro _h; try clear_value x)))
    | (extract_lets +onlyGivenNames x; refine keep_cut (P := P) (x := x.2) ?_ ?_; (on_goal 1 => subst x); (on_goal 2 => (intro _h; try clear_value x)))
    | (extract_lets +onlyGivenNames x; try clear_value x)
    | with_reducible apply wrs_keeps hP
    | with_reducible refine ite_keeps ?_ ?_
    | split

theorem replacePending_keeps {P : State → Prop} (hP : Kept P) {s : State} {x : Nat} (_ : P s) :
    P (State.replacePending s x) := by
  unfold State.replacePending
  repeat' first
    | with_reducible assumption
    | (intro _x)
    | (extract_lets +onlyGivenNames x; refine keep_cut (P := P) (x := x) ?_ ?_; (on_goal 1 => subst x); (on_goal 2 => (intro _h; try clear_value x)))
    | (extract_lets +onlyGivenNames x; refine keep_cut (P := P) (x := x.s) ?_ ?_; (on_goal 1 => subst x); (on_goal 2 => (intro _h; try clear_value x)))
    | (extract_lets +onlyGivenNames x; refine keep_cut (P := P) (x := x.1) ?_ ?_; (on_goal 1 => subst x); (on_goal 2 => (intro _h; try clear_value x)))
    | (extract_lets +onlyGivenNames x; refine keep_cut (P := P) (x := x.2) ?_ ?_; (on_goal 1 => subst x); (on_goal 2 => (intro _h; try clear_value x)))
    | (extract_lets +onlyGivenNames x; try clear_value x)
    | with_reducible apply wrs_keeps hP
    | with_reducible refine ite_keeps ?_ ?_
    | split

theorem supersede_keeps {P : State → Prop} (hP : Kept P) {s : State} {c : Com} (_ : P s) :
    P (State.supersede s c) := by
  unfold State.supersede
  repeat' first
    | with_reducible assumption
    | (intro _x)
    | (extract_lets +onlyGivenNames x; refine keep_cut (P := P) (x := x) ?_ ?_; (on_goal 1 => subst x); (on_goal 2 => (intro _h; try clear_value x)))
    | (extract_lets +onlyGivenNames x; refine keep_cut (P := P) (x := x.s) ?_ ?_; (on_goal 1 => subst x); (on_goal 2 => (intro _h; try clear_value x)))
    | (extract_lets +onlyGivenNames x; refine keep_cut (P := P) (x := x.1) ?_ ?_; (on_goal 1 => subst x); (on_goal 2 => (intro _h; try clear_value x)))
    | (extract_lets +onlyGivenNames x; refine keep_cut (P := P) (x := x.2) ?_ ?_; (on_goal 1 => subst x); (on_goal 2 => (intro _h; try clear_value x)))
    | (extract_lets +onlyGivenNames x; try clear_value x)
    | with_reducible apply setBit_keeps hP
    | with_reducible apply incSat_keeps hP
    | with_reducible refine ite_keeps ?_ ?_
    | split

theorem enterCom_keeps {P : State → Prop} (hP : Kept P) (hC : KeptCom P) {s : State} {l : List (Nat × Nat)} {salvo : Nat} {seq : Nat} (_ : P s) :
    P (State.enterCom s l salvo seq) := by
  unfold State.enterCom
  repeat' first
    | with_reducible assumption
    | (intro _x)
    | (extract_lets +onlyGivenNames x; refine keep_cut (P := P) (x := x) ?_ ?_; (on_goal 1 => subst x); (on_goal 2 => (intro _h; try clear_value x)))
    | (extract_lets +onlyGivenNames x; refine keep_cut (P := P) (x := x.s) ?_ ?_; (on_goal 1 => subst x); (on_goal 2 => (intro _h; try clear_value x)))
    | (extract_lets +onlyGivenNames x; refine keep_cut (P := P) (x := x.1) ?_ ?_; (on_goal 1 => subst x); (on_goal 2 => (intro _h; try clear_value x)))
    | (extract_lets +onlyGivenNames x; refine keep_cut (P := P) (x := x.2) ?_ ?_; (on_goal 1 => subst x); (on_goal 2 => (intro _h; try clear_value x)))
    | (extract_lets +onlyGivenNames x; try clear_value x)
    | with_reducible apply fold_keeps
    | with_reducible apply fold_fst_keeps
    | with_reducible apply replacePending_keeps hP
    | with_reducible apply supersede_keeps hP
    | with_reducible refine ite_keeps ?_ ?_
    | split
    | with_reducible apply hC.com
    | with_reducible apply hC.due

theorem predPut_keeps {P : State → Prop} (hP : Kept P) {s : State} {u : Nat} {seq : Nat} {frame : Nat} (_ : P s) :
    P (State.predPut s u seq frame) := by
  unfold State.predPut
  repeat' first
    | with_reducible assumption
    | (intro _x)
    | (extract_lets +onlyGivenNames x; refine keep_cut (P := P) (x := x) ?_ ?_; (on_goal 1 => subst x); (on_goal 2 => (intro _h; try clear_value x)))
    | (extract_lets +onlyGivenNames x; refine keep_cut (P := P) (x := x.s) ?_ ?_; (on_goal 1 => subst x); (on_goal 2 => (intro _h; try clear_value x)))
    | (extract_lets +onlyGivenNames x; refine keep_cut (P := P) (x := x.1) ?_ ?_; (on_goal 1 => subst x); (on_goal 2 => (intro _h; try clear_value x)))
    | (extract_lets +onlyGivenNames x; refine keep_cut (P := P) (x := x.2) ?_ ?_; (on_goal 1 => subst x); (on_goal 2 => (intro _h; try clear_value x)))
    | (extract_lets +onlyGivenNames x; try clear_value x)
    | with_reducible apply setVec_keeps hP
    | with_reducible apply predSync_keeps hP
    | with_reducible refine ite_keeps ?_ ?_
    | split

theorem freeUnits_keeps {P : State → Prop} (hP : Kept P) (hC : KeptCom P) {s : State} {units : List Nat} (_ : P s) :
    P (State.freeUnits s units) := by
  unfold State.freeUnits
  repeat' first
    | with_reducible assumption
    | (intro _x)
    | (extract_lets +onlyGivenNames x; refine keep_cut (P := P) (x := x) ?_ ?_; (on_goal 1 => subst x); (on_goal 2 => (intro _h; try clear_value x)))
    | (extract_lets +onlyGivenNames x; refine keep_cut (P := P) (x := x.s) ?_ ?_; (on_goal 1 => subst x); (on_goal 2 => (intro _h; try clear_value x)))
    | (extract_lets +onlyGivenNames x; refine keep_cut (P := P) (x := x.1) ?_ ?_; (on_goal 1 => subst x); (on_goal 2 => (intro _h; try clear_value x)))
    | (extract_lets +onlyGivenNames x; refine keep_cut (P := P) (x := x.2) ?_ ?_; (on_goal 1 => subst x); (on_goal 2 => (intro _h; try clear_value x)))
    | (extract_lets +onlyGivenNames x; try clear_value x)
    | with_reducible apply fold_keeps
    | with_reducible apply fold_fst_keeps
    | with_reducible apply developFree_keeps hP hC
    | with_reducible refine ite_keeps ?_ ?_
    | split

theorem commitTake_keeps0 {P : State → Prop} (hP : Kept P) (hC : KeptCom P) (hL : KeptLat P) {s : State} {salvo : Nat} {mask : Nat} {at' : Option Nat} {slot : Nat} {v : Verdict} (_ : P s) :
    onCom P (State.commitTake s salvo mask at' slot v) := by
  unfold State.commitTake
  repeat' first
    | with_reducible assumption
    | (intro _x)
    | (extract_lets +onlyGivenNames x; refine keep_cut (P := P) (x := x) ?_ ?_; (on_goal 1 => subst x); (on_goal 2 => (intro _h; try clear_value x)))
    | (extract_lets +onlyGivenNames x; refine keep_cut (P := P) (x := x.s) ?_ ?_; (on_goal 1 => subst x); (on_goal 2 => (intro _h; try clear_value x)))
    | (extract_lets +onlyGivenNames x; refine keep_cut (P := P) (x := x.1) ?_ ?_; (on_goal 1 => subst x); (on_goal 2 => (intro _h; try clear_value x)))
    | (extract_lets +onlyGivenNames x; refine keep_cut (P := P) (x := x.2) ?_ ?_; (on_goal 1 => subst x); (on_goal 2 => (intro _h; try clear_value x)))
    | (extract_lets +onlyGivenNames x; try clear_value x)
    | with_reducible refine ite_com ?_ ?_
    | with_reducible apply wr_keeps hP
    | with_reducible apply wrs_keeps hP
    | with_reducible apply fold_keeps
    | with_reducible apply fold_fst_keeps
    | with_reducible apply grantPlaces_keeps hP
    | with_reducible apply enterCom_keeps hP hC
    | with_reducible apply slvWrite_keeps hP
    | with_reducible apply inc_keeps hP
    | with_reducible apply predPut_keeps hP
    | with_reducible apply comSync_keeps hP
    | with_reducible apply wbTake_keeps hP
    | with_reducible apply freeUnits_keeps hP hC
    | (exact latFilter_keeps hL ‹P s›)
    | with_reducible apply onCom_mk
    | with_reducible refine ite_keeps ?_ ?_
    | split
    | with_reducible apply hC.com
    | with_reducible apply hC.due

theorem commitTake_keeps {P : State → Prop} (hP : Kept P) (hC : KeptCom P) (hL : KeptLat P) {s : State} {salvo : Nat} {mask : Nat} {at' : Option Nat} {slot : Nat} {v : Verdict} (h0 : P s) :
    P (State.commitTake s salvo mask at' slot v).s := commitTake_keeps0 hP hC hL h0

theorem commit_keeps0 {P : State → Prop} (hP : Kept P) (hC : KeptCom P) (hL : KeptLat P) {s : State} {salvo : Nat} {mask : Nat} {at' : Option Nat} {slot : Nat} (_ : P s) :
    onCom P (State.commit s salvo mask at' slot) := by
  unfold State.commit
  repeat' first
    | with_reducible assumption
    | (intro _x)
    | (extract_lets +onlyGivenNames x; refine keep_cut (P := P) (x := x) ?_ ?_; (on_goal 1 => subst x); (on_goal 2 => (intro _h; try clear_value x)))
    | (extract_lets +onlyGivenNames x; refine keep_cut (P := P) (x := x.s) ?_ ?_; (on_goal 1 => subst x); (on_goal 2 => (intro _h; try clear_value x)))
    | (extract_lets +onlyGivenNames x; refine keep_cut (P := P) (x := x.1) ?_ ?_; (on_goal 1 => subst x); (on_goal 2 => (intro _h; try clear_value x)))
    | (extract_lets +onlyGivenNames x; refine keep_cut (P := P) (x := x.2) ?_ ?_; (on_goal 1 => subst x); (on_goal 2 => (intro _h; try clear_value x)))
    | (extract_lets +onlyGivenNames x; try clear_value x)
    | with_reducible refine ite_com ?_ ?_
    | with_reducible apply wr_keeps hP
    | with_reducible apply slvWrite_keeps hP
    | with_reducible apply logRefusal_keeps hP
    | with_reducible apply inc_keeps hP
    | with_reducible apply commitTake_keeps hP hC hL
    | with_reducible apply commitTake_keeps0 hP hC hL
    | with_reducible apply onCom_mk
    | with_reducible refine ite_keeps ?_ ?_
    | split
    | with_reducible apply hC.com
    | with_reducible apply hC.due

theorem commit_keeps {P : State → Prop} (hP : Kept P) (hC : KeptCom P) (hL : KeptLat P) {s : State} {salvo : Nat} {mask : Nat} {at' : Option Nat} {slot : Nat} (h0 : P s) :
    P (State.commit s salvo mask at' slot).s := commit_keeps0 hP hC hL h0

theorem execCommitAtTimeReached_keeps {P : State → Prop} (hP : Kept P) (hC : KeptCom P) {v : Fin 64} {s : State} (_ : P s) :
    onOut P (execCommitAtTimeReached v s) := by
  unfold execCommitAtTimeReached
  repeat' first
    | with_reducible assumption
    | (intro _x)
    | (extract_lets +onlyGivenNames x; refine keep_cut (P := P) (x := x) ?_ ?_; (on_goal 1 => subst x); (on_goal 2 => (intro _h; try clear_value x)))
    | (extract_lets +onlyGivenNames x; refine keep_cut (P := P) (x := x.s) ?_ ?_; (on_goal 1 => subst x); (on_goal 2 => (intro _h; try clear_value x)))
    | (extract_lets +onlyGivenNames x; refine keep_cut (P := P) (x := x.1) ?_ ?_; (on_goal 1 => subst x); (on_goal 2 => (intro _h; try clear_value x)))
    | (extract_lets +onlyGivenNames x; refine keep_cut (P := P) (x := x.2) ?_ ?_; (on_goal 1 => subst x); (on_goal 2 => (intro _h; try clear_value x)))
    | (extract_lets +onlyGivenNames x; try clear_value x)
    | with_reducible refine ite_out ?_ ?_
    | with_reducible apply wr_keeps hP
    | with_reducible apply comSync_keeps hP
    | with_reducible apply freeUnits_keeps hP hC
    | with_reducible apply onOut_next
    | with_reducible refine ite_keeps ?_ ?_
    | split
    | with_reducible apply hC.com
    | with_reducible apply hC.due

theorem fire_keeps {P : State → Prop} (hP : Kept P) (hC : KeptCom P) {s : State} {p : Nat} {v : Nat} (_ : P s) :
    P (State.fire s p v) := by
  unfold State.fire
  repeat' first
    | with_reducible assumption
    | (intro _x)
    | (extract_lets +onlyGivenNames x; refine keep_cut (P := P) (x := x) ?_ ?_; (on_goal 1 => subst x); (on_goal 2 => (intro _h; try clear_value x)))
    | (extract_lets +onlyGivenNames x; refine keep_cut (P := P) (x := x.s) ?_ ?_; (on_goal 1 => subst x); (on_goal 2 => (intro _h; try clear_value x)))
    | (extract_lets +onlyGivenNames x; refine keep_cut (P := P) (x := x.1) ?_ ?_; (on_goal 1 => subst x); (on_goal 2 => (intro _h; try clear_value x)))
    | (extract_lets +onlyGivenNames x; refine keep_cut (P := P) (x := x.2) ?_ ?_; (on_goal 1 => subst x); (on_goal 2 => (intro _h; try clear_value x)))
    | (extract_lets +onlyGivenNames x; try clear_value x)
    | with_reducible apply wr_keeps hP
    | with_reducible apply raise_keeps hP
    | with_reducible apply fold_keeps
    | with_reducible apply fold_fst_keeps
    | with_reducible apply setBit_keeps hP
    | with_reducible apply predPut_keeps hP
    | with_reducible refine ite_keeps ?_ ?_
    | split
    | with_reducible apply hC.com
    | with_reducible apply hC.due

theorem execSalvoTrigger_keeps {P : State → Prop} (hP : Kept P) (hC : KeptCom P) {p : Fin 32} {s : State} (_ : P s) :
    onOut P (execSalvoTrigger p s) := by
  unfold execSalvoTrigger
  repeat' first
    | with_reducible assumption
    | (intro _x)
    | (extract_lets +onlyGivenNames x; refine keep_cut (P := P) (x := x) ?_ ?_; (on_goal 1 => subst x); (on_goal 2 => (intro _h; try clear_value x)))
    | (extract_lets +onlyGivenNames x; refine keep_cut (P := P) (x := x.s) ?_ ?_; (on_goal 1 => subst x); (on_goal 2 => (intro _h; try clear_value x)))
    | (extract_lets +onlyGivenNames x; refine keep_cut (P := P) (x := x.1) ?_ ?_; (on_goal 1 => subst x); (on_goal 2 => (intro _h; try clear_value x)))
    | (extract_lets +onlyGivenNames x; refine keep_cut (P := P) (x := x.2) ?_ ?_; (on_goal 1 => subst x); (on_goal 2 => (intro _h; try clear_value x)))
    | (extract_lets +onlyGivenNames x; try clear_value x)
    | with_reducible refine ite_out ?_ ?_
    | with_reducible apply wr_keeps hP
    | with_reducible apply raise_keeps hP
    | with_reducible apply fold_keeps
    | with_reducible apply fold_fst_keeps
    | with_reducible apply fire_keeps hP hC
    | with_reducible apply comSync_keeps hP
    | with_reducible apply freeUnits_keeps hP hC
    | with_reducible apply onOut_next
    | with_reducible refine ite_keeps ?_ ?_
    | split

theorem execTriggerHoldoffEnd_keeps {P : State → Prop} (hP : Kept P) {p : Fin 32} {s : State} (_ : P s) :
    onOut P (execTriggerHoldoffEnd p s) := by
  unfold execTriggerHoldoffEnd
  repeat' first
    | with_reducible assumption
    | (intro _x)
    | (extract_lets +onlyGivenNames x; refine keep_cut (P := P) (x := x) ?_ ?_; (on_goal 1 => subst x); (on_goal 2 => (intro _h; try clear_value x)))
    | (extract_lets +onlyGivenNames x; refine keep_cut (P := P) (x := x.s) ?_ ?_; (on_goal 1 => subst x); (on_goal 2 => (intro _h; try clear_value x)))
    | (extract_lets +onlyGivenNames x; refine keep_cut (P := P) (x := x.1) ?_ ?_; (on_goal 1 => subst x); (on_goal 2 => (intro _h; try clear_value x)))
    | (extract_lets +onlyGivenNames x; refine keep_cut (P := P) (x := x.2) ?_ ?_; (on_goal 1 => subst x); (on_goal 2 => (intro _h; try clear_value x)))
    | (extract_lets +onlyGivenNames x; try clear_value x)
    | with_reducible refine ite_out ?_ ?_
    | with_reducible apply wr_keeps hP
    | with_reducible apply onOut_next
    | with_reducible refine ite_keeps ?_ ?_
    | split

end Sys2Proof.Machine
end

