-- ==== Sys2Proof/Laws/KeepsWrite.lean ====
section
/-! SUPPORT. What the operations of Machine/Write.lean keep. -/
set_option linter.all false
set_option maxRecDepth 8000
namespace Sys2Proof.Machine

theorem winSeen_keeps {P : State → Prop} (hP : Kept P) {s : State} {index : Nat} {first : Nat} {last : Nat} (_ : P s) :
    P (State.winSeen s index first last) := by
  unfold State.winSeen
  repeat' first
    | with_reducible assumption
    | (intro _x)
    | (extract_lets +onlyGivenNames x; refine keep_cut (P := P) (x := x) ?_ ?_; (on_goal 1 => subst x); (on_goal 2 => (intro _h; try clear_value x)))
    | (extract_lets +onlyGivenNames x; refine keep_cut (P := P) (x := x.s) ?_ ?_; (on_goal 1 => subst x); (on_goal 2 => (intro _h; try clear_value x)))
    | (extract_lets +onlyGivenNames x; refine keep_cut (P := P) (x := x.1) ?_ ?_; (on_goal 1 => subst x); (on_goal 2 => (intro _h; try clear_value x)))
    | (extract_lets +onlyGivenNames x; refine keep_cut (P := P) (x := x.2) ?_ ?_; (on_goal 1 => subst x); (on_goal 2 => (intro _h; try clear_value x)))
    | (extract_lets +onlyGivenNames x; try clear_value x)
    | with_reducible apply winCheck_keeps hP
    | with_reducible apply winCheck_keeps0 hP
    | with_reducible refine ite_keeps ?_ ?_
    | split

theorem counted_keeps0 {P : State → Prop} (hP : Kept P) {a : Ans} (_ : P a.s) :
    onAns P (State.counted a) := by
  unfold State.counted
  repeat' first
    | with_reducible assumption
    | (intro _x)
    | (extract_lets +onlyGivenNames x; refine keep_cut (P := P) (x := x) ?_ ?_; (on_goal 1 => subst x); (on_goal 2 => (intro _h; try clear_value x)))
    | (extract_lets +onlyGivenNames x; refine keep_cut (P := P) (x := x.s) ?_ ?_; (on_goal 1 => subst x); (on_goal 2 => (intro _h; try clear_value x)))
    | (extract_lets +onlyGivenNames x; refine keep_cut (P := P) (x := x.1) ?_ ?_; (on_goal 1 => subst x); (on_goal 2 => (intro _h; try clear_value x)))
    | (extract_lets +onlyGivenNames x; refine keep_cut (P := P) (x := x.2) ?_ ?_; (on_goal 1 => subst x); (on_goal 2 => (intro _h; try clear_value x)))
    | (extract_lets +onlyGivenNames x; try clear_value x)
    | with_reducible refine ite_ans ?_ ?_
    | with_reducible apply inc_keeps hP
    | with_reducible apply onAns_mk
    | with_reducible refine ite_keeps ?_ ?_
    | split

theorem counted_keeps {P : State → Prop} (hP : Kept P) {a : Ans} (h0 : P a.s) :
    P (State.counted a).s := counted_keeps0 hP h0

theorem layerPreset_keeps {P : State → Prop} (hP : Kept P) (hL : KeptLat P) {s : State} {x : Nat} {v : Nat} (_ : P s) :
    P (State.layerPreset s x v) := by
  unfold State.layerPreset
  repeat' first
    | with_reducible assumption
    | (intro _x)
    | (extract_lets +onlyGivenNames x; refine keep_cut (P := P) (x := x) ?_ ?_; (on_goal 1 => subst x); (on_goal 2 => (intro _h; try clear_value x)))
    | (extract_lets +onlyGivenNames x; refine keep_cut (P := P) (x := x.s) ?_ ?_; (on_goal 1 => subst x); (on_goal 2 => (intro _h; try clear_value x)))
    | (extract_lets +onlyGivenNames x; refine keep_cut (P := P) (x := x.1) ?_ ?_; (on_goal 1 => subst x); (on_goal 2 => (intro _h; try clear_value x)))
    | (extract_lets +onlyGivenNames x; refine keep_cut (P := P) (x := x.2) ?_ ?_; (on_goal 1 => subst x); (on_goal 2 => (intro _h; try clear_value x)))
    | (extract_lets +onlyGivenNames x; try clear_value x)
    | with_reducible apply latPut_keeps hL
    | with_reducible apply upto_keeps
    | with_reducible refine ite_keeps ?_ ?_
    | split

theorem stage_keeps {P : State → Prop} (hP : Kept P) (hL : KeptLat P) {s : State} {l : Loc} {k : Nat} {v : Nat} (_ : P s) :
    P (State.stage s l k v) := by
  unfold State.stage
  extract_lets +onlyGivenNames s1
  have h1 : P s1 := latPut_keeps hL ‹P s›
  clear_value s1
  split
  · split
    · exact h1
    extract_lets +onlyGivenNames p put
    have hput : ∀ key vs t, P t → P (put key vs t) := fun _ _ _ ht => upto_keeps ht (fun _ _ hu => latPut_keeps hL hu)
    clear_value put p
    exact hput _ _ _ (hput _ _ _ (hput _ _ _ h1))
  · split
    · exact layerPreset_keeps hP hL h1
    · exact h1
  · exact h1

theorem keyWrite_keeps0 {P : State → Prop} (hP : Kept P) {k : Nat} {v : Nat} {slot : Nat} {s : State} (_ : P s) :
    onAns P (keyWrite k v slot s) := by
  unfold keyWrite
  repeat' first
    | with_reducible assumption
    | (intro _x)
    | (extract_lets +onlyGivenNames x; refine keep_cut (P := P) (x := x) ?_ ?_; (on_goal 1 => subst x); (on_goal 2 => (intro _h; try clear_value x)))
    | (extract_lets +onlyGivenNames x; refine keep_cut (P := P) (x := x.s) ?_ ?_; (on_goal 1 => subst x); (on_goal 2 => (intro _h; try clear_value x)))
    | (extract_lets +onlyGivenNames x; refine keep_cut (P := P) (x := x.1) ?_ ?_; (on_goal 1 => subst x); (on_goal 2 => (intro _h; try clear_value x)))
    | (extract_lets +onlyGivenNames x; refine keep_cut (P := P) (x := x.2) ?_ ?_; (on_goal 1 => subst x); (on_goal 2 => (intro _h; try clear_value x)))
    | (extract_lets +onlyGivenNames x; try clear_value x)
    | with_reducible refine ite_ans ?_ ?_
    | with_reducible apply wr_keeps hP
    | with_reducible apply raise_keeps hP
    | with_reducible apply ansOk_keeps hP
    | with_reducible apply ansOk_keeps0 hP
    | with_reducible apply onAns_mk
    | with_reducible refine ite_keeps ?_ ?_
    | split

theorem keyWrite_keeps {P : State → Prop} (hP : Kept P) {k : Nat} {v : Nat} {slot : Nat} {s : State} (h0 : P s) :
    P (keyWrite k v slot s).s := keyWrite_keeps0 hP h0

theorem winWrite_keeps0 {P : State → Prop} (hP : Kept P) (hM : KeptMem P) {k : Nat} {v : Nat} {s : State} (_ : P s) :
    onAns P (winWrite k v s) := by
  unfold winWrite
  repeat' first
    | with_reducible assumption
    | (intro _x)
    | (extract_lets +onlyGivenNames x; refine keep_cut (P := P) (x := x) ?_ ?_; (on_goal 1 => subst x); (on_goal 2 => (intro _h; try clear_value x)))
    | (extract_lets +onlyGivenNames x; refine keep_cut (P := P) (x := x.s) ?_ ?_; (on_goal 1 => subst x); (on_goal 2 => (intro _h; try clear_value x)))
    | (extract_lets +onlyGivenNames x; refine keep_cut (P := P) (x := x.1) ?_ ?_; (on_goal 1 => subst x); (on_goal 2 => (intro _h; try clear_value x)))
    | (extract_lets +onlyGivenNames x; refine keep_cut (P := P) (x := x.2) ?_ ?_; (on_goal 1 => subst x); (on_goal 2 => (intro _h; try clear_value x)))
    | (extract_lets +onlyGivenNames x; try clear_value x)
    | with_reducible refine ite_ans ?_ ?_
    | with_reducible apply winCheck_keeps hP
    | with_reducible apply winCheck_keeps0 hP
    | with_reducible apply ansOk_keeps hP
    | with_reducible apply ansOk_keeps0 hP
    | with_reducible apply winPut_keeps hP hM
    | with_reducible apply onAns_mk
    | with_reducible refine ite_keeps ?_ ?_
    | split

theorem winWrite_keeps {P : State → Prop} (hP : Kept P) (hM : KeptMem P) {k : Nat} {v : Nat} {s : State} (h0 : P s) :
    P (winWrite k v s).s := winWrite_keeps0 hP hM h0

theorem globWrite_keeps0 {P : State → Prop} (hP : Kept P) (hL : KeptLat P) (hM : KeptMem P) (hF : KeptFlash P) {k : Nat} {v : Nat} {c : Wctx} {s : State} (_ : P s) :
    onAns P (globWrite k v c s) := by
  unfold globWrite
  repeat' first
    | with_reducible assumption
    | (intro _x)
    | (extract_lets +onlyGivenNames x; refine keep_cut (P := P) (x := x) ?_ ?_; (on_goal 1 => subst x); (on_goal 2 => (intro _h; try clear_value x)))
    | (extract_lets +onlyGivenNames x; refine keep_cut (P := P) (x := x.s) ?_ ?_; (on_goal 1 => subst x); (on_goal 2 => (intro _h; try clear_value x)))
    | (extract_lets +onlyGivenNames x; refine keep_cut (P := P) (x := x.1) ?_ ?_; (on_goal 1 => subst x); (on_goal 2 => (intro _h; try clear_value x)))
    | (extract_lets +onlyGivenNames x; refine keep_cut (P := P) (x := x.2) ?_ ?_; (on_goal 1 => subst x); (on_goal 2 => (intro _h; try clear_value x)))
    | (extract_lets +onlyGivenNames x; try clear_value x)
    | with_reducible refine ite_ans ?_ ?_
    | with_reducible apply wr_keeps hP
    | with_reducible apply fwActivateWrite_keeps hP
    | with_reducible apply fwActivateWrite_keeps0 hP
    | with_reducible apply fwConfirmWrite_keeps hP hF
    | with_reducible apply fwConfirmWrite_keeps0 hP hF
    | with_reducible apply fwVerifyWrite_keeps hP
    | with_reducible apply fwVerifyWrite_keeps0 hP
    | with_reducible apply flashEraseWrite_keeps hP
    | with_reducible apply flashEraseWrite_keeps0 hP
    | with_reducible apply flashDataWrite_keeps hP hF
    | with_reducible apply flashDataWrite_keeps0 hP hF
    | with_reducible apply keyWrite_keeps hP
    | with_reducible apply keyWrite_keeps0 hP
    | with_reducible apply latentDiscardWrite_keeps hP hL
    | with_reducible apply latentDiscardWrite_keeps0 hP hL
    | with_reducible apply warmWrite_keeps hP
    | with_reducible apply warmWrite_keeps0 hP
    | with_reducible apply xbarRetestWrite_keeps hP
    | with_reducible apply xbarRetestWrite_keeps0 hP
    | with_reducible apply retestWrite_keeps hP
    | with_reducible apply retestWrite_keeps0 hP
    | with_reducible apply tstripWrite_keeps hP
    | with_reducible apply tstripWrite_keeps0 hP
    | with_reducible apply rotateNowWrite_keeps hP
    | with_reducible apply rotateNowWrite_keeps0 hP
    | with_reducible apply mgmtSwitchoverWrite_keeps hP
    | with_reducible apply mgmtSwitchoverWrite_keeps0 hP
    | with_reducible apply negReleaseWrite_keeps hP
    | with_reducible apply negReleaseWrite_keeps0 hP
    | with_reducible apply negPrintWrite_keeps hP
    | with_reducible apply negPrintWrite_keeps0 hP
    | with_reducible apply pinWrite_keeps hP
    | with_reducible apply pinWrite_keeps0 hP
    | with_reducible apply winWrite_keeps hP hM
    | with_reducible apply winWrite_keeps0 hP hM
    | with_reducible apply cstSetupWrite_keeps hP
    | with_reducible apply cstSetupWrite_keeps0 hP
    | with_reducible apply cstGoWrite_keeps hP
    | with_reducible apply cstGoWrite_keeps0 hP
    | with_reducible apply cstAbortWrite_keeps hP
    | with_reducible apply cstAbortWrite_keeps0 hP
    | with_reducible apply cstReserveWrite_keeps hP
    | with_reducible apply cstReserveWrite_keeps0 hP
    | with_reducible apply cstIrqAckWrite_keeps hP
    | with_reducible apply cstIrqAckWrite_keeps0 hP
    | with_reducible apply todSelWrite_keeps hP
    | with_reducible apply todSelWrite_keeps0 hP
    | with_reducible apply todSet_keeps hP
    | with_reducible apply todSet_keeps0 hP
    | with_reducible apply utcWrite_keeps hP
    | with_reducible apply utcWrite_keeps0 hP
    | with_reducible apply lolClear_keeps hP
    | with_reducible apply lolClear_keeps0 hP
    | with_reducible apply slewRateWrite_keeps hP
    | with_reducible apply slewRateWrite_keeps0 hP
    | with_reducible apply admCheckWrite_keeps hP
    | with_reducible apply admCheckWrite_keeps0 hP
    | with_reducible apply ansOk_keeps hP
    | with_reducible apply ansOk_keeps0 hP
    | with_reducible apply onAns_mk
    | with_reducible refine ite_keeps ?_ ?_
    | split

theorem globWrite_keeps {P : State → Prop} (hP : Kept P) (hL : KeptLat P) (hM : KeptMem P) (hF : KeptFlash P) {k : Nat} {v : Nat} {c : Wctx} {s : State} (h0 : P s) :
    P (globWrite k v c s).s := globWrite_keeps0 hP hL hM hF h0

theorem ctlWrite_keeps0 {P : State → Prop} (hP : Kept P) {c : Nat} {sub : Nat} {k : Nat} {v : Nat} {port : Nat} {s : State} (_ : P s) :
    onAns P (ctlWrite c sub k v port s) := by
  unfold ctlWrite
  repeat' first
    | with_reducible assumption
    | (intro _x)
    | (extract_lets +onlyGivenNames x; refine keep_cut (P := P) (x := x) ?_ ?_; (on_goal 1 => subst x); (on_goal 2 => (intro _h; try clear_value x)))
    | (extract_lets +onlyGivenNames x; refine keep_cut (P := P) (x := x.s) ?_ ?_; (on_goal 1 => subst x); (on_goal 2 => (intro _h; try clear_value x)))
    | (extract_lets +onlyGivenNames x; refine keep_cut (P := P) (x := x.1) ?_ ?_; (on_goal 1 => subst x); (on_goal 2 => (intro _h; try clear_value x)))
    | (extract_lets +onlyGivenNames x; refine keep_cut (P := P) (x := x.2) ?_ ?_; (on_goal 1 => subst x); (on_goal 2 => (intro _h; try clear_value x)))
    | (extract_lets +onlyGivenNames x; try clear_value x)
    | with_reducible refine ite_ans ?_ ?_
    | with_reducible apply wr_keeps hP
    | with_reducible apply upto_keeps
    | with_reducible apply ctlEnableWrite_keeps hP
    | with_reducible apply ctlEnableWrite_keeps0 hP
    | with_reducible apply ansOk_keeps hP
    | with_reducible apply ansOk_keeps0 hP
    | with_reducible apply onAns_mk
    | with_reducible refine ite_keeps ?_ ?_
    | split

theorem ctlWrite_keeps {P : State → Prop} (hP : Kept P) {c : Nat} {sub : Nat} {k : Nat} {v : Nat} {port : Nat} {s : State} (h0 : P s) :
    P (ctlWrite c sub k v port s).s := ctlWrite_keeps0 hP h0

theorem bufStWrite_keeps0 {P : State → Prop} (hP : Kept P) (hC : KeptCom P) {b : Nat} {v : Nat} {s : State} (_ : P s) :
    onAns P (bufStWrite b v s) := by
  unfold bufStWrite
  repeat' first
    | with_reducible assumption
    | (intro _x)
    | (extract_lets +onlyGivenNames x; refine keep_cut (P := P) (x := x) ?_ ?_; (on_goal 1 => subst x); (on_goal 2 => (intro _h; try clear_value x)))
    | (extract_lets +onlyGivenNames x; refine keep_cut (P := P) (x := x.s) ?_ ?_; (on_goal 1 => subst x); (on_goal 2 => (intro _h; try clear_value x)))
    | (extract_lets +onlyGivenNames x; refine keep_cut (P := P) (x := x.1) ?_ ?_; (on_goal 1 => subst x); (on_goal 2 => (intro _h; try clear_value x)))
    | (extract_lets +onlyGivenNames x; refine keep_cut (P := P) (x := x.2) ?_ ?_; (on_goal 1 => subst x); (on_goal 2 => (intro _h; try clear_value x)))
    | (extract_lets +onlyGivenNames x; try clear_value x)
    | with_reducible refine ite_ans ?_ ?_
    | with_reducible apply bufForceWrite_keeps hP hC
    | with_reducible apply bufForceWrite_keeps0 hP hC
    | with_reducible apply cstAbort_keeps hP
    | with_reducible apply ansBusy_keeps hP
    | with_reducible apply ansBusy_keeps0 hP
    | with_reducible apply bufStateWrite_keeps hP
    | with_reducible apply bufStateWrite_keeps0 hP
    | with_reducible apply onAns_mk
    | with_reducible refine ite_keeps ?_ ?_
    | split

theorem bufStWrite_keeps {P : State → Prop} (hP : Kept P) (hC : KeptCom P) {b : Nat} {v : Nat} {s : State} (h0 : P s) :
    P (bufStWrite b v s).s := bufStWrite_keeps0 hP hC h0

theorem writeEffect_keeps0 {P : State → Prop} (hP : Kept P) (hC : KeptCom P) (hL : KeptLat P) (hM : KeptMem P) (hF : KeptFlash P) {l : Loc} {k : Nat} {v : Nat} {c : Wctx} {s : State} (_ : P s) :
    onAns P (writeEffect l k v c s) := by
  unfold writeEffect
  repeat' first
    | with_reducible assumption
    | (intro _x)
    | (extract_lets +onlyGivenNames x; refine keep_cut (P := P) (x := x) ?_ ?_; (on_goal 1 => subst x); (on_goal 2 => (intro _h; try clear_value x)))
    | (extract_lets +onlyGivenNames x; refine keep_cut (P := P) (x := x.s) ?_ ?_; (on_goal 1 => subst x); (on_goal 2 => (intro _h; try clear_value x)))
    | (extract_lets +onlyGivenNames x; refine keep_cut (P := P) (x := x.1) ?_ ?_; (on_goal 1 => subst x); (on_goal 2 => (intro _h; try clear_value x)))
    | (extract_lets +onlyGivenNames x; refine keep_cut (P := P) (x := x.2) ?_ ?_; (on_goal 1 => subst x); (on_goal 2 => (intro _h; try clear_value x)))
    | (extract_lets +onlyGivenNames x; try clear_value x)
    | with_reducible refine ite_ans ?_ ?_
    | with_reducible apply wr_keeps hP
    | with_reducible apply globWrite_keeps hP hL hM hF
    | with_reducible apply globWrite_keeps0 hP hL hM hF
    | with_reducible apply slvTriggerWrite_keeps hP
    | with_reducible apply slvTriggerWrite_keeps0 hP
    | with_reducible apply slvCancelWrite_keeps hP hC hL
    | with_reducible apply slvCancelWrite_keeps0 hP hC hL
    | with_reducible apply ansOk_keeps hP
    | with_reducible apply ansOk_keeps0 hP
    | with_reducible apply ctlWrite_keeps hP
    | with_reducible apply ctlWrite_keeps0 hP
    | with_reducible apply pdEnableWrite_keeps hP hC hM
    | with_reducible apply pdEnableWrite_keeps0 hP hC hM
    | with_reducible apply pdForceWrite_keeps hP hC hM
    | with_reducible apply pdForceWrite_keeps0 hP hC hM
    | with_reducible apply pinFuncWrite_keeps hP
    | with_reducible apply pinFuncWrite_keeps0 hP
    | with_reducible apply pinWrite_keeps hP
    | with_reducible apply pinWrite_keeps0 hP
    | with_reducible apply rateModeWrite_keeps hP
    | with_reducible apply rateModeWrite_keeps0 hP
    | with_reducible apply keyInputWrite_keeps hP
    | with_reducible apply keyInputWrite_keeps0 hP
    | with_reducible apply inPicture_keeps hP
    | with_reducible apply inPartnerWrite_keeps hP
    | with_reducible apply inPartnerWrite_keeps0 hP
    | with_reducible apply selectWrite_keeps hP
    | with_reducible apply selectWrite_keeps0 hP
    | with_reducible apply quadModeWrite_keeps hP
    | with_reducible apply quadModeWrite_keeps0 hP
    | with_reducible apply statsClearWrite_keeps hP
    | with_reducible apply statsClearWrite_keeps0 hP
    | with_reducible apply outReleaseWrite_keeps hP
    | with_reducible apply outReleaseWrite_keeps0 hP
    | with_reducible apply slateCmdWrite_keeps hP
    | with_reducible apply slateCmdWrite_keeps0 hP
    | with_reducible apply setLevel_keeps hP
    | with_reducible apply irqAckWrite_keeps hP
    | with_reducible apply irqAckWrite_keeps0 hP
    | with_reducible apply measuredClearWrite_keeps hP
    | with_reducible apply measuredClearWrite_keeps0 hP
    | with_reducible apply prfOutWrite_keeps hP
    | with_reducible apply prfOutWrite_keeps0 hP
    | with_reducible apply proofLearnWrite_keeps hP
    | with_reducible apply proofLearnWrite_keeps0 hP
    | with_reducible apply bufStWrite_keeps hP hC
    | with_reducible apply bufStWrite_keeps0 hP hC
    | with_reducible apply bufAllocWrite_keeps hP
    | with_reducible apply bufAllocWrite_keeps0 hP
    | with_reducible apply bufGeomWrite_keeps hP
    | with_reducible apply bufGeomWrite_keeps0 hP
    | with_reducible apply refWrite_keeps hP
    | with_reducible apply refWrite_keeps0 hP
    | with_reducible apply selModeWrite_keeps hP
    | with_reducible apply selModeWrite_keeps0 hP
    | with_reducible apply ncoWrite_keeps hP
    | with_reducible apply ncoWrite_keeps0 hP
    | with_reducible apply relockWrite_keeps hP
    | with_reducible apply relockWrite_keeps0 hP
    | with_reducible apply rampWrite_keeps hP
    | with_reducible apply rampWrite_keeps0 hP
    | with_reducible apply gsynWrite_keeps hP
    | with_reducible apply gsynWrite_keeps0 hP
    | with_reducible apply onAns_mk
    | with_reducible refine ite_keeps ?_ ?_
    | split

theorem writeEffect_keeps {P : State → Prop} (hP : Kept P) (hC : KeptCom P) (hL : KeptLat P) (hM : KeptMem P) (hF : KeptFlash P) {l : Loc} {k : Nat} {v : Nat} {c : Wctx} {s : State} (h0 : P s) :
    P (writeEffect l k v c s).s := writeEffect_keeps0 hP hC hL hM hF h0

theorem writeObj_keeps0 {P : State → Prop} (hP : Kept P) (hC : KeptCom P) (hL : KeptLat P) (hM : KeptMem P) (hF : KeptFlash P) {l : Loc} {v : Nat} {c : Wctx} {k : Nat} {s : State} (_ : P s) :
    onAns P (writeObj l v c k s) := by
  unfold writeObj
  repeat' first
    | with_reducible assumption
    | (intro _x)
    | (extract_lets +onlyGivenNames x; refine keep_cut (P := P) (x := x) ?_ ?_; (on_goal 1 => subst x); (on_goal 2 => (intro _h; try clear_value x)))
    | (extract_lets +onlyGivenNames x; refine keep_cut (P := P) (x := x.s) ?_ ?_; (on_goal 1 => subst x); (on_goal 2 => (intro _h; try clear_value x)))
    | (extract_lets +onlyGivenNames x; refine keep_cut (P := P) (x := x.1) ?_ ?_; (on_goal 1 => subst x); (on_goal 2 => (intro _h; try clear_value x)))
    | (extract_lets +onlyGivenNames x; refine keep_cut (P := P) (x := x.2) ?_ ?_; (on_goal 1 => subst x); (on_goal 2 => (intro _h; try clear_value x)))
    | (extract_lets +onlyGivenNames x; try clear_value x)
    | with_reducible refine ite_ans ?_ ?_
    | with_reducible apply wr_keeps hP
    | with_reducible apply ansOk_keeps hP
    | with_reducible apply ansOk_keeps0 hP
    | with_reducible apply stage_keeps hP hL
    | with_reducible apply writeEffect_keeps hP hC hL hM hF
    | with_reducible apply writeEffect_keeps0 hP hC hL hM hF
    | with_reducible apply onAns_mk
    | with_reducible refine ite_keeps ?_ ?_
    | split
    | with_reducible apply hC.com
    | with_reducible apply hC.due

theorem writeObj_keeps {P : State → Prop} (hP : Kept P) (hC : KeptCom P) (hL : KeptLat P) (hM : KeptMem P) (hF : KeptFlash P) {l : Loc} {v : Nat} {c : Wctx} {k : Nat} {s : State} (h0 : P s) :
    P (writeObj l v c k s).s := writeObj_keeps0 hP hC hL hM hF h0

theorem writeOne_keeps0 {P : State → Prop} (hP : Kept P) (hC : KeptCom P) (hL : KeptLat P) (hM : KeptMem P) (hF : KeptFlash P) {s : State} {rights : Nat} {k : Nat} {bytes : List Nat} {c : Wctx} (_ : P s) :
    onAns P (State.writeOne s rights k bytes c) := by
  unfold State.writeOne
  repeat' first
    | with_reducible assumption
    | (intro _x)
    | (extract_lets +onlyGivenNames x; refine keep_cut (P := P) (x := x) ?_ ?_; (on_goal 1 => subst x); (on_goal 2 => (intro _h; try clear_value x)))
    | (extract_lets +onlyGivenNames x; refine keep_cut (P := P) (x := x.s) ?_ ?_; (on_goal 1 => subst x); (on_goal 2 => (intro _h; try clear_value x)))
    | (extract_lets +onlyGivenNames x; refine keep_cut (P := P) (x := x.1) ?_ ?_; (on_goal 1 => subst x); (on_goal 2 => (intro _h; try clear_value x)))
    | (extract_lets +onlyGivenNames x; refine keep_cut (P := P) (x := x.2) ?_ ?_; (on_goal 1 => subst x); (on_goal 2 => (intro _h; try clear_value x)))
    | (extract_lets +onlyGivenNames x; try clear_value x)
    | with_reducible refine ite_ans ?_ ?_
    | with_reducible apply ansErr_keeps hP
    | with_reducible apply ansErr_keeps0 hP
    | with_reducible apply ansRange_keeps hP
    | with_reducible apply ansRange_keeps0 hP
    | with_reducible apply counted_keeps hP
    | with_reducible apply counted_keeps0 hP
    | with_reducible apply writeObj_keeps hP hC hL hM hF
    | with_reducible apply writeObj_keeps0 hP hC hL hM hF
    | with_reducible apply onAns_mk
    | with_reducible refine ite_keeps ?_ ?_
    | split

theorem writeOne_keeps {P : State → Prop} (hP : Kept P) (hC : KeptCom P) (hL : KeptLat P) (hM : KeptMem P) (hF : KeptFlash P) {s : State} {rights : Nat} {k : Nat} {bytes : List Nat} {c : Wctx} (h0 : P s) :
    P (State.writeOne s rights k bytes c).s := writeOne_keeps0 hP hC hL hM hF h0

theorem readBlock_keeps0 {P : State → Prop} (hP : Kept P) {s : State} {rights : Nat} {index : Nat} {first : Nat} {last : Nat} {latent : Bool} (_ : P s) :
    onLast P (State.readBlock s rights index first last latent) := by
  unfold State.readBlock
  repeat' first
    | with_reducible assumption
    | (intro _x)
    | (extract_lets +onlyGivenNames x; refine keep_cut (P := P) (x := x) ?_ ?_; (on_goal 1 => subst x); (on_goal 2 => (intro _h; try clear_value x)))
    | (extract_lets +onlyGivenNames x; refine keep_cut (P := P) (x := x.s) ?_ ?_; (on_goal 1 => subst x); (on_goal 2 => (intro _h; try clear_value x)))
    | (extract_lets +onlyGivenNames x; refine keep_cut (P := P) (x := x.1) ?_ ?_; (on_goal 1 => subst x); (on_goal 2 => (intro _h; try clear_value x)))
    | (extract_lets +onlyGivenNames x; refine keep_cut (P := P) (x := x.2) ?_ ?_; (on_goal 1 => subst x); (on_goal 2 => (intro _h; try clear_value x)))
    | (extract_lets +onlyGivenNames x; try clear_value x)
    | with_reducible apply winCheck_keeps hP
    | with_reducible apply winCheck_keeps0 hP
    | with_reducible apply winAdvance_keeps hP
    | with_reducible apply winSeen_keeps hP
    | with_reducible apply onLast_mk
    | with_reducible refine ite_keeps ?_ ?_
    | split
    | with_reducible apply hP.subs

theorem readBlock_keeps {P : State → Prop} (hP : Kept P) {s : State} {rights : Nat} {index : Nat} {first : Nat} {last : Nat} {latent : Bool} (h0 : P s) :
    P (State.readBlock s rights index first last latent).2.2.2 := readBlock_keeps0 hP h0

theorem overlay_keeps {P : State → Prop} (hP : Kept P) (hL : KeptLat P) {s : State} {index : Nat} {l : List Mem} (_ : P s) :
    P (State.overlay s index l) := by
  unfold State.overlay
  repeat' first
    | with_reducible assumption
    | (intro _x)
    | (extract_lets +onlyGivenNames x; refine keep_cut (P := P) (x := x) ?_ ?_; (on_goal 1 => subst x); (on_goal 2 => (intro _h; try clear_value x)))
    | (extract_lets +onlyGivenNames x; refine keep_cut (P := P) (x := x.s) ?_ ?_; (on_goal 1 => subst x); (on_goal 2 => (intro _h; try clear_value x)))
    | (extract_lets +onlyGivenNames x; refine keep_cut (P := P) (x := x.1) ?_ ?_; (on_goal 1 => subst x); (on_goal 2 => (intro _h; try clear_value x)))
    | (extract_lets +onlyGivenNames x; refine keep_cut (P := P) (x := x.2) ?_ ?_; (on_goal 1 => subst x); (on_goal 2 => (intro _h; try clear_value x)))
    | (extract_lets +onlyGivenNames x; try clear_value x)
    | with_reducible apply latPut_keeps hL
    | with_reducible apply wr_keeps hP
    | with_reducible apply fold_keeps
    | with_reducible apply fold_fst_keeps
    | with_reducible refine ite_keeps ?_ ?_
    | split

theorem writeMember_keeps0 {P : State → Prop} (hP : Kept P) (hC : KeptCom P) (hL : KeptLat P) (hM : KeptMem P) (hF : KeptFlash P) {o : State} {rights : Nat} {index : Nat} {tail : Bool} {c : Wctx} {m : Mem} {s : State} (_ : P o) (_ : P s) :
    onAns P (writeMember o rights index tail c m s) := by
  unfold writeMember
  repeat' first
    | with_reducible assumption
    | (intro _x)
    | (extract_lets +onlyGivenNames x; refine keep_cut (P := P) (x := x) ?_ ?_; (on_goal 1 => subst x); (on_goal 2 => (intro _h; try clear_value x)))
    | (extract_lets +onlyGivenNames x; refine keep_cut (P := P) (x := x.s) ?_ ?_; (on_goal 1 => subst x); (on_goal 2 => (intro _h; try clear_value x)))
    | (extract_lets +onlyGivenNames x; refine keep_cut (P := P) (x := x.1) ?_ ?_; (on_goal 1 => subst x); (on_goal 2 => (intro _h; try clear_value x)))
    | (extract_lets +onlyGivenNames x; refine keep_cut (P := P) (x := x.2) ?_ ?_; (on_goal 1 => subst x); (on_goal 2 => (intro _h; try clear_value x)))
    | (extract_lets +onlyGivenNames x; try clear_value x)
    | with_reducible refine ite_ans ?_ ?_
    | with_reducible apply ansErr_keeps hP
    | with_reducible apply ansErr_keeps0 hP
    | with_reducible apply ansRange_keeps hP
    | with_reducible apply ansRange_keeps0 hP
    | with_reducible apply writeObj_keeps hP hC hL hM hF
    | with_reducible apply writeObj_keeps0 hP hC hL hM hF
    | with_reducible apply onAns_mk
    | with_reducible refine ite_keeps ?_ ?_
    | split

theorem writeMember_keeps {P : State → Prop} (hP : Kept P) (hC : KeptCom P) (hL : KeptLat P) (hM : KeptMem P) (hF : KeptFlash P) {o : State} {rights : Nat} {index : Nat} {tail : Bool} {c : Wctx} {m : Mem} {s : State} (h0 : P o) (h1 : P s) :
    P (writeMember o rights index tail c m s).s := writeMember_keeps0 hP hC hL hM hF h0 h1

theorem writeMembers_keeps {P : State → Prop} (hP : Kept P) (hC : KeptCom P) (hL : KeptLat P) (hM : KeptMem P) (hF : KeptFlash P)
    {o : State} {rights index last rest : Nat} {c : Wctx} {l : List Mem} {a : BAns} (ho : P o) (h : P a.s) :
    P (writeMembers o rights index last rest c l a).s := by
  induction l generalizing a with
  | nil => exact h
  | cons m t ih =>
    unfold writeMembers
    have hm := writeMember_keeps hP hC hL hM hF (rights := rights) (index := index) (tail := (m.sub == last && rest != 0)) (c := c) (m := m) ho h
    dsimp only
    split
    · exact ih hm
    · split
      · refine ih ?_
        split
        · exact hm
        · exact hm
      · exact hP.raised _ _ hm

/-- What a failing check of members leaves. -/
theorem checkMembers_keeps {P : State → Prop} (hP : Kept P) (hC : KeptCom P) (hL : KeptLat P) (hM : KeptMem P) (hF : KeptFlash P)
    {o : State} {rights index last rest : Nat} {c : Wctx} {l : List Mem} {a : BAns} (ho : P o)
    (h : checkMembers o rights index last rest c l = some a) : P a.s := by
  induction l with
  | nil => cases h
  | cons m t ih =>
    unfold checkMembers at h
    dsimp only at h
    split at h
    · exact ih h
    · cases h
      exact writeMember_keeps hP hC hL hM hF ho ho

theorem writeBlock_keeps0 {P : State → Prop} (hP : Kept P) (hC : KeptCom P) (hL : KeptLat P) (hM : KeptMem P) (hF : KeptFlash P) {s : State} {rights : Nat} {index : Nat} {first : Nat} {last : Nat} {bytes : List Nat} {c : Wctx} (_ : P s) :
    onBAns P (State.writeBlock s rights index first last bytes c) := by
  unfold State.writeBlock
  split
  · exact onBAns_mk ‹P s›
  extract_lets +onlyGivenNames r win w
  have hw : P w.s := winCheck_keeps hP ‹P s›
  clear_value w
  clear_value win r
  split
  · exact onBAns_mk hw
  extract_lets +onlyGivenNames o a
  have ho : P o := overlay_keeps hP hL ‹P s›
  have ha : P a.s := by
    subst a
    clear_value o
    split
    · exact winAdvance_keeps hP (fold_keeps hw (fun _ _ ht => winPut_keeps hP hM ht))
    · split
      · exact checkMembers_keeps hP hC hL hM hF ho ‹_›
      · exact writeMembers_keeps hP hC hL hM hF ho ho
  clear_value a o
  split
  · exact inc_keeps hP ha
  · exact hP.raised _ _ ‹P s›

theorem writeBlock_keeps {P : State → Prop} (hP : Kept P) (hC : KeptCom P) (hL : KeptLat P) (hM : KeptMem P) (hF : KeptFlash P) {s : State} {rights : Nat} {index : Nat} {first : Nat} {last : Nat} {bytes : List Nat} {c : Wctx} (h0 : P s) :
    P (State.writeBlock s rights index first last bytes c).s := writeBlock_keeps0 hP hC hL hM hF h0

end Sys2Proof.Machine
end

