-- ==== Sys2Proof/Laws/KeepsTick.lean ====
section
/-! SUPPORT. What the operations of Machine/Tick.lean keep. -/
set_option linter.all false
set_option maxRecDepth 8000
namespace Sys2Proof.Machine

theorem tickBegin_keeps {P : State → Prop} (hP : Kept P) {s : State} (_ : P s) :
    P (State.tickBegin s) := by
  unfold State.tickBegin
  have h1 := hP.tx s [] ‹P s›
  have h2 := hP.spiOut _ [] h1
  exact powerTick_keeps hP (cstFill_keeps hP (leapStep_keeps hP (tsTick_keeps hP (tsTick_keeps hP (up_keeps hP h2)))))

theorem overSync_keeps {P : State → Prop} (hP : Kept P) {s : State} (_ : P s) :
    P (State.overSync s) := by
  unfold State.overSync
  repeat' first
    | with_reducible assumption
    | (intro _x)
    | (extract_lets +onlyGivenNames x; refine keep_cut (P := P) (x := x) ?_ ?_; (on_goal 1 => subst x); (on_goal 2 => (intro _h; try clear_value x)))
    | (extract_lets +onlyGivenNames x; refine keep_cut (P := P) (x := x.s) ?_ ?_; (on_goal 1 => subst x); (on_goal 2 => (intro _h; try clear_value x)))
    | (extract_lets +onlyGivenNames x; refine keep_cut (P := P) (x := x.1) ?_ ?_; (on_goal 1 => subst x); (on_goal 2 => (intro _h; try clear_value x)))
    | (extract_lets +onlyGivenNames x; refine keep_cut (P := P) (x := x.2) ?_ ?_; (on_goal 1 => subst x); (on_goal 2 => (intro _h; try clear_value x)))
    | (extract_lets +onlyGivenNames x; try clear_value x)
    | with_reducible apply raise_keeps hP
    | with_reducible apply wrs_keeps hP
    | with_reducible refine ite_keeps ?_ ?_
    | split

theorem tickEnd_keeps {P : State → Prop} (hP : Kept P) (hC : KeptCom P) {s : State} (_ : P s) :
    P (State.tickEnd s) := by
  unfold State.tickEnd
  repeat' first
    | with_reducible assumption
    | (intro _x)
    | (extract_lets +onlyGivenNames x; refine keep_cut (P := P) (x := x) ?_ ?_; (on_goal 1 => subst x); (on_goal 2 => (intro _h; try clear_value x)))
    | (extract_lets +onlyGivenNames x; refine keep_cut (P := P) (x := x.s) ?_ ?_; (on_goal 1 => subst x); (on_goal 2 => (intro _h; try clear_value x)))
    | (extract_lets +onlyGivenNames x; refine keep_cut (P := P) (x := x.1) ?_ ?_; (on_goal 1 => subst x); (on_goal 2 => (intro _h; try clear_value x)))
    | (extract_lets +onlyGivenNames x; refine keep_cut (P := P) (x := x.2) ?_ ?_; (on_goal 1 => subst x); (on_goal 2 => (intro _h; try clear_value x)))
    | (extract_lets +onlyGivenNames x; try clear_value x)
    | with_reducible apply pulseEnds_keeps hP
    | with_reducible apply recordTick_keeps hP
    | with_reducible apply clkSync_keeps hP
    | with_reducible apply pinSync_keeps hP
    | with_reducible apply tstSync_keeps hP
    | with_reducible apply protSync_keeps hP
    | with_reducible apply overSync_keeps hP
    | with_reducible apply retireAll_keeps hP
    | with_reducible apply canvasesDevelop_keeps hP hC
    | with_reducible apply brEnd_keeps hP
    | with_reducible refine ite_keeps ?_ ?_
    | split

theorem tick_keeps {P : State → Prop} (hP : Kept P) (hC : KeptCom P) {s : State} (_ : P s) :
    P (State.tick s) := by
  unfold State.tick
  repeat' first
    | with_reducible assumption
    | (intro _x)
    | (extract_lets +onlyGivenNames x; refine keep_cut (P := P) (x := x) ?_ ?_; (on_goal 1 => subst x); (on_goal 2 => (intro _h; try clear_value x)))
    | (extract_lets +onlyGivenNames x; refine keep_cut (P := P) (x := x.s) ?_ ?_; (on_goal 1 => subst x); (on_goal 2 => (intro _h; try clear_value x)))
    | (extract_lets +onlyGivenNames x; refine keep_cut (P := P) (x := x.1) ?_ ?_; (on_goal 1 => subst x); (on_goal 2 => (intro _h; try clear_value x)))
    | (extract_lets +onlyGivenNames x; refine keep_cut (P := P) (x := x.2) ?_ ?_; (on_goal 1 => subst x); (on_goal 2 => (intro _h; try clear_value x)))
    | (extract_lets +onlyGivenNames x; try clear_value x)
    | with_reducible apply tickBegin_keeps hP
    | with_reducible apply tickEnd_keeps hP hC
    | with_reducible refine ite_keeps ?_ ?_
    | split

end Sys2Proof.Machine
end

