-- ==== Sys2Proof/Laws/KeepsExec.lean ====
section
/-! SUPPORT. What every command keeps, and what a step keeps. -/
set_option linter.all false
namespace Sys2Proof.Machine

/-- Everything a property must bear so that every command keeps it. -/
structure KeptAll (P : State → Prop) : Prop where
  reg : Kept P
  com : KeptCom P
  lat : KeptLat P
  mem : KeptMem P
  flash : KeptFlash P
  boot : KeptBoot P

/-- A command keeps what all its updates keep. -/
theorem exec_keeps {P : State → Prop} (hA : KeptAll P) {i : Instr} {s : State} (h : P s) : onOut P (exec i s) := by
  cases i with
  | hello _ => exact execHello_keeps hA.reg hA.com hA.lat hA.mem hA.flash hA.boot h
  | helloResume _ => exact execHelloResume_keeps hA.reg hA.com hA.lat hA.mem hA.flash hA.boot h
  | auth _ => exact execAuth_keeps hA.reg hA.com hA.lat hA.mem hA.flash hA.boot h
  | ping _ => exact execPing_keeps hA.reg hA.com hA.lat hA.mem hA.flash hA.boot h
  | bye _ => exact execBye_keeps hA.reg hA.com hA.lat hA.mem hA.flash hA.boot h
  | read _ => exact execRead_keeps hA.reg hA.com hA.lat hA.mem hA.flash hA.boot h
  | write _ _ => exact execWrite_keeps hA.reg hA.com hA.lat hA.mem hA.flash hA.boot h
  | blockRead _ => exact execBlockRead_keeps hA.reg hA.com hA.lat hA.mem hA.flash hA.boot h
  | blockWrite _ _ => exact execBlockWrite_keeps hA.reg hA.com hA.lat hA.mem hA.flash hA.boot h
  | commit _ => exact execCommit_keeps hA.reg hA.com hA.lat hA.mem hA.flash hA.boot h
  | commitAt _ => exact execCommitAt_keeps hA.reg hA.com hA.lat hA.mem hA.flash hA.boot h
  | commitAtTimeReached _ => exact execCommitAtTimeReached_keeps hA.reg hA.com h
  | subscribe _ => exact execSubscribe_keeps hA.reg hA.com hA.lat hA.mem hA.flash hA.boot h
  | unsubscribe _ => exact execUnsubscribe_keeps hA.reg hA.com hA.lat hA.mem hA.flash hA.boot h
  | notify _ _ => exact execNotify_keeps hA.reg h
  | notifyAck _ => exact execNotifyAck_keeps hA.reg hA.com hA.lat hA.mem hA.flash hA.boot h
  | notifyRetry _ _ => exact execNotifyRetry_keeps hA.reg h
  | sessionTimeout _ => exact execSessionTimeout_keeps hA.reg h
  | resumeWindowExpiry _ => exact execResumeWindowExpiry_keeps hA.reg h
  | replayExpiry => exact execReplayExpiry_keeps hA.reg h
  | spiStatus => exact execSpiStatus_keeps hA.reg h
  | spiWriteMsg _ _ => exact execSpiWriteMsg_keeps hA.reg hA.com hA.lat hA.mem hA.flash hA.boot h
  | spiReadMsg _ => exact execSpiReadMsg_keeps hA.reg h
  | spiBadCommand => exact execSpiBadCommand_keeps hA.reg h
  | latentDiscard _ _ => exact execLatentDiscard_keeps hA.reg hA.com hA.lat hA.mem hA.flash hA.boot h
  | slvCancel _ _ _ => exact execSlvCancel_keeps hA.reg hA.com hA.lat hA.mem hA.flash hA.boot h
  | salvoTrigger _ => exact execSalvoTrigger_keeps hA.reg hA.com h
  | triggerHoldoffEnd _ => exact execTriggerHoldoffEnd_keeps hA.reg h
  | developmentPoint _ => exact execDevelopmentPoint_keeps hA.reg hA.com h
  | gsynDevelopment _ _ => exact execGsynDevelopment_keeps hA.reg hA.com h
  | gsynRateChange _ _ => exact execGsynRateChange_keeps hA.reg h
  | refSignalDetected _ _ _ _ _ => exact execRefSignalDetected_keeps hA.reg h
  | refLossOfSignal _ => exact execRefLossOfSignal_keeps hA.reg h
  | qualTimeExpiry _ => exact execQualTimeExpiry_keeps hA.reg h
  | wtrExpiry _ => exact execWtrExpiry_keeps hA.reg h
  | refMeasurement _ => exact execRefMeasurement_keeps hA.reg h
  | selectorEvaluation _ _ => exact execSelectorEvaluation_keeps hA.reg h
  | lockHoldExpiry _ => exact execLockHoldExpiry_keeps hA.reg h
  | phaseMeasurement _ _ => exact execPhaseMeasurement_keeps hA.reg h
  | selModeWrite _ _ _ _ => exact execSelModeWrite_keeps hA.reg hA.com hA.lat hA.mem hA.flash hA.boot h
  | ncoWrite _ _ _ => exact execNcoWrite_keeps hA.reg hA.com hA.lat hA.mem hA.flash hA.boot h
  | todSet _ _ => exact execTodSet_keeps hA.reg hA.com hA.lat hA.mem hA.flash hA.boot h
  | ptpSync _ _ _ _ => exact execPtpSync_keeps hA.reg h
  | ptpAnnounce _ _ _ _ _ _ _ _ _ _ _ _ => exact execPtpAnnounce_keeps hA.reg h
  | ptpAnnounceTimeout _ => exact execPtpAnnounceTimeout_keeps hA.reg h
  | ppsInEdge => exact execPpsInEdge_keeps hA.reg h
  | ppsOutSecond => exact execPpsOutSecond_keeps hA.reg h
  | gsynBandSearch _ _ _ => exact execGsynBandSearch_keeps hA.reg h
  | gsynLock _ _ _ => exact execGsynLock_keeps hA.reg h
  | gsynLol _ _ => exact execGsynLol_keeps hA.reg h
  | pllLol _ _ => exact execPllLol_keeps hA.reg h
  | relock1 _ _ => exact execRelock1_keeps hA.reg hA.com hA.lat hA.mem hA.flash hA.boot h
  | relockTimeout _ => exact execRelockTimeout_keeps hA.reg h
  | relock2 _ _ => exact execRelock2_keeps hA.reg hA.com hA.lat hA.mem hA.flash hA.boot h
  | lolClear _ => exact execLolClear_keeps hA.reg hA.com hA.lat hA.mem hA.flash hA.boot h
  | slewDone _ => exact execSlewDone_keeps hA.reg h
  | rampRun _ _ => exact execRampRun_keeps hA.reg hA.com hA.lat hA.mem hA.flash hA.boot h
  | rampHold _ _ => exact execRampHold_keeps hA.reg hA.com hA.lat hA.mem hA.flash hA.boot h
  | rampReturn _ _ => exact execRampReturn_keeps hA.reg hA.com hA.lat hA.mem hA.flash hA.boot h
  | rampSegmentEnd _ => exact execRampSegmentEnd_keeps hA.reg h
  | divsyncEdge _ => exact execDivsyncEdge_keeps hA.reg h
  | outGeneratorStart _ _ => exact execOutGeneratorStart_keeps hA.reg h
  | switchLine _ _ => exact execSwitchLine_keeps hA.reg hA.com h
  | lineStart _ _ _ _ => exact execLineStart_keeps hA.reg h
  | frameDone _ => exact execFrameDone_keeps hA.reg h
  | irqAck _ _ _ => exact execIrqAck_keeps hA.reg hA.com hA.lat hA.mem hA.flash hA.boot h
  | fetchCompletion _ _ => exact execFetchCompletion_keeps hA.reg h
  | rxEnergyPresent _ => exact execRxEnergyPresent_keeps hA.reg h
  | rxEnergyLost _ => exact execRxEnergyLost_keeps hA.reg h
  | cdrLock _ _ => exact execCdrLock_keeps hA.reg h
  | cdrDwellExpiry _ => exact execCdrDwellExpiry_keeps hA.reg h
  | cdrUnlock _ => exact execCdrUnlock_keeps hA.reg h
  | rateModeWrite _ _ _ => exact execRateModeWrite_keeps hA.reg hA.com hA.lat hA.mem hA.flash hA.boot h
  | trsAligned _ _ _ _ => exact execTrsAligned_keeps hA.reg h
  | rxFrameMeasured _ _ => exact execRxFrameMeasured_keeps hA.reg h
  | rxTrsLoss _ => exact execRxTrsLoss_keeps hA.reg h
  | rxLine _ _ _ _ _ _ _ => exact execRxLine_keeps hA.reg hA.mem h
  | ancPacket _ _ => exact execAncPacket_keeps hA.reg hA.mem h
  | rxSwitchLineStamp _ _ _ => exact execRxSwitchLineStamp_keeps hA.reg hA.mem h
  | rxIntervalLatch _ => exact execRxIntervalLatch_keeps hA.reg h
  | bracketSelect _ _ _ => exact execBracketSelect_keeps hA.reg hA.com hA.lat hA.mem hA.flash hA.boot h
  | bracketRevert _ => exact execBracketRevert_keeps hA.reg h
  | bracketTakeover _ _ => exact execBracketTakeover_keeps hA.reg h
  | bracketRelease _ _ => exact execBracketRelease_keeps hA.reg hA.com hA.lat hA.mem hA.flash hA.boot h
  | slateInsert _ _ => exact execSlateInsert_keeps hA.reg hA.com hA.lat hA.mem hA.flash hA.boot h
  | slateRemove _ _ => exact execSlateRemove_keeps hA.reg hA.com hA.lat hA.mem hA.flash hA.boot h
  | slateAutoClear _ => exact execSlateAutoClear_keeps hA.reg h
  | segmentReceived _ _ _ _ _ => exact execSegmentReceived_keeps hA.reg h
  | planeReturnFrame _ _ => exact execPlaneReturnFrame_keeps hA.reg h
  | xbarRetest _ _ => exact execXbarRetest_keeps hA.reg hA.com hA.lat hA.mem hA.flash hA.boot h
  | burstGrant _ _ => exact execBurstGrant_keeps hA.reg h
  | burstCompletion _ _ => exact execBurstCompletion_keeps hA.reg hA.mem h
  | lockTimeout _ => exact execLockTimeout_keeps hA.reg h
  | masterDrain _ _ => exact execMasterDrain_keeps hA.reg hA.mem h
  | scrub _ _ _ => exact execScrub_keeps hA.reg hA.mem h
  | pcFail _ _ _ => exact execPcFail_keeps hA.reg hA.mem h
  | pcRebuildDone _ _ => exact execPcRebuildDone_keeps hA.reg h
  | mirrorSynced _ => exact execMirrorSynced_keeps hA.reg hA.mem h
  | bufAlloc _ _ => exact execBufAlloc_keeps hA.reg hA.com hA.lat hA.mem hA.flash hA.boot h
  | bufStateWrite _ _ _ => exact execBufStateWrite_keeps hA.reg hA.com hA.lat hA.mem hA.flash hA.boot h
  | bufForced _ _ => exact execBufForced_keeps hA.reg hA.com hA.lat hA.mem hA.flash hA.boot h
  | winDataRead _ _ _ _ => exact execWinDataRead_keeps hA.reg hA.com hA.lat hA.mem hA.flash hA.boot h
  | winDataWrite _ _ _ _ _ => exact execWinDataWrite_keeps hA.reg hA.com hA.lat hA.mem hA.flash hA.boot h
  | canvasSwitchLine _ _ _ => exact execCanvasSwitchLine_keeps hA.reg hA.com hA.mem h
  | canvasDevelopment _ => exact execCanvasDevelopment_keeps hA.reg h
  | fenceDoneWrite _ _ _ => exact execFenceDoneWrite_keeps hA.reg hA.com hA.lat hA.mem hA.flash hA.boot h
  | wbDone _ => exact execWbDone_keeps hA.reg hA.mem h
  | proofSignature _ => exact execProofSignature_keeps hA.reg h
  | proofLearn _ _ => exact execProofLearn_keeps hA.reg hA.com hA.lat hA.mem hA.flash hA.boot h
  | frcSwitchLine _ _ => exact execFrcSwitchLine_keeps hA.reg hA.com h
  | frcDevelopment _ => exact execFrcDevelopment_keeps hA.reg hA.com h
  | motionEstimation _ _ _ => exact execMotionEstimation_keeps hA.reg h
  | cadenceFrame _ _ _ => exact execCadenceFrame_keeps hA.reg h
  | audioPacket _ _ => exact execAudioPacket_keeps hA.reg h
  | channelAbsent _ _ => exact execChannelAbsent_keeps hA.reg h
  | audioSample _ _ => exact execAudioSample_keeps hA.reg h
  | asrcRecover _ => exact execAsrcRecover_keeps hA.reg h
  | audioSlewEnd _ => exact execAudioSlewEnd_keeps hA.reg h
  | nonpcmEnd _ _ => exact execNonpcmEnd_keeps hA.reg h
  | nonpcmForcedSwitch _ => exact execNonpcmForcedSwitch_keeps hA.reg h
  | cstGo _ => exact execCstGo_keeps hA.reg hA.com hA.lat hA.mem hA.flash hA.boot h
  | cstAbort _ => exact execCstAbort_keeps hA.reg hA.com hA.lat hA.mem hA.flash hA.boot h
  | cstReserveWrite _ _ => exact execCstReserveWrite_keeps hA.reg hA.com hA.lat hA.mem hA.flash hA.boot h
  | cstLineComplete _ _ => exact execCstLineComplete_keeps hA.reg hA.mem h
  | cstIrqAck _ _ => exact execCstIrqAck_keeps hA.reg hA.com hA.lat hA.mem hA.flash hA.boot h
  | clusterFault _ _ => exact execClusterFault_keeps hA.reg h
  | lineWatchdogExpiry _ => exact execLineWatchdogExpiry_keeps hA.reg h
  | failover _ => exact execFailover_keeps hA.reg h
  | clustersRetest _ _ => exact execClustersRetest_keeps hA.reg hA.com hA.lat hA.mem hA.flash hA.boot h
  | retestDone _ _ => exact execRetestDone_keeps hA.reg h
  | selfTestDone _ _ => exact execSelfTestDone_keeps hA.reg h
  | rotationPeriod => exact execRotationPeriod_keeps hA.reg h
  | rotateNow _ => exact execRotateNow_keeps hA.reg hA.com hA.lat hA.mem hA.flash hA.boot h
  | rotationCompare _ => exact execRotationCompare_keeps hA.reg h
  | rotationMove _ => exact execRotationMove_keeps hA.reg h
  | mgmtFault => exact execMgmtFault_keeps hA.reg h
  | mgmtWatchdogExpiry => exact execMgmtWatchdogExpiry_keeps hA.reg h
  | mgmtSwitchover => exact execMgmtSwitchover_keeps hA.reg h
  | mgmtForceSwitchover _ => exact execMgmtForceSwitchover_keeps hA.reg hA.com hA.lat hA.mem hA.flash hA.boot h
  | powerOnReset _ => exact execPowerOnReset_keeps hA.reg hA.boot h
  | pinReset => exact execPinReset_keeps hA.reg hA.boot h
  | warmReset _ => exact execWarmReset_keeps hA.reg hA.com hA.lat hA.mem hA.flash hA.boot h
  | imageLoad _ _ _ _ => exact execImageLoad_keeps hA.reg h
  | domainEnable _ _ => exact execDomainEnable_keeps hA.reg hA.com hA.lat hA.mem hA.flash hA.boot h
  | domainDisable _ _ => exact execDomainDisable_keeps hA.reg hA.com hA.lat hA.mem hA.flash hA.boot h
  | forceOff _ _ => exact execForceOff_keeps hA.reg hA.com hA.lat hA.mem hA.flash hA.boot h
  | domainReady _ => exact execDomainReady_keeps hA.reg h
  | funcReady _ _ => exact execFuncReady_keeps hA.reg h
  | domainFault _ _ => exact execDomainFault_keeps hA.reg hA.com hA.mem h
  | fwVerify _ _ => exact execFwVerify_keeps hA.reg hA.com hA.lat hA.mem hA.flash hA.boot h
  | fwActivate _ _ _ _ => exact execFwActivate_keeps hA.reg hA.com hA.lat hA.mem hA.flash hA.boot h
  | fwConfirm _ => exact execFwConfirm_keeps hA.reg hA.com hA.lat hA.mem hA.flash hA.boot h
  | flashErase _ => exact execFlashErase_keeps hA.reg hA.com hA.lat hA.mem hA.flash hA.boot h
  | flashEraseDone => exact execFlashEraseDone_keeps hA.reg hA.flash h
  | flashDataWrite _ _ => exact execFlashDataWrite_keeps hA.reg hA.com hA.lat hA.mem hA.flash hA.boot h
  | flashDataRead _ => exact execFlashDataRead_keeps hA.reg hA.com hA.lat hA.mem hA.flash hA.boot h
  | negPostDone => exact execNegPostDone_keeps hA.reg h
  | negRelease _ => exact execNegRelease_keeps hA.reg hA.com hA.lat hA.mem hA.flash hA.boot h
  | negPrint _ _ => exact execNegPrint_keeps hA.reg hA.com hA.lat hA.mem hA.flash hA.boot h
  | negPrintStart => exact execNegPrintStart_keeps hA.reg h
  | negPrinted _ => exact execNegPrinted_keeps hA.reg hA.flash h
  | pinFuncWrite _ _ _ => exact execPinFuncWrite_keeps hA.reg hA.com hA.lat hA.mem hA.flash hA.boot h
  | eventOutPulseEnd _ => exact execEventOutPulseEnd_keeps hA.reg h
  | ctlLink _ _ => exact execCtlLink_keeps hA.reg h
  | statsClear _ _ => exact execStatsClear_keeps hA.reg hA.com hA.lat hA.mem hA.flash hA.boot h
  | measuredClear _ _ => exact execMeasuredClear_keeps hA.reg hA.com hA.lat hA.mem hA.flash hA.boot h
  | admCheck _ _ => exact execAdmCheck_keeps hA.reg hA.com hA.lat hA.mem hA.flash hA.boot h
  | resetRelease => exact execResetRelease_keeps hA.reg h
  | domainOff _ => exact execDomainOff_keeps hA.reg h
  | fwVerifyDone _ _ => exact execFwVerifyDone_keeps hA.reg h
  | ppsOutWidthEnd => exact execPpsOutWidthEnd_keeps hA.reg h
  | gpioInputLevel _ _ => exact execGpioInputLevel_keeps hA.reg h
  | refPhaseEvent _ _ => exact execRefPhaseEvent_keeps hA.reg h

/-- A tick keeps what all its updates keep. -/
theorem tick_keeps' {P : State → Prop} (hA : KeptAll P) {s : State} (h : P s) : P s.tick := tick_keeps hA.reg hA.com h

/-- A step keeps what every command and the queue keep. -/
theorem step_keeps {P : State → Prop} (hA : KeptAll P) (hq : ∀ t q, P t → P { t with pending := q }) {s : State} (h : P s) :
    onOut P (step s) := by
  unfold step
  split
  · exact tick_keeps' hA h
  · exact exec_keeps hA (hq s _ h)

end Sys2Proof.Machine
end

