-- ==== Sys2Proof/Laws/Requests.lean ====
section
/-! SUPPORT. What a request does that a session's request is: it arrives, is executed once, is answered and remembered; a WRITE of one object
in particular. Bytes of numbers and back. -/
namespace Sys2Proof

open Machine

/-! ## Bytes -/

/-- `n` bytes are `n` bytes. -/
@[simp] theorem length_bytesBE (n v : Nat) : (bytesBE n v).length = n := by
  induction n with
  | zero => rfl
  | succ n ih => simp [bytesBE, ih]

/-- Reading bytes behind a number. -/
theorem foldl_bytes (l : List Nat) (a : Nat) : l.foldl (fun a b => a * 256 + b) a = a * 256 ^ l.length + ofBytes l := by
  induction l generalizing a with
  | nil => simp [ofBytes]
  | cons b t ih =>
    have h2 := ih b
    simp only [ofBytes, List.foldl_cons, List.length_cons, Nat.zero_mul, Nat.zero_add] at *
    rw [ih (a * 256 + b), h2]
    ring

/-- The bytes of a number spell it, in their width. -/
theorem ofBytes_bytesBE (n v : Nat) : ofBytes (bytesBE n v) = v % 256 ^ n := by
  induction n with
  | zero => simp [bytesBE, ofBytes, Nat.mod_one]
  | succ n ih =>
    have h : ofBytes (bytesBE (n + 1) v) = (v / 256 ^ n % 256) * 256 ^ n + ofBytes (bytesBE n v) := by
      have := foldl_bytes (bytesBE n v) (v / 256 ^ n % 256)
      simpa [bytesBE, ofBytes] using this
    rw [h, ih, Nat.pow_succ, Nat.mod_mul]
    ring

/-- A field at the front of a payload. -/
theorem fld_front (n v : Nat) (l : List Nat) : fld (bytesBE n v ++ l) 0 n = v % 256 ^ n := by
  have : (bytesBE n v ++ l).take n = bytesBE n v := by
    simp
  simp [fld, this, ofBytes_bytesBE]

/-- A value written in the width of its type is taken as it is. -/
theorem take_bytesBE (t : Ty) (v : Nat) (h : v < 256 ^ t.size) : t.take (bytesBE t.size v) = some v := by
  have hv : ofBytes (bytesBE t.size v) = v := by rw [ofBytes_bytesBE, Nat.mod_eq_of_lt h]
  cases t <;> simp_all [Ty.take, Ty.size]

/-! ## Registers -/

/-- A register written reads back. -/
theorem rd_wr_self (s : State) (k v : Nat) : (s.wr k v).rd k = v := by
  simp only [State.wr, State.rd]
  split
  · rw [alGet_alErase_self]; simp_all
  · rw [alGet_alSet_self]; rfl

/-- Any other register reads as before. -/
theorem rd_wr_ne (s : State) {k j : Nat} (v : Nat) (h : j ≠ k) : (s.wr k v).rd j = s.rd j := by
  simp only [State.wr, State.rd]
  split
  · rw [alGet_alErase_ne _ h]
  · rw [alGet_alSet_ne _ _ h]

/-- A register after another, or the same, is written. -/
theorem rd_wr (s : State) (k j v : Nat) : (s.wr k v).rd j = if j = k then v else s.rd j := by
  split
  · next h => subst h; exact rd_wr_self s j v
  · next h => exact rd_wr_ne s v h

/-- A register none of several written ones is reads as before. -/
theorem rd_wrs_ne (l : List (Nat × Nat)) (s : State) (j : Nat) (h : ∀ p ∈ l, j ≠ p.1) : (s.wrs l).rd j = s.rd j := by
  induction l generalizing s with
  | nil => rfl
  | cons p t ih =>
    have : ((s.wr p.1 p.2).wrs t).rd j = (s.wr p.1 p.2).rd j := ih _ (fun r hr => h r (List.mem_cons_of_mem _ hr))
    simpa [State.wrs, rd_wr_ne s p.2 (h p (List.mem_cons_self ..))] using this

/-! ## A request of a session -/

/-- Where a message goes does not depend on its answer being remembered. -/
theorem send_rd (s : State) (m : Msg) (k : Nat) : (s.send m).rd k = s.rd k := by
  simp only [State.send]; split
  · rfl
  · split <;> rfl

/-- Remembering an answer changes no register. -/
theorem remember_rd (s : State) (c : Cached) (k : Nat) : (s.remember c).rd k = s.rd k := rfl

/-- Answering changes no register. -/
theorem replied_rd (s m : State) (q : Req) (i op st : Nat) (p : List Nat) (k : Nat) : (replied s q i op st p m).rd k = m.rd k := by
  simp only [replied, send_rd, remember_rd]

/-- A register that no arrival changes. -/
theorem arrived_rd (s : State) (q : Req) (i k : Nat) (h : k ∉ arrivalKeys i) : (arrived q i s).rd k = s.rd k := by
  simp only [arrivalKeys, List.mem_cons, List.not_mem_nil, or_false, not_or] at h
  obtain ⟨h1, h2, h3, h4, h5, h6, h8, h7⟩ := h
  simp only [arrived]
  rw [rd_wr_ne _ _ h7, rd_wrs_ne]
  intro p hp
  simp only [List.mem_append, List.mem_cons, List.not_mem_nil, or_false] at hp
  rcases hp with (h | h | h | h) | hp
  · rw [h]; exact h1
  · rw [h]; exact h2
  · rw [h]; exact h3
  · rw [h]; exact h4
  split at hp
  · cases hp
  · simp only [List.mem_cons, List.not_mem_nil, or_false] at hp
    rcases hp with h | h | h
    · rw [h]; exact h5
    · rw [h]; exact h6
    · rw [h]; exact h8

/-- A session record is one of seventeen. -/
theorem slot_le {s : State} {q : Req} {i : Nat} (h : s.findSess q = some i) : i ≤ 16 := by
  simp only [State.findSess] at h
  split at h
  · cases h; decide
  · have := List.mem_of_find?_eq_some h
    simp only [List.mem_range] at this
    omega

/-- No warm reset is asked for once a request has arrived. -/
theorem arrived_warmPend (s : State) (q : Req) {i : Nat} (hi : i ≤ 16) : (arrived q i s).rd H.warmPend = 0 := by
  have h7 : H.warmPend ≠ K.SESS_LAST_SEQ i := by simp only [H.warmPend, H.hk, K.SESS_LAST_SEQ, K.at']; omega
  have h5 : H.warmPend ≠ K.SESS_ADDR i := by simp only [H.warmPend, H.hk, K.SESS_ADDR, K.at']; omega
  have h6 : H.warmPend ≠ K.SESS_UDP i := by simp only [H.warmPend, H.hk, K.SESS_UDP, K.at']; omega
  have h8 : H.warmPend ≠ H.sessOwn i := by simp only [H.warmPend, H.hk, H.sessOwn]; omega
  simp only [arrived]
  rw [rd_wr_ne _ _ h7]
  split <;> simp only [State.wrs, List.append_nil, List.cons_append, List.nil_append, List.foldl_cons, List.foldl_nil]
  · exact rd_wr_self ..
  · rw [rd_wr_ne _ _ h8, rd_wr_ne _ _ h6, rd_wr_ne _ _ h5]; exact rd_wr_self ..

/-- The arrival is what the model does first with a new request. -/
theorem arrived_eq (s : State) (q : Req) (i : Nat) :
    (s.touch i q).wr (K.SESS_LAST_SEQ i) (q.seq % 2 ^ 32) = arrived q i s := rfl

/-- A request a session is served with is executed once, as a new one. -/
theorem arrive_serves {s : State} {q : Req} {i op : Nat} (h : Serves s q i) (hq : LenOk q) (hop : opKnown op = true) (h1 : op ≠ 1)
    (hmin : ¬ q.payload.length < minPayload op q) (x : List Int) : s.arrive op q x = s.runNew i op q x := by
  have hd := h.toHeard.toDoor
  have hne : op ≠ 0x32 := by rintro rfl; simp [opKnown] at hop
  have hup : ¬ (2 < q.port ∨ (q.port < 2 ∧ ((!s.hears q) = true ∨ s.rd H.recov = 1))) := by
    rintro (hp | ⟨hp, hp2⟩)
    · have := hd.port; omega
    · obtain ⟨ha, hb⟩ := hd.up hp
      obtain ⟨hc, he⟩ := hd.here hp
      rcases hp2 with hp2 | hp2
      · simp [State.hears, State.pdReady, ha, hb, hc, he] at hp2
      · exact hd.normal hp2
  have hbad : badHeader op q = false := by
    simp [badHeader, hd.magic, hq.1, hd.plain, hq.1 ▸ hq.2]
  have hcache : s.cached i q = none := by
    unfold State.cached
    rw [List.find?_eq_none]
    intro e he hc
    simp only [Bool.and_eq_true, beq_iff_eq, decide_eq_true_eq] at hc
    exact h.uncached e he ⟨hc.1.1.1, hc.1.2, hc.2⟩
  have hopen : ¬ (i ≠ 16 ∧ s.rd (K.SESS_STATE i) ≠ 1) := by
    rintro ⟨ha, hb⟩; exact hb (h.open' ha)
  have hgen : (!opKnown op || q.gen != s.rd (K.SESS_GEN i)) = false := by simp [hop, h.gen]
  have hon : (!s.mgmtOn) = false := by simp [State.mgmtOn, hd.on]
  have hreq : s.request op q x = s.runNew i op q x := by
    simp only [State.request, h.named]
    rw [if_neg (show ¬ (i ≠ spiSlot ∧ s.rd (K.SESS_STATE i) ≠ 1) from hopen), hgen, if_neg (by decide), hcache, h.newer]
    simp only [Bool.not_true, Bool.false_eq_true, if_false]
    rw [if_neg hmin]
  simp only [State.arrive, hon]
  rw [if_neg (by decide), if_neg hup, hbad, if_neg (by decide), if_neg (fun hc => hne hc.1), if_pos h1, hreq]

/-- What the block does with a request it serves whose operation answers with one payload and closes no session. -/
theorem runNew_eq {s : State} {q : Req} {i op : Nat} (hi : i ≤ 16) (x : List Int) (r : Reply) (p : List Nat)
    (hr : (arrived q i s).perform i op q x = r) (hp : r.parts = [p]) (hc : r.close = none) :
    s.runNew i op q x = (replied s q i op r.st p r.s).afterAnswer := by
  have hg : (arrived q i s).rd (K.SESS_GEN i) = s.rd (K.SESS_GEN i) := by
    apply arrived_rd
    simp only [arrivalKeys, List.mem_cons, List.not_mem_nil, or_false, not_or, K.SESS_GEN, K.SESS_PORT, K.SESS_ADDR, K.SESS_UDP, K.SESS_LAST_SEQ, H.sessOwn,
      H.lastReq, H.sessMute, H.warmPend, H.hk, K.at']
    omega
  have hid : (arrived q i s).sid i = if i = 16 then 0 else s.rd (K.SESS_ID i) := by
    by_cases h16 : i = 16
    · simp [State.sid, spiSlot, h16]
    · simp only [State.sid, spiSlot, h16, if_false]
      apply arrived_rd
      simp only [arrivalKeys, List.mem_cons, List.not_mem_nil, or_false, not_or, K.SESS_ID, K.SESS_PORT, K.SESS_ADDR, K.SESS_UDP, K.SESS_LAST_SEQ, H.sessOwn,
        H.lastReq, H.sessMute, H.warmPend, H.hk, K.at']
      omega
  have hn : (arrived q i s).now = s.now := by
    apply arrived_rd
    simp only [arrivalKeys, List.mem_cons, List.not_mem_nil, or_false, not_or, K.SESS_PORT, K.SESS_ADDR, K.SESS_UDP, K.SESS_LAST_SEQ, H.sessOwn,
      H.lastReq, H.sessMute, H.warmPend, H.hk, K.at', H.now]
    omega
  have ha := arrived_eq s q i
  simp only [State.runNew]
  rw [ha, hr, hc, hp, hg, hid, hn]
  simp only [answerMsgs, List.foldl_cons, List.foldl_nil, replied, answerTo]

/-! ## A WRITE of one object -/

/-- A WRITE of one object that a served session may write, of a value the object accepts: the object's own effect decides the answer. -/
theorem put_eq {s : State} {q : Req} {i k v : Nat} {l : Loc} (h : Serves s q i) (hk : k < 2 ^ 24) (hl : locate k = some l)
    (hacc : l.row.acc ≠ .ro) (hr : holds (s.rd (K.SESS_RIGHTS i)) l.row.wr = true) (hv : v < 256 ^ l.row.ty.size)
    (hlen : l.row.ty.size ≤ 1396) (hadm : l.admits k v = true) (hpair : (arrived q i s).pairOk l v = true) (x : List Int) :
    put q k v x s =
      (let a := State.counted (writeObj l v ⟨q.port, i, x⟩ k (arrived q i s))
       .next (replied s q i 0x11 a.st (bytesBE 3 k ++ [0] ++ (if a.st = 7 then bytesBE 4 a.holder else [])) a.s).afterAnswer) := by
  have hi := slot_le h.named
  set p := bytesBE 3 k ++ [0] ++ bytesBE l.row.ty.size v with hpdef
  set q' : Req := { q with len := p.length, payload := p } with hq'
  have hpl : p.length = 4 + l.row.ty.size := by simp [hpdef]; omega
  have hs' : Serves s q' i :=
    { on := h.on, normal := h.normal, port := h.port, up := h.up, here := h.here, magic := h.magic, plain := h.plain, named := h.named, open' := h.open',
      gen := h.gen, uncached := h.uncached, newer := h.newer }
  have hq : LenOk q' := ⟨rfl, by show p.length ≤ 1400; omega⟩
  have harr : arrived q' i s = arrived q i s := rfl
  have hrec : (arrived q i s).rd H.recov ≠ 1 := by
    rw [arrived_rd]
    · exact h.normal
    · simp only [arrivalKeys, List.mem_cons, List.not_mem_nil, or_false, not_or, K.SESS_PORT, K.SESS_ADDR, K.SESS_UDP, K.SESS_LAST_SEQ, H.sessOwn,
        H.lastReq, H.sessMute, H.warmPend, H.hk, K.at', H.recov]
      omega
  have hrt : (arrived q i s).rd (K.SESS_RIGHTS i) = s.rd (K.SESS_RIGHTS i) := by
    apply arrived_rd
    simp only [arrivalKeys, List.mem_cons, List.not_mem_nil, or_false, not_or, K.SESS_PORT, K.SESS_ADDR, K.SESS_UDP, K.SESS_LAST_SEQ, K.SESS_RIGHTS, H.sessOwn,
      H.lastReq, H.sessMute, H.warmPend, H.hk, K.at']
    omega
  have hfld : fld q'.payload 0 3 = k := by
    show fld p 0 3 = k
    rw [hpdef, List.append_assoc, fld_front]
    exact Nat.mod_eq_of_lt (by simpa using hk)
  have hfind : (arrived q i s).findObj k = some l := by
    simp only [State.findObj, hrec, false_and, if_false, hl]
  have htake4 : q'.payload.take 4 = bytesBE 3 k ++ [0] := by
    show p.take 4 = _
    rw [hpdef]
    have : (bytesBE 3 k ++ [0]).length = 4 := by simp
    rw [← this, List.take_left]
  have hdrop4 : q'.payload.drop 4 = bytesBE l.row.ty.size v := by
    show p.drop 4 = _
    rw [hpdef]
    have : (bytesBE 3 k ++ [0]).length = 4 := by simp
    rw [← this, List.drop_left]
  have hone : (arrived q i s).writeOne ((arrived q i s).rd (K.SESS_RIGHTS i)) (fld q'.payload 0 3) (q'.payload.drop 4) ⟨q'.port, i, x⟩
      = State.counted (writeObj l v ⟨q.port, i, x⟩ k (arrived q i s)) := by
    simp only [State.writeOne, hfld, hfind, hdrop4, hrt, hr, take_bytesBE _ _ hv, hadm, hpair]
    simp [hacc]
    rfl
  have hput : put q k v x s = recv 0x11 q' x s := by
    simp only [put, hl, hq', hpdef]
  rw [hput]
  show Host.Outcome.next (s.arrive 0x11 q' x) = _
  have hmin : ¬ q'.payload.length < minPayload 0x11 q' := by
    show ¬ p.length < _
    simp only [minPayload]
    simp; omega
  rw [arrive_serves hs' hq (by decide) (by decide) hmin x]
  have hper : (arrived q' i s).perform i 0x11 q' x = (arrived q i s).opWrite i q' x := by
    simp only [State.perform, harr]
    simp
  rw [runNew_eq hi x _ _ hper rfl rfl]
  simp only [State.opWrite, hone, htake4]
  rfl

/-- A request that asks for no warm reset is followed by none. -/
theorem afterAnswer_none {s : State} (h : s.rd H.warmPend ≠ 1) : s.afterAnswer = s := by simp [State.afterAnswer, h]

/-- The write of an object that is not RL and whose effect is `f` is carried out: a CMD then holds the value. -/
theorem put_wrote {s : State} {q : Req} {i k v : Nat} {l : Loc} (h : Serves s q i) (hk : k < 2 ^ 24) (hl : locate k = some l)
    (hacc : l.row.acc = .rw ∨ l.row.acc = .cmd) (hr : holds (s.rd (K.SESS_RIGHTS i)) l.row.wr = true) (hv : v < 256 ^ l.row.ty.size)
    (hlen : l.row.ty.size ≤ 1396) (hadm : l.admits k v = true) (hpair : (arrived q i s).pairOk l v = true) (x : List Int)
    (f : State → State) (he : writeEffect l k v ⟨q.port, i, x⟩ (arrived q i s) = ⟨0, 0, f (arrived q i s)⟩) :
    put q k v x s = .next (wrote s q i k (fun n => if l.row.acc = .cmd then (f n).wr k v else f n)) := by
  have hne : l.row.acc ≠ .ro := by rcases hacc with h | h <;> simp [h]
  have hnrl : l.row.acc ≠ .rl := by rcases hacc with h | h <;> simp [h]
  rw [put_eq h hk hl hne hr hv hlen hadm hpair x]
  simp only [writeObj, hnrl, if_false, he]
  by_cases hc : l.row.acc = .cmd
  · simp only [hc, and_self, if_true, State.counted, true_or, wrote]
    rw [if_neg (by decide), List.append_nil]
  · simp only [hc, and_false, if_false, State.counted, true_or, if_true, wrote]
    rw [if_neg (by decide), List.append_nil]

/-- A write that only arrives and is answered. -/
theorem wrote_id {s : State} {q : Req} {i k : Nat} (hi : i ≤ 16) :
    wrote s q i k id = replied s q i 0x11 0 (bytesBE 3 k ++ [0]) ((arrived q i s).inc K.IDENT_CFG_SEQ 1 (2 ^ 64)) := by
  have hcfg : H.warmPend ≠ K.IDENT_CFG_SEQ := by decide
  simp only [wrote, id]
  apply afterAnswer_none
  rw [replied_rd]
  simp only [State.inc, State.up]
  rw [rd_wr_ne _ _ hcfg, arrived_warmPend s q hi]
  decide

/-- The write of an object that is not RL and whose effect is a refusal: what the refusal did stays, the answer says why. -/
theorem put_declined {s : State} {q : Req} {i k v st hd : Nat} {l : Loc} (h : Serves s q i) (hk : k < 2 ^ 24) (hl : locate k = some l)
    (hacc : l.row.acc = .rw ∨ l.row.acc = .cmd) (hr : holds (s.rd (K.SESS_RIGHTS i)) l.row.wr = true) (hv : v < 256 ^ l.row.ty.size)
    (hlen : l.row.ty.size ≤ 1396) (hadm : l.admits k v = true) (hpair : (arrived q i s).pairOk l v = true) (x : List Int)
    (f : State → State) (he : writeEffect l k v ⟨q.port, i, x⟩ (arrived q i s) = ⟨st, hd, f (arrived q i s)⟩) (h0 : st ≠ 0) (h9 : st ≠ 9)
    (hw : (f (arrived q i s)).rd H.warmPend ≠ 1) :
    put q k v x s = .next (declined s q i k st (if st = 7 then bytesBE 4 hd else []) f) := by
  have hne : l.row.acc ≠ .ro := by rcases hacc with h | h <;> simp [h]
  have hnrl : l.row.acc ≠ .rl := by rcases hacc with h | h <;> simp [h]
  rw [put_eq h hk hl hne hr hv hlen hadm hpair x]
  simp only [writeObj, hnrl, if_false, he, h0, false_and, State.counted, h9, or_self, declined]
  rw [afterAnswer_none]
  rw [replied_rd]
  exact hw

end Sys2Proof
end

