-- ==== Sys2Proof/Tests/Slice0.lean ====
section
/-! SUPPORT. The author's own tests: states that meet the hypotheses of each statement, clause by clause; an ill-formed term for each check
of WellFormed; and single steps whose results the manual gives. -/
namespace Sys2Proof.Tests
open Sys2Proof Machine

/-! ## Small states -/

/-- The state after reset with some registers set. -/
def low (l : List (Nat × Nat)) : State := { State.reset with reg := l }

/-- A served part: a management pair is active, control port A is up, session 0 is open at SERVICE in generation 3. -/
def known : List (Nat × Nat) :=
  [(H.mgmtOn, 1), (H.recov, 0), (K.PD_STATE 3, 3), (K.CTL_ENABLE 0, 1), (K.SESS_STATE 0, 1), (K.SESS_ID 0, 7)] ++
    [(K.SESS_GEN 0, 3), (K.SESS_RIGHTS 0, 3), (K.SESS_LAST_SEQ 0, 10), (K.SESS_GEN 16, 3), (K.SESS_LAST_SEQ 16, 10), (K.SESS_RIGHTS 16, 3),
      (K.CTL_IPV4_ADDR 0, 1), (K.CTL_QCP_PORT 0, 48810)]

/-- The served part with some registers set. -/
def up (l : List (Nat × Nat)) : State := { State.reset with reg := known ++ l }

/-- A request of session 0 at control port A. -/
def rq (p : List Nat) : Req := ⟨0, 0, 0, 0xFFFF00000001, 48810, 0x5A51, 3, 0, 7, 11, 0, p.length, p⟩

/-- A request at the SPI target. -/
def spi (p : List Nat) : Req := ⟨2, 0, 0, 0, 0, 0x5A51, 3, 0, 0, 11, 0, p.length, p⟩

/-- What `known` lists is what the state holds. -/
theorem test_known {k v : Nat} (h : alGet known k = some v) (l : List (Nat × Nat)) : (up l).rd k = v := by
  have hap : ∀ a : List (Nat × Nat), alGet a k = some v → alGet (a ++ l) k = some v := by
    intro a
    induction a with
    | nil => intro h; cases h
    | cons x a ih =>
      intro h
      simp only [alGet, List.cons_append] at h ⊢
      split at h
      · exact (if_pos ‹_›).trans h
      · exact (if_neg ‹_›).trans (ih h)
  simp [State.rd, up, hap known h]

/-- Control port A lets a request in, whatever else the state holds. -/
theorem test_door (l : List (Nat × Nat)) (p : List Nat) : Door (up l) (rq p) :=
  { on := test_known (by decide) l
    normal := by rw [test_known (v := 0) (by decide) l]; decide
    port := Nat.zero_le 2
    up := fun _ => ⟨test_known (k := K.PD_STATE 3) (by decide) l, test_known (k := K.CTL_ENABLE 0) (by decide) l⟩
    here := fun _ => by
      have h : (up l).rd (K.CTL_IPV4_ADDR 0) = 1 := test_known (by decide) l
      exact ⟨(test_known (k := K.CTL_QCP_PORT 0) (v := 48810) (by decide) l).symm, by simp [State.ownAddr, rq, h]⟩
    magic := rfl
    plain := (by decide : Nat.testBit 0 7 = false) }

/-- Session 0 is served. -/
theorem test_serves (l : List (Nat × Nat)) (p : List Nat) : Serves (up l) (rq p) 0 :=
  { test_door l p with
    named := by
      have h1 : (up l).rd (K.SESS_STATE 0) = 1 := test_known (by decide) l
      have h2 : (up l).rd (K.SESS_ID 0) = 7 := test_known (by decide) l
      simp [State.findSess, rq, List.range_succ_eq_map, h1, h2]
    open' := fun _ => test_known (by decide) l
    gen := (test_known (v := 3) (by decide) l).symm
    uncached := fun _ h => by cases h
    newer := by rw [test_known (v := 10) (by decide) l]; exact (by decide : newer 11 10 = true) }

/-- The SPI session is served. -/
theorem test_serves_spi (l : List (Nat × Nat)) (p : List Nat) : Serves (up l) (spi p) 16 :=
  { on := test_known (by decide) l
    normal := by rw [test_known (v := 0) (by decide) l]; decide
    port := Nat.le_refl 2
    up := fun h => absurd h (Nat.lt_irrefl 2)
    here := fun h => absurd h (Nat.lt_irrefl 2)
    magic := rfl
    plain := (by decide : Nat.testBit 0 7 = false)
    named := rfl
    open' := fun h => absurd rfl h
    gen := (test_known (v := 3) (by decide) l).symm
    uncached := fun _ h => by cases h
    newer := by rw [test_known (v := 10) (by decide) l]; exact (by decide : newer 11 10 = true) }

/-- A request's own LEN is right. -/
theorem test_lenOk {p : List Nat} (h : p.length ≤ 1400) : LenOk (rq p) ∧ LenOk (spi p) := ⟨⟨rfl, h⟩, ⟨rfl, h⟩⟩


/-! ## Ill-formed commands, one for each check of WellFormed -/

/-- A request of the right shape is well formed. -/
theorem test_wf_request : (Instr.ping (rq [])).wf = true ∧ (Instr.hello (spi [3, 2, 0, 0])).wf = true := by decide

/-- Each field of a request that does not fit is refused. -/
theorem test_wf_request_fields : ∀ q ∈ [{ rq [] with port := 3 }, { rq [] with addr := 2 ^ 128 }, { rq [] with udp := 2 ^ 16 },
    { rq [] with dst := 2 ^ 128 }, { rq [] with dport := 2 ^ 16 },
    { rq [] with magic := 2 ^ 16 }, { rq [] with gen := 256 }, { rq [] with flags := 256 }, { rq [] with session := 2 ^ 32 },
    { rq [] with seq := 2 ^ 32 }, { rq [] with status := 256 }, { rq [] with len := 2 ^ 16 }, rq [256]], (Instr.ping q).wf = false := by decide

/-- A burst at an address 64 does not divide, beyond 40 bits, with 17 beats, without one, with a short beat. -/
theorem test_wf_burst :
    (let b : Burst := ⟨0x70, 0, 64, true, 0, [(1, List.replicate 64 255)]⟩
     ((Instr.burstGrant 0 [b]).wf = true ∧ ∀ x ∈ [{ b with addr := 65 }, { b with addr := 2 ^ 40 }, { b with lock := 3 }, { b with beats := [] },
        { b with write := false, beats := List.replicate 17 (0, []) }, { b with beats := [(2 ^ 64, List.replicate 64 0)] },
        { b with beats := [(1, [0])] }, { b with beats := [(1, List.replicate 64 256)] }], (Instr.burstGrant 0 [x]).wf = false)) := by decide

/-- A measurement with more active lines than lines, and one without a period. -/
theorem test_wf_measurement :
    (let m : Meas := ⟨2640, 1125, 1080, false, 0, 0, 20000000000, 0⟩
     ((Instr.rxFrameMeasured 47 m).wf = true ∧ (Instr.rxFrameMeasured 47 { m with active := 1126 }).wf = false ∧
      (Instr.rxFrameMeasured 47 { m with period := 0 }).wf = false)) := by decide

/-- An ANC packet with a word, a count or a verdict out of range. -/
theorem test_wf_anc :
    (let a : Anc := ⟨0, 0, 9, true, 0x260, 0x260, 0x201, [0x200], 0, 0⟩
     ((Instr.ancPacket 0 a).wf = true ∧ ∀ x ∈ [{ a with udw := [1024] }, { a with udw := List.replicate 256 0 }, { a with did := 1024 },
        { a with sdid := 1024 }, { a with dc := 1024 }, { a with cs := 1024 }, { a with fault := 1 }, { a with fault := 2 }, { a with fault := 5 }],
      (Instr.ancPacket 0 x).wf = false)) := by decide +kernel

/-- An audio packet of group 8, of no known result, with three samples in a frame, with a sample of 25 bits. -/
theorem test_wf_audio :
    (let p : AudioPkt := ⟨7, false, 0, true, 0, [[0, 0, 0, 0xFFFFFF]], 1, true, true, 0, [], []⟩
     ((Instr.audioPacket 0 p).wf = true ∧ ∀ x ∈ [{ p with group := 8 }, { p with result := 3 }, { p with frames := [[0, 0, 0]] },
        { p with frames := [[0, 0, 0, 2 ^ 24]] }], (Instr.audioPacket 0 x).wf = false)) := by decide

/-- Pixel words of more than 64 bits, and lists of the wrong length. -/
theorem test_wf_words : ∀ c ∈ [Instr.rxLine 0 1 0 0 1 true [2 ^ 64], .segmentReceived 0 0 0 (some [(0, 2 ^ 64)]) none,
    .segmentReceived 0 0 0 none (some [(0, 2 ^ 64)]), .refMeasurement [0], .divsyncEdge [0], .rxLine 0 1 16 0 1 true [], .spiWriteMsg [256] [],
    .winDataWrite (rq []) false 0 0 [256]], c.wf = false := by decide

/-- Numbers beyond the width of the object they stand for. -/
theorem test_wf_values : ∀ c ∈ [Instr.notify 0 0xFFFF, .notifyRetry 0 (2 ^ 32), .latentDiscard (rq []) (2 ^ 1728), .slvCancel (rq []) 0 256,
    .refSignalDetected 0 0 0 0 0, .selModeWrite (rq []) 0 256 0, .ncoWrite (rq []) 0 (2 ^ 64), .todSet (rq []) (2 ^ 80), .irqAck (rq []) 0 256,
    .rateModeWrite (rq []) 0 256, .bracketSelect (rq []) 0 256, .xbarRetest (rq []) 256, .bufStateWrite (rq []) 0 256,
    .fenceDoneWrite (rq []) 0 (2 ^ 32), .cstReserveWrite (rq []) (2 ^ 32), .cstIrqAck (rq []) 256] ++
    [Instr.clustersRetest (rq []) 256, .imageLoad 0 0 (2 ^ 32) 0, .imageLoad 0 0 0 (2 ^ 16), .fwVerify (rq []) 256, .fwActivate (rq []) 256 0 0,
    .fwActivate (rq []) 0 0 (2 ^ 32), .flashDataWrite (rq []) (2 ^ 8192), .negPrint (rq []) 256, .pinFuncWrite (rq []) 0 256,
    .admCheck (rq []) (2 ^ 1728), .fwVerifyDone 0 (2 ^ 32)], c.wf = false := by decide +kernel

/-! ## Values the manual gives -/

/-- The state after reset is canonical. -/
theorem test_reset_canonical : Canonical State.reset = true := by decide

/-- No row of the table has bits. -/
theorem test_no_words : decodeTableWord 32 0 = none ∧ State.reset.withFetchWord 32 0 = State.reset := ⟨rfl, rfl⟩

/-- Spec/00, worked example "locating objects": block indexes 2BC0, 31C0, 4550, 67FF, 75FF, 96A0 and 9AE0, an object's index its top bits. -/
theorem test_indexes : K.IN_STAT_STATE 47 = 0x2BC001 ∧ K.LAYER_BLEND_OPACITY 21 / 256 = 0x4552 ∧ K.BUF_STATE 2047 / 256 = 0x67FF ∧
    K.DST_SRC 1535 / 256 = 0x75FF ∧ K.REF_OFFSET 53 / 256 = 0x96A0 ∧ K.GSYN_STATE 7 / 256 = 0x9AE0 := by decide

/-- Spec/01, worked example "failover in the map": CL0 to CL7 at 1A00.01 to 08 carry clusters 0 to 7 and CL8 is the spare after power-on. -/
theorem test_map_after_power_on : (∀ c < 8, State.reset.rd (0x1A0001 + c) = c) ∧ State.reset.rd K.CLMAP_SPARE = 8 ∧
    State.reset.rd K.CLMAP_SEQ = 0 ∧ State.reset.rotTarget = some 0 := by decide

/-- Spec/02, UMASK example: bytes 0, 1, 6 and 44 to 47 are 0x20, 0x10, 0x04 and 0xFF: OUT[5], OUT[12], EAS[2] and destinations 160 to 191. -/
theorem test_umask : maskUnits (0x20 * 256 ^ 215 + 0x10 * 256 ^ 214 + 0x04 * 256 ^ 209 + 0xFFFFFFFF * 256 ^ 168) =
    [5, 12, unitEas 2] ++ (List.range 32).map (fun k => unitDst (160 + k)) := by decide +kernel

/-- Spec/03, worked example "opening a session": READ of 1000.02 answers "ZH4848" padded to eight bytes. -/
theorem test_read_part : (match exec (.read (rq [0x10, 0x00, 0x02, 0x00])) (up []) with
    | .next t => t.tx.map (fun m => (m.op, m.flags, m.status, m.seq, m.payload))
    | _ => []) = [(0x10, 0x80, 0, 11, [0x10, 0x00, 0x02, 0x00, 0x5A, 0x48, 0x34, 0x38, 0x34, 0x38, 0x00, 0x00])] := by decide +kernel

/-- Spec/04, worked example "equal ranks": +310 and -1,900 ppb differ by 2,210, more than 2,000. -/
theorem test_disagree : (up [(K.REF_OFFSET 48, 310), (K.REF_OFFSET 49, 2 ^ 32 - 1900)]).disagree 2000 [48, 49] = some (48, 49, 2210) ∧
    (up [(K.REF_OFFSET 48, 310), (K.REF_OFFSET 49, 2 ^ 32 - 1900)]).disagree 2210 [48, 49] = none := by decide

/-- Spec/05, worked example: a 2160p59.94 frame that 5 ms lengthens gets 2,967,032 samples more. -/
theorem test_adjust : adjustSamples 26 (-5000000) = 2967032 := by decide

/-- Spec/07, worked example "narrow-to-full": preset 5 turns 2,008, 1,000, 3,840 into 2,047, 860 and 4,079, on the wire 512, 215, 1,019. -/
theorem test_preset_5 :
    let p := convPreset 5
    let c : Conv := ⟨1, 0, false, p.1, p.2.1, p.2.2⟩
    p.1 = [4749, 0, 0, 0, 4643, 0, 0, 0, 4643] ∧ c.apply ⟨2008, 1000, 3840, 0⟩ = (2047, 860, 4079) ∧
    wire10 2047 = 512 ∧ wire10 860 = 215 ∧ wire10 4079 = 1019 := by decide

/-- Spec/07, R163: key 4,095 gives 3,760 and key 0 gives 256, 64 on a 10-bit wire. -/
theorem test_key_out : (⟨0, 0, true, [], [], []⟩ : Conv).apply ⟨0, 0, 0, 4095⟩ = (3760, 2048, 2048) ∧ wire10 3760 = 940 ∧
    wire10 ((⟨0, 0, true, [], [], []⟩ : Conv).apply ⟨0, 0, 0, 0⟩).1 = 64 := by decide

/-- Spec/10: stack offset 0x123456700 lies in slot 28. -/
theorem test_slot : slotOf 0x123456700 = 28 := by decide

/-- Spec/10, worked example "one Q422 pair": 0xEB20010200, its low byte first. -/
theorem test_q422 : packQ422 [⟨64 * 4, 512 * 4, 512 * 4, 0⟩, ⟨940 * 4, 0, 0, 0⟩] = [0x00, 0x02, 0x01, 0x20, 0xEB] := by decide

/-- Spec/11, worked example "phases of a 3:4 upscale". -/
theorem test_phases : enlStep 1440 1920 = 786432 ∧ [0, 1, 2, 3, 4, 1919].map (enlPos 786432) =
    [(-1, 56), (0, 40), (1, 24), (2, 8), (2, 56), (1439, 8)] := by decide

/-- Spec/12, worked example "one pixel, both alpha modes". -/
theorem test_blend : alphaEff 3212 768 false = 603 ∧ widenAlpha 603 = 604 ∧
    blendPix 0 603 ⟨2800, 1600, 2400, 0⟩ ⟨1200, 1648, 2448, 1023⟩ = ⟨2144, 1620, 2420, 1023⟩ ∧
    blendPix 1 603 ⟨1700, 1500, 2300, 0⟩ ⟨1200, 1648, 2448, 1023⟩ = ⟨2192, 1336, 2464, 1023⟩ := by decide

/-- Spec/12, R280 and its worked example: the check value over "123456789"; the eight bytes of a pair. -/
theorem test_signature : crc32 [0x31, 0x32, 0x33, 0x34, 0x35, 0x36, 0x37, 0x38, 0x39] = 0xCBF43926 ∧
    sigBytes [512, 64, 512, 940] = [0x00, 0x02, 0x40, 0x00, 0x00, 0x02, 0xAC, 0x03] := by decide +kernel

/-- Spec/14, worked gain values. -/
theorem test_gain : gainFactor (-60) = 525533 ∧ gainFactor 120 = 4174456 := by decide +kernel

/-- Spec/14, R318: with LEVEL -200 the amplitude is 838,861, reached a quarter of a turn in. -/
theorem test_tone : (up [(K.TONE_ENABLE 0, 1), (K.TONE_LEVEL 0, 2 ^ 16 - 200)]).toneSample 0 12000000 = 838861 := by decide +kernel

/-- Spec/11, R254: the default tables are set 1 at ratio 1 by the formula of R244; here phase 33. -/
theorem test_default_tables :
    let packed (l : List Int) : Nat := l.foldl (fun a x => a * 65536 + ((x + 65536) % 65536).toNat) 0
    packed (hBuiltin 1 1920 1920 33) = hcoefDflt.getD 33 0 ∧ packed (vBuiltin 1 1080 1080 8 33) = vcoefDflt.getD 33 0 := by decide +kernel

/-- A command at the front of the queue is taken off it (log 1). -/
theorem test_step : (match step { up [] with pending := [.spiStatus] } with | .next t => t.pending | _ => [.resetRelease]) = [] := by decide +kernel
/-! ## The hypotheses of the statements are met -/

/-- CanonicalReadsDecide, StepKeepsCanonical. -/
theorem test_met_CanonicalReadsDecide : Canonical State.reset = true ∧ Canonical (low [(H.now, 5)]) = true := by decide

/-- EmptyQueueTicks: both its cases. -/
theorem test_met_EmptyQueueTicks : State.reset.pending = [] ∧ (low [(H.running, 1)]).rd H.running = 1 ∧ State.reset.rd H.running ≠ 1 := by decide

/-- StoredByteReadsBack: a plain byte, a byte whose slot is dead, and a mirrored byte. -/
theorem test_met_StoredByteReadsBack :
    (let s := low [(K.PD_STATE 43, 3)]
     s.deadAt 0 = false ∧ s.slotOut 0 = false ∧ (s.vec H.eccBad).contains 0 = false ∧ s.mirrorOf 0 = none) ∧
    ((low [(H.slotDead 0, 1)]).deadAt 0 = true ∧ (low [(H.slotDead 0, 1)]).mirrorOf 0 = none) ∧
    (let s := (low [(K.BUF_MIRROR 0, 2), (K.PD_STATE 47, 3)]).setVec H.allocs [0, 0, 1024, 4096, 0x400000000, 1024]
     s.mirrorOf 5 = some 0x400000005 ∧ s.deadAt 0x400000005 = false) := by decide

/-- CommandsKeepStores: a command of each kind. -/
theorem test_met_CommandsKeepStores : keepsStores .ppsInEdge = true ∧ keepsBytes (.salvoTrigger 0) = true ∧ writesMemory (.wbDone 0) = true := by
  decide

/-- HelloOpensSession: a free record and a common generation; no free record; no common generation. -/
theorem test_met_HelloOpensSession :
    let q := rq [3, 2, 0, 0]
    let full := up ((List.range 16).map (fun i => (K.SESS_STATE i, 1)))
    q.port < 2 ∧ q.len = q.payload.length ∧ 4 ≤ q.payload.length ∧ (up []).cache = [] ∧ ({ q with gen := 1 } : Req).gen < fld q.payload 1 1 ∧
    (3 = min (fld q.payload 0 1) ((up []).rd K.IDENT_GEN_MAX) ∧ max (fld q.payload 1 1) ((up []).rd K.IDENT_GEN_MIN) ≤ 3 ∧
      fld q.payload 1 1 ≤ q.gen ∧ (up []).rd (K.SESS_STATE 1) = 0 ∧ ∀ j < 1, (up []).rd (K.SESS_STATE j) ≠ 0) ∧
    (∀ j < 16, full.rd (K.SESS_STATE j) ≠ 0) ∧
    min (fld (rq [1, 1, 0, 0]).payload 0 1) ((up []).rd K.IDENT_GEN_MAX) <
      max (fld (rq [1, 1, 0, 0]).payload 1 1) ((up []).rd K.IDENT_GEN_MIN) := by decide

/-- ResumeNeedsToken: the right token, another one, an unknown session. -/
theorem test_met_ResumeNeedsToken :
    let good := rq ([3, 2, 0, 0] ++ bytesBE 16 9)
    let bad := rq ([3, 2, 0, 0] ++ bytesBE 16 8)
    let s := up [(H.token 0, 9)]
    good.len = good.payload.length ∧ bad.len = bad.payload.length ∧ s.findSess good = some 0 ∧ 20 ≤ good.payload.length ∧ fld good.payload 4 16 = s.rd (H.token 0) ∧
      fld bad.payload 4 16 ≠ s.rd (H.token 0) ∧ (s.rd (K.SESS_STATE 0) = 1) ∧
      s.rd K.IDENT_GEN_MIN ≤ s.rd (K.SESS_GEN 0) ∧ s.rd (K.SESS_GEN 0) ≤ s.rd K.IDENT_GEN_MAX ∧ s.rd K.IDENT_GEN_MAX < (up [(K.SESS_GEN 3, 4)]).rd (K.SESS_GEN 3) ∧
      s.findSess { good with session := 6 } = none := by decide

/-- AuthGrantsRights: a request whose proof is wrong, of a network session and of the SPI session. -/
theorem test_met_AuthGrantsRights :
    (rq (List.replicate 36 0)).len = (rq (List.replicate 36 0)).payload.length ∧ 36 ≤ (rq (List.replicate 36 0)).payload.length ∧ (spi (List.replicate 36 0)).len = (spi (List.replicate 36 0)).payload.length ∧
    (up []).rd (K.at' (0x1101 + fld (rq (List.replicate 36 0)).payload 0 1) 0) = 0 := by decide

/-- SessionsAliveAndGone: a PING; a session that has timed out, or not; a suspended one whose window is over, or not. -/
theorem test_met_SessionsAliveAndGone :
    (rq []).len = (rq []).payload.length ∧
    (let s := low [(K.SESS_STATE 3, 1), (K.QCP_SESSION_TIMEOUT, 5), (H.lastReq 3, 2), (H.now, 5000002)]
     s.rd (K.SESS_STATE 3) = 1 ∧ s.rd (H.lastReq 3) + s.rd K.QCP_SESSION_TIMEOUT * 1000000 ≤ s.now) ∧
    ¬ ((low [(K.SESS_STATE 3, 1)]).rd (H.lastReq 3) + (low []).rd K.QCP_SESSION_TIMEOUT * 1000000 ≤ (low []).now) ∧
    (let s := low [(K.SESS_STATE 3, 2), (K.QCP_RESUME_WINDOW, 1), (H.now, 1000000)]
     s.rd (K.SESS_STATE 3) = 2 ∧ s.rd (H.suspAt 3) + s.rd K.QCP_RESUME_WINDOW * 1000000 ≤ s.now) ∧
    (low []).rd (K.SESS_STATE 3) ≠ 2 := by decide

/-- ReplayAnswersOnce: an answer in the cache; a request no newer than the last. -/
theorem test_met_ReplayAnswersOnce :
    let e : Cached := ⟨0, 0, 0, 11, [], 0⟩
    let s : State := { up [] with cache := [e] }
    s.cache.find? (fun e => e.slot == 0 && e.seq == (rq []).seq && decide (s.now ≤ e.at' + s.replayTicks)) = some e ∧ (rq []).len = (rq []).payload.length ∧
    newer ({ rq [] with seq := 10 } : Req).seq ((up []).rd (K.SESS_LAST_SEQ 0)) = false := by decide

/-- NobodyServes. -/
theorem test_met_NobodyServes : State.reset.rd H.mgmtOn ≠ 1 := by decide

/-- ReadReturnsValue: an object, none, one above the rights, a write-only and a Latent one; a range of readable members, and one that is not. -/
theorem test_met_ReadReturnsValue :
    (let q := rq (bytesBE 3 K.FW_PENDING ++ [0])
     q.len = q.payload.length ∧ 4 ≤ q.payload.length ∧ (locate (fld q.payload 0 3)).isSome = true ∧ fld q.payload 0 3 / 256 ≠ 0x6811) ∧
    locate (fld (rq [0, 0, 0, 0]).payload 0 3) = none ∧
    (∃ l, locate K.FLASH_DATA = some l ∧ holds 2 l.row.rd = false) ∧
    (∃ l, locate (K.at' 0x1101 0) = some l ∧ l.row.acc = .wo) ∧
    (∃ l, locate (K.OUT_FORMAT 0) = some l ∧ l.row.acc = .rl) ∧
    (∀ m ∈ [1, 2], (up []).readStop 3 (K.at' 0x1010 m) = 0) ∧
    [1, 2].find? (fun m => (up []).readStop 2 (K.at' 0x1020 (m + 1)) != 0) = some 2 := by decide

/-- SpiHelloNegotiates. -/
theorem test_met_SpiHelloNegotiates :
    let q := spi [3, 2, 0, 0]
    Door (up []) q ∧ q.port = 2 ∧ q.len = q.payload.length ∧ 4 ≤ q.payload.length ∧ 3 = min (fld q.payload 0 1) ((up []).rd K.IDENT_GEN_MAX) ∧
    max (fld q.payload 1 1) ((up []).rd K.IDENT_GEN_MIN) ≤ 3 ∧ fld q.payload 1 1 ≤ q.gen ∧
    min (fld (spi [1, 1, 0, 0]).payload 0 1) ((up []).rd K.IDENT_GEN_MAX) <
      max (fld (spi [1, 1, 0, 0]).payload 1 1) ((up []).rd K.IDENT_GEN_MIN) :=
  ⟨(test_serves_spi [] _).toDoor, by decide⟩

/-- BadDatagramsAreDiscarded: a wrong MAGIC, the first of a second and a later one. -/
theorem test_met_BadDatagramsAreDiscarded :
    let q := { rq [] with magic := 0 }
    (up []).rd H.mgmtOn = 1 ∧ (up []).rd H.recov ≠ 1 ∧ q.port < 2 ∧ (up []).rd (K.PD_STATE (3 + q.port)) = 3 ∧
    (up []).rd (K.CTL_ENABLE q.port) = 1 ∧ q.magic ≠ 0x5A51 ∧ (up []).rd (H.limLast (3000 + q.port)) = 0 ∧
    ¬ ((up [(H.limLast 3000, 1)]).rd (H.limLast 3000) = 0 ∨ (up [(H.limLast 3000, 1)]).rd (H.limLast 3000) + 999999 ≤ (up []).now) := by decide

/-- WriteChecksInOrder: no object, a read-only one, a wrong length, a value out of range, a good RL value, a good plain one. -/
theorem test_met_WriteChecksInOrder :
    let v (k n x : Nat) := (rq (bytesBE 3 k ++ [0] ++ bytesBE n x)).payload.drop 4
    locate 0 = none ∧ (∃ l, locate K.FW_PENDING = some l ∧ l.row.acc = .ro) ∧
    (∃ l, locate (K.OUT_FORMAT 0) = some l ∧ l.row.acc = .rl ∧ holds 3 l.row.wr = true ∧ l.row.ty.take (v (K.OUT_FORMAT 0) 2 0) = none ∧
      l.row.ty.take (v (K.OUT_FORMAT 0) 1 14) = some 14 ∧ l.admits (K.OUT_FORMAT 0) 14 = true ∧ l.admits (K.OUT_FORMAT 0) 200 = false ∧
      (arrived (rq []) 0 (up [])).pairOk l 14 = true) ∧
    (∃ l, locate (K.PRIO 0) = some l ∧ l.row.acc = .rw ∧ l.kind = .prio ∧ l.admits (K.PRIO 0) 0 = true) := by decide

/-- BlockWriteIsAllOrNothing: a reversed range; a block that fails; a block of one RL object. -/
theorem test_met_BlockWriteIsAllOrNothing :
    (let q := rq [0x30, 0, 2, 1]
     q.len = q.payload.length ∧ 4 ≤ q.payload.length ∧ fld q.payload 3 1 < fld q.payload 2 1) ∧
    (let q := rq [0, 0, 1, 1]
     ((arrived q 0 (up [])).writeBlock 3 0 1 1 [] ⟨0, 0, []⟩).st = 1) ∧
    (let q := rq (bytesBE 2 (K.OUT_FORMAT 0 / 256) ++ [K.OUT_FORMAT 0 % 256, K.OUT_FORMAT 0 % 256, 14])
     ∃ l, locate (K.at' (fld q.payload 0 2) (fld q.payload 2 1)) = some l ∧ l.row.acc = .rl ∧ holds 3 l.row.wr = true ∧ paired l = false ∧
      14 < 256 ^ l.row.ty.size ∧ l.admits (K.OUT_FORMAT 0) 14 = true ∧ q.payload.drop 4 = bytesBE l.row.ty.size 14) := by decide

/-- CommitIsTakenOrRefused: a good COMMIT and COMMIT_AT, one without the rights, a bad mask, a busy salvo, a refused and an admitted one. -/
theorem test_met_CommitIsTakenOrRefused :
    let one := [0, 0, 0, 0] ++ bytesBE 216 1
    let at' := [0, 0, 0, 0] ++ bytesBE 10 0 ++ [0, 0] ++ bytesBE 216 1
    one.length = 220 ∧ at'.length = 232 ∧ fld at' 16 216 = 1 ∧ maskBad (fld one 4 216) = false ∧ ¬ (63 < fld one 0 1) ∧
    holds 0 1 = false ∧ holds 3 1 = true ∧ maskBad 0 = true ∧ (up []).rd (K.SLV_STATE 0) = 0 ∧ (up [(K.SLV_STATE 0, 3)]).rd (K.SLV_STATE 0) = 3 ∧
    ofPtime (fld at' 4 10) ≤ (arrived (rq at') 0 (up [])).horizon := by decide +kernel

/-- CommitIsTakenOrRefused: admission admits an empty mask, and refuses a route whose domains are off. -/
theorem test_met_CommitIsTakenOrRefused_judged :
    (((up []).askCommit 0).judge 1).refused = none ∧
    ((({ up [] with lat := [(K.OUT_FORMAT 0, 14)] } : State).askCommit (256 ^ 215)).judge 1).refused.isSome = true := by decide +kernel

/-- SubscribeAddsAWatch: KIND 1 in generation 2, no rights, a reversed range, unreadable members, a full table, a good one; UNSUBSCRIBE. -/
theorem test_met_SubscribeAddsAWatch :
    let ok := [0, 0, 0, 0] ++ bytesBE 2 0x1010 ++ [1, 2]
    let b : Sub := ⟨0, 1, 0, 0, 0x1010, 1, 2, 0, false, 0, [], []⟩
    6 ≤ ok.length ∧ 8 ≤ ok.length ∧ fld ok 0 1 = 0 ∧ fld ok 2 2 ≤ 60000 ∧ fld ok 6 1 ≤ fld ok 7 1 ∧ fld ok 4 2 ≠ 0x6811 ∧
    (∀ st ∈ ((List.range (fld ok 7 1 + 1 - fld ok 6 1)).map (fun j => (arrived (rq ok) 0 (up [])).readStop 3 (K.at' (fld ok 4 2) (fld ok 6 1 + j)))),
      st = 0) ∧
    (arrived (rq ok) 0 (up [])).readStop 0 (K.at' 0x1020 3) = 2 ∧
    32 ≤ ((List.replicate 32 b).filter (fun b => b.slot == 0)).length ∧ ([b].filter (fun b => b.slot == 0)).length < 32 ∧ (2 ≠ b.handle) ∧
    [b].filter (fun c => c.slot == 0 && (fld [0, 1] 0 2 == 0xFFFF || c.handle == fld [0, 1] 0 2)) ≠ [] ∧
    [b].filter (fun c => c.slot == 0 && (fld [0, 9] 0 2 == 0xFFFF || c.handle == fld [0, 9] 0 2)) = [] := by decide

/-- NotifyReportsChanges: waiting events with room and without, a watch too early and one with a change, a finished salvo, an
acknowledgement, and a NOTIFY too early, to be repeated, and given up. -/
theorem test_met_NotifyReportsChanges :
    let e : Sub := ⟨0, 1, 1, 0, 0, 0, 0, 0x3FE, true, 0, [], [5]⟩
    let w : Sub := ⟨0, 2, 0, 100, 0x1010, 6, 6, 0, false, 1, [1], []⟩
    let n (a t : Nat) : Note := ⟨0, 4, 0, true, [], true, a, t⟩
    let s : State := { up [(H.now, 30000), (K.SESS_PORT 0, 0)] with subs := [e, w], notes := [n 0 0], done := [⟨0, 3, 4, 0⟩] }
    s.rd H.mgmtOn = 1 ∧ s.rd (K.SESS_STATE 0) = 1 ∧ s.rd (H.sessMute 0) = 0 ∧ s.rd (K.SESS_PORT 0) = 0 ∧ s.rd (K.PD_STATE 3) = 3 ∧
    s.rd (K.CTL_ENABLE 0) = 1 ∧ s.queued 0 < 64 ∧ 64 ≤ ({ s with notes := (List.range 64).map (fun k => { n 0 0 with seq := k }) } : State).queued 0 ∧
    (w.lastAt ≠ 0 ∧ s.now + 1 < w.lastAt + w.minInt * 1000) ∧ (s.items { w with lastAt := 0 }).2.1 ≠ 0 ∧ s.findSess (rq []) = some 0 ∧
    s.now < (n 10001 0).at' + 20000 ∧ (n 10000 0).at' + 20000 ≤ s.now ∧ (n 0 2).tries < 3 ∧ 3 ≤ (n 0 3).tries := by decide

/-- SpiTransactions: a message too short, one with a wrong CRC, a good PING. -/
theorem test_met_SpiTransactions :
    let m := bytesBE 2 16 ++ bytesBE 2 0x5A51 ++ [3, 0, 0, 0, 0, 0, 0, 0, 0, 11, 3, 0, 0, 0]
    let l := m ++ bytesBE 2 (crc16 m)
    l.length = fld l 0 2 + 4 ∧ crc16 (l.take (fld l 0 2 + 2)) = fld l (fld l 0 2 + 2) 2 ∧ fld l 14 1 = 3 ∧
    crc16 ((m ++ [0, 0]).take 18) ≠ fld (m ++ [0, 0]) 18 2 ∧ (m.take 1).length < 2 ∧ (up []).rd H.mgmtOn = 1 ∧ (low []).rd H.mgmtOn ≠ 1 := by decide +kernel

/-- CandidatesAppearAndGo: each kind of candidate, first time and again; gone or not; each timer. -/
theorem test_met_CandidatesAppearAndGo :
    (refType 53 = 4 ∧ (low [(K.PD_STATE (refPd 53), 3)]).pdReady (refPd 53) = true ∧ (low []).rd (K.REF_STATE 53) = 0 ∧
      (low []).rd (H.refQual 53) = 0 ∧ (low [(H.refQual 53, 1)]).rd (H.refQual 53) ≠ 0) ∧
    (refType 48 = 1 ∧ refType 50 = 2 ∧ refType 52 = 3 ∧ refType 0 = 0) ∧
    (let s := low [(K.PD_STATE (refPd 52), 3), (K.REF_STATE 52, 2), (K.REF_NOM_NUM 52, 1000000), (K.REF_FREQ 52, 3)]
     let what (code : Nat) := [(K.REF_NOM_NUM 52, 1000000), (K.REF_NOM_DEN 52, 1), (K.REF_FREQ 52, code)]
     refType 52 = 3 ∧ s.pdReady (refPd 52) = true ∧ s.rd (K.REF_STATE 52) ≠ 0 ∧ (∀ p ∈ what 3, s.rd p.1 = p.2) ∧ ¬ (∀ p ∈ what 1, s.rd p.1 = p.2)) ∧
    (low []).arrives (phaseOf 53) = false ∧ ({ low [] with pending := [.refPhaseEvent 53 0] } : State).arrives (phaseOf 53) = true ∧
    (low []).arrives ((low []).breaks 53) = false ∧
    (let s : State := { low [(K.REF_STATE 53, 1)] with pending := [.refMeasurement (List.replicate 54 2147483647)] }
     s.arrives (s.breaks 53) = true) ∧
    ((low [(K.REF_STATE 53, 1)]).rd (K.REF_STATE 53) ≠ 0 ∧ (low []).rd (H.refLoss 53) ≤ (low []).now ∧ (low []).rd (K.IN_STAT_STATE 0) ≠ 4 ∧
      ¬ ((low [(H.refLoss 53, 1)]).rd (H.refLoss 53) ≤ (low []).now)) ∧
    (let s := low [(K.REF_STATE 53, 1), (H.refTimer 53, 7), (H.now, 7)]
     s.rd (K.REF_STATE 53) = 1 ∧ s.rd (H.refTimer 53) ≤ s.now ∧ s.within 53 = true) ∧
    (low [(K.REF_OFFSET 53, 5001)]).within 53 = false ∧
    (low [(K.REF_STATE 53, 3)]).rd (K.REF_STATE 53) = 3 ∧
    (low [(K.REF_STATE 0, 2)]).rd (K.REF_STATE 0) ≠ 0 ∧ [(5001 : Int)][0]? = some 5001 ∧ (low []).rd (K.REF_HARD 0) < (5001 : Int).natAbs := by
  decide

/-- SelectorsFollowTheirMode: each MODE, with and without a good candidate. -/
theorem test_met_SelectorsFollowTheirMode :
    let s := low [(K.REF_STATE 4, 2), (K.REF_RANK0 4, 1)]
    (low [(K.SEL_MODE 0, 2)]).rd (K.SEL_MODE 0) = 2 ∧ (low [(K.SEL_MODE 0, 1)]).rd (K.SEL_FORCE_K 0) = 255 ∧ (low []).rd (K.SEL_STATE 0) ≠ 3 ∧
    (low []).rd (K.SEL_MODE 0) = 0 ∧ (∀ k < 54, ¬ ((low []).rd (K.REF_STATE k) = 2)) ∧ s.rd (K.REF_STATE 4) = 2 ∧ s.rank 0 4 ≠ 0 ∧ holds 3 2 = true := by
  decide

/-- SoftLimitWarns: candidates in range; a SOFT above HARD and one that is not. -/
theorem test_met_SoftLimitWarns :
    (∀ j < 2, (up [(K.SEL_ACTIVE 0, 53)]).rd (K.SEL_ACTIVE j) < 54 ∨ (up [(K.SEL_ACTIVE 0, 53)]).rd (K.SEL_ACTIVE j) = 255) ∧ holds 3 2 = true ∧
    (up []).rd (K.REF_HARD 53) < 5001 ∧ 5001 ≠ dflt (K.REF_SOFT 53) ∧ 1999 ≠ dflt (K.REF_HARD 53) ∧ dflt (K.REF_SOFT 53) ≤ 100000 ∧ 5000 ≤ (up []).rd (K.REF_HARD 53) ∧ 1999 < (up []).rd (K.REF_SOFT 53) ∧
    (rq (bytesBE 3 (K.REF_SOFT 53) ++ [0] ++ bytesBE 4 5001)).payload = bytesBE 3 (K.REF_SOFT 53) ++ [0] ++ bytesBE 4 5001 := by decide

/-- OpenLoopNco: OPEN_LOOP and another mode; FORCE_K present and missing; the extreme of NCO. -/
theorem test_met_OpenLoopNco :
    let s := up [(K.SEL_MODE 0, 4), (K.SEL_FORCE_K 0, 53), (K.REF_STATE 53, 2)]
    s.rd (K.SEL_MODE 0) = 4 ∧ s.rd (K.SEL_FORCE_K 0) < 54 ∧ s.rd (K.SEL_FORCE_K 0) ≠ 255 ∧ s.rd (K.REF_STATE (s.rd (K.SEL_FORCE_K 0))) ≠ 0 ∧
    (up []).rd (K.SEL_MODE 0) ≠ 4 ∧ (up []).rd (K.SEL_FORCE_K 0) = 255 ∧ (toInt 64 429496729600000).natAbs ≤ 100000 * 2 ^ 32 ∧
    (toInt 64 (2 ^ 64 - 429496729600000)).natAbs ≤ 100000 * 2 ^ 32 ∧ holds 3 3 = true := by decide

/-- PhaseSamplesReachTheLoop: a candidate missing and present, an error beyond four times LOCK_PHASE, a hold that is over. -/
theorem test_met_PhaseSamplesReachTheLoop :
    let s := low [(K.SEL_ACTIVE 0, 53), (K.REF_STATE 53, 2), (K.SEL_STATE 0, 2)]
    (low []).rd (K.SEL_ACTIVE 0) = 255 ∧ (low []).rd (K.SEL_MODE 0) = 0 ∧ (low [(K.SEL_MODE 0, 1)]).rd (K.SEL_MODE 0) = 1 ∧
    s.rd (K.SEL_ACTIVE 0) ≠ 255 ∧ s.rd (K.REF_STATE (s.rd (K.SEL_ACTIVE 0))) ≠ 0 ∧ s.rd (K.SEL_STATE 0) = 2 ∧
    4 * s.rd (K.SEL_LOCK_PHASE 0) < (4001 : Int).natAbs ∧
    (let t := low [(K.SEL_STATE 0, 1), (H.lockFrom 0, 1), (H.now, 1000000)]
     t.rd (K.SEL_STATE 0) = 1 ∧ t.rd (H.lockFrom 0) ≠ 0 ∧ t.rd (H.lockFrom 0) - 1 + t.rd (K.SEL_LOCK_HOLD 0) * 1000 ≤ t.now ∧
      t.arrives (t.excursion 0) = false) ∧
    (let t : State := { low [] with pending := [.phaseMeasurement 0 2147483647] }
     t.arrives (t.excursion 0) = true) := by decide

/-- PtpPorts: each state of a port, an Announce of its domain and of another, a time that has run out. -/
theorem test_met_PtpPorts :
    (low [(K.REF_PTP_PORT_STATE 50, 2)]).rd (K.REF_PTP_PORT_STATE 50) = 2 ∧ (low [(K.REF_PTP_PORT_STATE 50, 4)]).rd (K.REF_PTP_PORT_STATE 50) = 4 ∧
    (let s := low [(K.REF_PTP_PORT_STATE 50, 1)]
     s.rd (K.REF_PTP_PORT_STATE 50) = 1 ∧ s.rd (K.REF_PTP_DOMAIN 50) = 127 ∧ s.rd (H.annEnd 0) = 0 ∧ s.rd (H.ptpGm 0) = 0) ∧
    (let s := low [(H.ptpGm 0, 10)]
     s.rd (H.ptpGm 0) = 9 + 1 ∧ s.rd (H.ptpGm 0) ≠ 8 + 1 ∧ s.rd (H.ptpGm 0) ≠ 0) ∧
    (let s := low [(K.REF_STATE 50, 2), (K.REF_NOM_NUM 50, 128)]
     s.rd (K.REF_STATE 50) ≠ 0 ∧ s.rd (K.REF_NOM_NUM 50) = 2 ^ (-(-7 : Int)).toNat ∧ s.rd (K.REF_NOM_NUM 50) ≠ 2 ^ (-(0 : Int)).toNat) ∧
    (low []).rd (K.REF_PTP_PORT_STATE 50) = 0 ∧
    (let s := low [(H.annEnd 0, 1), (H.ptpBest 0, 5), (K.REF_PTP_GM_ID 50, 9), (H.now, 1)]
     s.rd (H.annEnd 0) ≠ 0 ∧ s.rd (H.annEnd 0) ≤ s.now ∧ 8 ≠ s.rd (K.REF_PTP_GM_ID 50) ∧ s.rd (H.ptpBest 0) ≤ bmcaKey 1 0 0 0 0 0 0) := by decide

/-- TimeOfDay: a whole second and not; PPS_OUT high and due; PPS_MODE; TOD.SET under PTP and free. -/
theorem test_met_TimeOfDay :
    (low []).tod % 1000000000 < 1000 ∧ 1000 ≤ (low [(H.tsNs 0, 1000)]).tod % 1000000000 ∧
    (low [(H.ppsOut, 1)]).rd H.ppsOff ≤ (low []).now ∧ (low []).rd H.ppsOut ≠ 1 ∧ (low []).rd K.TOD_PPS_MODE ≠ 1 ∧
    (low [(K.TOD_PPS_MODE, 1)]).rd K.TOD_PPS_MODE = 1 ∧ (up []).rd K.TOD_SEL < 2 ∧ (up [(K.SEL_ACTIVE 0, 50)]).rd (K.SEL_ACTIVE 0) = 50 ∧
    52 ≤ (up []).rd (K.SEL_ACTIVE 0) ∧ (2 ^ 32) % 2 ^ 32 < 1000000000 := by decide

/-- FamiliesLockAndFreeze: each state of a family, with its timers; a consumer and none. -/
theorem test_met_FamiliesLockAndFreeze :
    (∀ v < 5, (up [(K.GSYN_STATE 7, v)]).rd (K.GSYN_STATE 7) = v) ∧ (low []).vec (H.devWait (unitGsyn 7)) = [] ∧
    (let s := low [(K.GSYN_STATE 7, 2), (H.gRelock 7, 3), (H.now, 3)]
     s.rd (K.GSYN_STATE 7) = 2 ∧ s.rd (H.gRelock 7) ≠ 0 ∧ s.rd (H.gRelock 7) ≤ s.now) ∧
    (low [(H.gAcq 7, 5), (H.now, 1005)]).rd (H.gAcq 7) + 1000 ≤ (low [(H.gAcq 7, 5), (H.now, 1005)]).now ∧
    ¬ ((low [(H.gAcq 7, 5)]).rd (H.gAcq 7) + 1000 ≤ (low [(H.gAcq 7, 5)]).now) ∧ (low [(H.gPend 7, 1)]).rd (H.gPend 7) ≠ 0 ∧ (up [(K.GSYN_STATE 7, 3)]).consumers 7 = 0 ∧
    (up [(K.OUT_FAMILY 47, 7), (K.OUT_FORMAT 47, 14)]).consumers 7 ≠ 0 := by decide

/-- SlewsAndRamps: a slew that is over, with and without one waiting; a segment that is over, the last one and not; DIVSYNC too early. -/
theorem test_met_SlewsAndRamps :
    (let s := low [(K.GSYN_RAMP_STATUS_STATE 0, 3)]
     s.rd (K.GSYN_RAMP_STATUS_STATE 0) = 3 ∧ s.rd (H.gEnd 0) ≤ s.now ∧ s.rd64 (H.gWait 0) = 0) ∧
    (low [(H.gWait 0, 1)]).rd64 (H.gWait 0) ≠ 0 ∧ ¬ ((low [(H.gEnd 0, 1)]).rd (H.gEnd 0) ≤ (low []).now) ∧
    (let s := low [(K.GSYN_RAMP_STATUS_STATE 0, 1), (K.GSYN_RAMP_STATUS_SEG 0, 0), (K.GSYN_RAMP_COUNT 0, 2)]
     s.rd (K.GSYN_RAMP_STATUS_STATE 0) = 1 ∧ s.rd (K.GSYN_RAMP_STATUS_SEG 0) + 1 < s.rd (K.GSYN_RAMP_COUNT 0) ∧
      ¬ ((low [(K.GSYN_RAMP_STATUS_SEG 0, 1), (K.GSYN_RAMP_COUNT 0, 2)]).rd (K.GSYN_RAMP_STATUS_SEG 0) + 1 < s.rd (K.GSYN_RAMP_COUNT 0)) ∧
      0 < s.rd (K.GSYN_RAMP_COUNT 0)) ∧
    (let s := low [(K.GSYN_RAMP_STATUS_STATE 0, 1), (K.GSYN_RAMP_STATUS_SEG 0, 255)]
     s.rd (K.GSYN_RAMP_STATUS_STATE 0) = 1 ∧ s.rd (H.gEnd 0) ≤ s.now ∧ s.rd (K.GSYN_RAMP_STATUS_SEG 0) = 255) ∧
    ((up []).gNow 0).1 = 0 ∧ ((up [(K.GSYN_OFFSET 0, 100)]).gNow 0).1 ≠ 0 ∧ (up []).rd (K.GSYN_RAMP_STATUS_STATE 0) ≠ 3 ∧
    (low [(H.divAt, 1)]).rd H.divAt ≠ 0 ∧ (low []).now < (low [(H.divAt, 1)]).rd H.divAt - 1 + 10000 ∧ (low []).rd H.divAt = 0 := by decide

/-- OutputFlagsAndCounters. -/
theorem test_met_OutputFlagsAndCounters :
    (up [(K.OUT_TSTATE 47, 1)]).rd (K.OUT_TSTATE 47) ≠ 0 ∧ (up []).rd (K.OUT_TSTATE 47) = 0 ∧ (∀ b < 4, (up []).rd (H.irqAt (4 * 47 + b)) ≠ (up []).now + 1) ∧ holds ((up []).rd (K.SESS_RIGHTS 0)) 1 = true := by decide

/-- SlatesAndTakeovers: a slate to be removed; each role and state of a pair; each state of a slate. -/
theorem test_met_SlatesAndTakeovers :
    (let s := low [(K.OUT_SLATE_STATE 5, 2), (H.slateCause 5, 1), (K.OUT_SLATE_CLEAR_FRAMES 5, 3), (H.slateClean 5, 3)]
     s.rd (K.OUT_SLATE_STATE 5) = 2 ∧ s.rd (H.slateCause 5) = 1 ∧ s.rd (K.OUT_SLATE_CLEAR_FRAMES 5) ≠ 0 ∧
      s.rd (K.OUT_SLATE_CLEAR_FRAMES 5) ≤ s.rd (H.slateClean 5)) ∧
    (let s := low [(K.OUT_BRACKET_ROLE 5, 1), (K.OUT_BRACKET_STATE 5, 1)]
     let lk := wireLinks (s.air (K.OUT_FORMAT 5)) (s.air (K.OUT_QUAD_MODE 4))
     s.rd (K.OUT_BRACKET_ROLE 5) = 1 ∧ s.rd (K.OUT_BRACKET_STATE 5) = 1 ∧ lk.1 ≠ 4 ∧ lineRow lk.2.1 (s.rd (H.outLineNo 5)) = none) ∧
    (let s := low [(airKey (K.OUT_FORMAT 5), 14), (H.outLineNo 5, 1121)]
     let lk := wireLinks (s.air (K.OUT_FORMAT 5)) (s.air (K.OUT_QUAD_MODE 4))
     lk.1 = 1 ∧ lineRow lk.2.1 1121 ≠ none ∧ s.rd (H.heldAt 5) ≠ 1121 + 1) ∧
    (let s := low [(K.OUT_BRACKET_ROLE 5, 1), (K.OUT_BRACKET_STATE 5, 2), (airKey (K.OUT_BRACKET_PARTNER 5), 6)]
     (List.range 48).find? (fun p => s.air (K.OUT_BRACKET_PARTNER p) == 6 && s.rd (K.OUT_BRACKET_ROLE p) == 1) = some 5 ∧
      s.rd (K.OUT_BRACKET_STATE 5) = 2 ∧ s.rd (K.OUT_BRACKET_ROLE 6) ≠ 1) ∧
    (∀ v < 3, (up [(K.OUT_SLATE_STATE 5, v)]).rd (K.OUT_SLATE_STATE 5) = v) ∧ (up [(K.OUT_BRACKET_STATE 5, 2)]).rd (K.OUT_BRACKET_STATE 5) = 2 ∧
    (up []).rd (K.OUT_BRACKET_STATE 5) < 2 := by decide

/-- ReceiverFindsItsRate: each state of a receiver, with its function ready, a rate in turn and another, a dwell that is over. -/
theorem test_met_ReceiverFindsItsRate :
    (∀ v < 5, (up [(K.IN_STAT_STATE 47, v)]).rd (K.IN_STAT_STATE 47) = v) ∧
    (low [(K.PD_STATE 19, 3), (K.PD_FUNCS 19, 0x1F)]).funcReady (8 + 47 / 4) (47 % 4) = true ∧ (low []).funcReady (8 + 47 / 4) (47 % 4) = false ∧
    rateClassOf 9 = (low []).tries 47 ∧ rateClassOf 1 ≠ (low []).tries 47 ∧
    (let s := low [(K.IN_STAT_STATE 47, 1), (H.now, 2000)]
     s.rd (K.IN_STAT_STATE 47) = 1 ∧ s.rd (K.IN_CFG_RATE_MODE 47) = 0 ∧ s.rd (H.cdrAt 47) + 2000 ≤ s.now) ∧
    (low []).rd (K.IN_QUAD_MODE (4 * (47 / 4))) = 0 ∧ rateClassOf ((up []).rd (K.IN_STAT_RATE 47)) ≠ 1 := by decide

/-- FramesMakeAnInputValid: a frame that agrees with the one before, one that does not; two lines without TRS. -/
theorem test_met_FramesMakeAnInputValid :
    let x : Meas := ⟨2640, 1125, 1080, false, 1, 0, 20000000, 0⟩
    ((low [(K.IN_STAT_STATE 0, 3)]).setVec (H.meas 0) (measKey x)).vec (H.meas 0) = measKey x ∧ (low []).vec (H.meas 0) ≠ measKey x ∧
    ((low []).setVec (H.measOk 0) (measKey x)).vec (H.measOk 0) = measKey x ∧ (low []).vec (H.measOk 0) ≠ measKey x ∧
    (low []).arrives (trsOf 0) = false ∧ ({ low [] with pending := [.rxLine 0 1 0 0 1 true []] } : State).arrives (trsOf 0) = true ∧
    (low [(K.IN_STAT_STATE 0, 3), (H.trsAt 0, 1)]).now < (low [(H.trsAt 0, 1)]).rd (H.trsAt 0) + (low [(H.trsAt 0, 1)]).twoLines 0 ∧
    (low [(H.now, 20000)]).rd (H.inBoundAt 0) + 20000 ≤ (low [(H.now, 20000)]).now ∧
    (low [(H.now, 19999)]).now < (low [(H.now, 19999)]).rd (H.inBoundAt 0) + 20000 ∧
    ¬ ((low []).rd (H.clrAt (K.IN_TOTAL 0 1)) = (low []).now + 1) ∧ 2 ^ 63 ≤ (low [(K.IN_RUN 0 1, 2 ^ 63)]).rd (K.IN_RUN 0 1) ∧
    (low [(K.IN_STAT_STATE 0, 3)]).rd (K.IN_STAT_STATE 0) = 3 ∧ (low [(K.IN_STAT_STATE 0, 4)]).rd (K.IN_STAT_STATE 0) = 4 ∧
    (low []).rd (K.IN_QUAD_MODE 0) = 0 ∧ (low []).rd (H.trsAt 0) + (low []).twoLines 0 ≤ (low []).now ∧ (low []).rd (K.IN_STAT_STATE 0) < 3 ∧
    (low [(H.linkFmt 0, 15)]).rd (H.linkFmt 0) ≠ 0 ∧ 4 * (11 : Fin 12).val + (3 : Fin 4).val = (47 : Fin 48).val := by decide

/-- ReceivedLines: below ALIGNED; without a format; with one, at an active line and no ring. -/
theorem test_met_ReceivedLines :
    let s := low [(K.IN_STAT_STATE 3, 4), (H.linkFmt 3, 15)]
    (low []).rd (K.IN_STAT_STATE 3) < 3 ∧ 3 ≤ s.rd (K.IN_STAT_STATE 3) ∧ s.rd (H.linkFmt 3) = 14 + 1 ∧ (lineRow 14 42).isSome = true ∧
    (lineRow 14 1121).isSome = true ∧ s.primaryOf 3 = none ∧ s.rd (K.IN_QUAD_MODE (4 * (3 / 4))) = 0 ∧ s.ringOf 3 = none ∧
    (low [(K.IN_STAT_STATE 3, 3)]).rd (H.linkFmt 3) = 0 ∧ (low []).rd (K.IN_STAT_MAPPING 3) ≠ 1 := by decide

/-- AncillaryPackets: a damaged packet; a plain one that a filter drops, that is beyond the limit, and that passes. -/
theorem test_met_AncillaryPackets :
    let s := low [(K.IN_STAT_STATE 3, 3), (H.ancLine 48, 9)]
    (3 ≤ s.rd (K.IN_STAT_STATE 3) ∧ s.rd (H.ancLine (16 * 3 + 0 % 16)) = 9 ∧ audioDid (0x161 % 256) = false ∧ ¬ (0x161 % 256 = 0x41) ∧
      ¬ (0x161 % 256 = 0x60)) ∧
    (low []).rd (K.IN_STAT_STATE 3) < 3 ∧ (low []).ancPass 3 0x61 1 = true ∧ (low [(K.IN_ANC_FILTER_DEFAULT 3, 1)]).ancPass 3 0x61 1 = false ∧
    s.rd (H.ancCnt 48) < s.rd (K.IN_ANC_MAX_PER_LINE 3) ∧ (low [(K.IN_ANC_MAX_PER_LINE 3, 0)]).rd (K.IN_ANC_MAX_PER_LINE 3) ≤ (low []).rd (H.ancCnt 48) ∧
    (let a : Anc := ⟨0, 0, 9, true, 0x161, 0x101, 0x101, [0x200], 0x163, 0⟩
     ancReason a = 0 ∧ ancReason { a with fault := 3 } ≠ 0 ∧ ancReason { a with fault := 3 } ≠ 2 ∧ a.did % 256 = 0x61 ∧ a.sdid % 256 = 1) ∧
    (low []).rd (K.IN_ANC_CHECKSUM 3) = 0 ∧ (low [(H.linkFmt 3, 0x100)]).rd (H.linkFmt 3) = 0x100 ∧ s.rd (H.linkFmt 3) ≠ 0x100 ∧ s.ringOf 3 = none ∧
    s.rd (H.ancCnt 48) < 2 ^ 16 - 1 := by decide

/-- PairsOfInputs: a pair that may revert; a primary, its healthy partner, and an input that leads no pair. -/
theorem test_met_PairsOfInputs :
    let pair := [(K.IN_BRACKET_ROLE 0, 1), (K.IN_BRACKET_PARTNER 0, 1), (K.IN_BRACKET_REVERT 0, 1), (K.IN_BRACKET_STATE 0, 3),
      (K.IN_BRACKET_ACTIVE 0, 1), (K.IN_STAT_STATE 0, 4), (K.IN_STAT_FORMAT 0, 14), (H.lastFmt 0, 14), (H.lastFmt 1, 14), (H.brHealthy 0, 60000)]
    let s := up pair
    s.rd (K.IN_BRACKET_ROLE 0) = 1 ∧ s.rd (K.IN_BRACKET_REVERT 0) = 1 ∧ s.rd (K.IN_BRACKET_STATE 0) = 3 ∧
    s.rd (K.IN_BRACKET_REVERT_FRAMES 0) ≤ s.rd (H.brHealthy 0) ∧ s.healthy 0 0 = true ∧ s.rd (K.IN_BRACKET_ACTIVE 0) ≠ 0 ∧
    s.rd (K.IN_BRACKET_PARTNER 0) ≠ 0 ∧ (up []).rd (K.IN_BRACKET_ROLE 0) ≠ 1 ∧ s.healthy 0 1 = false := by decide

/-- BufferLifecycle: each STATE, held and free, with room and without, named by the Copy Stand. -/
theorem test_met_BufferLifecycle :
    (∀ v < 5, (up [(K.BUF_STATE 2047, v)]).rd (K.BUF_STATE 2047) = v) ∧ (up []).bufHeld 2047 = false ∧
    (up [(K.BUF_REFCOUNT 2047, 1)]).bufHeld 2047 = true ∧ (up []).bufPending 2047 = 0 ∧ (up []).rd (K.BUF_PROTECT 2047) ≠ 2 ∧
    lowestFit [] 0 4096 = some 0 ∧ lowestFit [(0, 0, bufSpace)] 0 4096 = none ∧ (up []).cstHolds 2047 = false ∧
    (up [(K.CST_STATUS_STATE, 1), (K.CST_DST_BUF, 2047)]).cstHolds 2047 = true ∧ (up []).rd (K.BUF_WRITER 2047) = 0 ∧
    (up [(K.BUF_WRITER 2047, 0x8000)]).rd (K.BUF_WRITER 2047) ≠ 0 ∧ holds 3 1 = true := by decide

/-- WindowAccess: the first and last unit, inside a buffer and outside, free and guarded. -/
theorem test_met_WindowAccess :
    let s := (up [(K.PD_STATE 43, 3)]).setVec H.allocs [0, 0, 4096]
    let lost := (up [(K.PD_STATE 43, 3), (H.slotDead 0, 1), (H.slotLost 0, 1)]).setVec H.allocs [0, 0, 4096]
    let g := (up [(K.BUF_STATE 0, 3)]).setVec H.allocs [0, 0, 4096]
    s.winInside 1 1 = true ∧ s.winInside 40 40 = true ∧ (up []).winInside 1 1 = false ∧ s.guardHit 0 32 = none ∧
    (s.fsByte (s.winAddr 1)).isSome = true ∧ lost.winInside 1 1 = true ∧ lost.fsByte (lost.winAddr 1) = none ∧
    (∀ j < 32, s.mirrorOf (0 + j) = none ∧ s.deadAt (0 + j) = false) ∧ g.guardHit 0 32 = some (0, 0, 4096) ∧
    (g.guarded g.mgmtMaster 0 (0, 0, 4096)).2 = true ∧ (List.replicate 32 255).length = 32 ∧ holds 3 2 = true := by decide

/-- BurstsAreGrantedAndComplete: a burst that may leave and one that may not; each kind of completion; a lock; a drain. -/
theorem test_met_BurstsAreGrantedAndComplete :
    let b : Burst := ⟨0x70, 0, 0, true, 0, [(0, List.replicate 64 0)]⟩
    let t := (low []).targetOf 0x70 0
    let f (c : Nat) (w : Bool) : Flight := ⟨{ b with write := w }, t, c⟩
    let up' := low [(K.PD_STATE 43, 3)]
    t < 128 ∧ (low []).burstReady t b = true ∧ streamFirst [{ b with tag := 1 }, b] b = true ∧ (low [(K.PORT_STATE 0x70, 2)]).burstReady t b = false ∧
    ({ low [] with bursts := [f 0 true] } : State).bursts.find? (fun f => f.target == t) = some (f 0 true) ∧ (f 3 true).code ≠ 0 ∧
    (∀ j < 64, up'.fsByte ((f 0 false).b.addr + j) = some (up'.rdMem ((f 0 false).b.addr + j))) ∧
    (slotAtAddr (f 0 false).b.addr).isSome = true ∧ up'.mirrorSynced (f 0 false).b.addr = false ∧ (f 0 false).b.beats ≠ [] ∧
    (low [(H.lockClose 127, 1)]).rd (H.lockClose 127) = 1 ∧ (low [(H.lockBy 127, 128)]).arrives (closesLock 127 127) = false ∧
    ({ low [(H.lockBy 127, 128)] with pending := [.burstGrant 127 [⟨127, 0, 0, false, 2, []⟩]] } : State).arrives (closesLock 127 127) = true ∧
    ((low [(H.lockBy 127, 128)]).rd (H.lockBy 127) ≠ 0 ∧ (low [(H.lockBy 127, 128)]).rd (H.lockEnd 127) ≤ (low []).now) ∧
    (low [(H.lockEnd 127, 1)]).now < (low [(H.lockEnd 127, 1)]).rd (H.lockEnd 127) ∧
    (low [(K.PORT_STATE 0x70, 2), (K.CST_STATUS_STATE, 2)]).rd (K.PORT_STATE 0x70) = 2 ∧ (low []).rd (K.PORT_STATE 0x70) ≠ 2 ∧
    (low [(K.CST_STATUS_STATE, 2)]).rd K.CST_STATUS_STATE = 2 ∧ (0 : Nat) < bufSpace := by decide

/-- PseudoChannelsAndMirrors: the spare, a channel that serves with the spare there and without, a slot under rebuild, mirrors to copy. -/
theorem test_met_PseudoChannelsAndMirrors :
    let m := bytesBE 32 ((low []).rd (pcmapKey 1))
    m.getD 31 0xFF = 31 ∧ (low []).rd (H.pcFailed (32 * 1 + 31)) ≠ 1 ∧
    (List.range 31).find? (fun i => m.getD i 0xFF == 30 && (low []).rd (H.slotDead (32 * 1 + i)) == 0) = some 30 ∧
    (bytesBE 32 (packBE 8 (m.set 31 0xFF))).getD 31 0xFF = 0xFF ∧
    (low [(H.pcFailed 63, 1)]).rd (H.pcFailed (32 * 1 + 31)) = 1 ∧ (low []).allocs = [] ∧
    (low [(H.slotRebuild 62, 1)]).rd (H.slotRebuild (32 * 1 + 30)) ≠ 0 ∧ (low []).mirrorsOn 1 30 = [] ∧
    (low [(K.BUF_MIRROR 2047, 1)]).rd (K.BUF_MIRROR 2047) = 1 ∧
    (low [(K.RING_MIRROR 47, 1), (H.ringSince 47, 3)]).rd (K.RING_MIRROR 47) = 1 := by decide

/-- LatentDiscardEmpties. -/
theorem test_met_LatentDiscardEmpties :
    holds 3 1 = true ∧ 256 ^ 215 < 256 ^ 216 ∧ maskBad (256 ^ 215) = false ∧ (0 : Nat) ∈ maskUnits (256 ^ 215) := by decide +kernel

/-- SalvosWaitAndFire: a salvo whose T is reached, with a trigger and without; an edge held off, idle and firing; a family with and
without a due development; a CANCEL of each state. -/
theorem test_met_SalvosWaitAndFire :
    (let s := low [(K.SLV_STATE 63, 2)]
     s.rd (K.SLV_STATE 63) = 2 ∧ ofPtime (s.rd (K.SLV_AT 63)) ≤ s.tod + 999 ∧ s.rd (K.SLV_TRIGGER 63) = 0xFF) ∧
    (low [(K.SLV_TRIGGER 63, 31)]).rd (K.SLV_TRIGGER 63) ≠ 0xFF ∧ ¬ (ofPtime ((low [(K.SLV_AT 63, 1000)]).rd (K.SLV_AT 63)) ≤ (low []).tod + 999) ∧
    (let s := low [(K.PD_STATE 55, 3), (K.PIN_FUNC 31, 6), (H.trigHold 31, 1), (H.now, 9999)]
     s.pdReady 55 = true ∧ s.rd (K.PIN_FUNC 31) = 6 ∧ s.rd (H.trigHold 31) ≠ 0 ∧ s.now < s.rd (H.trigHold 31) + 10000) ∧
    (∀ v < 64, ¬ ((low []).rd (K.SLV_STATE v) = 1)) ∧ (low []).triggerDue 0 = false ∧
    ({ low [(K.PD_STATE 55, 3), (K.PIN_FUNC 31, 6), (K.SLV_STATE 63, 1), (K.SLV_TRIGGER 63, 31)] with pending := [.salvoTrigger 31] } : State).triggerDue 63 = true ∧
    (let s := low [(K.SLV_STATE 63, 1), (K.SLV_TRIGGER 63, 31)]
     s.rd (K.SLV_STATE 63) = 1 ∧ s.rd (K.SLV_TRIGGER 63) = 31 ∧ s.due = []) ∧
    ((low [(H.trigHold 31, 1), (H.now, 10000)]).rd (H.trigHold 31) + 9999 ≤ 10000 ∧ (low [(H.trigHold 31, 1), (H.now, 9999)]).now < 1 + 9999) ∧
    (let s : State := { low [(K.GSYN_STATE 7, 3), (K.SLV_STATE 0, 3), (H.now, 5)] with due := [⟨87, 0, 1, 4⟩] }
     s.unitStopped (unitGsyn 7) = false ∧ s.eligible (unitGsyn 7) false ≠ [] ∧ (∀ d ∈ s.due, d.salvo < 64) ∧ s.vec (H.devWait (unitGsyn 7)) = []) ∧
    (low []).unitStopped (unitGsyn 7) = true ∧ maskBad 0 = true ∧ (up [(K.SLV_STATE 5, 4)]).rd (K.SLV_STATE 5) ≠ 1 := by decide

/-- SalvosWaitAndFire: cancelling a salvo that holds nothing is admitted. -/
theorem test_met_SalvosWaitAndFire_cancel :
    ((((arrived (rq []) 0 (up [(K.SLV_STATE 0, 1)])).askCancel (arrived (rq []) 0 (up [(K.SLV_STATE 0, 1)])) 0).judge 0).refused = none) := by
  decide +kernel

/-- CrossbarTakesGoodCopies: a destination without a source, one with a good copy of each plane; a plane that returns. -/
theorem test_met_CrossbarTakesGoodCopies :
    let s := low [(K.OUT_TSTATE 0, 1), (airKey (K.OUT_FORMAT 0), 14), (airKey (K.OUT_ROUTE_SRC 0), 83), (K.OUT_ROUTE_STAT_STATE 0, 1),
      (K.OUT_ROUTE_STAT_PATH 0, 1), (K.OUT_FORMAT 0, 14), (K.OUT_ROUTE_SRC 0, 83)]
    (low []).destSrc 0 = none ∧ s.destSrc 0 = some 83 ∧ 0 < (fmtSize (s.portFmt 0 83)).2 ∧ 256 * 7 < (fmtSize (s.portFmt 0 83)).1 ∧
    (fmtSize (s.portFmt 0 83)).2 ≤ 1080 ∧ s.rd (planeKey 0) ≠ 2 ∧
    segCheck [1, 2] [] = some [1, 2] ∧ segCheck [1, 2] [(0, 1)] = none ∧ (segCheck [1, 2] [(0, 1), (2, beatsCrc [0, 2] ^^^ beatsCrc [1, 2])]).isSome = true ∧
    (low []).tstripFree = false ∧ s.rd (H.xbPref 0) = 0 ∧
    (low [(planeKey 1, 3)]).rd (planeKey 1) = 3 ∧ (low []).rd (planeKey 1) ≠ 3 ∧ (up [(planeKey 1, 1)]).rd (planeKey 1) = 1 ∧
    (∀ x ∈ (low []).liveDests, ((low []).rd (H.xbRet 1) ||| 2 ^ 71).testBit x = true) ∧ s.liveDests ≠ [] ∧
    (∃ x ∈ s.liveDests, (0 ||| 2 ^ 71).testBit x = false) := by decide +kernel

/-- CanvasFrames: an Easel without a cluster, ready, running and stopping; a write-back that ends, again, and not. -/
theorem test_met_CanvasFrames :
    (low [(K.CLMAP_PHYS 0, 0xFF)]).unmapped (unitEas 0) = true ∧ (low []).unmapped (unitEas 0) = false ∧ (low []).canvasReady 0 = false ∧
    (let s := low [(K.EAS_CANVAS_FORMAT 0, 14), (K.GSYN_STATE 0, 3), (K.PD_STATE 34, 3), (K.PD_FUNCS 34, 1)]
     s.unmapped (unitEas 0) = false ∧ s.rd (K.EAS_STATE_TSTATE 0) = 0 ∧ s.canvasReady 0 = true ∧
      (fmt (s.rd (K.EAS_CANVAS_FORMAT 0))).isSome = true) ∧
    (low [(K.EAS_STATE_TSTATE 0, 1)]).rd (K.EAS_STATE_TSTATE 0) ≠ 0 ∧ (low []).wbBuf 0 = none ∧
    (let s := (low [(airKey (K.EAS_WB_MODE 0), 2), (airKey (K.EAS_WB_BUF 0), 2047), (K.EAS_WB_MODE 0, 2), (K.EAS_WB_BUF 0, 2047), (K.EAS_WB_STATE 0, 1),
       (K.EAS_STATE_TSTATE 0, 1), (K.BUF_STATE 2047, 1), (K.BUF_WRITER 2047, easIdx 0)])
     s.wbBuf 0 = some 2047 ∧ s.air (K.EAS_WB_MODE 0) = 2 ∧ s.rd (K.EAS_WB_STATE 0) = 1 ∧ s.rd (H.wbRedo 0) ≠ 1) ∧
    (let s := low [(K.EAS_STATE_TSTATE 0, 1)]
     ¬ (s.rd (K.EAS_STATE_TSTATE 0) = 0 ∨ s.rd (H.devPassed (unitEas 0)) = 1 ∨ s.noCluster (unitEas 0) = true) ∧
      ((s.setVec H.easDev [0]).vec H.easDev).contains 0 = true) ∧
    (low [(H.wbRedo 0, 1)]).rd (H.wbRedo 0) = 1 ∧ (up []).rd (K.SESS_RIGHTS 0) = 3 := by decide

/-- ProofRegions: a region that is off; each mode; a match, a mismatch below, at and beyond its count; each action; learning; a shadow. -/
theorem test_met_ProofRegions :
    let on := [(K.PRF_CFG_OUT 63, 47), (airKey (K.PRF_CFG_MODE 63), 1), (K.OUT_TSTATE 47, 1)]
    let s := low on
    (¬ (48 ≤ s.rd (K.PRF_CFG_OUT 63) ∨ s.air (K.PRF_CFG_MODE 63) = 0 ∨ s.rd (K.OUT_TSTATE 47) = 0)) ∧ (low []).air (K.PRF_CFG_MODE 63) = 0 ∧
    s.air (K.PRF_CFG_MODE 63) ≠ 3 ∧ s.rd (H.prfCrc 63) ^^^ 0xFFFFFFFF ≠ s.rd (K.PRF_EXPECTED 63) ∧
    s.rd (H.prfCrc 63) ^^^ 0xFFFFFFFF = (low [(K.PRF_EXPECTED 63, 0xFFFFFFFF)]).rd (K.PRF_EXPECTED 63) ∧
    (low [(airKey (K.PRF_CFG_MISMATCH_FRAMES 63), 1)]).air (K.PRF_CFG_MISMATCH_FRAMES 63) = s.rd (K.PRF_STATUS_RUN 63) + 1 ∧
    (low [(airKey (K.PRF_CFG_MISMATCH_FRAMES 63), 2)]).air (K.PRF_CFG_MISMATCH_FRAMES 63) ≠ s.rd (K.PRF_STATUS_RUN 63) + 1 ∧
    (∀ a < 3, (low [(airKey (K.PRF_CFG_ACTION 63), a)]).air (K.PRF_CFG_ACTION 63) = a) ∧
    (low [(H.prfBad 63, 1)]).rd (H.prfBad 63) ≠ 0 ∧ s.rd (H.prfBad 63) = 0 ∧ s.rd (K.OUT_BRACKET_ROLE 47) ≠ 1 ∧
    (low [(K.OUT_BRACKET_ROLE 47, 1)]).rd (K.OUT_BRACKET_ROLE 47) = 1 ∧
    (low [(K.OUT_SLATE_STATE 47, 1)]).rd (K.OUT_SLATE_STATE 47) = 1 ∧ (low [(H.prfLearn 63, 1)]).rd (H.prfLearn 63) = 1 ∧
    (let t := low [(airKey (K.OUT_ROUTE_SRC 47), 63), (K.EAS_STATE_SHADOW 15, 1)]
     t.air (K.OUT_ROUTE_SRC (t.routeUnit 47)) = 63 ∧ t.rd (K.EAS_STATE_SHADOW (63 - 48)) = 1 ∧ t.rd (H.prfRows 63) = 0 ∧ t.rd (H.prfShadow 63) = t.rd (H.prfCrc 63)) ∧
    (up [(K.PRF_CFG_MODE 63, 2)]).rd (K.PRF_CFG_MODE 63) = 2 ∧ (up []).rd (K.PRF_CFG_MODE 63) ≠ 2 := by decide

/-- ConverterFrames: a converter without a cluster, ready, running; a stream that is watched, unlocked and locked; a pair to estimate. -/
theorem test_met_ConverterFrames :
    (low [(K.CLMAP_PHYS 0, 0xFF)]).unmapped (unitFrc 0) = true ∧ (low []).unmapped (unitFrc 0) = false ∧ (low []).frcReady 0 = false ∧
    (let s := low [(K.FRC_OTIM_FORMAT 0, 14), (K.GSYN_STATE 0, 3), (K.PD_STATE 34, 3), (K.PD_FUNCS 34, 1)]
     s.rd (K.FRC_STATE_TSTATE 0) = 0 ∧ s.frcReady 0 = true ∧ (fmt (s.rd (K.FRC_OTIM_FORMAT 0))).isSome = true) ∧
    (let s := low [(K.FRC_SSTAT_STATE 0 3, 2), (K.FRC_STREAM_KIND 0 3, 2)]
     s.rd (K.FRC_SSTAT_STATE 0 3) ≠ 0 ∧ s.rd (K.FRC_STREAM_KIND 0 3) ≠ 0 ∧ (s.frcWire 0 3).h ≤ 8192 ∧ s.rd (K.FRC_SSTAT_CADENCE_STATE 0 3) = 0) ∧
    (let s := low [(K.FRC_STATE_TSTATE 0, 1)]
     ¬ (s.rd (K.FRC_STATE_TSTATE 0) = 0 ∨ s.rd (H.devPassed (unitFrc 0)) = 1 ∨ s.noCluster (unitFrc 0) = true)) ∧
    (low []).rd (K.FRC_SSTAT_STATE 0 3) = 0 ∧ dueFlag 1 [1, 0] = 0 ∧ dueFlag 1 [0, 1] = 1 ∧
    (low [(K.FRC_SSTAT_CADENCE_STATE 0 3, 1)]).rd (K.FRC_SSTAT_CADENCE_STATE 0 3) ≠ 0 ∧
    (let s := (low [(K.FRC_STREAM_MODE 0 3, 3)]).setHeld (frcX 0 3) [(0, 0, 0), (20, 20, 15)]
     s.rd (K.FRC_STREAM_MODE 0 3) = 3 ∧ (s.frcHeld (frcX 0 3)).length = 2) := by decide


/-- AudioArrives: an input that carries audio and one that does not; each kind of packet; a channel gone just long enough and not yet. -/
theorem test_met_AudioArrives :
    let p : AudioPkt := ⟨7, true, 0, true, 0, [], 1, true, false, 0, [], []⟩
    let s := low [(K.IN_STAT_STATE 47, 3), (H.now, 1333), (H.ainLast 1535, 1), (K.AIN_STAT_NONPCM 47, 0x8000)]
    (4 ≤ 7 ∧ s.rd (K.IN_STAT_MAPPING 47) ≠ 4) ∧ (low [(K.IN_STAT_MAPPING 47, 4)]).rd (K.IN_STAT_MAPPING 47) = 4 ∧
    (low []).rd (K.IN_STAT_STATE 47) < 3 ∧ 3 ≤ s.rd (K.IN_STAT_STATE 47) ∧ ({ p with result := 2 } : AudioPkt).result = 2 ∧ p.result ≠ 2 ∧
    p.control = true ∧ ({ p with control := false } : AudioPkt).control = false ∧ ({ p with dbnOk := false } : AudioPkt).dbnOk = false ∧
    ({ p with result := 1 } : AudioPkt).result = 1 ∧ s.rd (H.ainLast 1504) = 0 ∧ s.rd (H.ainLast 1535) ≠ 0 ∧
    s.now < s.rd (H.ainLast 1535) - 1 + 1334 ∧ (low [(H.now, 1334), (H.ainLast 1535, 1)]).rd (H.ainLast 1535) - 1 + 1334 ≤ 1334 ∧
    (∀ d ∈ [0, 1535], s.air (K.DST_SRC d) ≠ 1535) ∧ (s.rd (K.AIN_STAT_NONPCM 47)).testBit 15 = true ∧
    (s.rd (K.AIN_STAT_NONPCM 47)).testBit 14 = false ∧
    (let r := low [(H.now, 170666)]
     r.rd K.AUD_NONPCM_HOLD * 125 ≤ (r.now + 1 - r.rd (H.npAt 767)) * 6) ∧
    ¬ ((low []).rd K.AUD_NONPCM_HOLD * 125 ≤ ((low []).now + 1 - (low []).rd (H.npAt 767)) * 6) := by decide +kernel

/-- AudioLeaves: a destination that runs and one that does not; a ratio back in range long enough; a slew that is over; a switch waited for. -/
theorem test_met_AudioLeaves :
    (let s := low [(K.OUT_TSTATE 47, 1), (K.PD_STATE 52, 3), (K.PD_FUNCS 52, 1), (K.PD_FUNCS_MASK 52, 1), (airKey (K.DST_SRC 1535), 1535)]
     s.rd (K.OUT_TSTATE 47) ≠ 0 ∧ s.pdUsable (51 + 1535 / 768) = true ∧ (((s.audRange 1535).audCheck 1535).rd (H.audLost 1535) = 0) ∧
      ((s.audRange 1535).audCheck 1535).rd (H.npPend 1535) = 0 ∧
      (let g := (((s.audRange 1535).audCheck 1535).gainStep 1535).2
       g.srcNonPcm (g.air (K.DST_SRC 1535)) = false)) ∧
    (low []).rd (K.OUT_TSTATE 47) = 0 ∧
    (let s := low [(K.DST_CLOCK 1535, 3), (H.audIn 1535, 1), (H.now, 1000000)]
     s.rd (K.DST_CLOCK 1535) = 3 ∧ s.rd (H.audIn 1535) ≠ 0 ∧ s.rd (H.audIn 1535) - 1 + 1000000 ≤ s.now ∧ s.rd (H.audLost 1535) = 0) ∧
    ¬ (1 - 1 + 1000000 ≤ (low [(H.now, 999999)]).now) ∧ (low [(H.audLost 1535, 1)]).rd (H.audLost 1535) ≠ 0 ∧
    (let s := low [(H.audGoal 1535, 1), (K.DST_DELAY_ACTIVE 1535, 0)]
     s.rd (H.audGoal 1535) ≠ 0 ∧ s.audD 1535 = s.rd (H.audGoal 1535) - 1) ∧ ¬ ((low []).rd (H.audGoal 1535) ≠ 0) ∧
    (let s := (low [(H.npPend 1535, 801), (K.AUD_NONPCM_WAIT, 800)]).setVec (H.npCfg 1535) [5, 0, 1]
     s.rd (H.npPend 1535) ≠ 0 ∧ s.rd K.AUD_NONPCM_WAIT ≤ s.rd (H.npPend 1535) - 1 ∧ s.vec (H.npCfg 1535) = [5, 0, 1]) ∧
    ¬ ((low []).rd (H.npPend 1535) ≠ 0) ∧ ((low []).vec (H.npCfg 1535)).length ≠ 3 := by decide +kernel

/-- CopyStandTurns: a quarter turn between two R8 images; a half turn and a mirror of Q422 pairs. -/
theorem test_met_CopyStandTurns :
    let bufs (f : Nat) := [(K.BUF_STATE 1, 2), (K.BUF_FORMAT 1, f), (K.BUF_WIDTH 1, 64), (K.BUF_HEIGHT 1, 64), (K.BUF_STATE 2, 2),
      (K.BUF_FORMAT 2, f), (K.BUF_WIDTH 2, 64), (K.BUF_HEIGHT 2, 64), (K.CST_SRC_BUF, 1), (K.CST_DST_BUF, 2), (K.CST_W, 4), (K.CST_H, 2)]
    let quarter := low ((K.CST_OP, 2) :: (K.CST_ROT, 3) :: (K.CST_FLIP, 1) :: bufs 2)
    let half := low ((K.CST_OP, 2) :: (K.CST_ROT, 2) :: (K.CST_FLIP, 1) :: bufs 0)
    let mirror := low ((K.CST_OP, 3) :: (K.CST_FLIP, 3) :: bufs 0)
    (quarter.bufPlane 2).isSome ∧ quarter.cstSrc.isSome ∧ quarter.cstRot = 3 ∧ (quarter.bufPlane 2).map Plane.f = some 2 ∧
    (half.bufPlane 2).map Plane.f = some 0 ∧ half.cstSrc.isSome ∧ half.cstRot = 2 ∧ (half.cstFlip.testBit 0 = true ↔ half.cstRot = 2) ∧
    mirror.cstRot = 0 ∧ ¬ (mirror.cstFlip.testBit 0 = true ↔ mirror.cstRot = 2) ∧ mirror.cstSrc.isSome ∧
    0 < unitsIn 0 (mirror.rd K.CST_W) ∧ 0 < unitsIn 2 (quarter.rd K.CST_W) := by decide

/-- CopyStandRuns: each check of GO failing alone; an operation that may start; one at its first, its last and a damaged line. -/
theorem test_met_CopyStandRuns :
    let base := [(K.PD_STATE 53, 3), (K.PD_STATE 43, 3), (K.PD_STATE 44, 3), (K.PD_STATE 45, 3), (K.PD_STATE 46, 3), (K.BUF_STATE 1, 2), (K.BUF_FORMAT 1, 2), (K.BUF_WIDTH 1, 64), (K.BUF_HEIGHT 1, 64), (K.BUF_STATE 2, 2),
      (K.BUF_FORMAT 2, 2), (K.BUF_WIDTH 2, 64), (K.BUF_HEIGHT 2, 64), (K.BUF_ADDR 2, 4096), (K.CST_SRC_BUF, 1), (K.CST_DST_BUF, 2),
      (K.CST_W, 4), (K.CST_H, 2)]
    let s (l : List (Nat × Nat)) := up (l ++ base)
    (s []).rd K.CST_STATUS_STATE = 0 ∧ (s []).pdReady 53 = true ∧ (up []).pdReady 53 = false ∧
    (s [(K.BUF_FORMAT 1, 1)]).cstFormatOk = false ∧ (s []).cstFormatOk = true ∧
    (s [(K.CST_W, 65)]).cstFormatOk = true ∧ (s [(K.CST_W, 65)]).cstBoundsOk = false ∧ (s []).cstBoundsOk = true ∧
    (let q := s [(K.BUF_FORMAT 1, 0), (K.BUF_FORMAT 2, 0), (K.CST_DST_X, 1)]
     q.cstFormatOk = true ∧ q.cstBoundsOk = true ∧ q.cstAlignOk = false) ∧ (s []).cstAlignOk = true ∧
    (let q := s [(K.CST_SRC_BUF, 2), (K.CST_OP, 2), (K.CST_ROT, 2)]
     q.cstFormatOk = true ∧ q.cstBoundsOk = true ∧ q.cstAlignOk = true ∧ q.cstOverlapBad = true) ∧ (s []).cstOverlapBad = false ∧
    (s []).cstHolder = 0 ∧ (s [(K.BUF_WRITER 2, 0x5000)]).cstHolder ≠ 0 ∧ (s [(K.BUF_STATE 2, 3)]).cstGuarded = true ∧
    (s [(K.BUF_STATE 2, 3), (K.FS_GUARD_POLICY, 0)]).rd K.FS_GUARD_POLICY = 0 ∧ (s []).cstGuarded = false ∧
    (up [(K.CST_STATUS_STATE, 2)]).rd K.CST_STATUS_STATE = 2 ∧ (up [(K.CST_STATUS_STATE, 1)]).rd K.CST_STATUS_STATE = 1 ∧
    (let r := s [(K.CST_STATUS_STATE, 1), (H.cstExempt, 3), (K.CST_OP, 1)]
     let row := r.cstRow 0
     r.rd K.CST_DST_BUF < 2048 ∧ r.rd H.cstExempt = r.rd K.CST_DST_BUF + 1 ∧ row.length = 4 ∧ (∀ u ∈ row, u.src = none ∧ 0 < u.data.length) ∧
      (∀ u ∈ row, ∀ j < u.data.length, r.mirrorOf (u.addr + j) = none ∧ r.deadAt (u.addr + j) = false) ∧
      ¬ (r.cstDstSize.2 ≤ r.rd K.CST_STATUS_LINES_DONE + 1) ∧ r.rd H.cstErr = 0) ∧
    (let r := s [(K.CST_STATUS_STATE, 1), (H.cstExempt, 3), (K.CST_STATUS_LINES_DONE, 1)]
     (∃ u ∈ r.cstRow 1, u.src.isSome) ∧ r.cstDstSize.2 ≤ r.rd K.CST_STATUS_LINES_DONE + 1) ∧ holds 3 1 = true := by decide +kernel

/-- ReserveIsChecked: a reserve that fits and one that does not, each above the reserve in force; one at it. -/
theorem test_met_ReserveIsChecked :
    holds 3 2 = true ∧ (up []).rd K.CST_RESERVE < 47520 ∧ 47520 % 2 = 0 ∧ (up [(K.CST_RESERVE, 47520)]).rd K.CST_RESERVE = 47520 ∧
    (let past (l : List (Nat × Nat)) (v : Nat) : Bool :=
      let s := up l
      let m := (arrived (rq []) 0 s).wr K.CST_RESERVE v
      let h := loadOf ((List.range 80).flatMap (⟨m, [], m.vCom, m.vCom, [], [], []⟩ : Ask).held)
      decide (s.rd K.ADM_LIMIT_TOTAL < h.1 + (s.rd K.ADM_FIXED + v))
     past [(K.ADM_LIMIT_TOTAL, 1)] 47520 = true ∧ past [(K.ADM_FIXED, 0), (K.ADM_LIMIT_TOTAL, 99999)] 47520 = false) := by decide +kernel

/-- ClustersAndRotations: a cluster with its spare and without, a failover under way, each retest, self-tests, a rotation in each phase. -/
theorem test_met_ClustersAndRotations :
    let clocked := [(K.TSTRIP_ENABLE, 1), (K.PD_STATE 54, 3), (H.spareOk, 1), (K.TSTRIP_ROT_PERIOD, 1)]
    let s (l : List (Nat × Nat)) := up (l ++ clocked)
    (up []).rd (K.CLUSTERS_CL_STATE 0) = 0 ∧ (up []).rd H.rotT = 0 ∧ (up []).rd K.CLMAP_SPARE = 8 ∧ (up []).logicalOf 7 = some 7 ∧
    (up []).logicalOf 8 = none ∧ (up []).rd H.foFrom = 0 ∧ (up [(K.CLMAP_SPARE, 0xFF)]).rd K.CLMAP_SPARE = 0xFF ∧
    (up [(K.CLUSTERS_CL_STATE 0, 4)]).rd (K.CLUSTERS_CL_STATE 0) = 4 ∧ (up [(K.CLUSTERS_CL_STATE 0, 2)]).rd (K.CLUSTERS_CL_STATE 0) = 2 ∧
    (up [(H.foFrom, 8), (H.foTo, 8)]).rd H.foFrom ≠ 0 ∧ (up [(H.foFrom, 8), (H.foTo, 8)]).logicalOf 7 = some 7 ∧
    (List.range 8).find? (fun c => (up [(K.CLMAP_PHYS 7, 0xFF)]).rd (K.CLMAP_PHYS c) == 0xFF) = some 7 ∧
    (List.range 8).find? (fun c => (up []).rd (K.CLMAP_PHYS c) == 0xFF) = none ∧
    (s []).faultDue = false ∧ ({ s [] with pending := [.clusterFault 7 1] } : State).faultDue = true ∧ (s []).tstripFree = true ∧ (up []).tstripFree = false ∧ (s [(H.rotMis, 9)]).rd H.rotMis = 9 ∧ (s [(H.rotMis, 1)]).rd K.CLMAP_SPARE ≠ 1 - 1 ∧ (s []).rd H.rotC < 8 ∧
    (s []).mayRotate = true ∧ (s []).rotTarget.isSome ∧ (up []).mayRotate = false ∧ (up [(K.TSTRIP_ROT_PERIOD, 0)]).rd K.TSTRIP_ROT_PERIOD = 0 ∧
    (let t := s [(H.rotT, 8), (H.rotC, 7), (H.rotP, 8), (H.rotPhase, 1), (K.EAS_STATE_TSTATE 15, 1), (K.CLUSTERS_CL_STATE 8, 5)]
     t.rd H.rotPhase = 1 ∧ t.rotUnits &&& t.rd H.rotMoved ≠ t.rotUnits ∧ t.rd H.rotP < 9 ∧ t.rd (K.CLUSTERS_CL_STATE 8) = 5 ∧
      t.rotUnits &&& (t.rd H.rotMoved ||| 2 ^ 0) ≠ t.rotUnits ∧ t.rotUnits &&& (t.rd H.rotMoved ||| 2 ^ 1) = t.rotUnits ∧
      t.rd H.rotC < 8 ∧ t.rd H.rotP ≠ t.rd H.rotT - 1) ∧ (s [(H.rotPhase, 2)]).rd H.rotPhase = 2 ∧ holds 3 2 = true := by decide +kernel

/-- ManagementPairs: an active pair with a standby and alone; a pending image; loads that fail, join and start; each link. -/
theorem test_met_ManagementPairs :
    (up []).rd H.mgmtOn = 1 ∧ (up []).rd K.MGMT_ACTIVE < 2 ∧ (low []).rd H.mgmtOn ≠ 1 ∧
    (∀ v < 4, (up [(K.MGMT_STANDBY_STATE, v)]).rd K.MGMT_STANDBY_STATE = v) ∧ (up [(H.mgmtCause, 1)]).rd H.mgmtCause = 1 ∧
    (let s := up [(K.FW_PENDING, 1), (H.pendEnd, 5), (H.mgmtCause, 2)]
     s.rd K.FW_PENDING ≠ 0xFF ∧ s.now ≤ s.rd H.pendEnd ∧ s.rd H.mgmtCause = 2) ∧
    (low []).rd K.FW_PENDING = 0xFF ∧ (up []).rd H.recov = 0 ∧ (low []).rd H.mgmtCause = 0 ∧ (low []).rd H.booted ≠ 1 ∧
    (let s := low [(K.PD_STATE 2, 3)]
     s.rd (K.PD_STATE (1 + 1)) = 3 ∧ (s.rd (K.PD_FUNCS (1 + 1))).testBit 0 = false ∧ s.rd (H.loadTry 1) < 2 ∧ s.rd (H.loadTry 1) = 0) ∧
    ¬ ((low []).rd (K.PD_STATE 2) = 3) ∧ (up []).rd (K.CTL_LINK 1) = 0 ∧ (up []).rd (K.REF_PTP_PORT_STATE 51) = 0 ∧
    (up [(K.CTL_LINK 1, 2)]).rd (K.CTL_LINK 1) ≠ 0 ∧
    (let s := up [(K.PD_FUNCS 3, 1)]
     s.rd (K.PD_STATE 3) = 3 ∧ (s.rd (K.PD_FUNCS 3)).testBit 0 = true ∧ s.rd (K.CTL_ENABLE 0) = 1) ∧ holds 3 3 = true := by decide

/-- ResetsAndDomains: held in reset and running, each state of a domain, used and not, a domain that may not go off. -/
theorem test_met_ResetsAndDomains :
    (low []).rd H.running ≠ 1 ∧ (low [(H.running, 1)]).rd H.running = 1 ∧
    (∀ v < 6, (up [(K.PD_STATE 55, v)]).rd (K.PD_STATE 55) = v) ∧ (up [(K.PD_ENABLE 55, 1)]).rd (K.PD_ENABLE 55) = 1 ∧
    (up [(K.PD_ENABLE 55, 0)]).rd (K.PD_ENABLE 55) = 0 ∧ (arrived (rq []) 0 (up [(K.PD_ENABLE 55, 1)])).pdUsed 55 0 = false ∧
    (arrived (rq []) 0 (up [(K.PD_ENABLE 3, 1)])).pdUsed 3 0 = true ∧
    (∀ k < 4, (up []).rd (K.OUT_TSTATE (4 * (31 - 20) + k)) = 0) ∧ (up []).rd K.MGMT_ACTIVE = 1 - 1 ∧ ¬ ((up []).rd K.MGMT_ACTIVE = 2 - 1) ∧
    pdWith 55 = true ∧
    (let s := up [(K.PD_STATE 34, 3)]
     s.rd (K.PD_STATE 34) = 3 ∧ (s.rd (K.PD_FUNCS 34)).testBit 0 = false ∧ (pdFuncs 34).testBit 0 = true) ∧ holds 3 3 = true := by decide

/-- FirmwareNegativePins: an image verified, activated, confirmed and refused; flash open and shut; a print in each state; a pin in each. -/
theorem test_met_FirmwareNegativePins :
    holds 3 3 = true ∧ holds 3 1 = true ∧ holds 3 2 = true ∧ (up []).rd H.verify = 0 ∧
    (up [(H.verify, 2)]).rd H.verify ≠ 0 ∧ (up []).slotUsed 1 = false ∧ ({ up [] with flash := [(slotBase 1, 0)] } : State).slotUsed 1 = true ∧
    (up []).rd K.MGMT_ACTIVE < 2 ∧ (∀ v < 4, (up [(K.MGMT_STANDBY_STATE, v)]).rd K.MGMT_STANDBY_STATE = v) ∧
    (up []).rd K.FW_PENDING = 0xFF ∧ (up [(K.FW_PENDING, 1)]).rd K.FW_PENDING < 0xFF ∧ (up [(K.FLASH_STATE, 1)]).rd K.FLASH_STATE = 1 ∧
    (up []).rd K.FLASH_STATE = 0 ∧ (up []).flashShut 0x1F00000 = true ∧ (up []).flashShut 0xFFFFF = false ∧
    (let s := up [(K.NEG_STATE, 2)]
     s.negFrozen = true ∧ s.rd H.negRel = 0) ∧ (up []).negFrozen = false ∧
    (∀ v < 3, (up [(K.NEG_PRINT_STATE, v)]).rd K.NEG_PRINT_STATE = v) ∧ ((up [(K.NEG_LOCK, 15)]).rd K.NEG_LOCK).testBit 3 = true ∧
    (up [(K.NEG_LOCK, 15)]).slotPick = none ∧ (up []).slotPick = some 0 ∧
    (let s := up [(K.NEG_STATE, 1), (H.negLeft, 0), (K.NEG_AUTO_PRINT, 1)]
     s.rd K.NEG_STATE = 1 ∧ s.rd H.negLeft = 0 ∧ s.rd K.NEG_AUTO_PRINT ≠ 0) ∧ (up [(K.NEG_AUTO_PRINT, 0)]).rd K.NEG_AUTO_PRINT = 0 ∧
    (let s := up [(H.printSlot, 3), (H.printCause, 1)]
     s.rd H.printSlot < 4 ∧ s.rd H.printCause < 2 ∧ s.rd H.negAuto ≠ 1) ∧
    (let s := up [(K.PD_STATE 55, 3), (K.PIN_FUNC 31, 6), (K.SLV_STATE 63, 1), (K.SLV_TRIGGER 63, 31)]
     s.rd (K.PD_STATE 55) = 3 ∧ s.pinArmed 31 = true ∧ s.pinArmed 30 = false ∧ s.rd (K.PIN_FUNC 31) = 6) ∧ (up []).rd (K.PIN_FUNC 31) = 0 ∧
    argOk 7 48 = false ∧ argOk 7 47 = true ∧ (up []).rd (H.pinEnd 31) = 0 ∧ (up []).now + 1 < (up [(H.pinEnd 31, 2)]).rd (H.pinEnd 31) ∧
    (up [(H.pinEnd 31, 1)]).rd (H.pinEnd 31) ≤ (up []).now + 1 ∧ pinInput 6 = true ∧ pinInput 2 = false := by decide +kernel

/-- FirmwareNegativePins: a state in canonical form that serves session 0. -/
theorem test_met_FirmwareNegativePins_canonical :
    Canonical (State.reset.wrs known) = true ∧ Serves (State.reset.wrs known) (rq []) 0 :=
  ⟨by decide, {
    on := by decide
    normal := by decide
    port := by decide
    up := by decide
    here := fun _ => by decide
    magic := rfl
    plain := by decide
    named := by decide
    open' := by decide
    gen := by decide
    uncached := fun _ h => by cases h
    newer := by decide }⟩

/-- StepKeepsCanonical: a state in canonical form that a step leaves. -/
theorem test_met_StepKeepsCanonical :
    Canonical State.reset = true ∧ (match step State.reset with | .next _ => true | _ => false) = true := by decide +kernel

/-- CommitMovesLatent: a staged value in the mask and one outside it; an entry of the committed stage that is overwritten and one that stays. -/
theorem test_met_CommitMovesLatent :
    let m := 0x20 * 256 ^ 215
    let unit (k : Nat) : Option Nat := keyUnit (fun _ => 0) k
    unit (K.OUT_FORMAT 5) = some 5 ∧ (maskUnits m).contains 5 = true ∧ unit (K.OUT_FORMAT 6) = some 6 ∧ (maskUnits m).contains 6 = false ∧
    unit K.FS_GUARD_POLICY = none ∧
    (∀ p ∈ [(K.OUT_FORMAT 6, 14)], p.1 ≠ K.OUT_FORMAT 5) := by decide +kernel

/-- OutputFramesAndLines: an output that may start, one that runs, one that stops; a line in the picture, one after it, one that matches. -/
theorem test_met_OutputFramesAndLines :
    (let s := low [(K.OUT_FORMAT 47, 14), (K.OUT_PID_MODE 47, 1), (airKey (K.OUT_PID_MODE 47), 1), (K.PD_STATE 31, 3), (K.PD_FUNCS 31, 31), (K.GSYN_STATE 0, 3)]
     ¬ (s.rd (K.OUT_TSTATE 47) ≠ 0 ∨ s.rd (K.OUT_FORMAT 47) = 0 ∨ s.funcReady (20 + 47 / 4) 0 = false ∨
      s.funcReady (20 + 47 / 4) (1 + 47 % 4) = false ∨ s.rd (K.GSYN_STATE (s.rd (K.OUT_FAMILY 47))) ≠ 3) ∧
     (s.genStart 47 0).rd (K.OUT_TSTATE 47) ≠ 0) ∧
    (low []).rd (K.OUT_FORMAT 47) = 0 ∧
    (let s := low [(K.OUT_TSTATE 47, 1), (airKey (K.OUT_FORMAT 47), 14), (H.outLineNo 47, 2), (K.OUT_DEV_GUARD 47, 5)]
     s.rd (K.OUT_TSTATE 47) ≠ 0 ∧ s.rd (H.devPassed 47) ≠ 1 ∧ s.linesLeft 47 = s.rd (K.OUT_DEV_GUARD 47) ∧ s.due = []) ∧
    (low [(H.devPassed 47, 1)]).rd (H.devPassed 47) = 1 ∧
    (let s := low [(H.outAdjOn 47, 1), (K.OUT_TSTATE 47, 1), (airKey (K.OUT_FORMAT 47), 14), (H.outAdj 47, 2 ^ 64 - 2640)]
     (fmt (s.air (K.OUT_FORMAT 47))).any (fun g => decide (g.lines < g.lines + (s.outExtra 47).2)) = true) ∧
    (let s := low [(K.OUT_TSTATE 47, 1), (K.OUT_FORMAT 47, 14), (airKey (K.OUT_FORMAT 47), 14), (K.OUT_LINE_MATCH 47, 1121)]
     s.rd (K.OUT_TSTATE 47) ≠ 0 ∧ s.rd (K.OUT_FORMAT 47) ≠ 0 ∧ (fmt (s.air (K.OUT_FORMAT 47))).isSome ∧ s.due = [] ∧
      lineActive 14 1120 = true ∧ lineActive 14 1122 = false ∧ 1121 = s.rd (K.OUT_LINE_MATCH 47) ∧
      (s.rd (H.lmFrame 47) != s.rd (K.OUT_EVT_FRAME 47) + 1) = true) ∧
    (low [(K.OUT_TSTATE 47, 1)]).rd (K.OUT_TSTATE 47) ≠ 0 ∧ fmt ((low []).air (K.OUT_FORMAT 47)) = none := by decide +kernel
end Sys2Proof.Tests
end

section
/-! SUPPORT. A register written again with the value it holds; what `protSync` and an arrival leave alone; the stores as a kept property. -/
namespace Sys2Proof.Machine

/-! ## Writing a register again -/

/-- Setting a key twice to one value is setting it once. -/
theorem alSet_twice (l : List (Nat × Nat)) (k x : Nat) : alSet (alSet l k x) k x = alSet l k x := by
  induction l with
  | nil => simp [alSet]
  | cons p t ih =>
    obtain ⟨k', v'⟩ := p
    by_cases hlt : k < k'
    · simp [alSet, hlt]
    · by_cases heq : k' = k
      · simp [alSet, heq]
      · simp [alSet, hlt, heq, ih]

/-- Setting a key again changes nothing behind a smaller key exactly where it changes nothing in the rest. -/
theorem alSet_cons_fixed {t : List (Nat × Nat)} {k k' v' x : Nat} (h : alSet ((k', v') :: t) k x = (k', v') :: t) :
    (k' = k ∧ v' = x) ∨ (k' < k ∧ alSet t k x = t) := by
  by_cases hlt : k < k'
  · have := congrArg List.length h
    simp [alSet, hlt] at this
  · by_cases heq : k' = k
    · simp_all [alSet]
    · simp only [alSet, hlt, heq, if_false, List.cons.injEq, true_and] at h
      exact .inr ⟨by omega, h⟩

/-- Dropping another key leaves a key where setting it puts it. -/
theorem alSet_alErase_fixed {l : List (Nat × Nat)} {k j x : Nat} (hj : j ≠ k) (h : alSet l k x = l) :
    alSet (alErase l j) k x = alErase l j := by
  induction l with
  | nil => simp [alSet] at h
  | cons p t ih =>
    obtain ⟨k', v'⟩ := p
    obtain ⟨rfl, rfl⟩ | ⟨hlt, ht⟩ := alSet_cons_fixed h
    · simp [alErase, alSet, Ne.symm hj]
    · have ih' := ih ht
      by_cases hk : k' = j
      · simpa [alErase, hk] using ih'
      · have h1 : ¬ k < k' := by omega
        have h2 : k' ≠ k := by omega
        simpa [alErase, alSet, hk, h1, h2] using ih'

/-- Setting another key leaves a key where setting it puts it. -/
theorem alSet_alSet_fixed {l : List (Nat × Nat)} {k j x : Nat} (u : Nat) (hj : j ≠ k) (h : alSet l k x = l) :
    alSet (alSet l j u) k x = alSet l j u := by
  induction l with
  | nil => simp [alSet] at h
  | cons p t ih =>
    obtain ⟨k', v'⟩ := p
    have hle : k' ≤ k := by
      obtain ⟨rfl, -⟩ | ⟨hlt, -⟩ := alSet_cons_fixed h <;> omega
    by_cases hlt : j < k'
    · have h1 : ¬ k < j := by omega
      rw [show alSet ((k', v') :: t) j u = (j, u) :: (k', v') :: t by simp [alSet, hlt]]
      simp only [alSet, h1, hj, if_false]
      rw [← alSet, h]
    · obtain ⟨rfl, rfl⟩ | ⟨hlk, ht⟩ := alSet_cons_fixed h
      · simp [alSet, hlt, Ne.symm hj]
      · have h1 : ¬ k < k' := by omega
        have h2 : k' ≠ k := by omega
        by_cases heq : k' = j
        · subst heq
          simp [alSet, h1, h2, ht]
        · simp [alSet, hlt, heq, h1, h2, ih ht]

/-- The register file lists k where a write of k puts it: writing the value it holds changes nothing. -/
def State.listed (k : Nat) (s : State) : Prop := (s.wr k (s.rd k)).reg = s.reg

/-- Writing a listed register the value it holds changes nothing. -/
theorem State.wr_rd_of_listed {s : State} {k : Nat} (h : State.listed k s) : s.wr k (s.rd k) = s :=
  congrArg (fun r => ({ s with reg := r } : State)) h

/-- A register just written is listed. -/
theorem State.listed_wr_self (s : State) (k v : Nat) : State.listed k (s.wr k v) := by
  unfold State.listed
  rw [State.rd_wr_self]
  by_cases hv : v = dflt k
  · simp [State.wr, hv, alErase]
  · simp [State.wr, hv, alSet_twice]

/-- Dropping a key changes nothing exactly where the key has no entry. -/
theorem alErase_eq_self {l : List (Nat × Nat)} {k : Nat} : alErase l k = l ↔ ∀ p ∈ l, p.1 ≠ k := by
  simp [alErase]

/-- A listed register stays so at any write. -/
theorem State.listed_wr {k : Nat} (s : State) (j u : Nat) (h : State.listed k s) : State.listed k (s.wr j u) := by
  by_cases hj : j = k
  · exact hj ▸ s.listed_wr_self j u
  unfold State.listed at h ⊢
  rw [State.rd_wr_ne _ _ (Ne.symm hj)]
  by_cases hk : s.rd k = dflt k
  · simp only [State.wr, hk, if_true] at h ⊢
    rw [alErase_eq_self] at h ⊢
    intro p hp
    split at hp
    · exact h p (List.mem_of_mem_filter hp)
    · obtain rfl | hp := mem_alSet hp
      · exact hj
      · exact h p hp
  · simp only [State.wr, hk, if_false] at h ⊢
    split
    · exact alSet_alErase_fixed hj h
    · exact alSet_alSet_fixed u hj h

/-- That a register is listed is kept by every update but a reset. -/
theorem listed_kept (k : Nat) : Kept (State.listed k) := by
  refine ⟨fun s j u h => s.listed_wr j u h, ?_, ?_, ?_, ?_, ?_, ?_, ?_, ?_, ?_, ?_, ?_, ?_⟩ <;> exact fun _ _ h => h

/-! ## What the release of mirrors and targets and the state of protection leave alone -/

/-- A register `protSync` does not write: no mirror, no buffer's writer, no holder of a generator, nothing of the PROT block, no
PROTECTED of a contract. -/
structure ProtSilent (k : Nat) : Prop where
  bufMirror : ∀ b, k ≠ K.BUF_MIRROR b ∧ k ≠ K.BUF_MIRROR_ADDR b
  ringMirror : ∀ i, k ≠ K.RING_MIRROR i ∧ k ≠ K.RING_MIRROR_ADDR i
  writer : ∀ b, k ≠ K.BUF_WRITER b
  tpg : ∀ t, k ≠ H.tpgHold t
  prot : k ≠ K.PROT_REDUNDANCY ∧ k ≠ K.PROT_PROTECTED_OUT ∧ k ≠ K.PROT_EXPOSED_OUT
  contract : ∀ n, k ≠ K.OUT_CONTRACT_PROTECTED n

/-- Setting a bit leaves every other register. -/
theorem State.rd_setBit_ne (s : State) {k j : Nat} (i : Nat) (b : Bool) (h : j ≠ k) : (s.setBit k i b).rd j = s.rd j :=
  State.rd_wr_ne s _ h

/-- Releasing mirrors leaves the registers protection does not write. -/
theorem mirrorsSync_rd (s : State) {k : Nat} (hk : ProtSilent k) : s.mirrorsSync.rd k = s.rd k := by
  unfold State.mirrorsSync
  extract_lets have' need
  split
  · rfl
  · refine foldl_keeps (P := fun t : State => t.rd k = s.rd k) _ (fun t a ht => ?_) rfl
    have hrel : (t.release a.1).rd k = s.rd k := ht
    split
    · exact ht
    split
    · rw [State.clr, State.rd_wr_ne _ _ (hk.bufMirror _).2, State.rd_wr_ne _ _ (hk.bufMirror _).1, hrel]
    · rw [State.clr, State.rd_wr_ne _ _ (hk.ringMirror _).2, State.rd_wr_ne _ _ (hk.ringMirror _).1, hrel]

/-- Releasing write targets leaves the registers protection does not write. -/
theorem wbSync_rd (s : State) {k : Nat} (hk : ProtSilent k) : s.wbSync.rd k = s.rd k := by
  unfold State.wbSync
  extract_lets held
  refine foldl_keeps (P := fun t : State => t.rd k = s.rd k) _ (fun t p ht => ?_) rfl
  split
  · exact ht
  · exact (State.rd_wr_ne t _ (hk.writer _)).trans ht

/-- Giving generators their holders leaves the registers protection does not write. -/
theorem tpgSync_rd (s : State) {k : Nat} (hk : ProtSilent k) : s.tpgSync.rd k = s.rd k := by
  unfold State.tpgSync
  refine State.upto_keeps (P := fun t => t.rd k = s.rd k) (fun i t ht => ?_) rfl
  split
  · exact ht
  · exact (State.rd_wr_ne t _ (hk.tpg _)).trans ht

/-- `protSync` leaves the registers protection does not write. -/
theorem protSync_rd (s : State) {k : Nat} (hk : ProtSilent k) : s.protSync.rd k = s.rd k := by
  obtain ⟨hred, hprot, hexp⟩ := hk.prot
  have hsync : s.mirrorsSync.wbSync.tpgSync.rd k = s.rd k := by rw [tpgSync_rd _ hk, wbSync_rd _ hk, mirrorsSync_rd _ hk]
  unfold State.protSync
  extract_lets t r old u
  refine State.upto_keeps (P := fun v => v.rd k = s.rd k) (fun n v hv => ?_) ?_
  · extract_lets p w bits
    have hw : w.rd k = s.rd k := by
      rw [State.rd_setBit_ne _ _ _ hprot, State.rd_wr_ne _ _ (hk.contract n), hv]
    split
    · exact hw
    split
    · rw [State.rd_raise, State.rd_setBit_ne _ _ _ hexp, hw]
    · rw [State.rd_raise, State.rd_setBit_ne _ _ _ hexp, hw]
  · show u.rd k = s.rd k
    rw [← hsync]
    show (if r = old then t else _).rd k = t.rd k
    split
    · rfl
    · rw [State.rd_raise, State.rd_wr_ne _ _ hred]

/-- Protection writes nothing of the crossbar's block, nor of any block of the index map before PROT. -/
theorem protSilent_of_lt {k : Nat} (h : k < K.PROT_PROTECTED_OUT) : ProtSilent k := by
  simp only [K.PROT_PROTECTED_OUT, K.at'] at h
  constructor <;>
    simp only [K.PROT_PROTECTED_OUT, K.PROT_REDUNDANCY, K.PROT_EXPOSED_OUT, K.BUF_MIRROR, K.BUF_MIRROR_ADDR, K.RING_MIRROR, K.RING_MIRROR_ADDR,
      K.BUF_WRITER, K.OUT_CONTRACT_PROTECTED, H.tpgHold, H.hk, K.at'] <;> omega

/-- Protection does not ask for a warm reset. -/
theorem protSilent_warmPend : ProtSilent H.warmPend := by
  constructor <;>
    simp only [H.warmPend, K.PROT_PROTECTED_OUT, K.PROT_REDUNDANCY, K.PROT_EXPOSED_OUT, K.BUF_MIRROR, K.BUF_MIRROR_ADDR, K.RING_MIRROR,
      K.RING_MIRROR_ADDR, K.BUF_WRITER, K.OUT_CONTRACT_PROTECTED, H.tpgHold, H.hk, K.at'] <;> omega

/-! ## The stores -/

/-- That the stores read as in s is kept by every update of registers, lists and bookkeeping. -/
theorem storesKept_kept (s : State) : Kept (StoresKept s) := by
  constructor <;> (intros; rename_i h; exact ⟨h.mem, h.flash, h.pending, h.lat, h.com, h.due⟩)

/-- Nothing changed. -/
theorem storesKept_refl (s : State) : StoresKept s s := ⟨fun _ => rfl, fun _ => rfl, rfl, rfl, rfl, rfl⟩

end Sys2Proof.Machine
end

section
/-! SUPPORT. What the crossbar's operations on planes and segments change, and what a segment does once its two copies are known. -/
namespace Sys2Proof.Machine

/-! ## The choice between the planes (R22, R23, R349) -/

/-- A register in which the choice between the planes is kept: STATE of a plane, PLANE_SWITCHES, a destination's preferred plane, the
destinations that moved, and the counts of events limited to one a second. -/
def planeReg (k : Nat) : Prop :=
  (∃ p, k = planeKey p) ∨ k = K.XBAR_PLANE_SWITCHES ∨ (∃ d, k = H.xbPref d) ∨ k = H.xbMoved ∨ (∃ i, k = H.limCnt i ∨ k = H.limLast i)

/-- From s to t only the choice between the planes may differ, and the ticks at which segments of a plane failed. -/
structure PlanesOnly (s t : State) : Prop where
  rd : ∀ k, ¬ planeReg k → t.rd k = s.rd k
  vec : ∀ i, (∀ p, i ≠ H.xbFail p) → t.vec i = s.vec i

/-- Nothing changed. -/
theorem planesOnly_refl (s : State) : PlanesOnly s s := ⟨fun _ _ => rfl, fun _ _ => rfl⟩

/-- One change of the choice after another. -/
theorem PlanesOnly.trans {s t u : State} (h : PlanesOnly s t) (g : PlanesOnly t u) : PlanesOnly s u :=
  ⟨fun k hk => (g.rd k hk).trans (h.rd k hk), fun i hi => (g.vec i hi).trans (h.vec i hi)⟩

/-- Writing a register of the choice. -/
theorem PlanesOnly.wr {s t : State} (h : PlanesOnly s t) {k : Nat} (v : Nat) (hk : planeReg k) : PlanesOnly s (t.wr k v) :=
  ⟨fun j hj => (State.rd_wr_ne t v (fun e => hj (by rwa [e]))).trans (h.rd j hj), h.vec⟩

/-- Raising an event. -/
theorem PlanesOnly.raise {s t : State} (h : PlanesOnly s t) (code src a1 a2 : Nat) : PlanesOnly s (t.raise code src a1 a2) := ⟨h.rd, h.vec⟩

/-- Noting the ticks at which a plane's segments failed. -/
theorem PlanesOnly.setFail {s t : State} (h : PlanesOnly s t) (p : Nat) (l : List Nat) : PlanesOnly s (t.setVec (H.xbFail p) l) :=
  ⟨h.rd, fun i hi => (State.vec_setVec_ne t l (hi p)).trans (h.vec i hi)⟩

/-- An event limited to one a second. -/
theorem PlanesOnly.raiseLim {s t : State} (h : PlanesOnly s t) (id code src : Nat) (args : Nat → Nat × Nat) :
    PlanesOnly s (t.raiseLim id code src args) := by
  have hcnt : planeReg (H.limCnt id) := .inr (.inr (.inr (.inr ⟨id, .inl rfl⟩)))
  have hlast : planeReg (H.limLast id) := .inr (.inr (.inr (.inr ⟨id, .inr rfl⟩)))
  unfold State.raiseLim
  extract_lets u last a
  have hu : PlanesOnly s u := h.wr _ hcnt
  split
  · exact ((hu.raise ..).wr _ hcnt).wr _ hlast
  · exact hu

/-- An event limited to one a second writes its own two registers only. -/
theorem raiseLim_rd (s : State) (id code src : Nat) (args : Nat → Nat × Nat) {k : Nat} (h1 : k ≠ H.limCnt id) (h2 : k ≠ H.limLast id) :
    (s.raiseLim id code src args).rd k = s.rd k := by
  unfold State.raiseLim
  extract_lets u last a
  have hu : u.rd k = s.rd k := State.rd_wr_ne _ _ h1
  split
  · rw [State.rd_wr_ne _ _ h2, State.rd_wr_ne _ _ h1, State.rd_raise, hu]
  · exact hu

/-- A destination's preferred plane changes. -/
theorem PlanesOnly.prefer {s t : State} (h : PlanesOnly s t) (d p : Nat) : PlanesOnly s (t.prefer d p) := by
  have hpref : planeReg (H.xbPref d) := .inr (.inr (.inl ⟨d, rfl⟩))
  have hmoved : planeReg H.xbMoved := .inr (.inr (.inr (.inl rfl)))
  unfold State.prefer
  extract_lets u moved w
  have hu : PlanesOnly s u := ((h.wr _ hpref).wr _ (.inr (.inl rfl))).wr _ hmoved
  have hw : PlanesOnly s w := hu.raiseLim ..
  split
  · exact h
  split
  · exact hw.wr _ hmoved
  · exact hw

/-- The destinations leave a plane. -/
theorem PlanesOnly.planeLeave {s t : State} (h : PlanesOnly s t) (p : Nat) : PlanesOnly s (t.planeLeave p) := by
  refine State.upto_keeps (P := PlanesOnly s) (fun d u hu => ?_) h
  split
  · exact hu
  split
  · exact hu.prefer ..
  · exact hu.wr _ (.inr (.inr (.inl ⟨d, rfl⟩)))

/-- A segment of a plane fails. -/
theorem PlanesOnly.planeFails {s t : State} (h : PlanesOnly s t) (p : Nat) : PlanesOnly s (t.planeFails p) := by
  unfold State.planeFails
  extract_lets l u
  have hu : PlanesOnly s u := h.setFail p l
  split
  · exact h
  split
  · exact hu
  · exact (((hu.setFail p []).wr _ (.inl ⟨p, rfl⟩)).raise ..).planeLeave p

/-- A destination without a preferred plane takes one. -/
theorem PlanesOnly.preferAny {s t : State} (h : PlanesOnly s t) (d : Nat) : PlanesOnly s (t.preferAny d) := by
  unfold State.preferAny
  split
  · exact h
  split
  · exact h.prefer ..
  split
  · exact h.prefer ..
  · exact h

/-- A destination that prefers a plane keeps it. -/
theorem preferAny_of_lt {s : State} {d : Nat} (h : s.rd (H.xbPref d) < 2) : s.preferAny d = s := by simp [State.preferAny, h]

/-- The crossbar's own counters of segments are not part of the choice. -/
theorem not_planeReg_segments {k : Nat} (h : k = K.XBAR_SEGMENTS_LOST ∨ k = K.XBAR_DISAGREE) : ¬ planeReg k := by
  rintro (⟨p, hp⟩ | hp | ⟨d, hp⟩ | hp | ⟨i, hp | hp⟩) <;> rcases h with rfl | rfl <;>
    simp only [planeKey, K.XBAR_SEGMENTS_LOST, K.XBAR_DISAGREE, K.XBAR_XBA_STATE, K.XBAR_XBB_STATE, K.XBAR_PLANE_SWITCHES, H.xbPref, H.xbMoved,
      H.limCnt, H.limLast, H.hk, K.at'] at hp <;> (try split at hp) <;> omega

/-- A counter of a frame counts one. -/
theorem rd_countFrame_self (s : State) (k : Nat) : (s.countFrame k 1).rd k = min (s.rd k + 1) 0xFFFFFFFF := State.rd_wr_self ..

/-- Counting leaves the other registers. -/
theorem rd_countFrame_ne (s : State) {k j : Nat} (h : j ≠ k) : (s.countFrame k 1).rd j = s.rd j := State.rd_wr_ne _ _ h

/-! ## Copies of a segment (R21, R22) -/

/-- A plane that is off brings no copy. -/
theorem segCopy_off {s : State} {p : Nat} (h : s.rd (planeKey p) = 2) (d src row seg : Nat) (x : Option (List (Nat × Nat))) :
    s.segCopy p d src row seg x = none := by simp [State.segCopy, h]

/-- Where nothing arrived there is no copy. -/
theorem segCopy_none (s : State) (p d src row seg : Nat) : s.segCopy p d src row seg none = none := by simp [State.segCopy]

/-- A copy nothing changed passes. -/
theorem segCopy_unchanged {s : State} {p : Nat} (h : s.rd (planeKey p) ≠ 2) (d src row seg : Nat) :
    s.segCopy p d src row seg (some []) = some (s.segWords d src row seg) := by simp [State.segCopy, segCheck, h]

/-! ## A segment whose copies are known (R22, R349, R359) -/

/-- What the two copies of a segment say about the planes: one that failed alone counts against its plane; two good ones that differ are
a disagreement, while the Test Strip compares. -/
def State.judged (s : State) (src : Nat) (ca cb : Option (List Nat)) : State :=
  match ca, cb with
  | none, some _ => s.planeFails 0
  | some _, none => s.planeFails 1
  | some x, some y => if x = y ∨ !s.tstripFree then s
    else (s.countFrame K.XBAR_DISAGREE 1).raiseLim 2602 0x7005 0x1A01 (fun k => (src, k))
  | none, none => s

/-- The plane whose copy a destination takes first. -/
def State.firstPlane (s : State) (d : Nat) : Nat :=
  if s.rd (H.xbPref d) < 2 then s.rd (H.xbPref d) else if s.rd (planeKey 1) = 3 then 1 else 0

/-- What a destination takes of the copies of a segment, or `old` for want of a good one. -/
def State.taken (s : State) (d src : Nat) (ca cb : Option (List Nat)) (old : List Nat) : State × List Nat :=
  let get (q : Nat) : Option (List Nat) := if q = 0 then ca else cb
  match get (s.firstPlane d), get (1 - s.firstPlane d) with
  | some l, _ => (s, l)
  | none, some l => (if s.mayPrefer (1 - s.firstPlane d) d then s.prefer d (1 - s.firstPlane d) else s, l)
  | none, none => ((s.countFrame K.XBAR_SEGMENTS_LOST 1).raiseLim 2601 0x7004 0x1A01 (fun k => (src, k)), old)

/-- A segment's words enter the row a destination holds, of width w; the last segment of the row makes it a fresh one. -/
def State.laid (s : State) (d w row seg : Nat) (l : List Nat) : State :=
  let s : State := if 64 ≤ d ∧ s.rd (H.liveFrom (d - 64)) = 1048576 then s.wr (H.liveFrom (d - 64)) (row + 1) else s
  let s := s.setVec (H.xbRow (d * 8192 + row)) (splice (s.vec (H.xbRow (d * 8192 + row))) (256 * seg) l)
  if w ≤ 256 * seg + min 256 (w - 256 * seg) ∧ !(s.vec (H.xbFresh d)).contains row
  then s.setVec (H.xbFresh d) (s.vec (H.xbFresh d) ++ [row]) else s

/-- The words of the row before in the same field of format f, at the place of a segment (R22). -/
def State.heldWords (s : State) (d f row seg : Nat) : List Nat :=
  ((s.vec (H.xbRow (d * 8192 + rowBefore (fmtSize f).2 row (match fmt f with | some g => g.interlaced | none => false)))).drop
    (256 * seg)).take (min 256 ((fmtSize f).1 - 256 * seg))

/-- The state in which a destination takes a segment: its planes judged, with a preferred plane where one may be. -/
def State.choosing (s : State) (d src : Nat) (ca cb : Option (List Nat)) : State := (s.judged src ca cb).preferAny d

/-- The state after a destination has taken a segment of a row of its picture, of the copies ca and cb. -/
def State.segmentTaken (s : State) (d src row seg : Nat) (ca cb : Option (List Nat)) : State :=
  let f := s.portFmt d src
  let u := s.choosing d src ca cb
  let r := u.taken d src ca cb (u.heldWords d f row seg)
  r.1.laid d (fmtSize f).1 row seg r.2

/-- A segment for a destination without a source changes nothing. -/
theorem segmentReceived_noSource {s : State} {d : Fin 72} (h : s.destSrc d.val = none) (row seg : Nat) (a b : Option (List (Nat × Nat))) :
    segmentReceived d row seg a b s = .next s := by simp [segmentReceived, h]

/-- A segment outside the picture changes nothing. -/
theorem segmentReceived_outside {s : State} {d : Fin 72} {src row seg : Nat} (h : s.destSrc d.val = some src)
    (hout : (fmtSize (s.portFmt d.val src)).2 ≤ row ∨ (fmtSize (s.portFmt d.val src)).1 ≤ 256 * seg) (a b : Option (List (Nat × Nat))) :
    segmentReceived d row seg a b s = .next s := by simp [segmentReceived, h, hout]

/-- A segment of the picture: the planes are judged, the destination takes a copy and lays it into its row. -/
theorem segmentReceived_inside {s : State} {d : Fin 72} {src row seg : Nat} (h : s.destSrc d.val = some src)
    (hrow : row < (fmtSize (s.portFmt d.val src)).2) (hseg : 256 * seg < (fmtSize (s.portFmt d.val src)).1) (a b : Option (List (Nat × Nat))) :
    segmentReceived d row seg a b s
      = .next (s.segmentTaken d.val src row seg (s.segCopy 0 d.val src row seg a) (s.segCopy 1 d.val src row seg b)) := by
  have hin : ¬ ((fmtSize (s.portFmt d.val src)).2 ≤ row ∨ (fmtSize (s.portFmt d.val src)).1 ≤ 256 * seg) := by omega
  unfold segmentReceived
  simp only [h]
  rw [if_neg hin]
  rfl

/-! ## What a destination holds after a segment -/

/-- Every format has at most 4,320 rows (R134). -/
theorem fmtSize_height_le (c : Nat) : (fmtSize c).2 ≤ 4320 := by
  unfold fmtSize fmt
  split
  · next f h => split at h <;> cases h <;> decide
  · decide

/-- The row before lies in the picture. -/
theorem rowBefore_lt {h y : Nat} (interlaced : Bool) (hy : y < h) : rowBefore h y interlaced < h := by
  unfold rowBefore
  cases interlaced <;> simp only [Bool.false_eq_true, if_true, if_false] <;> split <;> omega

/-- A row of a destination is not a list of failures, nor the list of its fresh rows. -/
theorem xbRow_ne {d row : Nat} (hd : d < 72) (hrow : row < 4320) :
    (∀ p, H.xbRow (d * 8192 + row) ≠ H.xbFail p) ∧ H.xbRow (d * 8192 + row) ≠ H.xbFresh d := by
  simp only [H.xbRow, H.xbFail, H.xbFresh, H.hk]
  constructor
  · intro p; omega
  · omega

/-- The row holds the words laid into it. -/
theorem laid_row (s : State) {d row : Nat} (hd : d < 72) (hrow : row < 4320) (w seg : Nat) (l : List Nat) :
    (s.laid d w row seg l).vec (H.xbRow (d * 8192 + row)) = splice (s.vec (H.xbRow (d * 8192 + row))) (256 * seg) l := by
  unfold State.laid
  extract_lets u v
  have hu : u.vec (H.xbRow (d * 8192 + row)) = s.vec (H.xbRow (d * 8192 + row)) := by
    show (if _ then _ else s).vec _ = _
    split <;> rfl
  have hv : v.vec (H.xbRow (d * 8192 + row)) = splice (s.vec (H.xbRow (d * 8192 + row))) (256 * seg) l := by
    rw [State.vec_setVec_self, hu]
  split
  · rw [State.vec_setVec_ne _ _ (xbRow_ne hd hrow).2, hv]
  · exact hv

/-- Laying a segment writes no register but the mark of a live layer's first row. -/
theorem laid_rd (s : State) (d w row seg : Nat) (l : List Nat) {k : Nat} (hk : ∀ c, k ≠ H.liveFrom c) : (s.laid d w row seg l).rd k = s.rd k := by
  unfold State.laid
  extract_lets u v
  have hu : u.rd k = s.rd k := by
    show (if _ then _ else s).rd k = _
    split
    · exact State.rd_wr_ne _ _ (hk _)
    · rfl
  split <;> exact hu

/-- Laying a segment raises no event. -/
theorem laid_raised (s : State) (d w row seg : Nat) (l : List Nat) : (s.laid d w row seg l).raised = s.raised := by
  unfold State.laid
  extract_lets u v
  have hu : u.raised = s.raised := by
    show (if _ then _ else s).raised = _
    split <;> rfl
  split <;> exact hu

/-- There are two planes. -/
theorem firstPlane_eq (s : State) (d : Nat) : s.firstPlane d = 0 ∨ s.firstPlane d = 1 := by
  unfold State.firstPlane
  split
  · omega
  split <;> simp

/-- Of two good copies the destination takes that of the plane it takes first. -/
theorem taken_both (s : State) (d src : Nat) (l m old : List Nat) :
    s.taken d src (some l) (some m) old = (s, if s.firstPlane d = 0 then l else m) := by
  obtain h | h := firstPlane_eq s d <;> simp [State.taken, h]

/-- Of one good copy, whichever plane's, the destination takes it. -/
theorem taken_alone (s : State) (d src : Nat) {ca cb : Option (List Nat)} {l : List Nat} (old : List Nat)
    (h : ca = some l ∧ cb = none ∨ ca = none ∧ cb = some l) : ∃ t, s.taken d src ca cb old = (t, l) ∧ PlanesOnly s t := by
  have hswitch : ∀ q, PlanesOnly s (if s.mayPrefer q d then s.prefer d q else s) := by
    intro q
    split
    · exact (planesOnly_refl s).prefer ..
    · exact planesOnly_refl s
  obtain ⟨rfl, rfl⟩ | ⟨rfl, rfl⟩ := h
  · obtain hp | hp := firstPlane_eq s d
    · exact ⟨s, by simp [State.taken, hp], planesOnly_refl s⟩
    · exact ⟨_, by simp [State.taken, hp], hswitch 0⟩
  · obtain hp | hp := firstPlane_eq s d
    · exact ⟨_, by simp [State.taken, hp], hswitch 1⟩
    · exact ⟨s, by simp [State.taken, hp], planesOnly_refl s⟩

/-- Without a good copy the destination takes what it is given for one, and the loss is counted. -/
theorem taken_neither (s : State) (d src : Nat) (old : List Nat) :
    s.taken d src none none old = ((s.countFrame K.XBAR_SEGMENTS_LOST 1).raiseLim 2601 0x7004 0x1A01 (fun k => (src, k)), old) := by
  obtain h | h := firstPlane_eq s d <;> simp [State.taken, h]

/-- Copies that are not a disagreement to count bear on the choice between the planes only. -/
theorem choosing_planesOnly {s : State} (d src : Nat) {ca cb : Option (List Nat)}
    (h : ∀ x y, ca = some x → cb = some y → x = y ∨ s.tstripFree = false) : PlanesOnly s (s.choosing d src ca cb) := by
  refine PlanesOnly.preferAny ?_ d
  cases ca with
  | none =>
    cases cb with
    | none => exact planesOnly_refl s
    | some y => exact (planesOnly_refl s).planeFails 0
  | some x =>
    cases cb with
    | none => exact (planesOnly_refl s).planeFails 1
    | some y =>
      have hxy : x = y ∨ (!s.tstripFree) = true := by simpa using h x y rfl rfl
      simp only [State.judged, hxy, if_true]
      exact planesOnly_refl s

/-- A disagreement the Test Strip may count is counted. -/
theorem choosing_disagree {s : State} (d src : Nat) {x y : List Nat} (hne : x ≠ y) (hfree : s.tstripFree = true) :
    PlanesOnly (s.countFrame K.XBAR_DISAGREE 1) (s.choosing d src (some x) (some y)) := by
  refine PlanesOnly.preferAny ?_ d
  simp only [State.judged, hne, hfree, Bool.not_true, Bool.false_eq_true, or_self, if_false]
  exact (planesOnly_refl _).raiseLim ..

/-- What a destination has taken stands in its row; the crossbar's counters of segments are as before it was laid. -/
theorem segmentTaken_of_taken {s u v : State} {d src row seg : Nat} {ca cb : Option (List Nat)} {l : List Nat} (hd : d < 72)
    (hrow : row < (fmtSize (s.portFmt d src)).2)
    (hr : (s.choosing d src ca cb).taken d src ca cb ((s.choosing d src ca cb).heldWords d (s.portFmt d src) row seg) = (u, l))
    (hu : PlanesOnly v u) :
    (s.segmentTaken d src row seg ca cb).vec (H.xbRow (d * 8192 + row)) = splice (v.vec (H.xbRow (d * 8192 + row))) (256 * seg) l ∧
    (s.segmentTaken d src row seg ca cb).rd K.XBAR_SEGMENTS_LOST = v.rd K.XBAR_SEGMENTS_LOST ∧
    (s.segmentTaken d src row seg ca cb).rd K.XBAR_DISAGREE = v.rd K.XBAR_DISAGREE := by
  have hlow : row < 4320 := Nat.lt_of_lt_of_le hrow (fmtSize_height_le _)
  have hk : ∀ k, k = K.XBAR_SEGMENTS_LOST ∨ k = K.XBAR_DISAGREE →
      (s.segmentTaken d src row seg ca cb).rd k = v.rd k := by
    intro k h
    have hlive : ∀ c, k ≠ H.liveFrom c := by
      intro c
      rcases h with rfl | rfl <;> simp only [K.XBAR_SEGMENTS_LOST, K.XBAR_DISAGREE, H.liveFrom, H.hk, K.at'] <;> omega
    simp only [State.segmentTaken, hr]
    rw [laid_rd _ _ _ _ _ _ hlive, hu.rd k (not_planeReg_segments h)]
  refine ⟨?_, hk _ (.inl rfl), hk _ (.inr rfl)⟩
  simp only [State.segmentTaken, hr]
  rw [laid_row u hd hlow, hu.vec _ (xbRow_ne hd hlow).1]

end Sys2Proof.Machine
end

section
/-! SUPPORT. The destinations that take a stream, a plane that returns, and a write of XBAR.RETEST. -/
namespace Sys2Proof.Machine

/-! ## Destinations (R16) -/

/-- A register that bears on which source a destination takes: one on air, or one of a converter's streams. -/
def streamReg (k : Nat) : Prop := airKey 0 ≤ k ∨ 0x580000 ≤ k ∧ k < 0x600000

/-- States that agree on what is on air follow the same routes. -/
theorem routeUnit_congr {s t : State} (h : ∀ k, t.air k = s.air k) (n : Nat) : t.routeUnit n = s.routeUnit n := by
  simp only [State.routeUnit, h]

/-- A destination's source depends on what is on air and on the converters' streams only. -/
theorem destSrc_congr {s t : State} (h : ∀ k, streamReg k → t.rd k = s.rd k) {d : Nat} (hd : d < 72) : t.destSrc d = s.destSrc d := by
  have hair : ∀ k, t.air k = s.air k := fun k => h _ (.inl (by simp [airKey]))
  unfold State.destSrc
  by_cases h48 : d < 48
  · simp only [h48, if_true, hair, routeUnit_congr hair]
  by_cases h64 : d < 64
  · have hstream : ∀ j < 4, t.rd (K.FRC_STREAM_KIND (d - 48) j) = s.rd (K.FRC_STREAM_KIND (d - 48) j) ∧
        t.rd (K.FRC_STREAM_SRC (d - 48) j) = s.rd (K.FRC_STREAM_SRC (d - 48) j) := by
      intro j hj
      constructor <;> apply h <;> right <;> simp only [K.FRC_STREAM_KIND, K.FRC_STREAM_SRC, K.at'] <;> omega
    have hfind : (List.range 4).find? (fun k => t.rd (K.FRC_STREAM_KIND (d - 48) k) == 1)
        = (List.range 4).find? (fun k => s.rd (K.FRC_STREAM_KIND (d - 48) k) == 1) :=
      List.find?_congr (fun j hj => by rw [(hstream j (List.mem_range.mp hj)).1])
    simp only [h48, h64, if_true, if_false]
    rw [hfind]
    cases hj : (List.range 4).find? (fun k => s.rd (K.FRC_STREAM_KIND (d - 48) k) == 1) with
    | none => rfl
    | some j => exact congrArg some (hstream j (List.mem_range.mp (List.mem_of_find?_eq_some hj))).2
  · simp only [h48, h64, if_false, hair]

/-- The destinations that take a stream depend on what is on air and on the converters' streams only. -/
theorem liveDests_congr {s t : State} (h : ∀ k, streamReg k → t.rd k = s.rd k) : t.liveDests = s.liveDests :=
  List.filter_congr (fun d hd => by rw [destSrc_congr h (List.mem_range.mp hd)])

/-- Writing any other register leaves the destinations that take a stream. -/
theorem liveDests_wr (s : State) {k : Nat} (v : Nat) (hk : ¬ streamReg k) : (s.wr k v).liveDests = s.liveDests :=
  liveDests_congr (fun _ hj => State.rd_wr_ne s v (fun e => hk (e ▸ hj)))

/-- The crossbar's objects and what it notes of a returned plane are no streams. -/
theorem not_streamReg_planes (p : Nat) : ¬ streamReg (planeKey p) ∧ ¬ streamReg K.XBAR_RETEST := by
  simp only [streamReg, airKey, planeKey, K.XBAR_XBA_STATE, K.XBAR_XBB_STATE, K.XBAR_RETEST, K.at']
  constructor
  · split <;> omega
  · omega

/-- What is noted of a returned plane is no stream. -/
theorem not_streamReg_xbRet {p : Nat} (hp : p < 2) : ¬ streamReg (H.xbRet p) := by
  simp only [streamReg, airKey, H.xbRet, H.hk]
  omega

/-- An arrival bears on no stream. -/
theorem arrived_liveDests (q : Req) {i : Nat} (hi : i ≤ 16) (s : State) : (arrived q i s).liveDests = s.liveDests := by
  refine liveDests_congr (fun k hk => arrived_rd s q i k (fun hmem => ?_))
  simp only [arrivalKeys, List.mem_cons, List.not_mem_nil, or_false, K.SESS_PORT, K.SESS_ADDR, K.SESS_UDP, K.SESS_LAST_SEQ, H.sessOwn, H.lastReq,
    H.sessMute, H.warmPend, H.hk, K.at'] at hmem
  simp only [streamReg, airKey] at hk
  omega

/-! ## A plane that returns (R23, R349) -/

/-- STATE of a plane is not what is noted of its return. -/
theorem planeKey_ne_xbRet (p r : Nat) : planeKey p ≠ H.xbRet r := by
  simp only [planeKey, K.XBAR_XBA_STATE, K.XBAR_XBB_STATE, H.xbRet, H.hk, K.at']
  split <;> omega

/-- A returned plane that has carried a frame of every destination is in service. -/
theorem planeBack_of_all {s : State} {p : Nat} (h3 : s.rd (planeKey p) = 3) (h : ∀ x ∈ s.liveDests, (s.rd (H.xbRet p)).testBit x = true) :
    s.planeBack p = (s.wr (planeKey p) 0).raise 0x7002 0x1A01 p 0 := by
  have hall : s.liveDests.all (fun d => (s.rd (H.xbRet p)).testBit d) = true := by simpa using h
  simp [State.planeBack, h3, hall]

/-- A plane that lacks a frame of some destination stays as it is. -/
theorem planeBack_of_missing {s : State} {p : Nat} (h : ∃ x ∈ s.liveDests, (s.rd (H.xbRet p)).testBit x = false) : s.planeBack p = s := by
  have hall : ¬ s.liveDests.all (fun d => (s.rd (H.xbRet p)).testBit d) = true := by simpa using h
  simp [State.planeBack, hall]

/-- A plane that returns is RETURNING, while some destination takes a stream. -/
theorem planeReturn_eq {s : State} {p : Nat} (hp : p < 2) (h : s.liveDests ≠ []) :
    s.planeReturn p = ((s.wr (planeKey p) 3).wr (H.xbRet p) 0).setVec (H.xbFail p) [] := by
  have hlive : (((s.wr (planeKey p) 3).wr (H.xbRet p) 0).setVec (H.xbFail p) []).liveDests = s.liveDests := by
    rw [liveDests_congr (t := State.setVec _ _ _) (fun _ _ => State.rd_setVec ..), liveDests_wr _ _ (not_streamReg_xbRet hp),
      liveDests_wr _ _ (not_streamReg_planes p).1]
  obtain ⟨x, hx⟩ := List.exists_mem_of_ne_nil _ h
  exact planeBack_of_missing ⟨x, hlive ▸ hx, by simp⟩

/-- A plane's return writes its STATE and what is noted of it. -/
theorem planeReturn_rd (s : State) (p : Nat) {k : Nat} (h1 : k ≠ planeKey p) (h2 : k ≠ H.xbRet p) : (s.planeReturn p).rd k = s.rd k := by
  have hu : (((s.wr (planeKey p) 3).wr (H.xbRet p) 0).setVec (H.xbFail p) []).rd k = s.rd k := by
    rw [State.rd_setVec, State.rd_wr_ne _ _ h2, State.rd_wr_ne _ _ h1]
  unfold State.planeReturn State.planeBack
  split
  · rw [State.rd_raise, State.rd_wr_ne _ _ h1, hu]
  · exact hu

/-! ## A write of XBAR.RETEST (R349) -/

/-- Where XBAR.RETEST lies. -/
def retestLoc : Loc := ⟨.glob, 0, 0x1A01, 7, ⟨0x1A01, 7, 1, .u 1, .cmd, 0, 2, 0, .rng 0 1⟩⟩

/-- XBAR.RETEST is there. -/
theorem locate_retest : locate K.XBAR_RETEST = some retestLoc := by decide

/-- A write of XBAR.RETEST is a retest of a plane. -/
theorem writeEffect_retest (v : Nat) (c : Wctx) (s : State) : writeEffect retestLoc K.XBAR_RETEST v c s = xbarRetestWrite v s := rfl

/-- XBAR.RETEST accepts the number of a plane. -/
theorem retest_admits {v : Nat} (hv : v ≤ 1) : retestLoc.admits K.XBAR_RETEST v = true := by
  obtain rfl | rfl : v = 0 ∨ v = 1 := by omega
  · decide
  · decide

/-- A retest starts with its plane's return, and XBAR.RETEST holds the plane whichever of the two is written last. -/
theorem retest_listed (s : State) (v : Nat) :
    ((((s.wr K.XBAR_RETEST v).planeReturn v).protSync).wr K.XBAR_RETEST v) = ((s.wr K.XBAR_RETEST v).planeReturn v).protSync := by
  have hk := listed_kept K.XBAR_RETEST
  have hlisted : State.listed K.XBAR_RETEST ((s.wr K.XBAR_RETEST v).planeReturn v).protSync :=
    protSync_keeps hk (planeReturn_keeps hk (State.listed_wr_self s _ v))
  have hrd : ((s.wr K.XBAR_RETEST v).planeReturn v).protSync.rd K.XBAR_RETEST = v := by
    rw [protSync_rd _ (protSilent_of_lt (by decide)), planeReturn_rd, State.rd_wr_self]
    · simp only [planeKey, K.XBAR_RETEST, K.XBAR_XBA_STATE, K.XBAR_XBB_STATE, K.at']
      split <;> omega
    · simp only [K.XBAR_RETEST, H.xbRet, H.hk, K.at']
      omega
  have h := State.wr_rd_of_listed hlisted
  rwa [hrd] at h

end Sys2Proof.Machine
end

section
/-! CrossbarTakesGoodCopies: a segment by what its two copies are, a plane that returns, a retest. -/
namespace Sys2Proof

open Machine

/-! ## Segments -/

/-- A segment of the picture ends in the state its copies make, with protection in line. -/
theorem exec_segment_inside {s : State} {d : Fin 72} {src row seg : Nat} (h : s.destSrc d.val = some src)
    (hrow : row < (fmtSize (s.portFmt d.val src)).2) (hseg : 256 * seg < (fmtSize (s.portFmt d.val src)).1) {a b : Option (List (Nat × Nat))}
    {ca cb : Option (List Nat)} (ha : s.segCopy 0 d.val src row seg a = ca) (hb : s.segCopy 1 d.val src row seg b = cb) {f : State → Prop}
    (hf : f (s.segmentTaken d.val src row seg ca cb)) :
    ∃ t : State, exec (.segmentReceived d row seg a b) s = .next t.protSync ∧ StoresKept s t ∧ f t := by
  have he := segmentReceived_inside h hrow hseg a b
  have hstores : onOut (StoresKept s) (segmentReceived d row seg a b s) := segmentReceived_keeps (storesKept_kept s) (storesKept_refl s)
  rw [he, ha, hb] at hstores
  rw [ha, hb] at he
  exact ⟨_, congrArg withProt he, hstores, hf⟩

/-- The row of destination d takes l at the place of a segment. -/
def RowTakes (s t : State) (d row seg : Nat) (l : List Nat) : Prop :=
  t.vec (H.xbRow (d * 8192 + row)) = splice (s.vec (H.xbRow (d * 8192 + row))) (256 * seg) l

/-- The crossbar's counters of segments stand as before. -/
def SegmentsAsBefore (s t : State) : Prop :=
  t.rd K.XBAR_SEGMENTS_LOST = s.rd K.XBAR_SEGMENTS_LOST ∧ t.rd K.XBAR_DISAGREE = s.rd K.XBAR_DISAGREE

section
variable {s : State} {d src row seg : Nat}

/-- Of equal copies the destination takes the one; a destination that prefers a plane raises nothing. -/
theorem segment_equal (hd : d < 72) (hrow : row < (fmtSize (s.portFmt d src)).2) (l : List Nat) :
    RowTakes s (s.segmentTaken d src row seg (some l) (some l)) d row seg l ∧ SegmentsAsBefore s (s.segmentTaken d src row seg (some l) (some l)) ∧
    (s.rd (H.xbPref d) < 2 → raisedOf (s.segmentTaken d src row seg (some l) (some l)) = raisedOf s) := by
  have hu : PlanesOnly s (s.choosing d src (some l) (some l)) := choosing_planesOnly d src (by rintro x y ⟨⟩ ⟨⟩; exact .inl rfl)
  have hr := taken_both (s.choosing d src (some l) (some l)) d src l l
    ((s.choosing d src (some l) (some l)).heldWords d (s.portFmt d src) row seg)
  rw [ite_self] at hr
  obtain ⟨hvec, hlost, hdis⟩ := segmentTaken_of_taken hd hrow hr hu
  refine ⟨hvec, ⟨hlost, hdis⟩, fun hp => ?_⟩
  have hsame : s.choosing d src (some l) (some l) = s := by
    simp [State.choosing, State.judged, preferAny_of_lt hp]
  simp only [raisedOf, State.segmentTaken, hr]
  rw [laid_raised, hsame]

/-- Of one good copy, whichever plane's, the destination takes it. -/
theorem segment_alone (hd : d < 72) (hrow : row < (fmtSize (s.portFmt d src)).2) {ca cb : Option (List Nat)} {l : List Nat}
    (h : ca = some l ∧ cb = none ∨ ca = none ∧ cb = some l) :
    RowTakes s (s.segmentTaken d src row seg ca cb) d row seg l ∧ SegmentsAsBefore s (s.segmentTaken d src row seg ca cb) := by
  have hu : PlanesOnly s (s.choosing d src ca cb) := by
    refine choosing_planesOnly d src (fun x y hx hy => ?_)
    obtain ⟨-, rfl⟩ | ⟨rfl, -⟩ := h
    · cases hy
    · cases hx
  obtain ⟨t, hr, ht⟩ := taken_alone (s.choosing d src ca cb) d src ((s.choosing d src ca cb).heldWords d (s.portFmt d src) row seg) h
  exact segmentTaken_of_taken hd hrow hr (hu.trans ht)

/-- Of two good copies that differ the destination takes that of the plane it takes first. -/
theorem segment_differ (hd : d < 72) (hrow : row < (fmtSize (s.portFmt d src)).2) {l m : List Nat} (hne : l ≠ m) :
    let t := s.segmentTaken d src row seg (some l) (some m)
    RowTakes s t d row seg (if (s.choosing d src (some l) (some m)).firstPlane d = 0 then l else m) ∧
    t.rd K.XBAR_SEGMENTS_LOST = s.rd K.XBAR_SEGMENTS_LOST ∧
    t.rd K.XBAR_DISAGREE = if s.tstripFree then min (s.rd K.XBAR_DISAGREE + 1) 0xFFFFFFFF else s.rd K.XBAR_DISAGREE := by
  have hr := taken_both (s.choosing d src (some l) (some m)) d src l m
    ((s.choosing d src (some l) (some m)).heldWords d (s.portFmt d src) row seg)
  cases hfree : s.tstripFree with
  | true =>
    obtain ⟨hvec, hlost, hdis⟩ := segmentTaken_of_taken hd hrow hr (choosing_disagree d src hne hfree)
    refine ⟨hvec, ?_, ?_⟩
    · rw [hlost, rd_countFrame_ne _ (by decide)]
    · rw [hdis, rd_countFrame_self, if_pos rfl]
  | false =>
    obtain ⟨hvec, hlost, hdis⟩ := segmentTaken_of_taken hd hrow hr (choosing_planesOnly d src (fun _ _ _ _ => .inr hfree))
    exact ⟨hvec, hlost, by rw [hdis, if_neg (by decide)]⟩

/-- A preferred plane is the one whose copy is taken first. -/
theorem choosing_firstPlane {l m : List Nat} (h : s.rd (H.xbPref d) < 2) :
    (s.choosing d src (some l) (some m)).firstPlane d = s.rd (H.xbPref d) := by
  have hpref : (s.judged src (some l) (some m)).rd (H.xbPref d) = s.rd (H.xbPref d) := by
    simp only [State.judged]
    split
    · rfl
    · rw [raiseLim_rd, rd_countFrame_ne] <;> simp only [H.xbPref, H.limCnt, H.limLast, K.XBAR_DISAGREE, H.hk, K.at'] <;> omega
  rw [← hpref] at h ⊢
  rw [State.choosing, preferAny_of_lt h, State.firstPlane, if_pos h]

/-- Without a good copy the destination takes the row before of the same field, and the loss is counted. -/
theorem segment_neither (hd : d < 72) (hrow : row < (fmtSize (s.portFmt d src)).2) :
    let t := s.segmentTaken d src row seg none none
    RowTakes s t d row seg (s.heldWords d (s.portFmt d src) row seg) ∧
    t.rd K.XBAR_SEGMENTS_LOST = min (s.rd K.XBAR_SEGMENTS_LOST + 1) 0xFFFFFFFF ∧ t.rd K.XBAR_DISAGREE = s.rd K.XBAR_DISAGREE := by
  have hu : PlanesOnly s (s.choosing d src none none) := choosing_planesOnly d src (by rintro x y ⟨⟩)
  have hlow : row < 4320 := Nat.lt_of_lt_of_le hrow (fmtSize_height_le _)
  have hheld : (s.choosing d src none none).heldWords d (s.portFmt d src) row seg = s.heldWords d (s.portFmt d src) row seg := by
    unfold State.heldWords
    rw [hu.vec _ (xbRow_ne hd (Nat.lt_of_lt_of_le (rowBefore_lt _ hrow) (fmtSize_height_le _))).1]
  obtain ⟨hvec, hlost, hdis⟩ := segmentTaken_of_taken hd hrow (taken_neither _ d src _) ((planesOnly_refl _).raiseLim 2601 0x7004 0x1A01 (fun k => (src, k)))
  refine ⟨?_, ?_, ?_⟩
  · rw [RowTakes, hvec, hheld]
    exact congrArg (fun r => splice r _ _) (hu.vec _ (xbRow_ne hd hlow).1)
  · rw [hlost, rd_countFrame_self, hu.rd _ (not_planeReg_segments (.inl rfl))]
  · rw [hdis, rd_countFrame_ne _ (by decide), hu.rd _ (not_planeReg_segments (.inr rfl))]

end

/-! ## Registers and events -/

/-- Nothing changed. -/
theorem onlyRegisters_refl (s : State) : OnlyRegisters s s :=
  ⟨storesKept_refl s, fun _ => rfl, rfl, rfl, rfl, rfl, rfl, rfl, rfl, rfl, rfl, rfl⟩

/-- Writing a register differs in nothing but registers. -/
theorem OnlyRegisters.wr {s t : State} (h : OnlyRegisters s t) (k v : Nat) : OnlyRegisters s (t.wr k v) :=
  ⟨(storesKept_kept s).wr t k v h.toStoresKept, h.vec, h.tx, h.cache, h.subs, h.notes, h.done, h.spiTx, h.spiOut, h.nu, h.bursts, h.freeCtr⟩

/-- Raising an event differs in nothing but events. -/
theorem OnlyRegisters.raise {s t : State} (h : OnlyRegisters s t) (code src a1 a2 : Nat) : OnlyRegisters s (t.raise code src a1 a2) :=
  ⟨(storesKept_kept s).raised t _ h.toStoresKept, h.vec, h.tx, h.cache, h.subs, h.notes, h.done, h.spiTx, h.spiOut, h.nu, h.bursts, h.freeCtr⟩

/-- An event raised is the last of those a state holds. -/
theorem raisedOf_raise (s : State) (code src a1 a2 : Nat) :
    raisedOf (s.raise code src a1 a2) = raisedOf s ++ [(code, src, a1 % 2 ^ 32, a2 % 2 ^ 32)] := by simp [raisedOf, State.raise]

/-! ## A plane that returns -/

section
variable {s : State} {p : Fin 2} {d : Fin 72}

/-- A plane that does not return is asked for no frame. -/
theorem planeReturnFrame_idle (h : s.rd (planeKey p.val) ≠ 3) : Idles (.planeReturnFrame p d) s := if_pos h

/-- A frame of a returned plane is noted, and the plane is in service where that was the last one. -/
theorem exec_planeReturnFrame (h : s.rd (planeKey p.val) = 3) : exec (.planeReturnFrame p d) s =
    .next ((s.wr (H.xbRet p.val) (s.rd (H.xbRet p.val) ||| 2 ^ d.val)).planeBack p.val).protSync := if_neg (by simp [h])

/-- A destination is missing. -/
theorem planeReturnFrame_missing (h : s.rd (planeKey p.val) = 3)
    (hmiss : ∃ x ∈ s.liveDests, (s.rd (H.xbRet p.val) ||| 2 ^ d.val).testBit x = false) :
    Settles (.planeReturnFrame p d) s [(H.xbRet p.val, s.rd (H.xbRet p.val) ||| 2 ^ d.val)] [] := by
  refine ⟨s.wr (H.xbRet p.val) (s.rd (H.xbRet p.val) ||| 2 ^ d.val), ?_, ?_, ?_, ?_, (onlyRegisters_refl s).wr ..⟩
  · rw [exec_planeReturnFrame h, planeBack_of_missing]
    rwa [liveDests_wr _ _ (not_streamReg_xbRet p.isLt), State.rd_wr_self]
  · simp
  · intro k hk
    exact State.rd_wr_ne _ _ (by simpa using hk)
  · simp [raisedOf]

/-- Every destination has had its frame. -/
theorem planeReturnFrame_all (h : s.rd (planeKey p.val) = 3)
    (hall : ∀ x ∈ s.liveDests, (s.rd (H.xbRet p.val) ||| 2 ^ d.val).testBit x = true) :
    Settles (.planeReturnFrame p d) s [(H.xbRet p.val, s.rd (H.xbRet p.val) ||| 2 ^ d.val), (planeKey p.val, 0)]
      [(0x7002, 0x1A01, p.val, 0)] := by
  have hne := planeKey_ne_xbRet p.val p.val
  refine ⟨((s.wr (H.xbRet p.val) (s.rd (H.xbRet p.val) ||| 2 ^ d.val)).wr (planeKey p.val) 0).raise 0x7002 0x1A01 p.val 0,
    ?_, ?_, ?_, ?_, (((onlyRegisters_refl s).wr ..).wr ..).raise ..⟩
  · rw [exec_planeReturnFrame h, planeBack_of_all]
    · rwa [State.rd_wr_ne _ _ hne]
    · rwa [liveDests_wr _ _ (not_streamReg_xbRet p.isLt), State.rd_wr_self]
  · simp [State.rd_wr_ne _ _ hne.symm]
  · intro k hk
    simp only [List.map_cons, List.map_nil, List.mem_cons, List.not_mem_nil, or_false, not_or] at hk
    rw [State.rd_raise, State.rd_wr_ne _ _ hk.2, State.rd_wr_ne _ _ hk.1]
  · have hp : p.val % 2 ^ 32 = p.val := Nat.mod_eq_of_lt (by omega)
    rw [raisedOf_raise, hp]
    simp [raisedOf]

end

/-! ## A retest -/

/-- The registers of a write that asks for no warm reset are those its effect leaves, but for CFG_SEQ. -/
theorem wrote_rd {s : State} {q : Req} {i key k : Nat} {f : State → State} (hw : (f (arrived q i s)).rd H.warmPend ≠ 1)
    (hk : k ≠ K.IDENT_CFG_SEQ) : (wrote s q i key f).rd k = (f (arrived q i s)).rd k := by
  have hne : H.warmPend ≠ K.IDENT_CFG_SEQ := by decide
  simp only [wrote]
  rw [afterAnswer_none, replied_rd, State.inc, State.up, State.rd_wr_ne _ _ hk]
  rwa [replied_rd, State.inc, State.up, State.rd_wr_ne _ _ hne]

section
variable {s : State} {q : Req} {i v : Nat}

/-- An arrival leaves STATE of the planes. -/
theorem arrived_planeKey (q : Req) (i : Nat) (s : State) (p : Nat) : (arrived q i s).rd (planeKey p) = s.rd (planeKey p) := by
  refine arrived_rd s q i _ (fun hmem => ?_)
  simp only [arrivalKeys, List.mem_cons, List.not_mem_nil, or_false, planeKey, K.XBAR_XBA_STATE, K.XBAR_XBB_STATE, K.SESS_PORT, K.SESS_ADDR,
    K.SESS_UDP, K.SESS_LAST_SEQ, H.sessOwn, H.lastReq, H.sessMute, H.warmPend, H.hk, K.at'] at hmem
  split at hmem <;> omega

/-- A retest of a plane that has not FAILED is BUSY. -/
theorem xbarRetest_busy (h : Serves s q i) (hr : holds (s.rd (K.SESS_RIGHTS i)) 2 = true) (hv : v ≤ 1) (hst : s.rd (planeKey v) ≠ 1) :
    exec (.xbarRetest q v) s = .next (declined s q i K.XBAR_RETEST 5 [] id) := by
  refine put_declined (hd := 0) h (by decide) locate_retest (.inr rfl) hr ?_ (by decide) (retest_admits hv) ?_ [] id ?_ (by decide) (by decide) ?_
  · exact Nat.lt_of_le_of_lt hv (by decide)
  · exact Bool.or_true _
  · rw [writeEffect_retest, xbarRetestWrite, arrived_planeKey, if_pos hst]
    rfl
  · rw [id, arrived_warmPend s q (slot_le h.named)]
    decide

/-- A retested plane returns. -/
theorem xbarRetest_returns (h : Serves s q i) (hr : holds (s.rd (K.SESS_RIGHTS i)) 2 = true) (hv : v ≤ 1) (hst : s.rd (planeKey v) = 1) :
    exec (.xbarRetest q v) s = .next (wrote s q i K.XBAR_RETEST (fun m => ((m.wr K.XBAR_RETEST v).planeReturn v).protSync)) := by
  refine (put_wrote h (by decide) locate_retest (.inr rfl) hr ?_ (by decide) (retest_admits hv) ?_ []
    (fun m => ((m.wr K.XBAR_RETEST v).planeReturn v).protSync) ?_).trans ?_
  · exact Nat.lt_of_le_of_lt hv (by decide)
  · exact Bool.or_true _
  · rw [writeEffect_retest, xbarRetestWrite, arrived_planeKey, if_neg (by simp [hst])]
    rfl
  · exact congrArg (fun f => Host.Outcome.next (wrote s q i K.XBAR_RETEST f)) (funext fun m => retest_listed m v)

/-- While some destination takes a stream, a retested plane is RETURNING. -/
theorem xbarRetest_returning (h : Serves s q i) (hr : holds (s.rd (K.SESS_RIGHTS i)) 2 = true) (hv : v ≤ 1) (hst : s.rd (planeKey v) = 1)
    (hlive : s.liveDests ≠ []) : Ends (.xbarRetest q v) s (fun t => t.rd (planeKey v) = 3) := by
  have hi := slot_le h.named
  have hsilent : ProtSilent (planeKey v) := protSilent_of_lt (by unfold planeKey; split <;> decide)
  have hlive' : ((arrived q i s).wr K.XBAR_RETEST v).liveDests ≠ [] := by
    rwa [liveDests_wr _ _ (not_streamReg_planes v).2, arrived_liveDests q hi]
  refine ⟨_, xbarRetest_returns h hr hv hst, ?_⟩
  show (wrote ..).rd (planeKey v) = 3
  rw [wrote_rd]
  · rw [protSync_rd _ hsilent, planeReturn_eq (by omega) hlive', State.rd_setVec, State.rd_wr_ne _ _ (planeKey_ne_xbRet v v), State.rd_wr_self]
  · have hkey : H.warmPend ≠ planeKey v := by unfold planeKey; split <;> decide
    have hret : H.warmPend ≠ H.xbRet v := by simp only [H.warmPend, H.xbRet, H.hk]; omega
    rw [protSync_rd _ protSilent_warmPend, planeReturn_rd _ _ hkey hret, State.rd_wr_ne _ _ (by decide), arrived_warmPend s q hi]
    decide
  · unfold planeKey; split <;> decide

end

/-- Settles O48, by what the two copies of a segment are; a plane's frames and retests by its STATE. -/
theorem crossbarTakesGoodCopies : Obligations.CrossbarTakesGoodCopies := by
  intro d s
  refine ⟨fun row seg a b => ?_, fun p => ⟨planeReturnFrame_idle, planeReturnFrame_missing, planeReturnFrame_all⟩,
    fun q i v h hr hv => ⟨xbarRetest_busy h hr hv, fun hst => ⟨xbarRetest_returns h hr hv hst, xbarRetest_returning h hr hv hst⟩⟩⟩
  have hquiet : segmentReceived d row seg a b s = .next s → exec (.segmentReceived d row seg a b) s = .next s.protSync :=
    fun he => congrArg withProt he
  intro c settles
  refine ⟨fun h => hquiet (segmentReceived_noSource h ..), fun src h => ?_⟩
  intro f sz n copy k holds' same more
  refine ⟨fun p => ⟨fun hp x => segCopy_off hp .., segCopy_none .., fun hp => segCopy_unchanged hp ..⟩,
    fun hout => hquiet (segmentReceived_outside h hout ..), fun hrow hseg => ⟨?_, ?_, ?_, ?_, ?_⟩⟩
  · intro l ha hb
    obtain ⟨hvec, ⟨hlost, hdis⟩, hev⟩ := segment_equal (seg := seg) d.isLt hrow l
    exact exec_segment_inside h hrow hseg ha hb ⟨hvec, hlost, hdis, hev⟩
  · intro l ha hb
    exact exec_segment_inside h hrow hseg ha hb (segment_alone d.isLt hrow (.inl ⟨rfl, rfl⟩))
  · intro l ha hb
    exact exec_segment_inside h hrow hseg ha hb (segment_alone d.isLt hrow (.inr ⟨rfl, rfl⟩))
  · intro l m ha hb hne
    obtain ⟨hvec, hlost, hdis⟩ := segment_differ (seg := seg) d.isLt hrow hne
    refine exec_segment_inside h hrow hseg ha hb ⟨?_, fun h0 => ?_, fun h1 => ?_, hlost, fun hfree => ?_, fun hfree => ?_⟩
    · split at hvec
      · exact .inl hvec
      · exact .inr hvec
    · rwa [choosing_firstPlane (by omega), if_pos h0] at hvec
    · rwa [choosing_firstPlane (by omega), if_neg (by omega)] at hvec
    · rwa [if_pos hfree] at hdis
    · rwa [if_neg (by simp [hfree])] at hdis
  · intro ha hb
    obtain ⟨hvec, hlost, hdis⟩ := segment_neither (seg := seg) d.isLt hrow
    exact exec_segment_inside h hrow hseg ha hb ⟨hlost, hdis, hvec⟩

end Sys2Proof
end

section
/-! SUPPORT. What the commands that leave the stores alone keep, and the commands of the commit machinery and of the frame store. -/
namespace Sys2Proof.Machine

/-- A command that leaves the stores alone keeps what writes of registers, lists and bookkeeping keep. -/
theorem exec_keeps_of_keepsStores {P : State → Prop} (hP : Kept P) {c : Instr} (hc : keepsStores c = true) {s : State} (h : P s) :
    onOut P (exec c s) := by
  cases c with
  | notify _ _ => exact execNotify_keeps hP h
  | notifyRetry _ _ => exact execNotifyRetry_keeps hP h
  | sessionTimeout _ => exact execSessionTimeout_keeps hP h
  | resumeWindowExpiry _ => exact execResumeWindowExpiry_keeps hP h
  | replayExpiry => exact execReplayExpiry_keeps hP h
  | spiStatus => exact execSpiStatus_keeps hP h
  | spiReadMsg _ => exact execSpiReadMsg_keeps hP h
  | spiBadCommand => exact execSpiBadCommand_keeps hP h
  | triggerHoldoffEnd _ => exact execTriggerHoldoffEnd_keeps hP h
  | gsynRateChange _ _ => exact execGsynRateChange_keeps hP h
  | refSignalDetected _ _ _ _ _ => exact execRefSignalDetected_keeps hP h
  | refLossOfSignal _ => exact execRefLossOfSignal_keeps hP h
  | qualTimeExpiry _ => exact execQualTimeExpiry_keeps hP h
  | wtrExpiry _ => exact execWtrExpiry_keeps hP h
  | refMeasurement _ => exact execRefMeasurement_keeps hP h
  | selectorEvaluation _ _ => exact execSelectorEvaluation_keeps hP h
  | lockHoldExpiry _ => exact execLockHoldExpiry_keeps hP h
  | phaseMeasurement _ _ => exact execPhaseMeasurement_keeps hP h
  | ptpSync _ _ _ _ => exact execPtpSync_keeps hP h
  | ptpAnnounce _ _ _ _ _ _ _ _ _ _ _ _ => exact execPtpAnnounce_keeps hP h
  | ptpAnnounceTimeout _ => exact execPtpAnnounceTimeout_keeps hP h
  | ppsInEdge => exact execPpsInEdge_keeps hP h
  | ppsOutSecond => exact execPpsOutSecond_keeps hP h
  | gsynBandSearch _ _ _ => exact execGsynBandSearch_keeps hP h
  | gsynLock _ _ _ => exact execGsynLock_keeps hP h
  | gsynLol _ _ => exact execGsynLol_keeps hP h
  | pllLol _ _ => exact execPllLol_keeps hP h
  | relockTimeout _ => exact execRelockTimeout_keeps hP h
  | slewDone _ => exact execSlewDone_keeps hP h
  | rampSegmentEnd _ => exact execRampSegmentEnd_keeps hP h
  | divsyncEdge _ => exact execDivsyncEdge_keeps hP h
  | outGeneratorStart _ _ => exact execOutGeneratorStart_keeps hP h
  | lineStart _ _ _ _ => exact execLineStart_keeps hP h
  | frameDone _ => exact execFrameDone_keeps hP h
  | fetchCompletion _ _ => exact execFetchCompletion_keeps hP h
  | rxEnergyPresent _ => exact execRxEnergyPresent_keeps hP h
  | rxEnergyLost _ => exact execRxEnergyLost_keeps hP h
  | cdrLock _ _ => exact execCdrLock_keeps hP h
  | cdrDwellExpiry _ => exact execCdrDwellExpiry_keeps hP h
  | cdrUnlock _ => exact execCdrUnlock_keeps hP h
  | trsAligned _ _ _ _ => exact execTrsAligned_keeps hP h
  | rxFrameMeasured _ _ => exact execRxFrameMeasured_keeps hP h
  | rxTrsLoss _ => exact execRxTrsLoss_keeps hP h
  | rxIntervalLatch _ => exact execRxIntervalLatch_keeps hP h
  | bracketRevert _ => exact execBracketRevert_keeps hP h
  | bracketTakeover _ _ => exact execBracketTakeover_keeps hP h
  | slateAutoClear _ => exact execSlateAutoClear_keeps hP h
  | segmentReceived _ _ _ _ _ => exact execSegmentReceived_keeps hP h
  | planeReturnFrame _ _ => exact execPlaneReturnFrame_keeps hP h
  | burstGrant _ _ => exact execBurstGrant_keeps hP h
  | lockTimeout _ => exact execLockTimeout_keeps hP h
  | pcRebuildDone _ _ => exact execPcRebuildDone_keeps hP h
  | proofSignature _ => exact execProofSignature_keeps hP h
  | motionEstimation _ _ _ => exact execMotionEstimation_keeps hP h
  | cadenceFrame _ _ _ => exact execCadenceFrame_keeps hP h
  | audioPacket _ _ => exact execAudioPacket_keeps hP h
  | channelAbsent _ _ => exact execChannelAbsent_keeps hP h
  | audioSample _ _ => exact execAudioSample_keeps hP h
  | asrcRecover _ => exact execAsrcRecover_keeps hP h
  | audioSlewEnd _ => exact execAudioSlewEnd_keeps hP h
  | nonpcmEnd _ _ => exact execNonpcmEnd_keeps hP h
  | nonpcmForcedSwitch _ => exact execNonpcmForcedSwitch_keeps hP h
  | clusterFault _ _ => exact execClusterFault_keeps hP h
  | lineWatchdogExpiry _ => exact execLineWatchdogExpiry_keeps hP h
  | failover _ => exact execFailover_keeps hP h
  | retestDone _ _ => exact execRetestDone_keeps hP h
  | selfTestDone _ _ => exact execSelfTestDone_keeps hP h
  | rotationPeriod => exact execRotationPeriod_keeps hP h
  | rotationCompare _ => exact execRotationCompare_keeps hP h
  | rotationMove _ => exact execRotationMove_keeps hP h
  | mgmtFault => exact execMgmtFault_keeps hP h
  | mgmtWatchdogExpiry => exact execMgmtWatchdogExpiry_keeps hP h
  | mgmtSwitchover => exact execMgmtSwitchover_keeps hP h
  | imageLoad _ _ _ _ => exact execImageLoad_keeps hP h
  | domainReady _ => exact execDomainReady_keeps hP h
  | funcReady _ _ => exact execFuncReady_keeps hP h
  | negPostDone => exact execNegPostDone_keeps hP h
  | negPrintStart => exact execNegPrintStart_keeps hP h
  | eventOutPulseEnd _ => exact execEventOutPulseEnd_keeps hP h
  | ctlLink _ _ => exact execCtlLink_keeps hP h
  | resetRelease => exact execResetRelease_keeps hP h
  | domainOff _ => exact execDomainOff_keeps hP h
  | fwVerifyDone _ _ => exact execFwVerifyDone_keeps hP h
  | ppsOutWidthEnd => exact execPpsOutWidthEnd_keeps hP h
  | gpioInputLevel _ _ => exact execGpioInputLevel_keeps hP h
  | refPhaseEvent _ _ => exact execRefPhaseEvent_keeps hP h
  | canvasDevelopment _ => exact execCanvasDevelopment_keeps hP h
  | _ => cases hc

/-- A command of the commit machinery keeps what in addition changes of the committed stage keep. -/
theorem exec_keeps_of_keepsBytes {P : State → Prop} (hP : Kept P) (hC : KeptCom P) {c : Instr} (hc : keepsBytes c = true) {s : State}
    (h : P s) : onOut P (exec c s) := by
  cases c with
  | commitAtTimeReached _ => exact execCommitAtTimeReached_keeps hP hC h
  | salvoTrigger _ => exact execSalvoTrigger_keeps hP hC h
  | developmentPoint _ => exact execDevelopmentPoint_keeps hP hC h
  | gsynDevelopment _ _ => exact execGsynDevelopment_keeps hP hC h
  | switchLine _ _ => exact execSwitchLine_keeps hP hC h
  | frcSwitchLine _ _ => exact execFrcSwitchLine_keeps hP hC h
  | frcDevelopment _ => exact execFrcDevelopment_keeps hP hC h
  | _ => cases hc

/-- A command of the frame store keeps what in addition writes of its bytes keep. -/
theorem exec_keeps_of_writesMemory {P : State → Prop} (hP : Kept P) (hM : KeptMem P) {c : Instr} (hc : writesMemory c = true) {s : State}
    (h : P s) : onOut P (exec c s) := by
  cases c with
  | rxLine _ _ _ _ _ _ _ => exact execRxLine_keeps hP hM h
  | ancPacket _ _ => exact execAncPacket_keeps hP hM h
  | rxSwitchLineStamp _ _ _ => exact execRxSwitchLineStamp_keeps hP hM h
  | burstCompletion _ _ => exact execBurstCompletion_keeps hP hM h
  | masterDrain _ _ => exact execMasterDrain_keeps hP hM h
  | scrub _ _ _ => exact execScrub_keeps hP hM h
  | pcFail _ _ _ => exact execPcFail_keeps hP hM h
  | mirrorSynced _ => exact execMirrorSynced_keeps hP hM h
  | wbDone _ => exact execWbDone_keeps hP hM h
  | cstLineComplete _ _ => exact execCstLineComplete_keeps hP hM h
  | _ => cases hc

/-- Bytes and Latent sets are as in s. -/
def BytesKept (s t : State) : Prop := (∀ a, t.rdMem a = s.rdMem a) ∧ (∀ a, t.rdFlash a = s.rdFlash a) ∧ t.lat = s.lat

/-- That bytes and Latent sets are as in s is kept by every update of registers, lists and bookkeeping. -/
theorem bytesKept_kept (s : State) : Kept (BytesKept s) := by
  constructor <;> (intros; rename_i h; exact h)

/-- The committed stage does not reach bytes or Latent sets. -/
theorem bytesKept_keptCom (s : State) : KeptCom (BytesKept s) := ⟨fun _ _ => id, fun _ _ => id⟩

/-- Flash, Latent sets and committed stage are as in s. -/
def OthersKept (s t : State) : Prop := (∀ a, t.rdFlash a = s.rdFlash a) ∧ t.lat = s.lat ∧ t.com = s.com ∧ t.due = s.due

/-- That flash, Latent sets and committed stage are as in s is kept by every update of registers, lists and bookkeeping. -/
theorem othersKept_kept (s : State) : Kept (OthersKept s) := by
  constructor <;> (intros; rename_i h; exact h)

/-- A byte of the frame store lies in none of them. -/
theorem othersKept_keptMem (s : State) : KeptMem (OthersKept s) := ⟨fun _ _ _ => id⟩

end Sys2Proof.Machine
end

section
/-! ResetCanonical and CommandsKeepStores. -/
namespace Sys2Proof

open Machine

/-- Settles O4: after reset nothing is listed. -/
theorem resetCanonical : Obligations.ResetCanonical := rfl

/-- Settles O8, by what the updates that each kind of command is made of keep. -/
theorem commandsKeepStores : Obligations.CommandsKeepStores := by
  intro c s t hex
  have out {P : State → Prop} (h : onOut P (exec c s)) : P t := by rwa [hex] at h
  exact ⟨fun hc => out (exec_keeps_of_keepsStores (storesKept_kept s) hc (storesKept_refl s)),
    fun hc => out (exec_keeps_of_keepsBytes (bytesKept_kept s) (bytesKept_keptCom s) hc ⟨fun _ => rfl, fun _ => rfl, rfl⟩),
    fun hc => out (exec_keeps_of_writesMemory (othersKept_kept s) (othersKept_keptMem s) hc ⟨fun _ => rfl, rfl, rfl, rfl⟩)⟩

end Sys2Proof
end

section
/-! SUPPORT. A served request whose operation answers, by what the operation answers; what an arrival leaves alone; messages sent. -/
namespace Sys2Proof

open Machine

/-! ## What an arrival leaves alone -/

/-- An object outside the session records is no register of an arrival. -/
theorem arrived_obj (s : State) (q : Req) {i k : Nat} (hi : i ≤ 16) (hk : k < 0x111000 ∨ 0x112100 ≤ k) (hobj : k < 2 ^ 24) :
    (arrived q i s).rd k = s.rd k := by
  refine arrived_rd s q i k (fun hmem => ?_)
  simp only [arrivalKeys, List.mem_cons, List.not_mem_nil, or_false, K.SESS_PORT, K.SESS_ADDR, K.SESS_UDP, K.SESS_LAST_SEQ, H.sessOwn, H.lastReq,
    H.sessMute, H.warmPend, H.hk, K.at'] at hmem
  omega

/-- An arrival leaves the rights of its session. -/
theorem arrived_rights (s : State) (q : Req) (i : Nat) : (arrived q i s).rd (K.SESS_RIGHTS i) = s.rd (K.SESS_RIGHTS i) := by
  refine arrived_rd s q i _ (fun hmem => ?_)
  simp only [arrivalKeys, List.mem_cons, List.not_mem_nil, or_false, K.SESS_PORT, K.SESS_ADDR, K.SESS_UDP, K.SESS_LAST_SEQ, K.SESS_RIGHTS, H.sessOwn,
    H.lastReq, H.sessMute, H.warmPend, H.hk, K.at'] at hmem
  omega

/-- An arrival leaves the generation of its session. -/
theorem arrived_gen (s : State) (q : Req) (i : Nat) : (arrived q i s).rd (K.SESS_GEN i) = s.rd (K.SESS_GEN i) := by
  refine arrived_rd s q i _ (fun hmem => ?_)
  simp only [arrivalKeys, List.mem_cons, List.not_mem_nil, or_false, K.SESS_PORT, K.SESS_ADDR, K.SESS_UDP, K.SESS_LAST_SEQ, K.SESS_GEN, H.sessOwn,
    H.lastReq, H.sessMute, H.warmPend, H.hk, K.at'] at hmem
  omega

/-- An arrival leaves RECOVERY. -/
theorem arrived_recov (s : State) (q : Req) {i : Nat} (hi : i ≤ 16) : (arrived q i s).rd H.recov = s.rd H.recov := by
  refine arrived_rd s q i _ (fun hmem => ?_)
  simp only [arrivalKeys, List.mem_cons, List.not_mem_nil, or_false, K.SESS_PORT, K.SESS_ADDR, K.SESS_UDP, K.SESS_LAST_SEQ, H.sessOwn, H.lastReq,
    H.sessMute, H.warmPend, H.hk, K.at', H.recov] at hmem
  omega

/-- An arrival takes no time. -/
theorem arrived_now (s : State) (q : Req) {i : Nat} (hi : i ≤ 16) : (arrived q i s).now = s.now := by
  refine arrived_rd s q i _ (fun hmem => ?_)
  simp only [arrivalKeys, List.mem_cons, List.not_mem_nil, or_false, K.SESS_PORT, K.SESS_ADDR, K.SESS_UDP, K.SESS_LAST_SEQ, H.sessOwn, H.lastReq,
    H.sessMute, H.warmPend, H.hk, K.at', H.now] at hmem
  omega

/-- Writes of registers change nothing but registers. -/
theorem wrs_eq_reg (l : List (Nat × Nat)) (s : State) : s.wrs l = { s with reg := (s.wrs l).reg } := by
  induction l generalizing s with
  | nil => rfl
  | cons p t ih => exact ih (s.wr p.1 p.2)

/-- An arrival changes nothing but registers. -/
theorem arrived_eq_reg (s : State) (q : Req) (i : Nat) : arrived q i s = { s with reg := (arrived q i s).reg } := by
  simp only [arrived, State.wr]
  rw [wrs_eq_reg]

/-- An arrival leaves the stores. -/
theorem storesKept_arrived (s : State) (q : Req) (i : Nat) : StoresKept s (arrived q i s) := by
  rw [arrived_eq_reg]
  exact ⟨fun _ => rfl, fun _ => rfl, rfl, rfl, rfl, rfl⟩

/-- An arrival raises no event. -/
theorem arrived_raised (s : State) (q : Req) (i : Nat) : (arrived q i s).raised = s.raised := by rw [arrived_eq_reg]

/-! ## Messages -/

/-- A message that is sent leaves a property of the state to which messages do not matter. -/
theorem send_keeps_of {P : State → Prop} (htx : ∀ s x, P s → P { s with tx := x }) (hspi : ∀ s x, P s → P { s with spiTx := x }) {s : State}
    (m : Msg) (h : P s) : P (s.send m) := by
  unfold State.send
  split
  · exact hspi _ _ h
  · split
    · exact htx _ _ h
    · exact h

/-- Messages that are sent change no register. -/
theorem foldl_send_rd (l : List Msg) (s : State) (k : Nat) : (l.foldl State.send s).rd k = s.rd k :=
  foldl_keeps (P := fun t : State => t.rd k = s.rd k) l (fun t m h => (send_rd t m k).trans h) rfl

/-- Messages that are sent raise no event. -/
theorem foldl_send_raised (l : List Msg) (s : State) : (l.foldl State.send s).raised = s.raised :=
  foldl_keeps (P := fun t : State => t.raised = s.raised) l (fun _ m h => send_keeps_of (P := fun t => t.raised = s.raised) (fun _ _ => id) (fun _ _ => id) m h) rfl

/-- An answer raises no event. -/
theorem replied_raised (s m : State) (q : Req) (i op st : Nat) (p : List Nat) : (replied s q i op st p m).raised = m.raised :=
  send_keeps_of (P := fun t => t.raised = m.raised) (fun _ _ => id) (fun _ _ => id) _ rfl

/-- An answer leaves the stores as they are. -/
theorem storesKept_replied {s m : State} (t : State) (q : Req) (i op st : Nat) (p : List Nat) (h : StoresKept s m) :
    StoresKept s (replied t q i op st p m) :=
  send_keeps_of (storesKept_kept s).tx (storesKept_kept s).spiTx _ ((storesKept_kept s).cache _ _ h)

/-- A port that is up sends every message given to it. -/
theorem foldl_send_up {s : State} {p : Nat} (hp : p < 2) (hup : s.rd (K.PD_STATE (3 + p)) = 3 ∧ s.rd (K.CTL_ENABLE p) = 1) {l : List Msg}
    (hl : ∀ m ∈ l, m.port = p) : l.foldl State.send s = { s with tx := s.tx ++ l } := by
  induction l generalizing s with
  | nil => simp
  | cons m t ih =>
    have hm : m.port = p := hl m (List.mem_cons_self ..)
    have hsend : s.send m = { s with tx := s.tx ++ [m] } := by
      simp [State.send, State.pdReady, hm, hup.1, hup.2, show p ≠ 2 by omega]
    rw [List.foldl_cons, hsend, ih (s := { s with tx := s.tx ++ [m] }) hup (fun n hn => hl n (List.mem_cons_of_mem _ hn))]
    simp

/-- The messages of an answer go back by the request's port, with its SEQ, OP and the answer's STATUS. -/
theorem mem_answerMsgs {q : Req} {op gen session st : Nat} {parts : List (List Nat)} {m : Msg} (h : m ∈ answerMsgs q op gen session st parts) :
    m.port = q.port ∧ m.op = op ∧ m.status = st ∧ m.seq = q.seq := by
  induction parts with
  | nil => cases h
  | cons p t ih =>
    cases t with
    | nil =>
      obtain rfl := List.mem_singleton.1 h
      exact ⟨rfl, rfl, rfl, rfl⟩
    | cons p' t' =>
      obtain rfl | h := List.mem_cons.1 h
      · exact ⟨rfl, rfl, rfl, rfl⟩
      · exact ih h

/-- The messages of an answer carry its parts. -/
theorem answerMsgs_payloads (q : Req) (op gen session st : Nat) (parts : List (List Nat)) :
    (answerMsgs q op gen session st parts).map Msg.payload = parts := by
  induction parts with
  | nil => rfl
  | cons p t ih =>
    cases t with
    | nil => rfl
    | cons p' t' => exact congrArg (p :: ·) ih

/-! ## A served request -/

section
variable {s : State} {q : Req} {i op : Nat}

/-- For a served session every object of the dictionary is there. -/
theorem Serves.findObj (h : Serves s q i) (k : Nat) : (arrived q i s).findObj k = locate k := by
  have hrec : (arrived q i s).rd H.recov ≠ 1 := by rw [arrived_recov s q (slot_le h.named)]; exact h.normal
  exact if_neg (fun hc => hrec hc.1)

/-- A served request whose operation answers with several datagrams. -/
theorem Serves.answers (h : Serves s q i) (hq : LenOk q) (hop : opKnown op = true) (h1 : op ≠ 1) (hmin : minPayload op q ≤ q.payload.length)
    {x : List Int} {st : Nat} {parts : List (List Nat)} {m : State} (hr : (arrived q i s).perform i op q x = ⟨st, parts, m, none⟩)
    (hw : m.rd H.warmPend ≠ 1) :
    let ans := answerMsgs q op (s.rd (K.SESS_GEN i)) ((arrived q i s).sid i) st parts
    recv op q x s = .next (ans.foldl State.send (m.remember ⟨i, q.addr, q.udp, q.seq, ans, s.now⟩)) := by
  intro ans
  show Host.Outcome.next (s.arrive op q x) = _
  rw [arrive_serves h hq hop h1 (by omega) x]
  simp only [State.runNew, arrived_eq, hr, arrived_gen, arrived_now s q (slot_le h.named)]
  rw [afterAnswer_none]
  rwa [foldl_send_rd, remember_rd]

/-- A served request whose operation answers with one datagram. -/
theorem Serves.answer (h : Serves s q i) (hq : LenOk q) (hop : opKnown op = true) (h1 : op ≠ 1) (hmin : minPayload op q ≤ q.payload.length)
    {x : List Int} {st : Nat} {p : List Nat} {m : State} (hr : (arrived q i s).perform i op q x = ⟨st, [p], m, none⟩) :
    recv op q x s = .next (replied s q i op st p m).afterAnswer := by
  show Host.Outcome.next (s.arrive op q x) = _
  rw [arrive_serves h hq hop h1 (by omega) x, runNew_eq (slot_le h.named) x _ p hr rfl rfl]

/-- A served request that asks for no warm reset. -/
theorem Serves.answer_quiet (h : Serves s q i) (hq : LenOk q) (hop : opKnown op = true) (h1 : op ≠ 1) (hmin : minPayload op q ≤ q.payload.length)
    {x : List Int} {st : Nat} {p : List Nat} {m : State} (hr : (arrived q i s).perform i op q x = ⟨st, [p], m, none⟩)
    (hw : m.rd H.warmPend ≠ 1) : recv op q x s = .next (replied s q i op st p m) := by
  rw [h.answer hq hop h1 hmin hr, afterAnswer_none]
  rwa [replied_rd]

/-- An arrival asks for no warm reset. -/
theorem Serves.quiet (h : Serves s q i) : (arrived q i s).rd H.warmPend ≠ 1 := by
  rw [arrived_warmPend s q (slot_le h.named)]; decide

end

end Sys2Proof
end

section
/-! ReadReturnsValue: READ by what one object's reading answers, BLOCK_READ by the members' bytes and their cut into datagrams. -/
namespace Sys2Proof

open Machine

/-! ## READ (R37, R40, R41, R56) -/

section
variable {s : State} {q : Req} {i : Nat}

/-- A READ is answered with what reading its object answers, and marks no buffer outside the window. -/
theorem read_answers (h : Serves s q i) (hq : LenOk q) (h4 : 4 ≤ q.payload.length) {st : Nat} {b : List Nat}
    (hr : (arrived q i s).readOne (s.rd (K.SESS_RIGHTS i)) (fld q.payload 0 3) (q.flags.testBit 0) = (st, b))
    (hwin : st ≠ 0 ∨ fld q.payload 0 3 / 256 ≠ 0x6811) :
    exec (.read q) s = .next (replied s q i 0x10 st (q.payload.take 4 ++ b) (arrived q i s)) := by
  refine h.answer_quiet (op := 0x10) (x := []) hq (by decide) (by decide) h4 ?_ h.quiet
  have hsame : (if st = 0 then (arrived q i s).winSeen (fld q.payload 0 3 / 256) (fld q.payload 0 3 % 256) (fld q.payload 0 3 % 256)
      else arrived q i s) = arrived q i s := by
    obtain hst | hidx := hwin
    · exact if_neg hst
    · simp [State.winSeen, winRange, hidx]
  show (arrived q i s).opRead i q = _
  simp only [State.opRead, arrived_rights, hr, hsame]

/-- An object the session may read, outside the window. -/
theorem readOne_value (h : Serves s q i) {rights k : Nat} {l : Loc} (hl : locate k = some l) (hr : holds rights l.row.rd = true)
    (hidx : k / 256 ≠ 0x6811) (latent : Bool) :
    (arrived q i s).readOne rights k latent = (0, bytesBE l.row.ty.size ((arrived q i s).readVal l k latent)) := by
  simp [State.readOne, h.findObj, hl, hr, winRange, hidx, State.readBytes]

/-- An object the session may not read. -/
theorem readOne_denied (h : Serves s q i) {rights k : Nat} {l : Loc} (hl : locate k = some l) (hr : holds rights l.row.rd = false)
    (latent : Bool) : (arrived q i s).readOne rights k latent = (2, []) := by
  simp [State.readOne, h.findObj, hl, hr]

/-- An address without an object. -/
theorem readOne_absent (h : Serves s q i) {rights k : Nat} (hl : locate k = none) (latent : Bool) :
    (arrived q i s).readOne rights k latent = (absent rights k, []) := by
  simp [State.readOne, h.findObj, hl]

/-- No absent address is answered OK. -/
theorem absent_ne_zero (rights k : Nat) : absent rights k ≠ 0 := by
  unfold absent
  split <;> decide

end

/-! ## The cut into datagrams (R70) -/

/-- What the cut does with the next member: it joins the datagram begun last, or begins one. -/
def splitStep (acc : List (Nat × Nat × List Nat) × Nat) (b : List Nat) : List (Nat × Nat × List Nat) × Nat :=
  match acc.1 with
  | (f, g, cur) :: t =>
    if cur.length + b.length ≤ 1396 then ((f, acc.2, cur ++ b) :: t, acc.2 + 1) else ((acc.2, acc.2, b) :: (f, g, cur) :: t, acc.2 + 1)
  | [] => ([(acc.2, acc.2, b)], acc.2 + 1)

/-- The cut takes the members in order. -/
theorem splitBlock_eq (first : Nat) (l : List (List Nat)) : splitBlock first l = (l.foldl splitStep ([], first)).1.reverse := rfl

/-- The bytes of the datagrams begun so far, end to end. -/
def splitBytes (acc : List (Nat × Nat × List Nat) × Nat) : List Nat := acc.1.reverse.flatMap (fun p => p.2.2)

/-- A member's bytes come behind those before it. -/
theorem splitBytes_step (acc : List (Nat × Nat × List Nat) × Nat) (b : List Nat) : splitBytes (splitStep acc b) = splitBytes acc ++ b := by
  obtain ⟨ds, n⟩ := acc
  cases ds with
  | nil => simp [splitBytes, splitStep]
  | cons d t =>
    simp only [splitBytes, splitStep]
    split <;> simp

/-- No byte is lost at the cut. -/
theorem splitBytes_foldl (l : List (List Nat)) (acc : List (Nat × Nat × List Nat) × Nat) :
    splitBytes (l.foldl splitStep acc) = splitBytes acc ++ l.flatten := by
  induction l generalizing acc with
  | nil => simp
  | cons b t ih => rw [List.foldl_cons, ih, splitBytes_step, List.flatten_cons, List.append_assoc]

/-- The datagrams hold the members end to end. -/
theorem splitBlock_bytes (first : Nat) (l : List (List Nat)) : (splitBlock first l).flatMap (fun p => p.2.2) = l.flatten := by
  rw [splitBlock_eq]
  exact splitBytes_foldl l ([], first)

/-- Where a member is, a datagram is begun. -/
theorem splitStep_ne_nil (acc : List (Nat × Nat × List Nat) × Nat) (b : List Nat) : (splitStep acc b).1 ≠ [] := by
  unfold splitStep
  split
  · split <;> simp
  · simp

/-- A datagram that is begun stays. -/
theorem foldl_splitStep_ne_nil (l : List (List Nat)) {acc : List (Nat × Nat × List Nat) × Nat} (h : acc.1 ≠ []) :
    (l.foldl splitStep acc).1 ≠ [] := foldl_keeps (P := fun a : List (Nat × Nat × List Nat) × Nat => a.1 ≠ []) l (fun a b _ => splitStep_ne_nil a b) h

/-- A block with a member has a datagram. -/
theorem splitBlock_ne_nil (first : Nat) {l : List (List Nat)} (h : l ≠ []) : splitBlock first l ≠ [] := by
  cases l with
  | nil => exact absurd rfl h
  | cons b t =>
    rw [splitBlock_eq, List.foldl_cons]
    simpa using foldl_splitStep_ne_nil t (splitStep_ne_nil ([], first) b)

/-! ## BLOCK_READ (R37, R43, R70) -/

/-- The members of a block. -/
def blockSubs (first last : Nat) : List Nat := (List.range (last + 1 - first)).map (fun m => first + m)

/-- The bytes of a block's members as a session's request reads them. -/
def memberBytes (s : State) (index first last : Nat) (latent : Bool) : List (List Nat) :=
  (blockSubs first last).map (fun m => match s.findObj (K.at' index m) with | some o => s.readBytes o (K.at' index m) latent | none => [])

section
variable {s : State} {q : Req} {i : Nat} {rights index first last : Nat} {latent : Bool}

/-- A block outside the window stops at the first member the session may not read. -/
theorem readBlock_stops (hle : first ≤ last) {m : Nat}
    (hm : (blockSubs first last).find? (fun m => s.readStop rights (K.at' index m) != 0) = some m) :
    s.readBlock rights index first last latent = (s.readStop rights (K.at' index m), m, [], s) := by
  unfold blockSubs at hm
  simp only [State.readBlock, if_neg (Nat.not_lt.2 hle), hm]

/-- A block outside the window whose members the session may all read. -/
theorem readBlock_reads (hle : first ≤ last) (hidx : index ≠ 0x6811)
    (hall : ∀ m ∈ blockSubs first last, s.readStop rights (K.at' index m) = 0) :
    s.readBlock rights index first last latent = (0, 0, memberBytes s index first last latent, s) := by
  have hnone : (blockSubs first last).find? (fun m => s.readStop rights (K.at' index m) != 0) = none :=
    List.find?_eq_none.2 fun m hm => by simp [hall m hm]
  unfold blockSubs at hnone
  simp only [State.readBlock, if_neg (Nat.not_lt.2 hle), hnone, winRange, hidx, beq_eq_false_iff_ne.2 hidx, Bool.false_and, if_false,
    Bool.false_eq_true]
  rfl

/-- A BLOCK_READ that stops at a member is answered with it. -/
theorem blockRead_stops (h : Serves s q i) (hq : LenOk q) (h4 : 4 ≤ q.payload.length) (hle : fld q.payload 2 1 ≤ fld q.payload 3 1) {m : Nat}
    (hm : (blockSubs (fld q.payload 2 1) (fld q.payload 3 1)).find?
      (fun m => (arrived q i s).readStop (s.rd (K.SESS_RIGHTS i)) (K.at' (fld q.payload 0 2) m) != 0) = some m) :
    exec (.blockRead q) s = .next (replied s q i 0x12 ((arrived q i s).readStop (s.rd (K.SESS_RIGHTS i)) (K.at' (fld q.payload 0 2) m))
      (q.payload.take 4 ++ [m]) (arrived q i s)) := by
  refine h.answer_quiet (op := 0x12) (x := []) hq (by decide) (by decide) h4 ?_ h.quiet
  have hne := List.find?_some hm
  show (arrived q i s).opBlockRead i q = _
  simp only [State.opBlockRead, arrived_rights, readBlock_stops hle hm]
  rw [if_pos (by simpa using hne)]

/-- What a BLOCK_READ of members that may all be read answers: their bytes, cut into datagrams. -/
theorem perform_blockRead (x : List Int) (hr : s.rd (K.SESS_RIGHTS i) = rights) (hle : fld q.payload 2 1 ≤ fld q.payload 3 1)
    (hidx : fld q.payload 0 2 ≠ 0x6811)
    (hall : ∀ m ∈ blockSubs (fld q.payload 2 1) (fld q.payload 3 1), s.readStop rights (K.at' (fld q.payload 0 2) m) = 0) :
    s.perform i 0x12 q x = ⟨0, (splitBlock (fld q.payload 2 1) (memberBytes s (fld q.payload 0 2) (fld q.payload 2 1) (fld q.payload 3 1)
      (q.flags.testBit 0))).map (fun p => q.payload.take 2 ++ [p.1, p.2.1] ++ p.2.2), s, none⟩ := by
  show s.opBlockRead i q = _
  simp only [State.opBlockRead, hr, readBlock_reads hle hidx hall]
  rfl

/-- A BLOCK_READ of members that may all be read is answered with their bytes end to end, and changes nothing else. -/
theorem blockRead_reads (h : Serves s q i) (hq : LenOk q) (h4 : 4 ≤ q.payload.length) (hle : fld q.payload 2 1 ≤ fld q.payload 3 1)
    (hidx : fld q.payload 0 2 ≠ 0x6811)
    (hall : ∀ m ∈ blockSubs (fld q.payload 2 1) (fld q.payload 3 1),
      (arrived q i s).readStop (s.rd (K.SESS_RIGHTS i)) (K.at' (fld q.payload 0 2) m) = 0) :
    Ends (.blockRead q) s (fun t => RegsKept [] (arrived q i s) t ∧ StoresKept s t ∧ raisedOf t = raisedOf s ∧
      (q.port < 2 → ∃ l : List Msg, t.tx = s.tx ++ l ∧ l ≠ [] ∧ (∀ m ∈ l, m.op = 0x12 ∧ m.status = 0 ∧ m.seq = q.seq) ∧
        l.flatMap (fun m => m.payload.drop 4) =
          (memberBytes (arrived q i s) (fld q.payload 0 2) (fld q.payload 2 1) (fld q.payload 3 1) (q.flags.testBit 0)).flatten)) := by
  set a := arrived q i s with ha
  set bytes := memberBytes a (fld q.payload 0 2) (fld q.payload 2 1) (fld q.payload 3 1) (q.flags.testBit 0) with hbytes
  set parts := (splitBlock (fld q.payload 2 1) bytes).map (fun p => q.payload.take 2 ++ [p.1, p.2.1] ++ p.2.2) with hparts
  have hper : a.perform i 0x12 q [] = ⟨0, parts, a, none⟩ := perform_blockRead [] (arrived_rights s q i) hle hidx hall
  refine ⟨_, h.answers (op := 0x12) hq (by decide) (by decide) h4 hper h.quiet, ?_, ?_, ?_, fun hp => ?_⟩
  · exact fun k _ => (foldl_send_rd _ _ k).trans (remember_rd _ _ k)
  · exact foldl_keeps (P := StoresKept s) _ (fun t m ht => send_keeps_of (storesKept_kept s).tx (storesKept_kept s).spiTx m ht)
      ((storesKept_kept s).cache _ _ (storesKept_arrived s q i))
  · rw [raisedOf, foldl_send_raised]
    exact congrArg _ (arrived_raised s q i)
  · have hpd : ∀ k, k < 0x111000 ∨ 0x112100 ≤ k → k < 2 ^ 24 → a.rd k = s.rd k := fun k h1 h2 => arrived_obj s q (slot_le h.named) h1 h2
    have hup : a.rd (K.PD_STATE (3 + q.port)) = 3 ∧ a.rd (K.CTL_ENABLE q.port) = 1 := by
      rw [hpd _ (by simp only [K.PD_STATE, K.at']; omega) (by simp only [K.PD_STATE, K.at']; omega),
        hpd _ (by simp only [K.CTL_ENABLE, K.at']; omega) (by simp only [K.CTL_ENABLE, K.at']; omega)]
      exact h.up hp
    refine ⟨answerMsgs q 0x12 (s.rd (K.SESS_GEN i)) (a.sid i) 0 parts, ?_, ?_, fun m hm => (mem_answerMsgs hm).2, ?_⟩
    · rw [foldl_send_up (s := a.remember _) hp hup (fun m hm => (mem_answerMsgs hm).1)]
      show a.tx ++ _ = s.tx ++ _
      rw [ha, arrived_eq_reg]
    · intro hnil
      have hnone : parts = [] := by rw [← answerMsgs_payloads q 0x12 (s.rd (K.SESS_GEN i)) (a.sid i) 0 parts, hnil]; rfl
      refine splitBlock_ne_nil (fld q.payload 2 1) (l := bytes) ?_ (List.map_eq_nil_iff.1 hnone)
      simp only [hbytes, memberBytes, blockSubs, ne_eq, List.map_eq_nil_iff, List.range_eq_nil]
      omega
    · have hdrop : ∀ p : Nat × Nat × List Nat, (q.payload.take 2 ++ [p.1, p.2.1] ++ p.2.2).drop 4 = p.2.2 := fun p =>
        List.drop_left' (by simp; omega)
      calc (answerMsgs q 0x12 (s.rd (K.SESS_GEN i)) (a.sid i) 0 parts).flatMap (fun m => m.payload.drop 4)
          = parts.flatMap (fun p => p.drop 4) := by
            rw [← List.flatMap_map Msg.payload (fun p => p.drop 4), answerMsgs_payloads]
        _ = (splitBlock (fld q.payload 2 1) bytes).flatMap (fun p => p.2.2) := by
            rw [hparts, List.flatMap_map]
            simp only [hdrop]
        _ = bytes.flatten := splitBlock_bytes ..

end

/-- Settles O15: one object's reading, the views of an object, and a block by its first member that may not be read. -/
theorem readReturnsValue : Obligations.ReadReturnsValue := by
  intro q i s h hq h4 k a rights
  refine ⟨fun l hl hidx => ⟨fun hr => ?_, fun hr => ?_⟩, fun hl => ?_, fun l hwo => ?_, fun l v hrl hv => ?_, ?_⟩
  · exact read_answers h hq h4 (readOne_value h hl hr hidx _) (.inr hidx)
  · simpa using read_answers h hq h4 (readOne_denied h hl hr _) (.inl (by decide))
  · simpa using read_answers h hq h4 (readOne_absent h hl _) (.inl (absent_ne_zero _ _))
  · simp only [State.readVal, hwo, if_true]
  · have hlat : a.lat = s.lat := (storesKept_arrived s q i).lat
    simp [State.readVal, State.latView, hrl, hlat, hv]
  · intro index first last subs hidx hle
    refine ⟨fun m hm => blockRead_stops h hq h4 hle hm, fun hall => ?_⟩
    obtain ⟨t, ht, hregs, hstores, hraised, htx⟩ := blockRead_reads h hq h4 hle hidx hall
    refine ⟨t, ht, hregs, hstores, hraised, fun hp => ?_⟩
    obtain ⟨l, hl, hne, hm, hbytes⟩ := htx hp
    refine ⟨l, hl, hne, hm, hbytes.trans ?_⟩
    simp only [memberBytes, h.findObj, ← List.flatMap_def]
    rfl

end Sys2Proof
end

section
/-! WriteChecksInOrder: a WRITE by what writing its object answers; what enters the Latent set. -/
namespace Sys2Proof

open Machine

/-! ## Values that enter the Latent sets (R40, R162, R267) -/

/-- One more round. -/
theorem upto_succ (s : State) (n : Nat) (f : Nat → State → State) : s.upto (n + 1) f = f n (s.upto n f) := by
  simp [State.upto, List.range_succ]

/-- Several values enter the Latent sets under keys that rise with their number. -/
def latPuts (key f : Nat → Nat) (n : Nat) (s : State) : State := s.upto n (fun i t => t.latPut (key i) (f i))

/-- A key none of them has is listed as before. -/
theorem alGet_latPuts_ne {key f : Nat → Nat} {n k : Nat} (s : State) (hk : ∀ i < n, k ≠ key i) :
    alGet (latPuts key f n s).lat k = alGet s.lat k := by
  induction n with
  | zero => rfl
  | succ n ih =>
    rw [latPuts, upto_succ]
    exact (alGet_alSet_ne _ _ (hk n (Nat.lt_succ_self n))).trans (ih fun i hi => hk i (Nat.lt_succ_of_lt hi))

/-- Each of them is listed under its key. -/
theorem alGet_latPuts {key f : Nat → Nat} {n j : Nat} (s : State) (hinj : ∀ a b, key a = key b → a = b) (hj : j < n) :
    alGet (latPuts key f n s).lat (key j) = some (f j) := by
  induction n with
  | zero => exact absurd hj (Nat.not_lt_zero j)
  | succ n ih =>
    rw [latPuts, upto_succ]
    by_cases hjn : j = n
    · rw [hjn]
      exact alGet_alSet_self ..
    · exact (alGet_alSet_ne _ _ fun he => hjn (hinj _ _ he)).trans (ih (by omega))

/-- A preset 0 to 6 has nine coefficients and three offsets on either side. -/
theorem convPreset_lengths {v : Nat} (hv : v < 7) :
    (convPreset v).1.length = 9 ∧ (convPreset v).2.1.length = 3 ∧ (convPreset v).2.2.length = 3 := by
  interval_cases v <;> decide

/-- A converter's PRESET 0 to 6 takes its coefficients and offsets along. -/
theorem stage_convPreset (s : State) {l : Loc} {k v : Nat} (hkind : l.kind = .out) (hoff : l.off = 3) (hsub : l.sub = 2) (hv : v < 7) :
    s.stage l k v = latPuts (K.OUT_CONV_OUTOFF l.i) (fun i => ofInt 16 ((convPreset v).2.2.getD i 0)) 3
      (latPuts (K.OUT_CONV_INOFF l.i) (fun i => ofInt 16 ((convPreset v).2.1.getD i 0)) 3
        (latPuts (K.OUT_CONV_COEF l.i) (fun i => ofInt 16 ((convPreset v).1.getD i 0)) 9 (s.latPut k v))) := by
  obtain ⟨h9, hin, hout⟩ := convPreset_lengths hv
  simp only [State.stage, hkind, hoff, hsub, if_neg (show ¬ 7 ≤ v by omega), h9, hin, hout]
  rfl

/-- Any other object but a PRESET enters alone. -/
theorem stage_alone (s : State) {l : Loc} (k v : Nat) (hconv : ¬ (l.kind = .out ∧ l.off = 3 ∧ l.sub = 2))
    (hlay : ¬ (l.kind = .lay ∧ l.off = 3 ∧ l.sub = 1)) : s.stage l k v = s.latPut k v := by
  unfold State.stage
  split
  · next h1 h2 h3 => exact absurd ⟨h1, h2, h3⟩ hconv
  · next h1 h2 h3 => exact absurd ⟨h1, h2, h3⟩ hlay
  · rfl

/-- From s to t only the Latent sets may differ. -/
def LatOnly (s t : State) : Prop := t = { s with lat := t.lat }

/-- A value enters the Latent sets. -/
theorem LatOnly.latPut {s t : State} (h : LatOnly s t) (k v : Nat) : LatOnly s (t.latPut k v) := by
  unfold LatOnly at *
  rw [h]
  rfl

/-- Rounds that change only the Latent sets. -/
theorem LatOnly.upto {s t : State} (h : LatOnly s t) (n : Nat) {f : Nat → State → State} (hf : ∀ i u, LatOnly s u → LatOnly s (f i u)) :
    LatOnly s (t.upto n f) := State.upto_keeps hf h

/-- What enters a Latent set changes nothing but the Latent sets. -/
theorem stage_latOnly (s : State) (l : Loc) (k v : Nat) : LatOnly s (s.stage l k v) := by
  have hput : LatOnly s (s.latPut k v) := rfl
  unfold State.stage
  split
  · extract_lets t p put
    split
    · exact hput
    · have hputs : ∀ key vs u, LatOnly s u → LatOnly s (put key vs u) := fun key vs u hu => hu.upto _ fun _ _ h => h.latPut ..
      exact hputs _ _ _ (hputs _ _ _ (hputs _ _ _ hput))
  · extract_lets t
    split
    · exact ((hput.upto 64 fun _ _ h => (h.latPut ..).latPut ..).upto 9 fun _ _ h => h.latPut ..).upto 3 fun _ _ h => (h.latPut ..).latPut ..
    · exact hput
  · exact hput

/-- What enters a Latent set changes no register. -/
theorem stage_rd (s : State) (l : Loc) (k v j : Nat) : (s.stage l k v).rd j = s.rd j := by rw [stage_latOnly]; rfl

/-! ## Checks of a WRITE (R37, R39, R40, R41) -/

section
variable {s : State} {q : Req} {i : Nat} {x : List Int}

/-- A WRITE is answered with what writing its object answers. -/
theorem write_answers (h : Serves s q i) (hq : LenOk q) (h4 : 4 ≤ q.payload.length) {st hd : Nat} {m : State}
    (hw : (arrived q i s).writeOne (s.rd (K.SESS_RIGHTS i)) (fld q.payload 0 3) (q.payload.drop 4) ⟨q.port, i, x⟩ = ⟨st, hd, m⟩) (h7 : st ≠ 7)
    (hquiet : m.rd H.warmPend ≠ 1) : exec (.write q x) s = .next (replied s q i 0x11 st (q.payload.take 4) m) := by
  refine h.answer_quiet (op := 0x11) (x := x) hq (by decide) (by decide) h4 ?_ hquiet
  show (arrived q i s).opWrite i q x = _
  simp only [State.opWrite, arrived_rights, hw, if_neg h7, List.append_nil]

variable {rights k v : Nat} {l : Loc} {bytes : List Nat} {c : Wctx}

/-- A write to an address without an object. -/
theorem writeOne_absent (h : Serves s q i) (hl : locate k = none) :
    (arrived q i s).writeOne rights k bytes c = ⟨absent rights k, 0, arrived q i s⟩ := by
  simp only [State.writeOne, h.findObj, hl]
  rfl

/-- A write of an object that is read-only or above the session's rights. -/
theorem writeOne_denied (h : Serves s q i) (hl : locate k = some l) (hd : l.row.acc = .ro ∨ holds rights l.row.wr = false) :
    (arrived q i s).writeOne rights k bytes c = ⟨2, 0, arrived q i s⟩ := by
  simp only [State.writeOne, h.findObj, hl]
  exact if_pos (by simpa using hd)

/-- What a write that the session may do depends on: the value's length, and what the value is. -/
theorem writeOne_allowed (h : Serves s q i) (hl : locate k = some l) (hro : l.row.acc ≠ .ro) (hr : holds rights l.row.wr = true) :
    (arrived q i s).writeOne rights k bytes c = (match l.row.ty.take bytes with
      | none => ansErr 3 (arrived q i s)
      | some v => if !l.admits k v || !(arrived q i s).pairOk l v then ansRange (arrived q i s)
          else State.counted (writeObj l v c k (arrived q i s))) := by
  simp only [State.writeOne, h.findObj, hl]
  exact if_neg (by simp [hro, hr])

/-- A good value of an object that the session may write is written, and the write counts. -/
theorem writeOne_good (h : Serves s q i) (hl : locate k = some l) (hro : l.row.acc ≠ .ro) (hr : holds rights l.row.wr = true)
    (ht : l.row.ty.take bytes = some v) (hadm : l.admits k v = true) (hpair : (arrived q i s).pairOk l v = true) {u : State}
    (hu : writeObj l v c k (arrived q i s) = ansOk u) :
    (arrived q i s).writeOne rights k bytes c = ⟨0, 0, u.inc K.IDENT_CFG_SEQ 1 (2 ^ 64)⟩ := by
  rw [writeOne_allowed h hl hro hr]
  simp only [ht, hadm, hpair, hu]
  rfl

/-- CFG_SEQ is not where a warm reset is asked for. -/
theorem inc_cfgSeq_warmPend (u : State) : (u.inc K.IDENT_CFG_SEQ 1 (2 ^ 64)).rd H.warmPend = u.rd H.warmPend := State.rd_wr_ne _ _ (by decide)

/-- A plain object of the bus arbiter or of a clock output is set. -/
theorem writeObj_plain (s : State) (hacc : l.row.acc = .rw) (hkind : l.kind = .prio ∨ l.kind = .clko) :
    writeObj l v c k s = ansOk (s.wr k v) := by
  have hne : l.row.acc ≠ .rl ∧ l.row.acc ≠ .cmd := by simp [hacc]
  have he : writeEffect l k v c s = ansOk (s.wr k v) := by
    obtain hk | hk := hkind <;> simp only [writeEffect, hk]
  simp only [writeObj, if_neg hne.1, he, hne.2, and_false, if_false]

/-- A plain object of the bus arbiter or of a clock output has no partner. -/
theorem pairOk_plain (s : State) (v : Nat) (hkind : l.kind = .prio ∨ l.kind = .clko) : s.pairOk l v = true := by
  obtain hk | hk := hkind <;> simp [State.pairOk, hk]

end

/-- Every object has an address of 24 bits. -/
theorem lt_of_locate {k : Nat} {l : Loc} (h : locate k = some l) : k < 2 ^ 24 := by
  by_contra hk
  rw [locate, if_pos (by omega)] at h
  cases h

/-- Settles O18, check by check, and by what a good value of each kind does. -/
theorem writeChecksInOrder : Obligations.WriteChecksInOrder := by
  intro q x i s h hq h4 k rights refused
  have refuse {st hd : Nat} (h7 : st ≠ 7)
      (hw : (arrived q i s).writeOne rights k (q.payload.drop 4) ⟨q.port, i, x⟩ = ⟨st, hd, arrived q i s⟩) : refused st :=
    write_answers h hq h4 hw h7 h.quiet
  refine ⟨fun hl => refuse ?_ (writeOne_absent h hl), fun l hl => ⟨fun hd => refuse (by decide) (writeOne_denied h hl hd),
    fun hro hr ht => refuse (hd := 0) (by decide) ?_, fun v hro hr ht => ⟨fun hadm => refuse (hd := 0) (by decide) ?_, fun hrl hadm hpair => ?_,
      fun _ hconv hlay => stage_alone _ k v hconv hlay, fun hkind hoff hsub hv => ?_, fun hrw hkind hadm => ?_⟩⟩⟩
  · unfold absent
    split <;> decide
  · rw [writeOne_allowed h hl hro hr, ht]
    rfl
  · rw [writeOne_allowed h hl hro hr, ht]
    simp only [hadm]
    rfl
  · refine write_answers h hq h4 (writeOne_good h hl hro hr ht hadm hpair (if_pos hrl)) (by decide) ?_
    rw [inc_cfgSeq_warmPend, stage_rd]
    exact h.quiet
  · intro t
    have ht : t = _ := stage_convPreset (arrived q i s) hkind hoff hsub hv
    have hinj (m : Nat) : ∀ a b, K.at' (0x3003 + 0x40 * l.i) (m + a) = K.at' (0x3003 + 0x40 * l.i) (m + b) → a = b := by
      intro a b hab
      simp only [K.at'] at hab
      omega
    refine ⟨fun j hj => ?_, fun j hj => ⟨?_, ?_⟩, ?_⟩
    · rw [ht, alGet_latPuts_ne, alGet_latPuts_ne]
      · exact alGet_latPuts _ (hinj 6) hj
      all_goals
        intro m hm
        simp only [K.OUT_CONV_COEF, K.OUT_CONV_INOFF, K.OUT_CONV_OUTOFF, K.at']
        omega
    · rw [ht, alGet_latPuts_ne]
      · exact alGet_latPuts _ (hinj 0xF) hj
      · intro m hm
        simp only [K.OUT_CONV_INOFF, K.OUT_CONV_OUTOFF, K.at']
        omega
    · rw [ht]
      exact alGet_latPuts _ (hinj 0x12) hj
    · show t = { s with reg := t.reg, lat := t.lat }
      have hlat : t = { arrived q i s with lat := t.lat } := stage_latOnly ..
      rw [hlat, arrived_eq_reg]
  · have hlt := lt_of_locate hl
    refine write_answers h hq h4 (writeOne_good h hl hro hr ht hadm (pairOk_plain _ v hkind) (writeObj_plain _ hrw hkind)) (by decide) ?_
    rw [inc_cfgSeq_warmPend, State.rd_wr_ne]
    · exact h.quiet
    · simp only [H.warmPend, H.hk]
      omega

end Sys2Proof
end

section
/-! BlockWriteIsAllOrNothing: a BLOCK_WRITE of the window that the scan guard refuses is counted in BMX.GUARD_HITS. -/
namespace Sys2Proof

open Machine

/-- A part whose buffer 0, one page at address 0, is in SCANNING, which the guard blocks; the window stands at its first byte (R225, R226). -/
def scannedBuffer : State :=
  { State.reset with reg := [(K.BUF_STATE 0, 3), (H.mgmtOn, 1)], vecs := [(H.allocs, [0, 0, 4096])] }

/-- A BLOCK_WRITE of the window's first unit at the SPI target. -/
def windowBlock : Req := ⟨2, 0, 0, 0, 0, 0x5A51, 3, 0, 0, 1, 0, 36, [0x68, 0x11, 1, 1] ++ List.replicate 32 0⟩

/-- The SPI session of that part is served. -/
theorem scannedBuffer_serves : Serves scannedBuffer windowBlock 16 where
  on := by decide
  normal := by decide
  port := by decide
  up := fun h => absurd h (by decide)
  here := fun h => absurd h (by decide)
  magic := rfl
  plain := by decide
  named := rfl
  open' := fun h => absurd rfl h
  gen := by decide
  uncached := fun _ h => by cases h
  newer := by decide

/-- The guard refuses the block as BUSY. -/
theorem scannedBuffer_busy :
    ((arrived windowBlock 16 scannedBuffer).writeBlock (scannedBuffer.rd (K.SESS_RIGHTS 16)) 0x6811 1 1 (windowBlock.payload.drop 4)
      ⟨2, 16, []⟩).st = 5 := by decide

/-- The guard has counted the hit. -/
theorem scannedBuffer_counts :
    ∀ t, exec (.blockWrite windowBlock []) scannedBuffer = .next t → t.rd K.BMX_GUARD_HITS = 1 := by
  have h : (match exec (.blockWrite windowBlock []) scannedBuffer with | .next t => t.rd K.BMX_GUARD_HITS | _ => 0) = 1 := by decide
  intro t ht
  rwa [ht] at h

/-- Refutes O19: a BLOCK_WRITE of the window that the guard refuses is answered BUSY and leaves a register changed that its arrival does not
change, BMX.GUARD_HITS. -/
theorem not_blockWriteIsAllOrNothing : ¬ Obligations.BlockWriteIsAllOrNothing := by
  intro h
  obtain ⟨-, hfails, -⟩ := h windowBlock [] 16 scannedBuffer scannedBuffer_serves ⟨rfl, by decide⟩ (by decide)
  obtain ⟨t, ht, hregs, -⟩ := hfails (scannedBuffer_busy.trans_ne (by decide)) (scannedBuffer_busy.trans_ne (by decide))
  have hkept : t.rd K.BMX_GUARD_HITS = (arrived windowBlock 16 scannedBuffer).rd K.BMX_GUARD_HITS := hregs _ (by simp)
  rw [scannedBuffer_counts t ht, arrived_obj _ _ (by decide) (by decide) (by decide)] at hkept
  exact absurd hkept (by decide)

end Sys2Proof
end

section
/-! CommitIsTakenOrRefused: a COMMIT or COMMIT_AT by what the checks before admission and admission itself answer. -/
namespace Sys2Proof

open Machine

/-- The last of several writes with different keys is what each of them reads. -/
theorem rd_wrs_of_mem {l : List (Nat × Nat)} (hl : (l.map Prod.fst).Nodup) {k v : Nat} (hp : (k, v) ∈ l) (s : State) : (s.wrs l).rd k = v := by
  induction l generalizing s with
  | nil => cases hp
  | cons p t ih =>
    obtain ⟨hnot, hnd⟩ := List.nodup_cons.1 hl
    obtain rfl | ht := List.mem_cons.1 hp
    · have hne : ∀ r ∈ t, k ≠ r.1 := fun r hr he => hnot (List.mem_map.2 ⟨r, hr, he.symm⟩)
      exact (rd_wrs_ne t (s.wr k v) k hne).trans (rd_wr_self s k v)
    · exact ih hnd ht (s.wr p.1 p.2)

/-- Writes of registers raise no event. -/
theorem wrs_raised (l : List (Nat × Nat)) (s : State) : (s.wrs l).raised = s.raised := by rw [wrs_eq_reg]

/-- Two runs of writes are one. -/
theorem wrs_wrs (l m : List (Nat × Nat)) (s : State) : (s.wrs l).wrs m = s.wrs (l ++ m) := (List.foldl_append ..).symm

/-! ## The request -/

/-- A command is a COMMIT or COMMIT_AT with T of a UMASK: what it does for a session is `opCommit`. -/
structure CommitForm (q : Req) (c : Instr) (T : Option Nat) (op mask : Nat) : Prop where
  known : opKnown op = true
  notHello : op ≠ 1
  long : minPayload op q ≤ q.payload.length
  exec_eq : ∀ s, exec c s = recv op q [] s
  perform_eq : ∀ (t : State) i, t.perform i op q [] = t.opCommit i q T mask

/-- COMMIT and COMMIT_AT are of that form. -/
theorem commitForm {q : Req} {c : Instr} {T : Option Nat} {op mask : Nat}
    (h : c = .commit q ∧ op = 0x20 ∧ T = none ∧ mask = fld q.payload 4 216 ∧ 220 ≤ q.payload.length ∨
      c = .commitAt q ∧ op = 0x21 ∧ T = some (fld q.payload 4 10) ∧ mask = fld q.payload 16 216 ∧ 232 ≤ q.payload.length) :
    CommitForm q c T op mask := by
  obtain ⟨rfl, rfl, rfl, rfl, hlen⟩ | ⟨rfl, rfl, rfl, rfl, hlen⟩ := h
  · exact ⟨by decide, by decide, hlen, fun _ => rfl, fun _ _ => rfl⟩
  · exact ⟨by decide, by decide, hlen, fun _ => rfl, fun _ _ => rfl⟩

/-! ## What commit answers (R47) -/

/-- T is no PTIME or lies behind the horizon (R51). -/
def badTime (s : State) (T : Option Nat) : Bool :=
  match T with
  | some t => decide (1000000000 ≤ t % 2 ^ 32) || decide (s.horizon < ofPtime t)
  | none => false

/-- Which T are bad. -/
theorem badTime_iff (s : State) (T : Option Nat) :
    badTime s T = true ↔ ∃ p, T = some p ∧ (1000000000 ≤ p % 2 ^ 32 ∨ s.horizon < ofPtime p) := by
  cases T <;> simp [badTime]

/-- A salvo that is refused. -/
def refusedSalvo (s : State) (v mask : Nat) (T : Option Nat) (r : Refuse) : State :=
  (s.slvWrite v 5 mask 0 r.reason (unitIdx r.unit) r.holder (T.getD 0) 0).wr (H.slvSess v) 0

/-- A commit is checked for its form, then for the salvo's state, then by admission. -/
theorem commit_eq (s : State) (v mask slot : Nat) (T : Option Nat) : s.commit v mask T slot =
    if 63 < v ∨ maskBad mask = true ∨ badTime s T = true then ⟨4, s, []⟩
    else if [1, 2, 3].contains (s.rd (K.SLV_STATE v)) then ⟨5, s, []⟩
    else match ((s.askCommit mask).judge (s.rd K.COMMIT_NEXT_SEQ)).refused with
      | some r => ⟨6, ((refusedSalvo s v mask T r).inc K.COMMIT_REFUSED 1 (2 ^ 32)).logRefusal v (if slot = 16 then 0x20 else slot) r, []⟩
      | none => s.commitTake v mask T slot ((s.askCommit mask).judge (s.rd K.COMMIT_NEXT_SEQ)) := by
  unfold State.commit
  generalize (s.askCommit mask).judge (s.rd K.COMMIT_NEXT_SEQ) = w
  obtain ⟨refused⟩ := w
  cases T <;> cases refused <;> rfl

/-! ## A refused commit (R211, R212) -/

/-- What a refused commit writes: SLV[v], COMMIT.REFUSED and the refusal log's next entry, `e`. -/
def refusalWrites (s : State) (v mask : Nat) (T : Option Nat) (r : Refuse) (e : Nat) : List (Nat × Nat) :=
  [(K.SLV_STATE v, 5), (K.SLV_UNITS v, mask), (K.SLV_SEQ v, 0), (K.SLV_REASON v, r.reason), (K.SLV_REFUSER v, unitIdx r.unit),
    (K.SLV_HOLDER v, r.holder), (K.SLV_AT v, T.getD 0), (K.SLV_FLAGS v, 0), (K.SLV_DEV_COUNT v, 0), (K.SLV_SUPERSEDED_COUNT v, 0),
    (K.SLV_COMPLETE_TIME v, 0), (K.SLV_CANCEL v, 0), (H.slvSess v, 0), (K.COMMIT_REFUSED, (s.rd K.COMMIT_REFUSED + 1) % 2 ^ 32),
    (K.REFLOG_ENTRY (s.rd K.REFLOG_HEAD % 32), e), (K.REFLOG_HEAD, (s.rd K.REFLOG_HEAD + 1) % 2 ^ 32)]

/-- Neither COMMIT.REFUSED nor the log's head is one of a salvo's registers. -/
theorem refusedSalvo_rd {s : State} {v mask : Nat} {T : Option Nat} {r : Refuse} (hv : v ≤ 63) {k : Nat} (hk : k < 0x144000 ∨ 0x148000 ≤ k)
    (hobj : k < 2 ^ 24) : (refusedSalvo s v mask T r).rd k = s.rd k := by
  have hne : k ≠ H.slvSess v := by simp only [H.slvSess, H.hk]; omega
  rw [refusedSalvo, rd_wr_ne _ _ hne, State.slvWrite, rd_wrs_ne]
  simp only [List.mem_cons, List.not_mem_nil, or_false, forall_eq_or_imp, forall_eq, K.SLV_STATE, K.SLV_UNITS, K.SLV_SEQ, K.SLV_REASON,
    K.SLV_REFUSER, K.SLV_HOLDER, K.SLV_AT, K.SLV_FLAGS, K.SLV_DEV_COUNT, K.SLV_SUPERSEDED_COUNT, K.SLV_COMPLETE_TIME, K.SLV_CANCEL, K.at']
  omega

/-- A refused commit makes those writes and raises its event. -/
theorem logRefusal_eq {s : State} {v mask : Nat} {T : Option Nat} {r : Refuse} (hv : v ≤ 63) (sess : Nat) :
    ∃ e, ((refusedSalvo s v mask T r).inc K.COMMIT_REFUSED 1 (2 ^ 32)).logRefusal v sess r =
      (s.wrs (refusalWrites s v mask T r e)).raise 0x800D (0x1440 + v) (r.reason * 65536 + unitIdx r.unit) r.holder := by
  have hentry (a : State) : ∃ e, a.logRefusal v sess r = (a.wrs [(K.REFLOG_ENTRY (a.rd K.REFLOG_HEAD % 32), e),
      (K.REFLOG_HEAD, (a.rd K.REFLOG_HEAD + 1) % 2 ^ 32)]).raise 0x800D (0x1440 + v) (r.reason * 65536 + unitIdx r.unit) r.holder := ⟨_, rfl⟩
  have hcount : (refusedSalvo s v mask T r).inc K.COMMIT_REFUSED 1 (2 ^ 32) =
      (refusedSalvo s v mask T r).wr K.COMMIT_REFUSED ((s.rd K.COMMIT_REFUSED + 1) % 2 ^ 32) := by
    rw [State.inc, State.up, refusedSalvo_rd hv (by decide) (by decide)]
  have hhead (n : Nat) : ((refusedSalvo s v mask T r).wr K.COMMIT_REFUSED n).rd K.REFLOG_HEAD = s.rd K.REFLOG_HEAD := by
    rw [rd_wr_ne _ _ (by decide), refusedSalvo_rd hv (by decide) (by decide)]
  obtain ⟨e, he⟩ := hentry ((refusedSalvo s v mask T r).wr K.COMMIT_REFUSED ((s.rd K.COMMIT_REFUSED + 1) % 2 ^ 32))
  refine ⟨e, ?_⟩
  rw [hcount, he, hhead]
  simp only [refusedSalvo, State.slvWrite, refusalWrites, State.wrs, List.foldl_cons, List.foldl_nil]

/-- The registers a refused commit writes differ. -/
theorem refusalWrites_nodup (s : State) {v : Nat} (mask : Nat) (T : Option Nat) (r : Refuse) (e : Nat) (hv : v ≤ 63) :
    ((refusalWrites s v mask T r e).map Prod.fst).Nodup := by
  simp only [refusalWrites, List.map_cons, List.map_nil, List.nodup_cons, List.mem_cons, List.not_mem_nil, or_false, not_or, not_false_eq_true,
    List.nodup_nil, and_true, K.SLV_STATE, K.SLV_UNITS, K.SLV_SEQ, K.SLV_REASON, K.SLV_REFUSER, K.SLV_HOLDER, K.SLV_AT, K.SLV_FLAGS,
    K.SLV_DEV_COUNT, K.SLV_SUPERSEDED_COUNT, K.SLV_COMPLETE_TIME, K.SLV_CANCEL, K.COMMIT_REFUSED, K.REFLOG_ENTRY, K.REFLOG_HEAD, H.slvSess,
    H.hk, K.at']
  omega

/-- A refused commit asks for no warm reset. -/
theorem refusalWrites_warmPend (s : State) {v : Nat} (mask : Nat) (T : Option Nat) (r : Refuse) (e : Nat) (hv : v ≤ 63) :
    (s.wrs (refusalWrites s v mask T r e)).rd H.warmPend = s.rd H.warmPend := by
  refine rd_wrs_ne _ _ _ ?_
  simp only [refusalWrites, List.mem_cons, List.not_mem_nil, or_false, forall_eq_or_imp, forall_eq, K.SLV_STATE, K.SLV_UNITS, K.SLV_SEQ, K.SLV_REASON,
    K.SLV_REFUSER, K.SLV_HOLDER, K.SLV_AT, K.SLV_FLAGS, K.SLV_DEV_COUNT, K.SLV_SUPERSEDED_COUNT, K.SLV_COMPLETE_TIME, K.SLV_CANCEL,
    K.COMMIT_REFUSED, K.REFLOG_ENTRY, K.REFLOG_HEAD, H.slvSess, H.warmPend, H.hk, K.at']
  omega

/-! ## The answers (R69) -/

section
variable {s : State} {q : Req} {i op mask : Nat} {c : Instr} {T : Option Nat}

/-- A commit is answered with what `opCommit` answers. -/
theorem commit_answers (h : Serves s q i) (hq : LenOk q) (hf : CommitForm q c T op mask) {st : Nat} {p : List Nat} {m : State}
    (hp : (arrived q i s).opCommit i q T mask = ⟨st, [p], m, none⟩) : exec c s = .next (replied s q i op st p m).afterAnswer := by
  rw [hf.exec_eq]
  exact h.answer hq hf.known hf.notHello hf.long ((hf.perform_eq ..).trans hp)

/-- A commit that asks for no warm reset. -/
theorem commit_answers_quiet (h : Serves s q i) (hq : LenOk q) (hf : CommitForm q c T op mask) {st : Nat} {p : List Nat} {m : State}
    (hp : (arrived q i s).opCommit i q T mask = ⟨st, [p], m, none⟩) (hw : m.rd H.warmPend ≠ 1) :
    exec c s = .next (replied s q i op st p m) := by
  rw [commit_answers h hq hf hp, afterAnswer_none]
  rwa [replied_rd]

/-- Without OPERATE a commit is answered ACCESS. -/
theorem opCommit_denied (hr : holds (s.rd (K.SESS_RIGHTS i)) 1 = false) :
    s.opCommit i q T mask = ⟨2, [fld q.payload 0 1 :: List.replicate 15 0], s, none⟩ := if_pos (by rw [hr]; rfl)

/-- What a commit that admission judged is answered with: SLV[v], and the predictions (R69). -/
def judgedPayload (v : Nat) (a : ComAns) : List Nat :=
  [v, a.s.rd (K.SLV_REASON v)] ++ bytesBE 2 (a.s.rd (K.SLV_REFUSER v)) ++ bytesBE 4 (a.s.rd (K.SLV_HOLDER v)) ++ bytesBE 4 (a.s.rd (K.SLV_SEQ v)) ++
    [a.s.rd (K.SLV_STATE v), a.preds.length, 0, 0] ++ a.preds.flatMap (fun p => [p.1, 0] ++ bytesBE 8 p.2)

/-- How COMMIT answers for salvo v what `commit` answers (R69). -/
def commitReply (v : Nat) (a : ComAns) : Reply :=
  if a.status = 4 then ⟨4, [v :: List.replicate 15 0], a.s, none⟩
  else if a.status = 5 then ⟨5, [v :: List.replicate 11 0 ++ [a.s.rd (K.SLV_STATE v), 0, 0, 0]], a.s, none⟩
  else ⟨a.status, [judgedPayload v a], a.s, none⟩

/-- What admission judged is answered from SLV. -/
theorem commitReply_judged (v : Nat) {a : ComAns} (h4 : a.status ≠ 4) (h5 : a.status ≠ 5) :
    commitReply v a = ⟨a.status, [judgedPayload v a], a.s, none⟩ := by
  rw [commitReply, if_neg h4, if_neg h5]

/-- With OPERATE a commit is answered as `commit` answers. -/
theorem opCommit_allowed (hr : holds (s.rd (K.SESS_RIGHTS i)) 1 = true) :
    s.opCommit i q T mask = commitReply (fld q.payload 0 1) (s.commit (fld q.payload 0 1) mask T i) := by
  simp only [State.opCommit, hr, Bool.not_true, Bool.false_eq_true, if_false]
  rfl

end

/-- A refused commit of session i ends in this state before its answer; what it has changed. -/
theorem refusal_changes {s : State} {q : Req} {i v mask : Nat} {T : Option Nat} {r : Refuse} (h : Serves s q i) (hv : v ≤ 63) (op : Nat)
    (p : List Nat) (e : Nat) :
    let a := arrived q i s
    let t := replied s q i op 6 p ((a.wrs (refusalWrites a v mask T r e)).raise 0x800D (0x1440 + v) (r.reason * 65536 + unitIdx r.unit) r.holder)
    t.rd (K.SLV_STATE v) = 5 ∧ t.rd (K.SLV_UNITS v) = mask ∧ t.rd (K.SLV_SEQ v) = 0 ∧ t.rd (K.SLV_REASON v) = r.reason ∧
    t.rd (K.SLV_REFUSER v) = unitIdx r.unit ∧ t.rd (K.SLV_HOLDER v) = r.holder ∧
    t.rd K.COMMIT_REFUSED = (s.rd K.COMMIT_REFUSED + 1) % 2 ^ 32 ∧ t.rd K.REFLOG_HEAD = (s.rd K.REFLOG_HEAD + 1) % 2 ^ 32 ∧
    raisedOf t = raisedOf s ++ [(0x800D, 0x1440 + v, (r.reason * 65536 + unitIdx r.unit) % 2 ^ 32, r.holder % 2 ^ 32)] ∧
    StoresKept s t ∧
    RegsKept (arrivalKeys i ++ [K.SLV_STATE v, K.SLV_UNITS v, K.SLV_SEQ v, K.SLV_REASON v, K.SLV_REFUSER v, K.SLV_HOLDER v, K.SLV_AT v,
      K.SLV_FLAGS v, K.SLV_DEV_COUNT v, K.SLV_SUPERSEDED_COUNT v, K.SLV_COMPLETE_TIME v, K.SLV_CANCEL v, H.slvSess v, K.COMMIT_REFUSED,
      K.REFLOG_HEAD, K.REFLOG_ENTRY (s.rd K.REFLOG_HEAD % 32)]) s t := by
  intro a t
  have hi := slot_le h.named
  have hcount : a.rd K.COMMIT_REFUSED = s.rd K.COMMIT_REFUSED := arrived_obj s q hi (by decide) (by decide)
  have hhead : a.rd K.REFLOG_HEAD = s.rd K.REFLOG_HEAD := arrived_obj s q hi (by decide) (by decide)
  have hrd (k : Nat) : t.rd k = (a.wrs (refusalWrites a v mask T r e)).rd k :=
    (replied_rd ..).trans (State.rd_raise ..)
  have hwritten {k x : Nat} (hk : (k, x) ∈ refusalWrites a v mask T r e) : t.rd k = x :=
    (hrd k).trans (rd_wrs_of_mem (refusalWrites_nodup a mask T r e hv) hk a)
  refine ⟨hwritten ?_, hwritten ?_, hwritten ?_, hwritten ?_, hwritten ?_, hwritten ?_, hwritten ?_, hwritten ?_, ?_, ?_, fun k hk => ?_⟩
  iterate 8 simp [refusalWrites, hcount, hhead]
  · rw [raisedOf, replied_raised]
    refine (raisedOf_raise ..).trans (congrArg (· ++ _) ?_)
    rw [raisedOf, wrs_raised, arrived_raised, raisedOf]
  · refine storesKept_replied _ _ _ _ _ _ (raise_keeps (storesKept_kept s) ?_)
    exact wrs_keeps (storesKept_kept s) (storesKept_arrived s q i)
  · obtain ⟨harr, hslv⟩ := not_or.1 (fun hmem => hk (List.mem_append.2 hmem))
    rw [hrd, rd_wrs_ne, arrived_rd s q i k harr]
    rw [← hhead] at hslv
    simp only [List.mem_cons, List.not_mem_nil, or_false, not_or] at hslv
    obtain ⟨h1, h2, h3, h4, h5, h6, h7, h8, h9, h10, h11, h12, hsess, hcnt, hlog, hent⟩ := hslv
    simp only [refusalWrites, List.mem_cons, List.not_mem_nil, or_false, forall_eq_or_imp, forall_eq]
    exact ⟨h1, h2, h3, h4, h5, h6, h7, h8, h9, h10, h11, h12, hsess, hcnt, hent, hlog⟩

/-- Settles O20: rights, form and the salvo's state are checked before admission; a refusal writes SLV and the log, a grant is taken. -/
theorem commitIsTakenOrRefused : Obligations.CommitIsTakenOrRefused := by
  intro q i s h hq c T op mask hform v a badT bad st w
  have hf := commitForm hform
  have hi := slot_le h.named
  have hra {b : Bool} (hr : holds (s.rd (K.SESS_RIGHTS i)) 1 = b) : holds (a.rd (K.SESS_RIGHTS i)) 1 = b := by rwa [arrived_rights]
  have hbad : bad ↔ 63 < v ∨ maskBad mask = true ∨ badTime a T = true := by rw [badTime_iff]
  have hst (hgood : ¬ bad) : a.rd (K.SLV_STATE v) = st := by
    have hv : v ≤ 63 := Nat.not_lt.1 fun hv => hgood (.inl hv)
    exact arrived_obj s q hi (by simp only [K.SLV_STATE, K.at']; omega) (by simp only [K.SLV_STATE, K.at']; omega)
  have hw : (a.askCommit mask).judge (a.rd K.COMMIT_NEXT_SEQ) = w := by rw [arrived_obj s q hi (by decide) (by decide)]
  refine ⟨fun hr => commit_answers_quiet h hq hf (opCommit_denied (hra hr)) h.quiet, fun hr => ⟨fun hb => ?_, fun hgood hbusy => ?_,
    fun hgood hidle => ⟨fun r hrefused => ?_, fun hgranted => ?_⟩⟩⟩
  · refine commit_answers_quiet h hq hf ((opCommit_allowed (hra hr)).trans ?_) h.quiet
    rw [commit_eq, if_pos (hbad.1 hb)]
    rfl
  · refine commit_answers_quiet h hq hf ((opCommit_allowed (hra hr)).trans ?_) h.quiet
    rw [commit_eq, if_neg (mt hbad.2 hgood), hst hgood, if_pos (by simpa using hbusy), ← hst hgood]
    rfl
  · have hv : v ≤ 63 := Nat.not_lt.1 fun hv => hgood (.inl hv)
    obtain ⟨e, he⟩ := logRefusal_eq (s := a) (mask := mask) (T := T) (r := r) hv (if i = 16 then 0x20 else i)
    have hcommit : a.commit v mask T i = ⟨6, (a.wrs (refusalWrites a v mask T r e)).raise 0x800D (0x1440 + v)
        (r.reason * 65536 + unitIdx r.unit) r.holder, []⟩ := by
      rw [commit_eq, if_neg (mt hbad.2 hgood), hst hgood, if_neg (by simpa using hidle), hw, hrefused, ← he]
    have hreply := (opCommit_allowed (T := T) (mask := mask) (hra hr)).trans
      ((congrArg (commitReply v) hcommit).trans (commitReply_judged v (show 6 ≠ 4 by decide) (show 6 ≠ 5 by decide)))
    refine ⟨_, commit_answers_quiet h hq hf hreply ?_, refusal_changes h hv op _ e⟩
    rw [State.rd_raise, refusalWrites_warmPend a mask T r e hv]
    exact h.quiet
  · refine commit_answers h hq hf ((opCommit_allowed (hra hr)).trans ?_)
    rw [commit_eq, if_neg (mt hbad.2 hgood), hst hgood, if_neg (by simpa using hidle), hw, hgranted]
    rfl

end Sys2Proof
end

section
/-! CommitMovesLatent: what a commit takes out of the Latent sets, and what enters the committed stage. -/
namespace Sys2Proof

open Machine

/-- The Latent sets are l; the queue and every byte are as in s. -/
structure LatIs (l : List (Nat × Nat)) (s t : State) : Prop where
  lat : t.lat = l
  pending : t.pending = s.pending
  mem : ∀ a, t.rdMem a = s.rdMem a
  flash : ∀ a, t.rdFlash a = s.rdFlash a

/-- That is kept by every update of registers, lists and bookkeeping. -/
theorem latIs_kept (l : List (Nat × Nat)) (s : State) : Kept (LatIs l s) := by
  constructor <;> (intros; rename_i h; exact ⟨h.lat, h.pending, h.mem, h.flash⟩)

/-- And by every change of the committed stage. -/
theorem latIs_keptCom (l : List (Nat × Nat)) (s : State) : KeptCom (LatIs l s) := by
  constructor <;> (intros; rename_i h; exact ⟨h.lat, h.pending, h.mem, h.flash⟩)

/-- An entry of the Latent sets belongs to a unit of a UMASK, by the objects as they will be (R45). -/
def latPicked (s : State) (mask : Nat) (p : Nat × Nat) : Bool :=
  match keyUnit (fun k => (alGet s.lat k).getD (s.nextRd k)) p.1 with
  | some u => (maskUnits mask).contains u
  | none => false

/-- A commit that is taken removes the entries of its units from the Latent sets and leaves the queue and every byte. -/
theorem commitTake_latIs (s : State) (v mask slot : Nat) (T : Option Nat) (w : Verdict) :
    LatIs (s.lat.filter (fun p => !(s.lat.filter (latPicked s mask)).contains p)) s (s.commitTake v mask T slot w).s := by
  have hP := latIs_kept (s.lat.filter (fun p => !(s.lat.filter (latPicked s mask)).contains p)) s
  have hC := latIs_keptCom (s.lat.filter (fun p => !(s.lat.filter (latPicked s mask)).contains p)) s
  unfold State.commitTake
  extract_lets units seq T' late trig state latView pick quads unheld emptied entered claimed owing written noted counted guess preds predicted
  have hemptied : LatIs _ s emptied := ⟨rfl, rfl, fun _ => rfl, fun _ => rfl⟩
  have hentered := grantPlaces_keeps (v := w) hP (enterCom_keeps (l := pick ++ w.ext) (salvo := v) (seq := seq) hP hC hemptied)
  have hclaimed : LatIs _ s claimed := fold_keeps hentered fun t q h => by
    split
    · exact wr_keeps hP h
    · exact h
  have hwritten : LatIs _ s written := slvWrite_keeps hP (hC.due _ _ hclaimed)
  have hcounted : LatIs _ s counted := inc_keeps hP (inc_keeps hP (inc_keeps hP (wrs_keeps hP hwritten)))
  have hpredicted : LatIs _ s predicted := fold_keeps hcounted fun t u h => predPut_keeps hP h
  exact comSync_keeps hP (wbTake_keeps hP (ite_keeps (freeUnits_keeps hP hC hpredicted) hpredicted))

/-- The committed stage is kept by every update of registers, lists and bookkeeping. -/
theorem com_kept (s : State) : Kept (fun t => t.com = s.com) := by
  constructor <;> (intros; rename_i h; exact h)

/-- Superseding and replacing what is pending leave the committed stage. -/
theorem superseded_com (s : State) (repl : List Com) (layers : List Nat) :
    (layers.foldl State.replacePending (repl.foldl State.supersede s)).com = s.com :=
  fold_keeps (P := fun t => t.com = s.com) (fold_keeps (P := fun t => t.com = s.com) rfl fun _ _ h => supersede_keeps (com_kept s) h)
    fun _ _ h => replacePending_keeps (com_kept s) h

/-- The committed stage once values have entered it. -/
theorem enterCom_com (s : State) (l : List (Nat × Nat)) (v seq : Nat) :
    (s.enterCom l v seq).com = s.com.filter (fun c => !l.any (fun p => p.1 == c.key)) ++ l.map (fun p => ⟨p.1, p.2, v, seq⟩) := by
  simp only [State.enterCom, superseded_com]

/-- Settles O21: the entries that are taken are those of the units, and the stage is what stays of it and what enters. -/
theorem commitMovesLatent : Obligations.CommitMovesLatent := by
  intro s v mask slot T w of t
  have ht := commitTake_latIs s v mask slot T w
  have hmem (p : Nat × Nat) : p ∈ t.lat ↔ p ∈ s.lat ∧ of p = false := by
    rw [ht.lat]
    simp only [List.mem_filter, Bool.not_eq_true', List.contains_eq_mem, decide_eq_false_iff_not, not_and, Bool.not_eq_true]
    exact ⟨fun h => ⟨h.1, h.2 h.1⟩, fun h => ⟨h.1, fun _ => h.2⟩⟩
  refine ⟨ht.lat, fun p hp => ((hmem p).1 hp).symm, fun p hp hof => (hmem p).2 ⟨hp, hof⟩, ht.pending, ht.mem, ht.flash, fun l seq => ?_⟩
  simp only [enterCom_com, List.mem_append, List.mem_filter, List.mem_map, Bool.not_eq_true', List.any_eq_false, beq_iff_eq]
  refine ⟨fun p hp => .inr ⟨p, hp, rfl⟩, fun e he hne => .inl ⟨he, hne⟩, fun e he => ?_⟩
  obtain ⟨he, hne⟩ | ⟨p, hp, rfl⟩ := he
  · exact .inl ⟨he, hne⟩
  · exact .inr ⟨p, hp, rfl⟩

end Sys2Proof
end

section
/-! LatentDiscardEmpties: a write of LATENT_DISCARD, by what decides the unit of an object and what a write of one object ends in. -/
namespace Sys2Proof

open Machine

/-! ## What decides an object's unit (R45) -/

/-- An object that `keyUnit` looks at: of a layer, of a Proof region, or a layer's Enlarger. -/
def unitReads (k : Nat) : Prop := (0x440000 ≤ k ∧ k < 0x600000) ∨ ∃ x < 128, k = H.layEnl x

/-- Views that agree on those objects give an Enlarger the same layer. -/
theorem enlLayer_congr {f g : Nat → Nat} (h : ∀ k, unitReads k → f k = g k) {n : Nat} (hn : n < 32) : enlLayer f n = enlLayer g n := by
  have hlt : ∀ x ∈ (List.range 16).map (fun i => 16 * (n / 4) + i), x < 128 := by
    intro x hx
    obtain ⟨i, hi, rfl⟩ := List.mem_map.1 hx
    have := List.mem_range.1 hi
    omega
  have hnamed : ∀ x ∈ (List.range 16).map (fun i => 16 * (n / 4) + i),
      (f (K.LAYER_SRC_KIND x) != 0 && f (K.LAYER_ENL_NAME x) == n) = (g (K.LAYER_SRC_KIND x) != 0 && g (K.LAYER_ENL_NAME x) == n) := by
    intro x hx
    have hx := hlt x hx
    rw [h (K.LAYER_SRC_KIND x) (.inl (by simp only [K.LAYER_SRC_KIND, K.at']; omega)),
      h (K.LAYER_ENL_NAME x) (.inl (by simp only [K.LAYER_ENL_NAME, K.at']; omega))]
  have hheld : ∀ x ∈ (List.range 16).map (fun i => 16 * (n / 4) + i), planHas (f (H.layEnl x)) n = planHas (g (H.layEnl x)) n :=
    fun x hx => by rw [h (H.layEnl x) (.inr ⟨x, hlt x hx, rfl⟩)]
  unfold enlLayer
  simp only [List.find?_congr hnamed, List.find?_congr hheld]

/-- Views that agree on those objects give an object the same unit. -/
theorem keyUnit_congr {f g : Nat → Nat} (h : ∀ k, unitReads k → f k = g k) (k : Nat) : keyUnit f k = keyUnit g k := by
  have henl : 0x5000 ≤ k / 256 ∧ k / 256 < 0x5400 → enlLayer f ((k / 256 - 0x5000) / 0x20) = enlLayer g ((k / 256 - 0x5000) / 0x20) :=
    fun hk => enlLayer_congr h (by omega)
  have hprf : 0x5C00 ≤ k / 256 ∧ k / 256 < 0x6000 →
      f (K.PRF_CFG_OUT ((k / 256 - 0x5C00) / 0x10)) = g (K.PRF_CFG_OUT ((k / 256 - 0x5C00) / 0x10)) :=
    fun hk => h _ (.inl (by simp only [K.PRF_CFG_OUT, K.at']; omega))
  by_cases h1 : 0x5000 ≤ k / 256 ∧ k / 256 < 0x5400
  · simp only [keyUnit, if_pos h1, henl h1]
  by_cases h2 : 0x5C00 ≤ k / 256 ∧ k / 256 < 0x6000
  · simp only [keyUnit, if_neg h1, if_pos h2, hprf h2]
  · simp only [keyUnit, if_neg h1, if_neg h2]

/-- An arrival changes no object `keyUnit` looks at. -/
theorem arrived_nextRd (s : State) (q : Req) {i k : Nat} (hi : i ≤ 16) (hk : unitReads k) : (arrived q i s).nextRd k = s.nextRd k := by
  have hcom : (arrived q i s).com = s.com := (storesKept_arrived s q i).com
  have hrd : (arrived q i s).rd k = s.rd k := by
    refine arrived_rd s q i k (fun hmem => ?_)
    simp only [arrivalKeys, List.mem_cons, List.not_mem_nil, or_false, K.SESS_PORT, K.SESS_ADDR, K.SESS_UDP, K.SESS_LAST_SEQ, H.sessOwn, H.lastReq,
      H.sessMute, H.warmPend, H.hk, K.at'] at hmem
    obtain hobj | ⟨x, hx, rfl⟩ := hk
    · omega
    · simp only [H.layEnl, H.hk] at hmem
      omega
  simp only [State.nextRd, hcom, hrd]

/-! ## A write that is carried out -/

/-- The answer of a write that asks for no warm reset. -/
theorem wrote_eq {s : State} {q : Req} {i k : Nat} {f : State → State} (hw : (f (arrived q i s)).rd H.warmPend ≠ 1) :
    wrote s q i k f = replied s q i 0x11 0 (bytesBE 3 k ++ [0]) ((f (arrived q i s)).inc K.IDENT_CFG_SEQ 1 (2 ^ 64)) := by
  refine afterAnswer_none ?_
  rwa [replied_rd, inc_cfgSeq_warmPend]

/-- What messages and the replay cache do not hold is after an answer as before it. -/
theorem replied_keeps {P : State → Prop} (hP : Kept P) {m : State} (s : State) (q : Req) (i op st : Nat) (p : List Nat) (h : P m) :
    P (replied s q i op st p m) := send_keeps_of hP.tx hP.spiTx _ (hP.cache _ _ h)

/-- A CMD that is carried out holds the value afterwards. -/
theorem put_cmd {s : State} {q : Req} {i k v : Nat} {l : Loc} (h : Serves s q i) (hk : k < 2 ^ 24) (hl : locate k = some l)
    (hacc : l.row.acc = .cmd) (hr : holds (s.rd (K.SESS_RIGHTS i)) l.row.wr = true) (hv : v < 256 ^ l.row.ty.size)
    (hlen : l.row.ty.size ≤ 1396) (hadm : l.admits k v = true) (hpair : (arrived q i s).pairOk l v = true) (x : List Int) (f : State → State)
    (he : writeEffect l k v ⟨q.port, i, x⟩ (arrived q i s) = ⟨0, 0, f (arrived q i s)⟩) :
    put q k v x s = .next (wrote s q i k (fun n => (f n).wr k v)) := by
  simpa only [hacc, if_true] using put_wrote h hk hl (.inr hacc) hr hv hlen hadm hpair x f he

/-! ## LATENT_DISCARD (R50) -/

/-- Where LATENT_DISCARD lies. -/
def discardLoc : Loc := ⟨.glob, 0, 0x1401, 0, ⟨0x1401, 0, 1, .oct 216, .cmd, 0, 1, 0, .any⟩⟩

/-- LATENT_DISCARD is there. -/
theorem locate_discard : locate K.LATENT_DISCARD = some discardLoc := by decide

/-- A write of LATENT_DISCARD discards. -/
theorem writeEffect_discard (v : Nat) (c : Wctx) (s : State) : writeEffect discardLoc K.LATENT_DISCARD v c s = latentDiscardWrite v s := rfl

/-- The entries of the Latent sets whose unit a UMASK does not name. -/
def undiscarded (s : State) (mask : Nat) : List (Nat × Nat) :=
  s.lat.filter (fun p => match keyUnit (fun j => (alGet s.lat j).getD (s.nextRd j)) p.1 with | some u => !(maskUnits mask).contains u | none => true)

/-- An entry stays exactly where no unit of the UMASK is its unit. -/
theorem mem_undiscarded {s : State} {mask : Nat} {p : Nat × Nat} : p ∈ undiscarded s mask ↔
    p ∈ s.lat ∧ ∀ u ∈ maskUnits mask, keyUnit (fun j => (alGet s.lat j).getD (s.nextRd j)) p.1 ≠ some u := by
  simp only [undiscarded, List.mem_filter, and_congr_right_iff]
  intro _
  cases keyUnit (fun j => (alGet s.lat j).getD (s.nextRd j)) p.1 with
  | none => simp
  | some v =>
    simp only [Bool.not_eq_true', List.contains_eq_mem, decide_eq_false_iff_not, ne_eq, Option.some.injEq]
    exact ⟨fun hv u hu he => hv (he ▸ hu), fun h hv => h v hv rfl⟩

/-- An arrival changes nothing that decides which entries stay. -/
theorem undiscarded_arrived (s : State) (q : Req) {i : Nat} (hi : i ≤ 16) (mask : Nat) : undiscarded (arrived q i s) mask = undiscarded s mask := by
  have hlat : (arrived q i s).lat = s.lat := (storesKept_arrived s q i).lat
  have hview : ∀ k, unitReads k → (alGet s.lat k).getD ((arrived q i s).nextRd k) = (alGet s.lat k).getD (s.nextRd k) :=
    fun k hk => by rw [arrived_nextRd s q hi hk]
  simp only [undiscarded, hlat, keyUnit_congr hview]

section
variable {s : State} {q : Req} {i mask : Nat}

/-- A good UMASK discards, and is noted. -/
theorem latentDiscardWrite_good (hgood : maskBad mask = false) :
    latentDiscardWrite mask s = ansOk ({ s with lat := undiscarded s mask }.wr K.LATENT_DISCARD mask) := by
  rw [latentDiscardWrite, if_neg (by rw [hgood]; decide)]
  rfl

/-- A discard empties, notes the UMASK and is answered OK. -/
theorem latentDiscard_wrote (h : Serves s q i) (hr : holds (s.rd (K.SESS_RIGHTS i)) 1 = true) (hmask : mask < 256 ^ 216)
    (hgood : maskBad mask = false) : exec (.latentDiscard q mask) s = .next (wrote s q i K.LATENT_DISCARD
      (fun m => ({ m with lat := undiscarded m mask }.wr K.LATENT_DISCARD mask).wr K.LATENT_DISCARD mask)) := by
  have hput := put_cmd h (by decide) locate_discard rfl hr hmask (by decide) (Bool.or_true _) (Bool.or_true _) []
    (fun m => { m with lat := undiscarded m mask }.wr K.LATENT_DISCARD mask) ((writeEffect_discard ..).trans (latentDiscardWrite_good hgood))
  exact hput

/-- A discard of a bad UMASK is answered RANGE. -/
theorem latentDiscard_declined (h : Serves s q i) (hr : holds (s.rd (K.SESS_RIGHTS i)) 1 = true) (hmask : mask < 256 ^ 216)
    (hbad : maskBad mask = true) : exec (.latentDiscard q mask) s = .next (declined s q i K.LATENT_DISCARD 4 [] id) := by
  refine put_declined (hd := 0) h (by decide) locate_discard (.inr rfl) hr hmask (by decide) (Bool.or_true _) (Bool.or_true _) [] id ?_ (by decide)
    (by decide) h.quiet
  rw [writeEffect_discard, latentDiscardWrite, if_pos hbad]
  rfl

end

/-- From s to t only the Latent sets changed among what the stores hold: they are l. -/
structure StoresBut (l : List (Nat × Nat)) (s t : State) : Prop where
  lat : t.lat = l
  com : t.com = s.com
  due : t.due = s.due
  mem : ∀ a, t.rdMem a = s.rdMem a
  flash : ∀ a, t.rdFlash a = s.rdFlash a

/-- That is kept by every update of registers, lists and bookkeeping. -/
theorem storesBut_kept (l : List (Nat × Nat)) (s : State) : Kept (StoresBut l s) := by
  constructor <;> (intros; rename_i h; exact ⟨h.lat, h.com, h.due, h.mem, h.flash⟩)

/-- Settles O46: a discard is a write that filters the Latent sets by the units of their objects. -/
theorem latentDiscardEmpties : Obligations.LatentDiscardEmpties := by
  intro q i mask s h hr hmask hgood unit
  have hi := slot_le h.named
  set a := arrived q i s with ha
  set m := (({ a with lat := undiscarded a mask }.wr K.LATENT_DISCARD mask).wr K.LATENT_DISCARD mask).inc K.IDENT_CFG_SEQ 1 (2 ^ 64) with hm
  have hne : H.warmPend ≠ K.LATENT_DISCARD := by decide
  have harr : RegsKept [] a { a with lat := undiscarded a mask } := fun _ _ => rfl
  have hexec : exec (.latentDiscard q mask) s = .next (replied s q i 0x11 0 (bytesBE 3 K.LATENT_DISCARD ++ [0]) m) := by
    rw [latentDiscard_wrote h hr hmask hgood, wrote_eq]
    rw [State.rd_wr_ne _ _ hne, State.rd_wr_ne _ _ hne, harr _ List.not_mem_nil]
    exact h.quiet
  have hrd (k : Nat) : (replied s q i 0x11 0 (bytesBE 3 K.LATENT_DISCARD ++ [0]) m).rd k = if k = K.IDENT_CFG_SEQ then (s.rd K.IDENT_CFG_SEQ + 1) % 2 ^ 64
      else if k = K.LATENT_DISCARD then mask else a.rd k := by
    have hcfg : a.rd K.IDENT_CFG_SEQ = s.rd K.IDENT_CFG_SEQ := arrived_obj s q hi (by decide) (by decide)
    rw [replied_rd, hm, State.inc, State.up, State.rd_wr, State.rd_wr_ne _ _ (by decide), State.rd_wr_ne _ _ (by decide), harr _ List.not_mem_nil, hcfg,
      State.rd_wr, State.rd_wr, harr _ List.not_mem_nil]
    split
    · rfl
    · split <;> rfl
  have hstores : StoresBut (undiscarded s mask) s (replied s q i 0x11 0 (bytesBE 3 K.LATENT_DISCARD ++ [0]) m) := by
    have hP := storesBut_kept (undiscarded s mask) s
    have hkept := storesKept_arrived s q i
    exact replied_keeps hP _ _ _ _ _ _ (inc_keeps hP (wr_keeps hP (wr_keeps hP
      ⟨undiscarded_arrived s q hi mask, hkept.com, hkept.due, hkept.mem, hkept.flash⟩)))
  refine ⟨_, hexec, hstores.lat, fun p _ u hu hpu hp => ?_, fun p hp hnot => ?_, fun p hp => ?_, hstores.com, hstores.due, hstores.mem,
    hstores.flash, ?_, ?_, ?_, fun k hk => ?_⟩
  · rw [hstores.lat] at hp
    exact (mem_undiscarded.1 hp).2 u hu hpu
  · rw [hstores.lat]
    exact mem_undiscarded.2 ⟨hp, hnot⟩
  · rw [hstores.lat] at hp
    exact (mem_undiscarded.1 hp).1
  · rw [raisedOf, replied_raised]
    exact congrArg _ (arrived_raised s q i)
  · rw [hrd, if_neg (by decide), if_pos rfl]
  · rw [hrd, if_pos rfl]
  · simp only [List.mem_append, List.mem_cons, List.not_mem_nil, or_false, not_or] at hk
    rw [hrd, if_neg hk.2.2, if_neg hk.2.1, arrived_rd s q i k hk.1]

end Sys2Proof
end

section
/-! The firings among a state's events. What a firing is followed by, developing the units without timing and bringing the rest in line
with the committed state, raises none and drops none (R187, R190). -/
namespace Sys2Proof.Machine

/-- The firings of a trigger (R190) among the events a state holds. -/
def firings (s : State) : List (Nat × Nat × Nat × Nat) := (raisedOf s).filter (fun e => e.1 == 0x800B)

/-! ## State operations -/

/-- The firings follow from the events. -/
theorem firings_congr {s t : State} (h : t.raised = s.raised) : firings t = firings s := by
  rw [firings, firings, raisedOf, raisedOf, h]

@[simp] theorem firings_ite (c : Prop) [Decidable c] (s t : State) : firings (if c then s else t) = if c then firings s else firings t :=
  apply_ite firings c s t

@[simp] theorem firings_wr (s : State) (k v : Nat) : firings (s.wr k v) = firings s := firings_congr rfl

@[simp] theorem firings_up (s : State) (k : Nat) (f : Nat → Nat) : firings (s.up k f) = firings s := firings_congr rfl

@[simp] theorem firings_inc (s : State) (k n m : Nat) : firings (s.inc k n m) = firings s := firings_congr rfl

@[simp] theorem firings_incSat (s : State) (k n m : Nat) : firings (s.incSat k n m) = firings s := firings_congr rfl

@[simp] theorem firings_count (s : State) (k n : Nat) : firings (s.count k n) = firings s := firings_congr rfl

@[simp] theorem firings_clr (s : State) (k : Nat) : firings (s.clr k) = firings s := firings_congr rfl

@[simp] theorem firings_setBit (s : State) (k i : Nat) (b : Bool) : firings (s.setBit k i b) = firings s := firings_congr rfl

@[simp] theorem firings_setVec (s : State) (k : Nat) (l : List Nat) : firings (s.setVec k l) = firings s := firings_congr rfl

@[simp] theorem firings_publish (s : State) (k : Nat) : firings (s.publish k) = firings s := firings_congr rfl

@[simp] theorem firings_com (s : State) (l : List Com) : firings { s with com := l } = firings s := firings_congr rfl

@[simp] theorem firings_due (s : State) (l : List Due) : firings { s with due := l } = firings s := firings_congr rfl

@[simp] theorem firings_done (s : State) (l : List Done) : firings { s with done := l } = firings s := firings_congr rfl

@[simp] theorem firings_foldl {α : Type} {f : State → α → State} (hf : ∀ t x, firings (f t x) = firings t) (l : List α) (s : State) :
    firings (l.foldl f s) = firings s := by
  induction l generalizing s with
  | nil => rfl
  | cons x l ih => rw [List.foldl_cons, ih, hf]

@[simp] theorem firings_upto {f : Nat → State → State} (hf : ∀ i t, firings (f i t) = firings t) (n : Nat) (s : State) :
    firings (s.upto n f) = firings s := firings_foldl (fun t i => hf i t) _ s

@[simp] theorem firings_wrs (s : State) (l : List (Nat × Nat)) : firings (s.wrs l) = firings s :=
  firings_foldl (f := fun t (p : Nat × Nat) => t.wr p.1 p.2) (fun _ _ => rfl) l s

/-- An event of another code is no firing. -/
@[simp] theorem firings_raise {code : Nat} (h : (code == 0x800B) = false) (s : State) (src a1 a2 : Nat) :
    firings (s.raise code src a1 a2) = firings s := by
  simp [firings, raisedOf_raise, h]

/-! ## Buffers and rings -/

@[simp] theorem firings_setAllocs (s : State) (l : List Alloc) : firings (s.setAllocs l) = firings s := firings_congr rfl

@[simp] theorem firings_release (s : State) (i : Nat) : firings (s.release i) = firings s := firings_congr rfl

@[simp] theorem firings_bufMove (s : State) (b n : Nat) : firings (s.bufMove b n) = firings s := by
  simp [State.bufMove]

@[simp] theorem firings_refUp (s : State) (b : Nat) : firings (s.refUp b) = firings s := by
  simp [State.refUp]

@[simp] theorem firings_refDown (s : State) (r b : Nat) : firings (s.refDown r b) = firings s := by
  simp [State.refDown]

@[simp] theorem firings_refsFollow (s old : State) (l : List Nat) : firings (s.refsFollow old l) = firings s := by
  simp [State.refsFollow]

@[simp] theorem firings_retireLater (s : State) (l : List Nat) : firings (s.retireLater l) = firings s := by
  simp [State.retireLater]

@[simp] theorem firings_ringRelease (s : State) (i : Nat) : firings (s.ringRelease i) = firings s := by
  simp [State.ringRelease]

@[simp] theorem firings_ringsSync (s : State) : firings s.ringsSync = firings s := by
  simp [State.ringsSync]

@[simp] theorem firings_forcedLeave (s : State) (r : Nat) : firings (s.forcedLeave r) = firings s := by
  simp [State.forcedLeave]

@[simp] theorem firings_leaveAll (s : State) (r : Nat) : firings (s.leaveAll r) = firings s := by
  simp [State.leaveAll]

/-! ## Commits that develop -/

@[simp] theorem firings_salvoDone (s : State) (v n : Nat) : firings (s.salvoDone v n) = firings s := by
  simp [State.salvoDone]

@[simp] theorem firings_countUnit (s : State) (time v n : Nat) : firings (s.countUnit time v n) = firings s := by
  simp [State.countUnit]

@[simp] theorem firings_countWaiting (s : State) (u time : Nat) : firings (s.countWaiting u time) = firings s := by
  simp [State.countWaiting]

@[simp] theorem firings_predSync (s : State) (u : Nat) : firings (s.predSync u) = firings s := by
  simp [State.predSync]

@[simp] theorem firings_predDrop (s : State) (u : Nat) (l : List Nat) : firings (s.predDrop u l) = firings s := by
  simp [State.predDrop]

@[simp] theorem firings_moveIn (s : State) (u : Nat) (l : List Com) : firings (s.moveIn u l) = firings s := by
  simp [State.moveIn]

@[simp] theorem firings_closeDue (s : State) (u : Nat) (l : List Due) (b : Bool) : firings (s.closeDue u l b) = firings s := by
  cases l with
  | nil => rfl
  | cons d l => simp [State.closeDue]

/-! ## Easels -/

@[simp] theorem firings_enlFree (s : State) (n : Nat) : firings (s.enlFree n) = firings s := by
  simp [State.enlFree]

@[simp] theorem firings_enlTake (s : State) (x : Nat) (asked : Bool) : firings (s.enlTake x asked) = firings s := by
  unfold State.enlTake
  extract_lets v
  cases planLead v with
  | none => rfl
  | some n =>
    dsimp -zeta only
    extract_lets active row rows news placed told
    have htold : firings told = firings s := by
      simp only [told]
      cases planPart v <;> simp [placed]
    simp [htold, placed]

@[simp] theorem firings_flip (s : State) (x n : Nat) (l : List Com) : firings (s.flip x n l) = firings s := by
  simp [State.flip]

@[simp] theorem firings_flipDrop (s : State) (x : Nat) (l : List Com) : firings (s.flipDrop x l) = firings s := by
  simp only [State.flipDrop, firings_count, firings_wrs, firings_com]
  exact firings_raise rfl ..

@[simp] theorem firings_flipForce (s : State) (x : Nat) (l : List Com) : firings (s.flipForce x l) = firings s := by
  simp [State.flipForce]

@[simp] theorem firings_flipWait (s : State) (x : Nat) (b : Bool) : firings (s.flipWait x b) = firings s := by
  simp [State.flipWait]

@[simp] theorem firings_flipGroup (s : State) (xs seqs : List Nat) : firings (s.flipGroup xs seqs) = firings s := by
  simp [State.flipGroup]

@[simp] theorem firings_flips (s : State) (e : Nat) (seqs : List Nat) : firings (s.flips e seqs) = firings s := by
  simp [State.flips]

@[simp] theorem firings_devEas (s : State) (e : Nat) (l : List Due) : firings (s.devEas e l) = firings s := by
  simp [State.devEas]

/-! ## Converters -/

@[simp] theorem firings_frcMove (s : State) (f k n : Nat) : firings (s.frcMove f k n) = firings s := by
  simp [State.frcMove]

@[simp] theorem firings_setHeld (s : State) (x : Nat) (l : List Held) : firings (s.setHeld x l) = firings s := firings_congr rfl

@[simp] theorem firings_frcFix (s : State) (f k : Nat) : firings (s.frcFix f k) = firings s := firings_congr rfl

@[simp] theorem firings_frcPrime (s : State) (f k : Nat) : firings (s.frcPrime f k) = firings s := by
  unfold State.frcPrime
  simp only [firings_frcMove]
  split <;> simp

@[simp] theorem firings_frcRecover (s : State) (f k n : Nat) : firings (s.frcRecover f k n) = firings s := by
  simp [State.frcRecover]

@[simp] theorem firings_frcDeveloped (s old : State) (f : Nat) : firings (s.frcDeveloped old f) = firings s := by
  simp [State.frcDeveloped]

@[simp] theorem firings_devFrc (s : State) (f : Nat) (l : List Due) : firings (s.devFrc f l) = firings s := by
  simp [State.devFrc]

/-! ## Outputs, families, destinations -/

@[simp] theorem firings_devOut (s : State) (n : Nat) (l : List Due) : firings (s.devOut n l) = firings s := by
  simp [State.devOut]

@[simp] theorem firings_devGsyn (s : State) (g : Nat) (l : List Due) : firings (s.devGsyn g l) = firings s := by
  simp [State.devGsyn]

@[simp] theorem firings_devDst (s : State) (d : Nat) (l : List Due) : firings (s.devDst d l) = firings s := by
  simp [State.devDst]

@[simp] theorem firings_develop (s : State) (u : Nat) (free : Bool) : firings (s.develop u free) = firings s := by
  simp [State.develop]

@[simp] theorem firings_predPut (s : State) (u n frame : Nat) : firings (s.predPut u n frame) = firings s := by
  simp [State.predPut]

/-- A trigger that fires raises its event at the time of day (R190). -/
theorem firings_fire (s : State) (p v : Nat) :
    firings (s.fire p v) = firings s ++ [(0x800B, 0x1440 + v, (p * 256 + v) % 2 ^ 32, s.tod % 1000000000 % 2 ^ 32)] := by
  unfold State.fire
  rw [firings_foldl (fun t u => firings_predPut ..), firings_due, firings, raisedOf_raise, List.filter_append]
  rfl

/-! ## What is on air -/

@[simp] theorem firings_publishIf (s : State) (u : Nat) (p : Nat → Bool) : firings (s.publishIf u p) = firings s := by
  simp [State.publishIf]

@[simp] theorem firings_publishAll (s : State) (u : Nat) : firings (s.publishAll u) = firings s := by
  simp [State.publishAll]

@[simp] theorem firings_bracketSync (s : State) (n old : Nat) : firings (s.bracketSync n old) = firings s := by
  simp [State.bracketSync]

@[simp] theorem firings_publishPicture (s : State) (n : Nat) : firings (s.publishPicture n) = firings s := by
  simp [State.publishPicture]

@[simp] theorem firings_contractEnd (s : State) (n frame : Nat) (con : Bool) : firings (s.contractEnd n frame con) = firings s := by
  simp [State.contractEnd]

@[simp] theorem firings_routeClear (s : State) (n : Nat) : firings (s.routeClear n) = firings s := by
  simp [State.routeClear]

@[simp] theorem firings_txqSync (s : State) (q : Nat) : firings (s.txqSync q) = firings s := by
  simp [State.txqSync]

@[simp] theorem firings_developFree (s : State) (u : Nat) : firings (s.developFree u) = firings s := by
  simp [State.developFree]

@[simp] theorem firings_freeUnits (s : State) (units : List Nat) : firings (s.freeUnits units) = firings s := by
  simp [State.freeUnits]

/-! ## Protection and the Test Strip -/

@[simp] theorem firings_mirrorsSync (s : State) : firings s.mirrorsSync = firings s := by
  simp [State.mirrorsSync]

@[simp] theorem firings_wbSync (s : State) : firings s.wbSync = firings s := by
  simp [State.wbSync]

@[simp] theorem firings_tpgSync (s : State) : firings s.tpgSync = firings s := by
  simp [State.tpgSync]

@[simp] theorem firings_protSync (s : State) : firings s.protSync = firings s := by
  simp [State.protSync]

@[simp] theorem firings_shadowSet (s : State) (e n : Nat) : firings (s.shadowSet e n) = firings s := by
  simp [State.shadowSet]

@[simp] theorem firings_tstSync (s : State) : firings s.tstSync = firings s := by
  unfold State.tstSync
  extract_lets claims free s' on runs cands turns
  have hturns : firings turns = firings s' := by
    refine firings_upto (fun x t => ?_) 2 s'
    extract_lets cur keep raised idle
    have hidle : firings idle = firings t := by simp [idle, raised]
    cases keep
    · cases idle.nextTurn cands <;> simp [hidle]
    · rfl
  simp [hturns, s']

@[simp] theorem firings_comSync (s : State) (units : List Nat) : firings (s.comSync units) = firings s := by
  simp [State.comSync]

/-! ## The edge of a trigger -/

/-- The salvos an edge at pin p fires: ARMED with this trigger, and accepted in an earlier tick (R190). -/
def triggered (p : Nat) (s : State) : List Nat :=
  (List.range 64).filter (fun v => s.rd (K.SLV_STATE v) == 1 && s.rd (K.SLV_TRIGGER v) == p
    && !s.due.any (fun d => d.seq == s.rd (K.SLV_SEQ v) && d.at' == s.now))

/-- An edge at a pin that is watched fires them in turn, once its hold-off has begun. -/
theorem salvoTrigger_fires {p : Fin 32} {s : State} (hready : s.pdReady 55 = true) (hfunc : s.rd (K.PIN_FUNC p.val) = 6)
    (hfree : s.rd (H.trigHold p.val) = 0) (hsome : triggered p.val s ≠ []) :
    ∃ units, exec (.salvoTrigger p) s = .next (((((triggered p.val s).foldl (fun t v => t.fire p.val v)
      (s.wr (H.trigHold p.val) (s.now + 1))).freeUnits units).comSync units)) := by
  have hpin : ¬((!s.pdReady 55) = true ∨ s.rd (K.PIN_FUNC p.val) ≠ 6) := by simp [hready, hfunc]
  have hhold : ¬(s.rd (H.trigHold p.val) ≠ 0 ∧ s.now < s.rd (H.trigHold p.val) + 10000) := by simp [hfree]
  have hlist : ¬((triggered p.val s).isEmpty = true) := by simp [hsome]
  exact ⟨_, (if_neg hpin).trans ((if_neg hhold).trans (if_neg hlist))⟩

end Sys2Proof.Machine
end

section
/-! A trigger fires in a state whose TOD.SEL names no time selector but the hold-off of the pin (R190): the firing starts the hold-off, and
its event carries what that wrote and not the time of day before it. A write of TOD.SEL takes 0 and 1 only (spec/04, 9C10.01), but the
statement is about every state. -/
namespace Sys2Proof
open Machine

/-- Salvo 0 is ARMED on pin 0, a READY pin of function SALVO_TRIGGER; TOD.SEL points at the pin's hold-off. -/
def clockAtHoldoff : State :=
  { State.reset with
    reg := [(K.SLV_STATE 0, 1), (K.SLV_TRIGGER 0, 0), (K.PD_STATE 55, 3), (K.PIN_FUNC 0, 6), (K.TOD_SEL, 260 * 2 ^ 24)] }

/-- Salvo 0 is the one the edge fires. -/
theorem clockAtHoldoff_triggered : triggered 0 clockAtHoldoff = [0] := by decide

/-- The event of the firing carries what the firing has written to the hold-off. -/
theorem clockAtHoldoff_fires : ∃ t, exec (.salvoTrigger 0) clockAtHoldoff = .next t ∧ firings t = [(0x800B, 0x1440, 0, 1)] := by
  have hsome : triggered (0 : Fin 32).val clockAtHoldoff ≠ [] := clockAtHoldoff_triggered.trans_ne (by decide)
  obtain ⟨units, h⟩ := salvoTrigger_fires (p := 0) (s := clockAtHoldoff) (by decide) (by decide) (by decide) hsome
  refine ⟨_, h, ?_⟩
  rw [firings_comSync, firings_freeUnits, show (0 : Fin 32).val = 0 from rfl, clockAtHoldoff_triggered, List.foldl_cons, List.foldl_nil,
    firings_fire]
  decide

/-- Nothing is due. -/
theorem clockAtHoldoff_due : clockAtHoldoff.due = [] := rfl

/-- Refutes O47: where TOD.SEL names no selector but the hold-off of the pin, the event of a firing does not carry the time of day. -/
theorem not_salvosWaitAndFire : ¬ Obligations.SalvosWaitAndFire := by
  intro h
  obtain ⟨-, htrigger, -⟩ := h clockAtHoldoff
  obtain ⟨-, -, -, hfires, -⟩ := htrigger 0
  have harmed : ∀ d ∈ clockAtHoldoff.due, d.seq = clockAtHoldoff.rd (K.SLV_SEQ 0) → d.at' ≠ clockAtHoldoff.now := by
    simp [clockAtHoldoff_due]
  obtain ⟨u, units, hexec, -, -, -, -, hsalvo, -⟩ :=
    hfires (by decide) (by decide) ⟨0, by decide, by decide, by decide, harmed⟩
  obtain ⟨-, -, hevent, -⟩ := hsalvo 0 ⟨by decide, by decide, by decide, harmed⟩
  obtain ⟨t, ht, hfirings⟩ := clockAtHoldoff_fires
  rw [ht] at hexec
  injection hexec with hexec
  rw [hexec, firings_comSync, firings_freeUnits] at hfirings
  have hmem : (0x800B, 0x1440 + 0, 0 * 256 + 0, clockAtHoldoff.tod % 1000000000) ∈ firings u :=
    List.mem_filter.mpr ⟨hevent, rfl⟩
  rw [hfirings] at hmem
  exact absurd hmem (by decide)

end Sys2Proof
end

section
/-! SUPPORT. A datagram at the door of the block: what is discarded and what reaches an operation; a request of an open session that is a
retry or out of date. -/
namespace Sys2Proof

open Machine

/-! ## The door (R68, R71) -/

/-- Without an active pair a datagram changes nothing. -/
theorem recv_of_off {s : State} (h : s.rd H.mgmtOn ≠ 1) (op : Nat) (q : Req) (x : List Int) : recv op q x s = .next s := by
  have hoff : s.mgmtOn = false := by simpa [State.mgmtOn] using h
  simp [recv, State.arrive, hoff]

/-- A datagram the block receives, whatever its header: a pair serves outside RECOVERY, and it comes to the SPI target or to a control port
that hears it (R62, R64, R71). -/
structure Reaches (s : State) (q : Req) : Prop where
  on : s.rd H.mgmtOn = 1
  normal : s.rd H.recov ≠ 1
  port : q.port ≤ 2
  hears : q.port < 2 → s.hears q = true

/-- The port's checks one by one. -/
theorem hears_of {s : State} {q : Req} (hup : s.rd (K.PD_STATE (3 + q.port)) = 3 ∧ s.rd (K.CTL_ENABLE q.port) = 1)
    (hhere : q.dport = s.rd (K.CTL_QCP_PORT q.port) ∧ s.ownAddr q.port q.dst = true) : s.hears q = true := by
  simp [State.hears, State.pdReady, hup, hhere]

/-- What passes the door is received. -/
theorem Door.reaches {s : State} {q : Req} (h : Door s q) : Reaches s q :=
  ⟨h.on, h.normal, h.port, fun hp => hears_of (h.up hp) (h.here hp)⟩

section
variable {s : State} {q : Req} {op : Nat}

/-- A received datagram is discarded or goes where its OP and flags send it. -/
theorem Reaches.arrive (h : Reaches s q) (x : List Int) : s.arrive op q x =
    if badHeader op q then s.discard q.port
    else if op = 0x32 ∧ q.flags.testBit 7 then s.ack q
    else if op ≠ 1 then s.request op q x
    else if q.port = 2 then s.helloSpi q
    else if q.flags.testBit 3 then s.helloAgain q
    else s.helloOpen q := by
  have hon : (!s.mgmtOn) = false := by simp [State.mgmtOn, h.on]
  have hin : ¬ (2 < q.port ∨ (q.port < 2 ∧ ((!s.hears q) = true ∨ s.rd H.recov = 1))) := by
    rintro (hp | ⟨hp, hno | hrec⟩)
    · exact absurd h.port (by omega)
    · simp [h.hears hp] at hno
    · exact h.normal hrec
  simp only [State.arrive, hon, Bool.false_eq_true, if_false]
  rw [if_neg hin]

/-- The door does not look at the other flags. -/
theorem Door.of_flags (h : Door s q) {f : Nat} (hf : f.testBit 7 = false) : Door s { q with flags := f } :=
  ⟨h.on, h.normal, h.port, h.up, h.here, h.magic, hf⟩

/-- The header of what passes the door is good where its LEN is. -/
theorem Door.goodHeader (h : Door s q) (hq : LenOk q) : badHeader op q = false := by
  obtain ⟨hlen, hmax⟩ := hq
  simp [badHeader, h.magic, h.plain, hlen, hlen ▸ hmax]

/-- What passes the door goes to its operation. -/
theorem Door.arrive (h : Door s q) (hq : LenOk q) (x : List Int) : s.arrive op q x =
    if op ≠ 1 then s.request op q x
    else if q.port = 2 then s.helloSpi q
    else if q.flags.testBit 3 then s.helloAgain q
    else s.helloOpen q := by
  have hack : ¬ (op = 0x32 ∧ q.flags.testBit 7 = true) := by simp [h.plain]
  rw [h.reaches.arrive, h.goodHeader hq, if_neg (by decide), if_neg hack]

/-! ## HELLO (R72) -/

/-- HELLO clears RESUME and leaves ANSWER. -/
theorem hello_flags (f : Nat) : (f &&& 0xF7).testBit 3 = false ∧ (f &&& 0xF7).testBit 7 = f.testBit 7 := by
  simp only [Nat.testBit_and]
  rw [show Nat.testBit 0xF7 3 = false by decide, show Nat.testBit 0xF7 7 = true by decide]
  simp

/-- HELLO with RESUME sets RESUME and leaves ANSWER. -/
theorem helloResume_flags (f : Nat) : (f ||| 8).testBit 3 = true ∧ (f ||| 8).testBit 7 = f.testBit 7 := by
  simp only [Nat.testBit_or]
  rw [show Nat.testBit 8 3 = true by decide, show Nat.testBit 8 7 = false by decide]
  simp

/-- HELLO at a control port. -/
theorem Door.exec_hello (h : Door s q) (hq : LenOk q) (hp : q.port < 2) : exec (.hello q) s = .next (s.helloOpen q) := by
  obtain ⟨h3, h7⟩ := hello_flags q.flags
  have hd : Door s { q with flags := q.flags &&& 0xF7 } := h.of_flags (h7.trans h.plain)
  refine congrArg Host.Outcome.next ((hd.arrive hq []).trans ?_)
  rw [if_neg (by decide), if_neg (Nat.ne_of_lt hp), h3]
  rfl

/-- HELLO with RESUME at a control port. -/
theorem Door.exec_helloResume (h : Door s q) (hq : LenOk q) (hp : q.port < 2) : exec (.helloResume q) s = .next (s.helloAgain q) := by
  obtain ⟨h3, h7⟩ := helloResume_flags q.flags
  have hd : Door s { q with flags := q.flags ||| 8 } := h.of_flags (h7.trans h.plain)
  refine congrArg Host.Outcome.next ((hd.arrive hq []).trans ?_)
  rw [if_neg (by decide), if_neg (Nat.ne_of_lt hp), h3]
  rfl

/-- HELLO at the SPI target, with or without RESUME. -/
theorem Door.exec_helloSpi (h : Door s q) (hq : LenOk q) (hp : q.port = 2) {c : Instr} (hc : c = .hello q ∨ c = .helloResume q) :
    exec c s = .next (s.helloSpi q) := by
  have go (f : Nat) (h7 : f.testBit 7 = q.flags.testBit 7) : s.arrive 1 { q with flags := f } [] = s.helloSpi q := by
    rw [(h.of_flags (h7.trans h.plain)).arrive hq, if_neg (by decide), if_pos hp]
    rfl
  obtain rfl | rfl := hc
  · exact congrArg Host.Outcome.next (go _ (hello_flags _).2)
  · exact congrArg Host.Outcome.next (go _ (helloResume_flags _).2)

/-! ## The cache and LAST_SEQ (R77) -/

/-- Where no entry fits, a request is not answered from the cache. -/
theorem cached_eq_none {i : Nat} (h : ∀ e ∈ s.cache, ¬ (e.slot = i ∧ (i = 17 → e.addr = q.addr ∧ e.udp = q.udp) ∧ e.seq = q.seq ∧
    s.now ≤ e.at' + s.replayTicks)) : s.cached i q = none := by
  refine List.find?_eq_none.2 fun e he hfit => h e he ?_
  simp only [Bool.and_eq_true, Bool.or_eq_true, beq_iff_eq, bne_iff_ne, decide_eq_true_eq] at hfit
  obtain ⟨⟨⟨hslot, hsrc⟩, hseq⟩, hnow⟩ := hfit
  exact ⟨hslot, fun h17 => hsrc.resolve_left (fun hne => hne h17), hseq, hnow⟩

/-- A heard request is of a session that is open. -/
theorem Heard.not_shut {i : Nat} (h : Heard s q i) : ¬ (i ≠ spiSlot ∧ s.rd (K.SESS_STATE i) ≠ 1) := fun hc => hc.2 (h.open' hc.1)

/-- A heard request of a known operation is in its session's generation. -/
theorem Heard.not_foreign {i : Nat} (h : Heard s q i) (hop : opKnown op = true) :
    (!opKnown op || q.gen != s.rd (K.SESS_GEN i)) = false := by simp [hop, h.gen]

/-- A retry is answered from the cache. -/
theorem Heard.replays {i : Nat} (h : Heard s q i) (hq : LenOk q) (hop : opKnown op = true) (h1 : op ≠ 1) (x : List Int) {e : Cached}
    (hc : s.cached i q = some e) : recv op q x s = .next ((s.touch i q).resend q e) := by
  rw [recv, h.toDoor.arrive hq, if_pos h1]
  simp only [State.request, h.named, hc]
  rw [if_neg h.not_shut, h.not_foreign hop, if_neg (by decide)]

/-- A request that is out of date is counted. -/
theorem Heard.stale {i : Nat} (h : Heard s q i) (hq : LenOk q) (hop : opKnown op = true) (h1 : op ≠ 1) (x : List Int)
    (hc : s.cached i q = none) (hold : newer q.seq (s.rd (K.SESS_LAST_SEQ i)) = false) :
    recv op q x s = .next (s.incSat K.QCP_STALE_SEQ 1 0xFFFFFFFF) := by
  rw [recv, h.toDoor.arrive hq, if_pos h1]
  simp only [State.request, h.named, hc, hold]
  rw [if_neg h.not_shut, h.not_foreign hop, if_neg (by decide), if_pos (by decide)]

end

/-! ## What a valid request of a session writes (R63, R72) -/

/-- The registers a valid request of session i writes: an arrival's without LAST_SEQ. -/
def touchKeys (i : Nat) : List Nat :=
  [K.SESS_PORT i, H.lastReq i, H.sessMute i, H.warmPend, K.SESS_ADDR i, K.SESS_UDP i, H.sessOwn i]

/-- An arrival writes LAST_SEQ besides. -/
theorem mem_arrivalKeys {i k : Nat} : k ∈ arrivalKeys i ↔ k ∈ touchKeys i ∨ k = K.SESS_LAST_SEQ i := by
  simp only [arrivalKeys, touchKeys, List.mem_cons, List.not_mem_nil, or_false, or_assoc]

/-- A valid request writes no other register. -/
theorem touch_rd (s : State) (q : Req) {i k : Nat} (hk : k ∉ touchKeys i) : (s.touch i q).rd k = s.rd k := by
  refine rd_wrs_ne _ _ _ (fun p hp => ?_)
  rintro rfl
  refine hk ?_
  simp only [touchKeys, List.mem_cons, List.not_mem_nil, or_false, List.mem_append] at hp ⊢
  obtain (rfl | rfl | rfl | rfl) | hp := hp
  iterate 4 simp
  split at hp
  · cases hp
  · simp only [List.mem_cons, List.not_mem_nil, or_false] at hp
    obtain rfl | rfl | rfl := hp
    iterate 3 simp

/-- A valid request writes nothing but registers. -/
theorem touch_eq_reg (s : State) (q : Req) (i : Nat) : s.touch i q = { s with reg := (s.touch i q).reg } := wrs_eq_reg _ _

/-- No register that a valid request writes is an object outside the session records. -/
theorem obj_not_mem_touchKeys {i k : Nat} (hi : i ≤ 16) (hk : k < 0x111000 ∨ 0x112100 ≤ k) (hobj : k < 2 ^ 24) : k ∉ touchKeys i := by
  simp only [touchKeys, List.mem_cons, List.not_mem_nil, or_false, K.SESS_PORT, K.SESS_ADDR, K.SESS_UDP, H.sessOwn, H.lastReq, H.sessMute,
    H.warmPend, H.hk, K.at']
  omega

/-- Nor any object of a session record but PORT, ADDR and UDP. -/
theorem sess_not_mem_touchKeys {i j m : Nat} (hi : i ≤ 16) (hj : j ≤ 16) (hm : m < 256) (h5 : m < 5 ∨ 7 < m) :
    K.at' (0x1110 + j) m ∉ touchKeys i := by
  simp only [touchKeys, List.mem_cons, List.not_mem_nil, or_false, K.SESS_PORT, K.SESS_ADDR, K.SESS_UDP, H.sessOwn, H.lastReq, H.sessMute,
    H.warmPend, H.hk, K.at']
  omega

end Sys2Proof
end

section
/-! NobodyServes and ReplayAnswersOnce: a part without a management pair; a retry and a request out of date. -/
namespace Sys2Proof

open Machine

/-- Settles O14: every request arrives at the door, which is shut. -/
theorem nobodyServes : Obligations.NobodyServes := by
  intro q x s h
  have idle (op : Nat) (q : Req) (x : List Int) : recv op q x s = .next s := recv_of_off h op q x
  exact ⟨idle .., idle .., idle .., idle .., idle .., idle .., idle .., idle .., idle .., idle .., idle .., idle .., idle .., idle .., idle ..,
    idle ..⟩

/-- A cached answer sent again by a port that is up. -/
theorem resend_up {s : State} {q : Req} (hp : q.port < 2) (hup : s.rd (K.PD_STATE (3 + q.port)) = 3 ∧ s.rd (K.CTL_ENABLE q.port) = 1)
    (e : Cached) : s.resend q e
      = { s with tx := s.tx ++ e.ans.map (fun m => { m with port := q.port, own := q.dst, addr := q.addr, udp := q.udp }) } := by
  refine foldl_send_up hp hup (fun m hm => ?_)
  obtain ⟨n, -, rfl⟩ := List.mem_map.1 hm
  rfl

/-- A retry changes what a valid request of its session does, and sends the answer. -/
theorem replay_changes {s : State} {q : Req} {i : Nat} (h : Heard s q i) (e : Cached) :
    let t := (s.touch i q).resend q e
    RegsKept (arrivalKeys i) s t ∧ t.rd (K.SESS_LAST_SEQ i) = s.rd (K.SESS_LAST_SEQ i) ∧ StoresKept s t ∧
      raisedOf t = raisedOf s ∧ t.cache = s.cache ∧
      (q.port < 2 → t.tx = s.tx ++ e.ans.map (fun m => { m with port := q.port, own := q.dst, addr := q.addr, udp := q.udp })) := by
  intro t
  have hi := slot_le h.named
  have hrd {k : Nat} (hk : k ∉ touchKeys i) : t.rd k = s.rd k := (foldl_send_rd _ _ k).trans (touch_rd s q hk)
  refine ⟨fun k hk => hrd (fun hmem => hk (mem_arrivalKeys.2 (.inl hmem))), hrd (sess_not_mem_touchKeys hi hi (by decide) (by decide)),
    resend_keeps (storesKept_kept s) (touch_keeps (storesKept_kept s) (storesKept_refl s)), ?_, ?_, fun hp => ?_⟩
  · have hraised : t.raised = s.raised := (foldl_send_raised _ _).trans (by rw [touch_eq_reg])
    rw [raisedOf, hraised, raisedOf]
  · refine foldl_keeps (P := fun u : State => u.cache = s.cache) _
      (fun u m hu => send_keeps_of (P := fun u => u.cache = s.cache) (fun _ _ => id) (fun _ _ => id) m hu) ?_
    rw [touch_eq_reg]
  · have hpd {k : Nat} (hk : k < 0x111000 ∨ 0x112100 ≤ k) (hobj : k < 2 ^ 24) : (s.touch i q).rd k = s.rd k :=
      touch_rd s q (obj_not_mem_touchKeys hi hk hobj)
    have hup : (s.touch i q).rd (K.PD_STATE (3 + q.port)) = 3 ∧ (s.touch i q).rd (K.CTL_ENABLE q.port) = 1 := by
      rw [hpd (by simp only [K.PD_STATE, K.at']; omega) (by simp only [K.PD_STATE, K.at']; omega),
        hpd (by simp only [K.CTL_ENABLE, K.at']; omega) (by simp only [K.CTL_ENABLE, K.at']; omega)]
      exact h.up hp
    show ((s.touch i q).resend q e).tx = _
    rw [resend_up hp hup, touch_eq_reg]

/-- Settles O13: a retry is answered from the cache, a request out of date is counted. -/
theorem replayAnswersOnce : Obligations.ReplayAnswersOnce := by
  intro q x i s
  refine ⟨fun h hq c hc => ?_, rfl⟩
  have hexec : ∃ op y, opKnown op = true ∧ op ≠ 1 ∧ exec c s = recv op q y s := by
    obtain rfl | rfl := hc
    · exact ⟨0x11, x, by decide, by decide, rfl⟩
    · exact ⟨0x20, [], by decide, by decide, rfl⟩
  obtain ⟨op, y, hop, h1, hexec⟩ := hexec
  refine ⟨fun e he => ⟨_, hexec.trans (h.replays hq hop h1 y he), replay_changes h e⟩, fun hnone hold => ?_⟩
  have hc : s.cached i q = none := cached_eq_none fun e he ⟨hslot, _, hfit⟩ => hnone e he ⟨hslot, hfit⟩
  refine ⟨_, hexec.trans (h.stale hq hop h1 y hc hold), ?_, fun k hk => ?_, (List.append_nil _).symm, (onlyRegisters_refl s).wr _ _⟩
  · simp only [List.mem_singleton, forall_eq]
    exact State.rd_wr_self ..
  · exact State.rd_wr_ne _ _ (by simpa using hk)

end Sys2Proof
end

section
/-! SessionsAliveAndGone fails in a state whose TOD.SEL names no time selector but the session's last-request register (R69, R72): the PING's
arrival restarts the session's timer, and the time of day it is answered with is what that wrote and not the time before it. A write of
TOD.SEL takes 0 and 1 only (spec/04, 9C10.01), but the statement is about every state. -/
namespace Sys2Proof

open Machine

/-- A part whose SPI session was last heard 5 us after the present; TOD.SEL points at that register. -/
def clockAtLastRequest : State := { State.reset with reg := [(K.TOD_SEL, 10 * 2 ^ 24 + 16), (H.lastReq 16, 5), (H.mgmtOn, 1)] }

/-- A PING at the SPI target. -/
def spiPing : Req := ⟨2, 0, 0, 0, 0, 0x5A51, 3, 0, 0, 1, 0, 0, []⟩

/-- The SPI session of that part is served. -/
theorem clockAtLastRequest_serves : Serves clockAtLastRequest spiPing 16 where
  on := by decide
  normal := by decide
  port := by decide
  up := fun h => absurd h (by decide)
  here := fun h => absurd h (by decide)
  magic := rfl
  plain := by decide
  named := rfl
  open' := fun h => absurd rfl h
  gen := by decide
  uncached := fun _ h => by cases h
  newer := by decide

/-- A PING is answered with the time as it is once the request has arrived. -/
theorem ping_answers {s : State} {q : Req} {i : Nat} (h : Serves s q i) (hq : LenOk q) :
    exec (.ping q) s = .next (replied s q i 3 0 (bytesBE 10 (arrived q i s).todP ++ [(arrived q i s).rd K.MGMT_ACTIVE,
      (arrived q i s).rd (K.SESS_RIGHTS i)]) (arrived q i s)) :=
  h.answer_quiet (op := 3) (x := []) hq (by decide) (by decide) (Nat.zero_le _) rfl h.quiet

/-- The arrival moves the clock of that part from 5 to 0 ns. -/
theorem clockAtLastRequest_moves : clockAtLastRequest.todP = 5 ∧ (arrived spiPing 16 clockAtLastRequest).todP = 0 := by decide

/-- Refutes O12: where TOD.SEL names no selector but the session's last-request register, a PING is not answered with the time of day it
arrived at. -/
theorem not_sessionsAliveAndGone : ¬ Obligations.SessionsAliveAndGone := by
  intro h
  obtain ⟨hserved, -⟩ := h
  obtain ⟨hping, -⟩ := hserved spiPing 16 clockAtLastRequest clockAtLastRequest_serves ⟨rfl, by decide⟩
  rw [ping_answers clockAtLastRequest_serves ⟨rfl, by decide⟩, clockAtLastRequest_moves.1, clockAtLastRequest_moves.2] at hping
  injection hping with hstate
  exact absurd (congrArg (fun t => t.spiTx.map (fun m => m.drop 16)) hstate) (by decide)

end Sys2Proof
end

section
/-! BadDatagramsAreDiscarded: what a discard counts and reports. -/
namespace Sys2Proof

open Machine

/-! ## An event limited to one a second (log 10) -/

/-- Occurrences of a limited event since the last report, with the present one. -/
def occurrences (s : State) (id : Nat) : Nat := (s.rd (H.limCnt id) + 1) % 2 ^ 32

/-- A second has passed since the limited event was last reported, or it never was. -/
def quietSince (s : State) (id : Nat) : Prop := s.rd (H.limLast id) = 0 ∨ s.rd (H.limLast id) + 999999 ≤ s.now

section
variable {s : State} {id : Nat} (code src : Nat) (args : Nat → Nat × Nat)

/-- Counting an occurrence moves neither the clock nor the tick of the last report. -/
theorem count_quietSince (n : Nat) : quietSince (s.wr (H.limCnt id) n) id ↔ quietSince s id := by
  have hlast : (s.wr (H.limCnt id) n).rd (H.limLast id) = s.rd (H.limLast id) :=
    State.rd_wr_ne _ _ (by simp only [H.limCnt, H.limLast, H.hk]; omega)
  have hnow : (s.wr (H.limCnt id) n).now = s.now := State.rd_wr_ne _ _ (by simp only [H.limCnt, H.now, H.hk]; omega)
  rw [quietSince, quietSince, hlast, hnow]

/-- A report that is due. -/
theorem raiseLim_quiet (h : quietSince s id) :
    s.raiseLim id code src args = ((((s.wr (H.limCnt id) (occurrences s id)).raise code src (args (occurrences s id)).1
      (args (occurrences s id)).2).wr (H.limCnt id) 0).wr (H.limLast id) (s.now + 1)) := by
  have hnow : (s.wr (H.limCnt id) (occurrences s id)).now = s.now := State.rd_wr_ne _ _ (by simp only [H.limCnt, H.now, H.hk]; omega)
  have hcnt : (s.wr (H.limCnt id) (occurrences s id)).rd (H.limCnt id) = occurrences s id := State.rd_wr_self ..
  refine (if_pos ((count_quietSince _).2 h)).trans ?_
  show (((s.wr (H.limCnt id) (occurrences s id)).raise code src
    (args ((s.wr (H.limCnt id) (occurrences s id)).rd (H.limCnt id))).1
    (args ((s.wr (H.limCnt id) (occurrences s id)).rd (H.limCnt id))).2).wr (H.limCnt id) 0).wr (H.limLast id)
    ((s.wr (H.limCnt id) (occurrences s id)).now + 1) = _
  rw [hcnt, hnow]

/-- A report that is held back. -/
theorem raiseLim_held (h : ¬ quietSince s id) : s.raiseLim id code src args = s.wr (H.limCnt id) (occurrences s id) :=
  if_neg (mt (count_quietSince _).1 h)

end

/-! ## A discard (R68, R90) -/

/-- The counter of a port's discarded datagrams. -/
def discardKey (port : Nat) : Nat := if port = 2 then K.SPI_RX_DISCARD else K.CTL_RX_DISCARD port

/-- Where a port's MALFORMED comes from. -/
def discardSrc (port : Nat) : Nat := if port = 2 then 0x1140 else 0x1130 + 8 * port

/-- A discard is counted, then reported. -/
theorem discard_eq (s : State) (port : Nat) : s.discard port = (s.wr (discardKey port) (min (s.rd (discardKey port) + 1) 0xFFFFFFFF)).raiseLim
    (3000 + port) 0x8008 (discardSrc port) (fun n => (port, n)) := rfl

/-- The counter of discards is an object. -/
theorem discardKey_lt {port : Nat} (hp : port ≤ 2) : discardKey port < 2 ^ 24 := by
  unfold discardKey
  split <;> simp only [K.SPI_RX_DISCARD, K.CTL_RX_DISCARD, K.at'] <;> omega

section
variable {s : State} {c : Instr} {port : Nat}

/-- A register that is no object is as before the count. -/
theorem count_discard_rd (hp : port ≤ 2) (v : Nat) {k : Nat} (hk : 2 ^ 24 ≤ k) : (s.wr (discardKey port) v).rd k = s.rd k :=
  State.rd_wr_ne _ _ (by have := discardKey_lt hp; omega)

/-- Counting a discard bears neither on what is due to be reported nor on its count. -/
theorem count_discard (hp : port ≤ 2) (v : Nat) :
    (quietSince (s.wr (discardKey port) v) (3000 + port) ↔ quietSince s (3000 + port)) ∧
    occurrences (s.wr (discardKey port) v) (3000 + port) = occurrences s (3000 + port) ∧ (s.wr (discardKey port) v).now = s.now := by
  have hnow : (s.wr (discardKey port) v).now = s.now := count_discard_rd hp v (by decide)
  have hcnt := count_discard_rd (s := s) hp v (k := H.limCnt (3000 + port)) (by simp only [H.limCnt, H.hk]; omega)
  have hlast := count_discard_rd (s := s) hp v (k := H.limLast (3000 + port)) (by simp only [H.limLast, H.hk]; omega)
  exact ⟨by rw [quietSince, quietSince, hlast, hnow], by rw [occurrences, occurrences, hcnt], hnow⟩

/-- A command that is discarded while a report is due. -/
theorem does_discard_quiet (hp : port ≤ 2) (hc : exec c s = .next (s.discard port)) (h : quietSince s (3000 + port)) :
    Does c s [(discardKey port, min (s.rd (discardKey port) + 1) 0xFFFFFFFF), (H.limCnt (3000 + port), 0), (H.limLast (3000 + port), s.now + 1)]
      [(0x8008, discardSrc port, port, occurrences s (3000 + port))] := by
  obtain ⟨hquiet, hocc, hnow⟩ := count_discard (s := s) hp (min (s.rd (discardKey port) + 1) 0xFFFFFFFF)
  have hkey := discardKey_lt hp
  have hcl : H.limCnt (3000 + port) ≠ H.limLast (3000 + port) := by simp only [H.limCnt, H.limLast, H.hk]; omega
  have hkc : discardKey port ≠ H.limCnt (3000 + port) := by simp only [H.limCnt, H.hk]; omega
  have hkl : discardKey port ≠ H.limLast (3000 + port) := by simp only [H.limLast, H.hk]; omega
  refine ⟨_, hc.trans (congrArg _ ((discard_eq s port).trans (raiseLim_quiet _ _ _ (hquiet.2 h)))), ?_, fun k hk => ?_, ?_,
    ((((onlyRegisters_refl s).wr _ _).wr _ _).raise _ _ _ _ |>.wr _ _).wr _ _⟩
  · simp only [List.mem_cons, List.not_mem_nil, or_false, forall_eq_or_imp, forall_eq, hnow, State.rd_wr_self, and_true]
    exact ⟨by rw [State.rd_wr_ne _ _ hkl, State.rd_wr_ne _ _ hkc, State.rd_raise, State.rd_wr_ne _ _ hkc, State.rd_wr_self],
      by rw [State.rd_wr_ne _ _ hcl, State.rd_wr_self]⟩
  · simp only [List.map_cons, List.map_nil, List.mem_cons, List.not_mem_nil, or_false, not_or] at hk
    obtain ⟨h1, h2, h3⟩ := hk
    rw [State.rd_wr_ne _ _ h3, State.rd_wr_ne _ _ h2, State.rd_raise, State.rd_wr_ne _ _ h2, State.rd_wr_ne _ _ h1]
  · rw [hocc]
    refine (raisedOf_raise ..).trans (congrArg (fun e => raisedOf s ++ [e]) ?_)
    rw [Nat.mod_eq_of_lt (show port < 2 ^ 32 by omega), Nat.mod_eq_of_lt (show occurrences s (3000 + port) < 2 ^ 32 from Nat.mod_lt _ (by decide))]

/-- A command that is discarded while no report is due. -/
theorem does_discard_held (hp : port ≤ 2) (hc : exec c s = .next (s.discard port)) (h : ¬ quietSince s (3000 + port)) :
    Does c s [(discardKey port, min (s.rd (discardKey port) + 1) 0xFFFFFFFF), (H.limCnt (3000 + port), occurrences s (3000 + port))] [] := by
  obtain ⟨hquiet, hocc, -⟩ := count_discard (s := s) hp (min (s.rd (discardKey port) + 1) 0xFFFFFFFF)
  have hkey := discardKey_lt hp
  have hkc : discardKey port ≠ H.limCnt (3000 + port) := by simp only [H.limCnt, H.hk]; omega
  refine ⟨_, hc.trans (congrArg _ ((discard_eq s port).trans (raiseLim_held _ _ _ (mt hquiet.1 h)))), ?_, fun k hk => ?_,
    (List.append_nil _).symm, ((onlyRegisters_refl s).wr _ _).wr _ _⟩
  · simp only [List.mem_cons, List.not_mem_nil, or_false, forall_eq_or_imp, forall_eq, hocc, State.rd_wr_self, and_true]
    rw [State.rd_wr_ne _ _ hkc, State.rd_wr_self]
  · simp only [List.map_cons, List.map_nil, List.mem_cons, List.not_mem_nil, or_false, not_or] at hk
    rw [State.rd_wr_ne _ _ hk.2, State.rd_wr_ne _ _ hk.1]

end

/-! ## Bad headers (R68) -/

/-- MAGIC is another, or LEN is not the payload's, or too large. -/
def illFormed (q : Req) : Prop := q.magic ≠ 0x5A51 ∨ q.len ≠ q.payload.length ∨ 1400 < q.len

/-- The header of an ill-formed datagram is bad whatever its flags. -/
theorem badHeader_of_illFormed {q : Req} (h : illFormed q) (op f : Nat) : badHeader op { q with flags := f } = true := by
  obtain h | h | h := h <;> simp [badHeader, h]

/-- So is the header of a request with ANSWER. -/
theorem badHeader_of_answer {f op : Nat} (q : Req) (hf : f.testBit 7 = true) (hop : op ≠ 0x32) : badHeader op { q with flags := f } = true := by
  simp [badHeader, hf, hop]

/-- And of an acknowledgement with a LEN that is not 0. -/
theorem badHeader_of_ack {f : Nat} (q : Req) (hf : f.testBit 7 = true) (hlen : q.len ≠ 0) : badHeader 0x32 { q with flags := f } = true := by
  simp [badHeader, hf, hlen]

/-- A received datagram with a bad header is discarded. -/
theorem Reaches.discards {s : State} {q : Req} (h : Reaches s q) {op f : Nat} (hb : badHeader op { q with flags := f } = true) (x : List Int) :
    recv op { q with flags := f } x s = .next (s.discard q.port) := by
  have hf : Reaches s { q with flags := f } := ⟨h.on, h.normal, h.port, h.hears⟩
  rw [recv, hf.arrive, if_pos hb]

/-- Settles O17: every such command comes to the door with a bad header. -/
theorem badDatagramsAreDiscarded : Obligations.BadDatagramsAreDiscarded := by
  intro q x s hon hnormal hp hup ill c hc k src n quiet
  have hr : Reaches s q := ⟨hon, hnormal, hp, fun hp => by
    obtain ⟨hpd, hen, hport, haddr⟩ := hup hp
    exact hears_of ⟨hpd, hen⟩ ⟨hport, haddr⟩⟩
  have hdiscards : exec c s = .next (s.discard q.port) := by
    obtain ⟨hmem, hbad⟩ | ⟨rfl, hbad⟩ := hc
    · have go {op f : Nat} (hf : f.testBit 7 = q.flags.testBit 7) (hop : op ≠ 0x32) (y : List Int) :
          recv op { q with flags := f } y s = .next (s.discard q.port) :=
        hr.discards (hbad.elim (fun hill => badHeader_of_illFormed hill op f) (fun h7 => badHeader_of_answer q (hf.trans h7) hop)) y
      simp only [List.mem_cons, List.not_mem_nil, or_false] at hmem
      obtain rfl | rfl | rfl | rfl | rfl | rfl | rfl | rfl | rfl | rfl | rfl | rfl | rfl := hmem
      iterate 11 exact go (f := q.flags) rfl (by decide) _
      · exact go (hello_flags _).2 (by decide) _
      · exact go (helloResume_flags _).2 (by decide) _
    · have hf : (q.flags ||| 0x80).testBit 7 = true := by
        rw [Nat.testBit_or, show Nat.testBit 0x80 7 = true by decide, Bool.or_true]
      exact hr.discards (hbad.elim (fun hill => badHeader_of_illFormed hill 0x32 _) (badHeader_of_ack q hf)) []
  exact ⟨does_discard_quiet hp hdiscards, does_discard_held hp hdiscards⟩

end Sys2Proof
end

section
/-! SUPPORT. What HELLO is made of: the ID of a new session, its challenge and token, and answers of one message. -/
namespace Sys2Proof

open Machine

/-! ## The ID of a new session (R74) -/

/-- The first number from v on that is no key of a rising list. -/
def skipKeys (l : List (Nat × Nat)) (v : Nat) : Nat := l.foldl (fun v u => if u.1 ≤ v then v + 1 else v) v

/-- Keys ahead are not skipped. -/
theorem skipKeys_ahead {l : List (Nat × Nat)} {v : Nat} (h : ∀ p ∈ l, v < p.1) : skipKeys l v = v := by
  induction l with
  | nil => rfl
  | cons p t ih =>
    have hp := h p (List.mem_cons_self ..)
    rw [skipKeys, List.foldl_cons, if_neg (by omega)]
    exact ih fun r hr => h r (List.mem_cons_of_mem _ hr)

/-- It is no smaller than v, and none of the keys. -/
theorem skipKeys_spec {l : List (Nat × Nat)} (hl : alSorted l = true) (v : Nat) : v ≤ skipKeys l v ∧ ∀ p ∈ l, p.1 ≠ skipKeys l v := by
  induction l generalizing v with
  | nil => exact ⟨Nat.le_refl _, by simp⟩
  | cons p t ih =>
    obtain ⟨hahead, ht⟩ := (alSorted_cons p.1 p.2 t).1 hl
    by_cases hp : p.1 ≤ v
    · have hstep : skipKeys (p :: t) v = skipKeys t (v + 1) := congrArg (skipKeys t) (if_pos hp)
      obtain ⟨hle, hne⟩ := ih ht (v + 1)
      rw [hstep]
      exact ⟨by omega, List.forall_mem_cons.2 ⟨by omega, hne⟩⟩
    · have hstep : skipKeys (p :: t) v = v := skipKeys_ahead
        (List.forall_mem_cons.2 ⟨by omega, fun r hr => Nat.lt_trans (by omega) (hahead r hr)⟩)
      rw [hstep]
      exact ⟨Nat.le_refl _, List.forall_mem_cons.2 ⟨by omega, fun r hr => by have := hahead r hr; omega⟩⟩

/-- What is listed under a key is listed with it. -/
theorem key_mem_of_alGet {l : List (Nat × Nat)} {j v : Nat} (h : alGet l j = some v) : ∃ p ∈ l, p.1 = j := by
  induction l with
  | nil => cases h
  | cons p t ih =>
    by_cases hp : p.1 = j
    · exact ⟨p, List.mem_cons_self .., hp⟩
    · obtain ⟨r, hr, hj⟩ := ih (by rwa [alGet, if_neg hp] at h)
      exact ⟨r, List.mem_cons_of_mem _ hr, hj⟩

/-- Under a key that is listed something is. -/
theorem alGet_of_key_mem {l : List (Nat × Nat)} {j : Nat} (h : ∃ p ∈ l, p.1 = j) : ∃ v, alGet l j = some v := by
  induction l with
  | nil =>
    obtain ⟨p, hp, -⟩ := h
    cases hp
  | cons p t ih =>
    by_cases hp : p.1 = j
    · exact ⟨p.2, by rw [alGet, if_pos hp]⟩
    · obtain ⟨r, hr, hj⟩ := h
      have ht : r ∈ t := (List.mem_cons.1 hr).resolve_left fun he => hp (he ▸ hj)
      obtain ⟨v, hv⟩ := ih ⟨r, ht, hj⟩
      exact ⟨v, by rw [alGet, if_neg hp, hv]⟩

/-- A key that is set is a key, and so are those that were. -/
theorem key_mem_alSet (l : List (Nat × Nat)) (k v j : Nat) (h : j = k ∨ ∃ p ∈ l, p.1 = j) : ∃ p ∈ alSet l k v, p.1 = j := by
  by_cases hj : j = k
  · subst hj
    exact key_mem_of_alGet (alGet_alSet_self l j v)
  · obtain ⟨x, hx⟩ := alGet_of_key_mem (h.resolve_left hj)
    exact key_mem_of_alGet ((alGet_alSet_ne l v hj).trans hx)

/-- The keys of a set of numbers are those numbers, rising. -/
theorem keys_foldl_alSet (used : List Nat) (l : List (Nat × Nat)) (hl : alSorted l = true) :
    alSorted (used.foldl (fun a u => alSet a u 0) l) = true ∧
    ∀ j, (j ∈ used ∨ ∃ p ∈ l, p.1 = j) → ∃ p ∈ used.foldl (fun a u => alSet a u 0) l, p.1 = j := by
  induction used generalizing l with
  | nil => exact ⟨hl, fun j hj => hj.resolve_left (by simp)⟩
  | cons u t ih =>
    obtain ⟨hsorted, hkeys⟩ := ih (alSet l u 0) (alSorted_alSet u 0 hl)
    refine ⟨hsorted, fun j hj => hkeys j ?_⟩
    rw [List.mem_cons, or_assoc] at hj
    obtain rfl | ht | hmem := hj
    · exact .inr (key_mem_alSet l j 0 j (.inl rfl))
    · exact .inl ht
    · exact .inr (key_mem_alSet l u 0 j (.inr hmem))

/-- The ID that is picked is not 0 and none of those in use. -/
theorem pickId_spec (used : List Nat) (f : Nat) : pickId used f ≠ 0 ∧ pickId used f ∉ used := by
  obtain ⟨hsorted, hkeys⟩ := keys_foldl_alSet used [] rfl
  obtain ⟨hle, hne⟩ := skipKeys_spec hsorted (1 + f % (2 ^ 32 - 1 - (used.foldl (fun a u => alSet a u 0) []).length))
  refine ⟨fun h0 => ?_, fun hmem => ?_⟩
  · have : 1 ≤ pickId used f := Nat.le_trans (by omega) hle
    omega
  · obtain ⟨p, hp, hj⟩ := hkeys _ (.inl hmem)
    exact hne p hp hj

/-! ## A new challenge and a new token (R75, R87) -/

/-- Session i as a HELLO that names it leaves it: answers go where the HELLO came from, under a new challenge and token. -/
def renewed (q : Req) (i : Nat) (s : State) : State := ((s.touch i q).newChal i).newToken i

/-- The registers that writes. -/
def renewedKeys (i : Nat) : List Nat := touchKeys i ++ [H.chal i, H.chalLive i, H.token i]

/-- A new challenge writes its two registers. -/
theorem newChal_rd (s : State) {i k : Nat} (h1 : k ≠ H.chal i) (h2 : k ≠ H.chalLive i) : (s.newChal i).rd k = s.rd k :=
  (State.rd_tick1 _ _).trans (rd_wrs_ne _ _ _ (by simp [h1, h2]))

/-- A new token writes its register. -/
theorem newToken_rd (s : State) {i k : Nat} (h : k ≠ H.token i) : (s.newToken i).rd k = s.rd k :=
  (State.rd_tick1 _ _).trans (State.rd_wr_ne _ _ h)

/-- No other register is written. -/
theorem renewed_rd (s : State) (q : Req) {i k : Nat} (hk : k ∉ renewedKeys i) : (renewed q i s).rd k = s.rd k := by
  simp only [renewedKeys, List.mem_append, List.mem_cons, List.not_mem_nil, or_false, not_or] at hk
  obtain ⟨ht, h1, h2, h3⟩ := hk
  rw [renewed, newToken_rd _ h3, newChal_rd _ h1 h2, touch_rd _ _ ht]

/-- Nothing else is written but the count of free values. -/
theorem renewed_eq_reg (s : State) (q : Req) (i : Nat) :
    renewed q i s = { s with reg := (renewed q i s).reg, freeCtr := (renewed q i s).freeCtr } := by
  unfold renewed
  rw [touch_eq_reg]
  rfl

/-- The challenge is live. -/
theorem renewed_chalLive (s : State) (q : Req) (i : Nat) : (renewed q i s).rd (H.chalLive i) = 1 := by
  rw [renewed, newToken_rd _ (by simp only [H.chalLive, H.token, H.hk]; omega)]
  exact State.rd_wr_self ..

/-- A register of the request, read behind it. -/
theorem renewed_touch_rd (s : State) (q : Req) {i k : Nat} (hk : k ∈ touchKeys i) (hi : i ≤ 16) :
    (renewed q i s).rd k = (s.touch i q).rd k := by
  have hne : k ≠ H.chal i ∧ k ≠ H.chalLive i ∧ k ≠ H.token i := by
    simp only [touchKeys, List.mem_cons, List.not_mem_nil, or_false, K.SESS_PORT, K.SESS_ADDR, K.SESS_UDP, H.sessOwn, H.lastReq, H.sessMute,
      H.warmPend, H.hk, K.at'] at hk
    simp only [H.chal, H.chalLive, H.token, H.hk]
    omega
  obtain ⟨h1, h2, h3⟩ := hne
  rw [renewed, newToken_rd _ h3, newChal_rd _ h1 h2]

/-- Answers go to the port the request came from, and the session's timer starts again. -/
theorem renewed_source (s : State) (q : Req) {i : Nat} (hi : i < 16) :
    (renewed q i s).rd (K.SESS_PORT i) = q.port ∧ (renewed q i s).rd (H.lastReq i) = s.now := by
  have hne : i ≠ spiSlot := by simp only [spiSlot]; omega
  have hnd : (([(K.SESS_PORT i, q.port), (H.lastReq i, s.now), (H.sessMute i, 0), (H.warmPend, 0)] ++
      [(K.SESS_ADDR i, q.addr % 2 ^ 128), (K.SESS_UDP i, q.udp % 65536), (H.sessOwn i, q.dst % 2 ^ 128)]).map Prod.fst).Nodup := by
    simp only [List.cons_append, List.nil_append, List.map_cons, List.map_nil, List.nodup_cons, List.mem_cons, List.not_mem_nil, or_false,
      not_or, not_false_eq_true, List.nodup_nil, and_true, K.SESS_PORT, K.SESS_ADDR, K.SESS_UDP, H.sessOwn, H.lastReq, H.sessMute, H.warmPend,
      H.hk, K.at']
    omega
  rw [renewed_touch_rd _ _ (by simp [touchKeys]) (by omega), renewed_touch_rd _ _ (by simp [touchKeys]) (by omega), State.touch, if_neg hne]
  exact ⟨rd_wrs_of_mem hnd (by simp) s, rd_wrs_of_mem hnd (by simp) s⟩

/-- An object outside the session records is as before. -/
theorem renewed_obj (s : State) (q : Req) {i k : Nat} (hi : i ≤ 16) (hk : k < 0x111000 ∨ 0x112100 ≤ k) (hobj : k < 2 ^ 24) :
    (renewed q i s).rd k = s.rd k := by
  refine renewed_rd _ _ (fun hmem => (List.mem_append.1 hmem).elim (obj_not_mem_touchKeys hi hk hobj) ?_)
  simp only [List.mem_cons, List.not_mem_nil, or_false, H.chal, H.chalLive, H.token, H.hk]
  omega

/-- So is every object of a session record but PORT, ADDR and UDP. -/
theorem renewed_sess (s : State) (q : Req) {i j m : Nat} (hi : i ≤ 16) (hj : j ≤ 16) (hm : m < 256) (h5 : m < 5 ∨ 7 < m) :
    (renewed q i s).rd (K.at' (0x1110 + j) m) = s.rd (K.at' (0x1110 + j) m) := by
  refine renewed_rd _ _ (fun hmem => (List.mem_append.1 hmem).elim (sess_not_mem_touchKeys hi hj hm h5) ?_)
  simp only [List.mem_cons, List.not_mem_nil, or_false, H.chal, H.chalLive, H.token, H.hk, K.at']
  omega

/-! ## Answers of one message (R63, R66) -/

/-- The message that answers a request. -/
def answerMsg (q : Req) (op gen session st : Nat) (p : List Nat) : Msg := ⟨q.port, q.dst, q.addr, q.udp, gen, 0x80, session, q.seq, op, st, p⟩

/-- The port a request came from is up. -/
def PortUp (s : State) (q : Req) : Prop := s.rd (K.PD_STATE (3 + q.port)) = 3 ∧ s.rd (K.CTL_ENABLE q.port) = 1

section
variable {s : State} {q : Req}

/-- A port is as up as before when neither object that says so has changed. -/
theorem PortUp.congr (h : PortUp s q) (hp : q.port < 2) {t : State} (ht : ∀ k, 0x112100 ≤ k → k < 2 ^ 24 → t.rd k = s.rd k) :
    PortUp t q := by
  rwa [PortUp, ht _ (by simp only [K.PD_STATE, K.at']; omega) (by simp only [K.PD_STATE, K.at']; omega),
    ht _ (by simp only [K.CTL_ENABLE, K.at']; omega) (by simp only [K.CTL_ENABLE, K.at']; omega)]

/-- An answer leaves by a port that is up. -/
theorem PortUp.answer (hup : PortUp s q) (hp : q.port < 2) (op gen session st : Nat) (p : List Nat) :
    s.answer q op gen session st [p] = { s with tx := s.tx ++ [answerMsg q op gen session st p] } :=
  foldl_send_up hp hup fun _ hm => (mem_answerMsgs hm).1

/-- The answer to a HELLO leaves by a port that is up, and is remembered. -/
theorem PortUp.helloAnswer (hup : PortUp s q) (hp : q.port < 2) (gen session st : Nat) (p : List Nat) :
    s.helloAnswer 17 q gen session st p = { s with
      tx := s.tx ++ [answerMsg q 1 gen session st p]
      cache := ⟨17, q.addr, q.udp, q.seq, [answerMsg q 1 gen session st p], s.now⟩ :: s.cache } :=
  foldl_send_up (s := s.remember _) hp hup fun _ hm => (mem_answerMsgs hm).1

end

end Sys2Proof
end

section
/-! HelloOpensSession: a HELLO by the generation it negotiates and the first FREE record. -/
namespace Sys2Proof

open Machine

/-! ## The generation (R84) -/

/-- A common generation is negotiated. -/
theorem negotiate_common {s : State} {q : Req} {g : Nat} (hg : g = min (fld q.payload 0 1) (s.rd K.IDENT_GEN_MAX))
    (hmin : max (fld q.payload 1 1) (s.rd K.IDENT_GEN_MIN) ≤ g) (hgen : fld q.payload 1 1 ≤ q.gen) : s.negotiate q = some g := by
  subst hg
  exact if_neg (by omega)

/-- Without one, or under a header GEN below GEN_MIN, none is. -/
theorem negotiate_none {s : State} {q : Req} (h : min (fld q.payload 0 1) (s.rd K.IDENT_GEN_MAX) < max (fld q.payload 1 1) (s.rd K.IDENT_GEN_MIN) ∨
    q.gen < fld q.payload 1 1) : s.negotiate q = none := if_pos h

/-! ## A session opens (R72, R74) -/

/-- The ID a new session takes. -/
def newId (s : State) : Nat := pickId (((List.range 16).map (fun j => s.rd (K.SESS_ID j))).filter (· != 0)) s.free

/-- It is not 0, and no session carries it. -/
theorem newId_spec (s : State) : newId s ≠ 0 ∧ ∀ j < 16, s.rd (K.SESS_ID j) ≠ newId s := by
  obtain ⟨h0, hnew⟩ := pickId_spec (((List.range 16).map (fun j => s.rd (K.SESS_ID j))).filter (· != 0)) s.free
  refine ⟨h0, fun j hj he => hnew (List.mem_filter.2 ⟨List.mem_map.2 ⟨j, List.mem_range.2 hj, he⟩, ?_⟩)⟩
  simpa using h0

/-- The rights of a new session: VIEW or none. -/
def firstRights (s : State) : Nat := if s.rd K.QCP_VIEW_OPEN = 1 then 0 else 0xFF

/-- What a new session writes into its record. -/
def recordWrites (s : State) (q : Req) (i g : Nat) : List (Nat × Nat) :=
  [(K.SESS_STATE i, 1), (K.SESS_ID i, newId s), (K.SESS_GEN i, g), (K.SESS_RIGHTS i, firstRights s), (K.SESS_LAST_SEQ i, q.seq % 2 ^ 32),
    (H.fails i, 0)]

/-- The state with the record of a new session, which is counted. -/
def recorded (s : State) (q : Req) (i g : Nat) : State := (s.tick1.wrs (recordWrites s q i g)).up K.QCP_SESSIONS_OPEN (· + 1)

/-- The state with the new session, before its HELLO is answered. -/
def opened (s : State) (q : Req) (i g : Nat) : State :=
  (renewed q i (recorded s q i g)).raise 0x8001 (0x1110 + i) (newId s) (q.port * 65536 + g * 256 + firstRights s)

section
variable {s : State} {q : Req} {i g : Nat}

/-- The registers of a new record differ. -/
theorem recordWrites_nodup (hi : i < 16) : ((recordWrites s q i g).map Prod.fst).Nodup := by
  simp only [recordWrites, List.map_cons, List.map_nil, List.nodup_cons, List.mem_cons, List.not_mem_nil, or_false, not_or, not_false_eq_true,
    List.nodup_nil, and_true, K.SESS_STATE, K.SESS_ID, K.SESS_GEN, K.SESS_RIGHTS, K.SESS_LAST_SEQ, H.fails, H.hk, K.at']
  omega

/-- SESSIONS_OPEN is none of them. -/
theorem sessionsOpen_ne (hi : i < 16) : ∀ p ∈ recordWrites s q i g, K.QCP_SESSIONS_OPEN ≠ p.1 := by
  simp only [recordWrites, List.mem_cons, List.not_mem_nil, or_false, forall_eq_or_imp, forall_eq, K.SESS_STATE, K.SESS_ID, K.SESS_GEN,
    K.SESS_RIGHTS, K.SESS_LAST_SEQ, K.QCP_SESSIONS_OPEN, H.fails, H.hk, K.at']
  omega

/-- Every other register of the state with the record. -/
theorem recorded_rd {k : Nat} (hopen : k ≠ K.QCP_SESSIONS_OPEN) (hk : ∀ p ∈ recordWrites s q i g, k ≠ p.1) :
    (recorded s q i g).rd k = s.rd k := by
  rw [recorded, State.up, State.rd_wr_ne _ _ hopen, rd_wrs_ne _ _ _ hk, State.rd_tick1]

/-- What the record holds. -/
theorem recorded_rd_of_mem (hi : i < 16) {k v : Nat} (hk : (k, v) ∈ recordWrites s q i g) : (recorded s q i g).rd k = v := by
  rw [recorded, State.up, State.rd_wr_ne _ _ (fun he => sessionsOpen_ne hi _ hk he.symm), rd_wrs_of_mem (recordWrites_nodup hi) hk]

/-- The session is counted. -/
theorem recorded_sessionsOpen (hi : i < 16) : (recorded s q i g).rd K.QCP_SESSIONS_OPEN = s.rd K.QCP_SESSIONS_OPEN + 1 := by
  rw [recorded, State.up, State.rd_wr_self, rd_wrs_ne _ _ _ (sessionsOpen_ne hi), State.rd_tick1]

/-- Nothing but registers and the count of free values changes with the record. -/
theorem recorded_eq_reg : recorded s q i g = { s with reg := (recorded s q i g).reg, freeCtr := s.freeCtr + 1 } := by
  unfold recorded State.up
  rw [wrs_eq_reg]
  rfl

/-- Nor, but for the event, with the session. -/
theorem opened_eq_reg : opened s q i g =
    { s with reg := (opened s q i g).reg, raised := (opened s q i g).raised, freeCtr := (opened s q i g).freeCtr } := by
  unfold opened
  rw [renewed_eq_reg, recorded_eq_reg]
  rfl

/-- A register of the session's record but PORT, ADDR and UDP. -/
theorem opened_sess (hi : i < 16) {m : Nat} (hm : m < 256) (h5 : m < 5 ∨ 7 < m) {v : Nat}
    (hv : (K.at' (0x1110 + i) m, v) ∈ recordWrites s q i g) : (opened s q i g).rd (K.at' (0x1110 + i) m) = v := by
  rw [opened, State.rd_raise, renewed_sess _ _ (by omega) (by omega) hm h5]
  exact recorded_rd_of_mem hi hv

/-- The record of the new session. -/
theorem opened_record (hi : i < 16) : (opened s q i g).rd (K.SESS_STATE i) = 1 ∧ (opened s q i g).rd (K.SESS_ID i) = newId s ∧
    (opened s q i g).rd (K.SESS_GEN i) = g ∧ (opened s q i g).rd (K.SESS_RIGHTS i) = firstRights s ∧
    (opened s q i g).rd (K.SESS_LAST_SEQ i) = q.seq % 2 ^ 32 := by
  refine ⟨opened_sess hi (m := 1) ?_ ?_ ?_, opened_sess hi (m := 2) ?_ ?_ ?_, opened_sess hi (m := 3) ?_ ?_ ?_, opened_sess hi (m := 4) ?_ ?_ ?_,
    opened_sess hi (m := 8) ?_ ?_ ?_⟩
  all_goals simp [recordWrites, K.SESS_STATE, K.SESS_ID, K.SESS_GEN, K.SESS_RIGHTS, K.SESS_LAST_SEQ]

/-- An object outside the session records but SESSIONS_OPEN. -/
theorem opened_obj (hi : i < 16) {k : Nat} (hk : k < 0x111000 ∨ 0x112100 ≤ k) (hobj : k < 2 ^ 24) (hne : k ≠ K.QCP_SESSIONS_OPEN) :
    (opened s q i g).rd k = s.rd k := by
  rw [opened, State.rd_raise, renewed_obj _ _ (by omega) hk hobj, recorded_rd hne]
  simp only [recordWrites, List.mem_cons, List.not_mem_nil, or_false, forall_eq_or_imp, forall_eq, K.SESS_STATE, K.SESS_ID, K.SESS_GEN,
    K.SESS_RIGHTS, K.SESS_LAST_SEQ, H.fails, H.hk, K.at']
  omega

/-- A new session is counted. -/
theorem opened_sessionsOpen (hi : i < 16) : (opened s q i g).rd K.QCP_SESSIONS_OPEN = s.rd K.QCP_SESSIONS_OPEN + 1 := by
  rw [opened, State.rd_raise, renewed_obj _ _ (by omega) (by decide) (by decide), recorded_sessionsOpen hi]

/-- A new session's answers go where its HELLO came from, and it has a live challenge. -/
theorem opened_source (hi : i < 16) : (opened s q i g).rd (K.SESS_PORT i) = q.port ∧ (opened s q i g).rd (H.chalLive i) = 1 := by
  rw [opened, State.rd_raise, State.rd_raise]
  exact ⟨(renewed_source _ q hi).1, renewed_chalLive ..⟩

/-- The registers a new session writes. -/
theorem opened_rd {k : Nat} (hk : k ∉ arrivalKeys i ++ [K.SESS_STATE i, K.SESS_ID i, K.SESS_GEN i, K.SESS_RIGHTS i, H.fails i,
    K.QCP_SESSIONS_OPEN, H.chal i, H.chalLive i, H.token i]) : (opened s q i g).rd k = s.rd k := by
  simp only [List.mem_append, mem_arrivalKeys, List.mem_cons, List.not_mem_nil, or_false, not_or] at hk
  obtain ⟨⟨htouch, hseq⟩, hstate, hid, hgen, hrights, hfails, hopen, hchal, hlive, htoken⟩ := hk
  have hren : k ∉ renewedKeys i := by simp [renewedKeys, htouch, hchal, hlive, htoken]
  rw [opened, State.rd_raise, renewed_rd _ _ hren, recorded_rd hopen]
  simp only [recordWrites, List.mem_cons, List.not_mem_nil, or_false, forall_eq_or_imp, forall_eq]
  exact ⟨hstate, hid, hgen, hrights, hseq, hfails⟩

/-- The first FREE record is found. -/
theorem find_free (hi : i < 16) (hfree : s.rd (K.SESS_STATE i) = 0) (hfirst : ∀ j < i, s.rd (K.SESS_STATE j) ≠ 0) :
    (List.range 16).find? (fun j => s.rd (K.SESS_STATE j) == 0) = some i := by
  rw [List.find?_range_eq_some]
  refine ⟨by simp [hfree], List.mem_range.2 hi, fun j hj => by simp [hfirst j hj]⟩

/-- A HELLO that finds a generation and a FREE record. -/
theorem helloOpen_opens (hc : s.cached 17 q = none) (h4 : 4 ≤ q.payload.length) (hg : s.negotiate q = some g)
    (hi : (List.range 16).find? (fun j => s.rd (K.SESS_STATE j) == 0) = some i) :
    s.helloOpen q = (opened s q i g).helloAnswer 17 q g (newId s) 0 ((opened s q i g).helloPayload i) := by
  simp only [State.helloOpen, hc, hg, hi]
  rw [if_neg (Nat.not_lt.2 h4)]
  rfl

/-- A HELLO that finds no FREE record. -/
theorem helloOpen_busy (hc : s.cached 17 q = none) (h4 : 4 ≤ q.payload.length) (hg : s.negotiate q = some g)
    (hfull : ∀ j < 16, s.rd (K.SESS_STATE j) ≠ 0) : s.helloOpen q = s.helloAnswer 17 q g 0 5 [] := by
  have hnone : (List.range 16).find? (fun j => s.rd (K.SESS_STATE j) == 0) = none :=
    List.find?_eq_none.2 fun j hj => by simp [hfull j (List.mem_range.1 hj)]
  simp only [State.helloOpen, hc, hg, hnone]
  exact if_neg (Nat.not_lt.2 h4)

/-- A HELLO without a common generation. -/
theorem helloOpen_foreign (hc : s.cached 17 q = none) (h4 : 4 ≤ q.payload.length) (hg : s.negotiate q = none) :
    s.helloOpen q = s.helloAnswer 17 q q.gen 0 8 [s.rd K.IDENT_GEN_MAX, s.rd K.IDENT_GEN_MIN] := by
  simp only [State.helloOpen, hc, hg]
  exact if_neg (Nat.not_lt.2 h4)

/-- A new session raises SESSION_OPEN. -/
theorem opened_raised : raisedOf (opened s q i g) =
    raisedOf s ++ [(0x8001, 0x1110 + i, newId s % 2 ^ 32, (q.port * 65536 + g * 256 + firstRights s) % 2 ^ 32)] := by
  rw [opened, raisedOf_raise, renewed_eq_reg]
  rfl

/-- A new session has sent nothing yet and leaves the subscriptions. -/
theorem opened_lists : (opened s q i g).tx = s.tx ∧ (opened s q i g).subs = s.subs := by
  rw [opened_eq_reg]
  exact ⟨rfl, rfl⟩

/-- A new session leaves the stores. -/
theorem storesKept_opened : StoresKept s (opened s q i g) := by
  rw [opened_eq_reg]
  exact ⟨fun _ => rfl, fun _ => rfl, rfl, rfl, rfl, rfl⟩

end

/-- Settles O9, by the state in which a session has been opened, and by the two answers without one. -/
theorem helloOpensSession : Obligations.HelloOpensSession := by
  intro q s hd hp hq h4 hcache
  have hc : s.cached 17 q = none := cached_eq_none fun e he ⟨hslot, hsrc, hfit⟩ =>
    hcache e he ⟨hslot, (hsrc rfl).1, (hsrc rfl).2, hfit⟩
  have hup : PortUp s q := hd.up hp
  refine ⟨fun g i hg hmin hgen hi hfree hfirst => ?_, fun g hg hmin hgen hfull => ?_, fun hforeign => ?_⟩
  · have hexec := (hd.exec_hello hq hp).trans (congrArg Host.Outcome.next (helloOpen_opens hc h4 (negotiate_common hg hmin hgen)
      (find_free hi hfree hfirst)))
    have hobj : ∀ k, 0x112100 ≤ k → k < 2 ^ 24 → (opened s q i g).rd k = s.rd k := fun k hk hlt =>
      opened_obj hi (.inr hk) hlt (by simp only [K.QCP_SESSIONS_OPEN, K.at']; omega)
    have hactive := hobj K.MGMT_ACTIVE (by decide) (by decide)
    obtain ⟨hstate, hid, hgn, hrt, hseq⟩ := opened_record (s := s) (q := q) (g := g) hi
    obtain ⟨hport, hlive⟩ := opened_source (s := s) (q := q) (g := g) hi
    have hcount := opened_sessionsOpen (s := s) (q := q) (g := g) hi
    have hregs : RegsKept _ s (opened s q i g) := fun _ => opened_rd
    have hraised := opened_raised (s := s) (q := q) (i := i) (g := g)
    have hkept := storesKept_opened (s := s) (q := q) (i := i) (g := g)
    obtain ⟨htx, hsubs⟩ := opened_lists (s := s) (q := q) (i := i) (g := g)
    obtain ⟨hid0, hidnew⟩ := newId_spec s
    rw [(hup.congr hp hobj).helloAnswer hp] at hexec
    generalize opened s q i g = u at *
    rw [← hid] at hid0 hidnew hraised hexec
    rw [← hrt] at hraised
    refine ⟨_, hexec, hstate, hgn, hrt, hseq, hport, hlive, hid0, hidnew, hcount, hraised, hregs, ?_,
      ⟨hkept.mem, hkept.flash, hkept.pending, hkept.lat, hkept.com, hkept.due⟩, hsubs⟩
    show u.tx ++ [answerMsg q 1 g (u.rd (K.SESS_ID i)) 0 (u.helloPayload i)] = _
    rw [htx, State.helloPayload, hgn, hactive]
    rfl
  · rw [hd.exec_hello hq hp, helloOpen_busy hc h4 (negotiate_common hg hmin hgen) hfull, hup.helloAnswer hp]
    rfl
  · rw [hd.exec_hello hq hp, helloOpen_foreign hc h4 (negotiate_none hforeign), hup.helloAnswer hp]
    rfl

end Sys2Proof
end

section
/-! ResumeNeedsToken: a HELLO with RESUME by the session it names and the token it carries. -/
namespace Sys2Proof

open Machine

/-! ## A session goes on (R72, R87) -/

/-- Session i is OPEN again where it was SUSPENDED. -/
def woken (s : State) (i : Nat) : State :=
  if s.rd (K.SESS_STATE i) = 2 then (s.wr (K.SESS_STATE i) 1).raise 0x8005 (0x1110 + i) (s.rd (K.SESS_ID i)) (s.rd (K.SESS_RIGHTS i)) else s

/-- The state with the session resumed, before its HELLO is answered. -/
def resumed (s : State) (q : Req) (i : Nat) : State := renewed q i (woken s i)

section
variable {s : State} {q : Req} {i : Nat}

/-- Every register but STATE. -/
theorem woken_rd {k : Nat} (hk : k ≠ K.SESS_STATE i) : (woken s i).rd k = s.rd k := by
  unfold woken
  split
  · rw [State.rd_raise, State.rd_wr_ne _ _ hk]
  · rfl

/-- An open or suspended session is open then. -/
theorem woken_state (h : s.rd (K.SESS_STATE i) = 1 ∨ s.rd (K.SESS_STATE i) = 2) : (woken s i).rd (K.SESS_STATE i) = 1 := by
  unfold woken
  split
  · rw [State.rd_raise, State.rd_wr_self]
  · next hne => exact h.resolve_right hne

/-- SESSION_RESUME is raised of a suspended session. -/
theorem woken_raised : raisedOf (woken s i) = raisedOf s ++ (if s.rd (K.SESS_STATE i) = 2
    then [(0x8005, 0x1110 + i, s.rd (K.SESS_ID i) % 2 ^ 32, s.rd (K.SESS_RIGHTS i) % 2 ^ 32)] else []) := by
  unfold woken
  split
  · exact raisedOf_raise ..
  · exact (List.append_nil _).symm

/-- Nothing but registers and events changes. -/
theorem woken_eq_reg : woken s i = { s with reg := (woken s i).reg, raised := (woken s i).raised } := by
  unfold woken
  split <;> rfl

/-- Nor, but for the count of free values, when the session is resumed. -/
theorem resumed_eq_reg : resumed s q i =
    { s with reg := (resumed s q i).reg, raised := (resumed s q i).raised, freeCtr := (resumed s q i).freeCtr } := by
  unfold resumed
  rw [renewed_eq_reg, woken_eq_reg]

/-- Resuming raises what waking raises. -/
theorem resumed_raised : raisedOf (resumed s q i) = raisedOf (woken s i) := by
  unfold resumed
  rw [renewed_eq_reg]
  rfl

/-- The registers a resumed session writes. -/
theorem resumed_rd {k : Nat} (hk : k ∉ renewedKeys i) (hstate : k ≠ K.SESS_STATE i) : (resumed s q i).rd k = s.rd k := by
  rw [resumed, renewed_rd _ _ hk, woken_rd hstate]

/-- An object outside the session records is as before. -/
theorem resumed_obj (hi : i ≤ 16) {k : Nat} (hk : 0x112100 ≤ k) (hobj : k < 2 ^ 24) : (resumed s q i).rd k = s.rd k := by
  rw [resumed, renewed_obj _ _ hi (.inr hk) hobj, woken_rd (by simp only [K.SESS_STATE, K.at']; omega)]

/-- So are the generation and the rights. -/
theorem resumed_record (hi : i ≤ 16) :
    (resumed s q i).rd (K.SESS_GEN i) = s.rd (K.SESS_GEN i) ∧ (resumed s q i).rd (K.SESS_RIGHTS i) = s.rd (K.SESS_RIGHTS i) := by
  have keep {m : Nat} (hm : m < 5) (h1 : m ≠ 1) : (resumed s q i).rd (K.at' (0x1110 + i) m) = s.rd (K.at' (0x1110 + i) m) := by
    rw [resumed, renewed_sess _ _ hi hi (by omega) (.inl hm), woken_rd (by simp only [K.SESS_STATE, K.at']; omega)]
  exact ⟨keep (by decide) (by decide), keep (by decide) (by decide)⟩

/-- The session is OPEN, with a live challenge, and was just heard. -/
theorem resumed_open (hi : i < 16) (h : s.rd (K.SESS_STATE i) = 1 ∨ s.rd (K.SESS_STATE i) = 2) :
    (resumed s q i).rd (K.SESS_STATE i) = 1 ∧ (resumed s q i).rd (H.chalLive i) = 1 ∧ (resumed s q i).rd (H.lastReq i) = s.now := by
  have hnow : (woken s i).now = s.now := woken_rd (by simp only [H.now, H.hk, K.SESS_STATE, K.at']; omega)
  refine ⟨?_, renewed_chalLive .., (renewed_source _ _ hi).2.trans hnow⟩
  exact (renewed_sess _ _ (m := 1) (by omega) (by omega) (by decide) (by decide)).trans (woken_state h)

/-! ## The answers (R69, R86) -/

/-- A HELLO with RESUME whose session nobody carries. -/
theorem helloAgain_unknown (hi : s.findSess q = none) : s.helloAgain q = s.answer q 1 q.gen q.session 0xB [[]] := by
  simp only [State.helloAgain, hi]

/-- One with another token. -/
theorem helloAgain_denied (hi : s.findSess q = some i) (h20 : 20 ≤ q.payload.length) (ht : fld q.payload 4 16 ≠ s.rd (H.token i)) :
    s.helloAgain q = s.answer q 1 (s.rd (K.SESS_GEN i)) q.session 0xC [[]] := by
  simp only [State.helloAgain, hi]
  rw [if_neg (Nat.not_lt.2 h20), if_pos ht]

/-- One with the token, of a session in a generation the firmware no longer supports. -/
theorem helloAgain_foreign (hi : s.findSess q = some i) (h20 : 20 ≤ q.payload.length) (ht : fld q.payload 4 16 = s.rd (H.token i))
    (hgen : s.rd (K.SESS_GEN i) < s.rd K.IDENT_GEN_MIN ∨ s.rd K.IDENT_GEN_MAX < s.rd (K.SESS_GEN i)) :
    s.helloAgain q =
      (s.answer q 1 (s.rd (K.SESS_GEN i)) q.session 8 [[s.rd K.IDENT_GEN_MAX, s.rd K.IDENT_GEN_MIN]]).sessClose i 4 := by
  simp only [State.helloAgain, hi]
  rw [if_neg (Nat.not_lt.2 h20), if_neg (not_not.2 ht), if_pos hgen]

/-- One with the token, of a session in a supported generation. -/
theorem helloAgain_resumes (hi : s.findSess q = some i) (h20 : 20 ≤ q.payload.length) (ht : fld q.payload 4 16 = s.rd (H.token i))
    (hmin : s.rd K.IDENT_GEN_MIN ≤ s.rd (K.SESS_GEN i)) (hmax : s.rd (K.SESS_GEN i) ≤ s.rd K.IDENT_GEN_MAX) :
    s.helloAgain q = (resumed s q i).answer q 1 (s.rd (K.SESS_GEN i)) q.session 0 [(resumed s q i).helloPayload i] := by
  simp only [State.helloAgain, hi]
  rw [if_neg (Nat.not_lt.2 h20), if_neg (not_not.2 ht), if_neg (by omega)]
  rfl

end

/-- Settles O10, by the state in which a session has been resumed, and by the three answers without it. -/
theorem resumeNeedsToken : Obligations.ResumeNeedsToken := by
  intro q s hd hp hq
  have hup : PortUp s q := hd.up hp
  refine ⟨fun i hi h20 ht hlt hmin hmax hst => ?_, fun i hi h20 ht hgen => ?_, fun i hi h20 ht => ?_, fun hi => ?_⟩
  · have hexec := (hd.exec_helloResume hq hp).trans (congrArg Host.Outcome.next (helloAgain_resumes hi h20 ht hmin hmax))
    have hobj : ∀ k, 0x112100 ≤ k → k < 2 ^ 24 → (resumed s q i).rd k = s.rd k := fun k => resumed_obj (Nat.le_of_lt hlt)
    have hactive := hobj K.MGMT_ACTIVE (by decide) (by decide)
    obtain ⟨hgen, hrights⟩ := resumed_record (s := s) (q := q) (Nat.le_of_lt hlt)
    obtain ⟨hopen, hlive, hlast⟩ := resumed_open (q := q) hlt hst
    have hregs : RegsKept [K.SESS_STATE i, K.SESS_PORT i, H.lastReq i, H.sessMute i, H.warmPend, K.SESS_ADDR i, K.SESS_UDP i, H.sessOwn i,
        H.chal i, H.chalLive i, H.token i] s (resumed s q i) := by
      intro k hk
      obtain ⟨hstate, hren⟩ := not_or.1 (mt List.mem_cons.2 hk)
      exact resumed_rd hren hstate
    have hraised := (resumed_raised (q := q)).trans (woken_raised (s := s) (i := i))
    have hlists := resumed_eq_reg (s := s) (q := q) (i := i)
    rw [(hup.congr hp hobj).answer hp] at hexec
    generalize resumed s q i = u at *
    refine ⟨_, hexec, hopen, hlive, hlast, hregs, hraised, ?_, ?_⟩
    · show u.tx ++ [answerMsg q 1 (s.rd (K.SESS_GEN i)) q.session 0 (u.helloPayload i)] = _
      rw [State.helloPayload, hgen, hrights, hactive, hlists]
      rfl
    · rw [hlists]
      exact ⟨rfl, rfl, rfl, fun _ => rfl, fun _ => rfl, rfl, rfl, rfl, rfl⟩
  · rw [hd.exec_helloResume hq hp, helloAgain_foreign hi h20 ht hgen, hup.answer hp]
    rfl
  · rw [hd.exec_helloResume hq hp, helloAgain_denied hi h20 ht, hup.answer hp]
    rfl
  · rw [hd.exec_helloResume hq hp, helloAgain_unknown hi, hup.answer hp]
    rfl

end Sys2Proof
end

section
/-! SpiHelloNegotiates: a HELLO at the SPI target. -/
namespace Sys2Proof

open Machine

/-- The SPI session in the generation a HELLO negotiated, before the HELLO is answered (R89). -/
def negotiated (s : State) (q : Req) (g : Nat) : State :=
  renewed q 16 (s.wrs [(K.SESS_GEN 16, g), (K.SESS_LAST_SEQ 16, q.seq % 2 ^ 32)])

section
variable {s : State} {q : Req} {g : Nat}

/-- The registers that writes. -/
theorem negotiated_rd {k : Nat} (hk : k ∉ arrivalKeys 16 ++ [K.SESS_GEN 16, H.chal 16, H.chalLive 16, H.token 16]) :
    (negotiated s q g).rd k = s.rd k := by
  simp only [List.mem_append, mem_arrivalKeys, List.mem_cons, List.not_mem_nil, or_false, not_or] at hk
  obtain ⟨⟨htouch, hseq⟩, hgen, hchal, hlive, htoken⟩ := hk
  have hren : k ∉ renewedKeys 16 := by simp [renewedKeys, htouch, hchal, hlive, htoken]
  rw [negotiated, renewed_rd _ _ hren, rd_wrs_ne]
  simp only [List.mem_cons, List.not_mem_nil, or_false, forall_eq_or_imp, forall_eq]
  exact ⟨hgen, hseq⟩

/-- The generation and the request's SEQ stand in the record, the challenge is live. -/
theorem negotiated_record : (negotiated s q g).rd (K.SESS_GEN 16) = g ∧ (negotiated s q g).rd (K.SESS_LAST_SEQ 16) = q.seq % 2 ^ 32 ∧
    (negotiated s q g).rd (H.chalLive 16) = 1 := by
  have hnd : ([(K.SESS_GEN 16, g), (K.SESS_LAST_SEQ 16, q.seq % 2 ^ 32)].map Prod.fst).Nodup :=
    show [K.SESS_GEN 16, K.SESS_LAST_SEQ 16].Nodup by decide
  have record {m v : Nat} (hm : m < 256) (h5 : m < 5 ∨ 7 < m)
      (hv : (K.at' (0x1110 + 16) m, v) ∈ [(K.SESS_GEN 16, g), (K.SESS_LAST_SEQ 16, q.seq % 2 ^ 32)]) :
      (negotiated s q g).rd (K.at' (0x1110 + 16) m) = v :=
    (renewed_sess _ _ (by decide) (by decide) hm h5).trans (rd_wrs_of_mem hnd hv s)
  exact ⟨record (by decide) (by decide) (.head _), record (by decide) (by decide) (.tail _ (.head _)), renewed_chalLive ..⟩

/-- Nothing but registers and the count of free values changes. -/
theorem negotiated_eq_reg : negotiated s q g = { s with reg := (negotiated s q g).reg, freeCtr := (negotiated s q g).freeCtr } := by
  unfold negotiated
  rw [renewed_eq_reg, wrs_eq_reg]

/-- The answer to a HELLO at the SPI target waits in its transmit queue, and is remembered. -/
theorem helloAnswer_spi (hp : q.port = 2) (gen session st : Nat) (p : List Nat) : s.helloAnswer 16 q gen session st p = { s with
    spiTx := s.spiTx ++ [(answerMsg q 1 gen session st p).bytes]
    cache := (s.remember ⟨16, q.addr, q.udp, q.seq, [answerMsg q 1 gen session st p], s.now⟩).cache } :=
  if_pos hp

/-- A HELLO at the SPI target that finds a generation. -/
theorem helloSpi_negotiates (hc : s.cached 16 q = none) (h4 : 4 ≤ q.payload.length) (hg : s.negotiate q = some g) :
    s.helloSpi q = (negotiated s q g).helloAnswer 16 q g 0 0 ((negotiated s q g).helloPayload 16) := by
  simp only [State.helloSpi, spiSlot, hc, hg]
  rw [if_neg (Nat.not_lt.2 h4)]
  rfl

/-- One that finds none. -/
theorem helloSpi_foreign (hc : s.cached 16 q = none) (h4 : 4 ≤ q.payload.length) (hg : s.negotiate q = none) :
    s.helloSpi q = s.helloAnswer 16 q q.gen 0 8 [s.rd K.IDENT_GEN_MAX, s.rd K.IDENT_GEN_MIN] := by
  simp only [State.helloSpi, spiSlot, hc, hg]
  exact if_neg (Nat.not_lt.2 h4)

end

/-- Settles O16, by the state in which the generation is negotiated. -/
theorem spiHelloNegotiates : Obligations.SpiHelloNegotiates := by
  intro q s hd hp hq h4 hcache
  have hc : s.cached 16 q = none := cached_eq_none fun e he ⟨hslot, _, hfit⟩ => hcache e he ⟨hslot, hfit⟩
  refine ⟨fun g hg hmin hgen c hello => ?_, fun hforeign c hello => ?_⟩
  · have hexec := (hd.exec_helloSpi hq hp hello).trans (congrArg Host.Outcome.next
      ((helloSpi_negotiates hc h4 (negotiate_common hg hmin hgen)).trans (helloAnswer_spi hp ..)))
    obtain ⟨hrec, hseq, hlive⟩ := negotiated_record (s := s) (q := q) (g := g)
    have hregs : RegsKept _ s (negotiated s q g) := fun _ => negotiated_rd
    have hlists := negotiated_eq_reg (s := s) (q := q) (g := g)
    generalize negotiated s q g = u at *
    refine ⟨_, hexec, hrec, hseq, hlive, hregs, ?_⟩
    rw [hlists]
    exact ⟨rfl, ⟨fun _ => rfl, fun _ => rfl, rfl, rfl, rfl, rfl⟩, rfl, rfl, List.length_append⟩
  · exact ⟨_, (hd.exec_helloSpi hq hp hello).trans (congrArg Host.Outcome.next
      ((helloSpi_foreign hc h4 (negotiate_none hforeign)).trans (helloAnswer_spi hp ..))), fun _ _ => rfl,
      ⟨fun _ => rfl, fun _ => rfl, rfl, rfl, rfl, rfl⟩, rfl, List.length_append⟩

end Sys2Proof
end

section
/-! AuthGrantsRights: an AUTH by its proof; an answer after which the session closes. -/
namespace Sys2Proof

open Machine

/-! ## A session that closes after its answer (R72, R76) -/

/-- Closing a session bears on no warm reset. -/
theorem sessClose_warmPend (s : State) {i : Nat} (hi : i ≤ 16) (why : Nat) : (s.sessClose i why).rd H.warmPend = s.rd H.warmPend := by
  have hclr : ((List.range 11).foldl (fun (t : State) k => t.clr (K.at' (sessIdx i) (k + 1))) s).rd H.warmPend = s.rd H.warmPend := by
    refine List.foldlRecOn (motive := fun t : State => t.rd H.warmPend = s.rd H.warmPend) _ _ rfl fun t ht k hk => ?_
    have hlt := List.mem_range.1 hk
    exact (State.rd_wr_ne t _ (by simp only [H.warmPend, H.hk, K.at', sessIdx]; omega)).trans ht
  unfold State.sessClose
  extract_lets id n t u v w x
  have ht : t.rd H.warmPend = s.rd H.warmPend := hclr
  clear_value t
  have hv : v.rd H.warmPend = s.rd H.warmPend := by
    show ((u.up K.NOTIF_SUBS_IN_USE _).up K.QCP_SESSIONS_OPEN _).rd H.warmPend = _
    rw [State.up, State.rd_wr_ne _ _ (by decide), State.up, State.rd_wr_ne _ _ (by decide)]
    exact ht
  have hw : w.rd H.warmPend = s.rd H.warmPend := by
    refine (rd_wrs_ne _ _ _ ?_).trans hv
    simp only [List.mem_cons, List.not_mem_nil, or_false, forall_eq_or_imp, forall_eq, H.chal, H.chalLive, H.token, H.fails, H.lastReq, H.suspAt,
      H.sessMute, H.sessOwn, H.warmPend, H.hk]
    omega
  rw [State.rd_raise]
  refine List.foldlRecOn (motive := fun t : State => t.rd H.warmPend = s.rd H.warmPend) _ _ hw fun t ht m hm => ?_
  have hlt := List.mem_range.1 hm
  exact ite_keeps (P := fun t : State => t.rd H.warmPend = s.rd H.warmPend)
    ((State.rd_wr_ne t _ (by simp only [H.warmPend, H.slvSess, H.hk]; omega)).trans ht) ht

section
variable {s : State} {q : Req} {i : Nat}

/-- An arrival leaves what names the session in its messages. -/
theorem arrived_sid : (arrived q i s).sid i = if i = 16 then 0 else s.rd (K.SESS_ID i) := by
  refine ite_congr rfl (fun _ => rfl) fun h16 => arrived_rd s q i _ fun hmem => ?_
  simp only [arrivalKeys, List.mem_cons, List.not_mem_nil, or_false, K.SESS_ID, K.SESS_PORT, K.SESS_ADDR, K.SESS_UDP, K.SESS_LAST_SEQ, H.sessOwn,
    H.lastReq, H.sessMute, H.warmPend, H.hk, K.at'] at hmem
  omega

/-- A served request after whose answer the session closes. -/
theorem Serves.answer_closing (h : Serves s q i) {op : Nat} (hq : LenOk q) (hop : opKnown op = true) (h1 : op ≠ 1)
    (hmin : minPayload op q ≤ q.payload.length) {x : List Int} {st why : Nat} {p : List Nat} {m : State}
    (hr : (arrived q i s).perform i op q x = ⟨st, [p], m, some why⟩) (hw : m.rd H.warmPend ≠ 1) :
    recv op q x s = .next ((replied s q i op st p m).sessClose i why) := by
  have hi := slot_le h.named
  show Host.Outcome.next (s.arrive op q x) = _
  rw [arrive_serves h hq hop h1 (by omega) x]
  simp only [State.runNew, arrived_eq, hr, arrived_gen, arrived_now s q hi, arrived_sid]
  refine congrArg Host.Outcome.next (afterAnswer_none ?_)
  rw [sessClose_warmPend _ hi]
  exact (replied_rd s m q i op st p H.warmPend).trans_ne hw

/-! ## The answers (R69, R75, R76) -/

/-- The proof an AUTH carries is right: HMAC-SHA-256 under the key of the level it asks for, over the live challenge, the session and the
level. -/
def ProofRight (s : State) (q : Req) (i : Nat) : Prop :=
  let l := fld q.payload 0 1
  let key := s.rd (K.at' (0x1101 + l) 0)
  l ≤ 3 ∧ key ≠ 0 ∧ s.rd (H.chalLive i) = 1 ∧ (q.payload.drop 4).take 32 =
    hmac (bytesBE 32 key) (bytesBE 16 (s.rd (H.chal i)) ++ bytesBE 4 (s.rd (K.SESS_ID i)) ++ [l])

/-- An arrival leaves what an AUTH looks at in its session. -/
theorem arrived_authRegs (hi : i ≤ 16) : (arrived q i s).rd (H.chalLive i) = s.rd (H.chalLive i) ∧
    (arrived q i s).rd (H.chal i) = s.rd (H.chal i) ∧ (arrived q i s).rd (H.fails i) = s.rd (H.fails i) ∧
    (arrived q i s).rd (K.SESS_ID i) = s.rd (K.SESS_ID i) := by
  refine ⟨?_, ?_, ?_, ?_⟩ <;> refine arrived_rd s q i _ fun hmem => ?_
  all_goals
    simp only [arrivalKeys, List.mem_cons, List.not_mem_nil, or_false, K.SESS_ID, K.SESS_PORT, K.SESS_ADDR, K.SESS_UDP, K.SESS_LAST_SEQ,
      H.sessOwn, H.lastReq, H.sessMute, H.warmPend, H.chalLive, H.chal, H.fails, H.hk, K.at'] at hmem
    omega

/-- An arrival leaves whether the proof is right. -/
theorem arrived_proofRight (hi : i ≤ 16) : ProofRight (arrived q i s) q i ↔ ProofRight s q i := by
  obtain ⟨hlive, hchal, -, hid⟩ := arrived_authRegs (s := s) (q := q) hi
  simp only [ProofRight, hlive, hchal, hid]
  refine and_congr_right fun hl => ?_
  rw [arrived_obj s q hi (.inl (by simp only [K.at']; omega)) (by simp only [K.at']; omega)]

/-- The level is granted. -/
def granted (s : State) (q : Req) (i : Nat) : State := (s.wrs [(K.SESS_RIGHTS i, fld q.payload 0 1), (H.fails i, 0)]).newChal i

/-- The failure is counted and reported. -/
def failed (s : State) (q : Req) (i : Nat) : State :=
  ((s.wr (H.fails i) (s.rd (H.fails i) + 1)).raise 0x8003 (0x1110 + i) (s.rd (K.SESS_ID i))
    (fld q.payload 0 1 * 256 + (s.rd (H.fails i) + 1))).newChal i

/-- A right proof is answered OK. -/
theorem opAuth_right (hi : i ≠ 16) (h : ProofRight s q i) : s.opAuth i q = ⟨0, [(granted s q i).authPayload i], granted s q i, none⟩ := by
  obtain ⟨hl, hkey, hlive, hproof⟩ := h
  unfold State.opAuth
  rw [if_neg (show ¬ i = spiSlot from hi)]
  exact if_pos (by simp [hl, hkey, hlive, hproof])

/-- Any other is answered AUTH, and closes the session at the limit. -/
theorem opAuth_wrong (hi : i ≠ 16) (h : ¬ ProofRight s q i) : s.opAuth i q = ⟨0xC, [(failed s q i).authPayload i], failed s q i,
    if s.rd K.QCP_AUTH_FAIL_LIMIT ≤ s.rd (H.fails i) + 1 then some 3 else none⟩ := by
  have hlimit : ((s.wr (H.fails i) (s.rd (H.fails i) + 1)).raise 0x8003 (0x1110 + i) (s.rd (K.SESS_ID i))
      (fld q.payload 0 1 * 256 + (s.rd (H.fails i) + 1))).rd K.QCP_AUTH_FAIL_LIMIT = s.rd K.QCP_AUTH_FAIL_LIMIT := by
    rw [State.rd_raise, State.rd_wr_ne]
    simp only [K.QCP_AUTH_FAIL_LIMIT, K.at', H.fails, H.hk]
    omega
  unfold State.opAuth
  rw [if_neg (show ¬ i = spiSlot from hi)]
  refine (if_neg fun hgood => h ?_).trans ?_
  · simpa [ProofRight, and_assoc] using hgood
  · rw [← hlimit]
    rfl

/-- On the SPI session every proof is answered OK. -/
theorem opAuth_spi : s.opAuth 16 q = ⟨0, [(s.newChal 16).authPayload 16], s.newChal 16, none⟩ := rfl

/-- None of the answers asks for a warm reset. -/
theorem newChal_warmPend (hi : i ≤ 16) : (s.newChal i).rd H.warmPend = s.rd H.warmPend :=
  newChal_rd s (by simp only [H.warmPend, H.chal, H.hk]; omega) (by simp only [H.warmPend, H.chalLive, H.hk]; omega)

/-- Nor does granting. -/
theorem granted_warmPend (hi : i ≤ 16) : (granted s q i).rd H.warmPend = s.rd H.warmPend := by
  refine (newChal_warmPend hi).trans (rd_wrs_ne _ _ _ ?_)
  simp only [List.mem_cons, List.not_mem_nil, or_false, forall_eq_or_imp, forall_eq, K.SESS_RIGHTS, K.at', H.fails, H.warmPend, H.hk]
  omega

/-- Nor does a failure. -/
theorem failed_warmPend (hi : i ≤ 16) : (failed s q i).rd H.warmPend = s.rd H.warmPend := by
  refine (newChal_warmPend hi).trans ((State.rd_raise ..).trans (State.rd_wr_ne _ _ ?_))
  simp only [H.fails, H.warmPend, H.hk]
  omega

end

/-- Settles O11: a right proof, a wrong one below the limit and at it, and the SPI session. -/
theorem authGrantsRights : Obligations.AuthGrantsRights := by
  intro q i s h hq h36
  have hi := slot_le h.named
  refine ⟨fun hlt => ?_, ?_⟩
  · intro l key n good answer
    have h16 : i ≠ 16 := Nat.ne_of_lt hlt
    obtain ⟨-, -, hfails, hid⟩ := arrived_authRegs (s := s) (q := q) hi
    have hlimit : (arrived q i s).rd K.QCP_AUTH_FAIL_LIMIT = s.rd K.QCP_AUTH_FAIL_LIMIT := arrived_obj s q hi (by decide) (by decide)
    refine ⟨fun hgood => ?_, fun hbad => ?_⟩
    · exact h.answer_quiet (op := 2) (x := []) hq (by decide) (by decide) h36 (opAuth_right h16 ((arrived_proofRight hi).2 hgood))
        ((granted_warmPend hi).trans_ne h.quiet)
    · intro m
      have hm : failed (arrived q i s) q i = m := by rw [failed, hfails, hid]
      have hauth := opAuth_wrong h16 (mt (arrived_proofRight (s := s) hi).1 hbad)
      have hw : m.rd H.warmPend ≠ 1 := hm ▸ (failed_warmPend hi).trans_ne h.quiet
      rw [hm, hlimit, hfails] at hauth
      by_cases hn : s.rd K.QCP_AUTH_FAIL_LIMIT ≤ n
      · rw [if_pos hn] at hauth
        rw [if_pos hn]
        exact h.answer_closing (op := 2) (x := []) hq (by decide) (by decide) h36 hauth hw
      · rw [if_neg hn] at hauth
        rw [if_neg hn]
        exact h.answer_quiet (op := 2) (x := []) hq (by decide) (by decide) h36 hauth hw
  · rintro rfl m
    exact h.answer_quiet (op := 2) (x := []) hq (by decide) (by decide) h36 (opAuth_spi (q := q)) ((newChal_warmPend hi).trans_ne h.quiet)

end Sys2Proof
end

section
/-! SubscribeAddsAWatch: SUBSCRIBE check by check, the lowest free handle, and UNSUBSCRIBE by what goes. -/
namespace Sys2Proof

open Machine

/-! ## The lowest free handle (R79) -/

/-- A handle no larger than all handles below it in use is one of the first 33 numbers, where fewer than 32 are in use. -/
theorem handle_le {mine : List Sub} (hlen : mine.length < 32) {h : Nat}
    (hall : ∀ j : Nat, 1 ≤ j → j < h → ∃ b ∈ mine, b.handle = j) : h ≤ 32 := by
  by_contra hgt
  have hsub : List.range' 1 32 ⊆ mine.map Sub.handle := by
    intro j hj
    rw [List.mem_range'_1] at hj
    obtain ⟨b, hb, rfl⟩ := hall j hj.1 (by omega)
    exact List.mem_map_of_mem hb
  have hle := ((List.nodup_range' (s := 1) (n := 32)).subperm hsub).length_le
  rw [List.length_range', List.length_map] at hle
  omega

/-- The search finds the lowest free handle. -/
theorem find_handle {mine : List Sub} (hlen : mine.length < 32) {h : Nat} (h1 : 1 ≤ h) (hfree : ∀ b ∈ mine, b.handle ≠ h)
    (hall : ∀ j : Nat, 1 ≤ j → j < h → ∃ b ∈ mine, b.handle = j) :
    (List.range 33).find? (fun j => decide (1 ≤ j) && mine.all (fun b => b.handle != j)) = some h := by
  have hle := handle_le hlen hall
  rw [List.find?_range_eq_some]
  refine ⟨by simpa [h1] using hfree, List.mem_range.2 (by omega), fun j hj => ?_⟩
  by_cases hj1 : 1 ≤ j
  · obtain ⟨b, hb, hbj⟩ := hall j hj1 hj
    have hno : mine.all (fun b => b.handle != j) = false := List.all_eq_false.2 ⟨b, hb, by simp [hbj]⟩
    simp [hno]
  · simp [hj1]

/-! ## SUBSCRIBE (R69, R79, R85) -/

/-- KIND, or what a KIND 0 subscription watches, is out of range. -/
def watchBad (p : List Nat) : Prop :=
  1 < fld p 0 1 ∨ fld p 0 1 = 0 ∧ (60000 < fld p 2 2 ∨ fld p 7 1 < fld p 6 1 ∨ fld p 4 2 = 0x6811)

/-- The statuses of the members a KIND 0 subscription watches. -/
def watchStops (s : State) (i : Nat) (p : List Nat) : List Nat :=
  (List.range (fld p 7 1 + 1 - fld p 6 1)).map (fun j => s.readStop (s.rd (K.SESS_RIGHTS i)) (K.at' (fld p 4 2) (fld p 6 1 + j)))

/-- The subscription a request asks for, under a handle. -/
def newSub (s : State) (i : Nat) (q : Req) (h : Nat) : Sub where
  slot := i
  handle := h
  kind := fld q.payload 0 1
  minInt := fld q.payload 2 2
  index := if fld q.payload 0 1 = 0 then fld q.payload 4 2 else 0
  first := if fld q.payload 0 1 = 0 then fld q.payload 6 1 else 0
  last := if fld q.payload 0 1 = 0 then fld q.payload 7 1 else 0
  classes := if fld q.payload 0 1 = 1 then fld q.payload 4 2 else 0
  ack := s.rd (K.SESS_GEN i) == 3 && q.flags.testBit 2
  lastAt := 0
  seen := if fld q.payload 0 1 = 0 then s.watch (fld q.payload 4 2) (fld q.payload 6 1) (fld q.payload 7 1) else []
  evs := []

/-- The status of the first member that may not be read; KIND 1 watches none. -/
def watchStop (s : State) (i : Nat) (p : List Nat) : Option Nat :=
  if fld p 0 1 = 1 then none else (watchStops s i p).find? (· != 0)

/-- The lowest handle the session does not use. -/
def lowestHandle (s : State) (i : Nat) : Nat :=
  ((List.range 33).find? (fun j => decide (1 ≤ j) && (s.subs.filter (fun b => b.slot == i)).all (fun b => b.handle != j))).getD 1

/-- What a SUBSCRIBE in range is answered, by the first member that may not be read: its status, BUSY, or a new subscription. -/
def admitSub (s : State) (i : Nat) (q : Req) : Option Nat → Reply
  | some st => .no st s
  | none =>
    if 32 ≤ (s.subs.filter (fun b => b.slot == i)).length ∨ 256 ≤ s.subs.length then .no 5 s
    else ⟨0, [bytesBE 2 (lowestHandle s i)], s.addSub (newSub s i q (lowestHandle s i)), none⟩

section
variable {s : State} {q : Req} {i : Nat}

/-- Rights none hold no level, any others hold VIEW. -/
theorem holds_view (rights : Nat) : holds rights 0 = true ↔ rights ≠ 0xFF := by simp [holds]

/-- KIND 1 below generation 3. -/
theorem opSubscribe_foreign (h : fld q.payload 0 1 = 1 ∧ s.rd (K.SESS_GEN i) < 3) : s.opSubscribe i q = .no 8 s := if_pos h

/-- Without VIEW. -/
theorem opSubscribe_denied (h : ¬ (fld q.payload 0 1 = 1 ∧ s.rd (K.SESS_GEN i) < 3)) (hr : s.rd (K.SESS_RIGHTS i) = 0xFF) :
    s.opSubscribe i q = .no 2 s := by
  have hno : (!holds (s.rd (K.SESS_RIGHTS i)) 0) = true := by rw [hr]; rfl
  exact (if_neg h).trans (if_pos hno)

/-- Out of range. -/
theorem opSubscribe_bad (h : ¬ (fld q.payload 0 1 = 1 ∧ s.rd (K.SESS_GEN i) < 3)) (hr : s.rd (K.SESS_RIGHTS i) ≠ 0xFF)
    (hbad : watchBad q.payload) : s.opSubscribe i q = .no 4 s := by
  have hview : ¬ (!holds (s.rd (K.SESS_RIGHTS i)) 0) = true := by simp [(holds_view _).2 hr]
  refine (if_neg h).trans ((if_neg hview).trans ?_)
  by_cases hkind : 1 < fld q.payload 0 1 ∨ fld q.payload 0 1 = 0 ∧ 60000 < fld q.payload 2 2
  · exact if_pos hkind
  · refine (if_neg hkind).trans (if_pos ?_)
    unfold watchBad at hbad
    omega

/-- In range. -/
theorem opSubscribe_good (h : ¬ (fld q.payload 0 1 = 1 ∧ s.rd (K.SESS_GEN i) < 3)) (hr : s.rd (K.SESS_RIGHTS i) ≠ 0xFF)
    (hgood : ¬ watchBad q.payload) : s.opSubscribe i q = admitSub s i q (watchStop s i q.payload) := by
  have hview : ¬ (!holds (s.rd (K.SESS_RIGHTS i)) 0) = true := by simp [(holds_view _).2 hr]
  have hkind : ¬ (1 < fld q.payload 0 1 ∨ fld q.payload 0 1 = 0 ∧ 60000 < fld q.payload 2 2) := by
    unfold watchBad at hgood
    omega
  have hrange : ¬ (fld q.payload 0 1 = 0 ∧ (fld q.payload 7 1 < fld q.payload 6 1 ∨ fld q.payload 4 2 = 0x6811)) := by
    unfold watchBad at hgood
    omega
  exact (if_neg h).trans ((if_neg hview).trans ((if_neg hkind).trans ((if_neg hrange).trans rfl)))

/-- Where every member may be read, nothing stops it. -/
theorem watchStop_none (h : fld q.payload 0 1 = 1 ∨ ∀ st ∈ watchStops s i q.payload, st = 0) : watchStop s i q.payload = none := by
  unfold watchStop
  split
  · rfl
  · next h1 => exact List.find?_eq_none.2 fun st hst => by simp [h.resolve_left h1 st hst]

/-- With room for it the session holds it under the lowest handle it does not use. -/
theorem admitSub_adds (hmine : (s.subs.filter (fun b => b.slot == i)).length < 32) (hall : s.subs.length < 256) {h : Nat} (h1 : 1 ≤ h)
    (hfree : ∀ b ∈ s.subs.filter (fun b => b.slot == i), b.handle ≠ h)
    (hlow : ∀ j : Nat, 1 ≤ j → j < h → ∃ b ∈ s.subs.filter (fun b => b.slot == i), b.handle = j) :
    admitSub s i q none = ⟨0, [bytesBE 2 h], s.addSub (newSub s i q h), none⟩ := by
  have hroom : ¬ (32 ≤ (s.subs.filter (fun b => b.slot == i)).length ∨ 256 ≤ s.subs.length) := by omega
  refine (if_neg hroom).trans ?_
  rw [lowestHandle, find_handle hmine h1 hfree hlow]
  rfl

/-! ## What a subscription changes -/

/-- The registers that count subscriptions differ, and an arrival changes neither. -/
theorem subKeys_not_mem (hi : i ≤ 16) :
    K.NOTIF_SUBS_IN_USE ∉ arrivalKeys i ∧ K.SESS_SUBS i ∉ arrivalKeys i ∧ K.SESS_SUBS i ≠ K.NOTIF_SUBS_IN_USE := by
  simp only [arrivalKeys, List.mem_cons, List.not_mem_nil, or_false, K.NOTIF_SUBS_IN_USE, K.SESS_SUBS, K.SESS_PORT, K.SESS_ADDR, K.SESS_UDP,
    K.SESS_LAST_SEQ, H.sessOwn, H.lastReq, H.sessMute, H.warmPend, H.hk, K.at']
  omega

/-- The subscriptions of a session change to `l`, and both counts by f. -/
def resubscribed (s : State) (i : Nat) (l : List Sub) (f : Nat → Nat) : State :=
  ({ s with subs := l }.up K.NOTIF_SUBS_IN_USE f).up (K.SESS_SUBS i) f

/-- What that changes once the request has arrived and is answered. -/
theorem resubscribed_changes (h : Serves s q i) (l : List Sub) (f : Nat → Nat) (op st : Nat) (p : List Nat) :
    let t := replied s q i op st p (resubscribed (arrived q i s) i l f)
    RegsKept (arrivalKeys i ++ [K.NOTIF_SUBS_IN_USE, K.SESS_SUBS i]) s t ∧ t.rd K.NOTIF_SUBS_IN_USE = f (s.rd K.NOTIF_SUBS_IN_USE) ∧
    t.rd (K.SESS_SUBS i) = f (s.rd (K.SESS_SUBS i)) ∧ StoresKept s t ∧ t.subs = l := by
  intro t
  obtain ⟨hin, hmine, hne⟩ := subKeys_not_mem (slot_le h.named)
  set a := arrived q i s with ha
  have hrd (k : Nat) : t.rd k = (resubscribed a i l f).rd k := replied_rd ..
  have huse : ({ a with subs := l } : State).rd K.NOTIF_SUBS_IN_USE = s.rd K.NOTIF_SUBS_IN_USE := arrived_rd s q i _ hin
  have hsubs : ({ a with subs := l } : State).rd (K.SESS_SUBS i) = s.rd (K.SESS_SUBS i) := arrived_rd s q i _ hmine
  refine ⟨fun k hk => ?_, ?_, ?_, ?_, ?_⟩
  · simp only [List.mem_append, List.mem_cons, List.not_mem_nil, or_false, not_or] at hk
    obtain ⟨harr, h1, h2⟩ := hk
    rw [hrd, resubscribed, State.up, State.rd_wr_ne _ _ h2, State.up, State.rd_wr_ne _ _ h1]
    exact arrived_rd s q i k harr
  · rw [hrd, resubscribed, State.up, State.rd_wr_ne _ _ (Ne.symm hne), State.up, State.rd_wr_self, huse]
  · rw [hrd, resubscribed, State.up, State.rd_wr_self, State.up, State.rd_wr_ne _ _ hne, hsubs]
  · exact storesKept_replied _ _ _ _ _ _ (up_keeps (storesKept_kept s) (up_keeps (storesKept_kept s)
      ((storesKept_kept s).subs _ _ (storesKept_arrived s q i))))
  · exact send_keeps_of (P := fun u : State => u.subs = l) (fun _ _ => id) (fun _ _ => id) _ rfl

/-- Nor does it ask for a warm reset. -/
theorem resubscribed_quiet (h : Serves s q i) (l : List Sub) (f : Nat → Nat) : (resubscribed (arrived q i s) i l f).rd H.warmPend ≠ 1 := by
  have hi := slot_le h.named
  rw [resubscribed, State.up, State.rd_wr_ne, State.up, State.rd_wr_ne _ _ (by decide)]
  · exact h.quiet
  · simp only [H.warmPend, H.hk, K.SESS_SUBS, K.at']
    omega

/-! ## UNSUBSCRIBE (R69) -/

/-- The subscriptions an UNSUBSCRIBE drops. -/
def drops (q : Req) (i : Nat) (b : Sub) : Bool := b.slot == i && (fld q.payload 0 2 == 0xFFFF || b.handle == fld q.payload 0 2)

/-- A handle the session does not hold. -/
theorem opUnsubscribe_unknown (hgone : s.subs.filter (drops q i) = []) (hh : fld q.payload 0 2 ≠ 0xFFFF) :
    s.opUnsubscribe i q = ⟨4, [[]], s, none⟩ := if_pos ⟨hgone, hh⟩

/-- One it holds, or all. -/
theorem opUnsubscribe_drops (h : s.subs.filter (drops q i) ≠ [] ∨ fld q.payload 0 2 = 0xFFFF) : s.opUnsubscribe i q =
    ⟨0, [[]], resubscribed s i (s.subs.filter (fun b => !drops q i b)) (fun v => v - (s.subs.filter (drops q i)).length), none⟩ := by
  have hrest : s.subs.filter (fun b => !(s.subs.filter (drops q i)).contains b) = s.subs.filter (fun b => !drops q i b) := by
    refine List.filter_congr fun b hb => ?_
    cases hd : drops q i b <;> simp [hb, hd]
  rw [← hrest]
  exact if_neg fun hno => h.elim (fun hne => hne hno.1) hno.2

end

/-- Settles O22: SUBSCRIBE by its checks in order and the handle it finds, UNSUBSCRIBE by what it drops. -/
theorem subscribeAddsAWatch : Obligations.SubscribeAddsAWatch := by
  intro q i s h hq p a rights kind no
  have hi := slot_le h.named
  have hsubs : a.subs = s.subs := by rw [show a = _ from arrived_eq_reg s q i]
  have hrights : a.rd (K.SESS_RIGHTS i) = rights := arrived_rights s q i
  refine ⟨fun h6 h8 => ?_, fun h2 => ?_⟩
  · have hlen : minPayload 0x30 q ≤ q.payload.length := by
      show (if fld q.payload 0 1 = 0 then 8 else if fld q.payload 0 1 = 1 then 6 else 4) ≤ _
      have hsix : 6 ≤ q.payload.length := h6
      split
      · next h0 => exact h8 h0
      · split <;> omega
    have answers {st : Nat} {pay : List Nat} {m : State} (hr : a.opSubscribe i q = ⟨st, [pay], m, none⟩) (hw : m.rd H.warmPend ≠ 1) :
        exec (.subscribe q) s = .next (replied s q i 0x30 st pay m) :=
      h.answer_quiet (op := 0x30) (x := []) hq (by decide) (by decide) hlen hr hw
    have refuses {st : Nat} (hr : a.opSubscribe i q = .no st a) : no st := answers hr h.quiet
    have hgen : a.rd (K.SESS_GEN i) = s.rd (K.SESS_GEN i) := arrived_gen s q i
    rw [← hgen, ← hrights, ← hsubs]
    refine ⟨fun h1 hold => refuses (opSubscribe_foreign ⟨h1, hold⟩), fun hk hr => refuses (opSubscribe_denied hk hr), fun hk hr =>
      ⟨fun hbad => refuses (opSubscribe_bad hk hr hbad), fun hgood => ?_⟩⟩
    have hadmit := opSubscribe_good hk hr hgood
    intro stops mine
    refine ⟨fun st h0 hst => ?_, fun hread hfull => ?_, fun hread hmine hall n h1 hfree hlow => ?_⟩
    · have hstop : watchStop a i p = some st := (if_neg (by omega)).trans hst
      exact refuses (hadmit.trans (by rw [hstop]; rfl))
    · exact refuses (hadmit.trans (by rw [watchStop_none hread]; exact if_pos hfull))
    · have hadds : a.opSubscribe i q = ⟨0, [bytesBE 2 n], a.addSub (newSub a i q n), none⟩ :=
        hadmit.trans (by rw [watchStop_none hread]; exact admitSub_adds hmine hall h1 hfree hlow)
      obtain ⟨hregs, huse, hcount, hkept, hlist⟩ := resubscribed_changes h (a.subs ++ [newSub a i q n]) (· + 1) 0x30 0 (bytesBE 2 n)
      refine ⟨_, answers hadds (resubscribed_quiet h (a.subs ++ [newSub a i q n]) (· + 1)), hregs, huse, hcount, hkept, newSub a i q n, hlist, rfl,
        rfl, rfl, rfl, fun h0 => ⟨if_pos h0, if_pos h0, if_pos h0, if_pos h0⟩, fun h1 => if_pos h1⟩
  · intro gone
    have answers {st : Nat} {m : State} (hr : a.opUnsubscribe i q = ⟨st, [[]], m, none⟩) (hw : m.rd H.warmPend ≠ 1) :
        exec (.unsubscribe q) s = .next (replied s q i 0x31 st [] m) :=
      h.answer_quiet (op := 0x31) (x := []) hq (by decide) (by decide) h2 hr hw
    rw [← hsubs]
    refine ⟨fun hnone hh => answers (opUnsubscribe_unknown hnone hh) h.quiet, fun hsome => ?_⟩
    obtain ⟨hregs, huse, hcount, hkept, hlist⟩ := resubscribed_changes h (a.subs.filter (fun b => !drops q i b))
      (fun v => v - (a.subs.filter (drops q i)).length) 0x31 0 []
    exact ⟨_, answers (opUnsubscribe_drops hsome) (resubscribed_quiet h _ _), hregs, huse, hcount, hkept, hlist⟩

end Sys2Proof
end

section
/-! NotifyReportsChanges: a NOTIFY by its handle, an acknowledgement, and a repeat. -/
namespace Sys2Proof

open Machine

/-! ## A session that receives (R63, R80, R81) -/

/-- Network session i receives: a pair serves, the session is open and not silenced, its port is up. -/
structure Receives (s : State) (i : Nat) : Prop where
  network : i < 16
  on : s.mgmtOn = true
  open' : s.rd (K.SESS_STATE i) = 1
  heard : s.rd (H.sessMute i) = 0
  port : s.rd (K.SESS_PORT i) < 2
  up : s.rd (K.PD_STATE (3 + s.rd (K.SESS_PORT i))) = 3 ∧ s.rd (K.CTL_ENABLE (s.rd (K.SESS_PORT i))) = 1

/-- The number of the session's next NOTIFY. -/
def nextNote (s : State) (i : Nat) : Nat := (s.rd (K.SESS_NOTIFY_SEQ i) + 1) % 2 ^ 32

/-- A NOTIFY of session i. -/
def noteMsg (s : State) (i st n flags : Nat) (p : List Nat) : Msg :=
  ⟨s.rd (K.SESS_PORT i), s.rd (H.sessOwn i), s.rd (K.SESS_ADDR i), s.rd (K.SESS_UDP i), s.rd (K.SESS_GEN i), flags, s.rd (K.SESS_ID i), n, 0x32, st,
    p⟩

/-- The NOTIFY is numbered. -/
def numbered (s : State) (i : Nat) : State := s.wr (K.SESS_NOTIFY_SEQ i) (nextNote s i)

section
variable {s : State} {i : Nat}

/-- What says that a session receives are registers other than the number of its NOTIFY. -/
theorem Receives.congr (h : Receives s i) {t : State} (ht : ∀ k, k ≠ K.SESS_NOTIFY_SEQ i → t.rd k = s.rd k) : Receives t i := by
  have hlt := h.network
  have hport : t.rd (K.SESS_PORT i) = s.rd (K.SESS_PORT i) := ht _ (by simp only [K.SESS_PORT, K.SESS_NOTIFY_SEQ, K.at']; omega)
  have hpd : t.rd (K.PD_STATE (3 + s.rd (K.SESS_PORT i))) = 3 :=
    (ht _ (by simp only [K.PD_STATE, K.SESS_NOTIFY_SEQ, K.at']; omega)).trans h.up.1
  have hen : t.rd (K.CTL_ENABLE (s.rd (K.SESS_PORT i))) = 1 :=
    (ht _ (by simp only [K.CTL_ENABLE, K.SESS_NOTIFY_SEQ, K.at']; omega)).trans h.up.2
  have hon : t.mgmtOn = s.mgmtOn := congrArg (· == 1) (ht H.mgmtOn (by simp only [H.mgmtOn, H.hk, K.SESS_NOTIFY_SEQ, K.at']; omega))
  exact ⟨hlt, hon.trans h.on, (ht _ (by simp only [K.SESS_STATE, K.SESS_NOTIFY_SEQ, K.at']; omega)).trans h.open',
    (ht _ (by simp only [H.sessMute, H.hk, K.SESS_NOTIFY_SEQ, K.at']; omega)).trans h.heard, hport ▸ h.port, by rw [hport]; exact ⟨hpd, hen⟩⟩

/-- A NOTIFY leaves by the session's port. -/
theorem Receives.sendNote (h : Receives s i) {n : Note} (hn : n.slot = i) : s.sendNote n =
    { s with tx := s.tx ++ [noteMsg s i n.status n.seq (if n.ack then 4 else 0) n.payload] } := by
  have hlt := h.network
  have hmute : ¬ s.rd (H.sessMute i) = 1 := by rw [h.heard]; decide
  have hsid : s.sid i = s.rd (K.SESS_ID i) := if_neg (by simp only [spiSlot]; omega)
  have hport : s.rd (K.SESS_PORT i) ≠ 2 := Nat.ne_of_lt h.port
  simp only [State.sendNote, hn]
  rw [if_neg hmute, hsid]
  simp [State.send, hport, State.pdReady, h.up, noteMsg]

/-- The message of a session depends on its record and not on the number of its NOTIFY. -/
theorem noteMsg_congr (hi : i < 16) {t : State} (ht : ∀ k, k ≠ K.SESS_NOTIFY_SEQ i → t.rd k = s.rd k) (st n flags : Nat) (p : List Nat) :
    noteMsg t i st n flags p = noteMsg s i st n flags p := by
  simp only [noteMsg]
  rw [ht (K.SESS_PORT i), ht (H.sessOwn i), ht (K.SESS_ADDR i), ht (K.SESS_UDP i), ht (K.SESS_GEN i), ht (K.SESS_ID i)]
  all_goals
    simp only [H.sessOwn, H.hk, K.SESS_NOTIFY_SEQ, K.SESS_PORT, K.SESS_ADDR, K.SESS_UDP, K.SESS_GEN, K.SESS_ID, K.at']
    omega

/-- Every register but its number. -/
theorem numbered_rd {k : Nat} (hk : k ≠ K.SESS_NOTIFY_SEQ i) : (numbered s i).rd k = s.rd k := State.rd_wr_ne _ _ hk

/-- A NOTIFY that is lost is counted and reported. -/
theorem noteLost_eq (hi : i < 16) (n : Nat) : s.noteLost i n =
    (s.wr K.NOTIF_LOST (min (s.rd K.NOTIF_LOST + 1) 0xFFFFFFFF)).raise 0x8006 (0x1110 + i) (s.rd (K.SESS_ID i)) n := by
  have hsid : s.sid i = s.rd (K.SESS_ID i) := if_neg (by simp only [spiSlot]; omega)
  rw [State.noteLost, hsid]
  rfl

/-- The NOTIFY is numbered and sent, and waits for its acknowledgement if it asks for one. -/
def noted (s : State) (i st : Nat) (ack : Bool) (p : List Nat) : State :=
  { numbered s i with
    tx := s.tx ++ [noteMsg s i st (nextNote s i) (if ack then 4 else 0) p]
    notes := if ack then s.notes ++ [⟨i, nextNote s i, st, ack, p, true, (numbered s i).now, 0⟩] else s.notes }

/-- A NOTIFY of a session that receives is numbered, and lost where 64 wait. -/
theorem Receives.issue (h : Receives s i) (st : Nat) (ack : Bool) (p : List Nat) :
    s.issue i st ack p = if 64 ≤ s.queued i then (numbered s i).noteLost i (nextNote s i) else noted s i st ack p := by
  have hrecv : Receives (numbered s i) i := h.congr fun _ => numbered_rd
  have hseq : (numbered s i).rd (K.SESS_NOTIFY_SEQ i) = nextNote s i := State.rd_wr_self ..
  have hopen : ¬ (i ≠ spiSlot ∧ (numbered s i).rd (K.SESS_STATE i) ≠ 1) := fun hc => hc.2 hrecv.open'
  have hmsg := noteMsg_congr h.network (t := numbered s i) fun _ => numbered_rd
  let n : Note := ⟨i, nextNote s i, st, ack, p, true, (numbered s i).now, 0⟩
  have hqueued : Receives { numbered s i with notes := s.notes ++ [n] } i := hrecv.congr fun _ _ => rfl
  have hsent : (if ack then { numbered s i with notes := s.notes ++ [n] } else numbered s i).sendNote n = noted s i st ack p := by
    cases ack
    · exact (hrecv.sendNote (n := n) rfl).trans
        (congrArg (fun m => ({ numbered s i with tx := s.tx ++ [m] } : State)) (hmsg ..))
    · exact (hqueued.sendNote (n := n) rfl).trans
        (congrArg (fun m => ({ numbered s i with tx := s.tx ++ [m], notes := s.notes ++ [n] } : State)) (hmsg ..))
  rw [← hsent]
  refine (if_neg hopen).trans (if_congr Iff.rfl ?_ ?_)
  · exact congrArg ((numbered s i).noteLost i) hseq
  · exact congrArg (fun x => (if ack then { numbered s i with notes := s.notes ++ [⟨i, x, st, ack, p, true, (numbered s i).now, 0⟩] }
      else numbered s i).sendNote ⟨i, x, st, ack, p, true, (numbered s i).now, 0⟩) hseq

/-- With room in the queue it is sent. -/
theorem Receives.issue_sent (h : Receives s i) (hq : s.queued i < 64) (st : Nat) (ack : Bool) (p : List Nat) :
    s.issue i st ack p = noted s i st ack p := (h.issue st ack p).trans (if_neg (Nat.not_le.2 hq))

/-- Without, it is lost. -/
theorem Receives.issue_lost (h : Receives s i) (hq : 64 ≤ s.queued i) (st : Nat) (ack : Bool) (p : List Nat) :
    s.issue i st ack p = (numbered s i).noteLost i (nextNote s i) := (h.issue st ack p).trans (if_pos hq)

/-- A NOTIFY that is sent writes its number and nothing else among the registers. -/
theorem noted_regs (st : Nat) (ack : Bool) (p : List Nat) :
    (noted s i st ack p).rd (K.SESS_NOTIFY_SEQ i) = nextNote s i ∧ RegsKept [K.SESS_NOTIFY_SEQ i] s (noted s i st ack p) :=
  ⟨State.rd_wr_self .., fun _ hk => numbered_rd (by simpa using hk)⟩

/-- It leaves the stores. -/
theorem storesKept_noted {v : State} (h : StoresKept v s) (st : Nat) (ack : Bool) (p : List Nat) : StoresKept v (noted s i st ack p) :=
  ⟨h.mem, h.flash, h.pending, h.lat, h.com, h.due⟩

/-- It waits if it asks for an acknowledgement. -/
theorem noted_notes (st : Nat) (ack : Bool) (p : List Nat) : (noted s i st ack p).notes.length = s.notes.length + (if ack then 1 else 0) := by
  cases ack
  · rfl
  · exact List.length_append

/-- A NOTIFY that is lost leaves messages and queue, takes its number, is counted and reported. -/
theorem lost_changes (hi : i < 16) : let t := (numbered s i).noteLost i (nextNote s i)
    t.tx = s.tx ∧ t.notes = s.notes ∧ t.rd (K.SESS_NOTIFY_SEQ i) = nextNote s i ∧ t.rd K.NOTIF_LOST = min (s.rd K.NOTIF_LOST + 1) 0xFFFFFFFF ∧
    raisedOf t = raisedOf s ++ [(0x8006, 0x1110 + i, s.rd (K.SESS_ID i) % 2 ^ 32, nextNote s i)] := by
  intro t
  have hne : K.SESS_NOTIFY_SEQ i ≠ K.NOTIF_LOST := by simp only [K.SESS_NOTIFY_SEQ, K.NOTIF_LOST, K.at']; omega
  have hid : K.SESS_ID i ≠ K.SESS_NOTIFY_SEQ i := by simp only [K.SESS_NOTIFY_SEQ, K.SESS_ID, K.at']; omega
  have ht : t = _ := noteLost_eq hi (nextNote s i)
  rw [ht, numbered_rd hid, numbered_rd (Ne.symm hne), raisedOf_raise, State.rd_raise, State.rd_raise, State.rd_wr_ne _ _ hne, State.rd_wr_self,
    Nat.mod_eq_of_lt (show nextNote s i < 2 ^ 32 from Nat.mod_lt _ (by decide))]
  exact ⟨rfl, rfl, State.rd_wr_self .., rfl, rfl⟩

end

/-! ## A NOTIFY by its handle (R79, R80, R82) -/

section
variable {s : State} {w : Fin 17} {h : Nat} {b : Sub}

/-- The subscription after a NOTIFY of events: those sent are gone. -/
def eventsTaken (s : State) (b : Sub) : Sub := { b with evs := b.evs.drop 43, lastAt := s.now + 1 }

/-- The subscription after a NOTIFY of values: those sent are the ones last seen. -/
def valuesSeen (s : State) (b : Sub) : Sub := { b with seen := (s.items b).2.2, lastAt := s.now + 1 }

/-- A KIND 1 handle with events. -/
theorem notify_events (hon : s.mgmtOn = true) (h0 : h ≠ 0) (hb : s.subs.find? (fun b => b.slot == w.val && b.handle == h) = some b)
    (hk : b.kind = 1) (hevs : b.evs ≠ []) : exec (.notify w h) s = .next ((s.putSub (eventsTaken s b)).issue w.val 0 b.ack
      (bytesBE 2 h ++ [(b.evs.take 43).length, 0] ++ (b.evs.take 43).flatMap (bytesBE 32))) := by
  show execNotify w h s = _
  simp only [execNotify, hon, hb]
  rw [if_neg (by decide), if_neg h0, if_pos hk, if_neg hevs]
  rfl

/-- A KIND 0 handle before its MIN_INTERVAL, or without a change. -/
theorem notify_idle (hon : s.mgmtOn = true) (h0 : h ≠ 0) (hb : s.subs.find? (fun b => b.slot == w.val && b.handle == h) = some b)
    (hk : b.kind = 0) (hidle : b.lastAt ≠ 0 ∧ s.now + 1 < b.lastAt + b.minInt * 1000 ∨ (s.items b).2.1 = 0) :
    exec (.notify w h) s = .next s := by
  show execNotify w h s = _
  simp only [execNotify, hon, hb]
  rw [if_neg (by decide), if_neg h0, if_neg (by omega)]
  by_cases hearly : b.lastAt ≠ 0 ∧ s.now + 1 < b.lastAt + b.minInt * 1000
  · exact if_pos hearly
  · exact (if_neg hearly).trans (if_pos (hidle.resolve_left hearly))

/-- A KIND 0 handle after it, with a change. -/
theorem notify_values (hon : s.mgmtOn = true) (h0 : h ≠ 0) (hb : s.subs.find? (fun b => b.slot == w.val && b.handle == h) = some b)
    (hk : b.kind = 0) (hlate : ¬ (b.lastAt ≠ 0 ∧ s.now + 1 < b.lastAt + b.minInt * 1000)) (hsome : (s.items b).2.1 ≠ 0) :
    exec (.notify w h) s = .next ((s.putSub (valuesSeen s b)).issue w.val 0 b.ack
      (bytesBE 2 h ++ [(s.items b).2.1, 0] ++ (s.items b).1)) := by
  show execNotify w h s = _
  simp only [execNotify, hon, hb]
  rw [if_neg (by decide), if_neg h0, if_neg (by omega), if_neg hlate, if_neg hsome]
  rfl

/-- Handle 0 with a salvo that is done. -/
theorem notify_done (hon : s.mgmtOn = true) {d : Done} (hd : s.done.find? (fun d => d.slot == w.val) = some d) : exec (.notify w 0) s =
    .next (({ s with done := s.done.erase d } : State).issue w.val d.status (s.rd (K.SESS_GEN w.val) == 3)
      ([0, 0, 1, 0] ++ bytesBE 2 (0x1440 + d.salvo) ++ [1, 1, d.state])) := by
  show execNotify w 0 s = _
  simp only [execNotify, hon, hd]
  rfl

/-! ## Repeats (R81) -/

/-- The NOTIFY once it has been repeated. -/
def repeated (s : State) (m : Note) : Note := { m with at' := s.now, tries := m.tries + 1 }

variable {n : Nat} {m : Note}

/-- Before 20 ms have passed nothing is repeated. -/
theorem notifyRetry_early (hm : s.notes.find? (fun m => m.slot == w.val && m.seq == n) = some m) (hnow : s.now < m.at' + 20000) :
    exec (.notifyRetry w n) s = .next s := by
  show execNotifyRetry w n s = _
  simp only [execNotifyRetry, hm]
  exact if_pos (.inr (.inl hnow))

/-- After that an open session's NOTIFY is repeated, three times at most, then given up. -/
theorem notifyRetry_due (hon : s.mgmtOn = true) (hopen : s.rd (K.SESS_STATE w.val) = 1)
    (hm : s.notes.find? (fun m => m.slot == w.val && m.seq == n) = some m) (hnow : m.at' + 20000 ≤ s.now) : exec (.notifyRetry w n) s = .next
    (if 3 ≤ m.tries then ({ s with notes := s.notes.erase m } : State).noteLost w.val n
      else ({ s with notes := s.notes.map (fun c => if c = m then repeated s m else c) } : State).sendNote (repeated s m)) := by
  have hdue : ¬ ((!s.mgmtOn) = true ∨ s.now < m.at' + 20000 ∨ (w.val ≠ spiSlot ∧ s.rd (K.SESS_STATE w.val) ≠ 1)) := by
    rintro (hoff | hearly | hshut)
    · simp [hon] at hoff
    · omega
    · exact hshut.2 hopen
  show execNotifyRetry w n s = _
  simp only [execNotifyRetry, hm]
  rw [if_neg hdue]
  split <;> rfl

/-! ## Acknowledgements (R81) -/

/-- An acknowledgement that passes the door removes what it names. -/
theorem exec_notifyAck {q : Req} {i : Nat} (hd : Door s q) (hp : q.payload = []) (hlen : q.len = 0) (hi : s.findSess q = some i) :
    exec (.notifyAck q) s = .next { s with notes := s.notes.filter (fun n => n.slot != i || n.seq != q.seq) } := by
  set f := q.flags ||| 0x80 with hf
  have h7 : f.testBit 7 = true := by rw [hf, Nat.testBit_or, show Nat.testBit 0x80 7 = true by decide, Bool.or_true]
  have hr : Reaches s { q with flags := f } := ⟨hd.on, hd.normal, hd.port, hd.reaches.hears⟩
  have hgood : badHeader 0x32 { q with flags := f } = false := by simp [badHeader, hd.magic, hp, hlen]
  have hack : s.ack { q with flags := f } = { s with notes := s.notes.filter (fun n => n.slot != i || n.seq != q.seq) } := by
    have hnamed : s.findSess { q with flags := f } = some i := hi
    simp only [State.ack, hnamed]
  refine congrArg Host.Outcome.next ((hr.arrive []).trans ?_)
  rw [hgood, if_neg (by decide), if_pos ⟨rfl, h7⟩, hack]

end

/-- Settles O23: each kind of handle by what issuing a NOTIFY does, the acknowledgement, the repeat. -/
theorem notifyReportsChanges : Obligations.NotifyReportsChanges := by
  intro i s hon hopen hheard hport hpd hen seq msg
  have hon' : s.mgmtOn = true := by simp [State.mgmtOn, hon]
  have hrecv : Receives s i.val := ⟨i.isLt, hon', hopen, hheard, hport, hpd, hen⟩
  have hsub (b : Sub) : Receives (s.putSub b) i.val := hrecv.congr fun _ _ => rfl
  have hsubs (b : Sub) : StoresKept s (s.putSub b) := (storesKept_kept s).subs _ _ (storesKept_refl s)
  refine ⟨fun h b h0 hb hk hevs => ⟨fun hq => ?_, fun hq => ?_⟩, fun h b h0 hb hk hidle => ?_, fun h b h0 hb hk hlate hsome hq => ?_,
    fun d hd hq => ?_, fun q hd hp hlen hi => ?_, fun n m hm => ⟨fun hearly => ?_, fun hdue htries => ?_, fun hdue htries => ?_⟩⟩
  · refine ⟨_, (notify_events (w := i.castLE (by decide)) hon' h0 hb hk hevs).trans (congrArg _ ((hsub _).issue_sent hq ..)), rfl,
      (noted_regs ..).1, (noted_regs ..).2, rfl, storesKept_noted (hsubs _) .., noted_notes ..⟩
  · exact ⟨_, (notify_events (w := i.castLE (by decide)) hon' h0 hb hk hevs).trans (congrArg _ ((hsub _).issue_lost hq ..)), lost_changes i.isLt⟩
  · exact notify_idle (w := i.castLE (by decide)) hon' h0 hb hk hidle
  · exact ⟨_, (notify_values (w := i.castLE (by decide)) hon' h0 hb hk hlate hsome).trans (congrArg _ ((hsub _).issue_sent hq ..)), rfl, rfl⟩
  · have hdone : Receives { s with done := s.done.erase d } i.val := hrecv.congr fun _ _ => rfl
    refine ⟨_, (notify_done (w := i.castLE (by decide)) hon' hd).trans (congrArg _ (hdone.issue_sent hq ..)), rfl, (noted_regs ..).1, ?_⟩
    simp only [noted, beq_iff_eq]
    rfl
  · exact exec_notifyAck hd hp hlen hi
  · exact notifyRetry_early (w := i.castLE (by decide)) hm hearly
  · have hslot : m.slot = i.val := by
      have := List.find?_some hm
      simp only [Bool.and_eq_true, beq_iff_eq] at this
      exact this.1
    have hnotes : Receives { s with notes := s.notes.map (fun c => if c = m then repeated s m else c) } i.val := hrecv.congr fun _ _ => rfl
    exact ⟨_, (notifyRetry_due (w := i.castLE (by decide)) hon' hopen hm hdue).trans (congrArg _ ((if_neg (Nat.not_le.2 htries)).trans
      (hnotes.sendNote hslot))), rfl, rfl, fun _ _ => rfl⟩
  · exact ⟨_, (notifyRetry_due (w := i.castLE (by decide)) hon' hopen hm hdue).trans (congrArg _ ((if_pos htries).trans
      (noteLost_eq i.isLt n))), rfl, rfl, raisedOf_raise ..⟩

end Sys2Proof
end

section
/-! SpiTransactions: each command of the SPI target. -/
namespace Sys2Proof

open Machine

/-! ## Errors of a transaction (R88, R90) -/

/-- A transaction that fails: zeros come back, an error bit is set and the events of `ev` are raised; nothing else changes. -/
def SpiFails (c : Instr) (s : State) (zeros bit : Nat) (ev : List (Nat × Nat × Nat × Nat)) : Prop := Ends c s (fun t =>
  t.spiOut = List.replicate zeros 0 ∧ t.rd H.spiErr = s.rd H.spiErr ||| 2 ^ bit ∧ RegsKept [H.spiErr] s t ∧ raisedOf t = raisedOf s ++ ev ∧
    StoresKept s t ∧ t.spiTx = s.spiTx ∧ t.tx = s.tx)

section
variable {s : State} {c : Instr} {zeros bit : Nat}

/-- The state before the error: zeros have come back, and free values may have been taken. -/
def spiZeros (s : State) (zeros ctr : Nat) : State := { s with spiOut := List.replicate zeros 0, freeCtr := ctr }

/-- An error bit is set in it. -/
theorem spiError_rd (s : State) (zeros ctr bit : Nat) : ((spiZeros s zeros ctr).spiError bit).rd H.spiErr = s.rd H.spiErr ||| 2 ^ bit ∧
    RegsKept [H.spiErr] s ((spiZeros s zeros ctr).spiError bit) :=
  ⟨State.rd_wr_self .., fun _ hk => State.rd_setBit_ne _ _ _ (by simpa using hk)⟩

/-- A transaction that fails without an event. -/
theorem spiFails_silent {ctr : Nat} (hc : exec c s = .next ((spiZeros s zeros ctr).spiError bit)) : SpiFails c s zeros bit [] :=
  ⟨_, hc, rfl, (spiError_rd s zeros ctr bit).1, (spiError_rd s zeros ctr bit).2, (List.append_nil _).symm,
    ⟨fun _ => rfl, fun _ => rfl, rfl, rfl, rfl, rfl⟩, rfl, rfl⟩

/-- A transaction that fails with an event. -/
theorem spiFails_raising {ctr code src a1 a2 : Nat} (h1 : a1 < 2 ^ 32) (h2 : a2 < 2 ^ 32)
    (hc : exec c s = .next (((spiZeros s zeros ctr).spiError bit).raise code src a1 a2)) : SpiFails c s zeros bit [(code, src, a1, a2)] := by
  refine ⟨_, hc, rfl, (spiError_rd s zeros ctr bit).1, (spiError_rd s zeros ctr bit).2, ?_,
    ⟨fun _ => rfl, fun _ => rfl, rfl, rfl, rfl, rfl⟩, rfl, rfl⟩
  rw [raisedOf_raise, Nat.mod_eq_of_lt h1, Nat.mod_eq_of_lt h2]
  rfl

end

/-! ## WRITE_MSG (R88) -/

/-- What was clocked is too short for its LEN, or LEN is out of range. -/
def spiShort (l : List Nat) : Prop := l.length < 2 ∨ fld l 0 2 < 16 ∨ 1416 < fld l 0 2 ∨ l.length < fld l 0 2 + 4

/-- The message between LEN and CRC. -/
def spiMessage (l : List Nat) : List Nat := (l.drop 2).take (fld l 0 2)

/-- The request its header spells. -/
def spiReq (m : List Nat) : Req where
  port := 2
  addr := 0
  udp := 0
  dst := 0
  dport := 0
  magic := fld m 0 2
  gen := fld m 2 1
  flags := fld m 3 1
  session := fld m 4 4
  seq := fld m 8 4
  status := fld m 13 1
  len := fld m 14 2
  payload := m.drop 16

section
variable {l : List Nat} {x : List Int} {s : State}

/-- A field of the header stands two bytes later in what was clocked. -/
theorem fld_spiMessage {o n : Nat} (h : o + n ≤ fld l 0 2) : fld (spiMessage l) o n = fld l (o + 2) n := by
  rw [fld, fld, spiMessage, List.drop_take, List.take_take, List.drop_drop, Nat.min_eq_left (by omega), Nat.add_comm 2 o]

/-- The request in what was clocked. -/
theorem spiReq_spiMessage (h : 16 ≤ fld l 0 2) : spiReq (spiMessage l) =
    ⟨2, 0, 0, 0, 0, fld l 2 2, fld l 4 1, fld l 5 1, fld l 6 4, fld l 10 4, fld l 15 1, fld l 16 2, (spiMessage l).drop 16⟩ := by
  simp only [spiReq]
  rw [fld_spiMessage (by omega), fld_spiMessage (by omega), fld_spiMessage (by omega), fld_spiMessage (by omega), fld_spiMessage (by omega),
    fld_spiMessage (by omega), fld_spiMessage (by omega)]

/-- A message with a wrong framing. -/
theorem spiWriteMsg_short (h : spiShort l) :
    exec (.spiWriteMsg l x) s = .next (((spiZeros s 0 s.freeCtr).spiError 4).raise 0x800A 0x1140 0 1) := if_pos h

/-- One with a wrong CRC. -/
theorem spiWriteMsg_crc (h : ¬ spiShort l) (hcrc : crc16 (l.take (fld l 0 2 + 2)) ≠ fld l (fld l 0 2 + 2) 2) :
    exec (.spiWriteMsg l x) s = .next (((spiZeros s 0 s.freeCtr).spiError 2).raise 0x800A 0x1140 1 0) := (if_neg h).trans (if_pos hcrc)

/-- One that finds no management pair. -/
theorem spiWriteMsg_overrun (h : ¬ spiShort l) (hcrc : crc16 (l.take (fld l 0 2 + 2)) = fld l (fld l 0 2 + 2) 2) (hon : s.rd H.mgmtOn ≠ 1) :
    exec (.spiWriteMsg l x) s = .next ((spiZeros s 0 s.freeCtr).spiError 3) := by
  have hoff : (!({ s with spiOut := [] } : State).mgmtOn) = true := by
    show (!(s.rd H.mgmtOn == 1)) = true
    simpa using hon
  exact (if_neg h).trans ((if_neg (not_not.2 hcrc)).trans (if_pos hoff))

/-- A good one arrives. -/
theorem spiWriteMsg_arrives (h : ¬ spiShort l) (hcrc : crc16 (l.take (fld l 0 2 + 2)) = fld l (fld l 0 2 + 2) 2) (hon : s.rd H.mgmtOn = 1) :
    exec (.spiWriteMsg l x) s = recv (fld (spiMessage l) 12 1) (spiReq (spiMessage l)) x { s with spiOut := [] } := by
  have hoff : ¬ (!({ s with spiOut := [] } : State).mgmtOn) = true := by
    show ¬ (!(s.rd H.mgmtOn == 1)) = true
    simp [hon]
  exact (if_neg h).trans ((if_neg (not_not.2 hcrc)).trans (if_neg hoff))

/-- A PING takes nothing from the surroundings. -/
theorem recv_ping (q : Req) (x y : List Int) (s : State) : recv 3 q x s = recv 3 q y s := by
  have hping (t : State) (i : Nat) (z : List Int) : t.perform i 3 q z = t.opPing i := (if_neg (by decide)).trans (if_pos rfl)
  simp only [recv, State.arrive, State.request, State.runNew, hping]

end

/-! ## READ_MSG (R88) -/

/-- A message as the SPI target returns it: LEN, the message and their CRC. -/
def spiFrame (m : List Nat) : List Nat := bytesBE 2 m.length ++ m ++ bytesBE 2 (crc16 (bytesBE 2 m.length ++ m))

/-- As many bytes of the oldest message come back as are clocked, and the message goes with its last. -/
theorem spiReadMsg_eq (n : Nat) (s : State) : exec (.spiReadMsg n) s = .next { s with
    spiOut := (spiFrame (s.spiTx.headD [])).take n
    spiTx := if (spiFrame (s.spiTx.headD [])).length ≤ n then s.spiTx.drop 1 else s.spiTx } := by
  by_cases hout : (spiFrame (s.spiTx.headD [])).length ≤ n
  · rw [if_pos hout]
    exact congrArg Host.Outcome.next (if_pos hout)
  · rw [if_neg hout]
    exact congrArg Host.Outcome.next (if_neg hout)

/-- Settles O24: each transaction by what it finds. -/
theorem spiTransactions : Obligations.SpiTransactions := by
  intro l x n s len head out short fails
  refine ⟨?_, fun h => ?_, fun h hcrc => ?_, fun h hcrc hon => ?_, fun h hcrc hon hop => ?_, ?_, ?_⟩
  · refine ⟨_, rfl, ?_, State.rd_wr_self .., fun _ hk => State.rd_wr_ne _ _ (by simpa using hk), rfl, rfl,
      ⟨fun _ => rfl, fun _ => rfl, rfl, rfl, rfl, rfl⟩⟩
    show [(if (s.rd H.mgmtOn == 1) = true then 1 else 0) + (if s.spiTx = [] then 0 else 2) + s.rd H.spiErr] = _
    simp only [beq_iff_eq]
  · exact spiFails_raising (by decide) (by decide) (spiWriteMsg_short h)
  · exact spiFails_raising (by decide) (by decide) (spiWriteMsg_crc h hcrc)
  · exact spiFails_silent (spiWriteMsg_overrun h hcrc hon)
  · have hlen : 16 ≤ fld l 0 2 := by
      by_contra hlt
      exact h (.inr (.inl (by omega)))
    have hop3 : fld (spiMessage l) 12 1 = 3 := (fld_spiMessage (by omega)).trans hop
    rw [spiWriteMsg_arrives h hcrc hon, hop3, spiReq_spiMessage hlen]
    exact recv_ping ..
  · exact ⟨_, spiReadMsg_eq n s, rfl, rfl, fun _ _ => rfl, rfl, ⟨fun _ => rfl, fun _ => rfl, rfl, rfl, rfl, rfl⟩⟩
  · exact spiFails_raising (ctr := s.freeCtr + 1) (by decide) (by decide) rfl

end Sys2Proof
end

section
/-! EmptyQueueTicks, and the refutation of OpenLoopNco. -/
namespace Sys2Proof

open Machine

/-- Settles O2: without a command a step is a tick, and a tick is the identity while the part is held in reset. -/
theorem emptyQueueTicks : Obligations.EmptyQueueTicks := by
  intro s hq
  have hstep : step s = .next s.tick := by simp only [step, hq]
  exact ⟨fun h => by rw [hstep, State.tick, if_pos h], fun h => by rw [hstep, State.tick, if_neg h]⟩

/-! ## A sample of FORCE_K in OPEN_LOOP (R102, R105) -/

/-- Selector 0 in OPEN_LOOP still LOCKED, without an active candidate; its FORCE_K is candidate 53, QUALIFIED. -/
def openLoopLocked : State :=
  { State.reset with reg := [(K.REF_STATE 53, 2), (K.SEL_MODE 0, 4), (K.SEL_FORCE_K 0, 53), (K.SEL_STATE 0, 2)] }

/-- A sample 4,001 ns off, beyond four times LOCK_PHASE, moves the selector to ACQUIRING: a new stretch of the NCO's history begins. -/
theorem openLoopLocked_sampled : ∃ t, exec (.phaseMeasurement 0 4001) openLoopLocked = .next t ∧ t.nu.length = openLoopLocked.nu.length + 1 :=
  ⟨_, rfl, by decide⟩

/-- Refutes O28: its last clause leaves the history of the NCO as it is where ACTIVE is 255, but a LOCKED selector whose sample is off by
more than four times LOCK_PHASE returns to ACQUIRING, which the history records. -/
theorem not_openLoopNco : ¬ Obligations.OpenLoopNco := by
  intro h
  obtain ⟨-, -, hopen⟩ := h 0 openLoopLocked
  obtain ⟨l, -, -, -, hphase⟩ := hopen (by decide)
  obtain ⟨t, ht, -, hsame⟩ := hphase (by decide) (by decide) 4001
  obtain ⟨-, hnu⟩ := hsame (by decide)
  obtain ⟨u, hu, hlen⟩ := openLoopLocked_sampled
  obtain rfl : t = u := by simpa [ht] using hu
  rw [hnu] at hlen
  omega

end Sys2Proof
end

section
/-! SUPPORT. Which registers a state operation may change and which events it raises: exactly (`Touches`), or within bounds (`Confined`). -/
namespace Sys2Proof

open Machine

/-! ## Addresses -/

/-- Two addresses, each an index or a bank and an offset in it, that differ as numbers. -/
theorem keys_ne {x y a b c d : Nat} (hx : x = a + b) (hy : y = c + d) (h : a + b ≠ c + d) : x ≠ y := by
  subst hx hy
  exact h

/-- Addresses that differ are not equal; in this form it decides membership in a list. -/
theorem eq_false_of_keys_ne {x y : Nat} (h : x ≠ y) : (x = y) = False := eq_false h

/-! ## Exact changes -/

/-- From s to t only the registers of ks may differ, and exactly the events ev were raised. -/
structure Touches (ks : List Nat) (ev : List (Nat × Nat × Nat × Nat)) (s t : State) : Prop where
  regs : RegsKept ks s t
  events : raisedOf t = raisedOf s ++ ev

namespace Touches

variable {ks ks' : List Nat} {ev ev' : List (Nat × Nat × Nat × Nat)} {s t u : State}

theorem refl (ks : List Nat) (s : State) : Touches ks [] s s := ⟨fun _ _ => rfl, (List.append_nil _).symm⟩

theorem trans (h : Touches ks ev s t) (h' : Touches ks' ev' t u) : Touches (ks ++ ks') (ev ++ ev') s u where
  regs k hk := by
    rw [List.mem_append, not_or] at hk
    rw [h'.regs k hk.2, h.regs k hk.1]
  events := by rw [h'.events, h.events, List.append_assoc]

theorem mono (h : Touches ks ev s t) (hsub : ∀ k ∈ ks, k ∈ ks') : Touches ks' ev s t :=
  ⟨fun k hk => h.regs k (fun hmem => hk (hsub k hmem)), h.events⟩

theorem wr (s : State) (k v : Nat) : Touches [k] [] s (s.wr k v) :=
  ⟨fun _ hj => State.rd_wr_ne _ _ (by simpa using hj), (List.append_nil _).symm⟩

theorem wrs (s : State) (l : List (Nat × Nat)) : Touches (l.map Prod.fst) [] s (s.wrs l) where
  regs k hk := State.rd_wrs_ne _ _ (fun p hp heq => hk (List.mem_map.mpr ⟨p, hp, heq.symm⟩))
  events := by simp [raisedOf, wrs_raised]

theorem setBit (s : State) (k i : Nat) (b : Bool) : Touches [k] [] s (s.setBit k i b) := wr ..

theorem setVec (s : State) (k : Nat) (l : List Nat) : Touches [] [] s (s.setVec k l) := ⟨fun _ _ => rfl, (List.append_nil _).symm⟩

theorem raise (s : State) (code src a1 a2 : Nat) :
    Touches [] [(code, src, a1 % 2 ^ 32, a2 % 2 ^ 32)] s (s.raise code src a1 a2) :=
  ⟨fun _ _ => rfl, raisedOf_raise ..⟩

end Touches

/-- The stores stand after a command that leaves them alone. -/
theorem storesKept_of_exec {c : Instr} {s t : State} (h : exec c s = .next t) (hc : keepsStores c = true) : StoresKept s t :=
  (commandsKeepStores c s t h).1 hc

/-- A command whose registers and events are known changes these and the stores not at all. -/
theorem changes_of_touches {c : Instr} {s t : State} {w : List (Nat × Nat)} {others : List Nat} {ev : List (Nat × Nat × Nat × Nat)}
    (h : exec c s = .next t) (hc : keepsStores c = true) (hw : ∀ p ∈ w, t.rd p.1 = p.2)
    (ht : Touches (w.map Prod.fst ++ others) ev s t) : Changes c s w others ev :=
  ⟨t, h, hw, ht.regs, ht.events, storesKept_of_exec h hc⟩

/-- Writing registers differs in nothing but registers. -/
theorem onlyRegisters_wrs (s : State) (l : List (Nat × Nat)) : OnlyRegisters s (s.wrs l) :=
  State.wrs_keeps (P := OnlyRegisters s) (fun _ k v h => h.wr k v) l (onlyRegisters_refl s)

/-- A command that writes registers, each once, and raises nothing. -/
theorem does_of_wrs {c : Instr} {s : State} {l : List (Nat × Nat)} (h : exec c s = .next (s.wrs l)) (hl : (l.map Prod.fst).Nodup) :
    Does c s l [] :=
  ⟨_, h, fun _ hp => rd_wrs_of_mem hl hp s, (Touches.wrs s l).regs, (Touches.wrs s l).events, onlyRegisters_wrs s l⟩

/-- A command that writes registers, each once, and raises one event. -/
theorem does_of_wrs_raise {c : Instr} {s : State} {l : List (Nat × Nat)} {code src a1 a2 b1 b2 : Nat}
    (h : exec c s = .next ((s.wrs l).raise code src a1 a2)) (hl : (l.map Prod.fst).Nodup) (h1 : a1 % 2 ^ 32 = b1) (h2 : a2 % 2 ^ 32 = b2) :
    Does c s l [(code, src, b1, b2)] := by
  subst h1 h2
  exact ⟨_, h, fun p hp => (State.rd_raise ..).trans (rd_wrs_of_mem hl hp s), (Touches.wrs s l).regs,
    by rw [raisedOf_raise, (Touches.wrs s l).events, List.append_nil], (onlyRegisters_wrs s l).raise ..⟩

/-! ## Changes within bounds -/

/-- From s to t only registers of K may differ, and only events whose codes are in C were raised. -/
structure Confined (K C : Nat → Prop) (s t : State) : Prop where
  rd : ∀ k, ¬ K k → t.rd k = s.rd k
  events : ∃ l, raisedOf t = raisedOf s ++ l ∧ ∀ e ∈ l, C e.1

namespace Confined

variable {K K' C C' : Nat → Prop} {s t u : State}

theorem refl (s : State) : Confined K C s s := ⟨fun _ _ => rfl, [], (List.append_nil _).symm, by simp⟩

theorem trans (h : Confined K C s t) (h' : Confined K C t u) : Confined K C s u where
  rd k hk := (h'.rd k hk).trans (h.rd k hk)
  events := by
    obtain ⟨l, hl, hc⟩ := h.events
    obtain ⟨l', hl', hc'⟩ := h'.events
    refine ⟨l ++ l', by rw [hl', hl, List.append_assoc], fun e he => ?_⟩
    exact (List.mem_append.mp he).elim (hc e) (hc' e)

theorem mono (h : Confined K C s t) (hK : ∀ k, K k → K' k) (hC : ∀ c, C c → C' c) : Confined K' C' s t where
  rd k hk := h.rd k (fun hmem => hk (hK k hmem))
  events := by
    obtain ⟨l, hl, hc⟩ := h.events
    exact ⟨l, hl, fun e he => hC _ (hc e he)⟩

theorem of_touches {ks : List Nat} {ev : List (Nat × Nat × Nat × Nat)} (h : Touches ks ev s t) (hK : ∀ k ∈ ks, K k) (hC : ∀ e ∈ ev, C e.1) :
    Confined K C s t :=
  ⟨fun k hk => h.regs k (fun hmem => hk (hK k hmem)), ev, h.events, hC⟩

theorem wr (h : Confined K C s t) {k : Nat} (v : Nat) (hk : K k) : Confined K C s (t.wr k v) :=
  h.trans (of_touches (.wr t k v) (by simpa using hk) (by simp))

theorem setVec (h : Confined K C s t) (k : Nat) (l : List Nat) : Confined K C s (t.setVec k l) :=
  h.trans (of_touches (.setVec t k l) (by simp) (by simp))

theorem raise (h : Confined K C s t) {code : Nat} (src a1 a2 : Nat) (hc : C code) : Confined K C s (t.raise code src a1 a2) :=
  h.trans (of_touches (.raise t code src a1 a2) (by simp) (by simpa using hc))

/-- What each step of a loop keeps within bounds the loop does. -/
theorem upto (h : Confined K C s t) (n : Nat) {f : Nat → State → State} (hf : ∀ i < n, ∀ t, Confined K C t (f i t)) :
    Confined K C s (t.upto n f) := by
  induction n with
  | zero => exact h
  | succ n ih =>
    rw [upto_succ]
    exact (ih (fun i hi => hf i (by omega))).trans (hf n (by omega) _)

/-- The events raised before are raised after. -/
theorem mem_raisedOf (h : Confined K C s t) {e : Nat × Nat × Nat × Nat} (he : e ∈ raisedOf s) : e ∈ raisedOf t := by
  obtain ⟨l, hl, -⟩ := h.events
  rw [hl]
  exact List.mem_append_left _ he

end Confined

/-! ## One place of a loop -/

/-- In a loop whose step i is the only one that changes or depends on some registers, these read as after step i alone. -/
theorem upto_rd_at {n i : Nat} (hi : i < n) {f : Nat → State → State} {ks : List Nat}
    (hne : ∀ m < n, m ≠ i → ∀ t, ∀ k ∈ ks, (f m t).rd k = t.rd k) (s : State) :
    ∃ t, (∀ k ∈ ks, t.rd k = s.rd k) ∧ ∀ k ∈ ks, (s.upto n f).rd k = (f i t).rd k := by
  induction n with
  | zero => omega
  | succ n ih =>
    rw [upto_succ]
    by_cases hin : i = n
    · subst hin
      refine ⟨s.upto i f, ?_, fun _ _ => rfl⟩
      clear ih hi
      have hkeep : ∀ m ≤ i, ∀ k ∈ ks, (s.upto m f).rd k = s.rd k := by
        intro m
        induction m with
        | zero => exact fun _ _ _ => rfl
        | succ m ih =>
          intro hm k hk
          rw [upto_succ, hne m (by omega) (by omega) _ k hk, ih (by omega) k hk]
      exact hkeep i le_rfl
    · obtain ⟨t, ht, hval⟩ := ih (by omega) (fun m hm => hne m (by omega))
      exact ⟨t, ht, fun k hk => (hne n (by omega) (fun h => hin h.symm) _ k hk).trans (hval k hk)⟩

end Sys2Proof
end

section
/-! SUPPORT. Candidates and their limits (R92 to R97): what moving, losing, finding and measuring one changes. -/
namespace Sys2Proof

open Machine

/-! ## Bits of a register -/

/-- Taking a bit that is set out of a number leaves the others. -/
theorem testBit_sub_two_pow {v i : Nat} (h : v.testBit i = true) (j : Nat) : (v - 2 ^ i).testBit j = (v.testBit j && i != j) := by
  have hpos : 0 < 2 ^ i := Nat.two_pow_pos i
  have hodd : v / 2 ^ i % 2 = 1 := by simpa [Nat.testBit_eq_decide_div_mod_eq] using h
  have hlow : v % 2 ^ i < 2 ^ i := Nat.mod_lt _ hpos
  obtain ⟨c, hc⟩ : ∃ c, v / 2 ^ i = 2 * c + 1 := ⟨v / 2 ^ i / 2, by omega⟩
  have hv : v = 2 ^ i * (2 * c + 1) + v % 2 ^ i := by rw [← hc, Nat.div_add_mod]
  have hw : v - 2 ^ i = 2 ^ i * (2 * c) + v % 2 ^ i := by
    rw [Nat.mul_add, Nat.mul_one] at hv
    omega
  rw [hw]
  conv_rhs => rw [hv]
  rw [Nat.testBit_two_pow_mul_add _ hlow, Nat.testBit_two_pow_mul_add _ hlow]
  by_cases hj : j < i
  · simp [hj, Nat.ne_of_gt hj]
  · obtain ⟨m, rfl⟩ := Nat.exists_eq_add_of_le (Nat.le_of_not_lt hj)
    cases m with
    | zero => simp
    | succ m =>
      simp [Nat.testBit_succ, show (2 * c + 1) / 2 = c by omega]

theorem bit_setBit_self (s : State) (k i : Nat) (b : Bool) : (s.setBit k i b).bit k i = b := by
  simp only [State.setBit, State.up, State.bit, State.rd_wr_self]
  cases b with
  | true => simp
  | false =>
    rw [if_neg (by simp)]
    split
    · next h => simp [testBit_sub_two_pow h]
    · next h => simpa using h

theorem bit_setBit_ne (s : State) (k : Nat) {i j : Nat} (b : Bool) (h : i ≠ j) : (s.setBit k i b).bit k j = s.bit k j := by
  simp only [State.setBit, State.up, State.bit, State.rd_wr_self]
  split
  · simp [Nat.testBit_two_pow_of_ne h]
  · split
    · next hi => simp [testBit_sub_two_pow hi, h]
    · rfl

theorem bit_congr {s t : State} {k : Nat} (i : Nat) (h : t.rd k = s.rd k) : t.bit k i = s.bit k i := by rw [State.bit, State.bit, h]

section
variable {s : State} {k : Nat}

/-! ## Moves (R96) -/

/-- The registers a move writes: when the candidate left QUALIFIED, that it has been so, its STATE. -/
def moved (s : State) (k new : Nat) : List (Nat × Nat) :=
  (if s.rd (K.REF_STATE k) = 2 then [(H.refLeft k, s.now)] else []) ++ (if new = 2 then [(H.refQual k, 1)] else []) ++ [(K.REF_STATE k, new)]

theorem refMove_same {new : Nat} (h : s.rd (K.REF_STATE k) = new) : s.refMove k new = s := if_pos h

theorem refMove_eq {new : Nat} (h : s.rd (K.REF_STATE k) ≠ new) :
    s.refMove k new = (s.wrs (moved s k new)).raise 0x1001 (refIdx k) k (s.rd (K.REF_STATE k) * 256 + new) := by
  simp only [State.refMove, if_neg h, moved]
  split <;> split <;> rfl

theorem refMove_touches {new : Nat} (hk : k < 54) (h : s.rd (K.REF_STATE k) ≠ new) :
    Touches ((moved s k new).map Prod.fst) [(0x1001, refIdx k, k, (s.rd (K.REF_STATE k) * 256 + new) % 2 ^ 32)] s (s.refMove k new) := by
  rw [refMove_eq h]
  have ht := (Touches.wrs s (moved s k new)).trans (.raise _ 0x1001 (refIdx k) k (s.rd (K.REF_STATE k) * 256 + new))
  rwa [List.append_nil, List.nil_append, Nat.mod_eq_of_lt (show k < 2 ^ 32 by omega)] at ht

theorem refMove_state (new : Nat) : (s.refMove k new).rd (K.REF_STATE k) = new := by
  by_cases h : s.rd (K.REF_STATE k) = new
  · rwa [refMove_same h]
  · simp [State.refMove, if_neg h]

/-- A move leaves what is neither the STATE nor a note of it. -/
theorem refMove_rd {new j : Nat} (h0 : j ≠ K.REF_STATE k) (h1 : j ≠ H.refLeft k) (h2 : j ≠ H.refQual k) :
    (s.refMove k new).rd j = s.rd j := by
  by_cases h : s.rd (K.REF_STATE k) = new
  · rw [refMove_same h]
  · rw [refMove_eq h, State.rd_raise, State.rd_wrs_ne]
    intro p hp
    simp only [moved, List.mem_append, List.mem_singleton] at hp
    obtain (hp | hp) | rfl := hp
    · split at hp
      · obtain rfl := List.mem_singleton.mp hp
        exact h1
      · simp at hp
    · split at hp
      · obtain rfl := List.mem_singleton.mp hp
        exact h2
      · simp at hp
    · exact h0

/-- The registers of candidate k that its limits and timers may change. -/
def candKeys (k j : Nat) : Prop :=
  j ∈ [K.REF_STATE k, H.refLeft k, H.refQual k, H.refTimer k, K.REF_OFFSET k, K.REF_DRIFT k]

/-- The events that its limits and timers may raise. -/
def candCodes (c : Nat) : Prop := c = 0x1001 ∨ c = 0x1003 ∨ c = 0x1004

theorem refMove_confined (hk : k < 54) (new : Nat) : Confined (candKeys k) candCodes s (s.refMove k new) := by
  by_cases h : s.rd (K.REF_STATE k) = new
  · rw [refMove_same h]
    exact .refl s
  · refine .of_touches (refMove_touches hk h) (fun j hj => ?_) (by simp [candCodes])
    by_contra hne
    simp only [candKeys, List.mem_cons, not_or] at hne
    simp only [moved, List.map_append, List.mem_append] at hj
    obtain (hj | hj) | hj := hj
    · split at hj <;> simp_all
    · split at hj <;> simp_all
    · simp_all

/-! ## Limits and measurements (R94, R96) -/

theorem wtrStart_confined (hk : k < 54) : Confined (candKeys k) candCodes s (s.wtrStart k) :=
  ((refMove_confined hk 3).wr _ (by simp [candKeys])).raise _ _ _ (by simp [candCodes])

theorem limitCheck_confined (hk : k < 54) : Confined (candKeys k) candCodes s (s.limitCheck k) := by
  simp only [State.limitCheck]
  split
  · exact .refl s
  · split
    · split
      · exact wtrStart_confined hk
      · exact .refl s
    · split
      · exact .refl s
      · exact (refMove_confined hk 4).raise _ _ _ (by simp [candCodes])

/-- A present candidate that is beyond its HARD limit is DISQUALIFIED. -/
theorem limitCheck_disqualified (hst : s.rd (K.REF_STATE k) ≠ 0) (hout : s.rd (K.REF_HARD k) < (s.rdI 32 (K.REF_OFFSET k)).natAbs) :
    (s.limitCheck k).rd (K.REF_STATE k) = 4 := by
  have hwithin : s.within k = false := by simp [State.within, Nat.not_le.mpr hout]
  simp only [State.limitCheck, if_neg hst, hwithin, Bool.false_eq_true, if_false]
  split
  · assumption
  · rw [State.rd_raise, refMove_state]

/-- The limits leave OFFSET. -/
theorem limitCheck_offset (hk : k < 54) : (s.limitCheck k).rd (K.REF_OFFSET k) = s.rd (K.REF_OFFSET k) := by
  have hmove (new : Nat) : (s.refMove k new).rd (K.REF_OFFSET k) = s.rd (K.REF_OFFSET k) :=
    refMove_rd (keys_ne rfl rfl (by omega)) (keys_ne rfl rfl (by omega)) (keys_ne rfl rfl (by omega))
  have htimer : K.REF_OFFSET k ≠ H.refTimer k := keys_ne rfl rfl (by omega)
  simp only [State.limitCheck, State.wtrStart]
  split
  · rfl
  · split
    · split
      · rw [State.rd_raise, State.rd_wr_ne _ _ htimer, hmove]
      · rfl
    · split
      · rfl
      · rw [State.rd_raise, hmove]

/-- What a measurement enters before the limits are checked. -/
def entered (s : State) (k : Nat) (off : Int) : State :=
  let h := (ofInt 32 off :: s.vec (H.refHist k)).take 10
  let s := (s.wrI 32 (K.REF_OFFSET k) off).setVec (H.refHist k) h
  if h.length = 10 then s.wrI 32 (K.REF_DRIFT k) (slope10 (h.map (toInt 32))) else s.wr (K.REF_DRIFT k) 0

theorem measure_absent {off : Int} (h : s.rd (K.REF_STATE k) = 0) : s.measure k off = s := if_pos h

theorem measure_present {off : Int} (h : s.rd (K.REF_STATE k) ≠ 0) : s.measure k off = (entered s k off).limitCheck k := if_neg h

theorem entered_touches (off : Int) : Touches [K.REF_OFFSET k, K.REF_DRIFT k] [] s (entered s k off) := by
  have h := (Touches.wr s (K.REF_OFFSET k) (ofInt 32 off)).trans (.setVec _ (H.refHist k) ((ofInt 32 off :: s.vec (H.refHist k)).take 10))
  simp only [entered]
  split
  · exact h.trans (.wr ..)
  · exact h.trans (.wr ..)

theorem entered_offset (off : Int) : (entered s k off).rd (K.REF_OFFSET k) = ofInt 32 off := by
  have hne : K.REF_OFFSET k ≠ K.REF_DRIFT k := keys_ne rfl rfl (by omega)
  simp only [entered, State.wrI]
  split <;> rw [State.rd_wr_ne _ _ hne, State.rd_setVec, State.rd_wr_self]

theorem measure_confined (hk : k < 54) (off : Int) : Confined (candKeys k) candCodes s (s.measure k off) := by
  by_cases h : s.rd (K.REF_STATE k) = 0
  · rw [measure_absent h]
    exact .refl s
  · rw [measure_present h]
    exact (Confined.of_touches (entered_touches off) (by simp [candKeys]) (by simp)).trans (limitCheck_confined hk)

/-- A measurement of a present candidate is its OFFSET. -/
theorem measure_offset {off : Int} (hk : k < 54) (h : s.rd (K.REF_STATE k) ≠ 0) : (s.measure k off).rd (K.REF_OFFSET k) = ofInt 32 off := by
  rw [measure_present h, limitCheck_offset hk, entered_offset]

/-- A 32-bit two's complement number reads back. -/
theorem toInt_ofInt_32 {o : Int} (h : -2147483648 ≤ o) (h' : o ≤ 2147483647) : toInt 32 (ofInt 32 o) = o := by
  have hpow : ((2 ^ 32 : Nat) : Int) = 4294967296 := rfl
  rw [toInt, ofInt, hpow]
  split_ifs <;> omega

/-- A measurement beyond HARD takes a present candidate out of its limits. -/
theorem measure_disqualified {off : Int} (h : s.rd (K.REF_STATE k) ≠ 0) (h1 : -2147483648 ≤ off)
    (h2 : off ≤ 2147483647) (hout : s.rd (K.REF_HARD k) < off.natAbs) : (s.measure k off).rd (K.REF_STATE k) = 4 := by
  have hkeep {j : Nat} (hj : j ∉ [K.REF_OFFSET k, K.REF_DRIFT k]) : (entered s k off).rd j = s.rd j := (entered_touches off).regs j hj
  rw [measure_present h]
  refine limitCheck_disqualified ?_ ?_
  · rwa [hkeep (by simp (disch := exact keys_ne rfl rfl (by omega)) [eq_false_of_keys_ne])]
  · rwa [State.rdI, entered_offset, toInt_ofInt_32 h1 h2,
      hkeep (by simp (disch := exact keys_ne rfl rfl (by omega)) [eq_false_of_keys_ne])]

/-! ## The soft limit (R97) -/

/-- The OFFSET of the selector's active candidate exceeds SOFT. -/
def softPast (s : State) (j : Nat) : Bool :=
  s.rd (K.SEL_ACTIVE j) != 255 &&
    decide (s.rd (K.REF_SOFT (s.rd (K.SEL_ACTIVE j))) < (s.rdI 32 (K.REF_OFFSET (s.rd (K.SEL_ACTIVE j)))).natAbs)

/-- The event of a soft limit that was not exceeded before. -/
def softEvents (s : State) (j : Nat) : List (Nat × Nat × Nat × Nat) :=
  if softPast s j && !s.bit (K.SEL_STATUS j) 1 then
    [(0x1002, refIdx (s.rd (K.SEL_ACTIVE j)), s.rd (K.SEL_ACTIVE j) % 2 ^ 32, s.rd (K.REF_OFFSET (s.rd (K.SEL_ACTIVE j))) % 2 ^ 32)]
  else []

theorem softCheck_past {j : Nat} (h : softPast s j = true) : s.softCheck j = if s.bit (K.SEL_STATUS j) 1 then s else
    (s.setBit (K.SEL_STATUS j) 1 true).raise 0x1002 (refIdx (s.rd (K.SEL_ACTIVE j))) (s.rd (K.SEL_ACTIVE j))
      (s.rd (K.REF_OFFSET (s.rd (K.SEL_ACTIVE j)))) := by
  simp only [softPast, Bool.and_eq_true, bne_iff_ne, decide_eq_true_eq] at h
  simp only [State.softCheck, if_neg h.1, if_pos h.2]

theorem softCheck_within {j : Nat} (h : softPast s j = false) : s.softCheck j = s.setBit (K.SEL_STATUS j) 1 false := by
  simp only [softPast, Bool.and_eq_false_iff, bne_eq_false_iff_eq, decide_eq_false_iff_not] at h
  simp only [State.softCheck]
  split
  · rfl
  · next hact => rw [if_neg (h.resolve_left hact)]

/-- STATUS bit 1 says whether the soft limit is exceeded. -/
theorem softCheck_bit (j : Nat) : (s.softCheck j).bit (K.SEL_STATUS j) 1 = softPast s j := by
  cases h : softPast s j with
  | false => rw [softCheck_within h, bit_setBit_self]
  | true =>
    rw [softCheck_past h]
    split
    · assumption
    · exact bit_setBit_self ..

theorem softCheck_touches (j : Nat) : Touches [K.SEL_STATUS j] (softEvents s j) s (s.softCheck j) := by
  cases h : softPast s j with
  | false =>
    rw [softCheck_within h, softEvents, h]
    exact .setBit ..
  | true =>
    rw [softCheck_past h, softEvents, h]
    cases s.bit (K.SEL_STATUS j) 1 with
    | true => exact .refl ..
    | false => exact (Touches.setBit s (K.SEL_STATUS j) 1 true).trans (.raise ..)

theorem softCheck_rd {j i : Nat} (h : i ≠ K.SEL_STATUS j) : (s.softCheck j).rd i = s.rd i :=
  (softCheck_touches j).regs i (by simpa using h)

/-- The check touches no bit of STATUS but bit 1. -/
theorem softCheck_bit_ne (j : Nat) {b : Nat} (h : 1 ≠ b) : (s.softCheck j).bit (K.SEL_STATUS j) b = s.bit (K.SEL_STATUS j) b := by
  cases hp : softPast s j with
  | false => rw [softCheck_within hp, bit_setBit_ne _ _ _ h]
  | true =>
    rw [softCheck_past hp]
    split
    · rfl
    · exact bit_setBit_ne _ _ _ h

/-- Whether the limit is exceeded depends on the candidate's SOFT and OFFSET. -/
theorem softPast_congr {t : State} {j : Nat} (ha : t.rd (K.SEL_ACTIVE j) = s.rd (K.SEL_ACTIVE j))
    (h : s.rd (K.SEL_ACTIVE j) ≠ 255 → t.rd (K.REF_SOFT (s.rd (K.SEL_ACTIVE j))) = s.rd (K.REF_SOFT (s.rd (K.SEL_ACTIVE j))) ∧
      t.rd (K.REF_OFFSET (s.rd (K.SEL_ACTIVE j))) = s.rd (K.REF_OFFSET (s.rd (K.SEL_ACTIVE j)))) : softPast t j = softPast s j := by
  rw [Bool.eq_iff_iff]
  simp only [softPast, ha, Bool.and_eq_true, bne_iff_ne, decide_eq_true_eq]
  refine and_congr_right (fun hn => ?_)
  obtain ⟨hsoft, hoff⟩ := h hn
  rw [hsoft, State.rdI, State.rdI, hoff]

/-! ## Loss of signal (R92, R94) -/

/-- What a candidate reports, as it stands while ABSENT. -/
def lostRegs (k : Nat) : List (Nat × Nat) :=
  [(K.REF_NOM_NUM k, 0), (K.REF_NOM_DEN k, 1), (K.REF_OFFSET k, 0), (K.REF_DRIFT k, 0), (H.refLoss k, 0)] ++
    ((if refType k = 1 then [(K.REF_SYNC_FORMAT k, 0), (K.REF_SYNC_LINES k, 0)] else []) ++ (if refType k = 3 then [(K.REF_FREQ k, 0)] else []))

/-- A candidate lost, before the selectors on it look at their soft limit. -/
def cleared (s : State) (k : Nat) : State := ((s.refMove k 0).wrs (lostRegs k)).setVec (H.refHist k) []

/-- Selector j looks at its soft limit when it is on candidate k. -/
def softIf (k j : Nat) (t : State) : State := if t.rd (K.SEL_ACTIVE j) = k then t.softCheck j else t

theorem upto_two (s : State) (f : Nat → State → State) : s.upto 2 f = f 1 (f 0 s) := rfl

theorem refLose_absent (h : s.rd (K.REF_STATE k) = 0) : s.refLose k = s := if_pos h

theorem refLose_present (h : s.rd (K.REF_STATE k) ≠ 0) : s.refLose k = softIf k 1 (softIf k 0 (cleared s k)) := by
  have hsync (u : State) : u.wrs (if refType k = 1 then [(K.REF_SYNC_FORMAT k, 0), (K.REF_SYNC_LINES k, 0)] else []) =
      if refType k = 1 then u.wrs [(K.REF_SYNC_FORMAT k, 0), (K.REF_SYNC_LINES k, 0)] else u := by split <;> rfl
  have hfreq (u : State) : u.wrs (if refType k = 3 then [(K.REF_FREQ k, 0)] else []) =
      if refType k = 3 then u.wr (K.REF_FREQ k) 0 else u := by split <;> rfl
  simp only [State.refLose, if_neg h, cleared, lostRegs, ← wrs_wrs, hsync, hfreq, upto_two, softIf]

/-- The registers a loss of candidate k writes, without its STATE. -/
def lossKeys (k : Nat) : List Nat :=
  [K.REF_NOM_NUM k, K.REF_NOM_DEN k, K.REF_OFFSET k, K.REF_DRIFT k, H.refLoss k, H.refLeft k, K.REF_SYNC_FORMAT k, K.REF_SYNC_LINES k, K.REF_FREQ k]

theorem lostRegs_keys {j : Nat} (h : j ∉ lossKeys k) : ∀ p ∈ lostRegs k, j ≠ p.1 := by
  rintro p hp rfl
  apply h
  simp only [lostRegs, List.mem_append, List.mem_cons, List.not_mem_nil, or_false] at hp
  obtain (rfl | rfl | rfl | rfl | rfl) | hp | hp := hp
  all_goals try simp [lossKeys]
  · split at hp
    · obtain rfl | rfl := by simpa using hp
      all_goals simp
    · simp at hp
  · split at hp
    · obtain rfl := by simpa using hp
      simp
    · simp at hp

theorem cleared_state : (cleared s k).rd (K.REF_STATE k) = 0 := by
  rw [cleared, State.rd_setVec, State.rd_wrs_ne, refMove_state]
  apply lostRegs_keys
  simp (disch := exact keys_ne rfl rfl (by omega)) [lossKeys, eq_false_of_keys_ne]

/-- The addresses of what a candidate reports differ. -/
theorem lostRegs_nodup : ((lostRegs k).map Prod.fst).Nodup := by
  simp only [lostRegs, List.map_append, List.map_cons, List.map_nil]
  split <;> split <;> simp (disch := exact keys_ne rfl rfl (by omega)) [eq_false_of_keys_ne]

theorem cleared_reports {p : Nat × Nat} (hp : p ∈ lostRegs k) : (cleared s k).rd p.1 = p.2 := by
  rw [cleared, State.rd_setVec]
  exact rd_wrs_of_mem lostRegs_nodup hp _

theorem cleared_touches (hk : k < 54) (h : s.rd (K.REF_STATE k) ≠ 0) :
    Touches (K.REF_STATE k :: lossKeys k) [(0x1001, refIdx k, k, s.rd (K.REF_STATE k) * 256 % 2 ^ 32)] s (cleared s k) := by
  have ht := ((refMove_touches hk h).trans (.wrs _ (lostRegs k))).trans (.setVec _ (H.refHist k) [])
  refine ⟨fun j hj => ?_, by simpa [cleared] using ht.events⟩
  simp only [List.mem_cons, not_or] at hj
  refine ht.regs j (fun hmem => ?_)
  simp only [List.append_nil, List.mem_append, List.mem_map] at hmem
  obtain ⟨p, hp, rfl⟩ | ⟨p, hp, rfl⟩ := hmem
  · simp only [moved, List.mem_append, List.mem_singleton] at hp
    obtain (hp | hp) | rfl := hp
    · split at hp <;> simp_all [lossKeys]
    · simp at hp
    · exact hj.1 rfl
  · exact lostRegs_keys hj.2 p hp rfl

theorem softIf_touches {j : Nat} {t : State} (h : t.rd (K.REF_OFFSET k) = 0) : Touches [K.SEL_STATUS j] [] t (softIf k j t) := by
  simp only [softIf]
  split
  · next ha =>
    have hpast : softPast t j = false := by simp [softPast, ha, State.rdI, h, toInt]
    have ht := softCheck_touches (s := t) j
    rwa [softEvents, hpast] at ht
  · exact .refl ..

/-- What a loss of signal changes. -/
theorem refLose_touches (hk : k < 54) (h : s.rd (K.REF_STATE k) ≠ 0) :
    Touches (K.REF_STATE k :: lossKeys k ++ [K.SEL_STATUS 0, K.SEL_STATUS 1]) [(0x1001, refIdx k, k, s.rd (K.REF_STATE k) * 256 % 2 ^ 32)] s
      (s.refLose k) := by
  rw [refLose_present h]
  have hoff : (cleared s k).rd (K.REF_OFFSET k) = 0 := cleared_reports (p := (K.REF_OFFSET k, 0)) (by simp [lostRegs])
  have h0 : Touches [K.SEL_STATUS 0] [] (cleared s k) (softIf k 0 (cleared s k)) := softIf_touches hoff
  have hne : K.REF_OFFSET k ≠ K.SEL_STATUS 0 := keys_ne rfl rfl (by omega)
  have h1 : Touches [K.SEL_STATUS 1] [] _ (softIf k 1 (softIf k 0 (cleared s k))) := softIf_touches ((h0.regs _ (by simpa using hne)).trans hoff)
  have ht := ((cleared_touches hk h).trans h0).trans h1
  rwa [List.append_nil, List.append_nil, List.append_assoc] at ht

/-- A loss of signal leaves what selectors do not show as the candidate's loss left it. -/
theorem refLose_rd_of_cleared (h : s.rd (K.REF_STATE k) ≠ 0) {j : Nat} (h0 : j ≠ K.SEL_STATUS 0) (h1 : j ≠ K.SEL_STATUS 1) :
    (s.refLose k).rd j = (cleared s k).rd j := by
  rw [refLose_present h, softIf, softIf]
  split <;> split <;> simp only [softCheck_rd h0, softCheck_rd h1]

theorem refLose_state : (s.refLose k).rd (K.REF_STATE k) = 0 := by
  by_cases h : s.rd (K.REF_STATE k) = 0
  · rwa [refLose_absent h]
  · have hne (j : Nat) : K.REF_STATE k ≠ K.SEL_STATUS j := keys_ne rfl rfl (by omega)
    rw [refLose_rd_of_cleared h (hne 0) (hne 1), cleared_state]

/-- A loss of signal leaves what is neither the candidate's nor a STATUS. -/
theorem refLose_rd {j : Nat} (hk : k < 54) (hj : j ∉ K.REF_STATE k :: lossKeys k ++ [K.SEL_STATUS 0, K.SEL_STATUS 1]) :
    (s.refLose k).rd j = s.rd j := by
  by_cases h : s.rd (K.REF_STATE k) = 0
  · rw [refLose_absent h]
  · exact (refLose_touches hk h).regs j hj

/-- What a lost candidate reports. -/
theorem refLose_reports (hk : k < 54) (h : s.rd (K.REF_STATE k) ≠ 0) {p : Nat × Nat} (hp : p ∈ lostRegs k) : (s.refLose k).rd p.1 = p.2 := by
  have hne (j : Fin 2) : p.1 ≠ K.SEL_STATUS j := by
    intro heq
    refine lostRegs_keys (j := K.SEL_STATUS j) ?_ p hp heq.symm
    simp (disch := exact keys_ne rfl rfl (by omega)) [lossKeys, eq_false_of_keys_ne]
  rw [refLose_rd_of_cleared h (hne 0) (hne 1), cleared_reports hp]

/-! ## Signal found (R92, R96) -/

/-- The STATE of a candidate that appears: QUALIFYING the first time, WTR after that. -/
def foundState (s : State) (k : Nat) : Nat := if s.rd (H.refQual k) = 0 then 1 else 3

/-- How long it waits, in seconds. -/
def foundWait (s : State) (k : Nat) : Nat :=
  if s.rd (H.refQual k) = 0 then s.rd (K.REF_QUAL_TIME k) else max (s.rd (K.REF_QUAL_TIME k)) (s.rd (K.REF_WTR k))

/-- The events of its appearance. -/
def foundEvents (s : State) (k : Nat) : List (Nat × Nat × Nat × Nat) :=
  if s.rd (H.refQual k) = 0 then [(0x1001, refIdx k, k, 1)]
  else [(0x1001, refIdx k, k, 3), (0x1004, refIdx k, k, max (s.rd (K.REF_QUAL_TIME k)) (s.rd (K.REF_WTR k)) % 2 ^ 32)]

/-- An absent candidate moves: nothing but its STATE changes. -/
theorem refMove_of_absent {new : Nat} (hk : k < 54) (h : s.rd (K.REF_STATE k) = 0) (h1 : new ≠ 0) (h2 : new ≠ 2) (h3 : new < 2 ^ 32) :
    Touches [K.REF_STATE k] [(0x1001, refIdx k, k, new)] s (s.refMove k new) := by
  have ht := refMove_touches (new := new) hk (by rw [h]; exact h1.symm)
  rw [h, Nat.zero_mul, Nat.zero_add, Nat.mod_eq_of_lt h3] at ht
  simpa [moved, h, h2] using ht

/-- Restarting the loss period. -/
theorem lossRestart_touches : Touches [H.refLoss k] [] s (s.lossRestart k) := .wr ..

/-- A candidate found, before its timer starts. -/
def renewedCand (s : State) (k : Nat) : State := (s.setVec (H.refHist k) []).lossRestart k

theorem renewedCand_rd {j : Nat} (h : j ≠ H.refLoss k) : (renewedCand s k).rd j = s.rd j := State.rd_wr_ne _ _ h

theorem refFound_eq : s.refFound k =
    let t := ((renewedCand s k).refMove k (foundState s k)).wr (H.refTimer k) (s.now + foundWait s k * 1000000)
    if s.rd (H.refQual k) = 0 then t else t.raise 0x1004 (refIdx k) k (foundWait s k) := by
  have hq : (renewedCand s k).rd (H.refQual k) = s.rd (H.refQual k) := renewedCand_rd (keys_ne rfl rfl (by omega))
  have htime : (renewedCand s k).rd (K.REF_QUAL_TIME k) = s.rd (K.REF_QUAL_TIME k) := renewedCand_rd (keys_ne rfl rfl (by omega))
  have hwtr : (renewedCand s k).rd (K.REF_WTR k) = s.rd (K.REF_WTR k) := renewedCand_rd (keys_ne rfl rfl (by omega))
  have hnow : (renewedCand s k).now = s.now := renewedCand_rd (j := H.now) (keys_ne rfl rfl (by omega))
  rw [renewedCand] at hq htime hwtr hnow
  simp only [State.refFound, State.wtrStart, foundState, foundWait, renewedCand, hq, htime, hwtr, hnow]
  split <;> rfl

section
variable (hk : k < 54) (h : s.rd (K.REF_STATE k) = 0)
include hk h

/-- What finding an absent candidate changes. -/
theorem refFound_touches : Touches [H.refLoss k, K.REF_STATE k, H.refTimer k] (foundEvents s k) s (s.refFound k) := by
  have hstate : (renewedCand s k).rd (K.REF_STATE k) = 0 := (renewedCand_rd (keys_ne rfl rfl (by omega))).trans h
  have hbase : Touches [H.refLoss k] [] s (renewedCand s k) := (Touches.setVec s (H.refHist k) []).trans lossRestart_touches
  have hfound : foundState s k = 1 ∨ foundState s k = 3 := by simp only [foundState]; split <;> simp
  have hmove := refMove_of_absent hk hstate (new := foundState s k) (by omega) (by omega) (by omega)
  have htimed := (hbase.trans hmove).trans (.wr _ (H.refTimer k) (s.now + foundWait s k * 1000000))
  rw [refFound_eq]
  by_cases hq : s.rd (H.refQual k) = 0
  · simpa [foundEvents, foundState, hq] using htimed
  · have ht := htimed.trans (.raise _ 0x1004 (refIdx k) k (foundWait s k))
    rw [Nat.mod_eq_of_lt (show k < 2 ^ 32 by omega)] at ht
    simpa [foundEvents, foundState, foundWait, hq] using ht

omit h in
/-- A candidate found waits. -/
theorem refFound_state : (s.refFound k).rd (K.REF_STATE k) = foundState s k ∧
    (s.refFound k).rd (H.refTimer k) = s.now + foundWait s k * 1000000 := by
  have hne : K.REF_STATE k ≠ H.refTimer k := keys_ne rfl rfl (by omega)
  rw [refFound_eq]
  split
  · rw [State.rd_wr_ne _ _ hne, refMove_state, State.rd_wr_self]
    exact ⟨rfl, rfl⟩
  · rw [State.rd_raise, State.rd_wr_ne _ _ hne, refMove_state, State.rd_raise, State.rd_wr_self]
    exact ⟨rfl, rfl⟩

end

end

end Sys2Proof
end

section
/-! CandidatesAppearAndGo: a candidate found, lost and timed, by its STATE; the measurements of a second, each by itself. -/
namespace Sys2Proof

open Machine

/-! ## A candidate found with what its signal says (R92, R93) -/

/-- The addresses of what a signal says. -/
def signalKeys (k : Nat) : List Nat := [K.REF_NOM_NUM k, K.REF_NOM_DEN k, K.REF_SYNC_FORMAT k, K.REF_SYNC_LINES k, K.REF_FREQ k]

section
variable {s : State} {k : Nat} {w : List (Nat × Nat)}

theorem signal_wrs_rd (hw : ∀ p ∈ w, p.1 ∈ signalKeys k) {j : Nat} (hj : j ∉ signalKeys k) : (s.wrs w).rd j = s.rd j :=
  State.rd_wrs_ne _ _ (fun p hp heq => hj (heq ▸ hw p hp))

/-- How a candidate appears does not depend on what its signal says. -/
theorem found_congr {t : State} (hq : t.rd (H.refQual k) = s.rd (H.refQual k)) (ht : t.rd (K.REF_QUAL_TIME k) = s.rd (K.REF_QUAL_TIME k))
    (hw : t.rd (K.REF_WTR k) = s.rd (K.REF_WTR k)) :
    foundState t k = foundState s k ∧ foundWait t k = foundWait s k ∧ foundEvents t k = foundEvents s k := by
  simp only [foundState, foundWait, foundEvents, hq, ht, hw, and_self]

/-- An absent candidate that is found with its signal. -/
structure Appears (w : List (Nat × Nat)) (k : Nat) (s t : State) : Prop where
  touches : Touches (w.map Prod.fst ++ [H.refLoss k, K.REF_STATE k, H.refTimer k]) (foundEvents s k) s t
  state : t.rd (K.REF_STATE k) = foundState s k
  timer : t.rd (H.refTimer k) = s.now + foundWait s k * 1000000
  signal : ∀ p ∈ w, t.rd p.1 = p.2

theorem refFound_appears (hk : k < 54) (h : s.rd (K.REF_STATE k) = 0) (hw : ∀ p ∈ w, p.1 ∈ signalKeys k) (hnd : (w.map Prod.fst).Nodup) :
    Appears w k s ((s.wrs w).refFound k) := by
  have hst : (s.wrs w).rd (K.REF_STATE k) = 0 :=
    (signal_wrs_rd hw (by simp (disch := exact keys_ne rfl rfl (by omega)) [signalKeys, eq_false_of_keys_ne])).trans h
  have hnow : (s.wrs w).now = s.now :=
    signal_wrs_rd (j := H.now) hw (by simp (disch := exact keys_ne rfl rfl (by omega)) [signalKeys, eq_false_of_keys_ne])
  obtain ⟨hstate, hwait, hev⟩ := found_congr (k := k) (s := s) (t := s.wrs w)
    (signal_wrs_rd hw (by simp (disch := exact keys_ne rfl rfl (by omega)) [signalKeys, eq_false_of_keys_ne]))
    (signal_wrs_rd hw (by simp (disch := exact keys_ne rfl rfl (by omega)) [signalKeys, eq_false_of_keys_ne]))
    (signal_wrs_rd hw (by simp (disch := exact keys_ne rfl rfl (by omega)) [signalKeys, eq_false_of_keys_ne]))
  have ht := (Touches.wrs s w).trans (refFound_touches hk hst)
  obtain ⟨hs, htm⟩ := refFound_state (s := s.wrs w) hk
  rw [hev, List.nil_append] at ht
  rw [hstate] at hs
  rw [hwait, hnow] at htm
  refine ⟨ht, hs, htm, fun p hp => ?_⟩
  have hkeep : p.1 ∉ [H.refLoss k, K.REF_STATE k, H.refTimer k] := by
    have hmem := hw p hp
    simp only [signalKeys, List.mem_cons, List.not_mem_nil, or_false] at hmem
    obtain h | h | h | h | h := hmem <;> rw [h] <;>
      simp (disch := exact keys_ne rfl rfl (by omega)) [eq_false_of_keys_ne]
  rw [(refFound_touches hk hst).regs _ hkeep, rd_wrs_of_mem hnd hp]

/-- A candidate that appears leaves what is neither its signal's nor its timer's. -/
theorem Appears.rd {t : State} (h : Appears w k s t) (hw : ∀ p ∈ w, p.1 ∈ signalKeys k) {j : Nat}
    (hj : j ∉ signalKeys k ++ [H.refLoss k, K.REF_STATE k, H.refTimer k]) : t.rd j = s.rd j := by
  refine h.touches.regs j (fun hmem => hj ?_)
  rw [List.mem_append, List.mem_map] at hmem
  obtain ⟨p, hp, rfl⟩ | hmem := hmem
  · exact List.mem_append_left _ (hw p hp)
  · exact List.mem_append_right _ hmem

end

/-! ## REF_SIGNAL_DETECTED -/

/-- What the signal of candidate n says of its format and rate. -/
def signalOf (s : State) (n code lines num den : Nat) : List (Nat × Nat) :=
  match refType n with
  | 1 => [(K.REF_NOM_NUM n, num), (K.REF_NOM_DEN n, den), (K.REF_SYNC_FORMAT n, code), (K.REF_SYNC_LINES n, lines)]
  | 2 => [(K.REF_NOM_NUM n, 2 ^ (-(toInt 8 (s.rd (K.REF_PTP_SYNC_LOG n)))).toNat), (K.REF_NOM_DEN n, 1)]
  | 3 => [(K.REF_NOM_NUM n, 1000000), (K.REF_NOM_DEN n, 1), (K.REF_FREQ n, code)]
  | 4 => [(K.REF_NOM_NUM n, 48000), (K.REF_NOM_DEN n, 1)]
  | _ => match fmt (s.rd (K.IN_STAT_FORMAT n)) with
    | some f => [(K.REF_NOM_NUM n, rateNum f.rate * f.lines), (K.REF_NOM_DEN n, rateDen f.rate)]
    | none => []

/-- The signal of candidate n is a known one. -/
def signalKnown (s : State) (n code num : Nat) : Prop :=
  refType n = 3 ∧ 1 ≤ code ∧ code ≤ 3 ∨ refType n = 4 ∨ refType n = 1 ∧ 1 ≤ code ∧ code ≤ 5 ∧ 0 < num ∨
    refType n = 2 ∧ s.rd (K.REF_PTP_PORT_STATE n) = 3 ∨
    refType n = 0 ∧ s.rd (K.IN_STAT_STATE n) = 4 ∧ 1 ≤ s.rd (K.IN_STAT_FORMAT n) ∧ s.rd (K.IN_STAT_FORMAT n) ≤ 35

theorem refType_cases (n : Nat) : refType n = 0 ∨ refType n = 1 ∨ refType n = 2 ∨ refType n = 3 ∨ refType n = 4 := by
  simp only [refType]
  split_ifs <;> simp

/-- The addresses a signal of each kind speaks of. -/
theorem signalOf_fst (s : State) (n code lines num den : Nat) :
    (signalOf s n code lines num den).map Prod.fst = [K.REF_NOM_NUM n, K.REF_NOM_DEN n, K.REF_SYNC_FORMAT n, K.REF_SYNC_LINES n] ∨
    (signalOf s n code lines num den).map Prod.fst = [K.REF_NOM_NUM n, K.REF_NOM_DEN n, K.REF_FREQ n] ∨
    (signalOf s n code lines num den).map Prod.fst = [K.REF_NOM_NUM n, K.REF_NOM_DEN n] ∨
    (signalOf s n code lines num den).map Prod.fst = [] := by
  simp only [signalOf]
  split
  · exact .inl rfl
  · exact .inr (.inr (.inl rfl))
  · exact .inr (.inl rfl)
  · exact .inr (.inr (.inl rfl))
  · split
    · exact .inr (.inr (.inl rfl))
    · exact .inr (.inr (.inr rfl))

theorem signalOf_keys (s : State) (n code lines num den : Nat) : ∀ p ∈ signalOf s n code lines num den, p.1 ∈ signalKeys n := by
  have hsub : (signalOf s n code lines num den).map Prod.fst ⊆ signalKeys n := by
    obtain h | h | h | h := signalOf_fst s n code lines num den <;> rw [h] <;> simp [signalKeys]
  exact fun p hp => hsub (List.mem_map_of_mem hp)

theorem signalOf_nodup (s : State) (n code lines num den : Nat) : ((signalOf s n code lines num den).map Prod.fst).Nodup := by
  obtain h | h | h | h := signalOf_fst s n code lines num den <;> rw [h] <;>
    simp (disch := exact keys_ne rfl rfl (by omega)) [eq_false_of_keys_ne]

section
variable {s : State} {k : Fin 54} {code lines num den : Nat}

theorem refSignalDetected_unknown (h : s.pdReady (refPd k.val) = false ∨ ¬ signalKnown s k.val code num) :
    Idles (.refSignalDetected k code lines num den) s := by
  refine if_pos ?_
  obtain h | h := h
  · simp [h]
  · right
    obtain ht | ht | ht | ht | ht := refType_cases k.val <;> simp only [signalKnown, ht] at h ⊢ <;> simp at h ⊢
    · omega
    · omega
    · exact h
    · omega

theorem refSignalDetected_known (hpd : s.pdReady (refPd k.val) = true) (h : signalKnown s k.val code num) :
    exec (.refSignalDetected k code lines num den) s =
      if s.rd (K.REF_STATE k.val) ≠ 0 ∧ (signalOf s k.val code lines num den).all (fun p => s.rd p.1 == p.2) then .next s
      else .next (((s.refLose k.val).wrs (signalOf s k.val code lines num den)).refFound k.val) := by
  show execRefSignalDetected k code lines num den s = _
  obtain ht | ht | ht | ht | ht := refType_cases k.val <;> simp only [execRefSignalDetected, signalOf, ht] <;>
    exact if_neg (by simp [signalKnown, ht] at h; simp [hpd, h])

/-- A present candidate found as it is stays. -/
theorem refSignalDetected_same (hpd : s.pdReady (refPd k.val) = true) (h : signalKnown s k.val code num) (hst : s.rd (K.REF_STATE k.val) ≠ 0)
    (hsame : ∀ p ∈ signalOf s k.val code lines num den, s.rd p.1 = p.2) : Idles (.refSignalDetected k code lines num den) s :=
  (refSignalDetected_known hpd h).trans (if_pos ⟨hst, by simpa using hsame⟩)

/-- An absent candidate is found. -/
theorem refSignalDetected_absent (hpd : s.pdReady (refPd k.val) = true) (h : signalKnown s k.val code num) (hst : s.rd (K.REF_STATE k.val) = 0) :
    Changes (.refSignalDetected k code lines num den) s
      ((K.REF_STATE k.val, foundState s k.val) :: (H.refTimer k.val, s.now + foundWait s k.val * 1000000) :: signalOf s k.val code lines num den)
      [H.refLoss k.val] (foundEvents s k.val) := by
  have hex := (refSignalDetected_known (lines := lines) (den := den) hpd h).trans (if_neg (fun hc => hc.1 hst))
  rw [refLose_absent hst] at hex
  have happ := refFound_appears k.isLt hst (signalOf_keys s k.val code lines num den) (signalOf_nodup ..)
  refine changes_of_touches hex rfl ?_ (happ.touches.mono (fun j => ?_))
  · intro p hp
    simp only [List.mem_cons] at hp
    obtain rfl | rfl | hp := hp
    · exact happ.state
    · exact happ.timer
    · exact happ.signal p hp
  · simp only [List.map_cons, List.cons_append, List.mem_cons, List.mem_append, List.not_mem_nil, or_false]
    rintro (h | h | h | h) <;> simp [h]

/-- A present candidate found otherwise is lost and found. -/
theorem refSignalDetected_other (hpd : s.pdReady (refPd k.val) = true) (h : signalKnown s k.val code num) (hst : s.rd (K.REF_STATE k.val) ≠ 0)
    (hother : ¬ ∀ p ∈ signalOf s k.val code lines num den, s.rd p.1 = p.2) :
    Ends (.refSignalDetected k code lines num den) s (fun t =>
      t.rd (K.REF_STATE k.val) = foundState s k.val ∧ t.rd (K.REF_OFFSET k.val) = 0 ∧ t.rd (K.REF_DRIFT k.val) = 0 ∧
      (∀ p ∈ signalOf s k.val code lines num den, t.rd p.1 = p.2) ∧
      raisedOf t = raisedOf s ++ (0x1001, refIdx k.val, k.val, s.rd (K.REF_STATE k.val) * 256 % 2 ^ 32) :: foundEvents s k.val ∧ StoresKept s t) := by
  have hex := (refSignalDetected_known hpd h).trans (if_neg (fun hc => hother (by simpa using hc.2)))
  have happ := refFound_appears k.isLt (refLose_state (s := s)) (signalOf_keys s k.val code lines num den) (signalOf_nodup ..)
  have hlost := refLose_touches k.isLt hst
  have hkeep {j : Nat} (hj : j ∉ K.REF_STATE k.val :: lossKeys k.val ++ [K.SEL_STATUS 0, K.SEL_STATUS 1]) : (s.refLose k.val).rd j = s.rd j :=
    hlost.regs j hj
  obtain ⟨hstate, -, hev⟩ := found_congr (k := k.val) (s := s) (t := s.refLose k.val)
    (hkeep (by simp (disch := exact keys_ne rfl rfl (by omega)) [lossKeys, eq_false_of_keys_ne]))
    (hkeep (by simp (disch := exact keys_ne rfl rfl (by omega)) [lossKeys, eq_false_of_keys_ne]))
    (hkeep (by simp (disch := exact keys_ne rfl rfl (by omega)) [lossKeys, eq_false_of_keys_ne]))
  have hreport {j v : Nat} (hj : (j, v) ∈ lostRegs k.val) (hne : j ∉ signalKeys k.val ++ [H.refLoss k.val, K.REF_STATE k.val, H.refTimer k.val]) :
      (((s.refLose k.val).wrs (signalOf s k.val code lines num den)).refFound k.val).rd j = v :=
    (happ.rd (signalOf_keys s k.val code lines num den) hne).trans (refLose_reports k.isLt hst hj)
  refine ⟨_, hex, happ.state.trans hstate, ?_, ?_, happ.signal, ?_, storesKept_of_exec hex rfl⟩
  · exact hreport (by simp [lostRegs]) (by simp (disch := exact keys_ne rfl rfl (by omega)) [signalKeys, eq_false_of_keys_ne])
  · exact hreport (by simp [lostRegs]) (by simp (disch := exact keys_ne rfl rfl (by omega)) [signalKeys, eq_false_of_keys_ne])
  · rw [happ.touches.events, hlost.events, hev, List.append_assoc, List.singleton_append]

end

/-! ## REF_LOSS_OF_SIGNAL -/

/-- The signal of candidate n is gone. -/
def signalGone (s : State) (n : Nat) : Prop :=
  if n < 48 then s.rd (K.IN_STAT_STATE n) ≠ 4
  else (refType n = 2 ∧ s.rd (K.REF_PTP_PORT_STATE n) ≠ 3) ∨ s.rd (H.refLoss n) ≤ s.now ∧ s.arrives (phaseOf n) = false

section
variable {s : State} {k : Fin 54}

theorem refLossOfSignal_gone (h : signalGone s k.val) : exec (.refLossOfSignal k) s = .next (s.refLose k.val) := by
  refine congrArg Host.Outcome.next (if_pos ?_)
  simp only [signalGone] at h
  split at h <;> split <;> simp_all
  split <;> simp_all

theorem refLossOfSignal_there (h : ¬ signalGone s k.val) : Idles (.refLossOfSignal k) s := by
  refine congrArg Host.Outcome.next (if_neg ?_)
  simp only [signalGone] at h
  split at h <;> split <;> simp_all

/-- A candidate lost is ABSENT and reports nothing. -/
theorem refLossOfSignal_loses (hst : s.rd (K.REF_STATE k.val) ≠ 0) (h : signalGone s k.val) : Changes (.refLossOfSignal k) s
    [(K.REF_STATE k.val, 0), (K.REF_NOM_NUM k.val, 0), (K.REF_NOM_DEN k.val, 1), (K.REF_OFFSET k.val, 0), (K.REF_DRIFT k.val, 0),
      (H.refLoss k.val, 0)]
    [H.refLeft k.val, K.REF_SYNC_FORMAT k.val, K.REF_SYNC_LINES k.val, K.REF_FREQ k.val, K.SEL_STATUS 0, K.SEL_STATUS 1]
    [(0x1001, refIdx k.val, k.val, s.rd (K.REF_STATE k.val) * 256 % 2 ^ 32)] := by
  refine changes_of_touches (refLossOfSignal_gone h) rfl (fun p hp => ?_) (refLose_touches k.isLt hst)
  obtain rfl | hp := List.mem_cons.mp hp
  · exact refLose_state
  · exact refLose_reports k.isLt hst (List.mem_append_left _ hp)

theorem refLossOfSignal_idle (h : s.rd (K.REF_STATE k.val) = 0 ∨ ¬ signalGone s k.val) : Idles (.refLossOfSignal k) s := by
  by_cases hgone : signalGone s k.val
  · exact (refLossOfSignal_gone hgone).trans (congrArg _ (refLose_absent (h.resolve_right (not_not_intro hgone))))
  · exact refLossOfSignal_there hgone

/-! ## Timers (R96, R98) -/

/-- A candidate in state st whose timer has run out within its limits is QUALIFIED. -/
theorem timerDone_due {c : Instr} {st : Nat} (hc : exec c s = .next (s.timerDone k.val st)) (hst : s.rd (K.REF_STATE k.val) = st) (h2 : st < 2 ^ 16)
    (hne : st ≠ 2) (ht : s.rd (H.refTimer k.val) ≤ s.now) (hw : s.within k.val = true) (hb : s.arrives (s.breaks k.val) = false) :
    Does c s [(K.REF_STATE k.val, 2), (H.refQual k.val, 1)] [(0x1001, refIdx k.val, k.val, st * 256 + 2)] := by
  have hdone : s.timerDone k.val st = s.refMove k.val 2 := if_pos ⟨hst, ht, hw, by simp [hb]⟩
  have hmove : s.refMove k.val 2 = (s.wrs [(H.refQual k.val, 1), (K.REF_STATE k.val, 2)]).raise 0x1001 (refIdx k.val) k.val (st * 256 + 2) := by
    rw [refMove_eq (by rwa [hst]), hst]
    simp [moved, hst, hne]
  obtain ⟨t, hex, hval, hreg, hev, hrest⟩ := does_of_wrs_raise (hc.trans (by rw [hdone, hmove]))
    (by simp (disch := exact keys_ne rfl rfl (by omega)) [eq_false_of_keys_ne])
    (Nat.mod_eq_of_lt (by omega)) (Nat.mod_eq_of_lt (by omega))
  refine ⟨t, hex, fun p hp => hval p ?_, fun j hj => hreg j ?_, hev, hrest⟩
  · simpa [or_comm] using hp
  · simpa [and_comm] using hj

theorem timerDone_waits {c : Instr} {st : Nat} (hc : exec c s = .next (s.timerDone k.val st))
    (h : s.rd (K.REF_STATE k.val) ≠ st ∨ s.now < s.rd (H.refTimer k.val) ∨ s.within k.val = false ∨ s.arrives (s.breaks k.val) = true) : Idles c s := by
  refine hc.trans (congrArg _ (if_neg ?_))
  rintro ⟨hst, ht, hw, hb⟩
  obtain h | h | h | h := h
  · exact h hst
  · omega
  · simp [hw] at h
  · simp [h] at hb

/-! ## REF_MEASUREMENT (R94, R96) -/

/-- The measurement of one candidate out of those of a second. -/
def measureAt (offs : List Int) (k : Nat) (t : State) : State := match offs[k]? with | some o => t.measure k o | none => t

/-- The state after the measurements of a second, before the soft limits. -/
def measuredAll (s : State) (offs : List Int) : State := s.upto 54 (measureAt offs)

theorem exec_refMeasurement (offs : List Int) : exec (.refMeasurement offs) s = .next (((measuredAll s offs).softCheck 0).softCheck 1) := rfl

theorem measureAt_confined {m : Nat} (hm : m < 54) (offs : List Int) (t : State) : Confined (candKeys m) candCodes t (measureAt offs m t) := by
  simp only [measureAt]
  split
  · exact measure_confined hm _
  · exact .refl t

/-- The registers by which a candidate is judged are its own. -/
theorem not_candKeys {m n : Nat} (hm : m < 54) (hn : n < 54) (hne : m ≠ n) : ∀ j ∈ [K.REF_OFFSET n, K.REF_STATE n, K.REF_HARD n], ¬ candKeys m j := by
  simp only [List.mem_cons, List.not_mem_nil, or_false]
  rintro j (rfl | rfl | rfl) <;> simp (disch := exact keys_ne rfl rfl (by omega)) [candKeys, eq_false_of_keys_ne]

/-- Each candidate's OFFSET, STATE and HARD after the measurements of a second are those its own measurement makes. -/
theorem measuredAll_rd (offs : List Int) (k : Fin 54) : ∃ t : State,
    (∀ j ∈ [K.REF_OFFSET k.val, K.REF_STATE k.val, K.REF_HARD k.val], t.rd j = s.rd j) ∧
    ∀ j ∈ [K.REF_OFFSET k.val, K.REF_STATE k.val, K.REF_HARD k.val], (measuredAll s offs).rd j = (measureAt offs k.val t).rd j :=
  upto_rd_at k.isLt (fun _ hm hne t j hj => (measureAt_confined hm offs t).rd j (not_candKeys hm k.isLt hne j hj)) s

theorem refMeasurement_ends (offs : List Int) : Ends (.refMeasurement offs) s (fun t => StoresKept s t ∧
    (∀ o : Int, s.rd (K.REF_STATE k.val) ≠ 0 → offs[k.val]? = some o → t.rd (K.REF_OFFSET k.val) = ofInt 32 o ∧
      (-2147483648 ≤ o → o ≤ 2147483647 → s.rd (K.REF_HARD k.val) < o.natAbs → t.rd (K.REF_STATE k.val) = 4)) ∧
    (s.rd (K.REF_STATE k.val) = 0 ∨ offs[k.val]? = none →
      t.rd (K.REF_OFFSET k.val) = s.rd (K.REF_OFFSET k.val) ∧ t.rd (K.REF_STATE k.val) = s.rd (K.REF_STATE k.val))) := by
  have hsoft {j : Nat} (h0 : j ≠ K.SEL_STATUS 0) (h1 : j ≠ K.SEL_STATUS 1) :
      (((measuredAll s offs).softCheck 0).softCheck 1).rd j = (measuredAll s offs).rd j := by rw [softCheck_rd h1, softCheck_rd h0]
  have hoff := hsoft (j := K.REF_OFFSET k.val) (keys_ne rfl rfl (by omega)) (keys_ne rfl rfl (by omega))
  have hst := hsoft (j := K.REF_STATE k.val) (keys_ne rfl rfl (by omega)) (keys_ne rfl rfl (by omega))
  obtain ⟨u, hu, hall⟩ := measuredAll_rd (s := s) offs k
  rw [hall _ (by simp)] at hoff hst
  have hustate : u.rd (K.REF_STATE k.val) = s.rd (K.REF_STATE k.val) := hu _ (by simp)
  have huoff : u.rd (K.REF_OFFSET k.val) = s.rd (K.REF_OFFSET k.val) := hu _ (by simp)
  have huhard : u.rd (K.REF_HARD k.val) = s.rd (K.REF_HARD k.val) := hu _ (by simp)
  refine ⟨_, exec_refMeasurement offs, storesKept_of_exec (exec_refMeasurement offs) rfl, fun o hpres ho => ?_, fun hquiet => ?_⟩
  · rw [← hustate] at hpres
    rw [measureAt, ho] at hoff hst
    refine ⟨hoff.trans (measure_offset k.isLt hpres), fun h1 h2 hhard => hst.trans (measure_disqualified hpres h1 h2 ?_)⟩
    rwa [huhard]
  · have hsame : measureAt offs k.val u = u := by
      rw [measureAt]
      obtain h | h := hquiet
      · split
        · exact measure_absent (hustate.trans h)
        · rfl
      · rw [h]
    rw [hsame] at hoff hst
    exact ⟨hoff.trans huoff, hst.trans hustate⟩

end

/-- Settles O25, by the candidate's STATE and whether its signal is known, gone or as it was; the measurements one candidate at a time. -/
theorem candidatesAppearAndGo : Obligations.CandidatesAppearAndGo := by
  intro k s n st src known gone what wait found
  refine ⟨fun code lines num den hpd hkn => ⟨fun hst hq => ?_, fun hst hq => ?_, fun hst hsame => ?_, fun hst hother => ?_⟩,
    fun code lines num den h => refSignalDetected_unknown h, refLossOfSignal_loses, refLossOfSignal_idle,
    fun hst => timerDone_due rfl hst (by decide) (by decide), timerDone_waits rfl,
    fun hst => timerDone_due rfl hst (by decide) (by decide), timerDone_waits rfl, refMeasurement_ends⟩
  · have h := refSignalDetected_absent (lines := lines) (den := den) hpd hkn hst
    rw [show foundState s k.val = 1 from if_pos hq, show foundWait s k.val = _ from if_pos hq] at h
    exact h
  · have h := refSignalDetected_absent (lines := lines) (den := den) hpd hkn hst
    rw [show foundState s k.val = 3 from if_neg hq, show foundWait s k.val = _ from if_neg hq] at h
    exact h
  · exact refSignalDetected_same hpd hkn hst hsame
  · exact refSignalDetected_other hpd hkn hst hother

end Sys2Proof
end

section
/-! SoftLimitWarns: STATUS bit 1 and REF_SOFT after the measurements of a second and after a written SOFT; a pair that is refused. -/
namespace Sys2Proof

open Machine

/-! ## Both selectors look (R97) -/

/-- Both selectors look at their soft limit. -/
def softBoth (s : State) : State := (s.softCheck 0).softCheck 1

/-- Each selector is on a candidate, or on none. -/
def ActiveSound (s : State) : Prop := ∀ j < 2, s.rd (K.SEL_ACTIVE j) < 54 ∨ s.rd (K.SEL_ACTIVE j) = 255

/-- What selectors compare, in t as in s: their candidates, and each candidate's SOFT and OFFSET. -/
structure SameSoft (s t : State) : Prop where
  active : ∀ j < 2, t.rd (K.SEL_ACTIVE j) = s.rd (K.SEL_ACTIVE j)
  soft : ∀ c < 54, t.rd (K.REF_SOFT c) = s.rd (K.REF_SOFT c)
  offset : ∀ c < 54, t.rd (K.REF_OFFSET c) = s.rd (K.REF_OFFSET c)

section
variable {s t : State}

theorem SameSoft.past (h : SameSoft s t) (ha : ActiveSound s) {j : Nat} (hj : j < 2) : softPast t j = softPast s j :=
  softPast_congr (h.active j hj) (fun hn => have hc := (ha j hj).resolve_right hn; ⟨h.soft _ hc, h.offset _ hc⟩)

theorem SameSoft.trans {u : State} (h : SameSoft s t) (h' : SameSoft t u) : SameSoft s u :=
  ⟨fun j hj => (h'.active j hj).trans (h.active j hj), fun c hc => (h'.soft c hc).trans (h.soft c hc),
    fun c hc => (h'.offset c hc).trans (h.offset c hc)⟩

theorem softBoth_rd {k : Nat} (h0 : k ≠ K.SEL_STATUS 0) (h1 : k ≠ K.SEL_STATUS 1) : (softBoth s).rd k = s.rd k := by
  rw [softBoth, softCheck_rd h1, softCheck_rd h0]

theorem sameSoft_softCheck {i : Nat} (hi : i < 2) : SameSoft s (s.softCheck i) where
  active _ _ := softCheck_rd (keys_ne rfl rfl (by omega))
  soft _ _ := softCheck_rd (keys_ne rfl rfl (by omega))
  offset _ _ := softCheck_rd (keys_ne rfl rfl (by omega))

theorem sameSoft_softBoth : SameSoft s (softBoth s) where
  active _ _ := softBoth_rd (keys_ne rfl rfl (by omega)) (keys_ne rfl rfl (by omega))
  soft _ _ := softBoth_rd (keys_ne rfl rfl (by omega)) (keys_ne rfl rfl (by omega))
  offset _ _ := softBoth_rd (keys_ne rfl rfl (by omega)) (keys_ne rfl rfl (by omega))

/-- Each selector's bit says whether its own limit is exceeded. -/
theorem softBoth_bit (ha : ActiveSound s) {j : Nat} (hj : j < 2) : (softBoth s).bit (K.SEL_STATUS j) 1 = softPast s j := by
  have hne : K.SEL_STATUS 0 ≠ K.SEL_STATUS 1 := by decide
  match j, hj with
  | 0, _ => rw [softBoth, bit_congr 1 (softCheck_rd hne), softCheck_bit]
  | 1, _ => rw [softBoth, softCheck_bit, (sameSoft_softCheck (by decide)).past ha (by decide)]

/-- The events of both checks. -/
theorem softBoth_events (ha : ActiveSound s) : raisedOf (softBoth s) = raisedOf s ++ (softEvents s 0 ++ softEvents s 1) := by
  have hsame := sameSoft_softCheck (s := s) (i := 0) (by decide)
  have hbit : (s.softCheck 0).bit (K.SEL_STATUS 1) 1 = s.bit (K.SEL_STATUS 1) 1 := bit_congr 1 (softCheck_rd (by decide))
  have hev : softEvents (s.softCheck 0) 1 = softEvents s 1 := by
    rw [softEvents, softEvents, hsame.past ha (by decide), hsame.active 1 (by decide), hbit]
    obtain hc | hc := ha 1 (by decide)
    · rw [hsame.offset _ hc]
    · simp [softPast, hc]
  rw [softBoth, (softCheck_touches 1).events, (softCheck_touches 0).events, List.append_assoc, hev]

/-! ## The measurements of a second -/

theorem measuredAll_confined (offs : List Int) : Confined (fun k => ∃ m < 54, candKeys m k) candCodes s (measuredAll s offs) :=
  (Confined.refl s).upto 54 (fun m hm t => (measureAt_confined hm offs t).mono (fun _ hk => ⟨m, hm, hk⟩) (fun _ hc => hc))

/-- Measurements leave the selectors. -/
theorem measuredAll_sel (offs : List Int) {j : Nat} (hj : j < 2) :
    (measuredAll s offs).rd (K.SEL_ACTIVE j) = s.rd (K.SEL_ACTIVE j) ∧ (measuredAll s offs).rd (K.SEL_STATUS j) = s.rd (K.SEL_STATUS j) := by
  constructor
  all_goals
    refine (measuredAll_confined offs).rd _ ?_
    rintro ⟨m, hm, hmem⟩
    revert hmem
    simp (disch := exact keys_ne rfl rfl (by omega)) [candKeys, eq_false_of_keys_ne]

/-- Of the events of a measurement and of both checks, those of the soft limit are the checks'. -/
theorem softEvents_filter (s : State) : (softEvents s 0 ++ softEvents s 1).filter (fun e => e.1 == 0x1002) = softEvents s 0 ++ softEvents s 1 := by
  refine List.filter_eq_self.mpr (fun e he => ?_)
  simp only [softEvents, List.mem_append] at he
  obtain he | he := he <;> split at he <;> simp_all

/-- The event of a limit that t shows exceeded and s did not. -/
def softSince (s t : State) (j : Nat) : List (Nat × Nat × Nat × Nat) :=
  if softPast t j && !s.bit (K.SEL_STATUS j) 1 then
    [(0x1002, refIdx (t.rd (K.SEL_ACTIVE j)), t.rd (K.SEL_ACTIVE j), t.rd (K.REF_OFFSET (t.rd (K.SEL_ACTIVE j))) % 2 ^ 32)]
  else []

/-- The event of a check, by the state before it and the state after. -/
theorem softEvents_since {u : State} (hu : ActiveSound u) (h : SameSoft u t) {j : Nat} (hj : j < 2)
    (hst : u.rd (K.SEL_STATUS j) = s.rd (K.SEL_STATUS j)) : softEvents u j = softSince s t j := by
  rw [softEvents, softSince, h.past hu hj, h.active j hj, bit_congr 1 hst]
  obtain hc | hc := hu j hj
  · rw [h.offset _ hc, Nat.mod_eq_of_lt (show u.rd (K.SEL_ACTIVE j) < 2 ^ 32 by omega)]
  · simp [softPast, hc]

/-! ## Writing a limit (R39, R97) -/

/-- Where a limit of candidate k lies. -/
def limitLoc (k sub dflt : Nat) : Loc := ⟨.ref, k, 0, sub, ⟨0, sub, 1, .u 4, .rw, 0, 2, dflt, .rng 1 100000⟩⟩

theorem locate_soft : ∀ k : Fin 54, locate (K.REF_SOFT k) = some (limitLoc k 9 2000) := by decide

theorem locate_hard : ∀ k : Fin 54, locate (K.REF_HARD k) = some (limitLoc k 10 5000) := by decide

/-- The default of an object is the one of its row, or of its own where it has one. -/
theorem dflt_of_locate {k : Nat} {l : Loc} (h : locate k = some l) : dflt k = (specialDflt l).getD l.row.dflt := by
  have hk : ¬ airKey 0 ≤ k := by
    have := lt_of_locate h
    simp only [airKey]
    omega
  rw [dflt, if_neg hk, h]

section
variable {q : Req} {i k v : Nat} {x : List Int} {l : Loc}

/-- A WRITE of value v to the object at k. -/
theorem write_fields (hl : locate k = some l) (hv : v < 256 ^ l.row.ty.size) (hp : q.payload = bytesBE 3 k ++ [0] ++ bytesBE l.row.ty.size v) :
    fld q.payload 0 3 = k ∧ l.row.ty.take (q.payload.drop 4) = some v ∧ 4 ≤ q.payload.length := by
  have hk := lt_of_locate hl
  have hdrop : q.payload.drop 4 = bytesBE l.row.ty.size v := by
    have hlen : (bytesBE 3 k ++ [0]).length = 4 := by simp
    rw [hp, ← hlen, List.drop_left]
  refine ⟨?_, by rw [hdrop, take_bytesBE _ _ hv], by simp [hp]; omega⟩
  rw [hp, List.append_assoc, fld_front]
  exact Nat.mod_eq_of_lt hk

/-- A value that does not fit the object or its partner is RANGE. -/
theorem write_range (h : Serves s q i) (hq : LenOk q) (hl : locate k = some l) (hro : l.row.acc ≠ .ro)
    (hr : holds (s.rd (K.SESS_RIGHTS i)) l.row.wr = true) (hv : v < 256 ^ l.row.ty.size)
    (hp : q.payload = bytesBE 3 k ++ [0] ++ bytesBE l.row.ty.size v) (hpair : (arrived q i s).pairOk l v = false) :
    exec (.write q x) s = .next (replied s q i 0x11 4 (q.payload.take 4) (arrived q i s)) := by
  obtain ⟨hk, ht, h4⟩ := write_fields hl hv hp
  refine write_answers (hd := 0) h hq h4 ?_ (by decide) h.quiet
  rw [hk, writeOne_allowed h hl hro hr, ht]
  simp only [hpair]
  rw [if_pos (by simp)]
  rfl

/-- A good value is written, and the write counts. -/
theorem write_good (h : Serves s q i) (hq : LenOk q) (hl : locate k = some l) (hro : l.row.acc ≠ .ro)
    (hr : holds (s.rd (K.SESS_RIGHTS i)) l.row.wr = true) (hv : v < 256 ^ l.row.ty.size)
    (hp : q.payload = bytesBE 3 k ++ [0] ++ bytesBE l.row.ty.size v) (hadm : l.admits k v = true) (hpair : (arrived q i s).pairOk l v = true)
    {u : State} (hu : writeObj l v ⟨q.port, i, x⟩ k (arrived q i s) = ansOk u) (hquiet : u.rd H.warmPend ≠ 1) :
    exec (.write q x) s = .next (replied s q i 0x11 0 (q.payload.take 4) (u.inc K.IDENT_CFG_SEQ 1 (2 ^ 64))) := by
  obtain ⟨hk, ht, h4⟩ := write_fields hl hv hp
  refine write_answers (hd := 0) h hq h4 ?_ (by decide) (by rwa [inc_cfgSeq_warmPend])
  rw [hk, writeOne_good h hl hro hr ht hadm hpair hu]

/-- A limit of candidate k from 1 to 100,000. -/
theorem limit_admits {sub d : Nat} (h1 : 1 ≤ v) (h2 : v ≤ 100000) (key : Nat) : (limitLoc k sub d).admits key v = true := by
  simp [Loc.admits, limitLoc, Ty.valid, Rng.admits, h1, h2]

end

/-- SOFT is at most HARD, or its default. -/
theorem pairOk_soft (s : State) (k v : Nat) : s.pairOk (limitLoc k 9 2000) v = (v == 2000 || decide (v ≤ s.rd (K.REF_HARD k))) := rfl

/-- HARD is at least SOFT, or its default. -/
theorem pairOk_hard (s : State) (k v : Nat) : s.pairOk (limitLoc k 10 5000) v = (v == 5000 || decide (s.rd (K.REF_SOFT k) ≤ v)) := rfl

/-- Writing a limit of candidate k. -/
theorem writeObj_limit (s : State) (k sub d v key : Nat) (c : Wctx) : writeObj (limitLoc k sub d) v c key s = refWrite k key v s := by
  simp [writeObj, writeEffect, limitLoc]

/-- An accepted SOFT is compared at once. -/
theorem refWrite_soft {k v : Nat} (h : v ≤ s.rd (K.REF_HARD k) ∨ v = dflt (K.REF_SOFT k)) :
    refWrite k (K.REF_SOFT k) v s = ansOk (softBoth (s.wr (K.REF_SOFT k) v)) := by
  have h0 : ¬ (K.REF_SOFT k = K.REF_RANK0 k ∨ K.REF_SOFT k = K.REF_RANK1 k) := by
    simp (disch := exact keys_ne rfl rfl (by omega)) [eq_false_of_keys_ne]
  have hgood : ¬ (s.rd (K.REF_HARD k) < v ∧ v ≠ dflt (K.REF_SOFT k)) := by
    rintro ⟨h1, h2⟩
    exact h.elim (by omega) h2
  rw [refWrite, if_neg h0, if_pos rfl, if_neg hgood, softBoth]

end

section
variable {s : State}

/-- The measurements of a second and the soft limits. -/
theorem refMeasurement_warns (ha : ActiveSound s) (offs : List Int) : Ends (.refMeasurement offs) s (fun t =>
    (∀ j < 2, t.rd (K.SEL_ACTIVE j) = s.rd (K.SEL_ACTIVE j)) ∧ (∀ j < 2, t.bit (K.SEL_STATUS j) 1 = softPast t j) ∧
    ((raisedOf t).drop (raisedOf s).length).filter (fun e => e.1 == 0x1002) = softSince s t 0 ++ softSince s t 1) := by
  set u := measuredAll s offs with hu
  have hact (j : Nat) (hj : j < 2) : u.rd (K.SEL_ACTIVE j) = s.rd (K.SEL_ACTIVE j) := (measuredAll_sel offs hj).1
  have hua : ActiveSound u := fun j hj => by rw [hact j hj]; exact ha j hj
  have hsame : SameSoft u (softBoth u) := sameSoft_softBoth
  obtain ⟨l, hl, hcodes⟩ := (measuredAll_confined (s := s) offs).events
  refine ⟨softBoth u, exec_refMeasurement offs, fun j hj => (hsame.active j hj).trans (hact j hj),
    fun j hj => by rw [softBoth_bit hua hj, hsame.past hua hj], ?_⟩
  have hnone : l.filter (fun e => e.1 == 0x1002) = [] := by
    refine List.filter_eq_nil_iff.mpr (fun e he => ?_)
    obtain h | h | h := hcodes e he <;> simp [h]
  rw [softBoth_events hua, hl, List.append_assoc, List.drop_left, List.filter_append, hnone, List.nil_append, softEvents_filter,
    softEvents_since hua hsame (by decide) (measuredAll_sel offs (by decide)).2,
    softEvents_since hua hsame (by decide) (measuredAll_sel offs (by decide)).2]

variable {q : Req} {i v : Nat} {x : List Int} {k : Fin 54}

/-- A SOFT beyond HARD that is not the default is RANGE. -/
theorem write_soft_range (h : Serves s q i) (hq : LenOk q) (hr : holds (s.rd (K.SESS_RIGHTS i)) 2 = true) (hv : v ≤ 100000)
    (hp : q.payload = bytesBE 3 (K.REF_SOFT k) ++ [0] ++ bytesBE 4 v) (hhard : s.rd (K.REF_HARD k) < v) (hd : v ≠ dflt (K.REF_SOFT k)) :
    exec (.write q x) s = .next (replied s q i 0x11 4 (q.payload.take 4) (arrived q i s)) := by
  have hl := locate_soft k
  refine write_range h hq hl (fun hro => by cases hro) hr (show v < 256 ^ 4 by omega) hp ?_
  rw [dflt_of_locate hl] at hd
  rw [pairOk_soft, arrived_obj s q (slot_le h.named) (.inr (by simp only [K.REF_HARD, K.at']; omega)) (by simp only [K.REF_HARD, K.at']; omega)]
  simpa using ⟨hd, hhard⟩

/-- A HARD below SOFT that is not the default is RANGE. -/
theorem write_hard_range (h : Serves s q i) (hq : LenOk q) (hr : holds (s.rd (K.SESS_RIGHTS i)) 2 = true) (hv : v ≤ 100000)
    (hp : q.payload = bytesBE 3 (K.REF_HARD k) ++ [0] ++ bytesBE 4 v) (hsoft : v < s.rd (K.REF_SOFT k)) (hd : v ≠ dflt (K.REF_HARD k)) :
    exec (.write q x) s = .next (replied s q i 0x11 4 (q.payload.take 4) (arrived q i s)) := by
  have hl := locate_hard k
  refine write_range h hq hl (fun hro => by cases hro) hr (show v < 256 ^ 4 by omega) hp ?_
  rw [dflt_of_locate hl] at hd
  rw [pairOk_hard, arrived_obj s q (slot_le h.named) (.inr (by simp only [K.REF_SOFT, K.at']; omega)) (by simp only [K.REF_SOFT, K.at']; omega)]
  simpa using ⟨hd, hsoft⟩

/-- A SOFT within HARD, or the default, is taken and compared at once. -/
theorem write_soft_good (ha : ActiveSound s) (h : Serves s q i) (hq : LenOk q) (hr : holds (s.rd (K.SESS_RIGHTS i)) 2 = true) (h1 : 1 ≤ v)
    (hv : v ≤ 100000) (hp : q.payload = bytesBE 3 (K.REF_SOFT k) ++ [0] ++ bytesBE 4 v)
    (hgood : v ≤ s.rd (K.REF_HARD k) ∨ v = dflt (K.REF_SOFT k)) : Ends (.write q x) s (fun t => t.rd (K.REF_SOFT k) = v ∧
      ∀ j < 2, t.rd (K.SEL_ACTIVE j) = s.rd (K.SEL_ACTIVE j) ∧ t.bit (K.SEL_STATUS j) 1 = softPast t j) := by
  have hi := slot_le h.named
  have hl := locate_soft k
  have hobj {j : Nat} (h0 : 0x112100 ≤ j) (h1 : j < 2 ^ 24) : (arrived q i s).rd j = s.rd j := arrived_obj s q hi (.inr h0) h1
  have hhard : (arrived q i s).rd (K.REF_HARD k) = s.rd (K.REF_HARD k) :=
    hobj (by simp only [K.REF_HARD, K.at']; omega) (by simp only [K.REF_HARD, K.at']; omega)
  set a := (arrived q i s).wr (K.REF_SOFT k) v with haw
  have hact (j : Nat) (hj : j < 2) : a.rd (K.SEL_ACTIVE j) = s.rd (K.SEL_ACTIVE j) := by
    refine (State.rd_wr_ne _ _ ?_).trans (hobj ?_ ?_)
    · exact keys_ne rfl rfl (by omega)
    all_goals
      simp only [K.SEL_ACTIVE, K.at']
      omega
  have haa : ActiveSound a := fun j hj => by rw [hact j hj]; exact ha j hj
  have hquiet : (softBoth a).rd H.warmPend ≠ 1 := by
    have hne : H.warmPend ≠ K.REF_SOFT k := keys_ne rfl rfl (by omega)
    rw [softBoth_rd (by decide) (by decide), haw, State.rd_wr_ne _ _ hne]
    exact h.quiet
  have hex := write_good (x := x) h hq hl (fun hro => by cases hro) hr (show v < 256 ^ 4 by omega) hp (limit_admits h1 hv _)
    (by rw [pairOk_soft, hhard]; simpa [dflt_of_locate hl, limitLoc, specialDflt, or_comm] using hgood)
    ((writeObj_limit ..).trans (refWrite_soft (s := arrived q i s) (by rwa [hhard]))) hquiet
  refine ⟨_, hex, ?_⟩
  have hrd {j : Nat} (hj : j ≠ K.IDENT_CFG_SEQ) : (replied s q i 0x11 0 (q.payload.take 4) ((softBoth a).inc K.IDENT_CFG_SEQ 1 (2 ^ 64))).rd j =
      (softBoth a).rd j := by
    rw [replied_rd, State.inc, State.up, State.rd_wr_ne _ _ hj]
  have hsame : SameSoft (softBoth a) (replied s q i 0x11 0 (q.payload.take 4) ((softBoth a).inc K.IDENT_CFG_SEQ 1 (2 ^ 64))) :=
    ⟨fun _ _ => hrd (keys_ne rfl rfl (by omega)), fun _ _ => hrd (keys_ne rfl rfl (by omega)), fun _ _ => hrd (keys_ne rfl rfl (by omega))⟩
  have hba : ActiveSound (softBoth a) := fun j hj => by rw [sameSoft_softBoth.active j hj]; exact haa j hj
  refine ⟨?_, fun j hj => ⟨?_, ?_⟩⟩
  · have hsoft := sameSoft_softBoth.trans hsame
    rw [hsoft.soft _ k.isLt, haw, State.rd_wr_self]
  · rw [hsame.active j hj, sameSoft_softBoth.active j hj, hact j hj]
  · have hst : K.SEL_STATUS j ≠ K.IDENT_CFG_SEQ := keys_ne rfl rfl (by omega)
    rw [bit_congr 1 (hrd hst), softBoth_bit haa hj, hsame.past hba hj, sameSoft_softBoth.past haa hj]

end

/-- Settles O27, with the bit after a check as what the check compares; the pair of limits at the writes. -/
theorem softLimitWarns : Obligations.SoftLimitWarns := by
  intro s ha cand past warned
  have hpast {t : State} {j : Nat} (h : t.rd (K.SEL_ACTIVE j) = cand j) : softPast t j = past t j := by
    simp only [softPast, h, past]
  refine ⟨fun offs => ?_, fun q i k v x h hq hr hk h1 h2 => ⟨fun hp => ⟨fun hhard hd => ?_, fun hgood => ?_⟩, fun hp hsoft hd => ?_⟩⟩
  · obtain ⟨t, hex, hact, hbit, hev⟩ := refMeasurement_warns ha offs
    have hwarned (j : Nat) (hj : j < 2) : softSince s t j = warned t j := by
      simp only [softSince, hact j hj, hpast (hact j hj), warned, cand]
    exact ⟨t, hex, fun j hj => ⟨hact j hj, by rw [hbit j hj, hpast (hact j hj)]⟩,
      by rw [hev, hwarned 0 (by decide), hwarned 1 (by decide)]⟩
  · exact write_soft_range (k := ⟨k, hk⟩) h hq hr h2 hp hhard hd
  · obtain ⟨t, hex, hval, hsel⟩ := write_soft_good (k := ⟨k, hk⟩) (x := x) ha h hq hr h1 h2 hp hgood
    exact ⟨t, hex, hval, fun j hj => ⟨(hsel j hj).1, by rw [(hsel j hj).2, hpast (hsel j hj).1]⟩⟩
  · exact write_hard_range (k := ⟨k, hk⟩) h hq hr h2 hp hsoft hd

end Sys2Proof
end

section
/-! SUPPORT. Selectors and their loops (R99 to R105): what a move, a new NCO, a new candidate and a phase sample change. -/
namespace Sys2Proof

open Machine

/-! ## The history of the NCO -/

theorem Touches.nu (s : State) (l : List NuRun) : Touches [] [] s { s with nu := l } := ⟨fun _ _ => rfl, (List.append_nil _).symm⟩

section
variable {s : State} {j : Nat}

/-! ## States of a selector (R102) -/

theorem selMove_same {new : Nat} (h : s.rd (K.SEL_STATE j) = new) (h1 : new ≠ 1) : s.selMove j new = s := if_pos ⟨h, h1⟩

theorem selMove_touches {new : Nat} (hj : j < 2) (h : ¬ (s.rd (K.SEL_STATE j) = new ∧ new ≠ 1)) :
    Touches [K.SEL_STATE j, H.lockFrom j] [(0x1006, selIdx j, j, (s.rd (K.SEL_STATE j) * 256 + new) % 2 ^ 32)] s (s.selMove j new) := by
  have ht := ((Touches.wr s (K.SEL_STATE j) new).trans (.wr _ (H.lockFrom j) 0)).trans
    (.raise _ 0x1006 (selIdx j) j (s.rd (K.SEL_STATE j) * 256 + new))
  rw [Nat.mod_eq_of_lt (show j < 2 ^ 32 by omega)] at ht
  simp only [State.selMove, if_neg h]
  exact ⟨fun k hk => ht.regs k (by simpa using hk), ht.events⟩

theorem selMove_state (new : Nat) : (s.selMove j new).rd (K.SEL_STATE j) = new := by
  have hne : K.SEL_STATE j ≠ H.lockFrom j := keys_ne rfl rfl (by omega)
  by_cases h : s.rd (K.SEL_STATE j) = new ∧ new ≠ 1
  · rw [selMove_same h.1 h.2, h.1]
  · simp only [State.selMove, if_neg h]
    exact (State.rd_wr_ne _ _ hne).trans (State.rd_wr_self ..)

/-- A selector that moves has no LOCK_HOLD window. -/
theorem selMove_lockFrom {new : Nat} (h : ¬ (s.rd (K.SEL_STATE j) = new ∧ new ≠ 1)) : (s.selMove j new).rd (H.lockFrom j) = 0 := by
  simp only [State.selMove, if_neg h]
  exact State.rd_wr_self ..

theorem selMove_rd {new k : Nat} (hs : k ≠ K.SEL_STATE j) (hl : k ≠ H.lockFrom j) : (s.selMove j new).rd k = s.rd k := by
  by_cases h : s.rd (K.SEL_STATE j) = new ∧ new ≠ 1
  · rw [selMove_same h.1 h.2]
  · simp only [State.selMove, if_neg h]
    exact (State.rd_wr_ne _ _ hl).trans (State.rd_wr_ne _ _ hs)

/-! ## The NCO (R101, R103, R105) -/

theorem setNco_touches (raw : Nat) : Touches [K.SEL_NCO j] [] s (s.setNco j raw) :=
  (Touches.wr s (K.SEL_NCO j) raw).trans (.nu _ (⟨j, (s.wr (K.SEL_NCO j) raw).rd (K.SEL_ACTIVE j), (s.wr (K.SEL_NCO j) raw).now,
    (s.wr (K.SEL_NCO j) raw).rd (K.SEL_STATE j) == 2, raw⟩ :: s.nu))

theorem setNco_nco (raw : Nat) : (s.setNco j raw).rd (K.SEL_NCO j) = raw := State.rd_wr_self ..

theorem setNco_rd {raw k : Nat} (h : k ≠ K.SEL_NCO j) : (s.setNco j raw).rd k = s.rd k := State.rd_wr_ne _ _ h

/-! ## Phase samples (R101, R102) -/

/-- What a sample does to the LOCK_HOLD window and the state of a selector. -/
def lockStep (s : State) (j : Nat) (e : Int) : State :=
  if s.rd (K.SEL_STATE j) = 1 then
    if e.natAbs ≤ s.rd (K.SEL_LOCK_PHASE j) then (if s.rd (H.lockFrom j) = 0 then s.wr (H.lockFrom j) (s.now + 1) else s)
    else s.wr (H.lockFrom j) 0
  else if s.rd (K.SEL_STATE j) = 2 ∧ 4 * s.rd (K.SEL_LOCK_PHASE j) < e.natAbs then s.selMove j 1
  else s

/-- The event of a sample that takes a LOCKED selector out of lock. -/
def unlockEvents (s : State) (j : Nat) (e : Int) : List (Nat × Nat × Nat × Nat) :=
  if s.rd (K.SEL_STATE j) = 2 ∧ 4 * s.rd (K.SEL_LOCK_PHASE j) < e.natAbs then [(0x1006, selIdx j, j, 0x201)] else []

/-- The value the loop gives the NCO. -/
def loopStep (s : State) (j : Nat) (e : Int) : Nat :=
  Config.loopNco (s.rd (K.SEL_NCO j)) (ofInt 32 e) (s.rd (K.SEL_BW_ACTIVE j)) (s.rd (K.SEL_DAMP_ACTIVE j)) % 2 ^ 64

/-- The loop sets the NCO of a selector that is on a candidate. -/
def loopSet (s : State) (j : Nat) (e : Int) : State := if s.rd (K.SEL_ACTIVE j) = 255 then s else s.setNco j (loopStep s j e)

theorem phaseSample_eq (e : Int) : s.phaseSample j e = loopSet (lockStep (s.wr (K.SEL_PHASE_ERR j) (ofInt 32 e)) j e) j e := rfl

theorem loopSet_touches (e : Int) : Touches [K.SEL_NCO j] [] s (loopSet s j e) := by
  rw [loopSet]
  split
  · exact .refl ..
  · exact setNco_touches _

theorem lockStep_touches (hj : j < 2) (e : Int) : Touches [H.lockFrom j, K.SEL_STATE j] (unlockEvents s j e) s (lockStep s j e) := by
  rw [lockStep, unlockEvents]
  by_cases hst : s.rd (K.SEL_STATE j) = 1
  · rw [if_pos hst, if_neg (by omega)]
    split
    · split
      · exact (Touches.wr ..).mono (by simp)
      · exact .refl ..
    · exact (Touches.wr ..).mono (by simp)
  · rw [if_neg hst]
    split
    · next h =>
      have ht := selMove_touches (s := s) (new := 1) hj (by simp)
      rw [h.1] at ht
      exact ht.mono (by simp)
    · exact .refl ..

/-- What a phase sample may change. -/
def sampleKeys (j : Nat) : List Nat := [K.SEL_PHASE_ERR j, H.lockFrom j, K.SEL_STATE j, K.SEL_NCO j]

theorem phaseSample_touches (hj : j < 2) (e : Int) : Touches (sampleKeys j) (unlockEvents s j e) s (s.phaseSample j e) := by
  have hst : K.SEL_STATE j ≠ K.SEL_PHASE_ERR j := keys_ne rfl rfl (by omega)
  have hlp : K.SEL_LOCK_PHASE j ≠ K.SEL_PHASE_ERR j := keys_ne rfl rfl (by omega)
  have hev : unlockEvents (s.wr (K.SEL_PHASE_ERR j) (ofInt 32 e)) j e = unlockEvents s j e := by
    rw [unlockEvents, unlockEvents, State.rd_wr_ne _ _ hst, State.rd_wr_ne _ _ hlp]
  have ht := ((Touches.wr s (K.SEL_PHASE_ERR j) (ofInt 32 e)).trans (lockStep_touches hj e)).trans (loopSet_touches (j := j) e)
  rw [List.nil_append, hev, List.append_nil] at ht
  exact ht.mono (by simp [sampleKeys])

theorem phaseSample_phaseErr (hj : j < 2) (e : Int) : (s.phaseSample j e).rd (K.SEL_PHASE_ERR j) = ofInt 32 e := by
  have hlock : K.SEL_PHASE_ERR j ∉ [H.lockFrom j, K.SEL_STATE j] := by
    simp (disch := exact keys_ne rfl rfl (by omega)) [eq_false_of_keys_ne]
  have hloop : K.SEL_PHASE_ERR j ∉ [K.SEL_NCO j] := by
    simp (disch := exact keys_ne rfl rfl (by omega)) [eq_false_of_keys_ne]
  rw [phaseSample_eq, (loopSet_touches e).regs _ hloop, (lockStep_touches hj e).regs _ hlock, State.rd_wr_self]

/-- A LOCKED selector whose sample is off by more than four times LOCK_PHASE is ACQUIRING. -/
theorem phaseSample_unlocks {e : Int} (hst : s.rd (K.SEL_STATE j) = 2) (he : 4 * s.rd (K.SEL_LOCK_PHASE j) < e.natAbs) :
    (s.phaseSample j e).rd (K.SEL_STATE j) = 1 := by
  have h0 : K.SEL_STATE j ≠ K.SEL_PHASE_ERR j := keys_ne rfl rfl (by omega)
  have h1 : K.SEL_LOCK_PHASE j ≠ K.SEL_PHASE_ERR j := keys_ne rfl rfl (by omega)
  have hloop : K.SEL_STATE j ∉ [K.SEL_NCO j] := by
    simp (disch := exact keys_ne rfl rfl (by omega)) [eq_false_of_keys_ne]
  rw [phaseSample_eq, (loopSet_touches e).regs _ hloop, lockStep, State.rd_wr_ne _ _ h0, State.rd_wr_ne _ _ h1, if_neg (by omega),
    if_pos ⟨hst, he⟩, selMove_state]

end

/-! ## A sample for the selectors that use a candidate -/

/-- A step of a loop over the selectors that is a phase sample of v for those on candidate k, and may set their loop parameters. -/
structure Samples (k v : Nat) (f : Nat → State → State) : Prop where
  other : ∀ j t, t.rd (K.SEL_ACTIVE j) ≠ k → f j t = t
  regs : ∀ j < 2, ∀ t, RegsKept (sampleKeys j ++ [K.SEL_BW_ACTIVE j, K.SEL_DAMP_ACTIVE j]) t (f j t)
  value : ∀ j < 2, ∀ t, t.rd (K.SEL_ACTIVE j) = k → (f j t).rd (K.SEL_PHASE_ERR j) = v

section
variable {s : State} {k v : Nat} {f : Nat → State → State}

/-- Such a loop leaves what is no selector's. -/
theorem Samples.rd (h : Samples k v f) {x : Nat}
    (hx : ∀ j < 2, x ∉ sampleKeys j ++ [K.SEL_BW_ACTIVE j, K.SEL_DAMP_ACTIVE j]) : (s.upto 2 f).rd x = s.rd x := by
  rw [upto_two, h.regs 1 (by decide) _ x (hx 1 (by decide)), h.regs 0 (by decide) _ x (hx 0 (by decide))]

/-- PHASE_ERR of the selectors on the candidate is the sample's; the others keep PHASE_ERR and STATE. -/
theorem Samples.phaseErr (h : Samples k v f) {g : Nat} (hg : g < 2) :
    (s.rd (K.SEL_ACTIVE g) = k → (s.upto 2 f).rd (K.SEL_PHASE_ERR g) = v) ∧
    (s.rd (K.SEL_ACTIVE g) ≠ k → (s.upto 2 f).rd (K.SEL_PHASE_ERR g) = s.rd (K.SEL_PHASE_ERR g) ∧
      (s.upto 2 f).rd (K.SEL_STATE g) = s.rd (K.SEL_STATE g)) := by
  have hone {i m x : Nat} (hi : i < 2) (hm : m < 2) (hne : i ≠ m) (t : State) (hx : x ∈ [K.SEL_ACTIVE m, K.SEL_PHASE_ERR m, K.SEL_STATE m]) :
      (f i t).rd x = t.rd x := by
    refine h.regs i hi t x ?_
    simp only [List.mem_cons, List.not_mem_nil, or_false] at hx
    obtain rfl | rfl | rfl := hx <;> simp (disch := exact keys_ne rfl rfl (by omega)) [sampleKeys, eq_false_of_keys_ne]
  rw [upto_two]
  match g, hg with
  | 0, _ =>
    rw [hone (i := 1) (m := 0) (by decide) (by decide) (by decide) _ (by simp), hone (i := 1) (m := 0) (by decide) (by decide) (by decide) _ (by simp)]
    exact ⟨h.value 0 (by decide) s, fun hne => by rw [h.other 0 s hne]; exact ⟨rfl, rfl⟩⟩
  | 1, _ =>
    have hact : (f 0 s).rd (K.SEL_ACTIVE 1) = s.rd (K.SEL_ACTIVE 1) := hone (m := 1) (by decide) (by decide) (by decide) _ (by simp)
    refine ⟨fun he => h.value 1 (by decide) _ (hact.trans he), fun hne => ?_⟩
    rw [h.other 1 _ (by rwa [hact])]
    exact ⟨hone (m := 1) (by decide) (by decide) (by decide) _ (by simp), hone (m := 1) (by decide) (by decide) (by decide) _ (by simp)⟩

end

end Sys2Proof
end

section
/-! PhaseSamplesReachTheLoop: a sample of a selector, the end of LOCK_HOLD, a phase event of a candidate. -/
namespace Sys2Proof

open Machine

/-- Selector n has no candidate whose phase it could measure. -/
def Phaseless (s : State) (n : Nat) : Prop :=
  let k := if s.rd (K.SEL_MODE n) = 4 then s.rd (K.SEL_FORCE_K n) else s.rd (K.SEL_ACTIVE n)
  k = 255 ∨ s.rd (K.REF_STATE k) = 0

section
variable {s : State} {j : Fin 2} {e : Int}

theorem phaseMeasurement_missing (h : Phaseless s j.val) : exec (.phaseMeasurement j e) s =
    .next (if s.rd (K.SEL_MODE j.val) = 4 ∨ s.rd (K.SEL_MODE j.val) = 1 then s.wr (K.SEL_PHASE_ERR j.val) 0x80000000 else s) :=
  if_pos (by simpa [Phaseless] using h)

theorem phaseMeasurement_present (h : ¬ Phaseless s j.val) : exec (.phaseMeasurement j e) s = .next (s.phaseSample j.val e) :=
  if_neg (by simpa [Phaseless] using h)

/-- Without a phase PHASE_ERR says so in OPEN_LOOP and FORCED. -/
theorem phaseMeasurement_reads_none (h : Phaseless s j.val) (hm : s.rd (K.SEL_MODE j.val) = 4 ∨ s.rd (K.SEL_MODE j.val) = 1) :
    Does (.phaseMeasurement j e) s [(K.SEL_PHASE_ERR j.val, 0x80000000)] [] :=
  does_of_wrs (l := [(K.SEL_PHASE_ERR j.val, 0x80000000)]) ((phaseMeasurement_missing h).trans (by rw [if_pos hm]; rfl)) (List.nodup_singleton _)

theorem phaseMeasurement_changes (h : ¬ Phaseless s j.val) : Changes (.phaseMeasurement j e) s [(K.SEL_PHASE_ERR j.val, ofInt 32 e)]
    [H.lockFrom j.val, K.SEL_STATE j.val, K.SEL_NCO j.val] (unlockEvents s j.val e) :=
  changes_of_touches (phaseMeasurement_present h) rfl (by simpa using phaseSample_phaseErr j.isLt e) (phaseSample_touches j.isLt e)

/-! ## LOCK_HOLD (R102) -/

theorem lockHoldExpiry_locks (hst : s.rd (K.SEL_STATE j.val) = 1) (hf : s.rd (H.lockFrom j.val) ≠ 0)
    (ht : s.rd (H.lockFrom j.val) - 1 + s.rd (K.SEL_LOCK_HOLD j.val) * 1000 ≤ s.now) (hx : s.arrives (s.excursion j.val) = false) :
    Changes (.lockHoldExpiry j) s [(K.SEL_STATE j.val, 2), (H.lockFrom j.val, 0)] [] [(0x1006, selIdx j.val, j.val, 0x102)] := by
  have hmove : ¬ (s.rd (K.SEL_STATE j.val) = 2 ∧ 2 ≠ 1) := by omega
  have hex : exec (.lockHoldExpiry j) s = .next (s.selMove j.val 2) := if_pos ⟨hst, hf, ht, by simp [hx]⟩
  have htouch := selMove_touches j.isLt hmove
  rw [hst] at htouch
  refine changes_of_touches hex rfl ?_ htouch
  simpa using ⟨selMove_state 2, selMove_lockFrom hmove⟩

theorem lockHoldExpiry_idle (h : s.rd (K.SEL_STATE j.val) ≠ 1 ∨ s.rd (H.lockFrom j.val) = 0 ∨
    s.now < s.rd (H.lockFrom j.val) - 1 + s.rd (K.SEL_LOCK_HOLD j.val) * 1000 ∨ s.arrives (s.excursion j.val) = true) :
    Idles (.lockHoldExpiry j) s := by
  refine if_neg ?_
  rintro ⟨hst, hf, ht, hx⟩
  obtain h | h | h | h := h
  · exact h hst
  · exact hf h
  · omega
  · simp [h] at hx

/-! ## A phase event of a candidate (R92, R101) -/

/-- A sample for each selector that uses candidate k. -/
theorem samples_phaseEvent (k : Nat) (e : Int) :
    Samples k (ofInt 32 e) (fun j t => if t.rd (K.SEL_ACTIVE j) = k then t.phaseSample j e else t) where
  other _ _ h := if_neg h
  regs j hj t := by
    split
    · exact ((phaseSample_touches hj e).mono (ks' := sampleKeys j ++ _) (fun _ hk => List.mem_append_left _ hk)).regs
    · exact fun _ _ => rfl
  value j hj t h := by
    rw [if_pos h]
    exact phaseSample_phaseErr hj e

theorem refPhaseEvent_present {c : Fin 54} (h : s.rd (K.REF_STATE c.val) ≠ 0) : Ends (.refPhaseEvent c e) s (fun t =>
    t.rd (H.refLoss c.val) = s.now + s.lossTicks c.val ∧ StoresKept s t ∧
    (∀ g < 2, s.rd (K.SEL_ACTIVE g) = c.val → t.rd (K.SEL_PHASE_ERR g) = ofInt 32 e) ∧
    (∀ g < 2, s.rd (K.SEL_ACTIVE g) ≠ c.val → t.rd (K.SEL_PHASE_ERR g) = s.rd (K.SEL_PHASE_ERR g) ∧ t.rd (K.SEL_STATE g) = s.rd (K.SEL_STATE g))) := by
  have hex : exec (.refPhaseEvent c e) s = .next ((s.lossRestart c.val).upto 2
      (fun j t => if t.rd (K.SEL_ACTIVE j) = c.val then t.phaseSample j e else t)) := if_neg h
  have hs := samples_phaseEvent c.val e
  have hkeep {x : Nat} (hx : x ≠ H.refLoss c.val) : (s.lossRestart c.val).rd x = s.rd x := State.rd_wr_ne _ _ hx
  refine ⟨_, hex, ?_, storesKept_of_exec hex rfl, fun g hg hact => ?_, fun g hg hact => ?_⟩
  · rw [hs.rd]
    · exact State.rd_wr_self ..
    · intro i hi
      simp (disch := exact keys_ne rfl rfl (by omega)) [sampleKeys, eq_false_of_keys_ne]
  · refine (hs.phaseErr hg).1 ?_
    simpa (disch := exact keys_ne rfl rfl (by omega)) only [hkeep] using hact
  · have hp := (hs.phaseErr (s := s.lossRestart c.val) hg).2
    simp (disch := exact keys_ne rfl rfl (by omega)) only [hkeep] at hp
    exact hp hact

end

/-- Settles O29, by whether the selector has a phase to measure; LOCK_HOLD and a candidate's phase event by their conditions. -/
theorem phaseSamplesReachTheLoop : Obligations.PhaseSamplesReachTheLoop := by
  intro j s n k from'
  refine ⟨fun e h => ⟨phaseMeasurement_reads_none h, fun h4 h1 => ?_⟩, fun e h => phaseMeasurement_changes h,
    fun e h hst he => ⟨_, phaseMeasurement_present h, phaseSample_unlocks hst he⟩, lockHoldExpiry_locks, lockHoldExpiry_idle,
    fun c e => ⟨fun h => if_pos h, refPhaseEvent_present⟩⟩
  exact (phaseMeasurement_missing h).trans (by rw [if_neg (fun h => h.elim h4 h1)])

end Sys2Proof
end

section
/-! SUPPORT. Families, outputs and timescales under a phase step (R106, R110 to R112, R116, R117): which registers it may change, which
events it raises. -/
namespace Sys2Proof

open Machine

namespace Touches

variable {ks : List Nat} {ev : List (Nat × Nat × Nat × Nat)} {s t : State}

theorem then_wr (h : Touches ks ev s t) {k v : Nat} (hk : k ∈ ks) : Touches ks ev s (t.wr k v) where
  regs j hj := (State.rd_wr_ne _ _ (fun heq : j = k => hj (by rwa [heq]))).trans (h.regs j hj)
  events := h.events

theorem then_raise (h : Touches ks ev s t) (code src a1 a2 : Nat) :
    Touches ks (ev ++ [(code, src, a1 % 2 ^ 32, a2 % 2 ^ 32)]) s (t.raise code src a1 a2) where
  regs := h.regs
  events := by rw [raisedOf_raise, h.events, List.append_assoc]

end Touches

/-! ## Profiles (R112, R117) -/

section
variable {s : State} {g : Nat}

/-- What another profile writes. -/
def profileRegs (s : State) (g : Nat) : List (Nat × Nat) :=
  [(K.GSYN_OFFSET g, ofInt 32 (s.gNow g).1), (K.GSYN_PHASE_NS g, ofInt 64 (s.gNow g).2), (H.gAt g, s.now)]

theorem gProfile_eq (l : List Piece) : s.gProfile g l = (s.wrs (profileRegs s g)).setVec (H.gProf g) (unpieces l) := by
  have h0 : H.now ≠ K.GSYN_OFFSET g := keys_ne rfl rfl (by omega)
  have h1 : H.now ≠ K.GSYN_PHASE_NS g := keys_ne rfl rfl (by omega)
  have hnow : ((s.wrI 32 (K.GSYN_OFFSET g) (s.gNow g).1).wr64 (K.GSYN_PHASE_NS g) (s.gNow g).2).now = s.now :=
    (State.rd_wr_ne _ _ h1).trans (State.rd_wr_ne _ _ h0)
  simp only [State.gProfile]
  rfl

theorem profileRegs_nodup : ((profileRegs s g).map Prod.fst).Nodup := by
  simp (disch := exact keys_ne rfl rfl (by omega)) [profileRegs, eq_false_of_keys_ne]

theorem gProfile_touches (l : List Piece) : Touches [K.GSYN_OFFSET g, K.GSYN_PHASE_NS g, H.gAt g] [] s (s.gProfile g l) := by
  rw [gProfile_eq]
  exact (Touches.wrs s (profileRegs s g)).trans (.setVec ..)

theorem gProfile_rd {k : Nat} (h0 : k ≠ K.GSYN_OFFSET g) (h1 : k ≠ K.GSYN_PHASE_NS g) (h2 : k ≠ H.gAt g) (l : List Piece) :
    (s.gProfile g l).rd k = s.rd k := (gProfile_touches l).regs k (by simp [h0, h1, h2])

/-- A family stands where it is when another profile starts. -/
theorem gProfile_values (l : List Piece) {p : Nat × Nat} (hp : p ∈ profileRegs s g) : (s.gProfile g l).rd p.1 = p.2 := by
  rw [gProfile_eq, State.rd_setVec, rd_wrs_of_mem profileRegs_nodup hp]

theorem gProfile_vec (l : List Piece) : (s.gProfile g l).vec (H.gProf g) = unpieces l := by
  rw [gProfile_eq, State.vec_setVec_self]

/-! ## Slews (R112) -/

/-- What a slew of family g may change. -/
def slewKeys (g : Nat) : List Nat :=
  [K.GSYN_OFFSET g, K.GSYN_PHASE_NS g, H.gAt g, H.gBase g, H.gDist g, H.gEnd g, H.gStart g, K.GSYN_RAMP_STATUS_STATE g]

theorem slewTo_touches (hg : g < 8) (base dist : Int) (going : Bool) :
    Touches (slewKeys g) [(0x1010, gsynIdx g, g, satI32 dist % 2 ^ 32)] s (s.slewTo g base dist going) := by
  have hraise {t : State} (ht : Touches (slewKeys g) [] s t) : Touches (slewKeys g) [(0x1010, gsynIdx g, g, satI32 dist % 2 ^ 32)] s
      ((t.wr (K.GSYN_RAMP_STATUS_STATE g) 3).raise 0x1010 (gsynIdx g) g (satI32 dist)) := by
    have h := (ht.then_wr (k := K.GSYN_RAMP_STATUS_STATE g) (v := 3) (by simp [slewKeys])).then_raise 0x1010 (gsynIdx g) g (satI32 dist)
    rwa [Nat.mod_eq_of_lt (show g < 2 ^ 32 by omega)] at h
  refine hraise ?_
  have hprofile (l : List Piece) : Touches (slewKeys g) [] s (s.gProfile g l) := (gProfile_touches l).mono (by simp [slewKeys])
  split
  · exact (((hprofile _).then_wr (by simp [slewKeys])).then_wr (by simp [slewKeys])).then_wr (by simp [slewKeys])
  · exact ((((hprofile _).then_wr (by simp [slewKeys])).then_wr (by simp [slewKeys])).then_wr (by simp [slewKeys])).then_wr (by simp [slewKeys])

theorem slewTo_state (base dist : Int) (going : Bool) : (s.slewTo g base dist going).rd (K.GSYN_RAMP_STATUS_STATE g) = 3 := by
  rw [State.slewTo, State.rd_raise, State.rd_wr_self]

/-- A slew that does not extend another starts now. -/
theorem slewTo_start (base dist : Int) : (s.slewTo g base dist false).rd (H.gStart g) = s.now := by
  rw [State.slewTo, State.rd_raise]
  simp (disch := (refine keys_ne rfl rfl ?_; omega)) only [State.wr64, State.wrI, State.now, Bool.false_eq_true, if_false, State.rd_wr_ne,
    State.rd_wr_self, gProfile_rd]

/-- The distance of a slew that starts or is extended. -/
def slewDist (s : State) (g : Nat) (d : Int) : Int :=
  (if s.rd (K.GSYN_RAMP_STATUS_STATE g) = 3 then s.rd64 (H.gDist g) - ((s.gNow g).2 - s.rd64 (K.GSYN_PHASE_NS g) -
    s.rd64 (H.gBase g) * ((s.now - s.rd (H.gAt g) : Nat) : Int) / 1000000) else 0) + d

/-- The offset such a slew is about. -/
def slewAbout (s : State) (g : Nat) : Int := if s.rd (K.GSYN_RAMP_STATUS_STATE g) = 3 then s.rd64 (H.gBase g) else (s.gNow g).1

theorem slewBy_eq (d : Int) : s.slewBy g d =
    let t := s.slewTo g (slewAbout s g) (slewDist s g d) (s.rd (K.GSYN_RAMP_STATUS_STATE g) == 3)
    t.wr64 (K.GSYN_PHASE_NS g) (t.rd64 (K.GSYN_PHASE_NS g) - d) := by
  simp only [State.slewBy, slewAbout, slewDist, beq_iff_eq]
  split <;> rfl

theorem slewBy_touches (hg : g < 8) (d : Int) :
    Touches (slewKeys g) [(0x1010, gsynIdx g, g, satI32 (slewDist s g d) % 2 ^ 32)] s (s.slewBy g d) := by
  rw [slewBy_eq]
  exact (slewTo_touches hg ..).then_wr (by simp [slewKeys])

theorem slewBy_state (d : Int) : (s.slewBy g d).rd (K.GSYN_RAMP_STATUS_STATE g) = 3 := by
  have hne : K.GSYN_RAMP_STATUS_STATE g ≠ K.GSYN_PHASE_NS g := keys_ne rfl rfl (by omega)
  rw [slewBy_eq]
  exact (State.rd_wr_ne _ _ hne).trans (slewTo_state ..)

theorem slewBy_start (h : s.rd (K.GSYN_RAMP_STATUS_STATE g) ≠ 3) (d : Int) : (s.slewBy g d).rd (H.gStart g) = s.now := by
  have hne : H.gStart g ≠ K.GSYN_PHASE_NS g := keys_ne rfl rfl (by omega)
  have hgoing : (s.rd (K.GSYN_RAMP_STATUS_STATE g) == 3) = false := by simpa using h
  rw [slewBy_eq, hgoing]
  exact (State.rd_wr_ne _ _ hne).trans (slewTo_start ..)

/-! ## A step that reaches a family (R110 to R112, R116, R117, R131) -/

/-- The registers of a LOCKED family, and the adjusted frames of outputs, that a step may change. -/
def FamReg (g k : Nat) : Prop := k ∈ slewKeys g ∨ k = H.gWait g ∨ ∃ n < 48, k = H.outAdj n ∨ k = H.outAdjOn n

/-- The events a step of a family may raise. -/
def famCode (c : Nat) : Prop := c = 0x1010

theorem Confined.of_slew {d : Int} (hg : g < 8) : Confined (FamReg g) famCode s (s.slewBy g d) :=
  .of_touches (slewBy_touches hg d) (fun _ hk => .inl hk) (by simp [famCode])

theorem outStepBy_confined {n : Nat} (hn : n < 48) (f : Nat) (d : Int) (here : Bool) : Confined (FamReg g) famCode s (s.outStepBy n f d here) := by
  have hadj (t : State) : Confined (FamReg g) famCode t (t.adjustFrame n) :=
    ((Confined.refl t).wr _ (.inr (.inr ⟨n, hn, .inl rfl⟩))).wr _ (.inr (.inr ⟨n, hn, .inr rfl⟩))
  have hvec (l : List Nat) : Confined (FamReg g) famCode s (s.setVec (H.outStep n) l) := (Confined.refl s).setVec _ _
  have hframe (m : Nat) (l : List Nat) : Confined (FamReg g) famCode s
      (if m = 0 then (s.setVec (H.outStep n) l).adjustFrame n else s.setVec (H.outStep n) l) := by
    split
    · exact (hvec l).trans (hadj _)
    · exact hvec l
  exact hframe _ _

/-- A family without lock keeps a step. -/
theorem famStepAt_unlocked (h : s.rd (K.GSYN_STATE g) ≠ 3) (d : Int) (here : Bool) :
    s.famStepAt g d here = if d.natAbs ≤ 3 then s else s.wr64 (H.gLate g) (s.rd64 (H.gLate g) + d) := by
  simp only [State.famStepAt, if_pos h]

theorem famStepAt_locked (hg : g < 8) (h : s.rd (K.GSYN_STATE g) = 3) (d : Int) (here : Bool) :
    Confined (FamReg g) famCode s (s.famStepAt g d here) := by
  simp only [State.famStepAt, if_neg (not_not_intro h)]
  split
  · exact .refl s
  · split
    · refine (Confined.refl s).upto 48 (fun n hn t => ?_)
      split
      · exact outStepBy_confined hn ..
      · exact .refl t
    · split
      · exact (Confined.refl s).wr _ (.inr (.inl rfl))
      · exact .of_slew hg

/-- The registers of a family that a step may change, whatever its state. -/
def FamRegs (g k : Nat) : Prop := k = H.gLate g ∨ FamReg g k

theorem famStepAt_confined (hg : g < 8) (d : Int) (here : Bool) : Confined (FamRegs g) famCode s (s.famStepAt g d here) := by
  by_cases h : s.rd (K.GSYN_STATE g) = 3
  · exact (famStepAt_locked hg h d here).mono (fun _ hk => .inr hk) (fun _ hc => hc)
  · rw [famStepAt_unlocked h]
    split
    · exact .refl s
    · exact (Confined.refl s).wr _ (.inl rfl)

end

/-! ## Timescales (R110, R112, R306, R326) -/

section
variable {s : State}

/-- What a step of the time of day may change of the converters. -/
def TodReg (k : Nat) : Prop := ∃ x < 64, k = H.frcBase x ∨ k = H.frcShown x ∨ k = H.frcLastB x

theorem shiftKey_confined {k : Nat} (hk : TodReg k) (d : Int) : Confined TodReg famCode s (s.shiftKey k d) := by
  simp only [State.shiftKey]
  split
  · exact .refl s
  · exact (Confined.refl s).wr _ hk

theorem todStep_confined (d : Int) : Confined TodReg famCode s (s.todStep d) := by
  have hstart (l : List (Nat × List Nat)) : Confined TodReg famCode s { s.wckStep d with vecs := l } :=
    .of_touches (ks := []) (ev := []) ⟨fun _ _ => rfl, (List.append_nil _).symm⟩ (by simp) (by simp)
  refine (hstart _).upto 64 (fun x hx t => ?_)
  split
  · exact .refl t
  · exact ((((Confined.refl t).setVec _ _).trans (shiftKey_confined ⟨x, hx, .inl rfl⟩ d)).trans
      (shiftKey_confined ⟨x, hx, .inr (.inl rfl)⟩ d)).trans (shiftKey_confined ⟨x, hx, .inr (.inr rfl)⟩ d)

theorem tsMove_confined (j : Nat) (d : Int) : Confined (fun k => k = H.tsNs j ∨ TodReg k) famCode s (s.tsMove j d) := by
  have hw (v : Nat) : Confined (fun k => k = H.tsNs j ∨ TodReg k) famCode s (s.wr (H.tsNs j) v) := (Confined.refl s).wr v (.inl rfl)
  simp only [State.tsMove]
  split
  · exact hw _
  · exact (hw _).trans ((todStep_confined d).mono (fun _ hk => .inr hk) (fun _ hc => hc))

/-- TS[j] moves by the step. -/
theorem tsMove_tsNs {j : Nat} (hj : j < 2) (d : Int) : (s.tsMove j d).rd (H.tsNs j) = ((s.rd (H.tsNs j) : Int) + d).toNat := by
  simp only [State.tsMove]
  split
  · rw [State.rd_wr_self]
  · rw [(todStep_confined d).rd, State.rd_wr_self]
    rintro ⟨x, hx, h | h | h⟩ <;> simp only [H.tsNs, H.frcBase, H.frcShown, H.frcLastB, H.hk] at h <;> omega

theorem famSteps_confined (j : Nat) (d : Int) : Confined (fun k => ∃ g < 8, FamRegs g k) famCode s (s.famSteps j d) := by
  refine (Confined.refl s).upto 8 (fun g hg t => ?_)
  split
  · exact (famStepAt_confined hg d false).mono (fun _ hk => ⟨g, hg, hk⟩) (fun _ hc => hc)
  · exact .refl t

/-- What a phase step of selector j may change. -/
def PhaseReg (j k : Nat) : Prop := k = H.tsNs j ∨ k = K.SEL_LAST_STEP j ∨ TodReg k ∨ ∃ g < 8, FamRegs g k

/-- The events it may raise. -/
def phaseCode (c : Nat) : Prop := c = 0x1008 ∨ c = 0x1010

theorem phaseStep_confined (j : Nat) (d : Int) : Confined (PhaseReg j) phaseCode s (s.phaseStep j d) := by
  have hts : Confined (PhaseReg j) phaseCode s (s.tsMove j d) :=
    (tsMove_confined j d).mono (fun _ hk => hk.elim .inl (fun h => .inr (.inr (.inl h)))) (fun _ hc => .inr hc)
  exact (((hts.wr _ (.inr (.inl rfl))).raise _ _ _ (.inl rfl))).trans
    ((famSteps_confined j d).mono (fun _ hk => .inr (.inr (.inr hk))) (fun _ hc => .inr hc))

/-- An address that none of the registers of families, adjusted frames, converters and timescales has. -/
theorem not_phaseReg {j k a b : Nat} (hk : k = a + b)
    (h : (a + b < 0x9A0000 ∨ 0x9B0000 ≤ a + b) ∧ a + b < 16777216 ∧ a + b ≠ (0x9800 + 0x20 * j) * 256 + 17) : ¬ PhaseReg j k := by
  subst hk
  simp only [PhaseReg, TodReg, FamRegs, FamReg, slewKeys, List.mem_cons, List.not_mem_nil, or_false, K.SEL_LAST_STEP, K.GSYN_OFFSET, K.GSYN_PHASE_NS,
    K.GSYN_RAMP_STATUS_STATE, K.at', H.gAt, H.gBase, H.gDist, H.gEnd, H.gStart, H.gWait, H.gLate, H.outAdj, H.outAdjOn, H.tsNs, H.frcBase,
    H.frcShown, H.frcLastB, H.hk]
  rintro (h | h | ⟨x, hx, h⟩ | ⟨g, hg, h | (h | h | ⟨n, hn, h⟩)⟩) <;> omega

/-- A phase step of a selector is recorded as an event. -/
theorem phaseStep_event {j : Nat} (hj : j < 2) (d : Int) : ∃ x, (0x1008, selIdx j, j, x) ∈ raisedOf (s.phaseStep j d) := by
  refine ⟨satI32 d % 2 ^ 32, (famSteps_confined j d).mem_raisedOf ?_⟩
  rw [raisedOf_raise, Nat.mod_eq_of_lt (show j < 2 ^ 32 by omega)]
  exact List.mem_append_right _ (List.mem_singleton_self _)

end

end Sys2Proof
end

section
/-! PtpPorts: a Sync by the port's state and the candidate's rate, an Announce by its domain and grandmaster, and its timeout. -/
namespace Sys2Proof

open Machine

/-- The order in which the changed registers are named does not matter. -/
theorem Changes.of_mem {c : Instr} {s : State} {w w' : List (Nat × Nat)} {others : List Nat} {ev : List (Nat × Nat × Nat × Nat)}
    (h : Changes c s w others ev) (hw : ∀ x, x ∈ w' ↔ x ∈ w) : Changes c s w' others ev := by
  obtain ⟨t, hex, hval, hregs, hrest⟩ := h
  refine ⟨t, hex, fun p hp => hval p ((hw p).mp hp), fun k hk => hregs k (fun hmem => hk ?_), hrest⟩
  simp only [List.mem_append, List.mem_map] at hmem ⊢
  obtain ⟨p, hp, rfl⟩ | hmem := hmem
  · exact .inl ⟨p, (hw p).mpr hp, rfl⟩
  · exact .inr hmem

section
variable {s : State}

/-! ## Port states (R121) -/

theorem ptpMove_state (p new : Nat) : (s.ptpMove p new).rd (K.REF_PTP_PORT_STATE (50 + p)) = new := by
  simp only [State.ptpMove]
  split
  · assumption
  · rw [State.rd_raise, State.rd_wr_self]

theorem ptpMove_rd {p new k : Nat} (h : k ≠ K.REF_PTP_PORT_STATE (50 + p)) : (s.ptpMove p new).rd k = s.rd k := by
  simp only [State.ptpMove]
  split
  · rfl
  · rw [State.rd_raise, State.rd_wr_ne _ _ h]

theorem ptpMove_touches {p new : Nat} (hp : p < 2) (h : s.rd (K.REF_PTP_PORT_STATE (50 + p)) ≠ new) :
    Touches [K.REF_PTP_PORT_STATE (50 + p)] [(0x1009, refIdx (50 + p), p, (s.rd (K.REF_PTP_PORT_STATE (50 + p)) * 256 + new) % 2 ^ 32)] s
      (s.ptpMove p new) := by
  have ht := (Touches.wr s (K.REF_PTP_PORT_STATE (50 + p)) new).trans
    (.raise _ 0x1009 (refIdx (50 + p)) p (s.rd (K.REF_PTP_PORT_STATE (50 + p)) * 256 + new))
  rw [Nat.mod_eq_of_lt (show p < 2 ^ 32 by omega)] at ht
  simp only [State.ptpMove, if_neg h]
  exact ht

/-! ## A Sync rate (R92, R93) -/

/-- The candidate of a port at a Sync of `num` a second: it stays, or is lost and found at the new rate. -/
def rerated (s : State) (k num : Nat) : State :=
  if s.rd (K.REF_STATE k) = 0 then s
  else if s.rd (K.REF_NOM_NUM k) = num then s.lossRestart k
  else ((s.refLose k).wrs [(K.REF_NOM_NUM k, num), (K.REF_NOM_DEN k, 1)]).refFound k

/-- What the loss and the new detection of a candidate may change. -/
def rerateKeys (k : Nat) : List Nat :=
  (K.REF_STATE k :: lossKeys k ++ [K.SEL_STATUS 0, K.SEL_STATUS 1]) ++ (signalKeys k ++ [H.refLoss k, K.REF_STATE k, H.refTimer k])

variable {k num : Nat}

/-- A candidate that is found at another rate. -/
theorem rerated_appears (hk : k < 54) : Appears [(K.REF_NOM_NUM k, num), (K.REF_NOM_DEN k, 1)] k (s.refLose k)
    (((s.refLose k).wrs [(K.REF_NOM_NUM k, num), (K.REF_NOM_DEN k, 1)]).refFound k) := by
  refine refFound_appears hk refLose_state (by simp [signalKeys]) ?_
  simp (disch := (refine keys_ne rfl rfl ?_; omega)) [eq_false_of_keys_ne]

theorem rerated_rd (hk : k < 54) {x : Nat} (hx : x ∉ rerateKeys k) : (rerated s k num).rd x = s.rd x := by
  simp only [rerateKeys, List.mem_append (s := K.REF_STATE k :: lossKeys k ++ _), not_or] at hx
  rw [rerated]
  split
  · rfl
  · split
    · refine State.rd_wr_ne _ _ (fun h => hx.2 ?_)
      simp [h]
    · rw [(rerated_appears hk).rd (by simp [signalKeys]) hx.2, refLose_rd hk hx.1]

theorem rerated_absent (h : s.rd (K.REF_STATE k) = 0) : (rerated s k num).rd (K.REF_STATE k) = 0 := by rwa [rerated, if_pos h]

theorem rerated_num (hk : k < 54) (h : s.rd (K.REF_STATE k) ≠ 0) : (rerated s k num).rd (K.REF_NOM_NUM k) = num := by
  rw [rerated, if_neg h]
  split
  · next hn =>
    refine (State.rd_wr_ne _ _ ?_).trans hn
    refine keys_ne rfl rfl ?_
    omega
  · exact (rerated_appears hk).signal (K.REF_NOM_NUM k, num) (by simp)

theorem rerated_same (h : s.rd (K.REF_STATE k) ≠ 0) (hn : s.rd (K.REF_NOM_NUM k) = num) :
    (rerated s k num).rd (K.REF_STATE k) = s.rd (K.REF_STATE k) := by
  rw [rerated, if_neg h, if_pos hn]
  refine State.rd_wr_ne _ _ ?_
  refine keys_ne rfl rfl ?_
  omega

theorem rerated_other (hk : k < 54) (h : s.rd (K.REF_STATE k) ≠ 0) (hn : s.rd (K.REF_NOM_NUM k) ≠ num) :
    (rerated s k num).rd (K.REF_STATE k) = foundState s k := by
  rw [rerated, if_neg h, if_neg hn, (rerated_appears hk).state, foundState, foundState, refLose_rd hk]
  simp (disch := (refine keys_ne rfl rfl ?_; omega)) [lossKeys, eq_false_of_keys_ne]

/-! ## PTP_SYNC (R92, R93, R101, R108) -/

/-- A sample of PTP candidate k for selector j, when it uses the candidate, after the loop's limits are set anew. -/
def syncSample (k : Nat) (e : Int) (j : Nat) (t : State) : State :=
  if t.rd (K.SEL_ACTIVE j) = k then (t.loopParams j).phaseSample j e else t

theorem samples_sync (k : Nat) (e : Int) : Samples k (ofInt 32 e) (syncSample k e) where
  other _ _ h := if_neg h
  regs j hj t := by
    have hloop : Touches [K.SEL_BW_ACTIVE j, K.SEL_DAMP_ACTIVE j] [] t (t.loopParams j) := by
      simp only [State.loopParams]
      split
      · exact .refl ..
      · exact .wrs t [(K.SEL_BW_ACTIVE j, t.bwCode (t.rd (K.SEL_ACTIVE j))), (K.SEL_DAMP_ACTIVE j, t.rd (K.REF_DAMP (t.rd (K.SEL_ACTIVE j))))]
    rw [syncSample]
    split
    · refine ((hloop.trans (phaseSample_touches hj e)).mono (fun x hx => ?_)).regs
      rw [List.mem_append] at hx ⊢
      exact hx.symm
    · exact fun _ _ => rfl
  value j hj t h := by
    rw [syncSample, if_pos h]
    exact phaseSample_phaseErr hj e

variable {p : Fin 2} {off delay log : Int}

/-- What a Sync tells of its port. -/
def synced (s : State) (p : Nat) (off delay log : Int) : State :=
  (((s.wrI 32 (K.REF_PTP_OFFSET_NS (50 + p)) off).wrI 32 (K.REF_PTP_MEAN_DELAY (50 + p)) delay).wrI 8 (K.REF_PTP_SYNC_LOG (50 + p)) log).ptpMove p 3

/-- The state after a Sync that its port takes. -/
def syncTaken (s : State) (p : Nat) (off delay log : Int) : State :=
  (rerated (synced s p off delay log) (50 + p) (2 ^ (-log).toNat)).upto 2 (syncSample (50 + p) (-off))

theorem exec_ptpSync (h2 : 2 ≤ s.rd (K.REF_PTP_PORT_STATE (50 + p.val))) (h4 : s.rd (K.REF_PTP_PORT_STATE (50 + p.val)) ≠ 4) (hlo : -7 ≤ log)
    (hhi : log ≤ 0) : exec (.ptpSync p off delay log) s = .next (syncTaken s p.val off delay log) :=
  if_neg (by omega)

theorem ptpSync_idle (h : s.rd (K.REF_PTP_PORT_STATE (50 + p.val)) < 2 ∨ s.rd (K.REF_PTP_PORT_STATE (50 + p.val)) = 4 ∨ log < -7 ∨ 0 < log) :
    Idles (.ptpSync p off delay log) s := if_pos h

theorem synced_rd {x : Nat} (h0 : x ≠ K.REF_PTP_OFFSET_NS (50 + p)) (h1 : x ≠ K.REF_PTP_MEAN_DELAY (50 + p)) (h2 : x ≠ K.REF_PTP_SYNC_LOG (50 + p))
    (h3 : x ≠ K.REF_PTP_PORT_STATE (50 + p)) : (synced s p.val off delay log).rd x = s.rd x := by
  rw [synced, ptpMove_rd h3, State.wrI, State.wrI, State.wrI, State.rd_wr_ne _ _ h2, State.rd_wr_ne _ _ h1, State.rd_wr_ne _ _ h0]

/-- A Sync gives its port offset, path delay and rate, and makes it SLAVE. -/
theorem synced_port : (synced s p.val off delay log).rd (K.REF_PTP_PORT_STATE (50 + p.val)) = 3 ∧
    (synced s p.val off delay log).rd (K.REF_PTP_OFFSET_NS (50 + p.val)) = ofInt 32 off ∧
    (synced s p.val off delay log).rd (K.REF_PTP_MEAN_DELAY (50 + p.val)) = ofInt 32 delay ∧
    (synced s p.val off delay log).rd (K.REF_PTP_SYNC_LOG (50 + p.val)) = ofInt 8 log := by
  refine ⟨ptpMove_state _ _, ?_, ?_, ?_⟩ <;>
    simp (disch := (refine keys_ne rfl rfl ?_; omega)) only [synced, ptpMove_rd, State.wrI, State.rd_wr_ne, State.rd_wr_self]

/-- The candidate at a Sync is as before it, but for what the Sync tells. -/
theorem synced_cand {x : Nat} (hx : x ∈ [K.REF_STATE (50 + p.val), K.REF_NOM_NUM (50 + p.val), H.refQual (50 + p.val)]) :
    (synced s p.val off delay log).rd x = s.rd x := by
  simp only [List.mem_cons, List.not_mem_nil, or_false] at hx
  apply synced_rd <;> obtain rfl | rfl | rfl := hx <;> (refine keys_ne rfl rfl ?_; omega)

/-- What belongs to no selector is after a Sync as after the candidate's new detection. -/
theorem syncTaken_rd {x : Nat} (hx : ∀ j < 2, x ∉ sampleKeys j ++ [K.SEL_BW_ACTIVE j, K.SEL_DAMP_ACTIVE j]) :
    (syncTaken s p.val off delay log).rd x = (rerated (synced s p.val off delay log) (50 + p.val) (2 ^ (-log).toNat)).rd x :=
  (samples_sync (50 + p.val) (-off)).rd hx

theorem syncTaken_port {x : Nat} (hx : x ∈ [K.REF_PTP_PORT_STATE (50 + p.val), K.REF_PTP_OFFSET_NS (50 + p.val),
    K.REF_PTP_MEAN_DELAY (50 + p.val), K.REF_PTP_SYNC_LOG (50 + p.val)]) :
    (syncTaken s p.val off delay log).rd x = (synced s p.val off delay log).rd x := by
  simp only [List.mem_cons, List.not_mem_nil, or_false] at hx
  rw [syncTaken_rd, rerated_rd (by omega)] <;> obtain rfl | rfl | rfl | rfl := hx <;>
    simp (disch := (refine keys_ne rfl rfl ?_; omega)) [sampleKeys, rerateKeys, lossKeys, signalKeys, eq_false_of_keys_ne]

theorem syncTaken_cand {x : Nat} (hx : x ∈ [K.REF_STATE (50 + p.val), K.REF_NOM_NUM (50 + p.val)]) :
    (syncTaken s p.val off delay log).rd x = (rerated (synced s p.val off delay log) (50 + p.val) (2 ^ (-log).toNat)).rd x := by
  simp only [List.mem_cons, List.not_mem_nil, or_false] at hx
  apply syncTaken_rd
  obtain rfl | rfl := hx <;> simp (disch := (refine keys_ne rfl rfl ?_; omega)) [sampleKeys, eq_false_of_keys_ne]

/-- The selectors when the samples come are as before the Sync. -/
theorem synced_sel {j x : Nat} (hx : x ∈ [K.SEL_ACTIVE j, K.SEL_PHASE_ERR j]) :
    (rerated (synced s p.val off delay log) (50 + p.val) (2 ^ (-log).toNat)).rd x = s.rd x := by
  simp only [List.mem_cons, List.not_mem_nil, or_false] at hx
  rw [rerated_rd (by omega), synced_rd] <;> obtain rfl | rfl := hx <;>
    simp (disch := (refine keys_ne rfl rfl ?_; omega)) [rerateKeys, lossKeys, signalKeys, eq_false_of_keys_ne]

/-- The candidate after a Sync: it stays ABSENT, stays at its rate, or is found at another. -/
theorem syncTaken_state : let k := 50 + p.val
    let t := syncTaken s p.val off delay log
    (s.rd (K.REF_STATE k) = 0 → t.rd (K.REF_STATE k) = 0) ∧ (s.rd (K.REF_STATE k) ≠ 0 → t.rd (K.REF_NOM_NUM k) = 2 ^ (-log).toNat) ∧
    (s.rd (K.REF_STATE k) ≠ 0 → s.rd (K.REF_NOM_NUM k) = 2 ^ (-log).toNat → t.rd (K.REF_STATE k) = s.rd (K.REF_STATE k)) ∧
    (s.rd (K.REF_STATE k) ≠ 0 → s.rd (K.REF_NOM_NUM k) ≠ 2 ^ (-log).toNat → t.rd (K.REF_STATE k) = foundState s k) := by
  intro k t
  have hk : k < 54 := by omega
  have hstate : (synced s p.val off delay log).rd (K.REF_STATE k) = s.rd (K.REF_STATE k) := synced_cand (by simp [k])
  have hnum : (synced s p.val off delay log).rd (K.REF_NOM_NUM k) = s.rd (K.REF_NOM_NUM k) := synced_cand (by simp [k])
  have hqual : foundState (synced s p.val off delay log) k = foundState s k :=
    congrArg (fun q => if q = 0 then 1 else 3) (synced_cand (by simp [k]))
  have hcand : t.rd (K.REF_STATE k) = _ := syncTaken_cand (by simp [k])
  have hpresent (h : s.rd (K.REF_STATE k) ≠ 0) : (synced s p.val off delay log).rd (K.REF_STATE k) ≠ 0 := fun h0 => h (hstate.symm.trans h0)
  refine ⟨fun h => hcand.trans (rerated_absent (hstate.trans h)), fun h => ?_, fun h hn => ?_, fun h hn => ?_⟩
  · exact (syncTaken_cand (by simp [k])).trans (rerated_num hk (hpresent h))
  · exact hcand.trans ((rerated_same (hpresent h) (hnum.trans hn)).trans hstate)
  · exact hcand.trans ((rerated_other hk (hpresent h) (fun h0 => hn (hnum.symm.trans h0))).trans hqual)

/-- The samples of a Sync. -/
theorem syncTaken_phaseErr {j : Nat} (hj : j < 2) :
    (s.rd (K.SEL_ACTIVE j) = 50 + p.val → (syncTaken s p.val off delay log).rd (K.SEL_PHASE_ERR j) = ofInt 32 (-off)) ∧
    (s.rd (K.SEL_ACTIVE j) ≠ 50 + p.val → (syncTaken s p.val off delay log).rd (K.SEL_PHASE_ERR j) = s.rd (K.SEL_PHASE_ERR j)) := by
  have h := (samples_sync (50 + p.val) (-off)).phaseErr (s := rerated (synced s p.val off delay log) (50 + p.val) (2 ^ (-log).toNat)) hj
  rw [synced_sel (j := j) (by simp), synced_sel (j := j) (by simp)] at h
  exact ⟨h.1, fun hne => (h.2 hne).1⟩

/-- A Sync that its port takes. -/
theorem ptpSync_taken (h2 : 2 ≤ s.rd (K.REF_PTP_PORT_STATE (50 + p.val))) (h4 : s.rd (K.REF_PTP_PORT_STATE (50 + p.val)) ≠ 4) (hlo : -7 ≤ log)
    (hhi : log ≤ 0) : Ends (.ptpSync p off delay log) s (fun t => t.rd (K.REF_PTP_PORT_STATE (50 + p.val)) = 3 ∧
      t.rd (K.REF_PTP_OFFSET_NS (50 + p.val)) = ofInt 32 off ∧ t.rd (K.REF_PTP_MEAN_DELAY (50 + p.val)) = ofInt 32 delay ∧
      t.rd (K.REF_PTP_SYNC_LOG (50 + p.val)) = ofInt 8 log ∧ StoresKept s t ∧ t = syncTaken s p.val off delay log) := by
  have hex := exec_ptpSync (off := off) (delay := delay) h2 h4 hlo hhi
  obtain ⟨hport, hoff, hdelay, hlog⟩ := synced_port (s := s) (p := p) (off := off) (delay := delay) (log := log)
  exact ⟨_, hex, (syncTaken_port (by simp)).trans hport, (syncTaken_port (by simp)).trans hoff, (syncTaken_port (by simp)).trans hdelay,
    (syncTaken_port (by simp)).trans hlog, storesKept_of_exec hex rfl, rfl⟩

/-! ## PTP_ANNOUNCE (R107 to R109) -/

/-- What the state keeps of an Announce. -/
def announced (s : State) (p : Nat) (key gm : Nat) (utc : UtcData) (log : Int) : List (Nat × Nat) :=
  [(H.ptpBest p, key), (H.annEnd p, s.now + s.rd (K.REF_PTP_ANN_TIMEOUT (50 + p)) *
      (if log < 0 then 1000000 / 2 ^ (-log).toNat else 1000000 * 2 ^ log.toNat)), (K.REF_PTP_GM_ID (50 + p), gm),
    (H.ptpGm p, gm + 1), (H.ptpUtc p, ofInt 16 utc.offset + 1), (H.ptpJumpAt p, utc.leapAt), (H.ptpJump p, ofInt 16 utc.leap)]

/-- The state after an Announce that its port takes, before a new grandmaster is told. -/
def announceTaken (s : State) (p : Nat) (key gm : Nat) (utc : UtcData) (log : Int) : State :=
  let t := s.wrs (announced s p key gm utc log)
  (if t.rd (K.REF_PTP_PORT_STATE (50 + p)) = 1 then t.ptpMove p 2 else t).utcFollow

variable {domain p1 cls acc var p2 gm steps : Nat} {utc : UtcData} {d : Int}

/-- An Announce that its port takes as the first of a grandmaster. -/
theorem exec_ptpAnnounce (h0 : s.rd (K.REF_PTP_PORT_STATE (50 + p.val)) ≠ 0) (h4 : s.rd (K.REF_PTP_PORT_STATE (50 + p.val)) ≠ 4)
    (hd : domain = s.rd (K.REF_PTP_DOMAIN (50 + p.val))) (hlo : -3 ≤ log) (hhi : log ≤ 1) (hend : s.rd (H.annEnd p.val) = 0) :
    exec (.ptpAnnounce p domain p1 cls acc var p2 gm steps utc log d) s =
      let t := announceTaken s p.val (bmcaKey p1 cls acc var p2 gm steps) gm utc log
      .next (if s.rd (H.ptpGm p.val) ≠ 0 ∧ s.rd (H.ptpGm p.val) ≠ gm + 1 then (t.raise 0x100A (refIdx (50 + p.val)) p.val gm).upto 2 (fun j t =>
        if t.rd (K.SEL_ACTIVE j) = 50 + p.val ∧ t.rd (K.SEL_LOCK_PHASE j) < d.natAbs then t.phaseStep j d else t) else t) := by
  show execPtpAnnounce .. = _
  rw [execPtpAnnounce, if_neg (by omega)]
  dsimp only
  rw [if_neg (by simp [hend])]
  by_cases hnew : s.rd (H.ptpGm p.val) ≠ 0 ∧ s.rd (H.ptpGm p.val) ≠ gm + 1
  · rw [if_pos (by simpa using hnew), if_pos hnew]
    rfl
  · rw [if_neg (by simpa using hnew), if_neg hnew]
    rfl

theorem ptpAnnounce_idle (h : s.rd (K.REF_PTP_PORT_STATE (50 + p.val)) = 0 ∨ s.rd (K.REF_PTP_PORT_STATE (50 + p.val)) = 4 ∨
    domain ≠ s.rd (K.REF_PTP_DOMAIN (50 + p.val)) ∨ log < -3 ∨ 1 < log ∨ s.rd (H.annEnd p.val) ≠ 0 ∧ gm ≠ s.rd (K.REF_PTP_GM_ID (50 + p.val)) ∧
      s.rd (H.ptpBest p.val) ≤ bmcaKey p1 cls acc var p2 gm steps) : Idles (.ptpAnnounce p domain p1 cls acc var p2 gm steps utc log d) s := by
  show execPtpAnnounce .. = _
  rw [execPtpAnnounce]
  obtain h | h | h | h | h | h := h
  · exact if_pos (.inl h)
  · exact if_pos (.inr (.inl h))
  · exact if_pos (.inr (.inr (.inl h)))
  · exact if_pos (.inr (.inr (.inr (.inl h))))
  · exact if_pos (.inr (.inr (.inr (.inr h))))
  · split
    · rfl
    · exact if_pos (by simpa using h)

theorem announced_nodup {key : Nat} : ((announced s p.val key gm utc log).map Prod.fst).Nodup := by
  simp (disch := (refine keys_ne rfl rfl ?_; omega)) [announced, eq_false_of_keys_ne]

theorem utcFollow_touches : Touches [K.TOD_UTC_OFFSET] [] s s.utcFollow := by
  simp only [State.utcFollow]
  split
  · exact .wr ..
  · exact .refl ..

/-- What the state keeps of an Announce stands when its port has moved. -/
theorem announceTaken_rd {key : Nat} {x : Nat × Nat} (hx : x ∈ announced s p.val key gm utc log) :
    (announceTaken s p.val key gm utc log).rd x.1 = x.2 := by
  have hne : x.1 ≠ K.REF_PTP_PORT_STATE (50 + p.val) ∧ x.1 ∉ [K.TOD_UTC_OFFSET] := by
    simp only [announced, List.mem_cons, List.not_mem_nil, or_false] at hx
    obtain rfl | rfl | rfl | rfl | rfl | rfl | rfl := hx <;>
      simp (disch := (refine keys_ne rfl rfl ?_; omega)) [eq_false_of_keys_ne]
  have hval := rd_wrs_of_mem (announced_nodup (s := s) (p := p)) hx s
  simp only [announceTaken]
  rw [utcFollow_touches.regs _ hne.2]
  split
  · rwa [ptpMove_rd hne.1]
  · exact hval

/-- Writing what an Announce says leaves the port's state. -/
theorem announced_port {key : Nat} : (s.wrs (announced s p.val key gm utc log)).rd (K.REF_PTP_PORT_STATE (50 + p.val)) =
    s.rd (K.REF_PTP_PORT_STATE (50 + p.val)) := by
  refine State.rd_wrs_ne _ _ ?_
  simp (disch := (refine keys_ne rfl rfl ?_; omega)) [announced, eq_false_of_keys_ne]

/-- The first Announce at a LISTENING port. -/
theorem ptpAnnounce_first {key : Nat} {c : Instr} (hc : keepsStores c = true) (h1 : s.rd (K.REF_PTP_PORT_STATE (50 + p.val)) = 1)
    (hex : exec c s = .next (announceTaken s p.val key gm utc log)) :
    Changes c s ((K.REF_PTP_PORT_STATE (50 + p.val), 2) :: announced s p.val key gm utc log) [K.TOD_UTC_OFFSET]
      [(0x1009, refIdx (50 + p.val), p.val, 0x102)] := by
  have hport := announced_port (s := s) (p := p) (key := key) (gm := gm) (utc := utc) (log := log)
  rw [h1] at hport
  have hmove := ptpMove_touches p.isLt (new := 2) (by rw [hport]; decide)
  rw [hport] at hmove
  have hst : announceTaken s p.val key gm utc log = ((s.wrs (announced s p.val key gm utc log)).ptpMove p.val 2).utcFollow := by
    simp only [announceTaken, if_pos hport]
  have ht := ((Touches.wrs s (announced s p.val key gm utc log)).trans hmove).trans utcFollow_touches
  rw [← hst] at ht
  refine changes_of_touches hex hc (fun x hx => ?_) ⟨fun k hk => ht.regs k ?_, by simpa using ht.events⟩
  · obtain rfl | hx := List.mem_cons.mp hx
    · rw [hst, utcFollow_touches.regs]
      · exact ptpMove_state ..
      · simp (disch := (refine keys_ne rfl rfl ?_; omega)) [eq_false_of_keys_ne]
    · exact announceTaken_rd hx
  · simp only [List.map_cons, List.cons_append, List.mem_cons, List.mem_append, List.not_mem_nil, or_false, not_or] at hk ⊢
    tauto

/-- A new grandmaster is told, and the time it brings may be a step. -/
theorem ptpAnnounce_new {key : Nat} {c : Instr} (hc : keepsStores c = true)
    (hex : exec c s = .next (((announceTaken s p.val key gm utc log).raise 0x100A (refIdx (50 + p.val)) p.val gm).upto 2 (fun j t =>
        if t.rd (K.SEL_ACTIVE j) = 50 + p.val ∧ t.rd (K.SEL_LOCK_PHASE j) < d.natAbs then t.phaseStep j d else t))) :
    Ends c s (fun t => t.rd (K.REF_PTP_GM_ID (50 + p.val)) = gm ∧ (0x100A, refIdx (50 + p.val), p.val, gm % 2 ^ 32) ∈ raisedOf t ∧ StoresKept s t) := by
  have hsteps (u : State) : Confined (fun k => ∃ j < 2, PhaseReg j k) phaseCode u (u.upto 2 (fun j t =>
      if t.rd (K.SEL_ACTIVE j) = 50 + p.val ∧ t.rd (K.SEL_LOCK_PHASE j) < d.natAbs then t.phaseStep j d else t)) := by
    refine (Confined.refl u).upto 2 (fun j hj t => ?_)
    split
    · exact (phaseStep_confined j d).mono (fun _ hk => ⟨j, hj, hk⟩) (fun _ hc => hc)
    · exact .refl t
  refine ⟨_, hex, ?_, (hsteps _).mem_raisedOf ?_, storesKept_of_exec hex hc⟩
  · rw [(hsteps _).rd]
    · exact announceTaken_rd (x := (K.REF_PTP_GM_ID (50 + p.val), gm)) (by simp [announced])
    · rintro ⟨j, hj, h⟩
      exact not_phaseReg rfl (by omega) h
  · rw [raisedOf_raise, Nat.mod_eq_of_lt (show p.val < 2 ^ 32 by omega)]
    exact List.mem_append_right _ (List.mem_singleton_self _)

/-! ## PTP_ANNOUNCE_TIMEOUT (R92, R108) -/

theorem ptpAnnounceTimeout_idle (h : s.rd (H.annEnd p.val) = 0 ∨ s.now < s.rd (H.annEnd p.val)) : Idles (.ptpAnnounceTimeout p) s := if_pos h

theorem ptpAnnounceTimeout_ends (h0 : s.rd (H.annEnd p.val) ≠ 0) (h : s.rd (H.annEnd p.val) ≤ s.now) : Ends (.ptpAnnounceTimeout p) s (fun t =>
    t.rd (K.REF_PTP_PORT_STATE (50 + p.val)) = 1 ∧ t.rd (K.REF_PTP_GM_ID (50 + p.val)) = 0 ∧ t.rd (H.annEnd p.val) = 0 ∧
      t.rd (K.REF_STATE (50 + p.val)) = 0 ∧ StoresKept s t) := by
  have hex : exec (.ptpAnnounceTimeout p) s = .next (((s.wrs [(H.annEnd p.val, 0), (H.ptpBest p.val, 0),
      (K.REF_PTP_GM_ID (50 + p.val), 0)]).ptpMove p.val 1).refLose (50 + p.val)) := if_neg (by omega)
  refine ⟨_, hex, ?_, ?_, ?_, refLose_state, storesKept_of_exec hex rfl⟩
  · rw [refLose_rd (by omega), ptpMove_state]
    simp (disch := (refine keys_ne rfl rfl ?_; omega)) [lossKeys, eq_false_of_keys_ne]
  all_goals
    rw [refLose_rd (by omega), ptpMove_rd]
    · refine rd_wrs_of_mem ?_ (by simp) s
      simp (disch := (refine keys_ne rfl rfl ?_; omega)) [eq_false_of_keys_ne]
    all_goals simp (disch := (refine keys_ne rfl rfl ?_; omega)) [lossKeys, eq_false_of_keys_ne]

end

/-- Settles O30, by the port's state at a Sync, by domain and grandmaster at an Announce, and by the time left. -/
theorem ptpPorts : Obligations.PtpPorts := by
  intro p s k ps
  refine ⟨fun off delay log h2 h4 hlo hhi => ?_, fun off delay log h => ptpSync_idle h,
    fun domain p1 cls acc var p2 gm steps utc log d => ⟨fun h1 hfirst hold => ?_, fun h0 h4 hfirst hgm hne => ?_, ptpAnnounce_idle⟩,
    ptpAnnounceTimeout_ends, ptpAnnounceTimeout_idle⟩
  · obtain ⟨_, hex, hport, hoff, hdelay, hlog, hstores, rfl⟩ := ptpSync_taken (off := off) (delay := delay) h2 h4 hlo hhi
    obtain ⟨hgone, hnum, hsame, hother⟩ := syncTaken_state (s := s) (p := p) (off := off) (delay := delay) (log := log)
    exact ⟨_, hex, hport, hoff, hdelay, hlog, hstores, hgone, hnum, hsame, hother, fun j hj => (syncTaken_phaseErr hj).1,
      fun j hj => (syncTaken_phaseErr hj).2⟩
  · obtain ⟨hd, hlo, hhi, hend⟩ := hfirst
    have hex := exec_ptpAnnounce (p1 := p1) (cls := cls) (acc := acc) (var := var) (p2 := p2) (gm := gm) (steps := steps) (utc := utc) (d := d)
      (by rw [h1]; decide) (by rw [h1]; decide) hd hlo hhi hend
    dsimp only at hex
    rw [if_neg (fun h => hold.elim h.1 h.2)] at hex
    refine (ptpAnnounce_first rfl h1 hex).of_mem (fun x => ?_)
    simp only [announced, List.mem_cons, List.not_mem_nil, or_false, k, ps]
    constructor <;> rintro (h | h | h | h | h | h | h | h) <;> simp only [h, true_or, or_true]
  · obtain ⟨hd, hlo, hhi, hend⟩ := hfirst
    have hex := exec_ptpAnnounce (p1 := p1) (cls := cls) (acc := acc) (var := var) (p2 := p2) (gm := gm) (steps := steps) (utc := utc) (d := d)
      h0 h4 hd hlo hhi hend
    dsimp only at hex
    rw [if_pos ⟨hgm, hne⟩] at hex
    exact ptpAnnounce_new rfl hex

end Sys2Proof
end

section
/-! SUPPORT. A write that is carried out: what its answer leaves of its effect; a write that only sets registers of the clocks. -/
namespace Sys2Proof

open Machine

section
variable {s : State} {q : Req} {i key : Nat} {f : State → State}

/-! ## What the answer leaves of the effect -/

section
variable (hw : (f (arrived q i s)).rd H.warmPend ≠ 1)
include hw

theorem wrote_cfgSeq : (wrote s q i key f).rd K.IDENT_CFG_SEQ = ((f (arrived q i s)).rd K.IDENT_CFG_SEQ + 1) % 2 ^ 64 := by
  rw [wrote_eq hw, replied_rd, State.inc, State.up, State.rd_wr_self]

theorem wrote_raisedOf : raisedOf (wrote s q i key f) = raisedOf (f (arrived q i s)) := by
  rw [wrote_eq hw, raisedOf, replied_raised, State.inc_raised, raisedOf]

theorem storesKept_wrote (h : StoresKept s (f (arrived q i s))) : StoresKept s (wrote s q i key f) := by
  rw [wrote_eq hw]
  exact storesKept_replied _ _ _ _ _ _ ((storesKept_kept s).wr _ _ _ h)

theorem wrote_vec (k : Nat) : (wrote s q i key f).vec k = (f (arrived q i s)).vec k := by
  rw [wrote_eq hw]
  exact send_keeps_of (P := fun t => t.vec k = (f (arrived q i s)).vec k) (fun _ _ => id) (fun _ _ => id) _ rfl

end

/-! ## Writes of registers of the clocks -/

/-- An answer is the same whatever registers the effect set, as long as its port stays up or down. -/
theorem replied_reg {m : State} {r : List (Nat × Nat)} (op st : Nat) (p : List Nat)
    (hpd : ({ m with reg := r } : State).rd (K.PD_STATE (3 + q.port)) = m.rd (K.PD_STATE (3 + q.port)))
    (hctl : ({ m with reg := r } : State).rd (K.CTL_ENABLE q.port) = m.rd (K.CTL_ENABLE q.port)) :
    replied s q i op st p { m with reg := r } = { replied s q i op st p m with reg := r } := by
  have hup : (State.pdReady { m with reg := r } (3 + q.port) && ({ m with reg := r } : State).rd (K.CTL_ENABLE q.port) == 1) =
      (m.pdReady (3 + q.port) && m.rd (K.CTL_ENABLE q.port) == 1) := by
    rw [State.pdReady, State.pdReady, hpd, hctl]
  by_cases hport : q.port = 2
  · simp only [replied, State.send, answerTo, hport, if_true]
    rfl
  · have hsend (u : State) (c : Cached) (a : Msg) (ha : a.port = q.port) : (u.remember c).send a =
        if u.pdReady (3 + q.port) && u.rd (K.CTL_ENABLE q.port) == 1 then { u.remember c with tx := u.tx ++ [a] } else u.remember c := by
      simp only [State.send, ha, if_neg hport]
      rfl
    simp only [replied]
    rw [hsend _ _ _ rfl, hsend _ _ _ rfl, hup]
    split <;> rfl

/-- The registers of the clocks: none of them belongs to a session, a port, a domain or the block itself. -/
def ClockKey (k : Nat) : Prop := 0x900000 ≤ k ∧ k ≠ H.warmPend

theorem rd_wrs_clock {u : State} {l : List (Nat × Nat)} (hl : ∀ p ∈ l, ClockKey p.1) {k : Nat} (hk : ¬ ClockKey k) : (u.wrs l).rd k = u.rd k :=
  State.rd_wrs_ne _ _ (fun p hp heq => hk (heq ▸ hl p hp))

/-- A write whose effect is to set registers of the clocks, in any order and some of them twice. -/
theorem writes_of_wrs {c : Instr} {l w : List (Nat × Nat)} (h : Serves s q i) (hex : exec c s = .next (wrote s q i key f))
    (hf : f (arrived q i s) = (arrived q i s).wrs l) (hl : ∀ p ∈ l, ClockKey p.1) (hkeys : ∀ k, k ∈ l.map Prod.fst → k ∈ w.map Prod.fst)
    (hval : ∀ p ∈ w, ClockKey p.1 ∧ ((arrived q i s).wrs l).rd p.1 = p.2) : Writes c s q i key w [] := by
  have hi := slot_le h.named
  have hwarm : ¬ ClockKey H.warmPend := fun hk => hk.2 rfl
  have hcfg : ¬ ClockKey K.IDENT_CFG_SEQ := fun hk => absurd hk.1 (by decide)
  have hw : (f (arrived q i s)).rd H.warmPend ≠ 1 := by
    rw [hf, rd_wrs_clock hl hwarm, arrived_warmPend s q hi]
    decide
  have hother {k : Nat} (hk : k ∉ l.map Prod.fst) :
      ((f (arrived q i s)).inc K.IDENT_CFG_SEQ 1 (2 ^ 64)).rd k = ((arrived q i s).inc K.IDENT_CFG_SEQ 1 (2 ^ 64)).rd k := by
    simp only [hf, State.inc, State.up, rd_wrs_clock hl hcfg]
    by_cases hc : k = K.IDENT_CFG_SEQ
    · rw [hc, State.rd_wr_self, State.rd_wr_self]
    · rw [State.rd_wr_ne _ _ hc, State.rd_wr_ne _ _ hc, (Touches.wrs _ l).regs k hk]
  have hlow {k : Nat} (hk : k < 0x900000) : k ∉ l.map Prod.fst := by
    intro hmem
    obtain ⟨p, hp, rfl⟩ := List.mem_map.mp hmem
    exact absurd (hl p hp).1 (by omega)
  have hreg : (f (arrived q i s)).inc K.IDENT_CFG_SEQ 1 (2 ^ 64) =
      { (arrived q i s).inc K.IDENT_CFG_SEQ 1 (2 ^ 64) with reg := ((f (arrived q i s)).inc K.IDENT_CFG_SEQ 1 (2 ^ 64)).reg } := by
    rw [hf, wrs_eq_reg]
    rfl
  have hport := h.port
  have hans : wrote s q i key f =
      { wrote s q i key id with reg := ((f (arrived q i s)).inc K.IDENT_CFG_SEQ 1 (2 ^ 64)).reg } := by
    rw [wrote_eq hw, wrote_id hi, hreg, replied_reg]
    · rw [← hreg]
      exact hother (hlow (by simp only [K.PD_STATE, K.at']; omega))
    · rw [← hreg]
      exact hother (hlow (by simp only [K.CTL_ENABLE, K.at']; omega))
  refine ⟨_, hex, fun p hp => ?_, fun k hk => ?_, ?_, ?_⟩
  · have hne : p.1 ≠ K.IDENT_CFG_SEQ := fun heq => hcfg (heq ▸ (hval p hp).1)
    rw [wrote_rd hw hne, hf, (hval p hp).2]
  · rw [wrote_eq hw, wrote_id hi, replied_rd, replied_rd]
    exact hother (fun hmem => hk (hkeys k hmem))
  · rw [hans, List.append_nil]
    rfl
  · rw [hans]
    exact ⟨⟨fun _ => rfl, fun _ => rfl, rfl, rfl, rfl, rfl⟩, fun _ => rfl, rfl, rfl, rfl, rfl, rfl, rfl, rfl, rfl, rfl, rfl⟩

end
end Sys2Proof
end

section
/-! PPS and the time of day (R106, R107, R110). -/
namespace Sys2Proof

open Machine

/-! ## PPS -/

section
variable {s : State}



/-- The way to the nearest whole second. -/
def toSecond (ns : Nat) : Int := (divRound ns 1000000000 * 1000000000 : Nat) - (ns : Int)

/-- An edge at PPS_IN moves the timescale of selector j, where nothing holds it. -/
def ppsMoved (j : Nat) (t : State) : State :=
  if t.rd (K.SEL_ACTIVE j) = 255 ∨ t.rd (K.SEL_ACTIVE j) = 52 ∨ t.rd (K.SEL_ACTIVE j) = 53 then
    ((t.tsMove j (toSecond (t.rd (H.tsNs j)))).wr (H.tsFrac j) 0).famSteps j (toSecond (t.rd (H.tsNs j)))
  else t

/-- What such a move may change. -/
def PpsReg (j k : Nat) : Prop := k = H.tsNs j ∨ k = H.tsFrac j ∨ TodReg k ∨ ∃ g < 8, FamRegs g k

theorem ppsMoved_confined (j : Nat) (t : State) : Confined (PpsReg j) famCode t (ppsMoved j t) := by
  rw [ppsMoved]
  split
  · refine ((((tsMove_confined j _).mono ?_ fun _ => id).wr 0 (.inr (.inl rfl)))).trans
      ((famSteps_confined j _).mono (fun _ hk => .inr (.inr (.inr hk))) (fun _ => id))
    exact fun _ hk => hk.elim .inl (fun h => .inr (.inr (.inl h)))
  · exact .refl t

/-- The time and its fraction are no registers of converters or families, nor is a selector's ACTIVE. -/
theorem not_stepReg {k : Nat} (hk : k < 0x9A0000 ∨ H.tsNs 0 ≤ k ∧ k < H.tsFrac 2) : ¬ (TodReg k ∨ ∃ g < 8, FamRegs g k) := by
  simp only [TodReg, FamRegs, FamReg, slewKeys, List.mem_cons, List.not_mem_nil, or_false, K.GSYN_OFFSET, K.GSYN_PHASE_NS,
    K.GSYN_RAMP_STATUS_STATE, K.at', H.gAt, H.gBase, H.gDist, H.gEnd, H.gStart, H.gWait, H.gLate, H.outAdj, H.outAdjOn, H.tsNs, H.tsFrac, H.frcBase,
    H.frcShown, H.frcLastB, H.hk] at hk ⊢
  rintro (⟨x, hx, h⟩ | ⟨g, hg, h | (h | h | ⟨n, hn, h⟩)⟩) <;> omega

section
variable {j i : Nat} (hj : j < 2) (hi : i < 2)
include hj hi

theorem not_ppsReg_active : ¬ PpsReg j (K.SEL_ACTIVE i) := by
  rintro (h | h | h)
  · simp only [K.SEL_ACTIVE, K.at', H.tsNs, H.hk] at h
    omega
  · simp only [K.SEL_ACTIVE, K.at', H.tsFrac, H.hk] at h
    omega
  · exact not_stepReg (.inl (by simp only [K.SEL_ACTIVE, K.at']; omega)) h

theorem not_ppsReg_tsNs (hne : i ≠ j) : ¬ PpsReg j (H.tsNs i) := by
  rintro (h | h | h)
  · simp only [H.tsNs, H.hk] at h
    omega
  · simp only [H.tsNs, H.tsFrac, H.hk] at h
    omega
  · exact not_stepReg (.inr (by simp only [H.tsNs, H.tsFrac, H.hk]; omega)) h

theorem not_ppsReg_tsFrac (hne : i ≠ j) : ¬ PpsReg j (H.tsFrac i) := by
  rintro (h | h | h)
  · simp only [H.tsNs, H.tsFrac, H.hk] at h
    omega
  · simp only [H.tsFrac, H.hk] at h
    omega
  · exact not_stepReg (.inr (by simp only [H.tsNs, H.tsFrac, H.hk]; omega)) h

end

/-- The nearest whole second. -/
theorem add_toSecond (ns : Nat) : ((ns : Int) + toSecond ns).toNat = (ns + 500000000) / 1000000000 * 1000000000 := by
  simp only [toSecond, divRound]
  omega

/-- A timescale that nothing holds is at the nearest whole second. -/
theorem ppsMoved_values {j : Nat} (hj : j < 2) {t : State}
    (h : t.rd (K.SEL_ACTIVE j) = 255 ∨ t.rd (K.SEL_ACTIVE j) = 52 ∨ t.rd (K.SEL_ACTIVE j) = 53) :
    (ppsMoved j t).rd (H.tsNs j) = (t.rd (H.tsNs j) + 500000000) / 1000000000 * 1000000000 ∧ (ppsMoved j t).rd (H.tsFrac j) = 0 := by
  have hns : ¬ ∃ g < 8, FamRegs g (H.tsNs j) := fun h => not_stepReg (.inr (by simp only [H.tsNs, H.tsFrac, H.hk]; omega)) (.inr h)
  have hfrac : ¬ ∃ g < 8, FamRegs g (H.tsFrac j) := fun h => not_stepReg (.inr (by simp only [H.tsNs, H.tsFrac, H.hk]; omega)) (.inr h)
  have hne : H.tsNs j ≠ H.tsFrac j := keys_ne rfl rfl (by omega)
  rw [ppsMoved, if_pos h]
  constructor
  · rw [(famSteps_confined j _).rd _ hns, State.rd_wr_ne _ _ hne, tsMove_tsNs hj, add_toSecond]
  · rw [(famSteps_confined j _).rd _ hfrac, State.rd_wr_self]

/-- An edge at PPS_IN with PPS_MODE 1 (R106). -/
theorem ppsInEdge_ends (h : s.rd K.TOD_PPS_MODE = 1) : Ends .ppsInEdge s (fun t => StoresKept s t ∧ ∀ j < 2,
    ((s.rd (K.SEL_ACTIVE j) = 255 ∨ s.rd (K.SEL_ACTIVE j) = 52 ∨ s.rd (K.SEL_ACTIVE j) = 53) →
      t.rd (H.tsNs j) = (s.rd (H.tsNs j) + 500000000) / 1000000000 * 1000000000 ∧ t.rd (H.tsFrac j) = 0) ∧
    (s.rd (K.SEL_ACTIVE j) ≠ 255 → s.rd (K.SEL_ACTIVE j) ≠ 52 → s.rd (K.SEL_ACTIVE j) ≠ 53 →
      t.rd (H.tsNs j) = s.rd (H.tsNs j) ∧ t.rd (H.tsFrac j) = s.rd (H.tsFrac j))) := by
  have hex : exec .ppsInEdge s = .next (s.upto 2 ppsMoved) := by
    simp only [exec, execPpsInEdge, h, ne_eq, not_true_eq_false, if_false]
    rfl
  refine ⟨_, hex, storesKept_of_exec hex rfl, fun j hj => ?_⟩
  have hkeep : ∀ m < 2, m ≠ j → ∀ t, ∀ k ∈ [K.SEL_ACTIVE j, H.tsNs j, H.tsFrac j], (ppsMoved m t).rd k = t.rd k := by
    intro m hm hne t k hk
    refine (ppsMoved_confined m t).rd k ?_
    simp only [List.mem_cons, List.not_mem_nil, or_false] at hk
    rcases hk with rfl | rfl | rfl
    · exact not_ppsReg_active hm hj
    · exact not_ppsReg_tsNs hm hj (fun h => hne h.symm)
    · exact not_ppsReg_tsFrac hm hj (fun h => hne h.symm)
  obtain ⟨t, ht, hend⟩ := upto_rd_at hj hkeep s
  have hact := ht (K.SEL_ACTIVE j) (by simp)
  rw [hend (H.tsNs j) (by simp), hend (H.tsFrac j) (by simp), ← ht (H.tsNs j) (by simp), ← ht (H.tsFrac j) (by simp), ← hact]
  refine ⟨fun ha => ppsMoved_values hj ha, fun h0 h1 h2 => ?_⟩
  rw [ppsMoved, if_neg (by simp [h0, h1, h2])]
  exact ⟨rfl, rfl⟩

/-- PPS_OUT rises in the first microsecond of a second, and falls after PPS_WIDTH (R107). -/
theorem ppsOut_ends : (s.tod % 1000000000 < 1000 → Does .ppsOutSecond s [(H.ppsOut, 1), (H.ppsOff, s.now + s.rd K.TOD_PPS_WIDTH)] []) ∧
    (1000 ≤ s.tod % 1000000000 → Idles .ppsOutSecond s) ∧
    (s.rd H.ppsOut = 1 → s.rd H.ppsOff ≤ s.now → Does .ppsOutWidthEnd s [(H.ppsOut, 0)] []) ∧
    (s.rd H.ppsOut ≠ 1 ∨ s.now < s.rd H.ppsOff → Idles .ppsOutWidthEnd s) := by
  refine ⟨fun h => does_of_wrs ?_ (show [H.ppsOut, H.ppsOff].Nodup by decide), fun h => ?_,
    fun h0 h1 => does_of_wrs ?_ (by decide), fun h => ?_⟩
  · simp only [exec, execPpsOutSecond, if_pos h]
  · simp only [Idles, exec, execPpsOutSecond, if_neg (show ¬ s.tod % 1000000000 < 1000 by omega)]
  · simp only [exec, execPpsOutWidthEnd, h0, h1, and_self, if_true]
    rfl
  · simp only [Idles, exec, execPpsOutWidthEnd]
    rw [if_neg]
    exact fun ⟨h0, h1⟩ => h.elim (fun h => h h0) (by omega)

end

/-! ## TOD.SET (R107) -/

section
variable {s : State} {q : Req} {i v : Nat}

/-- Where TOD.SET lies. -/
def todLoc : Loc := ⟨.glob, 0, 0x9C10, 3, ⟨0x9C10, 3, 1, .ptime, .cmd, 0, 3, 0, .any⟩⟩

theorem locate_tod : locate K.TOD_SET = some todLoc := by decide

theorem todLoc_admits (h : v % 2 ^ 32 < 1000000000) : todLoc.admits K.TOD_SET v = true := by
  simp only [Loc.admits, todLoc, Ty.valid, Rng.admits, h, decide_true, Bool.and_self, Bool.or_true]

theorem todLoc_pairOk (u : State) : u.pairOk todLoc v = true := Bool.or_true _

theorem writeEffect_tod (c : Wctx) (s : State) : writeEffect todLoc K.TOD_SET v c s = todSet v s := rfl

/-- What TOD.SET does where the selector does not follow PTP. -/
def todEffect (v : Nat) (u : State) : State :=
  ((u.wr K.TOD_SET v).phaseStep (u.rd K.TOD_SEL) (u.todShift (u.rd K.TOD_SEL) (ofPtime v))).raise 0x100B 0x9C10 (u.rd K.TOD_SEL)
    (satI32 ((u.todShift (u.rd K.TOD_SEL) (ofPtime v)).tdiv 1000000000))

theorem arrived_active (hi : i ≤ 16) {j : Nat} (hj : j < 2) : (arrived q i s).rd (K.SEL_ACTIVE j) = s.rd (K.SEL_ACTIVE j) :=
  arrived_obj s q hi (by simp only [K.SEL_ACTIVE, K.at']; omega) (by simp only [K.SEL_ACTIVE, K.at']; omega)

theorem arrived_todSel (hi : i ≤ 16) : (arrived q i s).rd K.TOD_SEL = s.rd K.TOD_SEL := arrived_obj s q hi (by decide) (by decide)

theorem arrived_tsNs (hi : i ≤ 16) {j : Nat} (hj : j < 2) : (arrived q i s).rd (H.tsNs j) = s.rd (H.tsNs j) := by
  refine arrived_rd s q i _ (fun hmem => ?_)
  simp only [arrivalKeys, List.mem_cons, List.not_mem_nil, or_false, K.SESS_PORT, K.SESS_ADDR, K.SESS_UDP, K.SESS_LAST_SEQ, H.sessOwn, H.lastReq,
    H.sessMute, H.warmPend, H.hk, K.at', H.tsNs] at hmem
  omega

theorem arrived_todShift (hi : i ≤ 16) {j : Nat} (hj : j < 2) (want : Nat) : (arrived q i s).todShift j want = s.todShift j want := by
  have hts : (arrived q i s).rd (H.tsNs j) = s.rd (H.tsNs j) := arrived_tsNs hi hj
  have hact := arrived_active (s := s) (q := q) hi hj
  simp only [State.todShift, hts, hact]
  split
  · rw [arrived_obj s q hi (k := K.IN_STAT_FORMAT _) (by simp only [K.IN_STAT_FORMAT, K.at']; omega) (by simp only [K.IN_STAT_FORMAT, K.at']; omega)]
  · split
    · rw [arrived_obj s q hi (k := K.REF_NOM_DEN _) (by simp only [K.REF_NOM_DEN, K.at']; omega) (by simp only [K.REF_NOM_DEN, K.at']; omega),
        arrived_obj s q hi (k := K.REF_NOM_NUM _) (by simp only [K.REF_NOM_NUM, K.at']; omega) (by simp only [K.REF_NOM_NUM, K.at']; omega),
        arrived_obj s q hi (k := K.REF_SYNC_LINES _) (by simp only [K.REF_SYNC_LINES, K.at']; omega) (by simp only [K.REF_SYNC_LINES, K.at']; omega)]
    · rfl

/-- On PTP, TOD.SET is BUSY. -/
theorem todSet_busy (h : Serves s q i) (hr : holds (s.rd (K.SESS_RIGHTS i)) 3 = true) (hv : v < 2 ^ 80) (hns : v % 2 ^ 32 < 1000000000)
    (hj : s.rd K.TOD_SEL < 2) (ha : s.rd (K.SEL_ACTIVE (s.rd K.TOD_SEL)) = 50 ∨ s.rd (K.SEL_ACTIVE (s.rd K.TOD_SEL)) = 51) :
    exec (.todSet q v) s = .next (declined s q i K.TOD_SET 5 [] id) := by
  have hi := slot_le h.named
  refine put_declined (hd := 0) h (by decide) locate_tod (.inr rfl) hr hv (by decide) (todLoc_admits hns) (todLoc_pairOk _) [] id ?_ (by decide) (by decide) ?_
  · rw [writeEffect_tod, todSet, arrived_todSel hi, arrived_active hi hj, if_pos ha]
    rfl
  · rw [id, arrived_warmPend s q hi]
    decide

/-- What holds the effect of TOD.SET, as its registers and events say. -/
theorem todEffect_confined (u : State) : Confined (fun k => k = K.TOD_SET ∨ PhaseReg (u.rd K.TOD_SEL) k) (fun c => c = 0x100B ∨ phaseCode c) u
    (todEffect v u) :=
  ((((Confined.refl u).wr v (.inl rfl))).trans ((phaseStep_confined _ _).mono (fun _ => .inr) (fun _ => .inr))).raise _ _ _ (.inl rfl)

theorem todEffect_events {u : State} (hj : u.rd K.TOD_SEL < 2) : (∃ x, (0x1008, selIdx (u.rd K.TOD_SEL), u.rd K.TOD_SEL, x) ∈ raisedOf (todEffect v u)) ∧
    ∃ x, (0x100B, 0x9C10, u.rd K.TOD_SEL, x) ∈ raisedOf (todEffect v u) := by
  rw [todEffect, raisedOf_raise, Nat.mod_eq_of_lt (show u.rd K.TOD_SEL < 2 ^ 32 by omega)]
  obtain ⟨x, hx⟩ := phaseStep_event (s := u.wr K.TOD_SET v) hj (u.todShift (u.rd K.TOD_SEL) (ofPtime v))
  exact ⟨⟨x, List.mem_append_left _ hx⟩, _, List.mem_append_right _ (List.mem_singleton_self _)⟩

/-- TOD.SET moves the timescale. -/
theorem todEffect_tsNs {u : State} {j : Nat} (hj : j < 2) (hsel : u.rd K.TOD_SEL = j) :
    (todEffect v u).rd (H.tsNs j) = ((u.rd (H.tsNs j) : Int) + u.todShift j (ofPtime v)).toNat := by
  have hfam : ¬ ∃ g < 8, FamRegs g (H.tsNs j) := fun h => not_stepReg (.inr (by simp only [H.tsNs, H.tsFrac, H.hk]; omega)) (.inr h)
  have hlast : H.tsNs j ≠ K.SEL_LAST_STEP j := keys_ne rfl rfl (by omega)
  have hset : H.tsNs j ≠ K.TOD_SET := keys_ne rfl rfl (by omega)
  rw [todEffect, hsel, State.rd_raise, State.phaseStep, (famSteps_confined j _).rd _ hfam, State.rd_raise]
  exact (State.rd_wr_ne _ _ hlast).trans (by rw [tsMove_tsNs hj, State.rd_wr_ne _ _ hset])

/-- What a carried-out TOD.SET does. -/
def todWritten (v : Nat) (u : State) : State := (todEffect v u).wr K.TOD_SET v

theorem todWritten_raisedOf (u : State) : raisedOf (todWritten v u) = raisedOf (todEffect v u) := by
  rw [todWritten, raisedOf, raisedOf, State.wr_raised]

/-- A phase step asks for no warm reset. -/
theorem not_phaseReg_warmPend {j : Nat} (hj : j < 2) : ¬ PhaseReg j H.warmPend := by
  simp only [PhaseReg, TodReg, FamRegs, FamReg, slewKeys, List.mem_cons, List.not_mem_nil, or_false, K.SEL_LAST_STEP, K.GSYN_OFFSET, K.GSYN_PHASE_NS,
    K.GSYN_RAMP_STATUS_STATE, K.at', H.gAt, H.gBase, H.gDist, H.gEnd, H.gStart, H.gWait, H.gLate, H.outAdj, H.outAdjOn, H.tsNs, H.frcBase,
    H.frcShown, H.frcLastB, H.warmPend, H.hk]
  rintro (h | h | ⟨x, hx, h⟩ | ⟨g, hg, h | (h | h | ⟨n, hn, h⟩)⟩) <;> omega

/-- Elsewhere TOD.SET is carried out. -/
theorem todSet_ends (h : Serves s q i) (hr : holds (s.rd (K.SESS_RIGHTS i)) 3 = true) (hv : v < 2 ^ 80) (hns : v % 2 ^ 32 < 1000000000)
    {j : Nat} (hj : j < 2) (hsel : s.rd K.TOD_SEL = j) (h50 : s.rd (K.SEL_ACTIVE j) ≠ 50) (h51 : s.rd (K.SEL_ACTIVE j) ≠ 51) :
    Ends (.todSet q v) s (fun t => t.rd K.TOD_SET = v ∧ t.rd K.IDENT_CFG_SEQ = (s.rd K.IDENT_CFG_SEQ + 1) % 2 ^ 64 ∧
      t.rd (H.tsNs j) = ((s.rd (H.tsNs j) : Int) + s.todShift j (ofPtime v)).toNat ∧
      (∃ x, (0x1008, selIdx j, j, x) ∈ raisedOf t) ∧ ∃ x, (0x100B, 0x9C10, j, x) ∈ raisedOf t) := by
  have hi := slot_le h.named
  have hsel' : (arrived q i s).rd K.TOD_SEL = j := (arrived_todSel hi).trans hsel
  have hex : exec (.todSet q v) s = .next (wrote s q i K.TOD_SET (todWritten v)) := by
    refine put_cmd h (by decide) locate_tod rfl hr hv (by decide) (todLoc_admits hns) (todLoc_pairOk _) [] (todEffect v) ?_
    rw [writeEffect_tod, todSet, hsel', arrived_active hi hj, if_neg (by simp [h50, h51]), todEffect, hsel']
    rfl
  have hkeep {k : Nat} (hk : k ≠ K.TOD_SET) (hp : ¬ PhaseReg j k) :
      (todWritten v (arrived q i s)).rd k = (arrived q i s).rd k := by
    rw [todWritten, State.rd_wr_ne _ _ hk, (todEffect_confined _).rd k (by rw [hsel']; simp [hk, hp])]
  have hw : (todWritten v (arrived q i s)).rd H.warmPend ≠ 1 := by
    rw [hkeep (by decide) (not_phaseReg_warmPend hj), arrived_warmPend s q hi]
    decide
  have hev := todEffect_events (v := v) (u := arrived q i s) (hsel'.trans_lt hj)
  rw [hsel'] at hev
  refine ⟨_, hex, ?_, ?_, ?_, ?_⟩
  · rw [wrote_rd hw (by decide), todWritten, State.rd_wr_self]
  · rw [wrote_cfgSeq hw, hkeep (by decide) (not_phaseReg (a := 0) (b := K.IDENT_CFG_SEQ) (by omega) (by simp only [K.IDENT_CFG_SEQ, K.at']; omega)),
      arrived_obj s q hi (by decide) (by decide)]
  · have hset : H.tsNs j ≠ K.TOD_SET := keys_ne rfl rfl (by omega)
    have hcfg : H.tsNs j ≠ K.IDENT_CFG_SEQ := keys_ne rfl rfl (by omega)
    rw [wrote_rd hw hcfg, todWritten, State.rd_wr_ne _ _ hset, todEffect_tsNs hj hsel', arrived_todShift hi hj, arrived_tsNs hi hj]
  · rw [wrote_raisedOf hw, todWritten_raisedOf]
    exact hev

end

/-- Where the selector has no SDI, SYNCIN or PTP reference the timescale takes the value. -/
theorem todShift_whole {s : State} {j : Nat} (h : 52 ≤ s.rd (K.SEL_ACTIVE j)) (want : Nat) :
    s.todShift j want = (want : Int) - (s.rd (H.tsNs j) : Int) := by
  simp only [State.todShift, if_neg (show ¬ s.rd (K.SEL_ACTIVE j) < 48 by omega), if_neg (show ¬ s.rd (K.SEL_ACTIVE j) < 50 by omega), if_true]

/-- Settles O31: PPS_OUT and PPS_IN by their conditions, TOD.SET through the phase step it makes. -/
theorem timeOfDay : Obligations.TimeOfDay := by
  intro s
  obtain ⟨hrise, hlow, hfall, hhigh⟩ := ppsOut_ends (s := s)
  refine ⟨fun h => ?_, hlow, fun h0 h1 => ?_, hhigh, fun h => ?_, ppsInEdge_ends, fun q i v hs hr hv hns => ?_⟩
  · obtain ⟨t, hex, hval, hregs, hev, honly⟩ := hrise h
    exact ⟨t, hex, hval (H.ppsOut, 1) (by simp), hval (H.ppsOff, _) (by simp), hregs, by rw [hev, List.append_nil], honly⟩
  · obtain ⟨t, hex, hval, hregs, hev, honly⟩ := hfall h0 h1
    exact ⟨t, hex, hval (H.ppsOut, 0) (by simp), hregs, by rw [hev, List.append_nil], honly⟩
  · simp only [Idles, exec, execPpsInEdge, if_pos h]
  · refine ⟨todSet_busy hs hr hv hns, fun h50 h51 hj => ?_⟩
    obtain ⟨t, hex, hset, hcfg, hts, hstep, hev⟩ := todSet_ends hs hr hv hns hj rfl h50 h51
    refine ⟨t, hex, hset, hcfg, hts, fun h52 => ?_, hstep, hev⟩
    rw [hts, todShift_whole h52]
    omega

end Sys2Proof
end

section
/-! The procedure of a selector by its MODE (R99, R100, R102, R109). -/
namespace Sys2Proof

open Machine

/-! ## ACTIVE (R97, R99) -/

/-- From s to t selector j came to candidate k, and STATUS says as before whether a candidate is qualified. -/
structure Picked (j k : Nat) (s t : State) : Prop where
  active : t.rd (K.SEL_ACTIVE j) = k
  vacant : t.bit (K.SEL_STATUS j) 2 = s.bit (K.SEL_STATUS j) 2

section
variable {s t : State} {j k : Nat}

/-- What leaves ACTIVE and STATUS leaves the pick. -/
theorem Picked.of_regs (h : Picked j k s t) {u : State} (ha : u.rd (K.SEL_ACTIVE j) = t.rd (K.SEL_ACTIVE j))
    (hs : u.rd (K.SEL_STATUS j) = t.rd (K.SEL_STATUS j)) : Picked j k s u :=
  ⟨ha.trans h.active, (bit_congr 2 hs).trans h.vacant⟩

theorem picked_self (hk : s.rd (K.SEL_ACTIVE j) = k) : Picked j k s s := ⟨hk, rfl⟩

/-- What leaves ACTIVE may set or clear any other bit of STATUS. -/
theorem Picked.setBit (h : Picked j k s t) {i : Nat} (b : Bool) (hi : i ≠ 2) : Picked j k s (t.setBit (K.SEL_STATUS j) i b) where
  active := by
    have hne : K.SEL_ACTIVE j ≠ K.SEL_STATUS j := keys_ne rfl rfl (by omega)
    exact (State.rd_wr_ne _ _ hne).trans h.active
  vacant := by rw [bit_setBit_ne _ _ _ hi, h.vacant]

/-- The registers of a new ACTIVE. -/
def activeKeys (j : Nat) : List Nat := [K.SEL_STATUS j, K.SEL_ACTIVE j, K.SEL_SWITCHES j]

theorem setActive_same (h : s.rd (K.SEL_ACTIVE j) = k) : s.setActive j k = s := if_pos h

/-- Without a candidate no soft limit is exceeded. -/
def dropSoft (s : State) (j k : Nat) : State := if k = 255 then s.setBit (K.SEL_STATUS j) 1 false else s

theorem setActive_other (h : s.rd (K.SEL_ACTIVE j) ≠ k) : s.setActive j k =
    (((dropSoft s j k).wr (K.SEL_ACTIVE j) k).inc (K.SEL_SWITCHES j) 1 (2 ^ 32)).raise 0x1005 (selIdx j) (j * 256 + k) (s.rd (K.SEL_ACTIVE j)) :=
  if_neg h

theorem dropSoft_rd {x : Nat} (h : x ≠ K.SEL_STATUS j) : (dropSoft s j k).rd x = s.rd x := by
  rw [dropSoft]
  split
  · exact State.rd_wr_ne _ _ h
  · rfl

theorem dropSoft_bit : (dropSoft s j k).bit (K.SEL_STATUS j) 2 = s.bit (K.SEL_STATUS j) 2 := by
  rw [dropSoft]
  split
  · exact bit_setBit_ne _ _ _ (by decide)
  · rfl

theorem setActive_rd {x : Nat} (hx : x ∉ activeKeys j) : (s.setActive j k).rd x = s.rd x := by
  simp only [activeKeys, List.mem_cons, List.not_mem_nil, or_false, not_or] at hx
  obtain ⟨hs, ha, hw⟩ := hx
  by_cases h : s.rd (K.SEL_ACTIVE j) = k
  · rw [setActive_same h]
  · rw [setActive_other h, State.rd_raise, State.inc, State.up, State.rd_wr_ne _ _ hw, State.rd_wr_ne _ _ ha, dropSoft_rd hs]

theorem setActive_picked : Picked j k s (s.setActive j k) := by
  have hact : K.SEL_ACTIVE j ≠ K.SEL_SWITCHES j := keys_ne rfl rfl (by omega)
  have hst : K.SEL_STATUS j ≠ K.SEL_SWITCHES j := keys_ne rfl rfl (by omega)
  have hsa : K.SEL_STATUS j ≠ K.SEL_ACTIVE j := keys_ne rfl rfl (by omega)
  by_cases h : s.rd (K.SEL_ACTIVE j) = k
  · rw [setActive_same h]
    exact picked_self h
  · rw [setActive_other h]
    constructor
    · rw [State.rd_raise, State.inc, State.up, State.rd_wr_ne _ _ hact, State.rd_wr_self]
    · refine (bit_congr 2 ?_).trans (dropSoft_bit (k := k))
      rw [State.rd_raise, State.inc, State.up, State.rd_wr_ne _ _ hst, State.rd_wr_ne _ _ hsa]

/-! ## Holdover (R102, R103) -/

/-- The registers holdover changes. -/
def holdKeys (j : Nat) : List Nat := activeKeys j ++ [K.SEL_NCO j, K.SEL_STATE j, H.lockFrom j, H.holdAt j]

/-- The NCO freezes, where it followed a candidate. -/
def frozen (s : State) (j : Nat) : State :=
  let k := s.rd (K.SEL_ACTIVE j)
  if k = 255 then s else s.setNco j (s.holdNco j k (if k ≠ 255 ∧ s.rd (K.REF_STATE k) ≠ 2 then s.rd (H.refLeft k) else s.now))

theorem frozen_rd {x : Nat} (h : x ≠ K.SEL_NCO j) : (frozen s j).rd x = s.rd x := by
  simp only [frozen]
  split
  · rfl
  · exact setNco_rd h

theorem enterHoldover_held (h : s.rd (K.SEL_STATE j) = 3) : s.enterHoldover j = s.setActive j 255 := if_pos h

theorem enterHoldover_new (h : s.rd (K.SEL_STATE j) ≠ 3) :
    s.enterHoldover j = (((frozen s j).setActive j 255).selMove j 3).wr (H.holdAt j) (frozen s j).now :=
  if_neg h

theorem enterHoldover_rd {x : Nat} (hx : x ∉ holdKeys j) : (s.enterHoldover j).rd x = s.rd x := by
  rw [holdKeys, List.mem_append, not_or] at hx
  obtain ⟨ha, hx⟩ := hx
  simp only [List.mem_cons, List.not_mem_nil, or_false, not_or] at hx
  obtain ⟨hn, hs, hl, hh⟩ := hx
  by_cases h : s.rd (K.SEL_STATE j) = 3
  · rw [enterHoldover_held h, setActive_rd ha]
  · rw [enterHoldover_new h, State.rd_wr_ne _ _ hh, selMove_rd hs hl, setActive_rd ha, frozen_rd hn]

theorem enterHoldover_picked : Picked j 255 s (s.enterHoldover j) := by
  by_cases h : s.rd (K.SEL_STATE j) = 3
  · rw [enterHoldover_held h]
    exact setActive_picked
  · have hhold {x : Nat} (h0 : x ≠ H.holdAt j) (h1 : x ≠ K.SEL_STATE j) (h2 : x ≠ H.lockFrom j) (v : Nat) :
        ((((frozen s j).setActive j 255).selMove j 3).wr (H.holdAt j) v).rd x = ((frozen s j).setActive j 255).rd x := by
      rw [State.rd_wr_ne _ _ h0, selMove_rd h1 h2]
    have hp := setActive_picked (s := frozen s j) (j := j) (k := 255)
    have hfrozen : (frozen s j).bit (K.SEL_STATUS j) 2 = s.bit (K.SEL_STATUS j) 2 := bit_congr 2 (frozen_rd (keys_ne rfl rfl (by omega)))
    rw [enterHoldover_new h]
    refine ⟨(hhold ?_ ?_ ?_ _).trans hp.active, ((bit_congr 2 (hhold ?_ ?_ ?_ _)).trans hp.vacant).trans hfrozen⟩ <;> exact keys_ne rfl rfl (by omega)

theorem enterHoldover_state : (s.enterHoldover j).rd (K.SEL_STATE j) = 3 := by
  have hhold : K.SEL_STATE j ≠ H.holdAt j := keys_ne rfl rfl (by omega)
  have hact : K.SEL_STATE j ∉ activeKeys j := by simp (disch := exact keys_ne rfl rfl (by omega)) [activeKeys, eq_false_of_keys_ne]
  by_cases h : s.rd (K.SEL_STATE j) = 3
  · rw [enterHoldover_held h, setActive_rd hact, h]
  · rw [enterHoldover_new h, State.rd_wr_ne _ _ hhold, selMove_state]

theorem enterHoldover_at (h : s.rd (K.SEL_STATE j) ≠ 3) : (s.enterHoldover j).rd (H.holdAt j) = s.now := by
  have hne : H.now ≠ K.SEL_NCO j := keys_ne rfl rfl (by omega)
  rw [enterHoldover_new h, State.rd_wr_self, State.now, frozen_rd hne, State.now]

/-! ## A candidate is taken (R99, R102) -/

theorem loopParams_rd {x : Nat} (h0 : x ≠ K.SEL_BW_ACTIVE j) (h1 : x ≠ K.SEL_DAMP_ACTIVE j) : (s.loopParams j).rd x = s.rd x := by
  simp only [State.loopParams]
  split
  · rfl
  · exact (Touches.wrs s _).regs x (by simp [h0, h1])

theorem take_picked (hj : j < 2) (d : Int) : Picked j k s (s.take j k d) := by
  have hp := setActive_picked (s := s) (j := j) (k := k)
  have hloop {x : Nat} (h0 : x ≠ K.SEL_BW_ACTIVE j) (h1 : x ≠ K.SEL_DAMP_ACTIVE j) (h2 : x ≠ K.SEL_STATE j) (h3 : x ≠ H.lockFrom j)
      (h4 : ¬ PhaseReg j x) : ((((s.setActive j k).loopParams j).selMove j 1).phaseStep j d).rd x = (s.setActive j k).rd x := by
    rw [(phaseStep_confined j d).rd x h4, selMove_rd h2 h3, loopParams_rd h0 h1]
  have hutc {x : Nat} (h : x ≠ K.TOD_UTC_OFFSET) (t : State) : (t.utcFollow).rd x = t.rd x := utcFollow_touches.regs x (by simpa using h)
  have ha : (s.take j k d).rd (K.SEL_ACTIVE j) = (s.setActive j k).rd (K.SEL_ACTIVE j) := by
    have h0 : K.SEL_ACTIVE j ≠ K.TOD_UTC_OFFSET := keys_ne rfl rfl (by omega)
    have h1 : K.SEL_ACTIVE j ≠ K.SEL_STATUS j := keys_ne rfl rfl (by omega)
    rw [State.take, hutc h0, softCheck_rd h1]
    exact hloop (keys_ne rfl rfl (by omega)) (keys_ne rfl rfl (by omega)) (keys_ne rfl rfl (by omega)) (keys_ne rfl rfl (by omega))
      (not_phaseReg rfl (by omega))
  have hb : (s.take j k d).bit (K.SEL_STATUS j) 2 = (s.setActive j k).bit (K.SEL_STATUS j) 2 := by
    have h0 : K.SEL_STATUS j ≠ K.TOD_UTC_OFFSET := keys_ne rfl rfl (by omega)
    rw [State.take, bit_congr 2 (hutc h0 _), softCheck_bit_ne j (by decide)]
    exact bit_congr 2 (hloop (keys_ne rfl rfl (by omega)) (keys_ne rfl rfl (by omega)) (keys_ne rfl rfl (by omega)) (keys_ne rfl rfl (by omega))
      (not_phaseReg rfl (by omega)))
  exact ⟨ha.trans hp.active, hb.trans hp.vacant⟩

/-! ## The qualified candidates (R99) -/

/-- A candidate that is QUALIFIED and has a rank. -/
def Good (s : State) (j k : Nat) : Prop := k < 54 ∧ s.rd (K.REF_STATE k) = 2 ∧ s.rank j k ≠ 0

theorem mem_qualified : k ∈ s.qualified j ↔ Good s j k := by
  simp [State.qualified, Good]

theorem qualified_eq_nil : s.qualified j = [] ↔ ∀ k, ¬ Good s j k := by
  simp only [← mem_qualified]
  exact List.eq_nil_iff_forall_not_mem

/-- STATUS bit 2 says that no candidate is qualified. -/
theorem qualCheck_bit : (s.qualCheck j).bit (K.SEL_STATUS j) 2 = true ↔ ∀ k, ¬ Good s j k := by
  rw [State.qualCheck, bit_setBit_self, beq_iff_eq, qualified_eq_nil]

theorem qualCheck_rd {x : Nat} (h : x ≠ K.SEL_STATUS j) : (s.qualCheck j).rd x = s.rd x := State.rd_wr_ne _ _ h

theorem qualCheck_mode : (s.qualCheck j).rd (K.SEL_MODE j) = s.rd (K.SEL_MODE j) := qualCheck_rd (keys_ne rfl rfl (by omega))

theorem qualCheck_rank : (s.qualCheck j).rank j k = s.rank j k := by
  have h0 : K.REF_RANK0 k ≠ K.SEL_STATUS j := keys_ne rfl rfl (by omega)
  have h1 : K.REF_RANK1 k ≠ K.SEL_STATUS j := keys_ne rfl rfl (by omega)
  rw [State.rank, State.rank, qualCheck_rd h0, qualCheck_rd h1]

/-! ## The member R99 picks -/

theorem foldl_choice_mem {f : Nat → Nat → Nat} (hf : ∀ b k, f b k = b ∨ f b k = k) (l : List Nat) (a : Nat) : l.foldl f a ∈ a :: l := by
  induction l generalizing a with
  | nil => simp
  | cons b l ih =>
    have h := ih (f a b)
    rw [List.foldl_cons]
    rcases hf a b with he | he <;> rw [he] at h ⊢ <;> simp only [List.mem_cons] at h ⊢ <;> tauto

theorem pick_mem {l : List Nat} (h : l ≠ []) : s.pick l ∈ l := by
  simp only [State.pick]
  split
  · next hnear =>
    have hmem : (l.filter (fun k => decide (s.absOff k ≤ 100))).headD 255 ∈ l.filter (fun k => decide (s.absOff k ≤ 100)) := by
      cases hl : l.filter (fun k => decide (s.absOff k ≤ 100)) with
      | nil => simp [hl] at hnear
      | cons a t => simp
    exact (List.mem_filter.mp hmem).1
  · match l, h with
    | a :: t, _ =>
      refine foldl_choice_mem (fun b k => ?_) t a
      split
      · exact .inr rfl
      · exact .inl rfl

/-- The best rank of a list that begins with a. -/
theorem foldl_min_rank (f : Nat → Nat) (l : List Nat) (b : Nat) :
    (l.foldl (fun m k => min m (f k)) b ≤ b ∧ ∀ k ∈ l, l.foldl (fun m k => min m (f k)) b ≤ f k) ∧
    (l.foldl (fun m k => min m (f k)) b = b ∨ ∃ k ∈ l, f k = l.foldl (fun m k => min m (f k)) b) := by
  induction l generalizing b with
  | nil => simp
  | cons a l ih =>
    obtain ⟨⟨hb, hl⟩, hat⟩ := ih (min b (f a))
    rw [List.foldl_cons]
    refine ⟨⟨by omega, fun k hk => ?_⟩, ?_⟩
    · rcases List.mem_cons.mp hk with rfl | hk
      · omega
      · exact hl k hk
    · rcases hat with he | ⟨k, hk, he⟩
      · rcases Nat.le_total b (f a) with hle | hle
        · exact .inl (by omega)
        · exact .inr ⟨a, List.mem_cons_self .., by omega⟩
      · exact .inr ⟨k, List.mem_cons_of_mem _ hk, he⟩

/-- The best rank of selector j, where a candidate is qualified. -/
def bestRank (s : State) (j a : Nat) (l : List Nat) : Nat := l.foldl (fun m k => min m (s.rank j k)) (s.rank j a)

/-- The candidates of the best rank. -/
def bestSet (s : State) (j a : Nat) (l : List Nat) : List Nat := (a :: l).filter (fun k => s.rank j k == bestRank s j a l)

theorem mem_bestSet {a : Nat} {l : List Nat} : k ∈ bestSet s j a l ↔ k ∈ a :: l ∧ s.rank j k = bestRank s j a l := by
  rw [bestSet, List.mem_filter, beq_iff_eq]

theorem bestRank_le {a : Nat} {l : List Nat} (h : k ∈ a :: l) : bestRank s j a l ≤ s.rank j k := by
  obtain ⟨⟨ha, hl⟩, -⟩ := foldl_min_rank (s.rank j) l (s.rank j a)
  rcases List.mem_cons.mp h with rfl | h
  · exact ha
  · exact hl k h

theorem bestSet_ne_nil {a : Nat} {l : List Nat} : bestSet s j a l ≠ [] := by
  have hmem : ∃ k, k ∈ bestSet s j a l := by
    simp only [mem_bestSet]
    rcases (foldl_min_rank (s.rank j) l (s.rank j a)).2 with he | ⟨k, hk, he⟩
    · exact ⟨a, List.mem_cons_self .., he.symm⟩
    · exact ⟨k, List.mem_cons_of_mem _ hk, he⟩
  rintro he
  simp [he] at hmem

/-! ## MODE AUTO (R99) -/

/-- STATUS bit 0 says whether two candidates of the best rank disagree. -/
def disagreed (s : State) (j : Nat) (set : List Nat) : State :=
  match s.disagree (s.rd (K.SEL_DISAGREE j)) set with
  | some (ka, kb, diff) =>
    if s.bit (K.SEL_STATUS j) 0 then s else (s.setBit (K.SEL_STATUS j) 0 true).raise 0x1007 (selIdx j) (j * 65536 + ka * 256 + kb) diff
  | none => s.setBit (K.SEL_STATUS j) 0 false

theorem disagreed_picked (set : List Nat) (hk : s.rd (K.SEL_ACTIVE j) = k) : Picked j k s (disagreed s j set) := by
  rw [disagreed]
  split
  · split
    · exact picked_self hk
    · exact ((picked_self hk).setBit true (by decide)).of_regs (State.rd_raise ..) (State.rd_raise ..)
  · exact (picked_self hk).setBit false (by decide)

theorem disagreed_rd (set : List Nat) {x : Nat} (h : x ≠ K.SEL_STATUS j) : (disagreed s j set).rd x = s.rd x := by
  rw [disagreed]
  split
  · split
    · rfl
    · exact (State.rd_raise ..).trans (State.rd_wr_ne _ _ h)
  · exact State.rd_wr_ne _ _ h

theorem evalAuto_none (h : s.qualified j = []) (d : Int) : s.evalAuto j d = if s.rd (K.SEL_ACTIVE j) ≠ 255 then s.enterHoldover j else s := by
  simp only [State.evalAuto, h]

theorem evalAuto_some {a : Nat} {l : List Nat} (h : s.qualified j = a :: l) (d : Int) : s.evalAuto j d =
    if (a :: l).contains (s.rd (K.SEL_ACTIVE j)) ∧ ((bestSet s j a l).contains (s.rd (K.SEL_ACTIVE j)) ∨
      (disagreed s j (bestSet s j a l)).rd (K.SEL_REVERTIVE j) = 0) then disagreed s j (bestSet s j a l)
    else (disagreed s j (bestSet s j a l)).take j ((disagreed s j (bestSet s j a l)).pick (bestSet s j a l)) d := by
  simp only [State.evalAuto, h]
  rfl

/-- Without a qualified candidate AUTO has no candidate. -/
theorem evalAuto_vacant (h : ∀ k, ¬ Good s j k) (d : Int) : Picked j 255 s (s.evalAuto j d) := by
  rw [evalAuto_none (qualified_eq_nil.mpr h)]
  split
  · exact enterHoldover_picked
  · next hact => exact picked_self (not_not.mp hact)

/-- Otherwise AUTO is on a qualified candidate, with REVERTIVE on one of the best rank. -/
theorem evalAuto_good (hj : j < 2) (h : ∃ k, Good s j k) (d : Int) : ∃ k, Picked j k s (s.evalAuto j d) ∧ Good s j k ∧
    (s.rd (K.SEL_REVERTIVE j) ≠ 0 → ∀ x, Good s j x → s.rank j k ≤ s.rank j x) := by
  have hbest {k a : Nat} {l : List Nat} (hq : s.qualified j = a :: l) (hk : k ∈ bestSet s j a l) :
      Good s j k ∧ ∀ x, Good s j x → s.rank j k ≤ s.rank j x := by
    rw [mem_bestSet] at hk
    refine ⟨mem_qualified.mp (hq ▸ hk.1), fun x hx => ?_⟩
    rw [hk.2]
    exact bestRank_le (hq ▸ mem_qualified.mpr hx)
  cases hq : s.qualified j with
  | nil =>
    obtain ⟨k, hk⟩ := h
    exact absurd hk (qualified_eq_nil.mp hq k)
  | cons a l =>
    have hrev : (disagreed s j (bestSet s j a l)).rd (K.SEL_REVERTIVE j) = s.rd (K.SEL_REVERTIVE j) := by
      have hne : K.SEL_REVERTIVE j ≠ K.SEL_STATUS j := keys_ne rfl rfl (by omega)
      exact disagreed_rd _ hne
    rw [evalAuto_some hq, hrev]
    split
    · next hstay =>
      obtain ⟨hact, hset⟩ := hstay
      refine ⟨_, disagreed_picked _ rfl, mem_qualified.mp (by rw [hq]; simpa using hact), fun hr => ?_⟩
      exact (hbest hq (by simpa using hset.resolve_right hr)).2
    · have hpick := pick_mem (s := disagreed s j (bestSet s j a l)) (bestSet_ne_nil (s := s) (j := j) (a := a) (l := l))
      have htake := take_picked (s := disagreed s j (bestSet s j a l)) (k := (disagreed s j (bestSet s j a l)).pick (bestSet s j a l)) hj d
      exact ⟨_, ⟨htake.active, htake.vacant.trans (disagreed_picked _ rfl).vacant⟩, (hbest hq hpick).1, fun _ => (hbest hq hpick).2⟩

/-! ## An evaluation by MODE (R99, R100) -/

theorem qualCheck_force : (s.qualCheck j).rd (K.SEL_FORCE_K j) = s.rd (K.SEL_FORCE_K j) := qualCheck_rd (keys_ne rfl rfl (by omega))

theorem qualCheck_state : (s.qualCheck j).rd (K.REF_STATE k) = s.rd (K.REF_STATE k) := qualCheck_rd (keys_ne rfl rfl (by omega))

theorem qualCheck_good : Good (s.qualCheck j) j k ↔ Good s j k := by
  rw [Good, Good, qualCheck_state, qualCheck_rank]

theorem evalSel_auto (h : s.rd (K.SEL_MODE j) = 0) (d : Int) : s.evalSel j d = (s.qualCheck j).evalAuto j d := by
  have hm : (s.qualCheck j).rd (K.SEL_MODE j) = 0 := qualCheck_mode.trans h
  simp only [State.evalSel, hm]

/-- FORCE_K is there and QUALIFIED. -/
def forceReady (s : State) (j : Nat) : Prop := s.rd (K.SEL_FORCE_K j) ≠ 255 ∧ s.rd (K.REF_STATE (s.rd (K.SEL_FORCE_K j))) = 2

theorem evalSel_forced (h : s.rd (K.SEL_MODE j) = 1) (hk : ¬ forceReady s j) (d : Int) : s.evalSel j d = (s.qualCheck j).enterHoldover j := by
  have hm : (s.qualCheck j).rd (K.SEL_MODE j) = 1 := qualCheck_mode.trans h
  simp only [State.evalSel, hm, qualCheck_force, qualCheck_state]
  exact if_neg hk

theorem evalSel_force (h : s.rd (K.SEL_MODE j) = 1) (hk : forceReady s j) (d : Int) : s.evalSel j d =
    if (s.qualCheck j).rd (K.SEL_ACTIVE j) = s.rd (K.SEL_FORCE_K j) then s.qualCheck j else (s.qualCheck j).take j (s.rd (K.SEL_FORCE_K j)) d := by
  have hm : (s.qualCheck j).rd (K.SEL_MODE j) = 1 := qualCheck_mode.trans h
  simp only [State.evalSel, hm, qualCheck_force, qualCheck_state]
  exact if_pos hk

theorem evalSel_other (h : 2 ≤ s.rd (K.SEL_MODE j)) (d : Int) : s.evalSel j d = s.qualCheck j := by
  have hm : (s.qualCheck j).rd (K.SEL_MODE j) = s.rd (K.SEL_MODE j) := qualCheck_mode
  obtain ⟨m, hm2⟩ : ∃ m, s.rd (K.SEL_MODE j) = m + 2 := ⟨s.rd (K.SEL_MODE j) - 2, by omega⟩
  simp only [State.evalSel, hm, hm2]

/-- An evaluation leaves bit 2 of STATUS as the check before it set it. -/
theorem evalSel_vacant (hj : j < 2) (d : Int) : (s.evalSel j d).bit (K.SEL_STATUS j) 2 = (s.qualCheck j).bit (K.SEL_STATUS j) 2 := by
  by_cases h0 : s.rd (K.SEL_MODE j) = 0
  · rw [evalSel_auto h0]
    by_cases hg : ∃ k, Good (s.qualCheck j) j k
    · obtain ⟨k, hp, -⟩ := evalAuto_good hj hg d
      exact hp.vacant
    · exact (evalAuto_vacant (not_exists.mp hg) d).vacant
  · by_cases h1 : s.rd (K.SEL_MODE j) = 1
    · by_cases hk : forceReady s j
      · rw [evalSel_force h1 hk]
        split
        · rfl
        · exact (take_picked hj d).vacant
      · rw [evalSel_forced h1 hk]
        exact enterHoldover_picked.vacant
    · rw [evalSel_other (by omega)]

end

/-! ## SELECTOR_EVALUATION -/

section
variable {s : State} {j : Fin 2}

theorem selectorEvaluation_ends {P : State → Prop} (d : Int) (h : P (s.evalSel j.val d)) : Ends (.selectorEvaluation j d) s P := ⟨_, rfl, h⟩

/-- In the modes that use no candidate only bit 2 of STATUS may change. -/
theorem selectorEvaluation_unused (h : 2 ≤ s.rd (K.SEL_MODE j.val)) (d : Int) : Changes (.selectorEvaluation j d) s [] [K.SEL_STATUS j.val] [] := by
  have hex : exec (.selectorEvaluation j d) s = .next (s.qualCheck j.val) := congrArg Host.Outcome.next (evalSel_other h d)
  exact changes_of_touches hex rfl (by simp) (.setBit ..)

end

/-! ## A written MODE (R100, R102) -/

section
variable {s : State} {q : Req} {i : Nat} {j : Fin 2}

/-- Where MODE of selector j lies. -/
def modeLoc (j : Nat) : Loc := ⟨.sel, j, 0, 1, ⟨0, 1, 1, .u 1, .rw, 0, 2, 0, .rng 0 4⟩⟩

theorem locate_mode : ∀ j : Fin 2, locate (K.SEL_MODE j.val) = some (modeLoc j.val) := by decide

/-- The state in which a written MODE acts. -/
def modeSet (j v : Nat) (u : State) : State := (u.wr (K.SEL_MODE j) v).qualCheck j

/-- OPEN_LOOP: no candidate, and holdover begins now unless it has begun. -/
def loopOpened (j : Nat) (t : State) : State :=
  if (t.setActive j 255).rd (K.SEL_STATE j) = 3 then t.setActive j 255
  else ((t.setActive j 255).selMove j 3).wr (H.holdAt j) (t.setActive j 255).now

/-- What a written MODE does in that state. -/
def modeAct (j v : Nat) (d : Int) (t : State) : State :=
  if v = 2 then t.enterHoldover j else if v = 3 then ((t.setActive j 255).setNco j 0).selMove j 0
  else if v = 4 then loopOpened j t else t.evalSel j d

/-- What a written MODE does. -/
def modeEffect (j v : Nat) (d : Int) (u : State) : State := modeAct j v d (modeSet j v u)

theorem selModeWrite_eq (j v : Nat) (d : Int) (u : State) : selModeWrite j v d u = ansOk (modeEffect j v d u) := by
  unfold selModeWrite modeEffect
  refine congrArg ansOk ?_
  generalize ht : modeSet j v u = t
  have hset : (u.wr (K.SEL_MODE j) v).qualCheck j = t := ht
  simp -zeta only [hset, modeAct]
  split
  · rfl
  · rfl
  · rfl
  · next h2 h3 h4 => rw [if_neg h2, if_neg h3, if_neg h4]

theorem selModeWrite_exec (h : Serves s q i) (hr : holds (s.rd (K.SESS_RIGHTS i)) 2 = true) {v : Nat} (hv : v ≤ 4) (d : Int) :
    exec (.selModeWrite q j v d) s = .next (wrote s q i (K.SEL_MODE j.val) (modeEffect j.val v d)) := by
  have hadm : (modeLoc j.val).admits (K.SEL_MODE j.val) v = true := by
    simp [Loc.admits, modeLoc, Ty.valid, Rng.admits, hv]
  have hobj : K.SEL_MODE j.val < 2 ^ 24 := by
    simp only [K.SEL_MODE, K.at']
    omega
  exact put_wrote h hobj (locate_mode j) (.inl rfl) hr (by simp only [modeLoc, Ty.size]; omega) (show 1 ≤ 1396 by decide) hadm (Bool.or_true _) [d]
    (modeEffect j.val v d) (selModeWrite_eq j.val v d _)

/-- AUTO and FORCED are evaluated. -/
theorem modeEffect_eval {v : Nat} (hv : v ≤ 1) (n : Nat) (d : Int) (u : State) : modeEffect n v d u = (modeSet n v u).evalSel n d := by
  rw [modeEffect, modeAct, if_neg (by omega), if_neg (by omega), if_neg (by omega)]

theorem modeEffect_hold (n : Nat) (d : Int) (u : State) : modeEffect n 2 d u = (modeSet n 2 u).enterHoldover n := by
  rw [modeEffect, modeAct, if_pos rfl]

theorem modeEffect_free (n : Nat) (d : Int) (u : State) : modeEffect n 3 d u = (((modeSet n 3 u).setActive n 255).setNco n 0).selMove n 0 := by
  rw [modeEffect, modeAct, if_neg (by decide), if_pos rfl]

theorem modeEffect_open (n : Nat) (d : Int) (u : State) : modeEffect n 4 d u = loopOpened n (modeSet n 4 u) := by
  rw [modeEffect, modeAct, if_neg (by decide), if_neg (by decide), if_pos rfl]

section
variable {n : Nat} {u : State} {d : Int}

theorem modeSet_mode (v : Nat) : (modeSet n v u).rd (K.SEL_MODE n) = v := by
  rw [modeSet, qualCheck_mode, State.rd_wr_self]

theorem modeSet_rd {v x : Nat} (hm : x ≠ K.SEL_MODE n) (hs : x ≠ K.SEL_STATUS n) : (modeSet n v u).rd x = u.rd x := by
  rw [modeSet, qualCheck_rd hs, State.rd_wr_ne _ _ hm]

/-- What MODE 2, 3 or 4 changes beyond MODE itself. -/
theorem modeEffect_rd {v x : Nat} (h2 : 2 ≤ v) (h4 : v ≤ 4) (hx : x ∉ holdKeys n) : (modeEffect n v d u).rd x = (modeSet n v u).rd x := by
  have hall := hx
  rw [holdKeys, List.mem_append, not_or] at hx
  obtain ⟨ha, hx⟩ := hx
  simp only [List.mem_cons, List.not_mem_nil, or_false, not_or] at hx
  obtain ⟨hn, hs, hl, hh⟩ := hx
  obtain rfl | rfl | rfl : v = 2 ∨ v = 3 ∨ v = 4 := by omega
  · rw [modeEffect_hold, enterHoldover_rd hall]
  · rw [modeEffect_free, selMove_rd hs hl, setNco_rd hn, setActive_rd ha]
  · rw [modeEffect_open, loopOpened]
    split
    · exact setActive_rd ha
    · rw [State.rd_wr_ne _ _ hh, selMove_rd hs hl, setActive_rd ha]

/-- The selector has no candidate in MODE 2, 3 and 4. -/
theorem modeEffect_active {v : Nat} (h2 : 2 ≤ v) (h4 : v ≤ 4) : (modeEffect n v d u).rd (K.SEL_ACTIVE n) = 255 := by
  have h0 : K.SEL_ACTIVE n ≠ K.SEL_STATE n := keys_ne rfl rfl (by omega)
  have h1 : K.SEL_ACTIVE n ≠ H.lockFrom n := keys_ne rfl rfl (by omega)
  have h3 : K.SEL_ACTIVE n ≠ K.SEL_NCO n := keys_ne rfl rfl (by omega)
  have h5 : K.SEL_ACTIVE n ≠ H.holdAt n := keys_ne rfl rfl (by omega)
  obtain rfl | rfl | rfl : v = 2 ∨ v = 3 ∨ v = 4 := by omega
  · rw [modeEffect_hold, enterHoldover_picked.active]
  · rw [modeEffect_free, selMove_rd h0 h1, setNco_rd h3, setActive_picked.active]
  · rw [modeEffect_open, loopOpened]
    split
    · exact setActive_picked.active
    · rw [State.rd_wr_ne _ _ h5, selMove_rd h0 h1, setActive_picked.active]

theorem modeEffect_open_state : (modeEffect n 4 d u).rd (K.SEL_STATE n) = 3 := by
  have hne : K.SEL_STATE n ≠ H.holdAt n := keys_ne rfl rfl (by omega)
  rw [modeEffect_open, loopOpened]
  split
  · assumption
  · rw [State.rd_wr_ne _ _ hne, selMove_state]

theorem modeEffect_free_nco : (modeEffect n 3 d u).rd (K.SEL_NCO n) = 0 := by
  have h0 : K.SEL_NCO n ≠ K.SEL_STATE n := keys_ne rfl rfl (by omega)
  have h1 : K.SEL_NCO n ≠ H.lockFrom n := keys_ne rfl rfl (by omega)
  rw [modeEffect_free, selMove_rd h0 h1, setNco_nco]

/-- OPEN_LOOP begins with the NCO as it is. -/
theorem modeEffect_open_nco : (modeEffect n 4 d u).rd (K.SEL_NCO n) = u.rd (K.SEL_NCO n) := by
  have h0 : K.SEL_NCO n ≠ K.SEL_STATE n := keys_ne rfl rfl (by omega)
  have h1 : K.SEL_NCO n ≠ H.lockFrom n := keys_ne rfl rfl (by omega)
  have h2 : K.SEL_NCO n ≠ H.holdAt n := keys_ne rfl rfl (by omega)
  have h3 : K.SEL_NCO n ∉ activeKeys n := by simp (disch := exact keys_ne rfl rfl (by omega)) [activeKeys, eq_false_of_keys_ne]
  have hset : (modeSet n 4 u).rd (K.SEL_NCO n) = u.rd (K.SEL_NCO n) := modeSet_rd (keys_ne rfl rfl (by omega)) (keys_ne rfl rfl (by omega))
  rw [modeEffect_open, loopOpened]
  split
  · rw [setActive_rd h3, hset]
  · rw [State.rd_wr_ne _ _ h2, selMove_rd h0 h1, setActive_rd h3, hset]

end

/-- A written MODE 2, 3 or 4: the selector's registers are those of its effect, and CFG_SEQ counts it. -/
theorem selModeWrite_ends (h : Serves s q i) (hr : holds (s.rd (K.SESS_RIGHTS i)) 2 = true) {v : Nat} (h2 : 2 ≤ v) (h4 : v ≤ 4) (d : Int) :
    Ends (.selModeWrite q j v d) s (fun t => t.rd K.IDENT_CFG_SEQ = (s.rd K.IDENT_CFG_SEQ + 1) % 2 ^ 64 ∧ t.rd (K.SEL_MODE j.val) = v ∧
      t.rd (K.SEL_ACTIVE j.val) = 255 ∧ t.rd (K.SEL_STATE j.val) = (modeEffect j.val v d (arrived q i s)).rd (K.SEL_STATE j.val) ∧
      t.rd (K.SEL_NCO j.val) = (modeEffect j.val v d (arrived q i s)).rd (K.SEL_NCO j.val)) := by
  have hi := slot_le h.named
  have hkeep {x : Nat} (hx : x ∉ holdKeys j.val) (hm : x ≠ K.SEL_MODE j.val) (hs : x ≠ K.SEL_STATUS j.val) :
      (modeEffect j.val v d (arrived q i s)).rd x = (arrived q i s).rd x := by
    rw [modeEffect_rd h2 h4 hx, modeSet_rd hm hs]
  have hfree {x : Nat} (hx : x ∈ [H.warmPend, K.IDENT_CFG_SEQ, K.SEL_MODE j.val]) : x ∉ holdKeys j.val ∧ x ≠ K.SEL_STATUS j.val := by
    simp only [List.mem_cons, List.not_mem_nil, or_false] at hx
    obtain rfl | rfl | rfl := hx <;> simp (disch := exact keys_ne rfl rfl (by omega)) [holdKeys, activeKeys, eq_false_of_keys_ne]
  obtain ⟨hwarm, hwarmS⟩ := hfree (x := H.warmPend) (by simp)
  obtain ⟨hcfg, hcfgS⟩ := hfree (x := K.IDENT_CFG_SEQ) (by simp)
  obtain ⟨hmode, -⟩ := hfree (x := K.SEL_MODE j.val) (by simp)
  have hw : (modeEffect j.val v d (arrived q i s)).rd H.warmPend ≠ 1 := by
    have hm : H.warmPend ≠ K.SEL_MODE j.val := keys_ne rfl rfl (by omega)
    rw [hkeep hwarm hm hwarmS, arrived_warmPend s q hi]
    decide
  refine ⟨_, selModeWrite_exec h hr h4 d, ?_, ?_, ?_, ?_, ?_⟩
  · have hm : K.IDENT_CFG_SEQ ≠ K.SEL_MODE j.val := keys_ne rfl rfl (by omega)
    rw [wrote_cfgSeq hw, hkeep hcfg hm hcfgS, arrived_obj s q hi (by decide) (by decide)]
  · have hne : K.SEL_MODE j.val ≠ K.IDENT_CFG_SEQ := keys_ne rfl rfl (by omega)
    rw [wrote_rd hw hne, modeEffect_rd h2 h4 hmode, modeSet_mode]
  · have hne : K.SEL_ACTIVE j.val ≠ K.IDENT_CFG_SEQ := keys_ne rfl rfl (by omega)
    rw [wrote_rd hw hne, modeEffect_active h2 h4]
  · exact wrote_rd hw (keys_ne rfl rfl (by omega))
  · exact wrote_rd hw (keys_ne rfl rfl (by omega))

end

/-- Settles O26: an evaluation by cases of MODE, a written MODE through the effect of each value. -/
theorem selectorsFollowTheirMode : Obligations.SelectorsFollowTheirMode := by
  intro j s
  refine ⟨fun d => ⟨fun h => selectorEvaluation_unused h d, ?_, fun h1 hk hst => ?_, fun h0 hg => ?_, fun h0 hg => ?_⟩, fun q i hs hr => ?_⟩
  · refine selectorEvaluation_ends d ?_
    change (s.evalSel j.val d).bit (K.SEL_STATUS j.val) 2 = true ↔ _
    rw [evalSel_vacant j.isLt, qualCheck_bit]
    rfl
  · have hk' : ¬ forceReady s j.val := fun hr => hk.elim (fun h => hr.1 h) (fun h => h hr.2)
    have hstate : (s.qualCheck j.val).rd (K.SEL_STATE j.val) = s.rd (K.SEL_STATE j.val) := qualCheck_rd (keys_ne rfl rfl (by omega))
    have hnow : (s.qualCheck j.val).now = s.now := qualCheck_rd (x := H.now) (keys_ne rfl rfl (by omega))
    refine selectorEvaluation_ends d ?_
    rw [evalSel_forced h1 hk']
    exact ⟨enterHoldover_state, enterHoldover_picked.active, (enterHoldover_at (by rwa [hstate])).trans hnow⟩
  · refine selectorEvaluation_ends d ?_
    rw [evalSel_auto h0]
    exact (evalAuto_vacant (fun k hk => hg k (qualCheck_good.mp hk)) d).active
  · obtain ⟨k, hk⟩ := hg
    obtain ⟨c, hp, hc, hbest⟩ := evalAuto_good (s := s.qualCheck j.val) j.isLt ⟨k, qualCheck_good.mpr hk⟩ d
    have hrev : (s.qualCheck j.val).rd (K.SEL_REVERTIVE j.val) = s.rd (K.SEL_REVERTIVE j.val) := qualCheck_rd (keys_ne rfl rfl (by omega))
    refine selectorEvaluation_ends d ?_
    rw [evalSel_auto h0, hp.active]
    refine ⟨qualCheck_good.mp hc, fun hr x hx => ?_⟩
    have hle := hbest (by rwa [hrev]) x (qualCheck_good.mpr hx)
    rwa [qualCheck_rank, qualCheck_rank] at hle
  · refine ⟨fun v d hv => ?_, fun d => ?_, fun d => ?_, fun d => ?_⟩
    · rw [selModeWrite_exec hs hr (by omega) d, funext (modeEffect_eval hv j.val d)]
      rfl
    · obtain ⟨t, hex, hcfg, hm, ha, hst, -⟩ := selModeWrite_ends (j := j) hs hr (v := 2) (by decide) (by decide) d
      exact ⟨t, hex, hm, by rw [hst, modeEffect_hold, enterHoldover_state], ha, hcfg⟩
    · obtain ⟨t, hex, -, hm, ha, hst, hn⟩ := selModeWrite_ends (j := j) hs hr (v := 3) (by decide) (by decide) d
      exact ⟨t, hex, hm, by rw [hst, modeEffect_free, selMove_state], ha, by rw [hn, modeEffect_free_nco]⟩
    · obtain ⟨t, hex, -, hm, ha, hst, hn⟩ := selModeWrite_ends (j := j) hs hr (v := 4) (by decide) (by decide) d
      refine ⟨t, hex, hm, by rw [hst, modeEffect_open_state], ha, ?_⟩
      rw [hn, modeEffect_open_nco]
      exact arrived_obj s q (slot_le hs.named) (by simp only [K.SEL_NCO, K.at']; omega) (by simp only [K.SEL_NCO, K.at']; omega)

end Sys2Proof
end

section
/-! Slews, ramps and DIVSYNC (R112, R117, R118). -/
namespace Sys2Proof

open Machine

section
variable {s : State} {g : Nat}

/-! ## The end of a slew (R112) -/

/-- What SLEW_DONE leaves of PHASE_NS. -/
def slewRest (s : State) (g : Nat) : Int :=
  s.rd64 (K.GSYN_PHASE_NS g) + s.rd64 (H.gDist g) + s.rd64 (H.gBase g) * ((s.now - s.rd (H.gAt g) : Nat) : Int) / 1000000

/-- The family rests where the slew has brought it. -/
def slewStopped (s : State) (g : Nat) : State :=
  (((s.gProfile g []).wrI 32 (K.GSYN_OFFSET g) (s.rd64 (H.gBase g))).wr64 (K.GSYN_PHASE_NS g) (slewRest s g)).wrs
    [(K.GSYN_RAMP_STATUS_STATE g, 0), (H.gDist g, 0)]

/-- A slew is over. -/
def slewEnded (s : State) (g : Nat) : State :=
  (slewStopped s g).raise 0x1011 (gsynIdx g) g (((slewStopped s g).now - (slewStopped s g).rd (H.gStart g)) / 1000)

/-- The registers of the end of a slew. -/
def slewEndKeys (g : Nat) : List Nat := [K.GSYN_RAMP_STATUS_STATE g, K.GSYN_OFFSET g, K.GSYN_PHASE_NS g, H.gDist g, H.gAt g]

theorem slewStopped_touches : Touches (slewEndKeys g) [] s (slewStopped s g) := by
  have h0 : Touches (slewEndKeys g) [] s (s.gProfile g []) := (gProfile_touches []).mono (by simp [slewEndKeys])
  exact (((h0.then_wr (k := K.GSYN_OFFSET g) (v := ofInt 32 (s.rd64 (H.gBase g))) (by simp [slewEndKeys])).then_wr
    (k := K.GSYN_PHASE_NS g) (v := ofInt 64 (slewRest s g)) (by simp [slewEndKeys])).then_wr
    (k := K.GSYN_RAMP_STATUS_STATE g) (v := 0) (by simp [slewEndKeys])).then_wr (k := H.gDist g) (v := 0) (by simp [slewEndKeys])

/-- What the end of a slew leaves. -/
theorem slewStopped_rd {k : Nat} (h : k ∈ [H.now, H.gStart g, H.gWait g]) : (slewStopped s g).rd k = s.rd k := by
  refine slewStopped_touches.regs k ?_
  simp only [List.mem_cons, List.not_mem_nil, or_false] at h
  obtain rfl | rfl | rfl := h <;> simp (disch := (refine keys_ne rfl rfl ?_; omega)) [slewEndKeys, eq_false_of_keys_ne]

theorem slewEnded_touches (hg : g < 8) :
    Touches (slewEndKeys g) [(0x1011, gsynIdx g, g, (s.now - s.rd (H.gStart g)) / 1000 % 2 ^ 32)] s (slewEnded s g) := by
  have hnow : (slewStopped s g).now = s.now := slewStopped_rd (by simp)
  have h := (slewStopped_touches (s := s) (g := g)).then_raise 0x1011 (gsynIdx g) g ((s.now - s.rd (H.gStart g)) / 1000)
  rw [Nat.mod_eq_of_lt (show g < 2 ^ 32 by omega)] at h
  rw [slewEnded, hnow, slewStopped_rd (by simp)]
  exact h

theorem slewEnded_values : ∀ p ∈ [(K.GSYN_RAMP_STATUS_STATE g, 0), (K.GSYN_OFFSET g, ofInt 32 (s.rd64 (H.gBase g))),
    (K.GSYN_PHASE_NS g, ofInt 64 (slewRest s g)), (H.gDist g, 0), (H.gAt g, s.now)], (slewEnded s g).rd p.1 = p.2 := by
  have hat : (s.gProfile g []).rd (H.gAt g) = s.now := gProfile_values [] (p := (H.gAt g, s.now)) (by simp [profileRegs])
  intro p hp
  rw [slewEnded, State.rd_raise, slewStopped]
  simp only [List.mem_cons, List.not_mem_nil, or_false] at hp
  obtain rfl | rfl | rfl | rfl | rfl := hp <;>
    simp (disch := (refine keys_ne rfl rfl ?_; omega)) only [State.wrs, List.foldl_cons, List.foldl_nil, State.wr64, State.wrI, State.rd_wr_ne,
      State.rd_wr_self, hat]

theorem slewEnded_wait : (slewEnded s g).rd64 (H.gWait g) = s.rd64 (H.gWait g) := by
  rw [State.rd64, State.rdI, slewEnded, State.rd_raise, slewStopped_rd (by simp), State.rd64, State.rdI]

/-- A step that waited for the slew. -/
def waitedSlew (t : State) (g : Nat) : State :=
  if t.rd64 (H.gWait g) = 0 then t else (t.wr (H.gWait g) 0).slewBy g (t.rd64 (H.gWait g))

/-- A step that waited starts a slew now. -/
theorem waitedSlew_starts (hg : g < 8) {t : State} (hw : t.rd64 (H.gWait g) ≠ 0) (hst : t.rd (K.GSYN_RAMP_STATUS_STATE g) ≠ 3) :
    (waitedSlew t g).rd (K.GSYN_RAMP_STATUS_STATE g) = 3 ∧ (waitedSlew t g).rd (H.gWait g) = 0 ∧ (waitedSlew t g).rd (H.gStart g) = t.now := by
  have h0 : K.GSYN_RAMP_STATUS_STATE g ≠ H.gWait g := keys_ne rfl rfl (by omega)
  have h1 : H.now ≠ H.gWait g := keys_ne rfl rfl (by omega)
  have h2 : H.gWait g ∉ slewKeys g := by simp (disch := (refine keys_ne rfl rfl ?_; omega)) [slewKeys, eq_false_of_keys_ne]
  rw [waitedSlew, if_neg hw]
  refine ⟨slewBy_state _, ?_, ?_⟩
  · rw [(slewBy_touches hg _).regs _ h2, State.rd_wr_self]
  · rw [slewBy_start (by rwa [State.rd_wr_ne _ _ h0]), State.now, State.rd_wr_ne _ _ h1, State.now]

end

section
variable {s : State} {g : Fin 8}

theorem slewDone_exec (hst : s.rd (K.GSYN_RAMP_STATUS_STATE g.val) = 3) (he : s.rd (H.gEnd g.val) ≤ s.now) :
    exec (.slewDone g) s = .next (waitedSlew (slewEnded s g.val) g.val) := by
  simp only [exec, execSlewDone]
  rw [if_neg (by omega)]
  rfl

theorem slewDone_changes (hst : s.rd (K.GSYN_RAMP_STATUS_STATE g.val) = 3) (he : s.rd (H.gEnd g.val) ≤ s.now) (hw : s.rd64 (H.gWait g.val) = 0) :
    Changes (.slewDone g) s [(K.GSYN_RAMP_STATUS_STATE g.val, 0), (K.GSYN_OFFSET g.val, ofInt 32 (s.rd64 (H.gBase g.val))),
      (K.GSYN_PHASE_NS g.val, ofInt 64 (slewRest s g.val)), (H.gDist g.val, 0), (H.gAt g.val, s.now)] []
      [(0x1011, gsynIdx g.val, g.val, (s.now - s.rd (H.gStart g.val)) / 1000 % 2 ^ 32)] := by
  have hex : exec (.slewDone g) s = .next (slewEnded s g.val) := by
    rw [slewDone_exec hst he, waitedSlew, if_pos (slewEnded_wait.trans hw)]
  exact changes_of_touches hex rfl slewEnded_values (slewEnded_touches g.isLt)

theorem slewDone_again (hst : s.rd (K.GSYN_RAMP_STATUS_STATE g.val) = 3) (he : s.rd (H.gEnd g.val) ≤ s.now) (hw : s.rd64 (H.gWait g.val) ≠ 0) :
    Ends (.slewDone g) s (fun t => t.rd (K.GSYN_RAMP_STATUS_STATE g.val) = 3 ∧ t.rd (H.gWait g.val) = 0 ∧ t.rd (H.gStart g.val) = s.now) := by
  have hstate : (slewEnded s g.val).rd (K.GSYN_RAMP_STATUS_STATE g.val) = 0 :=
    slewEnded_values (s := s) (g := g.val) (K.GSYN_RAMP_STATUS_STATE g.val, 0) (by simp)
  have hnow : (slewEnded s g.val).now = s.now := (State.rd_raise ..).trans (slewStopped_rd (by simp))
  refine ⟨_, slewDone_exec hst he, ?_⟩
  rw [← hnow]
  exact waitedSlew_starts g.isLt (by rwa [slewEnded_wait]) (by rw [hstate]; decide)

end

/-! ## Ramps (R117) -/

section
variable {s : State} {g : Nat}

/-- The profile of segment i. -/
def segProfile (s : State) (g i : Nat) : List Piece := s.rampSeg g i (s.gNow g).1

/-- Segment i begins. -/
def segStarted (s : State) (g i : Nat) : State :=
  (s.gProfile g (segProfile s g i)).wrs [(K.GSYN_RAMP_STATUS_STATE g, 1), (K.GSYN_RAMP_STATUS_SEG g, i),
    (H.gEnd g, (s.gProfile g (segProfile s g i)).now + profDur (segProfile s g i))]

theorem rampGo_next {i : Nat} (h : i < s.rd (K.GSYN_RAMP_COUNT g)) : s.rampGo g i = segStarted s g i := if_pos h

theorem rampGo_last {i : Nat} (h : s.rd (K.GSYN_RAMP_COUNT g) ≤ i) : s.rampGo g i = (s.gProfile g []).rampDone g := if_neg (by omega)

/-- The registers a ramp changes. -/
def rampKeys (g : Nat) : List Nat :=
  [K.GSYN_RAMP_STATUS_STATE g, K.GSYN_RAMP_STATUS_SEG g, H.gEnd g, K.GSYN_OFFSET g, K.GSYN_PHASE_NS g, H.gAt g]

theorem segStarted_touches (i : Nat) : Touches (rampKeys g) [] s (segStarted s g i) :=
  ((((gProfile_touches (s := s) (g := g) _).mono (by simp [rampKeys])).then_wr (by simp [rampKeys])).then_wr (by simp [rampKeys])).then_wr
    (by simp [rampKeys])

theorem segStarted_values (i : Nat) : (segStarted s g i).rd (K.GSYN_RAMP_STATUS_STATE g) = 1 ∧ (segStarted s g i).rd (K.GSYN_RAMP_STATUS_SEG g) = i := by
  constructor <;>
    simp (disch := (refine keys_ne rfl rfl ?_; omega)) only [segStarted, State.wrs, List.foldl_cons, List.foldl_nil, State.rd_wr_ne, State.rd_wr_self]

/-- The profile is over. -/
def rampStopped (s : State) (g : Nat) : State :=
  let t := s.wrs [(K.GSYN_RAMP_STATUS_STATE g, 0), (K.GSYN_RAMP_STATUS_SEG g, 255)]
  t.raise 0x100F (gsynIdx g) g (t.rd (K.GSYN_OFFSET g))

theorem rampDone_eq : s.rampDone g = waitedSlew (rampStopped s g) g := rfl

theorem ofInt_32_lt (o : Int) : ofInt 32 o < 2 ^ 32 := by
  simp only [ofInt]
  omega

/-- The family at the offset the profile has brought it to. -/
def rampEnded (s : State) (g : Nat) : State := rampStopped (s.gProfile g []) g

theorem rampEnded_offset : ((s.gProfile g []).wrs [(K.GSYN_RAMP_STATUS_STATE g, 0), (K.GSYN_RAMP_STATUS_SEG g, 255)]).rd (K.GSYN_OFFSET g) =
    ofInt 32 (s.gNow g).1 := by
  have hoff : (s.gProfile g []).rd (K.GSYN_OFFSET g) = ofInt 32 (s.gNow g).1 :=
    gProfile_values [] (p := (K.GSYN_OFFSET g, ofInt 32 (s.gNow g).1)) (by simp [profileRegs])
  simp (disch := (refine keys_ne rfl rfl ?_; omega)) only [State.wrs, List.foldl_cons, List.foldl_nil, State.rd_wr_ne, hoff]

/-- The registers of the end of a profile. -/
def rampEndKeys (g : Nat) : List Nat :=
  [K.GSYN_RAMP_STATUS_STATE g, K.GSYN_RAMP_STATUS_SEG g, K.GSYN_OFFSET g, K.GSYN_PHASE_NS g, H.gAt g]

theorem rampEnded_touches (hg : g < 8) : Touches (rampEndKeys g) [(0x100F, gsynIdx g, g, ofInt 32 (s.gNow g).1)] s (rampEnded s g) := by
  have h0 : Touches (rampEndKeys g) [] s (s.gProfile g []) := (gProfile_touches []).mono (by simp [rampEndKeys])
  have h1 := ((h0.then_wr (k := K.GSYN_RAMP_STATUS_STATE g) (v := 0) (by simp [rampEndKeys])).then_wr
    (k := K.GSYN_RAMP_STATUS_SEG g) (v := 255) (by simp [rampEndKeys])).then_raise 0x100F (gsynIdx g) g (ofInt 32 (s.gNow g).1)
  rw [Nat.mod_eq_of_lt (show g < 2 ^ 32 by omega), Nat.mod_eq_of_lt (ofInt_32_lt _)] at h1
  simp only [rampEnded, rampStopped, rampEnded_offset]
  exact h1

theorem rampEnded_values : ∀ p ∈ [(K.GSYN_RAMP_STATUS_STATE g, 0), (K.GSYN_RAMP_STATUS_SEG g, 255), (K.GSYN_OFFSET g, ofInt 32 (s.gNow g).1)],
    (rampEnded s g).rd p.1 = p.2 := by
  intro p hp
  simp only [rampEnded, rampStopped]
  rw [State.rd_raise]
  simp only [List.mem_cons, List.not_mem_nil, or_false] at hp
  obtain rfl | rfl | rfl := hp
  · simp (disch := (refine keys_ne rfl rfl ?_; omega)) only [State.wrs, List.foldl_cons, List.foldl_nil, State.rd_wr_ne, State.rd_wr_self]
  · simp only [State.wrs, List.foldl_cons, List.foldl_nil, State.rd_wr_self]
  · exact rampEnded_offset

/-! ## Realignment (R112, R117) -/

/-- The displacement, with a step that waited. -/
def realignFrom (s : State) (g : Nat) : State :=
  let t := s.gProfile g []
  (t.wr64 (K.GSYN_PHASE_NS g) (t.rd64 (K.GSYN_PHASE_NS g) - t.rd64 (H.gWait g))).wr (H.gWait g) 0

theorem realign_eq : s.realign g = (realignFrom s g).slewTo g 0 (-(realignFrom s g).rd64 (K.GSYN_PHASE_NS g)) false := rfl

theorem realignFrom_touches : Touches [K.GSYN_OFFSET g, K.GSYN_PHASE_NS g, H.gAt g, H.gWait g] [] s (realignFrom s g) :=
  (((gProfile_touches []).mono (ks' := [K.GSYN_OFFSET g, K.GSYN_PHASE_NS g, H.gAt g, H.gWait g]) (by simp)).then_wr (by simp)).then_wr (by simp)

/-- A family that realigns slews from now on, and no step waits. -/
theorem realign_values (hg : g < 8) : (s.realign g).rd (K.GSYN_RAMP_STATUS_STATE g) = 3 ∧ (s.realign g).rd (H.gWait g) = 0 ∧
    (s.realign g).rd (H.gStart g) = s.now ∧ ∃ x, raisedOf (s.realign g) = raisedOf s ++ [(0x1010, gsynIdx g, g, x)] := by
  have hwait : H.gWait g ∉ slewKeys g := by simp (disch := (refine keys_ne rfl rfl ?_; omega)) [slewKeys, eq_false_of_keys_ne]
  have hnow : (realignFrom s g).now = s.now :=
    realignFrom_touches.regs H.now (by simp (disch := (refine keys_ne rfl rfl ?_; omega)) [eq_false_of_keys_ne])
  rw [realign_eq]
  refine ⟨slewTo_state .., ?_, (slewTo_start ..).trans hnow, ?_⟩
  · rw [(slewTo_touches hg ..).regs _ hwait, realignFrom, State.rd_wr_self]
  · rw [(slewTo_touches hg ..).events, realignFrom_touches.events, List.append_nil]
    exact ⟨_, rfl⟩

/-- What realignment leaves. -/
theorem realign_rd (hg : g < 8) {k : Nat} (hs : k ∉ slewKeys g) (hw : k ≠ H.gWait g) : (s.realign g).rd k = s.rd k := by
  simp only [slewKeys, List.mem_cons, List.not_mem_nil, or_false, not_or] at hs
  obtain ⟨h0, h1, h2, h3⟩ := hs
  rw [realign_eq, (slewTo_touches hg ..).regs k (by simp only [slewKeys, List.mem_cons, List.not_mem_nil, or_false, not_or]; exact ⟨h0, h1, h2, h3⟩),
    realignFrom_touches.regs k (by simp [h0, h1, h2, hw])]

end

/-! ## The end of a segment (R117) -/

section
variable {s : State} {g : Fin 8}

theorem rampSegmentEnd_exec (hst : s.rd (K.GSYN_RAMP_STATUS_STATE g.val) = 1) (he : s.rd (H.gEnd g.val) ≤ s.now) :
    exec (.rampSegmentEnd g) s = .next (if s.rd (K.GSYN_RAMP_STATUS_SEG g.val) = 255 then s.realign g.val
      else s.rampGo g.val (s.rd (K.GSYN_RAMP_STATUS_SEG g.val) + 1)) := if_pos ⟨hst, he⟩

theorem rampSegmentEnd_next (hst : s.rd (K.GSYN_RAMP_STATUS_STATE g.val) = 1) (he : s.rd (H.gEnd g.val) ≤ s.now)
    (hseg : s.rd (K.GSYN_RAMP_STATUS_SEG g.val) ≠ 255) (hc : s.rd (K.GSYN_RAMP_STATUS_SEG g.val) + 1 < s.rd (K.GSYN_RAMP_COUNT g.val)) :
    Changes (.rampSegmentEnd g) s [(K.GSYN_RAMP_STATUS_STATE g.val, 1), (K.GSYN_RAMP_STATUS_SEG g.val, s.rd (K.GSYN_RAMP_STATUS_SEG g.val) + 1)]
      [H.gEnd g.val, K.GSYN_OFFSET g.val, K.GSYN_PHASE_NS g.val, H.gAt g.val] [] := by
  have hex : exec (.rampSegmentEnd g) s = .next (segStarted s g.val (s.rd (K.GSYN_RAMP_STATUS_SEG g.val) + 1)) := by
    rw [rampSegmentEnd_exec hst he, if_neg hseg, rampGo_next hc]
  refine changes_of_touches hex rfl ?_ (segStarted_touches _)
  obtain ⟨h0, h1⟩ := segStarted_values (s := s) (g := g.val) (s.rd (K.GSYN_RAMP_STATUS_SEG g.val) + 1)
  simpa using And.intro h0 h1

theorem rampSegmentEnd_last (hst : s.rd (K.GSYN_RAMP_STATUS_STATE g.val) = 1) (he : s.rd (H.gEnd g.val) ≤ s.now)
    (hseg : s.rd (K.GSYN_RAMP_STATUS_SEG g.val) ≠ 255) (hc : s.rd (K.GSYN_RAMP_COUNT g.val) ≤ s.rd (K.GSYN_RAMP_STATUS_SEG g.val) + 1)
    (hw : s.rd64 (H.gWait g.val) = 0) :
    Changes (.rampSegmentEnd g) s [(K.GSYN_RAMP_STATUS_STATE g.val, 0), (K.GSYN_RAMP_STATUS_SEG g.val, 255),
      (K.GSYN_OFFSET g.val, ofInt 32 (s.gNow g.val).1)] [K.GSYN_PHASE_NS g.val, H.gAt g.val]
      [(0x100F, gsynIdx g.val, g.val, ofInt 32 (s.gNow g.val).1)] := by
  have hwait : H.gWait g.val ∉ rampEndKeys g.val := by
    simp (disch := (refine keys_ne rfl rfl ?_; omega)) [rampEndKeys, eq_false_of_keys_ne]
  have hex : exec (.rampSegmentEnd g) s = .next (rampEnded s g.val) := by
    rw [rampSegmentEnd_exec hst he, if_neg hseg, rampGo_last hc, rampDone_eq, waitedSlew]
    refine congrArg Host.Outcome.next (if_pos ?_)
    rw [State.rd64, State.rdI, ← hw, State.rd64, State.rdI]
    exact congrArg (toInt 64) ((rampEnded_touches g.isLt).regs _ hwait)
  exact changes_of_touches hex rfl rampEnded_values (rampEnded_touches g.isLt)

theorem rampSegmentEnd_return (hst : s.rd (K.GSYN_RAMP_STATUS_STATE g.val) = 1) (he : s.rd (H.gEnd g.val) ≤ s.now)
    (hseg : s.rd (K.GSYN_RAMP_STATUS_SEG g.val) = 255) : exec (.rampSegmentEnd g) s = .next (s.realign g.val) := by
  rw [rampSegmentEnd_exec hst he, if_pos hseg]

end

/-! ## A written RAMP_RUN (R117) -/

section
variable {u : State} {g : Nat}

/-- The way back to offset 0. -/
def returnProfile (r : State) (g : Nat) : List Piece :=
  [((r.gNow g).1.natAbs * 1000000 / r.rd (K.GSYN_SLEW_SLOPE g), (r.gNow g).1, 0)]

/-- The offset returns to 0, as a segment without a number. -/
def returning (r : State) (g : Nat) : State :=
  (r.gProfile g (returnProfile r g)).wrs [(K.GSYN_RAMP_STATUS_STATE g, 1), (K.GSYN_RAMP_STATUS_SEG g, 255),
    (H.gEnd g, r.now + profDur (returnProfile r g))]

/-- What each value of RAMP_RUN does. -/
def rampAct (g v : Nat) (r : State) : State :=
  if v = 1 then r.rampGo g 0
  else if v = 2 then (r.gProfile g []).wr (K.GSYN_RAMP_STATUS_STATE g) 2
  else if (r.gNow g).1 = 0 then (returning r g).realign g else returning r g

theorem rampWrite_busy (h : u.rd (K.GSYN_RAMP_STATUS_STATE g) = 3) (v : Nat) : rampWrite g v u = ansBusy u := if_pos h

theorem rampWrite_acts (h : u.rd (K.GSYN_RAMP_STATUS_STATE g) ≠ 3) (v : Nat) :
    rampWrite g v u = ansOk (rampAct g v (u.wr (K.GSYN_RAMP_RUN g) v)) := by
  unfold rampWrite rampAct
  rw [if_neg h]
  generalize u.wr (K.GSYN_RAMP_RUN g) v = r
  dsimp only
  split
  · rfl
  · split
    · rfl
    · simp only [returning, returnProfile]

theorem returning_touches (r : State) : Touches (rampKeys g) [] r (returning r g) :=
  ((((gProfile_touches (s := r) (g := g) _).mono (by simp [rampKeys])).then_wr (by simp [rampKeys])).then_wr (by simp [rampKeys])).then_wr
    (by simp [rampKeys])

theorem returning_values (r : State) : (returning r g).rd (K.GSYN_RAMP_STATUS_STATE g) = 1 ∧ (returning r g).rd (K.GSYN_RAMP_STATUS_SEG g) = 255 ∧
    (returning r g).rd (H.gEnd g) = r.now + (r.gNow g).1.natAbs * 1000000 / r.rd (K.GSYN_SLEW_SLOPE g) := by
  refine ⟨?_, ?_, ?_⟩
  · simp (disch := (refine keys_ne rfl rfl ?_; omega)) only [returning, State.wrs, List.foldl_cons, List.foldl_nil, State.rd_wr_ne, State.rd_wr_self]
  · simp (disch := (refine keys_ne rfl rfl ?_; omega)) only [returning, State.wrs, List.foldl_cons, List.foldl_nil, State.rd_wr_ne, State.rd_wr_self]
  · simp only [returning, State.wrs, List.foldl_cons, List.foldl_nil, State.rd_wr_self, returnProfile, profDur, Nat.zero_add]

end

section
variable {s : State} {q : Req} {i : Nat} {g : Fin 8}

/-- Where RAMP_RUN of family g lies. -/
def rampLoc (g : Nat) : Loc := ⟨.gsyn, g, 0x11, 0, ⟨0x11, 0, 1, .u 1, .cmd, 0, 2, 0, .rng 1 3⟩⟩

theorem locate_ramp : ∀ g : Fin 8, locate (K.GSYN_RAMP_RUN g.val) = some (rampLoc g.val) := by decide

theorem writeEffect_ramp (n k v : Nat) (c : Wctx) (u : State) : writeEffect (rampLoc n) k v c u = rampWrite n v u := rfl

theorem rampLoc_admits {v : Nat} (h1 : 1 ≤ v) (h3 : v ≤ 3) (n k : Nat) : (rampLoc n).admits k v = true := by
  simp [Loc.admits, rampLoc, Ty.valid, Rng.admits, h1, h3]

theorem rampRun_obj (n : Fin 8) : K.GSYN_RAMP_RUN n.val < 2 ^ 24 := by
  simp only [K.GSYN_RAMP_RUN, K.at']
  omega

/-- An arrival leaves the objects of a family. -/
theorem arrived_family (hi : i ≤ 16) {k : Nat} (h : 0x9A0000 ≤ k) (h' : k < 2 ^ 24) : (arrived q i s).rd k = s.rd k :=
  arrived_obj s q hi (by omega) h'

/-- During a slew RAMP_RUN is BUSY. -/
theorem rampRun_busy (h : Serves s q i) (hr : holds (s.rd (K.SESS_RIGHTS i)) 2 = true) (hst : s.rd (K.GSYN_RAMP_STATUS_STATE g.val) = 3)
    {v : Nat} (h1 : 1 ≤ v) (h3 : v ≤ 3) : put q (K.GSYN_RAMP_RUN g.val) v [] s = .next (declined s q i (K.GSYN_RAMP_RUN g.val) 5 [] id) := by
  have hi := slot_le h.named
  refine put_declined (hd := 0) h (rampRun_obj g) (locate_ramp g) (.inr rfl) hr (show v < 256 by omega) (show 1 ≤ 1396 by decide)
    (rampLoc_admits h1 h3 _ _) (Bool.or_true _) [] id ?_ (by decide) (by decide) ?_
  · have hst' : (arrived q i s).rd (K.GSYN_RAMP_STATUS_STATE g.val) = 3 := by
      rw [arrived_family hi (by simp only [K.GSYN_RAMP_STATUS_STATE, K.at']; omega) (by simp only [K.GSYN_RAMP_STATUS_STATE, K.at']; omega), hst]
    rw [writeEffect_ramp, rampWrite_busy hst']
    rfl
  · rw [id, arrived_warmPend s q hi]
    decide

/-- The state in which a written RAMP_RUN acts. -/
def rampBegun (s : State) (q : Req) (i g v : Nat) : State := (arrived q i s).wr (K.GSYN_RAMP_RUN g) v

/-- What a written RAMP_RUN does. -/
def rampEffect (g v : Nat) (u : State) : State := (rampWrite g v u).s.wr (K.GSYN_RAMP_RUN g) v

theorem rampRun_exec (h : Serves s q i) (hr : holds (s.rd (K.SESS_RIGHTS i)) 2 = true) (hst : s.rd (K.GSYN_RAMP_STATUS_STATE g.val) ≠ 3)
    {v : Nat} (h1 : 1 ≤ v) (h3 : v ≤ 3) : put q (K.GSYN_RAMP_RUN g.val) v [] s = .next (wrote s q i (K.GSYN_RAMP_RUN g.val) (rampEffect g.val v)) ∧
      (rampWrite g.val v (arrived q i s)).s = rampAct g.val v (rampBegun s q i g.val v) := by
  have hi := slot_le h.named
  have hst' : (arrived q i s).rd (K.GSYN_RAMP_STATUS_STATE g.val) ≠ 3 := by
    rwa [arrived_family hi (by simp only [K.GSYN_RAMP_STATUS_STATE, K.at']; omega) (by simp only [K.GSYN_RAMP_STATUS_STATE, K.at']; omega)]
  have hacts := rampWrite_acts hst' v
  refine ⟨?_, by rw [hacts]; rfl⟩
  refine put_cmd h (rampRun_obj g) (locate_ramp g) rfl hr (show v < 256 by omega) (show 1 ≤ 1396 by decide)
    (rampLoc_admits h1 h3 _ _) (Bool.or_true _) [] (fun u => (rampWrite g.val v u).s) ?_
  rw [writeEffect_ramp, hacts]
  rfl

/-- A written RAMP_RUN whose effect asks for no warm reset: what the state then is. -/
theorem rampRun_ends (h : Serves s q i) (hr : holds (s.rd (K.SESS_RIGHTS i)) 2 = true) (hst : s.rd (K.GSYN_RAMP_STATUS_STATE g.val) ≠ 3)
    {v : Nat} (h1 : 1 ≤ v) (h3 : v ≤ 3)
    (hw : (rampAct g.val v (rampBegun s q i g.val v)).rd H.warmPend = (rampBegun s q i g.val v).rd H.warmPend) :
    ∃ t, put q (K.GSYN_RAMP_RUN g.val) v [] s = .next t ∧ t.rd (K.GSYN_RAMP_RUN g.val) = v ∧
      (∀ k, k ≠ K.GSYN_RAMP_RUN g.val → k ≠ K.IDENT_CFG_SEQ → t.rd k = (rampAct g.val v (rampBegun s q i g.val v)).rd k) ∧
      (∀ k, t.vec k = (rampAct g.val v (rampBegun s q i g.val v)).vec k) ∧
      raisedOf t = raisedOf (rampAct g.val v (rampBegun s q i g.val v)) ∧ StoresKept s t := by
  obtain ⟨hex, heff⟩ := rampRun_exec (g := g) h hr hst h1 h3
  have hrun : K.GSYN_RAMP_RUN g.val ≠ K.IDENT_CFG_SEQ := keys_ne rfl rfl (by omega)
  have hwne : H.warmPend ≠ K.GSYN_RAMP_RUN g.val := keys_ne rfl rfl (by omega)
  have hwarm : (rampEffect g.val v (arrived q i s)).rd H.warmPend ≠ 1 := by
    rw [rampEffect, State.rd_wr_ne _ _ hwne, heff, hw, rampBegun, State.rd_wr_ne _ _ hwne, arrived_warmPend s q (slot_le h.named)]
    decide
  refine ⟨_, hex, ?_, fun k hk hc => ?_, fun k => ?_, ?_, ?_⟩
  · rw [wrote_rd hwarm hrun, rampEffect, State.rd_wr_self]
  · rw [wrote_rd hwarm hc, rampEffect, State.rd_wr_ne _ _ hk, heff]
  · rw [wrote_vec hwarm, rampEffect, State.vec_wr, heff]
  · rw [wrote_raisedOf hwarm, raisedOf, rampEffect, State.wr_raised, heff, raisedOf]
  · refine storesKept_wrote hwarm ?_
    rw [rampEffect]
    exact (storesKept_kept s).wr _ _ _ (rampWrite_keeps (storesKept_kept s) (storesKept_arrived s q i))

/-- Where it acts a family stands as before. -/
theorem rampBegun_rd (hi : i ≤ 16) {v k : Nat} (hk : 0x9A0000 ≤ k) (h' : k < 2 ^ 24) (hne : k ≠ K.GSYN_RAMP_RUN g.val) :
    (rampBegun s q i g.val v).rd k = s.rd k := by
  rw [rampBegun, State.rd_wr_ne _ _ hne, arrived_family hi hk h']

theorem rampBegun_now (hi : i ≤ 16) (v : Nat) : (rampBegun s q i g.val v).now = s.now := by
  have hne : H.now ≠ K.GSYN_RAMP_RUN g.val := keys_ne rfl rfl (by omega)
  rw [rampBegun, State.now, State.rd_wr_ne _ _ hne]
  exact arrived_now s q hi

theorem rampBegun_raisedOf (v : Nat) : raisedOf (rampBegun s q i g.val v) = raisedOf s := by
  rw [raisedOf, rampBegun, State.wr_raised, arrived_raised, raisedOf]

/-- The offset and the displacement of a family follow from its profile, its registers and the time. -/
theorem gNow_congr {s t : State} {n : Nat} (hv : t.vec (H.gProf n) = s.vec (H.gProf n)) (hn : t.now = s.now) (ha : t.rd (H.gAt n) = s.rd (H.gAt n))
    (ho : t.rd (K.GSYN_OFFSET n) = s.rd (K.GSYN_OFFSET n)) (hp : t.rd (K.GSYN_PHASE_NS n) = s.rd (K.GSYN_PHASE_NS n)) : t.gNow n = s.gNow n := by
  simp only [State.gNow, State.rd64, State.rdI, hv, hn, ha, ho, hp]

theorem rampBegun_gNow (hi : i ≤ 16) (v : Nat) : (rampBegun s q i g.val v).gNow g.val = s.gNow g.val := by
  have hne : H.gAt g.val ≠ K.GSYN_RAMP_RUN g.val := keys_ne rfl rfl (by omega)
  have hat : (arrived q i s).rd (H.gAt g.val) = s.rd (H.gAt g.val) := by
    refine arrived_rd s q i _ (fun hmem => ?_)
    simp only [arrivalKeys, List.mem_cons, List.not_mem_nil, or_false, K.SESS_PORT, K.SESS_ADDR, K.SESS_UDP, K.SESS_LAST_SEQ, H.sessOwn, H.lastReq,
      H.sessMute, H.warmPend, H.hk, K.at', H.gAt] at hmem
    omega
  refine gNow_congr ?_ (rampBegun_now hi v) ?_ ?_ ?_
  · rw [rampBegun, State.vec_wr, arrived_eq_reg]
    rfl
  · rw [rampBegun, State.rd_wr_ne _ _ hne, hat]
  · exact rampBegun_rd hi (by simp only [K.GSYN_OFFSET, K.at']; omega) (by simp only [K.GSYN_OFFSET, K.at']; omega) (keys_ne rfl rfl (by omega))
  · exact rampBegun_rd hi (by simp only [K.GSYN_PHASE_NS, K.at']; omega) (by simp only [K.GSYN_PHASE_NS, K.at']; omega) (keys_ne rfl rfl (by omega))

/-- No ramp asks for a warm reset. -/
theorem warmPend_not_rampKeys (n : Fin 8) : H.warmPend ∉ rampKeys n.val := by
  simp (disch := (refine keys_ne rfl rfl ?_; omega)) [rampKeys, eq_false_of_keys_ne]

section
variable (h : Serves s q i) (hr : holds (s.rd (K.SESS_RIGHTS i)) 2 = true) (hst : s.rd (K.GSYN_RAMP_STATUS_STATE g.val) ≠ 3)
include h hr hst

theorem rampRun_starts (hc : 0 < s.rd (K.GSYN_RAMP_COUNT g.val)) : Ends (.rampRun q g) s (fun t => t.rd (K.GSYN_RAMP_STATUS_STATE g.val) = 1 ∧
    t.rd (K.GSYN_RAMP_STATUS_SEG g.val) = 0 ∧ t.rd (K.GSYN_RAMP_RUN g.val) = 1 ∧ raisedOf t = raisedOf s ∧ StoresKept s t) := by
  have hi := slot_le h.named
  have hcount : (rampBegun s q i g.val 1).rd (K.GSYN_RAMP_COUNT g.val) = s.rd (K.GSYN_RAMP_COUNT g.val) :=
    rampBegun_rd hi (by simp only [K.GSYN_RAMP_COUNT, K.at']; omega) (by simp only [K.GSYN_RAMP_COUNT, K.at']; omega) (keys_ne rfl rfl (by omega))
  have hact : rampAct g.val 1 (rampBegun s q i g.val 1) = segStarted (rampBegun s q i g.val 1) g.val 0 := by
    rw [rampAct, if_pos rfl, rampGo_next (by rwa [hcount])]
  have ht := segStarted_touches (s := rampBegun s q i g.val 1) (g := g.val) 0
  obtain ⟨hstate, hseg⟩ := segStarted_values (s := rampBegun s q i g.val 1) (g := g.val) 0
  obtain ⟨t, hex, hrun, hrd, -, hev, hst⟩ := rampRun_ends (g := g) h hr hst (v := 1) (by decide) (by decide)
    (by rw [hact]; exact ht.regs _ (warmPend_not_rampKeys _))
  rw [hact] at hrd hev
  refine ⟨t, hex, ?_, ?_, hrun, ?_, hst⟩
  · exact (hrd _ (keys_ne rfl rfl (by omega)) (keys_ne rfl rfl (by omega))).trans hstate
  · exact (hrd _ (keys_ne rfl rfl (by omega)) (keys_ne rfl rfl (by omega))).trans hseg
  · rw [hev, ht.events, List.append_nil, rampBegun_raisedOf]

theorem rampHold_holds : Ends (.rampHold q g) s (fun t => t.rd (K.GSYN_RAMP_STATUS_STATE g.val) = 2 ∧
    t.rd (K.GSYN_RAMP_STATUS_SEG g.val) = s.rd (K.GSYN_RAMP_STATUS_SEG g.val) ∧ t.rd (K.GSYN_OFFSET g.val) = ofInt 32 (s.gNow g.val).1 ∧
    t.rd (K.GSYN_RAMP_RUN g.val) = 2 ∧ t.vec (H.gProf g.val) = [] ∧ raisedOf t = raisedOf s ∧ StoresKept s t) := by
  have hi := slot_le h.named
  have hact : rampAct g.val 2 (rampBegun s q i g.val 2) = ((rampBegun s q i g.val 2).gProfile g.val []).wr (K.GSYN_RAMP_STATUS_STATE g.val) 2 := by
    rw [rampAct, if_neg (by decide), if_pos rfl]
  have ht : Touches [K.GSYN_RAMP_STATUS_STATE g.val, K.GSYN_OFFSET g.val, K.GSYN_PHASE_NS g.val, H.gAt g.val] [] (rampBegun s q i g.val 2)
      (((rampBegun s q i g.val 2).gProfile g.val []).wr (K.GSYN_RAMP_STATUS_STATE g.val) 2) := ((gProfile_touches []).mono (by simp)).then_wr (by simp)
  obtain ⟨t, hex, hrun, hrd, hvec, hev, hst⟩ := rampRun_ends (g := g) h hr hst (v := 2) (by decide) (by decide)
    (by rw [hact]; exact ht.regs _ (by simp (disch := (refine keys_ne rfl rfl ?_; omega)) [eq_false_of_keys_ne]))
  rw [hact] at hrd hev hvec
  refine ⟨t, hex, ?_, ?_, ?_, hrun, ?_, ?_, hst⟩
  · exact (hrd _ (keys_ne rfl rfl (by omega)) (keys_ne rfl rfl (by omega))).trans (State.rd_wr_self ..)
  · have hbegun : (rampBegun s q i g.val 2).rd (K.GSYN_RAMP_STATUS_SEG g.val) = s.rd (K.GSYN_RAMP_STATUS_SEG g.val) := rampBegun_rd hi
      (by simp only [K.GSYN_RAMP_STATUS_SEG, K.at']; omega) (by simp only [K.GSYN_RAMP_STATUS_SEG, K.at']; omega) (keys_ne rfl rfl (by omega))
    have hkept := ht.regs (K.GSYN_RAMP_STATUS_SEG g.val) (by simp (disch := (refine keys_ne rfl rfl ?_; omega)) [eq_false_of_keys_ne])
    exact (hrd _ (keys_ne rfl rfl (by omega)) (keys_ne rfl rfl (by omega))).trans (hkept.trans hbegun)
  · have hne : K.GSYN_OFFSET g.val ≠ K.GSYN_RAMP_STATUS_STATE g.val := keys_ne rfl rfl (by omega)
    have hoff : ((rampBegun s q i g.val 2).gProfile g.val []).rd (K.GSYN_OFFSET g.val) = ofInt 32 ((rampBegun s q i g.val 2).gNow g.val).1 :=
      gProfile_values [] (p := (K.GSYN_OFFSET g.val, ofInt 32 ((rampBegun s q i g.val 2).gNow g.val).1)) (by simp [profileRegs])
    rw [rampBegun_gNow hi] at hoff
    exact (hrd _ (keys_ne rfl rfl (by omega)) (keys_ne rfl rfl (by omega))).trans ((State.rd_wr_ne _ _ hne).trans hoff)
  · rw [hvec, State.vec_wr, gProfile_vec]
    rfl
  · rw [hev, ht.events, List.append_nil, rampBegun_raisedOf]

/-- From an offset the family returns to 0. -/
theorem rampReturn_returns (hf : (s.gNow g.val).1 ≠ 0) : Ends (.rampReturn q g) s (fun t => t.rd (K.GSYN_RAMP_STATUS_STATE g.val) = 1 ∧
    t.rd (K.GSYN_RAMP_STATUS_SEG g.val) = 255 ∧ t.rd (K.GSYN_RAMP_RUN g.val) = 3 ∧
    t.rd (H.gEnd g.val) = s.now + (s.gNow g.val).1.natAbs * 1000000 / s.rd (K.GSYN_SLEW_SLOPE g.val) ∧ raisedOf t = raisedOf s ∧ StoresKept s t) := by
  have hi := slot_le h.named
  have hact : rampAct g.val 3 (rampBegun s q i g.val 3) = returning (rampBegun s q i g.val 3) g.val := by
    rw [rampAct, if_neg (by decide), if_neg (by decide), if_neg (by rwa [rampBegun_gNow hi])]
  have ht := returning_touches (g := g.val) (rampBegun s q i g.val 3)
  obtain ⟨hstate, hseg, hend⟩ := returning_values (g := g.val) (rampBegun s q i g.val 3)
  obtain ⟨t, hex, hrun, hrd, -, hev, hst⟩ := rampRun_ends (g := g) h hr hst (v := 3) (by decide) (by decide)
    (by rw [hact]; exact ht.regs _ (warmPend_not_rampKeys _))
  rw [hact] at hrd hev
  refine ⟨t, hex, ?_, ?_, hrun, ?_, ?_, hst⟩
  · exact (hrd _ (keys_ne rfl rfl (by omega)) (keys_ne rfl rfl (by omega))).trans hstate
  · exact (hrd _ (keys_ne rfl rfl (by omega)) (keys_ne rfl rfl (by omega))).trans hseg
  · have hslope : (rampBegun s q i g.val 3).rd (K.GSYN_SLEW_SLOPE g.val) = s.rd (K.GSYN_SLEW_SLOPE g.val) :=
      rampBegun_rd hi (by simp only [K.GSYN_SLEW_SLOPE, K.at']; omega) (by simp only [K.GSYN_SLEW_SLOPE, K.at']; omega) (keys_ne rfl rfl (by omega))
    rw [rampBegun_now hi, rampBegun_gNow hi, hslope] at hend
    exact (hrd _ (keys_ne rfl rfl (by omega)) (keys_ne rfl rfl (by omega))).trans hend
  · rw [hev, ht.events, List.append_nil, rampBegun_raisedOf]

/-- At offset 0 the family realigns at once. -/
theorem rampReturn_realigns (hf : (s.gNow g.val).1 = 0) : Ends (.rampReturn q g) s (fun t => t.rd (K.GSYN_RAMP_STATUS_SEG g.val) = 255 ∧
    t.rd (K.GSYN_RAMP_RUN g.val) = 3 ∧ t.rd (K.GSYN_RAMP_STATUS_STATE g.val) = 3 ∧ t.rd (H.gWait g.val) = 0 ∧ t.rd (H.gStart g.val) = s.now ∧
    (∃ x, raisedOf t = raisedOf s ++ [(0x1010, gsynIdx g.val, g.val, x)]) ∧ StoresKept s t) := by
  have hi := slot_le h.named
  have hact : rampAct g.val 3 (rampBegun s q i g.val 3) = (returning (rampBegun s q i g.val 3) g.val).realign g.val := by
    rw [rampAct, if_neg (by decide), if_neg (by decide), if_pos (by rwa [rampBegun_gNow hi])]
  have ht := returning_touches (g := g.val) (rampBegun s q i g.val 3)
  obtain ⟨-, hseg, -⟩ := returning_values (g := g.val) (rampBegun s q i g.val 3)
  obtain ⟨hstate, hwait, hstart, x, hx⟩ := realign_values (s := returning (rampBegun s q i g.val 3) g.val) g.isLt
  have hkeep {k : Nat} (hk : k ∈ [H.warmPend, K.GSYN_RAMP_STATUS_SEG g.val]) :
      ((returning (rampBegun s q i g.val 3) g.val).realign g.val).rd k = (returning (rampBegun s q i g.val 3) g.val).rd k := by
    simp only [List.mem_cons, List.not_mem_nil, or_false] at hk
    obtain rfl | rfl := hk
    · exact realign_rd g.isLt (by simp (disch := (refine keys_ne rfl rfl ?_; omega)) [slewKeys, eq_false_of_keys_ne]) (keys_ne rfl rfl (by omega))
    · exact realign_rd g.isLt (by simp (disch := (refine keys_ne rfl rfl ?_; omega)) [slewKeys, eq_false_of_keys_ne]) (keys_ne rfl rfl (by omega))
  have hsegKept := hkeep (k := K.GSYN_RAMP_STATUS_SEG g.val) (by simp)
  obtain ⟨t, hex, hrun, hrd, -, hev, hst⟩ := rampRun_ends (g := g) h hr hst (v := 3) (by decide) (by decide)
    (by rw [hact, hkeep (by simp)]; exact ht.regs _ (warmPend_not_rampKeys _))
  have hnow : (returning (rampBegun s q i g.val 3) g.val).now = s.now := by
    rw [State.now, ht.regs _ (by simp (disch := (refine keys_ne rfl rfl ?_; omega)) [rampKeys, eq_false_of_keys_ne])]
    exact rampBegun_now hi 3
  rw [hact] at hrd hev
  refine ⟨t, hex, ?_, hrun, ?_, ?_, ?_, ⟨x, ?_⟩, hst⟩
  · exact (hrd _ (keys_ne rfl rfl (by omega)) (keys_ne rfl rfl (by omega))).trans (hsegKept.trans hseg)
  · exact (hrd _ (keys_ne rfl rfl (by omega)) (keys_ne rfl rfl (by omega))).trans hstate
  · exact (hrd _ (keys_ne rfl rfl (by omega)) (keys_ne rfl rfl (by omega))).trans hwait
  · exact (hrd _ (keys_ne rfl rfl (by omega)) (keys_ne rfl rfl (by omega))).trans (hstart.trans hnow)
  · rw [hev, hx, ht.events, List.append_nil, rampBegun_raisedOf]

end

end
end Sys2Proof
end

section
/-! DIVSYNC (R118), and the statement on slews and ramps. -/
namespace Sys2Proof

open Machine

section
variable {s : State}

/-- A synced divider restarts. -/
def divRestarted (c : Nat) (t : State) : State := if t.rd (K.CLKOUT_SYNC c) = 1 then t.wr (H.divRestart c) t.now else t

/-- The edge is noted, and the synced dividers restart. -/
def divEdge (s : State) : State := (s.wr H.divAt (s.now + 1)).upto 2 divRestarted

/-- A family that the edge places. -/
def divFamily (moves : List Int) (t : State) (g : Nat) : State := (t.wr (H.gDivsync g) 1).famStep g (moves.getD g 0)

/-- The families an edge places. -/
def divFamilies (s : State) : List Nat := (List.range 8).filter (fun g => s.rd (K.GSYN_DIVSYNC g) == 1)

theorem mem_divFamilies {g : Nat} : g ∈ divFamilies s ↔ g < 8 ∧ s.rd (K.GSYN_DIVSYNC g) = 1 := by
  simp [divFamilies]

/-- The largest displacement. -/
def divBig (moves : List Int) (l : List Nat) : Int := l.foldl (fun a g => if a.natAbs < (moves.getD g 0).natAbs then moves.getD g 0 else a) 0

theorem divRestarted_touches (c : Nat) (t : State) : Touches [H.divRestart c] [] t (divRestarted c t) := by
  rw [divRestarted]
  split
  · exact .wr ..
  · exact .refl ..

theorem divEdge_touches : Touches [H.divAt, H.divRestart 0, H.divRestart 1] [] s (divEdge s) := by
  rw [divEdge, upto_two]
  exact ((Touches.wr s H.divAt (s.now + 1)).trans (divRestarted_touches 0 _)).trans (divRestarted_touches 1 _)

/-- A synced divider restarts now. -/
theorem divEdge_restart {c : Nat} (hc : c < 2) : (divEdge s).rd (H.divRestart c) = if s.rd (K.CLKOUT_SYNC c) = 1 then s.now else s.rd (H.divRestart c) := by
  have hkeep : ∀ m < 2, m ≠ c → ∀ t, ∀ k ∈ [H.divRestart c, K.CLKOUT_SYNC c, H.now], (divRestarted m t).rd k = t.rd k := by
    intro m _ hne t k hk
    refine (divRestarted_touches m t).regs k ?_
    simp only [List.mem_cons, List.not_mem_nil, or_false] at hk ⊢
    obtain rfl | rfl | rfl := hk <;> exact keys_ne rfl rfl (by omega)
  have hat {k : Nat} (hk : k ∈ [H.divRestart c, K.CLKOUT_SYNC c, H.now]) : (s.wr H.divAt (s.now + 1)).rd k = s.rd k := by
    refine State.rd_wr_ne _ _ ?_
    simp only [List.mem_cons, List.not_mem_nil, or_false] at hk
    obtain rfl | rfl | rfl := hk <;> exact keys_ne rfl rfl (by omega)
  obtain ⟨t, ht, hend⟩ := upto_rd_at hc hkeep (s.wr H.divAt (s.now + 1))
  rw [divEdge, hend _ (by simp), divRestarted, State.now, ht (K.CLKOUT_SYNC c) (by simp), ht H.now (by simp), hat (by simp), hat (k := H.now) (by simp),
    State.now]
  split
  · rw [State.rd_wr_self]
  · rw [ht _ (by simp), hat (by simp)]

theorem divEdge_at : (divEdge s).rd H.divAt = s.now + 1 := by
  have h0 : H.divAt ≠ H.divRestart 0 := keys_ne rfl rfl (by omega)
  have h1 : H.divAt ≠ H.divRestart 1 := keys_ne rfl rfl (by omega)
  rw [divEdge, upto_two, (divRestarted_touches 1 _).regs _ (by simp [h1]), (divRestarted_touches 0 _).regs _ (by simp [h0]), State.rd_wr_self]

/-- What a family that the edge places may change. -/
def DivReg (g k : Nat) : Prop := k = H.gDivsync g ∨ FamRegs g k

theorem divFamily_confined (moves : List Int) {g : Nat} (hg : g < 8) (t : State) : Confined (DivReg g) famCode t (divFamily moves t g) :=
  ((Confined.refl t).wr 1 (.inl rfl)).trans ((famStepAt_confined hg _ false).mono (fun _ => .inr) (fun _ => id))

theorem divFamilies_confined (moves : List Int) {l : List Nat} (hl : ∀ g ∈ l, g < 8) (t : State) :
    Confined (fun k => ∃ g ∈ l, DivReg g k) famCode t (l.foldl (divFamily moves) t) := by
  induction l generalizing t with
  | nil => exact .refl t
  | cons a l ih =>
    have ha := divFamily_confined moves (hl a (List.mem_cons_self ..)) t
    exact (ha.mono (fun _ hk => ⟨a, List.mem_cons_self .., hk⟩) (fun _ => id)).trans
      ((ih (fun g hg => hl g (List.mem_cons_of_mem _ hg)) _).mono (fun _ ⟨g, hg, hk⟩ => ⟨g, List.mem_cons_of_mem _ hg, hk⟩) (fun _ => id))

/-- A family's mark is no other register of a family. -/
theorem not_famRegs_divsync {g f : Nat} (hg : g < 8) (hf : f < 8) : ¬ FamRegs g (H.gDivsync f) := by
  simp only [FamRegs, FamReg, slewKeys, List.mem_cons, List.not_mem_nil, or_false, K.GSYN_OFFSET, K.GSYN_PHASE_NS, K.GSYN_RAMP_STATUS_STATE, K.at', H.gAt,
    H.gBase, H.gDist, H.gEnd, H.gStart, H.gWait, H.gLate, H.gDivsync, H.outAdj, H.outAdjOn, H.hk]
  rintro (h | h | h | ⟨n, hn, h⟩) <;> omega

/-- The mark of a family that is placed is set. -/
theorem divFamilies_mark (moves : List Int) {l : List Nat} (hl : ∀ g ∈ l, g < 8) {f : Nat} (hf : f < 8) (t : State)
    (h : f ∈ l ∨ t.rd (H.gDivsync f) = 1) : (l.foldl (divFamily moves) t).rd (H.gDivsync f) = 1 := by
  induction l generalizing t with
  | nil => simpa using h
  | cons a l ih =>
    have ha := hl a (List.mem_cons_self ..)
    refine ih (fun g hg => hl g (List.mem_cons_of_mem _ hg)) _ ?_
    have hrd : (divFamily moves t a).rd (H.gDivsync f) = (t.wr (H.gDivsync a) 1).rd (H.gDivsync f) :=
      (famStepAt_confined ha _ false).rd _ (not_famRegs_divsync ha hf)
    by_cases hfa : f = a
    · subst hfa
      exact .inr (hrd.trans (State.rd_wr_self ..))
    · have hne : H.gDivsync f ≠ H.gDivsync a := keys_ne rfl rfl (by omega)
      refine h.elim (fun hm => .inl ((List.mem_cons.mp hm).resolve_left hfa)) (fun hm => .inr ?_)
      rw [hrd, State.rd_wr_ne _ _ hne, hm]

/-- The mask of an edge fits its argument. -/
theorem divMask_lt (s : State) : (divFamilies s).foldl (fun m f => m + 2 ^ f) 0 < 2 ^ 32 := by
  have hsum (l : List Nat) (a : Nat) : l.foldl (fun m f => m + 2 ^ f) a = a + (l.map (2 ^ ·)).sum := by
    induction l generalizing a with
    | nil => simp
    | cons b l ih => rw [List.foldl_cons, ih, List.map_cons, List.sum_cons, Nat.add_assoc]
  have hle : ((divFamilies s).map (2 ^ ·)).sum ≤ ((List.range 8).map (2 ^ ·)).sum :=
    (List.filter_sublist.map _).sum_le_sum (fun _ _ => Nat.zero_le _)
  have h8 : ((List.range 8).map (2 ^ ·)).sum = 255 := by decide
  rw [hsum]
  omega

theorem divFamilies_edge : divFamilies (divEdge s) = divFamilies s := by
  refine List.filter_congr (fun g hg => ?_)
  have hlt := List.mem_range.mp hg
  have h : (divEdge s).rd (K.GSYN_DIVSYNC g) = s.rd (K.GSYN_DIVSYNC g) := by
    refine divEdge_touches.regs _ ?_
    simp (disch := (refine keys_ne rfl rfl ?_; omega)) [eq_false_of_keys_ne]
  rw [h]

theorem divsyncEdge_exec (moves : List Int) (h : s.rd H.divAt = 0 ∨ s.rd H.divAt - 1 + 10000 ≤ s.now) :
    exec (.divsyncEdge moves) s = .next (((divFamilies s).foldl (divFamily moves) (divEdge s)).raise 0x1012 0x9A00
      ((divFamilies s).foldl (fun m f => m + 2 ^ f) 0) (satI32 (divBig moves (divFamilies s)))) := by
  rw [← divFamilies_edge (s := s)]
  simp only [exec, execDivsyncEdge]
  rw [if_neg (by omega)]
  rfl

theorem divsyncEdge_early (moves : List Int) (h0 : s.rd H.divAt ≠ 0) (h : s.now < s.rd H.divAt - 1 + 10000) : Idles (.divsyncEdge moves) s :=
  if_pos ⟨h0, h⟩

/-- What the families that are placed leave of the others. -/
theorem divFamilies_rd (moves : List Int) (t : State) {k : Nat} (hk : ∀ g < 8, s.rd (K.GSYN_DIVSYNC g) = 1 → ¬ DivReg g k) :
    ((divFamilies s).foldl (divFamily moves) t).rd k = t.rd k :=
  (divFamilies_confined moves (fun _ hg => (mem_divFamilies.mp hg).1) t).rd k
    (fun ⟨g, hg, hreg⟩ => hk g (mem_divFamilies.mp hg).1 (mem_divFamilies.mp hg).2 hreg)

/-- DIVSYNC is no register of a family's loop. -/
theorem not_divReg_div {g k : Nat} (hg : g < 8) (hk : k = H.divAt ∨ k = H.divRestart 0 ∨ k = H.divRestart 1) : ¬ DivReg g k := by
  simp only [DivReg, FamRegs, FamReg, slewKeys, List.mem_cons, List.not_mem_nil, or_false, K.GSYN_OFFSET, K.GSYN_PHASE_NS, K.GSYN_RAMP_STATUS_STATE, K.at',
    H.gAt, H.gBase, H.gDist, H.gEnd, H.gStart, H.gWait, H.gLate, H.gDivsync, H.outAdj, H.outAdjOn, H.divAt, H.divRestart, H.hk] at hk ⊢
  rintro (h | h | h | h | ⟨n, hn, h⟩) <;> omega

/-- A family that is placed leaves the mark and the offset of the others. -/
theorem not_divReg_other {g f k : Nat} (hg : g < 8) (hf : f < 8) (hne : g ≠ f) (hk : k = H.gDivsync f ∨ k = K.GSYN_OFFSET f) : ¬ DivReg g k := by
  simp only [DivReg, FamRegs, FamReg, slewKeys, List.mem_cons, List.not_mem_nil, or_false, K.GSYN_OFFSET, K.GSYN_PHASE_NS, K.GSYN_RAMP_STATUS_STATE, K.at',
    H.gAt, H.gBase, H.gDist, H.gEnd, H.gStart, H.gWait, H.gLate, H.gDivsync, H.outAdj, H.outAdjOn, H.hk] at hk ⊢
  rintro (h | h | h | h | ⟨n, hn, h⟩) <;> omega

theorem divsyncEdge_ends (moves : List Int) (h : s.rd H.divAt = 0 ∨ s.rd H.divAt - 1 + 10000 ≤ s.now) :
    Ends (.divsyncEdge moves) s (fun t => t.rd H.divAt = s.now + 1 ∧ StoresKept s t ∧
      (∀ c < 2, t.rd (H.divRestart c) = if s.rd (K.CLKOUT_SYNC c) = 1 then s.now else s.rd (H.divRestart c)) ∧
      (∀ f < 8, s.rd (K.GSYN_DIVSYNC f) = 1 → t.rd (H.gDivsync f) = 1) ∧
      (∀ f < 8, s.rd (K.GSYN_DIVSYNC f) ≠ 1 → t.rd (H.gDivsync f) = s.rd (H.gDivsync f) ∧ t.rd (K.GSYN_OFFSET f) = s.rd (K.GSYN_OFFSET f)) ∧
      ∃ (l : List (Nat × Nat × Nat × Nat)) (a : Nat), raisedOf t = raisedOf s ++ l ++
        [(0x1012, 0x9A00, ((List.range 8).filter (fun f => s.rd (K.GSYN_DIVSYNC f) == 1)).foldl (fun m f => m + 2 ^ f) 0, a)]) := by
  have hex := divsyncEdge_exec moves h
  refine ⟨_, hex, ?_, storesKept_of_exec hex rfl, fun c hc => ?_, fun f hf h1 => ?_, fun f hf h1 => ?_, ?_⟩
  · rw [State.rd_raise, divFamilies_rd moves _ (fun g hg _ => not_divReg_div hg (.inl rfl)), divEdge_at]
  · have hk : H.divRestart c = H.divRestart 0 ∨ H.divRestart c = H.divRestart 1 := by
      obtain rfl | rfl : c = 0 ∨ c = 1 := by omega
      · exact .inl rfl
      · exact .inr rfl
    rw [State.rd_raise, divFamilies_rd moves _ (fun g hg _ => not_divReg_div hg (.inr hk)), divEdge_restart hc]
  · rw [State.rd_raise]
    exact divFamilies_mark moves (fun _ hg => (mem_divFamilies.mp hg).1) hf _ (.inl (mem_divFamilies.mpr ⟨hf, h1⟩))
  · have hother {k : Nat} (hk : k = H.gDivsync f ∨ k = K.GSYN_OFFSET f) : ((divFamilies s).foldl (divFamily moves) (divEdge s)).rd k = s.rd k := by
      rw [divFamilies_rd moves _ (fun g hg hg1 => not_divReg_other hg hf (fun he => h1 (he ▸ hg1)) hk)]
      refine divEdge_touches.regs k ?_
      obtain rfl | rfl := hk <;> simp (disch := (refine keys_ne rfl rfl ?_; omega)) [eq_false_of_keys_ne]
    rw [State.rd_raise, State.rd_raise]
    exact ⟨hother (.inl rfl), hother (.inr rfl)⟩
  · obtain ⟨l, hl, -⟩ := (divFamilies_confined moves (fun _ hg => (mem_divFamilies.mp hg).1) (divEdge s)).events
    refine ⟨l, satI32 (divBig moves (divFamilies s)) % 2 ^ 32, ?_⟩
    rw [raisedOf_raise, hl, divEdge_touches.events, List.append_nil, Nat.mod_eq_of_lt (divMask_lt s)]
    rfl

end

/-- Settles O33: slews and ramps through the profile that starts in each case, DIVSYNC family by family. -/
theorem slewsAndRamps : Obligations.SlewsAndRamps := by
  intro g s
  refine ⟨slewDone_changes, slewDone_again, fun h => ?_, fun hst he hseg hc => rampSegmentEnd_next hst he hseg hc,
    fun hst he hseg hc hw => rampSegmentEnd_last hst he hseg hc hw, fun hst he hseg => ?_, fun h => ?_, fun q i hs hr => ?_, fun moves => ?_⟩
  · exact if_pos (h.imp id (fun he => not_le.mp he))
  · have hex := rampSegmentEnd_return hst he hseg
    obtain ⟨hstate, hwait, hstart, hev⟩ := realign_values (s := s) g.isLt
    refine ⟨_, hex, ⟨hstate, hwait, hstart, hev, storesKept_of_exec hex rfl⟩, ?_⟩
    have hrd : (s.realign g.val).rd (K.GSYN_RAMP_STATUS_SEG g.val) = s.rd (K.GSYN_RAMP_STATUS_SEG g.val) :=
      realign_rd g.isLt (by simp (disch := (refine keys_ne rfl rfl ?_; omega)) [slewKeys, eq_false_of_keys_ne]) (keys_ne rfl rfl (by omega))
    exact hrd.trans hseg
  · refine if_neg (fun hboth => ?_)
    exact h.elim (fun hst => hst hboth.1) (fun he => he hboth.2)
  · refine ⟨fun hst c hc => ?_, rampRun_starts hs hr, rampHold_holds hs hr, fun hst hf => ?_, rampReturn_returns hs hr⟩
    · obtain rfl | rfl | rfl := hc
      · exact rampRun_busy hs hr hst (v := 1) (by decide) (by decide)
      · exact rampRun_busy hs hr hst (v := 2) (by decide) (by decide)
      · exact rampRun_busy hs hr hst (v := 3) (by decide) (by decide)
    · obtain ⟨t, hex, hseg, hrun, hstate, hwait, hstart, hev, hkept⟩ := rampReturn_realigns hs hr hst hf
      exact ⟨t, hex, hseg, hrun, hstate, hwait, hstart, hev, hkept⟩
  · exact ⟨divsyncEdge_early moves, divsyncEdge_ends moves⟩

end Sys2Proof
end

section
/-! Families that search, lock and freeze; the PLLs of the block (R114 to R116). -/
namespace Sys2Proof

open Machine

/-! ## What runs on a family shows its state (R116) -/

/-- One step of the loop: what runs on family g shows v. -/
def shownStep (fam tst : Nat → Nat) (g v n : Nat) (t : State) : State :=
  if t.rd (fam n) = g ∧ t.rd (tst n) ≠ 0 then t.wr (tst n) v else t

section
variable {fam tst : Nat → Nat} {g v : Nat} {s : State}

theorem shownStep_touches (n : Nat) (t : State) : Touches [tst n] [] t (shownStep fam tst g v n t) := by
  rw [shownStep]
  split
  · exact .wr ..
  · exact .refl ..

theorem shownLoop_touches (n : Nat) : Touches ((List.range n).map tst) [] s (s.upto n (shownStep fam tst g v)) := by
  induction n with
  | zero => exact .refl ..
  | succ n ih =>
    rw [upto_succ, List.range_succ, List.map_append]
    exact ih.trans (shownStep_touches n _)

/-- Each shows v where it runs on the family. -/
theorem shownLoop_value {n o : Nat} (ho : o < n) (hinj : ∀ m, m ≠ o → tst m ≠ tst o) (hfam : ∀ m, tst m ≠ fam o) :
    (s.upto n (shownStep fam tst g v)).rd (tst o) = if s.rd (fam o) = g ∧ s.rd (tst o) ≠ 0 then v else s.rd (tst o) := by
  have hkeep : ∀ m < n, m ≠ o → ∀ t, ∀ k ∈ [tst o, fam o], (shownStep fam tst g v m t).rd k = t.rd k := by
    intro m _ hne t k hk
    refine (shownStep_touches m t).regs k ?_
    simp only [List.mem_cons, List.not_mem_nil, or_false] at hk ⊢
    obtain rfl | rfl := hk
    · exact (hinj m hne).symm
    · exact (hfam m).symm
  obtain ⟨t, ht, hend⟩ := upto_rd_at ho hkeep s
  rw [hend _ (by simp), shownStep, ht (fam o) (by simp), ht (tst o) (by simp)]
  split
  · rw [State.rd_wr_self]
  · rw [ht _ (by simp)]

/-- TSTATE of outputs, canvases and FRCs. -/
def shownKeys : List Nat := (List.range 48).map K.OUT_TSTATE ++ (List.range 16).map K.EAS_STATE_TSTATE ++ (List.range 16).map K.FRC_STATE_TSTATE

theorem tstates_eq : s.tstates g v = ((s.upto 48 (shownStep K.OUT_FAMILY K.OUT_TSTATE g v)).upto 16
    (shownStep K.EAS_CANVAS_FAMILY K.EAS_STATE_TSTATE g v)).upto 16 (shownStep K.FRC_OTIM_FAMILY K.FRC_STATE_TSTATE g v) := rfl

theorem tstates_touches : Touches shownKeys [] s (s.tstates g v) := by
  rw [tstates_eq]
  exact ((shownLoop_touches 48).trans (shownLoop_touches 16)).trans (shownLoop_touches 16)

theorem not_shownKeys {k a b : Nat} (hk : k = a + b) (h : 0x900000 ≤ a + b) : k ∉ shownKeys := by
  subst hk
  simp only [shownKeys, List.mem_append, List.mem_map, List.mem_range, K.OUT_TSTATE, K.EAS_STATE_TSTATE, K.FRC_STATE_TSTATE, K.at']
  rintro ((⟨n, hn, h⟩ | ⟨n, hn, h⟩) | ⟨n, hn, h⟩) <;> omega

/-- TSTATE of an output that runs on the family. -/
theorem tstates_out {o : Nat} (ho : o < 48) : (s.tstates g v).rd (K.OUT_TSTATE o) =
    if s.rd (K.OUT_FAMILY o) = g ∧ s.rd (K.OUT_TSTATE o) ≠ 0 then v else s.rd (K.OUT_TSTATE o) := by
  have heas : K.OUT_TSTATE o ∉ (List.range 16).map K.EAS_STATE_TSTATE := by
    simp only [List.mem_map, List.mem_range, K.OUT_TSTATE, K.EAS_STATE_TSTATE, K.at']
    omega
  have hfrc : K.OUT_TSTATE o ∉ (List.range 16).map K.FRC_STATE_TSTATE := by
    simp only [List.mem_map, List.mem_range, K.OUT_TSTATE, K.FRC_STATE_TSTATE, K.at']
    omega
  rw [tstates_eq, (shownLoop_touches 16).regs _ hfrc, (shownLoop_touches 16).regs _ heas]
  exact shownLoop_value ho (fun m hm => keys_ne rfl rfl (by omega)) (fun m => keys_ne rfl rfl (by omega))

end

/-! ## A family freezes (R116) -/

section
variable {s : State} {g : Nat}

/-- The registers of a family that freezes. -/
def freezeRegs (g word : Nat) : List (Nat × Nat) :=
  [(K.GSYN_STATE g, 4), (K.GSYN_LOL g, 1), (K.GSYN_CTRL_WORD g, word % 2 ^ 32), (H.gRelock g, 0)]

theorem freezeRegs_nodup (word : Nat) : ((freezeRegs g word).map Prod.fst).Nodup := by
  simp (disch := (refine keys_ne rfl rfl ?_; omega)) [freezeRegs, eq_false_of_keys_ne]

theorem freezeRegs_keys {word : Nat} {p : Nat × Nat} (hp : p ∈ freezeRegs g word) : p.1 ∉ shownKeys := by
  simp only [freezeRegs, List.mem_cons, List.not_mem_nil, or_false] at hp
  obtain rfl | rfl | rfl | rfl := hp <;> exact not_shownKeys rfl (by omega)

theorem gsynFreeze_touches (hg : g < 8) (word : Nat) :
    Touches ((freezeRegs g word).map Prod.fst ++ shownKeys) [(0x100D, gsynIdx g, g, word % 2 ^ 32)] s (s.gsynFreeze g word) := by
  have h := ((Touches.wrs s (freezeRegs g word)).trans (tstates_touches (g := g) (v := 2))).then_raise 0x100D (gsynIdx g) g word
  rwa [Nat.mod_eq_of_lt (show g < 2 ^ 32 by omega)] at h

theorem gsynFreeze_values {word : Nat} {p : Nat × Nat} (hp : p ∈ freezeRegs g word) : (s.gsynFreeze g word).rd p.1 = p.2 :=
  (State.rd_raise ..).trans ((tstates_touches.regs _ (freezeRegs_keys hp)).trans (rd_wrs_of_mem (freezeRegs_nodup word) hp s))

/-- Running outputs of the family show that it is FROZEN. -/
theorem gsynFreeze_out {word o : Nat} (ho : o < 48) : (s.gsynFreeze g word).rd (K.OUT_TSTATE o) =
    if s.rd (K.OUT_FAMILY o) = g ∧ s.rd (K.OUT_TSTATE o) ≠ 0 then 2 else s.rd (K.OUT_TSTATE o) := by
  have hf : (s.wrs (freezeRegs g word)).rd (K.OUT_FAMILY o) = s.rd (K.OUT_FAMILY o) :=
    (Touches.wrs s _).regs _ (by simp (disch := (refine keys_ne rfl rfl ?_; omega)) [freezeRegs, eq_false_of_keys_ne])
  have ht : (s.wrs (freezeRegs g word)).rd (K.OUT_TSTATE o) = s.rd (K.OUT_TSTATE o) :=
    (Touches.wrs s _).regs _ (by simp (disch := (refine keys_ne rfl rfl ?_; omega)) [freezeRegs, eq_false_of_keys_ne])
  rw [← hf, ← ht]
  exact (State.rd_raise ..).trans (tstates_out ho)

end

section
variable {s : State} {g : Fin 8}

/-- A command that freezes a family. -/
theorem freezes_of_exec {c : Instr} {word : Nat} (hex : exec c s = .next (s.gsynFreeze g.val word)) (hc : keepsStores c = true) :
    Changes c s (freezeRegs g.val word) shownKeys [(0x100D, gsynIdx g.val, g.val, word % 2 ^ 32)] ∧
    Ends c s (fun t => ∀ o < 48, t.rd (K.OUT_TSTATE o) =
      if s.rd (K.OUT_FAMILY o) = g.val ∧ s.rd (K.OUT_TSTATE o) ≠ 0 then 2 else s.rd (K.OUT_TSTATE o)) :=
  ⟨changes_of_touches hex hc (fun _ hp => gsynFreeze_values hp) (gsynFreeze_touches g.isLt word), _, hex, fun _ ho => gsynFreeze_out ho⟩

theorem gsynBandSearch_does (h : s.rd (K.GSYN_STATE g.val) = 1) (band word : Nat) : Does (.gsynBandSearch g band word) s
    [(K.GSYN_STATE g.val, 2), (K.GSYN_BAND g.val, band % 64), (K.GSYN_CTRL_WORD g.val, word % 2 ^ 32), (H.gAcq g.val, s.now)] [] := by
  refine does_of_wrs (if_neg (by simp [h])) ?_
  simp (disch := (refine keys_ne rfl rfl ?_; omega)) [eq_false_of_keys_ne]

/-! ## A developed RATE comes into force (R114) -/

/-- An output that starts at this instant opens its first frame where the old grid had it. -/
def rateStart (g : Nat) (d : Int) (n : Nat) (t : State) : State :=
  if t.rd (K.OUT_FAMILY n) = g ∧ t.rd (K.OUT_TSTATE n) = 0 then (t.setVec (H.outStep n) [2 ^ 48, ofInt 64 d]).wr (H.outStepAt n) (t.now + 1) else t

/-- The outputs that start. -/
def rateStarts (g : Nat) (d : Int) (s : State) : State :=
  if s.rd (K.GSYN_STATE g) ≠ 3 ∨ s.rd (K.GSYN_ALIGN g) ≠ 0 then s else s.upto 48 (rateStart g d)

theorem rateStarts_confined (n : Nat) (d : Int) : Confined (fun k => ∃ o < 48, k = H.outStepAt o) famCode s (rateStarts n d s) := by
  rw [rateStarts]
  split
  · exact .refl s
  · refine (Confined.refl s).upto 48 (fun o ho t => ?_)
    rw [rateStart]
    split
    · exact ((Confined.refl t).setVec _ _).wr _ ⟨o, ho, rfl⟩
    · exact .refl t

theorem gsynRateChange_exec (h : s.rd (H.gPend g.val) ≠ 0) (d : Int) : exec (.gsynRateChange g d) s =
    .next (((rateStarts g.val d s).wrs [(H.gPend g.val, 0), (H.gRate g.val, (rateStarts g.val d s).rd (K.GSYN_RATE g.val) + 1)]).famStepAt g.val d true) :=
  if_neg h

theorem gsynRateChange_ends (h : s.rd (H.gPend g.val) ≠ 0) (d : Int) : Ends (.gsynRateChange g d) s (fun t => t.rd (H.gPend g.val) = 0 ∧
    t.rd (H.gRate g.val) = s.rd (K.GSYN_RATE g.val) + 1 ∧ t.rd (K.GSYN_RATE g.val) = s.rd (K.GSYN_RATE g.val) ∧ StoresKept s t) := by
  have hex := gsynRateChange_exec h d
  have hrate : (rateStarts g.val d s).rd (K.GSYN_RATE g.val) = s.rd (K.GSYN_RATE g.val) :=
    (rateStarts_confined g.val d).rd _ (fun ⟨o, _, ho⟩ => keys_ne (x := K.GSYN_RATE g.val) rfl (show H.outStepAt o = _ from rfl) (by omega) ho)
  have hfam {k : Nat} (hk : k ∈ [H.gPend g.val, H.gRate g.val, K.GSYN_RATE g.val]) : ¬ FamRegs g.val k := by
    simp only [List.mem_cons, List.not_mem_nil, or_false] at hk
    simp only [FamRegs, FamReg, slewKeys, List.mem_cons, List.not_mem_nil, or_false, K.GSYN_OFFSET, K.GSYN_PHASE_NS, K.GSYN_RAMP_STATUS_STATE, K.GSYN_RATE,
      K.at', H.gAt, H.gBase, H.gDist, H.gEnd, H.gStart, H.gWait, H.gLate, H.gPend, H.gRate, H.outAdj, H.outAdjOn, H.hk] at hk ⊢
    rintro (h | h | h | ⟨n, hn, h⟩) <;> omega
  refine ⟨_, hex, ?_, ?_, ?_, storesKept_of_exec hex rfl⟩
  · rw [(famStepAt_confined g.isLt d true).rd _ (hfam (by simp))]
    simp (disch := (refine keys_ne rfl rfl ?_; omega)) only [State.wrs, List.foldl_cons, List.foldl_nil, State.rd_wr_ne, State.rd_wr_self]
  · rw [(famStepAt_confined g.isLt d true).rd _ (hfam (by simp)), hrate]
    simp only [State.wrs, List.foldl_cons, List.foldl_nil, State.rd_wr_self]
  · rw [(famStepAt_confined g.isLt d true).rd _ (hfam (by simp))]
    simp (disch := (refine keys_ne rfl rfl ?_; omega)) only [State.wrs, List.foldl_cons, List.foldl_nil, State.rd_wr_ne, hrate]

/-! ## PLL_LOL (R116) -/

/-- A command that writes registers, each once, and raises one event, before protection follows. -/
theorem settles_of_wrs_raise {c : Instr} {l : List (Nat × Nat)} {code src a1 a2 b1 b2 : Nat}
    (h : exec c s = .next ((s.wrs l).raise code src a1 a2).protSync) (hl : (l.map Prod.fst).Nodup) (h1 : a1 % 2 ^ 32 = b1) (h2 : a2 % 2 ^ 32 = b2) :
    Settles c s l [(code, src, b1, b2)] := by
  subst h1 h2
  exact ⟨_, h, fun p hp => (State.rd_raise ..).trans (rd_wrs_of_mem hl hp s), (Touches.wrs s l).regs,
    by rw [raisedOf_raise, (Touches.wrs s l).events, List.append_nil], (onlyRegisters_wrs s l).raise ..⟩

/-- A flag register after a PLL's loss of lock: its flag is set, and the word is kept. -/
theorem pllFreeze_eq {st key bit x : Nat} (hne : key ≠ st) (v word : Nat) :
    ((s.wr st v).setBit key bit true).pllFreeze x word =
      (s.wrs [(st, v), (key, s.rd key ||| 2 ^ bit), (H.pllWord x, word % 2 ^ 32)]).raise 0x100E 0x9C00 x word := by
  simp only [State.pllFreeze, State.setBit, State.up, State.rd_wr_ne _ _ hne, State.wrs, List.foldl_cons, List.foldl_nil, if_true]

theorem pllLol_sys (word : Nat) : Settles (.pllLol 0 word) s [(K.SYSPLL_STATE, 2), (K.LOL, s.rd K.LOL ||| 1), (H.pllWord 0, word % 2 ^ 32)]
    [(0x100E, 0x9C00, 0, word % 2 ^ 32)] := by
  refine settles_of_wrs_raise (a1 := 0) (a2 := word) ?_ (show [K.SYSPLL_STATE, K.LOL, H.pllWord 0].Nodup by decide) rfl rfl
  exact congrArg (fun t : State => Host.Outcome.next t.protSync) (pllFreeze_eq (by decide) 2 word)

theorem pllLol_aud (word : Nat) : Settles (.pllLol 1 word) s [(K.AUDPLL_STATE, 2), (K.LOL, s.rd K.LOL ||| 2), (H.pllWord 1, word % 2 ^ 32)]
    [(0x100E, 0x9C00, 1, word % 2 ^ 32)] := by
  refine settles_of_wrs_raise (a1 := 1) (a2 := word) ?_ (show [K.AUDPLL_STATE, K.LOL, H.pllWord 1].Nodup by decide) rfl rfl
  exact congrArg (fun t : State => Host.Outcome.next t.protSync) (pllFreeze_eq (by decide) 2 word)

theorem pllLol_tx {x : Nat} (h16 : 16 ≤ x) (h28 : x < 28) (word : Nat) : Settles (.pllLol x word) s
    [(H.txFrozen (x - 16), 1), (K.TXPLL_LOL, s.rd K.TXPLL_LOL ||| 2 ^ (x - 16)), (H.pllWord x, word % 2 ^ 32)]
    [(0x100E, 0x9C00, x, word % 2 ^ 32)] := by
  have hne : K.TXPLL_LOL ≠ H.txFrozen (x - 16) := keys_ne rfl rfl (by omega)
  refine settles_of_wrs_raise ?_ ?_ (Nat.mod_eq_of_lt (by omega)) rfl
  · rw [← pllFreeze_eq hne]
    simp only [exec, execPllLol, pllLol]
    rw [if_neg (by omega), if_neg (by omega), if_pos ⟨h16, h28⟩]
    rfl
  · simp (disch := (refine keys_ne rfl rfl ?_; omega)) [eq_false_of_keys_ne]

end
end Sys2Proof
end

section
/-! A family gains lock (R115, R116, R187). -/
namespace Sys2Proof

open Machine

/-! ## Lists of numbers under a step of a family -/

section
variable {s : State} {g k : Nat}

theorem gProfile_vec_ne (h : k ≠ H.gProf g) (l : List Piece) : (s.gProfile g l).vec k = s.vec k := by
  rw [gProfile_eq, State.vec_setVec_ne _ _ h]
  rfl

theorem vec_wr64 (t : State) (x : Nat) (i : Int) : (t.wr64 x i).vec k = t.vec k := rfl

theorem slewTo_vec (h : k ≠ H.gProf g) (base dist : Int) (going : Bool) : (s.slewTo g base dist going).vec k = s.vec k := by
  unfold State.slewTo
  dsimp only
  rw [State.vec_raise, State.vec_wr]
  split
  · rw [State.vec_wr, vec_wr64, vec_wr64, gProfile_vec_ne h]
  · rw [State.vec_wr, State.vec_wr, vec_wr64, vec_wr64, gProfile_vec_ne h]

theorem slewBy_vec (h : k ≠ H.gProf g) (d : Int) : (s.slewBy g d).vec k = s.vec k := by
  rw [slewBy_eq]
  exact slewTo_vec h ..

theorem outStepBy_vec {n : Nat} (h : k ≠ H.outStep n) (f : Nat) (d : Int) (here : Bool) : (s.outStepBy n f d here).vec k = s.vec k := by
  have hframe (m : Nat) (l : List Nat) : (if m = 0 then (s.setVec (H.outStep n) l).adjustFrame n else s.setVec (H.outStep n) l).vec k = s.vec k := by
    split
    · exact State.vec_setVec_ne _ _ h
    · exact State.vec_setVec_ne _ _ h
  exact hframe _ _

theorem upto_vec {n : Nat} {f : Nat → State → State} (hf : ∀ i < n, ∀ t, (f i t).vec k = t.vec k) : (s.upto n f).vec k = s.vec k := by
  induction n with
  | zero => rfl
  | succ n ih => rw [upto_succ, hf n (by omega), ih (fun i hi => hf i (by omega))]

theorem famStepAt_vec (hp : k ≠ H.gProf g) (ho : ∀ n < 48, k ≠ H.outStep n) (d : Int) (here : Bool) : (s.famStepAt g d here).vec k = s.vec k := by
  simp only [State.famStepAt]
  split
  · rfl
  · split
    · rfl
    · split
      · refine upto_vec (fun n hn t => ?_)
        split
        · exact outStepBy_vec (ho n hn) ..
        · rfl
      · split
        · rfl
        · exact slewBy_vec hp _

end

/-! ## The record of a development that waited for lock (R52, R187) -/

section
variable {s : State} {g : Nat}

theorem devKey_gsyn (hg : g < 8) (m : Nat) : devKey (unitGsyn g) m = (0x9A1F + 0x20 * g) * 256 + m := by
  have hu : unitGsyn g = 80 + g := rfl
  rw [devKey, if_neg (by omega), unitIdx, if_neg (by omega), if_neg (by omega), if_neg (by omega), if_pos (by omega)]
  simp only [gsynIdx, K.at']
  omega

/-- The registers of a unit's record. -/
def recordKeys (u : Nat) : List Nat := [H.devFrame u, devKey u 1, devKey u 2, devKey u 3, H.devSalvo u]

theorem countWaiting_none {u : Nat} (h : s.vec (H.devWait u) = []) (time : Nat) : s.countWaiting u time = s.setVec (H.devWait u) [] := by
  rw [State.countWaiting, h]
  rfl

/-- The frame and the time of the record. -/
def frameRecorded (s : State) (u frame time : Nat) : State :=
  if s.rd (H.devFrame u) = 1 then s.wrs [(H.devFrame u, 0), (devKey u 1, frame % 2 ^ 48), (devKey u 2, time)] else s

/-- The salvo of the record. -/
def salvoRecorded (s : State) (u : Nat) : State :=
  if s.rd (H.devSalvo u) = 0 then s else s.wrs [(devKey u 3, s.rd (H.devSalvo u) - 1), (H.devSalvo u, 0)]

theorem devRecord_eq (u frame time : Nat) :
    s.devRecord u frame time = (salvoRecorded (frameRecorded s u frame time) u).countWaiting u time := rfl

theorem frameRecorded_vec (u frame time k : Nat) : (frameRecorded s u frame time).vec k = s.vec k := by
  rw [frameRecorded]
  split <;> rfl

theorem salvoRecorded_vec (u k : Nat) : (salvoRecorded s u).vec k = s.vec k := by
  rw [salvoRecorded]
  split <;> rfl

section
variable {u k : Nat} (h : k ∉ recordKeys u)
include h

theorem frameRecorded_rd (frame time : Nat) : (frameRecorded s u frame time).rd k = s.rd k := by
  rw [frameRecorded]
  split
  · refine (Touches.wrs s _).regs k (fun hmem => h ?_)
    simp only [List.map_cons, List.map_nil, List.mem_cons, List.not_mem_nil, or_false] at hmem
    obtain rfl | rfl | rfl := hmem <;> simp [recordKeys]
  · rfl

theorem salvoRecorded_rd : (salvoRecorded s u).rd k = s.rd k := by
  rw [salvoRecorded]
  split
  · rfl
  · refine (Touches.wrs s _).regs k (fun hmem => h ?_)
    simp only [List.map_cons, List.map_nil, List.mem_cons, List.not_mem_nil, or_false] at hmem
    obtain rfl | rfl := hmem <;> simp [recordKeys]

/-- Where no commit waits to be counted the record changes nothing but itself. -/
theorem devRecord_rd (hw : s.vec (H.devWait u) = []) (frame time : Nat) : (s.devRecord u frame time).rd k = s.rd k := by
  rw [devRecord_eq, countWaiting_none (by rw [salvoRecorded_vec, frameRecorded_vec, hw]), State.rd_setVec, salvoRecorded_rd h, frameRecorded_rd h]

end

end

section
variable {s : State} {g : Nat}

/-! ## Lock (R115) -/

/-- The family's rate is in force from its first lock on. -/
def rateSet (s : State) (g : Nat) : State := if s.rd (H.gRate g) = 0 then s.wr (H.gRate g) (s.rd (K.GSYN_RATE g) + 1) else s

/-- A family that has just locked, before the displacement it kept passes as a step. -/
def lockShown (s : State) (g : Nat) : State :=
  ((rateSet (s.wrs [(K.GSYN_STATE g, 3), (H.gRelock g, 0)]) g).tstates g 1).raise 0x100C (gsynIdx g) g
    ((rateSet (s.wrs [(K.GSYN_STATE g, 3), (H.gRelock g, 0)]) g).rd (K.GSYN_BAND g))

/-- The displacement it kept, with what it gained while frozen. -/
def lockStepNs (s : State) (g : Nat) (gain : Int) : Int := gain + (lockShown s g).rd64 (H.gLate g)

theorem rateSet_rd {k : Nat} (h : k ≠ H.gRate g) : (rateSet s g).rd k = s.rd k := by
  rw [rateSet]
  split
  · exact State.rd_wr_ne _ _ h
  · rfl

theorem lockShown_values : (lockShown s g).rd (K.GSYN_STATE g) = 3 ∧ (lockShown s g).rd (H.gRelock g) = 0 := by
  have hval {k v : Nat} (hshown : k ∉ shownKeys) (hrate : k ≠ H.gRate g) (hwr : (s.wrs [(K.GSYN_STATE g, 3), (H.gRelock g, 0)]).rd k = v) :
      (lockShown s g).rd k = v := by
    rw [lockShown, State.rd_raise, tstates_touches.regs k hshown, rateSet_rd hrate, hwr]
  refine ⟨hval (not_shownKeys rfl (by omega)) (keys_ne rfl rfl (by omega)) ?_, hval (not_shownKeys rfl (by omega)) (keys_ne rfl rfl (by omega)) ?_⟩ <;>
    simp (disch := (refine keys_ne rfl rfl ?_; omega)) only [State.wrs, List.foldl_cons, List.foldl_nil, State.rd_wr_ne, State.rd_wr_self]

/-- Running outputs of the family show that it is LOCKED. -/
theorem lockShown_out {o : Nat} (ho : o < 48) : (lockShown s g).rd (K.OUT_TSTATE o) =
    if s.rd (K.OUT_FAMILY o) = g ∧ s.rd (K.OUT_TSTATE o) ≠ 0 then 1 else s.rd (K.OUT_TSTATE o) := by
  have hkeep {k : Nat} (hk : k = K.OUT_FAMILY o ∨ k = K.OUT_TSTATE o) : (rateSet (s.wrs [(K.GSYN_STATE g, 3), (H.gRelock g, 0)]) g).rd k = s.rd k := by
    obtain rfl | rfl := hk
    · rw [rateSet_rd (keys_ne (x := K.OUT_FAMILY o) (y := H.gRate g) rfl rfl (by omega))]
      exact (Touches.wrs s _).regs _ (by simp (disch := (refine keys_ne rfl rfl ?_; omega)) [eq_false_of_keys_ne])
    · rw [rateSet_rd (keys_ne (x := K.OUT_TSTATE o) (y := H.gRate g) rfl rfl (by omega))]
      exact (Touches.wrs s _).regs _ (by simp (disch := (refine keys_ne rfl rfl ?_; omega)) [eq_false_of_keys_ne])
  rw [lockShown, State.rd_raise, tstates_out ho, hkeep (.inl rfl), hkeep (.inr rfl)]

/-- The displacement passes. -/
def lockPassed (s : State) (g : Nat) (gain : Int) : State := ((lockShown s g).wr (H.gLate g) 0).famStep g (lockStepNs s g gain)

theorem gsynLock_eq (gain : Int) : s.gsynLock g gain = lockPassed s g gain := rfl

theorem lockPassed_confined (hg : g < 8) (gain : Int) :
    Confined (FamReg g) famCode ((lockShown s g).wr (H.gLate g) 0) (lockPassed s g gain) := by
  have hne : K.GSYN_STATE g ≠ H.gLate g := keys_ne rfl rfl (by omega)
  exact famStepAt_locked hg (by rw [State.rd_wr_ne _ _ hne, lockShown_values.1]) _ false

theorem lockPassed_vec {k : Nat} (hp : k ≠ H.gProf g) (ho : ∀ n < 48, k ≠ H.outStep n) (gain : Int) : (lockPassed s g gain).vec k = s.vec k := by
  have htst : ((rateSet (s.wrs [(K.GSYN_STATE g, 3), (H.gRelock g, 0)]) g).tstates g 1).vec k = s.vec k := by
    have hstep (fam tst : Nat → Nat) (n : Nat) (t : State) : (shownStep fam tst g 1 n t).vec k = t.vec k := by
      rw [shownStep]
      split <;> rfl
    rw [tstates_eq, upto_vec (fun n _ => hstep _ _ n), upto_vec (fun n _ => hstep _ _ n), upto_vec (fun n _ => hstep _ _ n), rateSet]
    split <;> rfl
  rw [lockPassed, State.famStep, famStepAt_vec hp ho, State.vec_wr, lockShown, State.vec_raise, htst]

end

section
variable {s : State} {g : Fin 8} {seen : LockSeen}

/-- The registers of a lock are no registers of a step, nor of the record. -/
theorem gsynLock_keeps_reg {k : Nat} (hk : k ∈ [K.GSYN_STATE g.val, H.gRelock g.val, H.gLate g.val] ∨ ∃ o < 48, k = K.OUT_TSTATE o) :
    ¬ FamReg g.val k ∧ k ∉ recordKeys (unitGsyn g.val) := by
  have hg := g.isLt
  simp only [recordKeys, devKey_gsyn hg, List.mem_cons, List.not_mem_nil, or_false] at hk ⊢
  simp only [FamReg, slewKeys, List.mem_cons, List.not_mem_nil, or_false, K.GSYN_STATE, K.OUT_TSTATE, K.GSYN_OFFSET, K.GSYN_PHASE_NS,
    K.GSYN_RAMP_STATUS_STATE, K.at', H.gAt, H.gBase, H.gDist, H.gEnd, H.gStart, H.gWait, H.gLate, H.gRelock, H.outAdj, H.outAdjOn, H.devFrame, H.devSalvo,
    unitGsyn, H.hk] at hk ⊢
  constructor
  · rintro (h | h | ⟨n, hn, h⟩) <;> rcases hk with hk | ⟨o, ho, hk⟩ <;> omega
  · intro h
    rcases hk with hk | ⟨o, ho, hk⟩ <;> omega

theorem gsynLock_exec (h : s.rd (K.GSYN_STATE g.val) = 2) (hheld : 1000 ≤ seen.held) (hacq : s.rd (H.gAcq g.val) + seen.held ≤ s.now) (gain : Int) :
    ∃ frame time, exec (.gsynLock g gain seen) s = .next ((lockPassed s g.val gain).devRecord (unitGsyn g.val) frame time) := by
  rw [← gsynLock_eq]
  exact ⟨_, _, if_neg (by omega)⟩

/-- A family that has been within 1 ns locks (R115). -/
theorem gsynLock_ends (h : s.rd (K.GSYN_STATE g.val) = 2) (hheld : 1000 ≤ seen.held) (hacq : s.rd (H.gAcq g.val) + seen.held ≤ s.now)
    (hdev : s.vec (H.devWait (unitGsyn g.val)) = []) (gain : Int) : Ends (.gsynLock g gain seen) s (fun t => t.rd (K.GSYN_STATE g.val) = 3 ∧
      t.rd (H.gRelock g.val) = 0 ∧ t.rd (H.gLate g.val) = 0 ∧ StoresKept s t ∧
      ∀ o < 48, s.rd (K.OUT_FAMILY o) = g.val → s.rd (K.OUT_TSTATE o) ≠ 0 → t.rd (K.OUT_TSTATE o) = 1) := by
  obtain ⟨frame, time, hex⟩ := gsynLock_exec h hheld hacq gain
  have hvec : (lockPassed s g.val gain).vec (H.devWait (unitGsyn g.val)) = [] := by
    have hu : unitGsyn g.val = 80 + g.val := rfl
    have hp : H.devWait (unitGsyn g.val) ≠ H.gProf g.val := keys_ne rfl rfl (by omega)
    have ho (n : Nat) (hn : n < 48) : H.devWait (unitGsyn g.val) ≠ H.outStep n := keys_ne rfl rfl (by omega)
    rw [lockPassed_vec hp ho, hdev]
  have hrd {k : Nat} (hk : k ∈ [K.GSYN_STATE g.val, H.gRelock g.val, H.gLate g.val] ∨ ∃ o < 48, k = K.OUT_TSTATE o) :
      ((lockPassed s g.val gain).devRecord (unitGsyn g.val) frame time).rd k = ((lockShown s g.val).wr (H.gLate g.val) 0).rd k := by
    obtain ⟨hfam, hrec⟩ := gsynLock_keeps_reg hk
    rw [devRecord_rd hrec hvec, (lockPassed_confined g.isLt gain).rd k hfam]
  have h0 : K.GSYN_STATE g.val ≠ H.gLate g.val := keys_ne rfl rfl (by omega)
  have h1 : H.gRelock g.val ≠ H.gLate g.val := keys_ne rfl rfl (by omega)
  refine ⟨_, hex, ?_, ?_, ?_, storesKept_of_exec hex rfl, fun o ho hfam hrun => ?_⟩
  · rw [hrd (.inl (by simp)), State.rd_wr_ne _ _ h0, lockShown_values.1]
  · rw [hrd (.inl (by simp)), State.rd_wr_ne _ _ h1, lockShown_values.2]
  · rw [hrd (.inl (by simp)), State.rd_wr_self]
  · have h2 : K.OUT_TSTATE o ≠ H.gLate g.val := keys_ne rfl rfl (by omega)
    rw [hrd (.inr ⟨o, ho, rfl⟩), State.rd_wr_ne _ _ h2, lockShown_out ho, if_pos ⟨hfam, hrun⟩]

end
end Sys2Proof
end

section
/-! RELOCK and LOL_CLEAR (R116), and the statement on families. -/
namespace Sys2Proof

open Machine

theorem clockKey_of {k a b : Nat} (hk : k = a + b) (h : 0x900000 ≤ a + b ∧ a + b ≠ H.warmPend) : ClockKey k := by
  subst hk
  exact h

theorem clockKey_gsyn {k a b : Nat} (hk : k = a + b) (h : 0x900000 ≤ a + b) (h' : a + b < 4294967296) : ClockKey k :=
  clockKey_of hk ⟨h, fun he => by rw [he] at h'; exact absurd h' (by decide)⟩

/-! ## RELOCK -/

section
variable {u : State} {g : Nat}

/-- What every RELOCK writes. -/
def relockBase (g v : Nat) (u : State) : State := u.wrs [(K.GSYN_RELOCK g, v), (K.GSYN_LOL g, 0)]

/-- A FROZEN family that RELOCK 1 starts again. -/
def relockStarted (g : Nat) (t : State) : State :=
  if t.rd (K.GSYN_STATE g) = 4 then t.wrs [(K.GSYN_STATE g, 2), (H.gAcq g, t.now), (H.gRelock g, t.now + 100000)] else t

theorem relockWrite_one : relockWrite g 1 u = ansOk (relockStarted g (relockBase g 1 u)) := by
  unfold relockWrite
  rw [if_neg (fun h => absurd h.1 (by decide))]
  dsimp only
  rw [if_neg (by decide), relockStarted, relockBase]
  split <;> rfl

/-- The displacement a family that searches keeps. -/
def searchLate (g : Nat) (t : State) : State :=
  t.wr64 (H.gLate g) (t.rd64 (H.gLate g) - (if t.rd (K.GSYN_RAMP_STATUS_STATE g) = 3 then (t.gNow g).2 else 0))

/-- A slew ends where a search begins. -/
def searchStopped (g : Nat) (t : State) : State :=
  if t.rd (K.GSYN_RAMP_STATUS_STATE g) = 3
  then (t.gProfile g []).wrs [(K.GSYN_OFFSET g, 0), (K.GSYN_PHASE_NS g, 0), (K.GSYN_RAMP_STATUS_STATE g, 0)] else t

/-- A family that RELOCK 2 searches again. -/
def searching (g : Nat) (t : State) : State := (searchStopped g (searchLate g t)).wr (K.GSYN_STATE g) 1

theorem relockWrite_busy (h : u.consumers g ≠ 0) : relockWrite g 2 u = ansBusy u := if_pos ⟨rfl, h⟩

theorem relockWrite_two (h : u.consumers g = 0) :
    relockWrite g 2 u = ansOk (if (relockBase g 2 u).rd (K.GSYN_STATE g) = 0 then relockBase g 2 u else searching g (relockBase g 2 u)) := by
  unfold relockWrite
  rw [if_neg (fun hc => hc.2 h)]
  dsimp only
  rw [if_pos rfl, relockBase]
  generalize u.wrs [(K.GSYN_RELOCK g, 2), (K.GSYN_LOL g, 0)] = t
  split
  · rfl
  · simp only [searching, searchStopped, searchLate]
    rfl

/-- The registers of a search. -/
def searchKeys (g : Nat) : List Nat :=
  [H.gLate g, K.GSYN_OFFSET g, K.GSYN_PHASE_NS g, H.gAt g, K.GSYN_RAMP_STATUS_STATE g, K.GSYN_STATE g]

theorem searchStopped_touches (t : State) : Touches (searchKeys g) [] t (searchStopped g t) := by
  rw [searchStopped]
  split
  · exact ((((gProfile_touches (s := t) (g := g) []).mono (by simp [searchKeys])).then_wr (by simp [searchKeys])).then_wr
      (by simp [searchKeys])).then_wr (by simp [searchKeys])
  · exact .refl ..

theorem searching_touches (t : State) : Touches (searchKeys g) [] t (searching g t) := by
  have h0 : Touches (searchKeys g) [] t (searchLate g t) := (Touches.wr t (H.gLate g) _).mono (by simp [searchKeys])
  exact ((h0.trans (searchStopped_touches _)).mono (by simp)).then_wr (by simp [searchKeys])

/-- A slew is over where a search begins. -/
theorem searching_ramp {t : State} (h : t.rd (K.GSYN_RAMP_STATUS_STATE g) = 3) : (searching g t).rd (K.GSYN_RAMP_STATUS_STATE g) = 0 := by
  have h0 : K.GSYN_RAMP_STATUS_STATE g ≠ K.GSYN_STATE g := keys_ne rfl rfl (by omega)
  have h1 : K.GSYN_RAMP_STATUS_STATE g ≠ H.gLate g := keys_ne rfl rfl (by omega)
  have hlate : (searchLate g t).rd (K.GSYN_RAMP_STATUS_STATE g) = 3 := (State.rd_wr_ne _ _ h1).trans h
  rw [searching, State.rd_wr_ne _ _ h0, searchStopped, if_pos hlate]
  simp only [State.wrs, List.foldl_cons, List.foldl_nil, State.rd_wr_self]

end

section
variable {s : State} {q : Req} {i : Nat} {g : Fin 8}

/-- Where RELOCK of family g lies. -/
def relockLoc (g : Nat) : Loc := ⟨.gsyn, g, 0, 15, ⟨0, 15, 1, .u 1, .cmd, 0, 2, 0, .rng 1 2⟩⟩

theorem locate_relock : ∀ g : Fin 8, locate (K.GSYN_RELOCK g.val) = some (relockLoc g.val) := by decide

theorem writeEffect_relock (n k v : Nat) (c : Wctx) (u : State) : writeEffect (relockLoc n) k v c u = relockWrite n v u := rfl

theorem relockLoc_admits {v : Nat} (h1 : 1 ≤ v) (h2 : v ≤ 2) (n k : Nat) : (relockLoc n).admits k v = true := by
  simp [Loc.admits, relockLoc, Ty.valid, Rng.admits, h1, h2]

theorem relock_obj (n : Fin 8) : K.GSYN_RELOCK n.val < 2 ^ 24 := by
  simp only [K.GSYN_RELOCK, K.at']
  omega

/-- An arrival leaves what uses a family. -/
theorem arrived_consumers (hi : i ≤ 16) (n : Nat) : (arrived q i s).consumers n = s.consumers n := by
  have hout : (List.range 48).filter (fun o => (arrived q i s).rd (K.OUT_FAMILY o) == n && (arrived q i s).rd (K.OUT_FORMAT o) != 0) =
      (List.range 48).filter (fun o => s.rd (K.OUT_FAMILY o) == n && s.rd (K.OUT_FORMAT o) != 0) := by
    refine List.filter_congr (fun o ho => ?_)
    have hlt := List.mem_range.mp ho
    rw [arrived_obj s q hi (k := K.OUT_FAMILY o) (by simp only [K.OUT_FAMILY, K.at']; omega) (by simp only [K.OUT_FAMILY, K.at']; omega),
      arrived_obj s q hi (k := K.OUT_FORMAT o) (by simp only [K.OUT_FORMAT, K.at']; omega) (by simp only [K.OUT_FORMAT, K.at']; omega)]
  have htx : (List.range 12).filter (fun t => (arrived q i s).rd (K.OUT_TXQ_PLL_GSYN (4 * t)) == n) =
      (List.range 12).filter (fun t => s.rd (K.OUT_TXQ_PLL_GSYN (4 * t)) == n) := by
    refine List.filter_congr (fun o ho => ?_)
    have hlt := List.mem_range.mp ho
    rw [arrived_obj s q hi (k := K.OUT_TXQ_PLL_GSYN (4 * o)) (by simp only [K.OUT_TXQ_PLL_GSYN, K.at']; omega)
      (by simp only [K.OUT_TXQ_PLL_GSYN, K.at']; omega)]
  have hclk : (List.range 2).filter (fun c => (arrived q i s).rd (K.CLKOUT_SRC c) == n) = (List.range 2).filter (fun c => s.rd (K.CLKOUT_SRC c) == n) := by
    refine List.filter_congr (fun o ho => ?_)
    have hlt := List.mem_range.mp ho
    rw [arrived_obj s q hi (k := K.CLKOUT_SRC o) (by simp only [K.CLKOUT_SRC, K.at']; omega) (by simp only [K.CLKOUT_SRC, K.at']; omega)]
  rw [State.consumers, State.consumers, hout, htx, hclk]

/-- What a written RELOCK does. -/
def relockEffect (g v : Nat) (u : State) : State := (relockWrite g v u).s.wr (K.GSYN_RELOCK g) v

section
variable (h : Serves s q i) (hr : holds (s.rd (K.SESS_RIGHTS i)) 2 = true)
include h hr

theorem relock2_busy (hc : s.consumers g.val ≠ 0) : exec (.relock2 q g) s = .next (declined s q i (K.GSYN_RELOCK g.val) 5 [] id) := by
  have hi := slot_le h.named
  refine put_declined (hd := 0) h (relock_obj g) (locate_relock g) (.inr rfl) hr (show 2 < 256 by decide) (show 1 ≤ 1396 by decide)
    (relockLoc_admits (by decide) (by decide) _ _) (Bool.or_true _) [] id ?_ (by decide) (by decide) ?_
  · rw [writeEffect_relock, relockWrite_busy (by rwa [arrived_consumers hi])]
    rfl
  · rw [id, arrived_warmPend s q hi]
    decide

theorem relock_exec {v : Nat} (h1 : 1 ≤ v) (h2 : v ≤ 2) {t : State} (hw : relockWrite g.val v (arrived q i s) = ansOk t) :
    put q (K.GSYN_RELOCK g.val) v [] s = .next (wrote s q i (K.GSYN_RELOCK g.val) (relockEffect g.val v)) ∧
      relockEffect g.val v (arrived q i s) = t.wr (K.GSYN_RELOCK g.val) v := by
  refine ⟨?_, by rw [relockEffect, hw]; rfl⟩
  refine put_cmd h (relock_obj g) (locate_relock g) rfl hr (show v < 256 by omega) (show 1 ≤ 1396 by decide)
    (relockLoc_admits h1 h2 _ _) (Bool.or_true _) [] (fun u => (relockWrite g.val v u).s) ?_
  rw [writeEffect_relock, hw]
  rfl

omit hr in
/-- The state of a family where RELOCK acts. -/
theorem relockBase_rd {v k : Nat} (hk : 0x9A0000 ≤ k) (h' : k < 2 ^ 24) (hr : k ≠ K.GSYN_RELOCK g.val) (hl : k ≠ K.GSYN_LOL g.val) :
    (relockBase g.val v (arrived q i s)).rd k = s.rd k := by
  rw [relockBase, (Touches.wrs _ _).regs k (by simp [hr, hl]), arrived_family (slot_le h.named) hk h']

omit hr in
theorem relockBase_state (v : Nat) : (relockBase g.val v (arrived q i s)).rd (K.GSYN_STATE g.val) = s.rd (K.GSYN_STATE g.val) :=
  relockBase_rd h (by simp only [K.GSYN_STATE, K.at']; omega) (by simp only [K.GSYN_STATE, K.at']; omega) (keys_ne rfl rfl (by omega))
    (keys_ne rfl rfl (by omega))

/-- RELOCK where the family's state does not follow: the value and the cleared flag only. -/
theorem relock_writes_only {c : Instr} {v : Nat} (hc : exec c s = put q (K.GSYN_RELOCK g.val) v [] s) (h1 : 1 ≤ v) (h2 : v ≤ 2)
    (hw : relockWrite g.val v (arrived q i s) = ansOk (relockBase g.val v (arrived q i s))) :
    Writes c s q i (K.GSYN_RELOCK g.val) [(K.GSYN_RELOCK g.val, v), (K.GSYN_LOL g.val, 0)] [] := by
  obtain ⟨hex, heff⟩ := relock_exec (g := g) h hr h1 h2 hw
  have hrun : ClockKey (K.GSYN_RELOCK g.val) := clockKey_gsyn rfl (by omega) (by omega)
  have hlol : ClockKey (K.GSYN_LOL g.val) := clockKey_gsyn rfl (by omega) (by omega)
  refine writes_of_wrs (l := [(K.GSYN_RELOCK g.val, v), (K.GSYN_LOL g.val, 0), (K.GSYN_RELOCK g.val, v)]) h (hc.trans hex) heff ?_ ?_ ?_
  · simp [hrun, hlol]
  · simp
  · have hne : K.GSYN_LOL g.val ≠ K.GSYN_RELOCK g.val := keys_ne rfl rfl (by omega)
    simp [hrun, hlol, State.wrs, State.rd_wr_ne _ _ hne]

theorem relock1_writes_only (hst : s.rd (K.GSYN_STATE g.val) ≠ 4) :
    Writes (.relock1 q g) s q i (K.GSYN_RELOCK g.val) [(K.GSYN_RELOCK g.val, 1), (K.GSYN_LOL g.val, 0)] [] :=
  relock_writes_only h hr rfl (by decide) (by decide) (by rw [relockWrite_one, relockStarted, if_neg (by rwa [relockBase_state h])])

theorem relock2_off (hc : s.consumers g.val = 0) (hst : s.rd (K.GSYN_STATE g.val) = 0) :
    Writes (.relock2 q g) s q i (K.GSYN_RELOCK g.val) [(K.GSYN_RELOCK g.val, 2), (K.GSYN_LOL g.val, 0)] [] :=
  relock_writes_only h hr rfl (by decide) (by decide)
    (by rw [relockWrite_two (by rwa [arrived_consumers (slot_le h.named)]), if_pos (by rwa [relockBase_state h])])

/-- RELOCK 1 starts a FROZEN family again, for 100 ms. -/
theorem relock1_starts (hst : s.rd (K.GSYN_STATE g.val) = 4) : Writes (.relock1 q g) s q i (K.GSYN_RELOCK g.val)
    [(K.GSYN_RELOCK g.val, 1), (K.GSYN_LOL g.val, 0), (K.GSYN_STATE g.val, 2), (H.gAcq g.val, s.now), (H.gRelock g.val, s.now + 100000)] [] := by
  have hnow : (relockBase g.val 1 (arrived q i s)).now = s.now := by
    have h0 : H.now ≠ K.GSYN_RELOCK g.val := keys_ne rfl rfl (by omega)
    have h1 : H.now ≠ K.GSYN_LOL g.val := keys_ne rfl rfl (by omega)
    rw [State.now, relockBase, (Touches.wrs _ _).regs _ (by simp [h0, h1])]
    exact arrived_now s q (slot_le h.named)
  have hw : relockWrite g.val 1 (arrived q i s) = ansOk ((relockBase g.val 1 (arrived q i s)).wrs
      [(K.GSYN_STATE g.val, 2), (H.gAcq g.val, s.now), (H.gRelock g.val, s.now + 100000)]) := by
    rw [relockWrite_one, relockStarted, if_pos (by rwa [relockBase_state h]), hnow]
  obtain ⟨hex, heff⟩ := relock_exec (g := g) h hr (v := 1) (by decide) (by decide) hw
  refine writes_of_wrs (l := [(K.GSYN_RELOCK g.val, 1), (K.GSYN_LOL g.val, 0), (K.GSYN_STATE g.val, 2), (H.gAcq g.val, s.now),
    (H.gRelock g.val, s.now + 100000), (K.GSYN_RELOCK g.val, 1)]) h hex heff ?_ ?_ ?_
  · simp only [List.forall_mem_cons, List.not_mem_nil, false_implies, implies_true, and_true]
    refine ⟨?_, ?_, ?_, ?_, ?_, ?_⟩ <;> exact clockKey_gsyn rfl (by omega) (by omega)
  · simp
  · intro p hp
    simp only [List.mem_cons, List.not_mem_nil, or_false] at hp
    obtain rfl | rfl | rfl | rfl | rfl := hp <;> refine ⟨clockKey_gsyn rfl (by omega) (by omega), ?_⟩ <;>
      simp (disch := (refine keys_ne rfl rfl ?_; omega)) only [State.wrs, List.foldl_cons, List.foldl_nil, State.rd_wr_ne, State.rd_wr_self]

/-- RELOCK 2 starts a search where nothing uses the family. -/
theorem relock2_searches (hc : s.consumers g.val = 0) (hst : s.rd (K.GSYN_STATE g.val) ≠ 0) : Ends (.relock2 q g) s (fun t =>
    t.rd (K.GSYN_STATE g.val) = 1 ∧ t.rd (K.GSYN_LOL g.val) = 0 ∧ t.rd (K.GSYN_RELOCK g.val) = 2 ∧ raisedOf t = raisedOf s ∧ StoresKept s t ∧
    (s.rd (K.GSYN_RAMP_STATUS_STATE g.val) = 3 → t.rd (K.GSYN_RAMP_STATUS_STATE g.val) = 0)) := by
  have hi := slot_le h.named
  have hw : relockWrite g.val 2 (arrived q i s) = ansOk (searching g.val (relockBase g.val 2 (arrived q i s))) := by
    rw [relockWrite_two (by rwa [arrived_consumers hi]), if_neg (by rwa [relockBase_state h])]
  obtain ⟨hex, heff⟩ := relock_exec (g := g) h hr (v := 2) (by decide) (by decide) hw
  have ht := searching_touches (g := g.val) (relockBase g.val 2 (arrived q i s))
  have hwarm : (relockEffect g.val 2 (arrived q i s)).rd H.warmPend ≠ 1 := by
    have h0 : H.warmPend ≠ K.GSYN_RELOCK g.val := keys_ne rfl rfl (by omega)
    have h1 : H.warmPend ≠ K.GSYN_LOL g.val := keys_ne rfl rfl (by omega)
    rw [heff, State.rd_wr_ne _ _ h0, ht.regs _ (by simp (disch := (refine keys_ne rfl rfl ?_; omega)) [searchKeys, eq_false_of_keys_ne]), relockBase,
      (Touches.wrs _ _).regs _ (by simp [h0, h1]), arrived_warmPend s q hi]
    decide
  have hrd {k : Nat} (h0 : k ≠ K.GSYN_RELOCK g.val) (h1 : k ≠ K.IDENT_CFG_SEQ) :
      (wrote s q i (K.GSYN_RELOCK g.val) (relockEffect g.val 2)).rd k = (searching g.val (relockBase g.val 2 (arrived q i s))).rd k := by
    rw [wrote_rd hwarm h1, heff, State.rd_wr_ne _ _ h0]
  refine ⟨_, hex, ?_, ?_, ?_, ?_, ?_, fun hramp => ?_⟩
  · exact (hrd (keys_ne rfl rfl (by omega)) (keys_ne rfl rfl (by omega))).trans (State.rd_wr_self ..)
  · have hlol : K.GSYN_LOL g.val ∉ searchKeys g.val := by simp (disch := (refine keys_ne rfl rfl ?_; omega)) [searchKeys, eq_false_of_keys_ne]
    exact (hrd (keys_ne rfl rfl (by omega)) (keys_ne rfl rfl (by omega))).trans ((ht.regs _ hlol).trans (State.rd_wr_self ..))
  · have hne : K.GSYN_RELOCK g.val ≠ K.IDENT_CFG_SEQ := keys_ne rfl rfl (by omega)
    rw [wrote_rd hwarm hne, heff, State.rd_wr_self]
  · rw [wrote_raisedOf hwarm, heff, raisedOf, State.wr_raised, ← raisedOf, ht.events, List.append_nil, relockBase, (Touches.wrs _ _).events, List.append_nil,
      raisedOf, arrived_raised, raisedOf]
  · refine storesKept_wrote hwarm ?_
    rw [relockEffect]
    exact (storesKept_kept s).wr _ _ _ (relockWrite_keeps (storesKept_kept s) (storesKept_arrived s q i))
  · have hbase : (relockBase g.val 2 (arrived q i s)).rd (K.GSYN_RAMP_STATUS_STATE g.val) = s.rd (K.GSYN_RAMP_STATUS_STATE g.val) :=
      relockBase_rd h (by simp only [K.GSYN_RAMP_STATUS_STATE, K.at']; omega) (by simp only [K.GSYN_RAMP_STATUS_STATE, K.at']; omega)
        (keys_ne rfl rfl (by omega)) (keys_ne rfl rfl (by omega))
    rw [hramp] at hbase
    exact (hrd (keys_ne rfl rfl (by omega)) (keys_ne rfl rfl (by omega))).trans (searching_ramp hbase)

end
end

/-! ## LOL_CLEAR -/

section
variable {s : State} {q : Req} {i : Nat}

/-- Where LOL_CLEAR lies. -/
def lolLoc : Loc := ⟨.glob, 0, 0x9C00, 7, ⟨0x9C00, 7, 1, .u 1, .cmd, 0, 2, 0, .set [1]⟩⟩

theorem locate_lol : locate K.LOL_CLEAR = some lolLoc := by decide

theorem writeEffect_lol (v : Nat) (c : Wctx) (u : State) : writeEffect lolLoc K.LOL_CLEAR v c u = lolClear u := rfl

/-- The flags of the two PLLs that are still frozen. -/
def frozenPlls (s : State) : Nat := (if s.rd K.SYSPLL_STATE = 2 then 1 else 0) + (if s.rd K.AUDPLL_STATE = 2 then 2 else 0)

/-- The flags of the transmit PLLs that are. -/
def frozenTx (s : State) : Nat := (List.range 12).foldl (fun a t => if s.rd (H.txFrozen t) = 1 then a + 2 ^ t else a) 0

/-- What LOL_CLEAR writes. -/
def lolRegs (s : State) : List (Nat × Nat) := [(K.LOL_CLEAR, 1), (K.LOL, frozenPlls s), (K.TXPLL_LOL, frozenTx s)]

theorem lolClear_eq (u : State) : lolClear u = ansOk (u.wrs (lolRegs u)) := rfl

/-- An arrival leaves the PLLs. -/
theorem arrived_lolRegs (hi : i ≤ 16) : lolRegs (arrived q i s) = lolRegs s := by
  have hsys : (arrived q i s).rd K.SYSPLL_STATE = s.rd K.SYSPLL_STATE := arrived_obj s q hi (by decide) (by decide)
  have haud : (arrived q i s).rd K.AUDPLL_STATE = s.rd K.AUDPLL_STATE := arrived_obj s q hi (by decide) (by decide)
  have htx (t : Nat) (ht : t < 12) : (arrived q i s).rd (H.txFrozen t) = s.rd (H.txFrozen t) := by
    refine arrived_rd s q i _ (fun hmem => ?_)
    simp only [arrivalKeys, List.mem_cons, List.not_mem_nil, or_false, K.SESS_PORT, K.SESS_ADDR, K.SESS_UDP, K.SESS_LAST_SEQ, H.sessOwn, H.lastReq,
      H.sessMute, H.warmPend, H.hk, K.at', H.txFrozen] at hmem
    omega
  have hfold : frozenTx (arrived q i s) = frozenTx s := by
    rw [frozenTx, frozenTx]
    refine List.foldl_ext _ _ _ (fun a t ht => ?_)
    rw [htx t (List.mem_range.mp ht)]
  rw [lolRegs, lolRegs, hfold, frozenPlls, frozenPlls, hsys, haud]

theorem lolClear_writes (h : Serves s q i) (hr : holds (s.rd (K.SESS_RIGHTS i)) 2 = true) :
    Writes (.lolClear q) s q i K.LOL_CLEAR (lolRegs s) [] := by
  have hi := slot_le h.named
  have hex : exec (.lolClear q) s = .next (wrote s q i K.LOL_CLEAR (fun u => (u.wrs (lolRegs u)).wr K.LOL_CLEAR 1)) :=
    put_cmd h (by decide) locate_lol rfl hr (by decide) (by decide) (by decide) rfl [] (fun u => u.wrs (lolRegs u))
      ((writeEffect_lol _ _ _).trans (lolClear_eq _))
  have hc : ClockKey K.LOL_CLEAR := ⟨by decide, by decide⟩
  have hl : ClockKey K.LOL := ⟨by decide, by decide⟩
  have ht : ClockKey K.TXPLL_LOL := ⟨by decide, by decide⟩
  have h0 : K.LOL ≠ K.LOL_CLEAR := by decide
  have h1 : K.TXPLL_LOL ≠ K.LOL_CLEAR := by decide
  have h2 : K.LOL ≠ K.TXPLL_LOL := by decide
  refine writes_of_wrs (l := lolRegs s ++ [(K.LOL_CLEAR, 1)]) h hex ?_ ?_ ?_ ?_
  · rw [arrived_lolRegs hi, ← wrs_wrs]
    rfl
  · simp [lolRegs, hc, hl, ht]
  · simp [lolRegs]
  · simp [lolRegs, hc, hl, ht, State.wrs, State.rd_wr_ne _ _ h0, State.rd_wr_ne _ _ h1, State.rd_wr_ne _ _ h2]

end

/-- Settles O32: each command on a family or a PLL by its effect on STATE, and RELOCK and LOL_CLEAR as writes. -/
theorem familiesLockAndFreeze : Obligations.FamiliesLockAndFreeze := by
  intro g s
  refine ⟨fun band word => ⟨fun h => gsynBandSearch_does h band word, fun h => if_pos h⟩, fun gain seen => ⟨fun h hs hdev => ?_, fun h => ?_⟩,
    fun word => ⟨fun h => freezes_of_exec (if_pos h) rfl, fun h => if_neg h⟩, fun hst h0 he => freezes_of_exec (if_pos ⟨hst, h0, he⟩) rfl,
    fun h => ?_, fun d => ⟨fun h => if_pos h, fun h => gsynRateChange_ends h d⟩, fun x word => ?_, fun q i hs hr => ?_⟩
  · exact gsynLock_ends h hs.1 hs.2 hdev gain
  · refine if_pos ?_
    rcases h with h | h
    · exact .inl h
    · exact .inr ((not_and_or.mp h).imp not_le.mp not_le.mp)
  · refine if_neg (fun hall => ?_)
    obtain ⟨h1, h2, h3⟩ := hall
    rcases h with h | h | h
    · exact h h1
    · exact h2 h
    · omega
  · refine ⟨fun hx => ?_, fun hx => ?_, fun h16 h28 => pllLol_tx h16 h28 word⟩
    · subst hx
      exact pllLol_sys word
    · subst hx
      exact pllLol_aud word
  · exact ⟨relock1_starts hs hr, relock1_writes_only hs hr, relock2_busy hs hr, relock2_off hs hr, relock2_searches hs hr, lolClear_writes hs hr⟩

end Sys2Proof
end

section
/-! SUPPORT. A CMD that is carried out and only sets registers of the signal blocks or registers outside the dictionary. -/
namespace Sys2Proof

open Machine

/-- The registers above the blocks of sessions, ports and domains: what an answer needs is not among them. -/
def SignalKey (k : Nat) : Prop := 0x200000 ≤ k ∧ k ≠ H.warmPend

theorem signalKey_of {k a b : Nat} (hk : k = a + b) (h : 0x200000 ≤ a + b ∧ a + b ≠ H.warmPend) : SignalKey k := by
  subst hk
  exact h

section
variable {s : State} {q : Req} {i k v : Nat} {f : State → State} {w : List (Nat × Nat)}

theorem rd_wrs_signal {u : State} (hw : ∀ p ∈ w, SignalKey p.1) {j : Nat} (hj : ¬ SignalKey j) : (u.wrs w).rd j = u.rd j :=
  State.rd_wrs_ne _ _ (fun p hp heq => hj (heq ▸ hw p hp))

/-- The answer to a write whose effect sets signal registers is the answer to one without an effect, but for these registers. -/
theorem wrote_wrs (h : Serves s q i) (hf : f (arrived q i s) = (arrived q i s).wrs w) (hw : ∀ p ∈ w, SignalKey p.1) :
    ∃ r, wrote s q i k f = { wrote s q i k id with reg := r } ∧
      ∀ j, (wrote s q i k f).rd j = (((arrived q i s).wrs w).inc K.IDENT_CFG_SEQ 1 (2 ^ 64)).rd j := by
  have hi := slot_le h.named
  have hquiet : (f (arrived q i s)).rd H.warmPend ≠ 1 := by
    rw [hf, rd_wrs_signal hw (fun hk => hk.2 rfl)]
    exact h.quiet
  have hreg : (f (arrived q i s)).inc K.IDENT_CFG_SEQ 1 (2 ^ 64) =
      { (arrived q i s).inc K.IDENT_CFG_SEQ 1 (2 ^ 64) with reg := ((f (arrived q i s)).inc K.IDENT_CFG_SEQ 1 (2 ^ 64)).reg } := by
    rw [hf, wrs_eq_reg]
    rfl
  have hlow {j : Nat} (hj : j < 0x200000) (hne : j ≠ K.IDENT_CFG_SEQ) :
      ((f (arrived q i s)).inc K.IDENT_CFG_SEQ 1 (2 ^ 64)).rd j = ((arrived q i s).inc K.IDENT_CFG_SEQ 1 (2 ^ 64)).rd j := by
    rw [State.inc, State.up, State.rd_wr_ne _ _ hne, State.inc, State.up, State.rd_wr_ne _ _ hne, hf,
      rd_wrs_signal hw (fun hk => absurd hk.1 (by omega))]
  have hport := h.port
  refine ⟨((f (arrived q i s)).inc K.IDENT_CFG_SEQ 1 (2 ^ 64)).reg, ?_, fun j => by rw [wrote_eq hquiet, replied_rd, hf]⟩
  rw [wrote_eq hquiet, wrote_id hi, hreg, replied_reg]
  · rw [← hreg]
    exact hlow (by simp only [K.PD_STATE, K.at']; omega) (keys_ne rfl rfl (by omega))
  · rw [← hreg]
    exact hlow (by simp only [K.CTL_ENABLE, K.at']; omega) (keys_ne rfl rfl (by omega))

/-- A CMD whose effect is to hold its value and to set other signal registers, each once. -/
theorem writes_cmd {c : Instr} (h : Serves s q i) (hex : exec c s = .next (wrote s q i k (fun u => (f u).wr k v)))
    (hf : f (arrived q i s) = (arrived q i s).wrs ((k, v) :: w)) (hw : ∀ p ∈ (k, v) :: w, SignalKey p.1)
    (hnd : (((k, v) :: w).map Prod.fst).Nodup) : Writes c s q i k ((k, v) :: w) [] := by
  have hcfg {p : Nat × Nat} (hp : p ∈ (k, v) :: w) : p.1 ≠ K.IDENT_CFG_SEQ := fun heq => absurd (heq ▸ hw p hp).1 (by decide)
  have hagain : (f (arrived q i s)).wr k v = (arrived q i s).wrs ((k, v) :: w ++ [(k, v)]) := by
    rw [hf, ← wrs_wrs]
    rfl
  have hl : ∀ p ∈ (k, v) :: w ++ [(k, v)], SignalKey p.1 := fun p hp =>
    (List.mem_append.mp hp).elim (hw p) (fun hp => hw p (List.mem_cons.mpr (.inl (List.mem_singleton.mp hp))))
  obtain ⟨r, hreg, hrd⟩ := wrote_wrs (k := k) (f := fun u => (f u).wr k v) h hagain hl
  have hval (j : Nat) (hj : j ≠ K.IDENT_CFG_SEQ) :
      (wrote s q i k (fun u => (f u).wr k v)).rd j = if j = k then v else ((arrived q i s).wrs ((k, v) :: w)).rd j := by
    rw [hrd, State.inc, State.up, State.rd_wr_ne _ _ hj, ← wrs_wrs]
    exact State.rd_wr ..
  refine ⟨_, hex, fun p hp => ?_, fun j hj => ?_, ?_, ?_⟩
  · rw [hval _ (hcfg hp), rd_wrs_of_mem hnd hp]
    split
    · next heq => exact (rd_wrs_of_mem hnd (List.mem_cons_self ..) (arrived q i s)).symm.trans (heq ▸ rd_wrs_of_mem hnd hp (arrived q i s))
    · rfl
  · rw [wrote_id (slot_le h.named), replied_rd]
    by_cases hc : j = K.IDENT_CFG_SEQ
    · rw [hrd, hc, State.inc, State.up, State.rd_wr_self, State.inc, State.up, State.rd_wr_self,
        rd_wrs_signal hl (fun hk => absurd hk.1 (by decide))]
    · rw [hval j hc, if_neg (fun hjk => hj (by simp [hjk])), (Touches.wrs _ _).regs j hj, State.inc, State.up, State.rd_wr_ne _ _ hc]
  · rw [hreg, List.append_nil]
    rfl
  · rw [hreg]
    exact ⟨⟨fun _ => rfl, fun _ => rfl, rfl, rfl, rfl, rfl⟩, fun _ => rfl, rfl, rfl, rfl, rfl, rfl, rfl, rfl, rfl, rfl, rfl⟩

end
end Sys2Proof
end

section
/-! OutputFlagsAndCounters: the interrupt flags of an output, its line buffer, and what the two CLEARs zero (R58, R128, R129, R208). -/
namespace Sys2Proof

open Machine

/-! ## Bits -/

/-- A sum of powers of two has the bits it was made of. -/
theorem testBit_foldl_two_pow (c : Nat → Bool) (n b : Nat) :
    ((List.range n).foldl (fun a i => if c i then a + 2 ^ i else a) 0).testBit b = (decide (b < n) && c b) := by
  have hlt (n : Nat) : (List.range n).foldl (fun a i => if c i then a + 2 ^ i else a) 0 < 2 ^ n := by
    induction n with
    | zero => simp
    | succ n ih =>
      rw [List.range_succ, List.foldl_append, List.foldl_cons, List.foldl_nil, Nat.pow_succ]
      split <;> omega
  induction n with
  | zero => simp
  | succ n ih =>
    rw [List.range_succ, List.foldl_append, List.foldl_cons, List.foldl_nil]
    obtain hb | rfl | hb := Nat.lt_trichotomy b n
    · split
      · rw [Nat.add_comm, Nat.testBit_two_pow_add_gt hb, ih]
        simp [hb, Nat.lt_succ_of_lt hb]
      · rw [ih]
        simp [hb, Nat.lt_succ_of_lt hb]
    · split
      · next hc => rw [Nat.add_comm, Nat.testBit_two_pow_add_eq, Nat.testBit_lt_two_pow (hlt b)]; simp [hc]
      · next hc => rw [Nat.testBit_lt_two_pow (hlt b)]; simp [hc]
    · have hn : ¬ b < n + 1 := by omega
      rw [Nat.testBit_lt_two_pow ?_]
      · simp [hn]
      · have h := hlt (n + 1)
        rw [List.range_succ, List.foldl_append, List.foldl_cons, List.foldl_nil] at h
        exact h.trans_le (Nat.pow_le_pow_right (by decide) (by omega))

/-! ## FRAME_DONE and FETCH_COMPLETION (R128, R129) -/

section
variable {n : Fin 48} {s : State}

theorem irqSet_eq_wrs (s : State) (n b : Nat) : s.irqSet n b =
    s.wrs [(K.OUT_IRQ_PENDING n, s.rd (K.OUT_IRQ_PENDING n) ||| 2 ^ b), (H.irqAt (4 * n + b), s.now + 1)] := rfl

theorem frameDone_running (h : s.rd (K.OUT_TSTATE n.val) ≠ 0) : Does (.frameDone n) s
    [(K.OUT_IRQ_PENDING n.val, s.rd (K.OUT_IRQ_PENDING n.val) ||| 4), (H.irqAt (4 * n.val + 2), s.now + 1)] [] := by
  refine does_of_wrs ?_ ?_
  · exact congrArg Host.Outcome.next ((if_neg h).trans (irqSet_eq_wrs ..))
  · have hne : K.OUT_IRQ_PENDING n.val ≠ H.irqAt (4 * n.val + 2) := keys_ne rfl rfl (by omega)
    simp [hne]

theorem frameDone_stopped (h : s.rd (K.OUT_TSTATE n.val) = 0) : Idles (.frameDone n) s := congrArg Host.Outcome.next (if_pos h)

theorem fetchCompletion_does (k : Nat) : Does (.fetchCompletion n k) s
    (let lev := min 16384 (s.rd (K.OUT_FETCH_LEVEL n.val) + k)
     [(K.OUT_FETCH_LEVEL n.val, lev), (H.fetchLow n.val, max (s.rd (H.fetchLow n.val)) (16384 - lev)),
      (K.OUT_FETCH_CLASS n.val, fetchClass (s.rd (K.OUT_FETCH_CLASS n.val)) lev (s.rd (K.OUT_FETCH_W1 n.val)) (s.rd (K.OUT_FETCH_W2 n.val)))])
    [] := by
  refine does_of_wrs rfl ?_
  have h0 : K.OUT_FETCH_LEVEL n.val ≠ H.fetchLow n.val := keys_ne rfl rfl (by omega)
  have h1 : K.OUT_FETCH_LEVEL n.val ≠ K.OUT_FETCH_CLASS n.val := keys_ne rfl rfl (by omega)
  have h2 : H.fetchLow n.val ≠ K.OUT_FETCH_CLASS n.val := keys_ne rfl rfl (by omega)
  simp [h0, h1, h2]

end

/-! ## IRQ.ACK (R128) -/

section
variable {s : State} {q : Req} {i : Nat} {n : Fin 48}

/-- Where IRQ.ACK of an output lies. -/
def ackLoc (n : Nat) : Loc := ⟨.out, n, 0x17, 4, ⟨0x17, 4, 1, .u 1, .cmd, 0, 1, 0, .mask 0x0F⟩⟩

theorem locate_ack : ∀ n : Fin 48, locate (K.OUT_IRQ_ACK n.val) = some (ackLoc n.val) := by decide

theorem writeEffect_ack (n k v : Nat) (c : Wctx) (u : State) : writeEffect (ackLoc n) k v c u = irqAckWrite n v u := rfl

theorem ackLoc_admits {v : Nat} (hv : v ≤ 15) (n k : Nat) : (ackLoc n).admits k v = true := by
  have hmask : v &&& 15 = v := by rw [show 15 = 2 ^ 4 - 1 from rfl, Nat.and_two_pow_sub_one_eq_mod]; omega
  simp [Loc.admits, ackLoc, Ty.valid, Rng.admits, hmask]

/-- The bits an acknowledgement leaves. -/
theorem irqStay_testBit (s : State) (n v : Nat) {b : Nat} (hb : b < 4) :
    (s.irqStay n v).testBit b = (!v.testBit b || s.rd (H.irqAt (4 * n + b)) == s.now + 1) := by
  rw [State.irqStay, testBit_foldl_two_pow (fun b => !v.testBit b || s.rd (H.irqAt (4 * n + b)) == s.now + 1), decide_eq_true hb, Bool.true_and]

/-- Without an event in this tick an acknowledgement leaves the bits it does not name. -/
theorem irqStay_quiet {v : Nat} (hv : v ≤ 15) (h : ∀ b < 4, s.rd (H.irqAt (4 * n.val + b)) ≠ s.now + 1) : s.irqStay n.val v = 15 - v := by
  refine Nat.eq_of_testBit_eq (fun b => ?_)
  rw [show 15 - v = 2 ^ 4 - (v + 1) by omega, Nat.testBit_two_pow_sub_succ (by omega), State.irqStay,
    testBit_foldl_two_pow (fun b => !v.testBit b || s.rd (H.irqAt (4 * n.val + b)) == s.now + 1)]
  by_cases hb : b < 4
  · simp [hb, h b hb]
  · simp [hb]

theorem arrived_irqAt (hi : i ≤ 16) (b : Nat) : (arrived q i s).rd (H.irqAt b) = s.rd (H.irqAt b) := by
  refine arrived_rd s q i _ (fun hmem => ?_)
  simp only [arrivalKeys, List.mem_cons, List.not_mem_nil, or_false, K.SESS_PORT, K.SESS_ADDR, K.SESS_UDP, K.SESS_LAST_SEQ, H.sessOwn, H.lastReq,
    H.sessMute, H.warmPend, H.hk, K.at', H.irqAt] at hmem
  omega

theorem arrived_irqStay (hi : i ≤ 16) (n v : Nat) : (arrived q i s).irqStay n v = s.irqStay n v := by
  simp only [State.irqStay, arrived_irqAt hi, arrived_now s q hi]

theorem irqAck_writes (h : Serves s q i) (hr : holds (s.rd (K.SESS_RIGHTS i)) 1 = true) {v : Nat} (hv : v ≤ 15) :
    Writes (.irqAck q n v) s q i (K.OUT_IRQ_ACK n.val)
      [(K.OUT_IRQ_ACK n.val, v), (K.OUT_IRQ_PENDING n.val, s.rd (K.OUT_IRQ_PENDING n.val) &&& s.irqStay n.val v)] [] := by
  have hi := slot_le h.named
  have hobj : K.OUT_IRQ_ACK n.val < 2 ^ 24 := by simp only [K.OUT_IRQ_ACK, K.at']; omega
  have hne : K.OUT_IRQ_PENDING n.val ≠ K.OUT_IRQ_ACK n.val := keys_ne rfl rfl (by omega)
  have hpend : (arrived q i s).rd (K.OUT_IRQ_PENDING n.val) = s.rd (K.OUT_IRQ_PENDING n.val) :=
    arrived_obj s q hi (.inr (by simp only [K.OUT_IRQ_PENDING, K.at']; omega)) (by simp only [K.OUT_IRQ_PENDING, K.at']; omega)
  have hack : SignalKey (K.OUT_IRQ_ACK n.val) := signalKey_of rfl (by simp only [H.warmPend, H.hk]; omega)
  have hpkey : SignalKey (K.OUT_IRQ_PENDING n.val) := signalKey_of rfl (by simp only [H.warmPend, H.hk]; omega)
  refine writes_cmd (f := fun u => (irqAckWrite n.val v u).s) h (put_cmd h hobj (locate_ack n) rfl hr (show v < 256 by omega)
    (show 1 ≤ 1396 by decide) (ackLoc_admits hv _ _) (Bool.or_true _) [] _ (writeEffect_ack ..)) ?_ (by simp [hack, hpkey]) (by simp [hne.symm])
  simp only [irqAckWrite, ansOk, State.up, State.rd_wr_ne _ _ hne, hpend, arrived_irqStay hi]
  rfl

/-- An acknowledged flag stays where its event occurs in the same tick. -/
theorem irqAck_bits (h : Serves s q i) (hr : holds (s.rd (K.SESS_RIGHTS i)) 1 = true) {v : Nat} (hv : v ≤ 15) :
    Ends (.irqAck q n v) s (fun t => ∀ b < 4, (t.rd (K.OUT_IRQ_PENDING n.val)).testBit b =
      ((s.rd (K.OUT_IRQ_PENDING n.val)).testBit b && (!v.testBit b || s.rd (H.irqAt (4 * n.val + b)) == s.now + 1))) := by
  obtain ⟨t, hex, hval, -⟩ := irqAck_writes (n := n) h hr hv
  refine ⟨t, hex, fun b hb => ?_⟩
  rw [hval _ (List.mem_cons_of_mem _ (List.mem_cons_self ..)), Nat.testBit_and, irqStay_testBit s n.val v hb]

/-! ## MEASURED.CLEAR (R208) -/

/-- Where MEASURED.CLEAR of an output lies. -/
def measuredLoc (n : Nat) : Loc := ⟨.out, n, 0x23, 6, ⟨0x23, 6, 1, .u 1, .cmd, 0, 1, 0, .set [1]⟩⟩

theorem locate_measured : ∀ n : Fin 48, locate (K.OUT_MEASURED_CLEAR n.val) = some (measuredLoc n.val) := by decide

theorem writeEffect_measured (n k v : Nat) (c : Wctx) (u : State) : writeEffect (measuredLoc n) k v c u = measuredClearWrite n v u := rfl

theorem measuredClear_writes (h : Serves s q i) (hr : holds (s.rd (K.SESS_RIGHTS i)) 1 = true) :
    Writes (.measuredClear q n) s q i (K.OUT_MEASURED_CLEAR n.val)
      [(K.OUT_MEASURED_CLEAR n.val, 1), (K.OUT_MEASURED_MAX n.val, 0), (K.OUT_MEASURED_MIN n.val, 0xFFFFFFFF)] [] := by
  have hobj : K.OUT_MEASURED_CLEAR n.val < 2 ^ 24 := by simp only [K.OUT_MEASURED_CLEAR, K.at']; omega
  have hkeys : ∀ m : Nat, m < 256 → SignalKey (K.at' (0x3023 + 0x40 * n.val) m) := fun m hm =>
    signalKey_of rfl (by simp only [H.warmPend, H.hk]; omega)
  refine writes_cmd (f := fun u => (measuredClearWrite n.val 1 u).s) h (put_cmd h hobj (locate_measured n) rfl hr (show 1 < 256 by decide)
    (show 1 ≤ 1396 by decide) rfl (Bool.or_true _) [] _ (writeEffect_measured ..)) rfl ?_ ?_
  · simp [K.OUT_MEASURED_CLEAR, K.OUT_MEASURED_MAX, K.OUT_MEASURED_MIN, hkeys]
  · simp [K.OUT_MEASURED_CLEAR, K.OUT_MEASURED_MAX, K.OUT_MEASURED_MIN, K.at']

/-! ## STATS.CLEAR (R58, R379) -/

/-- What STATS.CLEAR is in the dictionary, at the offset its block gives it. -/
def clearRow (off : Nat) : Row := ⟨off, 0, 1, .u 1, .cmd, 0, 1, 0, .set [1]⟩

/-- `key` is the STATS.CLEAR of a block whose TOTAL has members 1 to `last`. -/
structure ClearsStats (key : Nat) (total : Nat → Nat) (last : Nat) : Prop where
  located : ∃ l off, locate key = some l ∧ l.row = clearRow off ∧ (∀ v c u, writeEffect l key v c u = statsClearWrite key v u) ∧
    ∀ u v, State.pairOk u l v = true
  counters : statsTotal key = some (total, last)
  placed : ∃ x y, 0x2000 ≤ x ∧ x < y ∧ y < 0x8000 ∧ key = y * 256 ∧ (∀ m, total m = x * 256 + m) ∧ last < 255

theorem find_key {f : Nat → Nat} {c n : Nat} (hn : n < c) (hinj : ∀ m, f m = f n → m = n) :
    (List.range c).find? (fun m => f m == f n) = some n := by
  cases hm : (List.range c).find? (fun m => f m == f n) with
  | none => exact absurd (beq_self_eq_true (f n)) (List.find?_eq_none.mp hm n (List.mem_range.mpr hn))
  | some m =>
    have hf := List.find?_some hm
    rw [hinj m (eq_of_beq hf)]

theorem find_no_key {f : Nat → Nat} {c key : Nat} (h : ∀ m < c, f m ≠ key) : (List.range c).find? (fun m => f m == key) = none := by
  simpa using h

theorem locate_clear_in : ∀ n : Fin 48, locate (K.IN_STATS_CLEAR n.val) = some ⟨.inp, n, 0x3F, 0, clearRow 0x3F⟩ := by decide

theorem locate_clear_out : ∀ n : Fin 48, locate (K.OUT_STATS_CLEAR n.val) = some ⟨.out, n, 0x3F, 0, clearRow 0x3F⟩ := by decide

theorem locate_clear_eas : ∀ n : Fin 16, locate (K.EAS_STATS_CLEAR n.val) = some ⟨.eas, n, 0x3F, 0, clearRow 0x3F⟩ := by decide

theorem locate_clear_frc : ∀ n : Fin 16, locate (K.FRC_STATS_CLEAR n.val) = some ⟨.frc, n, 0x3F, 0, clearRow 0x3F⟩ := by decide

theorem locate_clear_ain : ∀ n : Fin 48, locate (K.AIN_STATS_CLEAR n.val) = some ⟨.ain, n, 0xF, 0, clearRow 0xF⟩ := by decide

theorem statsTotal_in (n : Fin 48) : statsTotal (K.IN_STATS_CLEAR n.val) = some (K.IN_TOTAL n.val, 11) := by
  unfold statsTotal
  rw [find_key n.isLt (fun m hm => by simp only [K.IN_STATS_CLEAR, K.at'] at hm; omega)]

theorem clearsStats_in (n : Fin 48) : ClearsStats (K.IN_STATS_CLEAR n.val) (K.IN_TOTAL n.val) 11 where
  located := ⟨_, _, locate_clear_in n, rfl, fun _ _ _ => rfl, fun _ _ => Bool.or_true _⟩
  counters := statsTotal_in n
  placed := ⟨0x2032 + 0x40 * n.val, 0x203F + 0x40 * n.val, by omega, by omega, by omega, Nat.add_zero _, fun _ => rfl, by decide⟩

theorem statsTotal_out (n : Fin 48) : statsTotal (K.OUT_STATS_CLEAR n.val) = some (K.OUT_TOTAL n.val, 8) := by
  unfold statsTotal
  rw [find_no_key (f := K.IN_STATS_CLEAR) (key := K.OUT_STATS_CLEAR n.val) (fun _ _ => keys_ne rfl rfl (by omega)),
    find_key n.isLt (fun m hm => by simp only [K.OUT_STATS_CLEAR, K.at'] at hm; omega)]

theorem clearsStats_out (n : Fin 48) : ClearsStats (K.OUT_STATS_CLEAR n.val) (K.OUT_TOTAL n.val) 8 where
  located := ⟨_, _, locate_clear_out n, rfl, fun _ _ _ => rfl, fun _ _ => Bool.or_true _⟩
  counters := statsTotal_out n
  placed := ⟨0x3032 + 0x40 * n.val, 0x303F + 0x40 * n.val, by omega, by omega, by omega, Nat.add_zero _, fun _ => rfl, by decide⟩

theorem statsTotal_eas (n : Fin 16) : statsTotal (K.EAS_STATS_CLEAR n.val) = some (K.EAS_TOTAL n.val, 10) := by
  unfold statsTotal
  rw [find_no_key (f := K.IN_STATS_CLEAR) (key := K.EAS_STATS_CLEAR n.val) (fun _ _ => keys_ne rfl rfl (by omega)),
    find_no_key (f := K.OUT_STATS_CLEAR) (key := K.EAS_STATS_CLEAR n.val) (fun _ _ => keys_ne rfl rfl (by omega)),
    find_key n.isLt (fun m hm => by simp only [K.EAS_STATS_CLEAR, K.at'] at hm; omega)]

theorem clearsStats_eas (n : Fin 16) : ClearsStats (K.EAS_STATS_CLEAR n.val) (K.EAS_TOTAL n.val) 10 where
  located := ⟨_, _, locate_clear_eas n, rfl, fun _ _ _ => rfl, fun _ _ => Bool.or_true _⟩
  counters := statsTotal_eas n
  placed := ⟨0x4032 + 0x40 * n.val, 0x403F + 0x40 * n.val, by omega, by omega, by omega, Nat.add_zero _, fun _ => rfl, by decide⟩

theorem statsTotal_frc (n : Fin 16) : statsTotal (K.FRC_STATS_CLEAR n.val) = some (K.FRC_TOTAL n.val, 10) := by
  unfold statsTotal
  rw [find_no_key (f := K.IN_STATS_CLEAR) (key := K.FRC_STATS_CLEAR n.val) (fun _ _ => keys_ne rfl rfl (by omega)),
    find_no_key (f := K.OUT_STATS_CLEAR) (key := K.FRC_STATS_CLEAR n.val) (fun _ _ => keys_ne rfl rfl (by omega)),
    find_no_key (f := K.EAS_STATS_CLEAR) (key := K.FRC_STATS_CLEAR n.val) (fun _ _ => keys_ne rfl rfl (by omega)),
    find_key n.isLt (fun m hm => by simp only [K.FRC_STATS_CLEAR, K.at'] at hm; omega)]

theorem clearsStats_frc (n : Fin 16) : ClearsStats (K.FRC_STATS_CLEAR n.val) (K.FRC_TOTAL n.val) 10 where
  located := ⟨_, _, locate_clear_frc n, rfl, fun _ _ _ => rfl, fun _ _ => Bool.or_true _⟩
  counters := statsTotal_frc n
  placed := ⟨0x5832 + 0x40 * n.val, 0x583F + 0x40 * n.val, by omega, by omega, by omega, Nat.add_zero _, fun _ => rfl, by decide⟩

theorem statsTotal_ain (n : Fin 48) : statsTotal (K.AIN_STATS_CLEAR n.val) = some (K.AIN_TOTAL n.val, 7) := by
  unfold statsTotal
  rw [find_no_key (f := K.IN_STATS_CLEAR) (key := K.AIN_STATS_CLEAR n.val) (fun _ _ => keys_ne rfl rfl (by omega)),
    find_no_key (f := K.OUT_STATS_CLEAR) (key := K.AIN_STATS_CLEAR n.val) (fun _ _ => keys_ne rfl rfl (by omega)),
    find_no_key (f := K.EAS_STATS_CLEAR) (key := K.AIN_STATS_CLEAR n.val) (fun _ _ => keys_ne rfl rfl (by omega)),
    find_no_key (f := K.FRC_STATS_CLEAR) (key := K.AIN_STATS_CLEAR n.val) (fun _ _ => keys_ne rfl rfl (by omega)),
    find_key n.isLt (fun m hm => by simp only [K.AIN_STATS_CLEAR, K.at'] at hm; omega)]

theorem clearsStats_ain (n : Fin 48) : ClearsStats (K.AIN_STATS_CLEAR n.val) (K.AIN_TOTAL n.val) 7 where
  located := ⟨_, _, locate_clear_ain n, rfl, fun _ _ _ => rfl, fun _ _ => Bool.or_true _⟩
  counters := statsTotal_ain n
  placed := ⟨0x780E + 0x10 * n.val, 0x780F + 0x10 * n.val, by omega, by omega, by omega, Nat.add_zero _, fun _ => rfl, by decide⟩

/-- TOTAL of the block STATS_CLEAR gives the number x. -/
def statsTotalOf (x : Nat) : Nat → Nat :=
  if x < 48 then K.IN_TOTAL x else if x < 96 then K.OUT_TOTAL (x - 48) else if x < 112 then K.EAS_TOTAL (x - 96)
  else if x < 128 then K.FRC_TOTAL (x - 112) else K.AIN_TOTAL (x - 128)

/-- How many members it has. -/
def statsLastOf (x : Nat) : Nat := if x < 48 then 11 else if x < 96 then 8 else if x < 128 then 10 else 7

theorem clearsStats (b : Fin 176) : ClearsStats (statsKey b.val) (statsTotalOf b.val) (statsLastOf b.val) := by
  rw [statsKey, statsTotalOf, statsLastOf]
  by_cases h1 : b.val < 48
  · rw [if_pos h1, if_pos h1, if_pos h1]
    exact clearsStats_in ⟨b.val, h1⟩
  rw [if_neg h1, if_neg h1, if_neg h1]
  by_cases h2 : b.val < 96
  · rw [if_pos h2, if_pos h2, if_pos h2]
    exact clearsStats_out ⟨b.val - 48, by omega⟩
  rw [if_neg h2, if_neg h2, if_neg h2]
  by_cases h3 : b.val < 112
  · rw [if_pos h3, if_pos h3, if_pos (by omega)]
    exact clearsStats_eas ⟨b.val - 96, by omega⟩
  rw [if_neg h3, if_neg h3]
  by_cases h4 : b.val < 128
  · rw [if_pos h4, if_pos h4, if_pos h4]
    exact clearsStats_frc ⟨b.val - 112, by omega⟩
  rw [if_neg h4, if_neg h4, if_neg h4]
  exact clearsStats_ain ⟨b.val - 128, by omega⟩

/-- The members of a TOTAL at zero. -/
def zeroTotals (total : Nat → Nat) (last : Nat) : List (Nat × Nat) := (List.range last).map (fun m => (total (m + 1), 0))

theorem totalClear_eq (total : Nat → Nat) (last : Nat) (u : State) : u.totalClear total last = u.wrs (zeroTotals total last) := by
  rw [State.totalClear, State.wrs, zeroTotals, List.foldl_map]

theorem mem_zeroTotals {total : Nat → Nat} {last : Nat} {p : Nat × Nat} :
    p ∈ zeroTotals total last ↔ ∃ m < last, p = (total (m + 1), 0) := by
  simp [zeroTotals, eq_comm]

theorem zeroTotals_nodup {total : Nat → Nat} (hinj : ∀ m j, total m = total j → m = j) (last : Nat) :
    ((zeroTotals total last).map Prod.fst).Nodup := by
  rw [zeroTotals, List.map_map]
  exact List.nodup_range.map (fun m j h => by simpa using hinj _ _ h)

theorem statsClearWrite_eq {key last : Nat} {total : Nat → Nat} (h : ClearsStats key total last) (u : State) : statsClearWrite key 1 u =
    ansOk (u.wrs ((key, 1) :: (H.clrAt (total 1), u.now + 1) :: zeroTotals total last)) := by
  simp only [statsClearWrite, h.counters, totalClear_eq, wrs_wrs]
  rfl

theorem statsClear_writes {c : Instr} {key last : Nat} {total : Nat → Nat} (hb : ClearsStats key total last)
    (hex : exec c s = put q key 1 [] s) (h : Serves s q i) (hr : holds (s.rd (K.SESS_RIGHTS i)) 1 = true) :
    Writes c s q i key ((key, 1) :: (H.clrAt (total 1), s.now + 1) :: zeroTotals total last) [] := by
  obtain ⟨l, off, hl, hrow, heff, hpair⟩ := hb.located
  obtain ⟨x, y, hx, hxy, hy, hkey, htot, hlast⟩ := hb.placed
  have hobj : key < 2 ^ 24 := by omega
  have hclr : H.clrAt (total 1) = 305 * 2 ^ 24 + (x * 256 + 1) := by rw [htot]; rfl
  have hwarm : H.warmPend = 257 * 2 ^ 24 := rfl
  refine writes_cmd (f := fun u => (statsClearWrite key 1 u).s) h (hex.trans (put_cmd h hobj hl (by rw [hrow]; rfl) (by rw [hrow]; exact hr)
    (by rw [hrow]; exact show 1 < 256 by decide) (by rw [hrow]; exact show 1 ≤ 1396 by decide) (by rw [Loc.admits, hrow]; rfl)
    (hpair _ _) [] _ (by rw [heff, statsClearWrite_eq hb]; rfl))) ?_ ?_ ?_
  · simp only [statsClearWrite_eq hb, arrived_now s q (slot_le h.named)]
    rfl
  · intro p hp
    rw [SignalKey, hwarm]
    rcases List.mem_cons.mp hp with rfl | hp
    · exact ⟨by omega, by omega⟩
    rcases List.mem_cons.mp hp with rfl | hp
    · exact ⟨by omega, by omega⟩
    obtain ⟨m, hm, rfl⟩ := mem_zeroTotals.mp hp
    rw [htot]
    exact ⟨by omega, by omega⟩
  · simp only [List.map_cons, List.nodup_cons, List.mem_cons, List.mem_map, not_or]
    refine ⟨⟨by omega, ?_⟩, ?_, zeroTotals_nodup (fun m j hj => by rw [htot, htot] at hj; omega) last⟩
    all_goals
      rintro ⟨p, hp, heq⟩
      obtain ⟨m, hm, rfl⟩ := mem_zeroTotals.mp hp
      rw [htot] at heq
      omega

end

/-- Settles O34: each command by the registers it sets; of an acknowledgement also what an event of the same tick leaves. -/
theorem outputFlagsAndCounters : Obligations.OutputFlagsAndCounters := by
  intro n s
  refine ⟨frameDone_running, frameDone_stopped, fetchCompletion_does, fun q i hs hr => ⟨fun v hv hquiet => ?_,
    fun v hv => irqAck_bits hs hr hv, measuredClear_writes hs hr, fun b => statsClear_writes (clearsStats b) rfl hs hr⟩⟩
  rw [← irqStay_quiet hv hquiet]
  exact irqAck_writes hs hr hv

end Sys2Proof
end

section
/-! SUPPORT. The end of a frame in the statistics of a block (R58, R59, R379): what a latch leaves in LAST, RUN and TOTAL. -/
namespace Sys2Proof

open Machine

/-- RUN, LAST and TOTAL of a block lie in three successive indexes of the dictionary. -/
structure StatsAt (x : Nat) (run last total : Nat → Nat) : Prop where
  low : x + 2 < 65536
  run_eq : ∀ m, run m = x * 256 + m
  last_eq : ∀ m, last m = (x + 1) * 256 + m
  total_eq : ∀ m, total m = (x + 2) * 256 + m

/-- A latch begins with FRAME. -/
def latchFrame (run last total : Nat → Nat) (frame : Nat) (s : State) : State :=
  ((s.wr (last 1) (s.rd (run 1))).inc (total 1) 1 (2 ^ 64)).wr (run 1) frame

/-- One other member of a latch. -/
def latchMember (run last total : Nat → Nat) (m : Nat) (t : State) : State :=
  (((t.wr (last m) (t.runWas (run m))).inc (total m) (t.runWas (run m)) (2 ^ 64)).wr (run m) (t.rd (run m) - t.runWas (run m))).wr
    (H.cntAt (run m)) 0

/-- All members of a latch, before a STATS.CLEAR of the tick acts. -/
def latchMembers (run last total : Nat → Nat) (last' frame : Nat) (s : State) : State :=
  (latchFrame run last total frame s).upto (last' - 1) (fun i => latchMember run last total (i + 2))

/-- The registers of member m of a block's statistics, and those that decide what its RUN held before the tick. -/
def memberKeys (run last total : Nat → Nat) (m : Nat) : List Nat := [run m, last m, total m, H.cntAt (run m), H.cntWas (run m), H.now]

section
variable {s : State} {x last' frame : Nat} {run last total : Nat → Nat}

theorem latch_eq : s.latch run last total last' frame =
    if (latchMembers run last total last' frame s).rd (H.clrAt (total 1)) = (latchMembers run last total last' frame s).now + 1
    then (latchMembers run last total last' frame s).wrs (zeroTotals total last') else latchMembers run last total last' frame s := by
  rw [← totalClear_eq]
  rfl

theorem latchFrame_touches : Touches [last 1, total 1, run 1] [] s (latchFrame run last total frame s) :=
  ((Touches.wr _ _ _).trans (.wr _ _ _)).trans (.wr _ _ _)

theorem latchMember_touches (m : Nat) (t : State) :
    Touches [last m, total m, run m, H.cntAt (run m)] [] t (latchMember run last total m t) :=
  (((Touches.wr _ _ _).trans (.wr _ _ _)).trans (.wr _ _ _)).trans (.wr _ _ _)

theorem runWas_congr {s t : State} {k : Nat} (h : t.rd k = s.rd k) (hat : t.rd (H.cntAt k) = s.rd (H.cntAt k))
    (hwas : t.rd (H.cntWas k) = s.rd (H.cntWas k)) (hnow : t.rd H.now = s.rd H.now) : t.runWas k = s.runWas k := by
  rw [State.runWas, State.runWas, State.now, State.now, h, hat, hwas, hnow]

theorem rd_zeroTotals_ne {k : Nat} (u : State) (h : ∀ m < last', k ≠ total (m + 1)) : (u.wrs (zeroTotals total last')).rd k = u.rd k := by
  refine State.rd_wrs_ne _ _ (fun p hp => ?_)
  obtain ⟨m, hm, rfl⟩ := mem_zeroTotals.mp hp
  exact h m hm

/-- What a latch leaves outside the members above FRAME. -/
theorem latchMembers_rd {k : Nat} (hk : ∀ m, 2 ≤ m → m ≤ last' → k ∉ [last m, total m, run m, H.cntAt (run m)]) :
    (latchMembers run last total last' frame s).rd k = (latchFrame run last total frame s).rd k := by
  have h : Confined (fun k => ∃ m, 2 ≤ m ∧ m ≤ last' ∧ k ∈ [last m, total m, run m, H.cntAt (run m)]) (fun _ => False)
      (latchFrame run last total frame s) (latchMembers run last total last' frame s) :=
    Confined.upto (.refl _) _ (fun i hi t => .of_touches (latchMember_touches (i + 2) t) (fun k hk => ⟨i + 2, by omega, by omega, hk⟩) (by simp))
  exact h.rd k (fun ⟨m, h2, hm, hmem⟩ => hk m h2 hm hmem)

variable (hx : StatsAt x run last total) (hl : last' < 255)
include hx

/-- A member's step writes no register of another member. -/
theorem latchMember_other {m j : Nat} (hm : m < 256) (hj : j < 256) (hne : m ≠ j) (t : State) {k : Nat} (hk : k ∈ memberKeys run last total j) :
    (latchMember run last total m t).rd k = t.rd k := by
  have hlow := hx.low
  refine (latchMember_touches m t).regs k ?_
  simp only [memberKeys, hx.run_eq, hx.last_eq, hx.total_eq, H.cntAt, H.cntWas, H.now, H.hk, List.mem_cons, List.not_mem_nil, or_false] at hk ⊢
  omega

theorem latchMember_values (m : Nat) (t : State) : (latchMember run last total m t).rd (last m) = t.runWas (run m) ∧
    (latchMember run last total m t).rd (run m) = t.rd (run m) - t.runWas (run m) ∧
    (latchMember run last total m t).rd (total m) = (t.rd (total m) + t.runWas (run m)) % 2 ^ 64 := by
  have hlow := hx.low
  have h1 : last m ≠ total m := by rw [hx.last_eq, hx.total_eq]; omega
  have h2 : last m ≠ run m := by rw [hx.last_eq, hx.run_eq]; omega
  have h3 : total m ≠ run m := by rw [hx.total_eq, hx.run_eq]; omega
  have h4 : last m ≠ H.cntAt (run m) := by rw [hx.last_eq, hx.run_eq, H.cntAt, H.hk]; omega
  have h5 : run m ≠ H.cntAt (run m) := by rw [hx.run_eq, H.cntAt, H.hk]; omega
  have h6 : total m ≠ H.cntAt (run m) := by rw [hx.total_eq, hx.run_eq, H.cntAt, H.hk]; omega
  simp only [latchMember, State.inc, State.up]
  refine ⟨?_, ?_, ?_⟩
  · rw [State.rd_wr_ne _ _ h4, State.rd_wr_ne _ _ h2, State.rd_wr_ne _ _ h1, State.rd_wr_self]
  · rw [State.rd_wr_ne _ _ h5, State.rd_wr_self]
  · rw [State.rd_wr_ne _ _ h6, State.rd_wr_ne _ _ h3, State.rd_wr_self, State.rd_wr_ne _ _ h1.symm]

theorem latchFrame_member {j : Nat} (hj : 2 ≤ j) (hj' : j < 256) {k : Nat} (hk : k ∈ memberKeys run last total j) :
    (latchFrame run last total frame s).rd k = s.rd k := by
  have hlow := hx.low
  refine latchFrame_touches.regs k ?_
  simp only [memberKeys, hx.run_eq, hx.last_eq, hx.total_eq, H.cntAt, H.cntWas, H.now, H.hk, List.mem_cons, List.not_mem_nil, or_false] at hk ⊢
  omega

include hl

/-- What a latch leaves of a member, before a STATS.CLEAR of the tick acts. -/
theorem latchMembers_values {j : Nat} (hj : 2 ≤ j) (hj' : j ≤ last') :
    (latchMembers run last total last' frame s).rd (last j) = s.runWas (run j) ∧
    (latchMembers run last total last' frame s).rd (run j) = s.rd (run j) - s.runWas (run j) ∧
    (latchMembers run last total last' frame s).rd (total j) = (s.rd (total j) + s.runWas (run j)) % 2 ^ 64 := by
  obtain ⟨i, rfl⟩ := Nat.exists_eq_add_of_le' hj
  obtain ⟨t, ht, hval⟩ := upto_rd_at (n := last' - 1) (i := i) (by omega) (f := fun i => latchMember run last total (i + 2))
    (ks := memberKeys run last total (i + 2)) (fun m _ hne u k hk => latchMember_other hx (by omega) (by omega) (by omega) u hk)
    (latchFrame run last total frame s)
  have hs : ∀ k ∈ memberKeys run last total (i + 2), t.rd k = s.rd k := fun k hk => (ht k hk).trans (latchFrame_member hx hj (by omega) hk)
  have hwas : t.runWas (run (i + 2)) = s.runWas (run (i + 2)) :=
    runWas_congr (hs _ (by simp [memberKeys])) (hs _ (by simp [memberKeys])) (hs _ (by simp [memberKeys])) (hs _ (by simp [memberKeys]))
  obtain ⟨hlast, hrun, htotal⟩ := latchMember_values hx (i + 2) t
  rw [hwas] at hlast hrun htotal
  rw [hs _ (by simp [memberKeys])] at hrun htotal
  exact ⟨(hval _ (by simp [memberKeys])).trans hlast, (hval _ (by simp [memberKeys])).trans hrun, (hval _ (by simp [memberKeys])).trans htotal⟩

/-- Whether a STATS.CLEAR of the tick acts after a latch. -/
theorem latch_eq' : s.latch run last total last' frame = if s.rd (H.clrAt (total 1)) = s.now + 1
    then (latchMembers run last total last' frame s).wrs (zeroTotals total last') else latchMembers run last total last' frame s := by
  have hlow := hx.low
  have hkept {k : Nat} (hk : k = H.now ∨ k = H.clrAt (total 1)) : (latchMembers run last total last' frame s).rd k = s.rd k := by
    simp only [hx.total_eq, H.clrAt, H.now, H.hk] at hk
    rw [latchMembers_rd]
    · refine latchFrame_touches.regs k ?_
      simp only [hx.run_eq, hx.last_eq, hx.total_eq, List.mem_cons, List.not_mem_nil, or_false]
      omega
    · intro m h2 hm
      simp only [hx.run_eq, hx.last_eq, hx.total_eq, H.cntAt, H.hk, List.mem_cons, List.not_mem_nil, or_false]
      omega
  rw [latch_eq, hkept (.inr rfl), State.now, hkept (.inl rfl)]
  rfl

/-- What a latch leaves of a member (R59): a STATS.CLEAR of the same tick acts after it (R379). -/
theorem latch_values {j : Nat} (hj : 2 ≤ j) (hj' : j ≤ last') : (s.latch run last total last' frame).rd (last j) = s.runWas (run j) ∧
    (s.latch run last total last' frame).rd (run j) = s.rd (run j) - s.runWas (run j) ∧
    (s.latch run last total last' frame).rd (total j) =
      if s.rd (H.clrAt (total 1)) = s.now + 1 then 0 else (s.rd (total j) + s.runWas (run j)) % 2 ^ 64 := by
  obtain ⟨hlast, hrun, htotal⟩ := latchMembers_values (frame := frame) (s := s) hx hl hj hj'
  rw [latch_eq' hx hl]
  split
  · refine ⟨?_, ?_, rd_wrs_of_mem (zeroTotals_nodup (fun m j h => ?_) last') (mem_zeroTotals.mpr ⟨j - 1, by omega, ?_⟩) _⟩
    · rw [rd_zeroTotals_ne _ (fun m hm => by rw [hx.last_eq, hx.total_eq]; omega), hlast]
    · rw [rd_zeroTotals_ne _ (fun m hm => by rw [hx.run_eq, hx.total_eq]; omega), hrun]
    · rw [hx.total_eq, hx.total_eq] at h
      omega
    · rw [Nat.sub_add_cancel (by omega)]
  · exact ⟨hlast, hrun, htotal⟩

/-- RUN starts under the new frame's number, and LAST has that of the old one. -/
theorem latch_frame : (s.latch run last total last' frame).rd (run 1) = frame ∧
    (s.latch run last total last' frame).rd (last 1) = s.rd (run 1) := by
  have hlow := hx.low
  have h1 : last 1 ≠ run 1 := by rw [hx.last_eq, hx.run_eq]; omega
  have h2 : last 1 ≠ total 1 := by rw [hx.last_eq, hx.total_eq]; omega
  have hkept {k : Nat} (hk : k = run 1 ∨ k = last 1) :
      (s.latch run last total last' frame).rd k = (latchFrame run last total frame s).rd k := by
    rw [hx.run_eq, hx.last_eq] at hk
    rw [← latchMembers_rd, latch_eq' hx hl]
    · split
      · exact rd_zeroTotals_ne _ (fun m hm => by rw [hx.total_eq]; omega)
      · rfl
    · intro m h2 hm
      simp only [hx.run_eq, hx.last_eq, hx.total_eq, H.cntAt, H.hk, List.mem_cons, List.not_mem_nil, or_false]
      omega
  rw [hkept (.inl rfl), hkept (.inr rfl), latchFrame, State.rd_wr_self, State.rd_wr_ne _ _ h1, State.inc, State.up, State.rd_wr_ne _ _ h2,
    State.rd_wr_self]
  exact ⟨rfl, rfl⟩

end
end Sys2Proof
end

section
/-! SUPPORT. The end of an output's frame (R59, R131, R173), and its development point (R48, R126). -/
namespace Sys2Proof

open Machine

/-! ## The frame that ends (R59, R131, R173) -/

section
variable {s : State} {n f : Nat}

/-- The held lines of the frame that ends are told of. -/
def heldTold (s : State) (n : Nat) : State :=
  if s.rd (H.heldCnt n) = 0 then s else (s.wr (H.heldCnt n) 0).raise 0x3004 (outIdx n) n (s.rd (H.heldCnt n))

/-- Its adjustment is over and told of; `old` is its number. -/
def adjustTold (s : State) (n old : Nat) : State :=
  if s.rd (H.outAdjOn n) = 0 then s else
    ((s.wrs [(H.outAdjOn n, 0), (K.OUT_EVT_ADJ_FRAME n, old), (K.OUT_EVT_ADJ_SAMPLES n, ofInt 32 (s.rd64 (H.outAdj n)))]).countFrame
      (K.OUT_RUN n 8) 1).raise 0x3003 (outIdx n) n
        (frameLength (match fmt (s.air (K.OUT_FORMAT n)) with | some f => f.spl | none => 1) (s.rd64 (H.outAdj n)))

/-- A slate that a mismatch inserted counts the frame where every Proof region matched. -/
def slateCounted (s : State) (n : Nat) (clean : Bool) : State :=
  if s.rd (K.OUT_SLATE_STATE n) = 2 ∧ s.rd (H.slateCause n) = 1
  then s.wr (H.slateClean n) (if clean then s.rd (H.slateClean n) + 1 else 0) else s

/-- Every Proof region of the output matched. -/
def regionsClean (s : State) (n : Nat) : Bool :=
  (List.range 64).all (fun p => s.rd (K.PRF_CFG_OUT p) != n || s.air (K.PRF_CFG_MODE p) == 0 || s.rd (K.PRF_STATUS_STATE p) == 1)

/-- The low mark of the line buffer starts anew. -/
def fetchMarked (s : State) (n : Nat) : State :=
  s.wrs [(K.OUT_FETCH_MIN_LEVEL n, 16384 - s.rd (H.fetchLow n)), (H.fetchLow n, 16384 - s.rd (K.OUT_FETCH_LEVEL n))]

/-- The frame that ends, before its statistics are latched. -/
def frameClosed (s : State) (n : Nat) : State :=
  let t := adjustTold (heldTold s n) n (s.rd (K.OUT_EVT_FRAME n))
  fetchMarked (slateCounted t n (regionsClean t n)) n

theorem endFrame_eq : s.endFrame n f = (frameClosed s n).latch (K.OUT_RUN n) (K.OUT_LAST n) (K.OUT_TOTAL n) 8 f := by
  unfold State.endFrame frameClosed adjustTold
  rfl

/-- What closing a frame writes: of its statistics only the adjusted frames. -/
def closeKeys (n : Nat) : List Nat :=
  [H.heldCnt n, H.outAdjOn n, K.OUT_EVT_ADJ_FRAME n, K.OUT_EVT_ADJ_SAMPLES n, K.OUT_RUN n 8, H.slateClean n, K.OUT_FETCH_MIN_LEVEL n, H.fetchLow n]

theorem heldTold_rd {k : Nat} (hk : k ∉ closeKeys n) : (heldTold s n).rd k = s.rd k := by
  rw [heldTold]
  split
  · rfl
  · exact State.rd_wr_ne _ _ (fun heq => hk (by simp [closeKeys, heq]))

theorem adjustTold_rd (old : Nat) {k : Nat} (hk : k ∉ closeKeys n) : (adjustTold s n old).rd k = s.rd k := by
  simp only [closeKeys, List.mem_cons, List.not_mem_nil, or_false, not_or] at hk
  rw [adjustTold]
  split
  · rfl
  · obtain ⟨-, hon, hframe, hsamples, hadjusted, -⟩ := hk
    rw [State.rd_raise, State.countFrame, State.incSat, State.up, State.rd_wr_ne _ _ hadjusted, State.rd_wrs_ne]
    simp [hon, hframe, hsamples]

theorem slateCounted_rd (clean : Bool) {k : Nat} (hk : k ∉ closeKeys n) : (slateCounted s n clean).rd k = s.rd k := by
  rw [slateCounted]
  split
  · exact State.rd_wr_ne _ _ (fun heq => hk (by simp [closeKeys, heq]))
  · rfl

theorem fetchMarked_rd {k : Nat} (hk : k ∉ closeKeys n) : (fetchMarked s n).rd k = s.rd k := by
  simp only [closeKeys, List.mem_cons, List.not_mem_nil, or_false, not_or] at hk
  exact State.rd_wrs_ne _ _ (by simp [hk])

theorem frameClosed_rd {k : Nat} (hk : k ∉ closeKeys n) : (frameClosed s n).rd k = s.rd k := by
  rw [frameClosed, fetchMarked_rd hk, slateCounted_rd _ hk, adjustTold_rd _ hk, heldTold_rd hk]

section
variable (hn : n < 48)
include hn

theorem statsAt_out : StatsAt (0x3030 + 0x40 * n) (K.OUT_RUN n) (K.OUT_LAST n) (K.OUT_TOTAL n) where
  low := by omega
  run_eq _ := rfl
  last_eq _ := by simp only [K.OUT_LAST, K.at']; omega
  total_eq _ := by simp only [K.OUT_TOTAL, K.at']; omega

/-- The statistics below the adjusted frames are as before the frame was closed. -/
theorem frameClosed_member {j : Nat} (hj : j ≤ 7) {k : Nat}
    (hk : k ∈ H.clrAt (K.OUT_TOTAL n 1) :: memberKeys (K.OUT_RUN n) (K.OUT_LAST n) (K.OUT_TOTAL n) j) : (frameClosed s n).rd k = s.rd k := by
  refine frameClosed_rd ?_
  simp only [memberKeys, closeKeys, List.mem_cons, List.not_mem_nil, or_false, K.OUT_RUN, K.OUT_LAST, K.OUT_TOTAL, K.OUT_EVT_ADJ_FRAME,
    K.OUT_EVT_ADJ_SAMPLES, K.OUT_FETCH_MIN_LEVEL, K.at', H.clrAt, H.cntAt, H.cntWas, H.now, H.heldCnt, H.outAdjOn, H.slateClean, H.fetchLow,
    H.hk] at hk ⊢
  omega

theorem endFrame_member {j : Nat} (hj : 2 ≤ j) (hj' : j ≤ 7) : (s.endFrame n f).rd (K.OUT_LAST n j) = s.runWas (K.OUT_RUN n j) ∧
    (s.endFrame n f).rd (K.OUT_RUN n j) = s.rd (K.OUT_RUN n j) - s.runWas (K.OUT_RUN n j) ∧
    (s.endFrame n f).rd (K.OUT_TOTAL n j) =
      if s.rd (H.clrAt (K.OUT_TOTAL n 1)) = s.now + 1 then 0 else (s.rd (K.OUT_TOTAL n j) + s.runWas (K.OUT_RUN n j)) % 2 ^ 64 := by
  have hkept {k : Nat} (hk : k ∈ H.clrAt (K.OUT_TOTAL n 1) :: memberKeys (K.OUT_RUN n) (K.OUT_LAST n) (K.OUT_TOTAL n) j) :
      (frameClosed s n).rd k = s.rd k := frameClosed_member hn hj' hk
  have hwas : (frameClosed s n).runWas (K.OUT_RUN n j) = s.runWas (K.OUT_RUN n j) :=
    runWas_congr (hkept (by simp [memberKeys])) (hkept (by simp [memberKeys])) (hkept (by simp [memberKeys])) (hkept (by simp [memberKeys]))
  obtain ⟨hlast, hrun, htotal⟩ :=
    latch_values (s := frameClosed s n) (frame := f) (statsAt_out hn) (show 8 < 255 by decide) hj (show j ≤ 8 by omega)
  rw [hwas] at hlast hrun htotal
  rw [hkept (by simp [memberKeys])] at hrun
  rw [hkept (k := H.clrAt (K.OUT_TOTAL n 1)) (by simp), hkept (k := K.OUT_TOTAL n j) (by simp [memberKeys]), State.now,
    hkept (k := H.now) (by simp [memberKeys])] at htotal
  exact ⟨hlast, hrun, htotal⟩

theorem endFrame_frame : (s.endFrame n f).rd (K.OUT_RUN n 1) = f ∧ (s.endFrame n f).rd (K.OUT_LAST n 1) = s.rd (K.OUT_RUN n 1) := by
  obtain ⟨hrun, hlast⟩ := latch_frame (s := frameClosed s n) (frame := f) (statsAt_out hn) (show 8 < 255 by decide)
  exact ⟨hrun, hlast.trans (frameClosed_member hn (j := 1) (by decide) (by simp [memberKeys]))⟩

end
end

/-! ## The development point (R48, R126) -/

/-- Nothing is due or committed that was not among D and C, and the Latent sets are L. -/
structure Owes (D : List Due) (C : List Com) (L : List (Nat × Nat)) (t : State) : Prop where
  due : ∀ d ∈ t.due, d ∈ D
  com : ∀ c ∈ t.com, c ∈ C
  lat : t.lat = L

section
variable {D : List Due} {C : List Com} {L : List (Nat × Nat)} {s : State}

theorem owes_kept (D : List Due) (C : List Com) (L : List (Nat × Nat)) : Kept (Owes D C L) := by
  constructor <;> (intros; rename_i h; exact ⟨h.due, h.com, h.lat⟩)

theorem Owes.moveIn (h : Owes D C L s) (u : Nat) (l : List Com) : Owes D C L (s.moveIn u l) := by
  have hK := owes_kept D C L
  refine fold_keeps ⟨h.due, fun c hc => h.com c (List.mem_of_mem_filter hc), h.lat⟩ (fun t c ht => ?_)
  have hmoved := hK.wr t c.key c.val ht
  refine ite_keeps ?_ (hK.wr _ _ _ ?_)
  all_goals exact ite_keeps hmoved (setVec_keeps hK hmoved)

theorem Owes.devOut (h : Owes D C L s) (n : Nat) (l : List Due) : Owes D C L (s.devOut n l) := by
  have hK := owes_kept D C L
  refine ite_keeps ?_ (hK.wr _ _ _ ?_)
  all_goals exact wrs_keeps hK (refsFollow_keeps hK (h.moveIn ..) h)

theorem Owes.devDst (h : Owes D C L s) (d : Nat) (l : List Due) : Owes D C L (s.devDst d l) := h.moveIn ..

theorem Owes.paid (h : Owes D C L s) (f : Due → Bool) : Owes (D.filter f) C L { s with due := s.due.filter f } where
  due d hd := List.mem_filter.mpr ⟨h.due d (List.mem_filter.mp hd).1, (List.mem_filter.mp hd).2⟩
  com := h.com
  lat := h.lat

/-- What a unit has developed is due no more. -/
theorem Owes.closeDue (h : Owes D C L s) (u : Nat) (l : List Due) (b : Bool) :
    Owes (D.filter (fun d => !l.contains d)) C L (s.closeDue u l b) := by
  cases l with
  | nil => exact ⟨fun d hd => by simpa using h.due d hd, h.com, h.lat⟩
  | cons d0 t0 =>
    have hK := owes_kept (D.filter (fun d => !(d0 :: t0).contains d)) C L
    have hstates : Owes D C L
        ((d0 :: t0).foldl (fun (t : State) d => if t.rd (K.SLV_STATE d.salvo) = 2 then t.wr (K.SLV_STATE d.salvo) 3 else t) s) :=
      fold_keeps h (fun t d ht => ite_keeps ((owes_kept D C L).wr _ _ _ ht) ht)
    refine ite_keeps (countWaiting_keeps hK (wrs_keeps hK ?_)) ?_
    all_goals exact setVec_keeps hK (hK.wr _ _ _ (wrs_keeps hK (predDrop_keeps hK (hstates.paid _))))

/-- A unit that has nothing to develop is left as it is. -/
theorem develop_none {u : Nat} (hu : u < 48 ∨ 64 ≤ u) {free : Bool} (h : s.eligible u free = []) : s.develop u free = s := by
  rw [State.develop, if_neg (by omega), if_pos h]

/-- An output or a destination that develops owes what it developed no more. -/
theorem Owes.develop (h : Owes D C L s) {u : Nat} (hu : u < 48 ∨ 192 ≤ u) (free : Bool) :
    Owes (D.filter (fun d => !(s.eligible u free).contains d)) C L (s.develop u free) := by
  by_cases he : s.eligible u free = []
  · rw [develop_none (by omega) he, he]
    exact ⟨fun d hd => by simpa using h.due d hd, h.com, h.lat⟩
  · rw [State.develop, if_neg (by omega), if_neg he]
    refine Owes.closeDue ?_ ..
    rcases hu with hu | hu
    · rw [if_pos hu]
      exact h.devOut ..
    · rw [if_neg (by omega), if_neg (by omega), if_neg (by omega), if_neg (by omega)]
      exact h.devDst ..

/-- The commits OUT[n]'s development point develops are none of those it leaves due. -/
theorem developmentPoint_owes {n : Nat} (hn : n < 48) (s : State) : Owes (s.due.filter (fun d => !(s.eligible n false).contains d)) s.com s.lat
    (((s.develop n false).wr (H.devPassed n) 1).upto 32 (fun i t => t.develop (unitDst (32 * n + i)) false)) := by
  have hself : Owes s.due s.com s.lat s := ⟨fun _ => id, fun _ => id, rfl⟩
  refine upto_keeps ((owes_kept ..).wr _ _ _ (hself.develop (.inl hn) false)) (fun i t ht => ?_)
  obtain ⟨hdue, hcom, hlat⟩ := ht.develop (u := unitDst (32 * n + i)) (.inr (by rw [unitDst]; omega)) false
  exact ⟨fun d hd => (List.mem_filter.mp (hdue d hd)).1, hcom, hlat⟩

section
variable {n : Fin 48}

/-- The line that starts is OUT[n]'s development point. -/
def developsHere (s : State) (n : Nat) : Prop :=
  s.rd (K.OUT_TSTATE n) ≠ 0 ∧ s.rd (H.devPassed n) ≠ 1 ∧ s.linesLeft n = s.rd (K.OUT_DEV_GUARD n)

theorem developmentPoint_elsewhere (h : ¬ developsHere s n.val) : Idles (.developmentPoint n) s := by
  refine if_pos ?_
  simp only [developsHere, not_and_or, not_not] at h
  exact h

theorem developmentPoint_here (h : developsHere s n.val) : exec (.developmentPoint n) s =
    .next (((s.develop n.val false).wr (H.devPassed n.val) 1).upto 32 (fun i t => t.develop (unitDst (32 * n.val + i)) false)) := by
  obtain ⟨hrun, hpass, hline⟩ := h
  refine if_neg ?_
  simp [hrun, hpass, hline]

theorem developmentPoint_ends (h : developsHere s n.val) : Ends (.developmentPoint n) s (fun t => (∀ d ∈ t.due, d ∈ s.due) ∧
    (∀ d ∈ s.eligible n.val false, d ∉ t.due) ∧ (∀ c ∈ t.com, c ∈ s.com) ∧ t.lat = s.lat) := by
  obtain ⟨hdue, hcom, hlat⟩ := developmentPoint_owes n.isLt s
  refine ⟨_, developmentPoint_here h, fun d hd => (List.mem_filter.mp (hdue d hd)).1, fun d hd hmem => ?_, hcom, hlat⟩
  simpa [hd] using (List.mem_filter.mp (hdue d hmem)).2

/-- An output that owes nothing only passes its development point. -/
theorem developmentPoint_passes (h : developsHere s n.val) (hd : s.due = []) : Does (.developmentPoint n) s [(H.devPassed n.val, 1)] [] := by
  have hnone (t : State) (ht : t.due = []) (u : Nat) : t.eligible u false = [] := by rw [State.eligible, ht]; rfl
  have hdst : ((s.wr (H.devPassed n.val) 1).upto 32 (fun i t => t.develop (unitDst (32 * n.val + i)) false)) = s.wr (H.devPassed n.val) 1 :=
    upto_keeps (P := fun t => t = s.wr (H.devPassed n.val) 1) rfl
      (fun i t ht => (develop_none (.inr (by rw [unitDst]; omega)) (hnone t (by rw [ht]; exact hd) _)).trans ht)
  refine does_of_wrs ?_ (List.nodup_singleton _)
  rw [developmentPoint_here h, develop_none (.inl n.isLt) (hnone s hd _), hdst]
  rfl

end
end
end Sys2Proof
end

section
/-! SUPPORT. What the sending of a line leaves of the output's place in its frame and of its interrupt flags (R128, R130, R165, R179). -/
namespace Sys2Proof

open Machine

/-- OUT[n]'s place in its frame, and its interrupt flags. -/
def placeKeys (n : Nat) : List Nat := [H.outLineNo n, H.lmFrame n, K.OUT_EVT_FRAME n, K.OUT_IRQ_PENDING n]

/-- From s to t the place of OUT[n] in its frame is the same, and so are all its interrupt flags but the underrun's. -/
structure SamePlace (n : Nat) (s t : State) : Prop where
  line : t.rd (H.outLineNo n) = s.rd (H.outLineNo n)
  matched : t.rd (H.lmFrame n) = s.rd (H.lmFrame n)
  frame : t.rd (K.OUT_EVT_FRAME n) = s.rd (K.OUT_EVT_FRAME n)
  flags : ∀ b < 3, (t.rd (K.OUT_IRQ_PENDING n)).testBit b = (s.rd (K.OUT_IRQ_PENDING n)).testBit b

theorem offPlace_of {n k a b : Nat} (hk : k = a + b) (hne : a + b ≠ 2432696320 + n ∧ a + b ≠ 2734686208 + n ∧
    a + b ≠ (0x3015 + 0x40 * n) * 256 + 1 ∧ a + b ≠ (0x3017 + 0x40 * n) * 256 + 3) : k ∉ placeKeys n := by
  simp only [placeKeys, H.outLineNo, H.lmFrame, H.hk, K.OUT_EVT_FRAME, K.OUT_IRQ_PENDING, K.at', List.mem_cons, List.not_mem_nil, or_false]
  omega

theorem irqSet_rd (s : State) (n b : Nat) {k : Nat} (hp : k ≠ K.OUT_IRQ_PENDING n) (ha : k ≠ H.irqAt (4 * n + b)) :
    (s.irqSet n b).rd k = s.rd k := by
  rw [irqSet_eq_wrs]
  exact State.rd_wrs_ne _ _ (by simp [hp, ha])

theorem irqSet_pending (s : State) {n : Nat} (hn : n < 48) (b : Nat) :
    (s.irqSet n b).rd (K.OUT_IRQ_PENDING n) = s.rd (K.OUT_IRQ_PENDING n) ||| 2 ^ b := by
  have hne : K.OUT_IRQ_PENDING n ≠ H.irqAt (4 * n + b) := keys_ne rfl rfl (by omega)
  exact (State.rd_wr_ne _ _ hne).trans (State.rd_wr_self ..)

/-- The owner of an address is one of the buffers, or none. -/
theorem ownerBuf_le (s : State) (a : Nat) : s.ownerBuf a ≤ 0xFFFF := by
  rw [State.ownerBuf]
  split
  · split <;> omega
  · exact le_rfl

namespace SamePlace

variable {n : Nat} {r s : State}

theorem refl (s : State) : SamePlace n s s := ⟨rfl, rfl, rfl, fun _ _ => rfl⟩

theorem wr (h : SamePlace n r s) {k v : Nat} (hk : k ∉ placeKeys n) : SamePlace n r (s.wr k v) := by
  simp only [placeKeys, List.mem_cons, List.not_mem_nil, or_false, not_or] at hk
  obtain ⟨hline, hmatched, hframe, hflags⟩ := hk
  exact ⟨(State.rd_wr_ne _ _ (Ne.symm hline)).trans h.line, (State.rd_wr_ne _ _ (Ne.symm hmatched)).trans h.matched,
    (State.rd_wr_ne _ _ (Ne.symm hframe)).trans h.frame, fun b hb => by rw [State.rd_wr_ne _ _ (Ne.symm hflags)]; exact h.flags b hb⟩

theorem wrs (h : SamePlace n r s) {l : List (Nat × Nat)} (hl : ∀ p ∈ l, p.1 ∉ placeKeys n) : SamePlace n r (s.wrs l) := by
  induction l generalizing s with
  | nil => exact h
  | cons p t ih => exact ih (h.wr (hl p (List.mem_cons_self ..))) (fun q hq => hl q (List.mem_cons_of_mem _ hq))

theorem setVec (h : SamePlace n r s) {k : Nat} {v : List Nat} : SamePlace n r (s.setVec k v) := ⟨h.line, h.matched, h.frame, h.flags⟩

theorem raise (h : SamePlace n r s) {a b c d : Nat} : SamePlace n r (s.raise a b c d) := ⟨h.line, h.matched, h.frame, h.flags⟩

section
variable (hn : n < 48)
include hn

/-- A limited event counts and dates itself. -/
theorem raiseLim (h : SamePlace n r s) {id code src : Nat} {args : Nat → Nat × Nat} (hid : id < 16777216) :
    SamePlace n r (s.raiseLim id code src args) := by
  have hcounted := h.wr (k := H.limCnt id) (v := (s.rd (H.limCnt id) + 1) % 2 ^ 32) (offPlace_of rfl (by omega))
  exact ite_keeps ((hcounted.raise.wr (offPlace_of rfl (by omega))).wr (offPlace_of rfl (by omega))) hcounted

theorem count (h : SamePlace n r s) {m x : Nat} (hm : m < 256) : SamePlace n r (s.count (K.OUT_RUN n m) x) := by
  have hrun : K.OUT_RUN n m = (0x3030 + 0x40 * n) * 256 + m := rfl
  have hwas : K.OUT_RUN n m < 16777216 := by omega
  have hbefore := h.wr (k := H.cntWas (K.OUT_RUN n m)) (v := s.runWas (K.OUT_RUN n m)) (offPlace_of rfl (by omega))
  exact (hbefore.wr (offPlace_of rfl (by omega))).wr (offPlace_of rfl (by omega))

/-- The underrun flag is none of the others. -/
theorem underrun (h : SamePlace n r s) : SamePlace n r (s.irqSet n 3) where
  line := (irqSet_rd s n 3 (keys_ne rfl rfl (by omega)) (keys_ne rfl rfl (by omega))).trans h.line
  matched := (irqSet_rd s n 3 (keys_ne rfl rfl (by omega)) (keys_ne rfl rfl (by omega))).trans h.matched
  frame := (irqSet_rd s n 3 (keys_ne rfl rfl (by omega)) (keys_ne rfl rfl (by omega))).trans h.frame
  flags b hb := by
    rw [irqSet_pending _ hn, Nat.testBit_or, Nat.testBit_two_pow_of_ne (by omega), Bool.or_false]
    exact h.flags b hb

/-! ## The line (R128, R130, R216) -/

theorem setLevel (h : SamePlace n r s) {level : Nat} : SamePlace n r (s.setLevel n level) :=
  ((h.wr (offPlace_of rfl (by omega))).wr (offPlace_of rfl (by omega))).wr (offPlace_of rfl (by omega))

theorem damage (h : SamePlace n r s) {a : Nat} : SamePlace n r (s.damage a) := by
  refine ite_keeps h (h.wr (offPlace_of (a := (0x6000 + s.ownerBuf a) * 256) (b := 0x11) rfl ?_))
  have howner := ownerBuf_le s a
  omega

theorem scanRow (h : SamePlace n r s) {b y : Nat} : SamePlace n r (s.scanRow b y) :=
  ite_keeps h (ite_keeps (h.damage hn) h)

theorem prfLine (h : SamePlace n r s) {k y w : Nat} {l : List Nat} : SamePlace n r (s.prfLine n k y w l) := by
  refine upto_keeps h (fun p t ht => ite_keeps ht ?_)
  have hcrc {v : Nat} : SamePlace n r (t.wr (H.prfCrc p) v) := ht.wr (offPlace_of rfl (by omega))
  exact ite_keeps (hcrc.wr (offPlace_of rfl (by omega))) (hcrc.wr (offPlace_of rfl (by omega)))

theorem heldLine (h : SamePlace n r s) : SamePlace n r (s.heldLine n) := by
  have hflag : SamePlace n r (if s.rd (H.heldCnt n) = 0 then s.irqSet n 3 else s) := ite_keeps (h.underrun hn) h
  exact ((hflag.wr (offPlace_of rfl (by omega))).count hn (by decide)).wr (offPlace_of rfl (by omega))

/-- A line is held, or the held lines end with it. -/
theorem heldOrServed (h : SamePlace n r s) (c : Prop) [Decidable c] : SamePlace n r (if c then s.heldLine n else s.wr (H.heldAt n) 0) :=
  ite_keeps (h.heldLine hn) (h.wr (offPlace_of rfl (by omega)))

theorem sendLine (h : SamePlace n r s) (line : Nat) : SamePlace n r (s.sendLine n line) := by
  unfold State.sendLine
  extract_lets c f
  split
  · exact fold_keeps h (fun t k ht => ht.setVec)
  · -- the row is scanned, taken from the crossbar, given to the Proof regions, and then held or served
    refine fold_keeps (heldOrServed hn (fold_keeps (fold_keeps ((h.setLevel hn).scanRow hn) ?_) ?_) _) ?_
    · exact fun _ _ ht => ht.setVec
    · exact fun _ _ ht => ht.setVec.prfLine hn
    intro t p ht
    split
    · exact ht.setVec.setVec
    · exact ht.setVec

/-! ## What goes with it (R164, R165) -/

theorem ancEmbed (h : SamePlace n r s) (line : Nat) (lam : Int) (room : Nat) : SamePlace n r (s.ancEmbed n line lam room) := by
  unfold State.ancEmbed
  extract_lets u src k first gone picked m out counted
  have hcounted : SamePlace n r counted := (h.setVec.count hn (by decide)).count hn (by decide)
  exact fold_keeps hcounted (fun t _ ht => (ht.count hn (by decide)).raiseLim hn (by omega))

theorem pidLine (h : SamePlace n r s) (line : Nat) : SamePlace n r (s.pidLine n line) :=
  fold_keeps h (fun _ _ ht => ite_keeps (ht.setVec.wr (offPlace_of rfl (by omega))) ht.setVec)

/-! ## The window of its hop (R179, R184, R192, R208) -/

theorem keyCheck (h : SamePlace n r s) : SamePlace n r (s.keyCheck n) :=
  ite_keeps (h.wr (offPlace_of rfl (by omega))).raise h

theorem routeLose (h : SamePlace n r s) (cause : Nat) : SamePlace n r (s.routeLose n cause) := by
  unfold State.routeLose
  extract_lets src lost told
  have hlost : SamePlace n r lost := (((h.wr (offPlace_of rfl (by omega))).wr (offPlace_of rfl (by omega))).wr
    (offPlace_of rfl (by omega))).wr (offPlace_of rfl (by omega))
  have htold : SamePlace n r told := ite_keeps (hlost.wr (offPlace_of rfl (by omega))) hlost
  exact ite_keeps h htold.raise

theorem violation (h : SamePlace n r s) (cause excess : Nat) : SamePlace n r (s.violation n cause excess) := by
  unfold State.violation
  extract_lets fr counted once dated
  have honce : SamePlace n r once := ite_keeps h (((h.wr (offPlace_of rfl (by omega))).wr (offPlace_of rfl (by omega))).wr
    (offPlace_of rfl (by omega)))
  have hdated : SamePlace n r dated := ite_keeps (honce.wr (offPlace_of rfl (by omega))) honce
  exact ite_keeps h hdated.raise

/-- Pins that follow an edge take their settings. -/
theorem pinEdges (h : SamePlace n r s) (f : Nat) (ok : Nat → Bool) : SamePlace n r (s.pinEdges f ok) :=
  upto_keeps h (fun _ _ ht => ite_keeps ((ht.wr (offPlace_of rfl (by omega))).wr (offPlace_of rfl (by omega))) ht)

end
end SamePlace
end Sys2Proof
end

section
/-! OutputFramesAndLines: an output's frames start, follow each other and end, line by line (R122 to R131, R165, R179). -/
namespace Sys2Proof

open Machine

/-! ## Frames (R122 to R124) -/

section
variable {n : Fin 48} {s : State}

/-- OUT[n] runs already, or its generator may not start: no format, no READY transmitter, no LOCKED family. -/
def startsNot (s : State) (n : Nat) : Prop :=
  s.rd (K.OUT_TSTATE n) ≠ 0 ∨ s.rd (K.OUT_FORMAT n) = 0 ∨ s.funcReady (20 + n / 4) 0 = false ∨
    s.funcReady (20 + n / 4) (1 + n % 4) = false ∨ s.rd (K.GSYN_STATE (s.rd (K.OUT_FAMILY n))) ≠ 3

theorem genStart_of_startsNot (h : startsNot s n.val) (t : Nat) : s.genStart n.val t = s := by
  exact if_pos (by simpa [startsNot] using h)

theorem outGeneratorStart_idle (h : startsNot s n.val) (t : Nat) : Idles (.outGeneratorStart n t) s := by
  have hsame := genStart_of_startsNot h t
  have hout : s.rd (K.OUT_TSTATE n.val) ≠ 0 ∨ (s.genStart n.val t).rd (K.OUT_TSTATE n.val) = 0 := by
    rw [hsame]
    exact ne_or_eq _ _
  exact (if_pos hout).trans (congrArg Host.Outcome.next hsame)

theorem outGeneratorStart_starts (h : ¬ startsNot s n.val) (t : Nat) : exec (.outGeneratorStart n t) s =
    .next (if (s.genStart n.val t).rd (K.OUT_TSTATE n.val) = 0 then s.genStart n.val t else ((s.genStart n.val t).audOutput n.val).protSync) := by
  have hstopped : s.rd (K.OUT_TSTATE n.val) = 0 := not_not.mp fun hrun => h (.inl hrun)
  change execOutGeneratorStart n t s = _
  simp only [execOutGeneratorStart, hstopped, ne_eq, not_true_eq_false, false_or]
  split <;> rfl

theorem switchLine_stopped (h : s.rd (K.OUT_TSTATE n.val) = 0) (ns : Nat) :
    exec (.switchLine n ns) s = .next (s.pinEdges 4 (fun a => a / 256 == n.val)) :=
  congrArg (onNext _) (if_pos h)

/-- At the switch line of a running output the frame that runs ends; the next one opens, or the output stops. -/
theorem switchLine_running (h : s.rd (K.OUT_TSTATE n.val) ≠ 0) (ns : Nat) :
    exec (.switchLine n ns) s = .next (((s.switchLine n.val ns).audOutput n.val).protSync.pinEdges 4 (fun a => a / 256 == n.val)) :=
  congrArg (onNext _) (if_neg h)

theorem switchLine_opens (hrun : s.rd (K.OUT_TSTATE n.val) ≠ 0) (hfmt : s.rd (K.OUT_FORMAT n.val) ≠ 0) (ns : Nat) {frame : Nat}
    (hframe : frame = (s.rd (K.OUT_EVT_FRAME n.val) + 1) % 2 ^ 48) :
    s.switchLine n.val ns = (s.endFrame n.val frame).openFrame n.val ((s.endFrame n.val frame).tod + ns % 1000) frame := by
  subst hframe
  exact (if_neg hrun).trans (if_neg (by simpa using hfmt))

theorem switchLine_stops (hrun : s.rd (K.OUT_TSTATE n.val) ≠ 0) (hfmt : s.rd (K.OUT_FORMAT n.val) = 0) (ns : Nat) {frame : Nat}
    (hframe : frame = (s.rd (K.OUT_EVT_FRAME n.val) + 1) % 2 ^ 48) :
    s.switchLine n.val ns = (s.endFrame n.val frame).outStop n.val ((s.endFrame n.val frame).tod + ns % 1000) frame := by
  subst hframe
  exact (if_neg hrun).trans (if_pos (by simpa using hfmt))

end

/-! ## The start of a line (R128, R131) -/

/-- The line that starts is noted; a line 1 is counted among those of the frame. -/
def lineBegun (s : State) (n line : Nat) : State := (s.wr (H.outLineNo n) line).up (H.outOnes n) (fun k => if line = 1 then k + 1 else k)

/-- Active picture turns into blanking at the line that starts. -/
def turnsBlank (s : State) (n line : Nat) : Bool :=
  !lineActive (s.air (K.OUT_FORMAT n)) line && lineActive (s.air (K.OUT_FORMAT n)) (s.rd (H.outLineNo n))

/-- The flag of blanking, when the line begins it. -/
def lineBlanked (s : State) (n line : Nat) : State :=
  if turnsBlank s n line then (lineBegun s n line).irqSet n 0 else lineBegun s n line

/-- The line that starts is LINE_MATCH, for the first time in the frame. -/
def matchesLine (s : State) (n line : Nat) : Bool :=
  decide (line = s.rd (K.OUT_LINE_MATCH n)) && s.rd (H.lmFrame n) != s.rd (K.OUT_EVT_FRAME n) + 1

/-- The line has matched in the present frame. -/
def lineMatched (s : State) (n line : Nat) : State :=
  if line = s.rd (K.OUT_LINE_MATCH n) ∧ s.rd (H.lmFrame n) ≠ s.rd (K.OUT_EVT_FRAME n) + 1 then
    (s.irqSet n 1).wr (H.lmFrame n) (s.rd (K.OUT_EVT_FRAME n) + 1) else s

/-- The place and the flags of the line that starts, before it is sent. -/
def lineFlagged (s : State) (n line : Nat) : State := lineMatched (lineBlanked s n line) n line

/-- The line with its forwarded packets and its payload identifier. -/
def lineSent (s : State) (n line : Nat) (lam : Int) (room : Nat) : State :=
  ((s.sendLine n line).ancEmbed n line lam room).pidLine n line

section
variable {n : Fin 48} {line room : Nat} {lam : Int} {s : State} {g : Fmt}

theorem lineStart_stopped (h : s.rd (K.OUT_TSTATE n.val) = 0) : Idles (.lineStart n line lam room) s := by
  have hline : lineStart n line lam room s = .next s := by
    rw [lineStart]
    extract_lets
    split
    · rfl
    · exact if_pos (.inl h)
  exact (congrArg (onNext _) hline).trans (congrArg Host.Outcome.next (if_pos h))

/-- Whatever the line does to a running output, the strobe pins follow. -/
theorem lineStart_strobes (hrun : s.rd (K.OUT_TSTATE n.val) ≠ 0) {t : State} (h : lineStart n line lam room s = .next t) :
    exec (.lineStart n line lam room) s = .next (t.pinEdges 7 (fun a => a == n.val)) :=
  (congrArg (onNext _) h).trans (congrArg Host.Outcome.next (if_neg hrun))

theorem lineStart_noFormat (hfmt : fmt (s.air (K.OUT_FORMAT n.val)) = none) : lineStart n line lam room s = .next s := by
  rw [lineStart, hfmt]

/-- A line that is not of the frame, or that a shortened frame leaves out, is none. -/
theorem lineStart_outside (hfmt : fmt (s.air (K.OUT_FORMAT n.val)) = some g) (h : line = 0 ∨ g.lines < line + (s.outExtra n.val).2) :
    lineStart n line lam room s = .next s := by
  rw [lineStart, hfmt]
  exact if_pos (.inr h)

theorem lineSent_samePlace (s : State) (n : Fin 48) (line : Nat) (lam : Int) (room : Nat) : SamePlace n.val s (lineSent s n.val line lam room) :=
  (((SamePlace.refl s).sendLine n.isLt line).ancEmbed n.isLt line lam room).pidLine n.isLt line

/-- A line of a running output sets the place and the flags; the sending and the check of the window leave them. -/
theorem lineStart_place (hrun : s.rd (K.OUT_TSTATE n.val) ≠ 0) (hfmt : fmt (s.air (K.OUT_FORMAT n.val)) = some g) (h0 : line ≠ 0)
    (hlen : line + (s.outExtra n.val).2 ≤ g.lines) :
    ∃ t, lineStart n line lam room s = .next t ∧ SamePlace n.val (lineFlagged s n.val line) t := by
  have hin : ¬ (s.rd (K.OUT_TSTATE n.val) = 0 ∨ line = 0 ∨ g.lines < line + (s.outExtra n.val).2) := by omega
  unfold lineStart
  extract_lets m c before begun blanked frame matched sent u src direct hop led keyed
  rw [show fmt c = some g from hfmt]
  dsimp only
  rw [if_neg hin]
  have hsent : SamePlace n.val (lineFlagged s n.val line) sent := lineSent_samePlace (lineFlagged s n.val line) n line lam room
  have hled : SamePlace n.val (lineFlagged s n.val line) led := ite_keeps (hsent.wr (offPlace_of rfl (by omega))) hsent
  have hkeyed : SamePlace n.val (lineFlagged s n.val line) keyed := ite_keeps (hled.keyCheck n.isLt) hled
  split
  · exact ⟨_, rfl, hsent⟩
  · exact ⟨_, rfl, ite_keeps hkeyed ((hkeyed.routeLose n.isLt 2).violation n.isLt 1 0)⟩

end

/-! ## The interrupt flags of a line (R128) -/

section
variable {n : Fin 48} (s : State) (line : Nat)

theorem lineBegun_rd {k : Nat} (hline : k ≠ H.outLineNo n.val) (hones : k ≠ H.outOnes n.val) : (lineBegun s n.val line).rd k = s.rd k :=
  (State.rd_wr_ne _ _ hones).trans (State.rd_wr_ne _ _ hline)

theorem lineBegun_line : (lineBegun s n.val line).rd (H.outLineNo n.val) = line := by
  have hne : H.outLineNo n.val ≠ H.outOnes n.val := keys_ne rfl rfl (by omega)
  exact (State.rd_wr_ne _ _ hne).trans (State.rd_wr_self ..)

theorem lineBlanked_rd {k : Nat} (hp : k ≠ K.OUT_IRQ_PENDING n.val) (ha : k ≠ H.irqAt (4 * n.val)) (hline : k ≠ H.outLineNo n.val)
    (hones : k ≠ H.outOnes n.val) : (lineBlanked s n.val line).rd k = s.rd k := by
  rw [lineBlanked]
  split
  · exact (irqSet_rd _ _ _ hp ha).trans (lineBegun_rd s line hline hones)
  · exact lineBegun_rd s line hline hones

theorem lineBlanked_frame : (lineBlanked s n.val line).rd (K.OUT_EVT_FRAME n.val) = s.rd (K.OUT_EVT_FRAME n.val) :=
  lineBlanked_rd s line (keys_ne rfl rfl (by omega)) (keys_ne rfl rfl (by omega)) (keys_ne rfl rfl (by omega)) (keys_ne rfl rfl (by omega))

theorem lineBlanked_line : (lineBlanked s n.val line).rd (H.outLineNo n.val) = line := by
  rw [lineBlanked]
  split
  · exact (irqSet_rd _ _ _ (keys_ne rfl rfl (by omega)) (keys_ne rfl rfl (by omega))).trans (lineBegun_line s line)
  · exact lineBegun_line s line

theorem lineBlanked_pending : (lineBlanked s n.val line).rd (K.OUT_IRQ_PENDING n.val) =
    s.rd (K.OUT_IRQ_PENDING n.val) ||| (turnsBlank s n.val line).toNat := by
  have hbegun := lineBegun_rd (n := n) s line (k := K.OUT_IRQ_PENDING n.val) (keys_ne rfl rfl (by omega)) (keys_ne rfl rfl (by omega))
  rw [lineBlanked]
  split
  · next hb => rw [irqSet_pending _ n.isLt, hbegun, hb]; rfl
  · next hb => rw [hbegun, Bool.eq_false_iff.mpr hb]; exact (Nat.or_zero _).symm

theorem lineBlanked_matches : matchesLine (lineBlanked s n.val line) n.val line = matchesLine s n.val line := by
  rw [matchesLine, matchesLine, lineBlanked_frame, lineBlanked_rd, lineBlanked_rd]
  all_goals exact keys_ne rfl rfl (by omega)

theorem lineMatched_eq (s : State) (n line : Nat) : lineMatched s n line =
    if matchesLine s n line then (s.irqSet n 1).wr (H.lmFrame n) (s.rd (K.OUT_EVT_FRAME n) + 1) else s := by
  simp [lineMatched, matchesLine]

theorem lineMatched_rd {k : Nat} (hp : k ≠ K.OUT_IRQ_PENDING n.val) (ha : k ≠ H.irqAt (4 * n.val + 1)) (hm : k ≠ H.lmFrame n.val) :
    (lineMatched s n.val line).rd k = s.rd k := by
  rw [lineMatched]
  split
  · exact (State.rd_wr_ne _ _ hm).trans (irqSet_rd _ _ _ hp ha)
  · rfl

theorem lineMatched_pending : (lineMatched s n.val line).rd (K.OUT_IRQ_PENDING n.val) =
    s.rd (K.OUT_IRQ_PENDING n.val) ||| 2 * (matchesLine s n.val line).toNat := by
  have hne : K.OUT_IRQ_PENDING n.val ≠ H.lmFrame n.val := keys_ne rfl rfl (by omega)
  rw [lineMatched_eq]
  split
  · next hm => rw [State.rd_wr_ne _ _ hne, irqSet_pending _ n.isLt, hm]; rfl
  · next hm => rw [Bool.eq_false_iff.mpr hm]; exact (Nat.or_zero _).symm

end

theorem toNat_testBit (c : Bool) {b : Nat} (hb : b < 3) :
    c.toNat.testBit b = (decide (b = 0) && c) ∧ (2 * c.toNat).testBit b = (decide (b = 1) && c) := by
  revert b
  cases c <;> decide

section
variable {n : Fin 48} {s t : State} {line : Nat} (h : SamePlace n.val (lineFlagged s n.val line) t)
include h

theorem place_line : t.rd (H.outLineNo n.val) = line := by
  have hkept := lineMatched_rd (n := n) (lineBlanked s n.val line) line (k := H.outLineNo n.val)
    (keys_ne rfl rfl (by omega)) (keys_ne rfl rfl (by omega)) (keys_ne rfl rfl (by omega))
  exact h.line.trans (hkept.trans (lineBlanked_line s line))

theorem place_frame : t.rd (K.OUT_EVT_FRAME n.val) = s.rd (K.OUT_EVT_FRAME n.val) := by
  have hkept := lineMatched_rd (n := n) (lineBlanked s n.val line) line (k := K.OUT_EVT_FRAME n.val)
    (keys_ne rfl rfl (by omega)) (keys_ne rfl rfl (by omega)) (keys_ne rfl rfl (by omega))
  exact h.frame.trans (hkept.trans (lineBlanked_frame s line))

theorem place_matched (hm : matchesLine s n.val line = true) : t.rd (H.lmFrame n.val) = s.rd (K.OUT_EVT_FRAME n.val) + 1 := by
  rw [h.matched, lineFlagged, lineMatched_eq, if_pos ((lineBlanked_matches s line).trans hm), State.rd_wr_self, lineBlanked_frame]

/-- Blanking sets flag 0 and a match flag 1. -/
theorem place_flags {b : Nat} (hb : b < 3) : (t.rd (K.OUT_IRQ_PENDING n.val)).testBit b = ((s.rd (K.OUT_IRQ_PENDING n.val)).testBit b ||
    (decide (b = 0) && turnsBlank s n.val line) || (decide (b = 1) && matchesLine s n.val line)) := by
  rw [h.flags b hb, lineFlagged, lineMatched_pending, lineBlanked_pending, lineBlanked_matches, Nat.testBit_or, Nat.testBit_or,
    (toNat_testBit _ hb).1, (toNat_testBit _ hb).2]

theorem place_blanking : (t.rd (K.OUT_IRQ_PENDING n.val)).testBit 0 =
    ((s.rd (K.OUT_IRQ_PENDING n.val)).testBit 0 || turnsBlank s n.val line) := by
  simpa using place_flags h (b := 0) (by decide)

theorem place_match : (t.rd (K.OUT_IRQ_PENDING n.val)).testBit 1 =
    ((s.rd (K.OUT_IRQ_PENDING n.val)).testBit 1 || matchesLine s n.val line) := by
  simpa using place_flags h (b := 1) (by decide)

theorem place_frameDone : (t.rd (K.OUT_IRQ_PENDING n.val)).testBit 2 = (s.rd (K.OUT_IRQ_PENDING n.val)).testBit 2 := by
  simpa using place_flags h (b := 2) (by decide)

end

/-- Settles O36: the generator start and the switch line by their definitions, the end of a frame by what a latch of its statistics leaves, the
development point by what developing leaves due, and a line by the place and the flags it sets first, which all that follows in it leaves. -/
theorem outputFramesAndLines : Obligations.OutputFramesAndLines := by
  refine ⟨fun n s => ⟨?_, ?_, fun ns => ⟨?_, ?_, ?_⟩, ?_, ?_, ?_, ?_, ?_⟩, fun n line room lam s => ⟨?_, ?_, ?_, ?_⟩⟩
  · exact fun t h => outGeneratorStart_idle h t
  · exact fun t h => outGeneratorStart_starts h t
  · exact fun h => switchLine_stopped h ns
  · intro hrun hfmt
    rw [switchLine_running hrun, switchLine_opens hrun hfmt ns rfl]
  · intro hrun hfmt
    rw [switchLine_running hrun, switchLine_stops hrun hfmt ns rfl]
  · exact fun f j h2 h7 => endFrame_member n.isLt h2 h7
  · exact fun f => endFrame_frame n.isLt
  · exact developmentPoint_elsewhere
  · exact developmentPoint_ends
  · exact developmentPoint_passes
  · exact lineStart_stopped
  · exact fun hrun hfmt => lineStart_strobes hrun (lineStart_noFormat hfmt)
  · exact fun g hrun hfmt hout => lineStart_strobes hrun (lineStart_outside hfmt hout)
  · intro g hrun hfmt h0 hlen
    obtain ⟨t, hline, hplace⟩ := lineStart_place (room := room) (lam := lam) hrun hfmt h0 hlen
    have hexec := lineStart_strobes hrun hline
    have hend := hplace.pinEdges n.isLt 7 (fun a => a == n.val)
    exact ⟨_, hexec, place_line hend, place_blanking hend, place_match hend, place_frameDone hend, place_matched hend, place_frame hend,
      storesKept_of_exec hexec rfl⟩

end Sys2Proof
end

section
/-! PairsOfInputs fails in a state whose BRACKET.PARTNER names no input (a pair is of two inputs, spec/06 R147), but the statement is about
every state: the register of the partner's last format is then the one that asks for a warm reset, which every arrival of a request clears, so
that the pair's inputs agree in format before the request and no longer when it is carried out. -/
namespace Sys2Proof

open Machine

/-- The number under which the last format of an input would stand where the warm reset is asked for. -/
def strayPartner : Nat := 142 * 2 ^ 24

/-- A part whose input 0 leads a pair with that number; both are healthy by what stands in the registers. -/
def strayPair : State :=
  { State.reset with reg := [(K.IN_BRACKET_PARTNER 0, strayPartner), (K.IN_BRACKET_ROLE 0, 1), (H.mgmtOn, 1), (H.lastFmt 0, 14), (H.warmPend, 14),
      (K.IN_STAT_STATE strayPartner, 4)] }

/-- The SPI session of that part is served. -/
theorem strayPair_serves : Serves strayPair spiPing 16 where
  on := by decide
  normal := by decide
  port := by decide
  up := fun h => absurd h (by decide)
  here := fun h => absurd h (by decide)
  magic := rfl
  plain := by decide
  named := rfl
  open' := fun h => absurd rfl h
  gen := by decide
  uncached := fun _ h => by cases h
  newer := by decide

/-- The partner is healthy when the request comes, and no longer when it has arrived. -/
theorem strayPair_healthy : strayPair.healthy 0 strayPartner = true ∧ (arrived spiPing 16 strayPair).healthy 0 strayPartner = false := by decide

/-- The pair does not take the partner. -/
theorem strayPair_selected : ∀ t, exec (.bracketSelect spiPing 0 1) strayPair = .next t → t.rd (K.IN_BRACKET_ACTIVE 0) = 255 := by
  have h : (match exec (.bracketSelect spiPing 0 1) strayPair with | .next t => t.rd (K.IN_BRACKET_ACTIVE 0) | _ => 0) = 255 := by decide
  intro t ht
  rwa [ht] at h

/-- Refutes O41: BRACKET.SELECT is BUSY for a partner that is healthy in the state the request finds, where PARTNER names the register that
the request's arrival clears. -/
theorem not_pairsOfInputs : ¬ Obligations.PairsOfInputs := by
  intro h
  obtain ⟨-, -, hselect⟩ := h 0 strayPair
  obtain ⟨-, htakes⟩ := hselect spiPing 16 1 strayPair_serves (by decide) (by decide)
  obtain ⟨t, hex, hactive, -⟩ := htakes (by decide) strayPair_healthy.1
  exact absurd ((strayPair_selected t hex).symm.trans hactive) (by decide)

end Sys2Proof
end

section
/-! FramesMakeAnInputValid fails in a state whose RING.SLOT names none of a ring's three slots (spec/10 R227), but the statement is about every
state: the register that says how much of the slot's ANC area is used is then the one that tells the line of the first
packet count, so that opening the slot undoes the new count of packets. -/
namespace Sys2Proof

open Machine

/-- The slot whose used ANC bytes would stand where input 0 keeps the line its packets count for. -/
def straySlot : Nat := 69 * 2 ^ 24

/-- A part whose input 0 is VALID in 1080p50 and whose ring, of slots of that format, stands at that slot. -/
def straySlotRing : State :=
  { State.reset with reg := [(K.IN_STAT_STATE 0, 4), (K.IN_STAT_FORMAT 0, 14), (K.RING_SLOT_BYTES 0, slotBytes 14 0), (K.RING_SLOT 0, straySlot)] }

/-- A frame that begins leaves 4 there, the bytes of an empty ANC area. -/
theorem straySlotRing_frame : ∀ t, exec (.rxSwitchLineStamp 0 0 0) straySlotRing = .next t → t.rd (H.ancLine 0) = 4 := by
  have h : (match exec (.rxSwitchLineStamp 0 0 0) straySlotRing with | .next t => t.rd (H.ancLine 0) | _ => 0) = 4 := by decide +kernel
  intro t ht
  rwa [ht] at h

/-- Refutes O38: the switch line of a VALID input begins no new count of its packets where RING.SLOT names the register of that count. -/
theorem not_framesMakeAnInputValid : ¬ Obligations.FramesMakeAnInputValid := by
  intro h
  obtain ⟨-, -, -, -, hswitch, -⟩ := h 0 straySlotRing
  obtain ⟨-, hstamps⟩ := hswitch 0 0 0 rfl
  obtain ⟨t, hex, -, -, -, -, -, hcount, -⟩ := hstamps (by decide) (by decide)
  have hzero : t.rd (H.ancLine 0) = 0 := hcount 0 (by decide)
  rw [straySlotRing_frame t hex] at hzero
  exact absurd hzero (by decide)

end Sys2Proof
end

section
/-! SUPPORT. What counting an occurrence and reporting it at most once a second change (R58, R379). -/
namespace Sys2Proof

open Machine

/-- The registers of a running counter: its value, and what it held before the tick that last counted. -/
def countKeys (k : Nat) : List Nat := [k, H.cntWas k, H.cntAt k]

section
variable {s : State} {k m id code src : Nat} {args : Nat → Nat × Nat}

/-- Counting at an object of the dictionary. -/
theorem count_eq_wrs (_ : k < 2 ^ 24) : s.count k m =
    s.wrs [(H.cntWas k, s.runWas k), (H.cntAt k, s.now + 1), (k, min (s.rd k + m) 0xFFFFFFFF)] := by
  have hwas : k ≠ H.cntWas k := by simp only [H.cntWas, H.hk]; omega
  have hat : k ≠ H.cntAt k := by simp only [H.cntAt, H.hk]; omega
  simp only [State.count, State.countFrame, State.incSat, State.up, State.rd_wr_ne _ _ hwas, State.rd_wr_ne _ _ hat]
  rfl

theorem count_touches : Touches (countKeys k) [] s (s.count k m) :=
  (((Touches.wr ..).trans (.wr ..)).trans (.wr ..)).mono (by simp [countKeys])

theorem count_rd_self (hk : k < 2 ^ 24) : (s.count k m).rd k = min (s.rd k + m) 0xFFFFFFFF := by
  rw [count_eq_wrs hk]
  exact State.rd_wr_self ..

/-- Counting leaves the other objects of the dictionary. -/
theorem count_rd_obj {j : Nat} (hj : j < 2 ^ 24) (hne : j ≠ k) : (s.count k m).rd j = s.rd j := by
  refine count_touches.regs j ?_
  simp only [countKeys, H.cntWas, H.cntAt, H.hk, List.mem_cons, List.not_mem_nil, or_false]
  omega

/-- A limited report leaves the objects of the dictionary. -/
theorem raiseLim_rd_obj {j : Nat} (hj : j < 2 ^ 24) : (s.raiseLim id code src args).rd j = s.rd j :=
  raiseLim_rd _ _ _ _ _ (by simp only [H.limCnt, H.hk]; omega) (by simp only [H.limLast, H.hk]; omega)

theorem raiseLim_vec (j : Nat) : (s.raiseLim id code src args).vec j = s.vec j := by
  unfold State.raiseLim
  extract_lets u last a
  split <;> rfl

end
end Sys2Proof
end

section
/-! SUPPORT. What the ring and the pair of an input are, where objects of the dictionary read the same (R145, R147, R180). -/
namespace Sys2Proof

open Machine

/-- An object of the dictionary that is no counter: in the blocks of inputs and outputs RUN, LAST and TOTAL lie at offsets 30 to 32. -/
def PlainObj (k : Nat) : Prop := k < 2 ^ 24 ∧ k / 256 % 64 < 0x30

theorem plainObj_of {k x y : Nat} (hk : k = x * 256 + y) (hx : x < 2 ^ 16) (hy : y < 256) (hoff : x % 64 < 0x30) : PlainObj k := by
  rw [PlainObj]
  omega

section
variable {s t : State} {n : Nat} (hn : n < 48) (hobj : ∀ k, PlainObj k → t.rd k = s.rd k)
include hobj

theorem quadMode_congr {q : Nat} (hq : q < 48) : t.rd (K.IN_QUAD_MODE q) = s.rd (K.IN_QUAD_MODE q) :=
  hobj _ (plainObj_of rfl (by omega) (by omega) (by omega))

theorem linkInput_congr {q : Nat} (hq : q < 12) (k : Nat) : t.linkInput q k = s.linkInput q k := by
  have hlink : ∀ m ∈ (List.range 4).map (fun i => 4 * q + i), (t.rd (K.IN_PID_VALID m) == 1 && Config.pidField 4 (t.rd (K.IN_PID_RAW m)) == k + 1) =
      (s.rd (K.IN_PID_VALID m) == 1 && Config.pidField 4 (s.rd (K.IN_PID_RAW m)) == k + 1) := by
    intro m hm
    obtain ⟨i, hi, rfl⟩ := List.mem_map.mp hm
    have hlt := List.mem_range.mp hi
    rw [hobj (K.IN_PID_VALID (4 * q + i)) (plainObj_of rfl (by omega) (by omega) (by omega)),
      hobj (K.IN_PID_RAW (4 * q + i)) (plainObj_of rfl (by omega) (by omega) (by omega))]
  rw [State.linkInput, State.linkInput, quadMode_congr hobj (by omega), List.find?_congr hlink]

include hn

theorem linkOf_congr : t.linkOf n = s.linkOf n := by
  simp only [State.linkOf, quadMode_congr hobj (show 4 * (n / 4) < 48 by omega), linkInput_congr hobj (show n / 4 < 12 by omega)]

theorem ringOf_congr (hlive : ∀ m < 48, t.rd (H.ringLive m) = s.rd (H.ringLive m)) : t.ringOf n = s.ringOf n := by
  have hring : (if s.rd (K.IN_QUAD_MODE (4 * (n / 4))) = 0 then n else 4 * (n / 4)) < 48 := by split <;> omega
  simp only [State.ringOf, quadMode_congr hobj (show 4 * (n / 4) < 48 by omega), linkOf_congr hn hobj, hlive _ hring]

theorem primaryOf_congr : t.primaryOf n = s.primaryOf n := by
  have hrole {p : Nat} (hp : p < 48) : t.rd (K.IN_BRACKET_ROLE p) = s.rd (K.IN_BRACKET_ROLE p) :=
    hobj _ (plainObj_of rfl (by omega) (by omega) (by omega))
  have hpair : ∀ p ∈ List.range 48, (t.rd (K.IN_BRACKET_PARTNER p) == n && t.rd (K.IN_BRACKET_ROLE p) == 1) =
      (s.rd (K.IN_BRACKET_PARTNER p) == n && s.rd (K.IN_BRACKET_ROLE p) == 1) := by
    intro p hp
    have hlt := List.mem_range.mp hp
    rw [hrole hlt, hobj (K.IN_BRACKET_PARTNER p) (plainObj_of rfl (by omega) (by omega) (by omega))]
  rw [State.primaryOf, State.primaryOf, hrole hn, List.find?_congr hpair]

end
end Sys2Proof
end

section
/-! AncillaryPackets: a packet of an input that is ALIGNED or VALID (R140 to R143). -/
namespace Sys2Proof

open Machine

section
variable {s : State} {n : Fin 48} {a : Anc}

theorem ancPacket_unaligned (h : s.rd (K.IN_STAT_STATE n.val) < 3) : Idles (.ancPacket n a) s := if_pos h

/-! ## Quarantine (R140, R143) -/

theorem ancPacket_quarantines (h : 3 ≤ s.rd (K.IN_STAT_STATE n.val)) (hwhy : ancReason a ≠ 0)
    (hcs : ancReason a ≠ 2 ∨ s.rd (K.IN_ANC_CHECKSUM n.val) = 0) : exec (.ancPacket n a) s = .next (s.quarantine n.val a (ancReason a)) :=
  (if_neg (Nat.not_lt.mpr h)).trans (if_pos ⟨hwhy, hcs⟩)

/-- The entry at the head, before the packet counts. -/
theorem quarantine_rd (why : Nat) : (s.quarantine n.val a why).rd (K.IN_QUAR_HEAD n.val) = (s.rd (K.IN_QUAR_HEAD n.val) + 1) % 2 ^ 32 ∧
    (s.quarantine n.val a why).rd (K.IN_RUN n.val 10) = min (s.rd (K.IN_RUN n.val 10) + 1) 0xFFFFFFFF ∧
    (s.quarantine n.val a why).rd (K.IN_RUN n.val 7) = s.rd (K.IN_RUN n.val 7) := by
  have hobj (j : Nat) (hj : j < 256) : K.IN_RUN n.val j < 2 ^ 24 := by simp only [K.IN_RUN, K.at']; omega
  have hhead : K.IN_QUAR_HEAD n.val < 2 ^ 24 := by simp only [K.IN_QUAR_HEAD, K.at']; omega
  have hentry (e : Nat) : K.IN_QUAR_HEAD n.val ≠ K.IN_QUAR_ENTRY n.val (e % 16) := keys_ne rfl rfl (by omega)
  have hrun (j e : Nat) (hj : j < 256) : K.IN_RUN n.val j ≠ K.IN_QUAR_ENTRY n.val (e % 16) ∧ K.IN_RUN n.val j ≠ K.IN_QUAR_HEAD n.val :=
    ⟨keys_ne rfl rfl (by omega), keys_ne rfl rfl (by omega)⟩
  have hne : K.IN_RUN n.val 7 ≠ K.IN_RUN n.val 10 := keys_ne rfl rfl (by omega)
  obtain ⟨h10e, h10h⟩ := hrun 10 (s.rd (K.IN_QUAR_HEAD n.val)) (by decide)
  obtain ⟨h7e, h7h⟩ := hrun 7 (s.rd (K.IN_QUAR_HEAD n.val)) (by decide)
  simp only [State.quarantine, State.ancBad, State.inc, State.up]
  refine ⟨?_, ?_, ?_⟩
  · rw [raiseLim_rd_obj hhead, count_rd_obj hhead (hrun 10 0 (by decide)).2.symm, State.rd_wr_self, State.rd_wr_ne _ _ (hentry _)]
  · rw [raiseLim_rd_obj (hobj 10 (by decide)), count_rd_self (hobj 10 (by decide)), State.rd_wr_ne _ _ h10h, State.rd_wr_ne _ _ h10e]
  · rw [raiseLim_rd_obj (hobj 7 (by decide)), count_rd_obj (hobj 7 (by decide)) hne, State.rd_wr_ne _ _ h7h, State.rd_wr_ne _ _ h7e]

theorem quarantine_vec (why k : Nat) : (s.quarantine n.val a why).vec k = s.vec k := by
  rw [State.quarantine, State.ancBad, raiseLim_vec]
  simp only [State.vec, State.count_vecs, State.inc_vecs, State.wr_vecs]

/-! ## Ordinary packets (R141, R142) -/

/-- An ordinary packet of the line its link counts for: whole, no payload identifier, timecode or audio. -/
structure PlainAnc (s : State) (n : Nat) (a : Anc) : Prop where
  whole : ancReason a = 0
  noPid : ¬ (a.did % 256 = 0x41 ∧ a.sdid % 256 = 1)
  noTimecode : ¬ (a.did % 256 = 0x60 ∧ a.sdid % 256 = 0x60)
  noAudio : audioDid (a.did % 256) = false
  sameLine : s.rd (H.ancLine (16 * n + a.link % 16)) = a.line

/-- A packet that passes counts as forwarded and for its line. -/
def ancCounted (s : State) (n : Nat) (a : Anc) : State := (s.inc (H.ancCnt (16 * n + a.link % 16)) 1 (2 ^ 16)).count (K.IN_RUN n 7) 1

/-- What happens to an ordinary packet. -/
def ancPlain (s : State) (n : Nat) (a : Anc) : State :=
  if s.ancPass n (a.did % 256) (a.sdid % 256) = false then s.count (K.IN_RUN n 8) 1
  else if s.rd (K.IN_ANC_MAX_PER_LINE n) ≤ s.rd (H.ancCnt (16 * n + a.link % 16)) then s.ancLate n
  else if (ancCounted s n a).rd (H.linkFmt n) = 0x100 then ancCounted s n a
  else ((ancCounted s n a).setVec (H.ancFwd n) ((ancCounted s n a).vec (H.ancFwd n) ++ ancRecord a)).ancStore n (ancRecord a)

theorem ancPacket_plain (h : 3 ≤ s.rd (K.IN_STAT_STATE n.val)) (hp : PlainAnc s n.val a) : exec (.ancPacket n a) s = .next (ancPlain s n.val a) := by
  show execAncPacket n a s = _
  delta ancPlain ancCounted
  have hst : ¬ s.rd (K.IN_STAT_STATE n.val) < 3 := Nat.not_lt.mpr h
  obtain ⟨hwhy, hpid, htc, haud, hline⟩ := hp
  have hwhole : (0 : Nat) = 2 ↔ False := by decide
  simp only [execAncPacket, hst, hwhy, hwhole, hpid, htc, haud, hline, if_false, if_true, ne_eq, not_true_eq_false, false_and,
    and_true, Bool.not_eq_true', Bool.false_eq_true, apply_ite Host.Outcome.next]

/-! ## What a packet that passes leaves -/

theorem ancCounted_touches : Touches (countKeys (K.IN_RUN n.val 7) ++ [H.ancCnt (16 * n.val + a.link % 16)]) [] s (ancCounted s n.val a) :=
  ((Touches.wr s (H.ancCnt (16 * n.val + a.link % 16)) _).trans count_touches).mono (by simp [or_comm])

theorem ancCounted_rd_run : (ancCounted s n.val a).rd (K.IN_RUN n.val 7) = min (s.rd (K.IN_RUN n.val 7) + 1) 0xFFFFFFFF := by
  have hne : K.IN_RUN n.val 7 ≠ H.ancCnt (16 * n.val + a.link % 16) := keys_ne rfl rfl (by omega)
  rw [ancCounted, count_rd_self (by simp only [K.IN_RUN, K.at']; omega), State.inc, State.up, State.rd_wr_ne _ _ hne]

theorem ancCounted_rd_line (hcnt : s.rd (H.ancCnt (16 * n.val + a.link % 16)) < 2 ^ 16 - 1) :
    (ancCounted s n.val a).rd (H.ancCnt (16 * n.val + a.link % 16)) = s.rd (H.ancCnt (16 * n.val + a.link % 16)) + 1 := by
  have hkey : H.ancCnt (16 * n.val + a.link % 16) ∉ countKeys (K.IN_RUN n.val 7) := by
    simp (disch := (refine keys_ne rfl rfl ?_; omega)) [countKeys, eq_false_of_keys_ne]
  rw [ancCounted, count_touches.regs _ hkey, State.inc, State.up, State.rd_wr_self, Nat.mod_eq_of_lt (by omega)]

/-- A hidden register of an input that no packet of an input counts in. -/
theorem ancCounted_rd_hidden {c i : Nat} (hc : c < 303) (hne : c ≠ 124) (hi : i < 2 ^ 24) :
    (ancCounted s n.val a).rd (H.hk c i) = s.rd (H.hk c i) := by
  refine ancCounted_touches.regs _ ?_
  simp only [countKeys, K.IN_RUN, K.at', H.cntWas, H.cntAt, H.ancCnt, H.hk, List.mem_append, List.mem_cons, List.not_mem_nil, or_false]
  omega

theorem storesKept_ancCounted : StoresKept s (ancCounted s n.val a) :=
  count_keeps (storesKept_kept s) (inc_keeps (storesKept_kept s) (storesKept_refl s))

/-- Without a slot that takes the present frame a record goes nowhere. -/
theorem ancStore_none (h : s.ringOf n.val = none) (r : List Nat) : s.ancStore n.val r = s := by rw [State.ancStore, h]

/-- What is kept of a packet of a supported signal, where no slot takes the present frame. -/
def ancKept (s : State) (n : Nat) (a : Anc) : State := (ancCounted s n a).setVec (H.ancFwd n) (s.vec (H.ancFwd n) ++ ancRecord a)

theorem ancKept_touches : Touches (countKeys (K.IN_RUN n.val 7) ++ [H.ancCnt (16 * n.val + a.link % 16)]) [] s (ancKept s n.val a) :=
  (ancCounted_touches.trans (.setVec ..)).mono (by simp)

theorem ancKept_rd (k : Nat) : (ancKept s n.val a).rd k = (ancCounted s n.val a).rd k := by rw [ancKept, State.rd_setVec]

theorem ancKept_ringOf : (ancKept s n.val a).ringOf n.val = s.ringOf n.val := by
  refine ringOf_congr n.isLt (fun k hk => ?_) (fun m hm => ?_)
  · rw [PlainObj] at hk
    refine ancKept_touches.regs k ?_
    simp only [countKeys, K.IN_RUN, K.at', H.cntWas, H.cntAt, H.ancCnt, H.hk, List.mem_append, List.mem_cons, List.not_mem_nil, or_false]
    omega
  · exact (ancKept_rd _).trans (ancCounted_rd_hidden (by decide) (by decide) (by omega))

/-! ## The fates of an ordinary packet -/

section
variable (h : 3 ≤ s.rd (K.IN_STAT_STATE n.val)) (hp : PlainAnc s n.val a)
include h hp

theorem ancPacket_filtered (hpass : s.ancPass n.val (a.did % 256) (a.sdid % 256) = false) :
    Changes (.ancPacket n a) s [(K.IN_RUN n.val 8, min (s.rd (K.IN_RUN n.val 8) + 1) 0xFFFFFFFF)] (countKeys (K.IN_RUN n.val 8)) [] := by
  have hobj : K.IN_RUN n.val 8 < 2 ^ 24 := by simp only [K.IN_RUN, K.at']; omega
  refine ⟨s.count (K.IN_RUN n.val 8) 1, ?_, by simpa using count_rd_self hobj, ?_, count_touches.events, ?_⟩
  · rw [ancPacket_plain h hp, ancPlain, if_pos hpass]
  · exact (count_touches.mono (fun k hk => List.mem_cons_of_mem _ hk)).regs
  · exact count_keeps (storesKept_kept s) (storesKept_refl s)

theorem ancPacket_late (hpass : s.ancPass n.val (a.did % 256) (a.sdid % 256) = true)
    (hfull : s.rd (K.IN_ANC_MAX_PER_LINE n.val) ≤ s.rd (H.ancCnt (16 * n.val + a.link % 16))) : Ends (.ancPacket n a) s (fun t =>
      t.rd (K.IN_RUN n.val 9) = min (s.rd (K.IN_RUN n.val 9) + 1) 0xFFFFFFFF ∧ t.rd (K.IN_RUN n.val 7) = s.rd (K.IN_RUN n.val 7) ∧
      t.vec (H.ancFwd n.val) = s.vec (H.ancFwd n.val) ∧ StoresKept s t) := by
  have h9 : K.IN_RUN n.val 9 < 2 ^ 24 := by simp only [K.IN_RUN, K.at']; omega
  have h7 : K.IN_RUN n.val 7 < 2 ^ 24 := by simp only [K.IN_RUN, K.at']; omega
  have hne : K.IN_RUN n.val 7 ≠ K.IN_RUN n.val 9 := keys_ne rfl rfl (by omega)
  refine ⟨s.ancLate n.val, ?_, ?_, ?_, ?_, ancLate_keeps (storesKept_kept s) (storesKept_refl s)⟩
  · rw [ancPacket_plain h hp, ancPlain, if_neg (by simp [hpass]), if_pos hfull]
  · rw [State.ancLate, raiseLim_rd_obj h9, count_rd_self h9]
  · rw [State.ancLate, raiseLim_rd_obj h7, count_rd_obj h7 hne]
  · rw [State.ancLate, raiseLim_vec, State.vec, State.count_vecs, State.vec]

section
variable (hpass : s.ancPass n.val (a.did % 256) (a.sdid % 256) = true)
  (hroom : s.rd (H.ancCnt (16 * n.val + a.link % 16)) < s.rd (K.IN_ANC_MAX_PER_LINE n.val))
  (hcnt : s.rd (H.ancCnt (16 * n.val + a.link % 16)) < 2 ^ 16 - 1)
include hpass hroom hcnt

theorem ancPacket_unsupported (hfmt : s.rd (H.linkFmt n.val) = 0x100) : Changes (.ancPacket n a) s
    [(K.IN_RUN n.val 7, min (s.rd (K.IN_RUN n.val 7) + 1) 0xFFFFFFFF),
      (H.ancCnt (16 * n.val + a.link % 16), s.rd (H.ancCnt (16 * n.val + a.link % 16)) + 1)] (countKeys (K.IN_RUN n.val 7)) [] := by
  have hlink : (ancCounted s n.val a).rd (H.linkFmt n.val) = 0x100 := (ancCounted_rd_hidden (by decide) (by decide) (by omega)).trans hfmt
  refine ⟨ancCounted s n.val a, ?_, ?_, ?_, ancCounted_touches.events, storesKept_ancCounted⟩
  · rw [ancPacket_plain h hp, ancPlain, if_neg (by simp [hpass]), if_neg (by omega), if_pos hlink]
  · simpa using ⟨ancCounted_rd_run, ancCounted_rd_line hcnt⟩
  · exact (ancCounted_touches.mono (by simp [countKeys])).regs

theorem ancPacket_forwarded (hfmt : s.rd (H.linkFmt n.val) ≠ 0x100) (hring : s.ringOf n.val = none) : Ends (.ancPacket n a) s (fun t =>
    t.rd (K.IN_RUN n.val 7) = min (s.rd (K.IN_RUN n.val 7) + 1) 0xFFFFFFFF ∧
    t.rd (H.ancCnt (16 * n.val + a.link % 16)) = s.rd (H.ancCnt (16 * n.val + a.link % 16)) + 1 ∧
    t.vec (H.ancFwd n.val) = s.vec (H.ancFwd n.val) ++ ancRecord a ∧
    RegsKept (countKeys (K.IN_RUN n.val 7) ++ [H.ancCnt (16 * n.val + a.link % 16)]) s t ∧ raisedOf t = raisedOf s ∧ StoresKept s t) := by
  have hlink : (ancCounted s n.val a).rd (H.linkFmt n.val) ≠ 0x100 := by rwa [H.linkFmt, ancCounted_rd_hidden (by decide) (by decide) (by omega)]
  have hvec : (ancCounted s n.val a).vec (H.ancFwd n.val) = s.vec (H.ancFwd n.val) := by
    rw [State.vec, ancCounted, State.count_vecs, State.inc_vecs, State.vec]
  refine ⟨ancKept s n.val a, ?_, (ancKept_rd _).trans ancCounted_rd_run, (ancKept_rd _).trans (ancCounted_rd_line hcnt), State.vec_setVec_self .., ancKept_touches.regs,
    ancKept_touches.events.trans (List.append_nil _), setVec_keeps (storesKept_kept s) storesKept_ancCounted⟩
  rw [ancPacket_plain h hp, ancPlain, if_neg (by simp [hpass]), if_neg (by omega), if_neg hlink, hvec,
    ← ancKept, ancStore_none (ancKept_ringOf.trans hring)]

end
end
end

/-- Settles O40: a packet by its reason to be quarantined, an ordinary one by the filter and by the limit of its line. -/
theorem ancillaryPackets : Obligations.AncillaryPackets := by
  intro n a s m did sdid x why up marks plain
  refine ⟨ancPacket_unaligned, fun h hwhy hcs => ?_, fun h hplain => ?_⟩
  · obtain ⟨hhead, hbad, hfwd⟩ := quarantine_rd (s := s) (n := n) (a := a) (ancReason a)
    exact ⟨_, ancPacket_quarantines h hwhy hcs, hhead, hbad, hfwd, quarantine_keeps (storesKept_kept s) (storesKept_refl s), quarantine_vec ..⟩
  · obtain ⟨hwhole, hpid, htc, haud, hline⟩ := hplain
    have hp : PlainAnc s n.val a := ⟨hwhole, hpid, htc, haud, hline⟩
    exact ⟨ancPacket_filtered h hp, ancPacket_late h hp, fun hpass hroom hcnt =>
      ⟨ancPacket_unsupported h hp hpass hroom hcnt, ancPacket_forwarded h hp hpass hroom hcnt⟩⟩

end Sys2Proof
end

section
/-! ReceivedLines: the TRS, the line-number words, the CRCs and the samples of a line (R138, R139). -/
namespace Sys2Proof

open Machine

section
variable {s : State} {n : Fin 48} {line ln : Nat} {off : Int} {ok : Bool} {px : List Nat}

/-! ## TRS (R138) -/

/-- A TRS that is not right counts. -/
def trsCounted (s : State) (n : Nat) : State := (s.count (K.IN_RUN n 2) 1).raiseLim (2000 + n) 0x2005 (inIdx n) (fun k => (n, k))

theorem trsCounted_rd_run : (trsCounted s n.val).rd (K.IN_RUN n.val 2) = min (s.rd (K.IN_RUN n.val 2) + 1) 0xFFFFFFFF := by
  have hobj : K.IN_RUN n.val 2 < 2 ^ 24 := by simp only [K.IN_RUN, K.at']; omega
  rw [trsCounted, raiseLim_rd_obj hobj, count_rd_self hobj]

/-- The registers of that counter and of its report. -/
def trsKeys (n : Nat) : List Nat := countKeys (K.IN_RUN n 2) ++ [H.limCnt (2000 + n), H.limLast (2000 + n)]

theorem trsCounted_regs : RegsKept (trsKeys n.val) s (trsCounted s n.val) := by
  intro k hk
  simp only [trsKeys, List.mem_append, List.mem_cons, List.not_mem_nil, or_false, not_or] at hk
  obtain ⟨hcount, hcnt, hlast⟩ := hk
  rw [trsCounted, raiseLim_rd _ _ _ _ _ hcnt hlast, count_touches.regs k hcount]

/-- The line shows its TRS. -/
def trsShown (s : State) (n : Nat) : State := (s.wr (H.trsAt n) s.now).wr (H.trsRun n) 0

/-- Both TRS right where they should be. -/
theorem trsLine_right : s.trsLine n.val line 0 off = trsShown s n.val := rfl

/-- One TRS wrong or missing, the other right. -/
theorem trsLine_half {e : Nat} (h1 : 1 ≤ e) (h2 : e ≤ 2) :
    s.trsLine n.val line e off = (trsCounted (s.wr (H.trsAt n.val) s.now) n.val).wr (H.trsRun n.val) 0 := by
  obtain rfl | rfl : e = 1 ∨ e = 2 := by omega
  all_goals simp [State.trsLine, trsCounted, List.range_succ]

/-- Both TRS wrong or missing. -/
theorem trsLine_none {e v : Nat} (h1 : 1 ≤ e) (h2 : e ≤ 2) (h3 : 1 ≤ v) (h4 : v ≤ 2) :
    s.trsLine n.val line (e + 4 * v) off = (trsCounted (trsCounted s n.val) n.val).wr (H.trsRun n.val) 0 := by
  obtain rfl | rfl : e = 1 ∨ e = 2 := by omega
  all_goals obtain rfl | rfl : v = 1 ∨ v = 2 := by omega
  all_goals simp [State.trsLine, trsCounted, List.range_succ]

/-! ## Line-number words and CRCs (R138) -/

/-- A wrong CRC counts, also for the frame. -/
def crcCounted (s : State) (n : Nat) : State :=
  ((s.count (K.IN_RUN n 4) 1).raiseLim (2100 + n) 0x2006 (inIdx n) (fun k => (n, k))).inc (H.crcFrame n) 1 (2 ^ 16)

/-- The line-number words and the CRCs of a line of an input that is not SD. -/
def lineChecked (s : State) (n line ln : Nat) (ok : Bool) : State :=
  let sd := decide (s.rd (K.IN_STAT_MAPPING n) = 1)
  let u := if !sd ∧ ln ≠ line then s.count (K.IN_RUN n 3) 1 else s
  if !sd && !ok then crcCounted u n else u

theorem lineChecked_good : lineChecked s n.val line line true = s := by simp [lineChecked]

theorem lineChecked_number (hmap : s.rd (K.IN_STAT_MAPPING n.val) ≠ 1) (hln : ln ≠ line) :
    lineChecked s n.val line ln true = s.count (K.IN_RUN n.val 3) 1 := by simp [lineChecked, hmap, hln]

theorem lineChecked_crc (hmap : s.rd (K.IN_STAT_MAPPING n.val) ≠ 1) : lineChecked s n.val line line false = crcCounted s n.val := by
  simp [lineChecked, hmap]

/-- Lines of an input without a format are checked and go nowhere. -/
theorem rxLine_formatless {trs : Nat} {u : State} (h : 3 ≤ s.rd (K.IN_STAT_STATE n.val))
    (hu : lineChecked (s.trsLine n.val line trs off) n.val line ln ok = u) (hpair : u.primaryOf n.val = none)
    (hfmt : u.rd (H.linkFmt n.val) = 0) : exec (.rxLine n line trs off ln ok px) s = .next u := by
  show execRxLine n line trs off ln ok px s = _
  have hst : ¬ s.rd (K.IN_STAT_STATE n.val) < 3 := Nat.not_lt.mpr h
  delta lineChecked crcCounted at hu
  simp only [Bool.not_eq_true', decide_eq_false_iff_not] at hu
  simp only [execRxLine, hst, if_false, Bool.not_eq_true', decide_eq_false_iff_not, hu, hpair, hfmt, true_or, if_true]
  split <;> rfl

/-! ## Samples (R138, R139) -/

/-- What a line of samples becomes (R138, R139). -/
def lineGot (s : State) (n : Nat) (px : List Nat) : List Pix :=
  if s.rd (K.IN_STAT_SAMPLING n) = 0 then widen422 (s.rd (K.IN_CFG_KEY_INPUT n) == 1) px else widen444 (s.rd (K.IN_CFG_KEY_INPUT n) == 1) px

/-- The field a line of format c lies in. -/
def lineField (c line : Nat) : Nat := if 2 ≤ (activeLines c).length ∧ ((activeLines c).getD 1 (0, 0)).1 ≤ line then 1 else 0

/-- The line in use, of an input, and its key row. -/
def lineUsed (s : State) (n f row : Nat) (words : List Nat) : State :=
  let u := (s.setVec (H.rxLine n) words).setVec (H.rxAct (2 * n + f)) words
  if s.rd (K.IN_CFG_KEY_INPUT n) == 1 then u.setVec (H.keyRow (n * 8192 + row)) words else u

/-- Where a good line goes. -/
def lineTaken (u : State) (n line : Nat) (px : List Nat) : Host.Outcome State Fault Refusal :=
  let c := u.rd (H.linkFmt n) - 1
  match lineRow c line with
  | none => .next u
  | some row =>
    if u.rd (H.linkFmt n) = 0 ∨ c = 0xFF then .next u
    else .next ((lineUsed u n (lineField c line) row ((lineGot u n px).map Pix.word)).ringLine n row (lineGot u n px))

section
variable (h : 3 ≤ s.rd (K.IN_STAT_STATE n.val))
include h

/-- A good line shows its TRS, fails no pair and goes where its input's format puts it. -/
theorem rxLine_good : exec (.rxLine n line 0 off line true px) s = lineTaken (trsShown s n.val) n.val line px := by
  show execRxLine n line 0 off line true px s = _
  have hst : ¬ s.rd (K.IN_STAT_STATE n.val) < 3 := Nat.not_lt.mpr h
  simp only [execRxLine, hst, if_false, trsLine_right, ne_eq, not_true_eq_false, and_false, Bool.not_true, Bool.and_false, Bool.false_eq_true, false_and]
  cases (trsShown s n.val).primaryOf n.val <;> rfl

theorem rxLine_good_formatless (hfmt : (trsShown s n.val).rd (H.linkFmt n.val) = 0) :
    exec (.rxLine n line 0 off line true px) s = .next (trsShown s n.val) := by
  rw [rxLine_good h, lineTaken]
  cases lineRow ((trsShown s n.val).rd (H.linkFmt n.val) - 1) line with
  | none => rfl
  | some row => exact if_pos (.inl hfmt)

theorem rxLine_good_stored {c row : Nat} (hfmt : (trsShown s n.val).rd (H.linkFmt n.val) = c + 1) (hc : c ≠ 0xFF) (hrow : lineRow c line = some row) :
    exec (.rxLine n line 0 off line true px) s = .next ((lineUsed (trsShown s n.val) n.val (lineField c line) row
      ((lineGot (trsShown s n.val) n.val px).map Pix.word)).ringLine n.val row (lineGot (trsShown s n.val) n.val px)) := by
  rw [rxLine_good h, lineTaken, hfmt, Nat.add_sub_cancel, hrow]
  exact if_neg (by omega)

end

/-! ## What the checks of a line leave -/

/-- What the checks of a line may change. -/
def lineKeys (n : Nat) : List Nat :=
  [H.trsAt n, H.trsRun n, H.crcFrame n] ++ trsKeys n ++ countKeys (K.IN_RUN n 3) ++ countKeys (K.IN_RUN n 4) ++
    [H.limCnt (2100 + n), H.limLast (2100 + n)]

theorem trsShown_regs : RegsKept [H.trsAt n.val, H.trsRun n.val] s (trsShown s n.val) :=
  ((Touches.wr s (H.trsAt n.val) s.now).trans (.wr _ (H.trsRun n.val) 0)).regs

/-- No check of a line writes an object that is no counter. -/
theorem plainObj_not_lineKeys {k : Nat} (hk : PlainObj k) : k ∉ lineKeys n.val := by
  rw [PlainObj] at hk
  simp only [lineKeys, trsKeys, countKeys, K.IN_RUN, K.at', H.trsAt, H.trsRun, H.crcFrame, H.limCnt, H.limLast, H.cntWas, H.cntAt, H.hk,
    List.mem_append, List.mem_cons, List.not_mem_nil, or_false]
  omega

/-- A hidden register of an input that no check of a line writes. -/
theorem hidden_not_lineKeys {c i : Nat} (hc : 7 ≤ c ∧ c < 303 ∧ c ≠ 116 ∧ c ≠ 118 ∧ c ≠ 119) (hi : i < 2 ^ 24) :
    H.hk c i ∉ lineKeys n.val := by
  simp only [lineKeys, trsKeys, countKeys, K.IN_RUN, K.at', H.trsAt, H.trsRun, H.crcFrame, H.limCnt, H.limLast, H.cntWas, H.cntAt, H.hk,
    List.mem_append, List.mem_cons, List.not_mem_nil, or_false]
  omega

section
variable {u : State} (hkept : RegsKept (lineKeys n.val) s u)
include hkept

theorem lineKeys_linkFmt : u.rd (H.linkFmt n.val) = s.rd (H.linkFmt n.val) := hkept _ (hidden_not_lineKeys (by omega) (by omega))

theorem lineKeys_primaryOf : u.primaryOf n.val = s.primaryOf n.val := primaryOf_congr n.isLt (fun _ hk => hkept _ (plainObj_not_lineKeys hk))

theorem lineKeys_ringOf : u.ringOf n.val = s.ringOf n.val :=
  ringOf_congr n.isLt (fun _ hk => hkept _ (plainObj_not_lineKeys hk)) (fun _ _ => hkept _ (hidden_not_lineKeys (by omega) (by omega)))

theorem lineKeys_lineGot : lineGot u n.val px = lineGot s n.val px := by
  rw [lineGot, lineGot, hkept _ (plainObj_not_lineKeys (plainObj_of (k := K.IN_STAT_SAMPLING n.val) rfl (by omega) (by omega) (by omega))),
    hkept _ (plainObj_not_lineKeys (plainObj_of (k := K.IN_CFG_KEY_INPUT n.val) rfl (by omega) (by omega) (by omega)))]

end

theorem crcCounted_regs : RegsKept (lineKeys n.val) s (crcCounted s n.val) := by
  intro k hk
  simp only [lineKeys, List.mem_append, List.mem_cons, List.not_mem_nil, or_false, not_or] at hk
  obtain ⟨⟨⟨⟨⟨-, -, hcrc⟩, -⟩, -⟩, hcount⟩, hcnt, hlast⟩ := hk
  rw [crcCounted, State.inc, State.up, State.rd_wr_ne _ _ hcrc, raiseLim_rd _ _ _ _ _ hcnt hlast, count_touches.regs k hcount]

theorem trsShown_kept : RegsKept (lineKeys n.val) s (trsShown s n.val) :=
  fun k hk => trsShown_regs k (fun hmem => hk (by
    simp only [List.mem_cons, List.not_mem_nil, or_false] at hmem
    obtain rfl | rfl := hmem <;> simp [lineKeys]))

theorem trsCounted_kept : RegsKept (lineKeys n.val) s (trsCounted s n.val) := fun k hk => trsCounted_regs k (fun hmem => hk (by simp [lineKeys, hmem]))

theorem trsAt_kept (v : Nat) : RegsKept (lineKeys n.val) s (s.wr (H.trsAt n.val) v) :=
  fun _ hk => State.rd_wr_ne _ _ (fun heq => hk (by simp [lineKeys, heq]))

theorem trsRun_kept (t : State) (v : Nat) : RegsKept (lineKeys n.val) t (t.wr (H.trsRun n.val) v) :=
  fun _ hk => State.rd_wr_ne _ _ (fun heq => hk (by simp [lineKeys, heq]))

theorem run_lt {j : Nat} (hj : j < 256) : K.IN_RUN n.val j < 2 ^ 24 := by
  simp only [K.IN_RUN, K.at']
  omega

theorem trsShown_run {j : Nat} (hj : j < 256) : (trsShown s n.val).rd (K.IN_RUN n.val j) = s.rd (K.IN_RUN n.val j) := by
  have hat : K.IN_RUN n.val j ≠ H.trsAt n.val := keys_ne rfl rfl (by omega)
  have hrun : K.IN_RUN n.val j ≠ H.trsRun n.val := keys_ne rfl rfl (by omega)
  exact trsShown_regs _ (by simp [hat, hrun])

theorem trsShown_mapping : (trsShown s n.val).rd (K.IN_STAT_MAPPING n.val) = s.rd (K.IN_STAT_MAPPING n.val) :=
  trsShown_kept _ (plainObj_not_lineKeys (plainObj_of rfl (by omega) (by omega) (by omega)))

theorem run_ne {i j : Nat} (_ : i ≠ j) : K.IN_RUN n.val i ≠ K.IN_RUN n.val j := by
  simp only [K.IN_RUN, K.at']
  omega

theorem run_not_trsKeys {j : Nat} (hj : j < 256) (h2 : j ≠ 2) : K.IN_RUN n.val j ∉ trsKeys n.val := by
  simp (disch := (refine keys_ne rfl rfl ?_; omega)) [trsKeys, countKeys, eq_false_of_keys_ne]

theorem trsAt_not_trsKeys : H.trsAt n.val ∉ trsKeys n.val := by
  simp (disch := (refine keys_ne rfl rfl ?_; omega)) [trsKeys, countKeys, eq_false_of_keys_ne]

/-- What two steps leave each, both leave. -/
theorem regsKept_trans {ks : List Nat} {t u : State} (h : RegsKept ks s t) (h' : RegsKept ks t u) : RegsKept ks s u :=
  fun k hk => (h' k hk).trans (h k hk)

/-- A register that neither a wrong TRS nor the flywheel's run of moved ones writes. -/
theorem wrongTrs_rd {k : Nat} (hk : k ∉ trsKeys n.val) (hrun : k ≠ H.trsRun n.val) (t : State) :
    ((trsCounted t n.val).wr (H.trsRun n.val) 0).rd k = t.rd k := (State.rd_wr_ne _ _ hrun).trans (trsCounted_regs k hk)

/-! ## A line of an input without a format -/

theorem rxLine_unaligned {trs : Nat} (h : s.rd (K.IN_STAT_STATE n.val) < 3) : Idles (.rxLine n line trs off ln ok px) s := if_pos h

section
variable (h : 3 ≤ s.rd (K.IN_STAT_STATE n.val)) (hfmt : s.rd (H.linkFmt n.val) = 0)
include h hfmt

theorem rxLine_shows : Does (.rxLine n line 0 off line true px) s [(H.trsAt n.val, s.now), (H.trsRun n.val, 0)] [] := by
  have hne : H.trsAt n.val ≠ H.trsRun n.val := keys_ne rfl rfl (by omega)
  exact does_of_wrs (rxLine_good_formatless h ((lineKeys_linkFmt trsShown_kept).trans hfmt)) (by simpa using hne)

section
variable (hpair : s.primaryOf n.val = none)
include hpair

/-- The checks are all that happens. -/
theorem rxLine_ends {trs : Nat} {u : State} (hu : lineChecked (s.trsLine n.val line trs off) n.val line ln ok = u)
    (hkept : RegsKept (lineKeys n.val) s u) : exec (.rxLine n line trs off ln ok px) s = .next u :=
  rxLine_formatless h hu ((lineKeys_primaryOf hkept).trans hpair) ((lineKeys_linkFmt hkept).trans hfmt)

theorem rxLine_wrongNumber (hmap : s.rd (K.IN_STAT_MAPPING n.val) ≠ 1) (hln : ln ≠ line) : Ends (.rxLine n line 0 off ln true px) s (fun t =>
    t.rd (K.IN_RUN n.val 3) = min (s.rd (K.IN_RUN n.val 3) + 1) 0xFFFFFFFF ∧ t.rd (K.IN_RUN n.val 2) = s.rd (K.IN_RUN n.val 2) ∧
    t.rd (K.IN_RUN n.val 4) = s.rd (K.IN_RUN n.val 4)) := by
  have hshown (j : Nat) (hj : j < 256) : (trsShown s n.val).rd (K.IN_RUN n.val j) = s.rd (K.IN_RUN n.val j) := trsShown_run hj
  have hcounted : RegsKept (lineKeys n.val) (trsShown s n.val) ((trsShown s n.val).count (K.IN_RUN n.val 3) 1) :=
    fun k hk => count_touches.regs k (fun hmem => hk (by simp [lineKeys, hmem]))
  refine ⟨_, rxLine_ends h hfmt hpair (lineChecked_number (s := trsShown s n.val) (by rwa [trsShown_mapping]) hln)
    (regsKept_trans trsShown_kept hcounted), ?_, ?_, ?_⟩
  · rw [count_rd_self (run_lt (by decide)), hshown 3 (by decide)]
  · rw [count_rd_obj (run_lt (j := 2) (by decide)) (run_ne (by decide)), hshown 2 (by decide)]
  · rw [count_rd_obj (run_lt (j := 4) (by decide)) (run_ne (by decide)), hshown 4 (by decide)]

theorem rxLine_wrongCrc (hmap : s.rd (K.IN_STAT_MAPPING n.val) ≠ 1) : Ends (.rxLine n line 0 off line false px) s (fun t =>
    t.rd (K.IN_RUN n.val 4) = min (s.rd (K.IN_RUN n.val 4) + 1) 0xFFFFFFFF ∧ t.rd (K.IN_RUN n.val 2) = s.rd (K.IN_RUN n.val 2) ∧
    t.rd (K.IN_RUN n.val 3) = s.rd (K.IN_RUN n.val 3)) := by
  have hcrc (j : Nat) (hj : j < 256) : K.IN_RUN n.val j ≠ H.crcFrame n.val := keys_ne rfl rfl (by omega)
  refine ⟨_, rxLine_ends h hfmt hpair (lineChecked_crc (s := trsShown s n.val) (by rwa [trsShown_mapping]))
    (regsKept_trans trsShown_kept crcCounted_regs), ?_, ?_, ?_⟩
  · rw [crcCounted, State.inc, State.up, State.rd_wr_ne _ _ (hcrc 4 (by decide)), raiseLim_rd_obj (run_lt (by decide)),
      count_rd_self (run_lt (by decide)), trsShown_run (by decide)]
  · rw [crcCounted, State.inc, State.up, State.rd_wr_ne _ _ (hcrc 2 (by decide)), raiseLim_rd_obj (run_lt (by decide)),
      count_rd_obj (run_lt (j := 2) (by decide)) (run_ne (by decide)), trsShown_run (by decide)]
  · rw [crcCounted, State.inc, State.up, State.rd_wr_ne _ _ (hcrc 3 (by decide)), raiseLim_rd_obj (run_lt (by decide)),
      count_rd_obj (run_lt (j := 3) (by decide)) (run_ne (by decide)), trsShown_run (by decide)]

theorem rxLine_noTrs {e v : Nat} (h1 : 1 ≤ e) (h2 : e ≤ 2) (h3 : 1 ≤ v) (h4 : v ≤ 2) : Ends (.rxLine n line (e + 4 * v) off line true px) s (fun t =>
    t.rd (K.IN_RUN n.val 2) = min (s.rd (K.IN_RUN n.val 2) + 2) 0xFFFFFFFF ∧ t.rd (K.IN_RUN n.val 3) = s.rd (K.IN_RUN n.val 3) ∧
    t.rd (H.trsAt n.val) = s.rd (H.trsAt n.val)) := by
  have hrun (j : Nat) (hj : j < 256) : K.IN_RUN n.val j ≠ H.trsRun n.val := keys_ne rfl rfl (by omega)
  refine ⟨_, rxLine_ends h hfmt hpair (lineChecked_good.trans (trsLine_none h1 h2 h3 h4)) (regsKept_trans trsCounted_kept
    (regsKept_trans trsCounted_kept (trsRun_kept _ _))), ?_, ?_, ?_⟩
  · rw [State.rd_wr_ne _ _ (hrun 2 (by decide)), trsCounted_rd_run, trsCounted_rd_run]
    omega
  · have hkey : K.IN_RUN n.val 3 ∉ trsKeys n.val := run_not_trsKeys (by decide) (by decide)
    rw [wrongTrs_rd hkey (hrun 3 (by decide)), trsCounted_regs _ hkey]
  · rw [wrongTrs_rd trsAt_not_trsKeys (keys_ne rfl rfl (by omega)), trsCounted_regs _ trsAt_not_trsKeys]

theorem rxLine_oneTrs {e : Nat} (h1 : 1 ≤ e) (h2 : e ≤ 2) : Ends (.rxLine n line e off line true px) s (fun t =>
    t.rd (K.IN_RUN n.val 2) = min (s.rd (K.IN_RUN n.val 2) + 1) 0xFFFFFFFF ∧ t.rd (K.IN_RUN n.val 3) = s.rd (K.IN_RUN n.val 3) ∧
    t.rd (K.IN_RUN n.val 4) = s.rd (K.IN_RUN n.val 4) ∧ t.rd (H.trsAt n.val) = s.now) := by
  have hrun (j : Nat) (hj : j < 256) : K.IN_RUN n.val j ≠ H.trsRun n.val := keys_ne rfl rfl (by omega)
  have hat (j : Nat) (hj : j < 256) : K.IN_RUN n.val j ≠ H.trsAt n.val := keys_ne rfl rfl (by omega)
  have hother {j : Nat} (hj : j < 256) (h2 : j ≠ 2) :
      ((trsCounted (s.wr (H.trsAt n.val) s.now) n.val).wr (H.trsRun n.val) 0).rd (K.IN_RUN n.val j) = s.rd (K.IN_RUN n.val j) := by
    rw [wrongTrs_rd (run_not_trsKeys hj h2) (hrun j hj), State.rd_wr_ne _ _ (hat j hj)]
  refine ⟨_, rxLine_ends h hfmt hpair (lineChecked_good.trans (trsLine_half h1 h2)) (regsKept_trans (trsAt_kept _)
    (regsKept_trans trsCounted_kept (trsRun_kept _ _))), ?_, hother (by decide) (by decide), hother (by decide) (by decide), ?_⟩
  · rw [State.rd_wr_ne _ _ (hrun 2 (by decide)), trsCounted_rd_run, State.rd_wr_ne _ _ (hat 2 (by decide))]
  · rw [wrongTrs_rd trsAt_not_trsKeys (keys_ne rfl rfl (by omega)), State.rd_wr_self]

end
end

/-! ## A line of an input with a format -/

theorem ringLine_none {row : Nat} {l : List Pix} (h : s.ringOf n.val = none) : s.ringLine n.val row l = s := by rw [State.ringLine, h]

theorem lineUsed_rd (f row k : Nat) (words : List Nat) : (lineUsed s n.val f row words).rd k = s.rd k := by
  rw [lineUsed]
  split <;> rfl

theorem lineUsed_rdMem (f row a : Nat) (words : List Nat) : (lineUsed s n.val f row words).rdMem a = s.rdMem a := by
  rw [lineUsed]
  split <;> rfl

theorem lineUsed_vec (f row : Nat) (_ : f ≤ 1) (words : List Nat) : (lineUsed s n.val f row words).vec (H.rxAct (2 * n.val + f)) = words := by
  have hkey : H.rxAct (2 * n.val + f) ≠ H.keyRow (n.val * 8192 + row) := keys_ne rfl rfl (by omega)
  rw [lineUsed]
  split
  · rw [State.vec_setVec_ne _ _ hkey, State.vec_setVec_self]
  · rw [State.vec_setVec_self]

theorem lineField_le (c : Nat) : lineField c line ≤ 1 := by
  rw [lineField]
  split <;> omega

/-- The key row is stored where the input is a key when the line arrives: showing its TRS does not change that. -/
theorem lineUsed_trsShown (f row : Nat) (words : List Nat) : lineUsed (trsShown s n.val) n.val f row words =
    let u := ((trsShown s n.val).setVec (H.rxLine n.val) words).setVec (H.rxAct (2 * n.val + f)) words
    if s.rd (K.IN_CFG_KEY_INPUT n.val) == 1 then u.setVec (H.keyRow (n.val * 8192 + row)) words else u := by
  rw [lineUsed, trsShown_kept _ (plainObj_not_lineKeys (plainObj_of (k := K.IN_CFG_KEY_INPUT n.val) rfl (by omega) (by omega) (by omega)))]

/-- A good line of an input with a format. -/
theorem rxLine_stored {c row : Nat} (h : 3 ≤ s.rd (K.IN_STAT_STATE n.val)) (hfmt : s.rd (H.linkFmt n.val) = c + 1) (hc : c ≠ 0xFF)
    (hrow : lineRow c line = some row) : exec (.rxLine n line 0 off line true px) s = .next ((lineUsed (trsShown s n.val) n.val (lineField c line) row
      ((lineGot s n.val px).map Pix.word)).ringLine n.val row (lineGot s n.val px)) := by
  rw [rxLine_good_stored h ((lineKeys_linkFmt trsShown_kept).trans hfmt) hc hrow, lineKeys_lineGot trsShown_kept]

/-- An input whose ring is nowhere has none after its line was taken in use either. -/
theorem lineUsed_ringOf (f row : Nat) (words : List Nat) (h : s.ringOf n.val = none) :
    (lineUsed (trsShown s n.val) n.val f row words).ringOf n.val = none :=
  (ringOf_congr n.isLt (fun _ _ => lineUsed_rd ..) (fun _ _ => lineUsed_rd ..)).trans ((lineKeys_ringOf trsShown_kept).trans h)

/-- Settles O39: the lines of an input without a format are the checks of rxLine_ends; a line of a format is stored as rxLine_stored says. -/
theorem receivedLines : Obligations.ReceivedLines := by
  intro n s line ln off px m up keyIn got
  refine ⟨fun trs ok h => rxLine_unaligned h, fun h hfmt => rxLine_shows h hfmt, fun h hfmt hmap hpair => ⟨rxLine_wrongNumber h hfmt hpair hmap,
    rxLine_wrongCrc h hfmt hpair hmap, fun e v h1 h2 h3 h4 => rxLine_noTrs h hfmt hpair h1 h2 h3 h4, fun e h1 h2 => rxLine_oneTrs h hfmt hpair h1 h2⟩,
    fun c row h hfmt hc hrow => ?_⟩
  intro f words u
  have hstored := rxLine_stored (off := off) (px := px) h hfmt hc hrow
  refine ⟨hstored.trans (congrArg (fun x => Host.Outcome.next (State.ringLine x m row got)) (lineUsed_trsShown ..)), fun hring => ?_⟩
  rw [ringLine_none (lineUsed_ringOf _ _ _ hring)] at hstored
  exact ⟨_, hstored, fun a => lineUsed_rdMem .., lineUsed_vec _ _ (lineField_le c) _⟩

end
end Sys2Proof
end

section
/-! ReceiverFindsItsRate: a receiver searches, locks, aligns and falls back (R135, R153, R154). -/
namespace Sys2Proof

open Machine

/-! ## Registers and events alone -/

/-- The registers of t are those s has after the writes of l, and exactly the events ev were raised. -/
structure Writ (l : List (Nat × Nat)) (ev : List (Nat × Nat × Nat × Nat)) (s t : State) : Prop where
  regs : t.reg = (s.wrs l).reg
  events : raisedOf t = raisedOf s ++ ev

theorem wrs_reg_congr {t u : State} (l : List (Nat × Nat)) (h : t.reg = u.reg) : (t.wrs l).reg = (u.wrs l).reg := by
  induction l generalizing t u with
  | nil => exact h
  | cons p l ih => exact ih (by simp only [State.wr, h])

theorem rd_of_reg {t u : State} (h : t.reg = u.reg) (k : Nat) : t.rd k = u.rd k := by rw [State.rd, State.rd, h]

namespace Writ

variable {l l' : List (Nat × Nat)} {ev ev' : List (Nat × Nat × Nat × Nat)} {s t u : State}

theorem wrs (s : State) (l : List (Nat × Nat)) : Writ l [] s (s.wrs l) := ⟨rfl, (Touches.wrs s l).events⟩

theorem setVec (s : State) (k : Nat) (v : List Nat) : Writ [] [] s (s.setVec k v) := ⟨rfl, (Touches.setVec s k v).events⟩

theorem raise (s : State) (code src a1 a2 : Nat) : Writ [] [(code, src, a1 % 2 ^ 32, a2 % 2 ^ 32)] s (s.raise code src a1 a2) :=
  ⟨rfl, (Touches.raise s code src a1 a2).events⟩

theorem trans (h : Writ l ev s t) (h' : Writ l' ev' t u) : Writ (l ++ l') (ev ++ ev') s u where
  regs := by rw [h'.regs, ← wrs_wrs, wrs_reg_congr l' h.regs]
  events := by rw [h'.events, h.events, List.append_assoc]

theorem rd (h : Writ l ev s t) (k : Nat) : t.rd k = (s.wrs l).rd k := rd_of_reg h.regs k

theorem rd_ne (h : Writ l ev s t) {k : Nat} (hk : k ∉ l.map Prod.fst) : t.rd k = s.rd k := (h.rd k).trans ((Touches.wrs s l).regs k hk)

theorem rd_mem (h : Writ l ev s t) (hl : (l.map Prod.fst).Nodup) {p : Nat × Nat} (hp : p ∈ l) : t.rd p.1 = p.2 :=
  (h.rd p.1).trans (rd_wrs_of_mem hl hp s)

theorem touches (h : Writ l ev s t) : Touches (l.map Prod.fst) ev s t := ⟨fun _ hk => h.rd_ne hk, h.events⟩

/-- A command that writes the registers of w, each once and in some order. -/
theorem changes (h : Writ l ev s t) {c : Instr} {w : List (Nat × Nat)} (hex : exec c s = .next t) (hc : keepsStores c = true)
    (hw : w.Perm l) (hnd : (w.map Prod.fst).Nodup) : Changes c s w [] ev := by
  have hl : (l.map Prod.fst).Nodup := (hw.map Prod.fst).nodup_iff.mp hnd
  refine changes_of_touches hex hc (fun p hp => h.rd_mem hl (hw.subset hp)) ?_
  exact h.touches.mono (fun k hk => by rw [List.append_nil]; exact (hw.map Prod.fst).symm.subset hk)

end Writ

section
variable {s : State} {n : Fin 48}

/-! ## Moving below VALID -/

/-- What reads 0 where nothing is measured (R154). -/
def unmeasured (n : Nat) : List (Nat × Nat) :=
  [(K.IN_STAT_MAPPING n, 0), (K.IN_STAT_LINES n, 0), (K.IN_STAT_SAMPLES n, 0), (H.linkFmt n, 0), (H.linkAt n, 0), (H.measPs n, 0),
    (K.IN_PID_VALID n, 0), (K.IN_PID_MISMATCH n, 0)]

/-- What a move to a state writes. -/
def moveRegs (n new : Nat) : List (Nat × Nat) :=
  (K.IN_STAT_STATE n, new) :: (if new < 2 then [(K.IN_STAT_RATE n, 0)] else []) ++ if new < 3 then unmeasured n else []

/-- The event of a move. -/
def moveEvent (n old new : Nat) : Nat × Nat × Nat × Nat := (0x2001, inIdx n, n, old * 256 + new)

/-- The move before anything is torn down that a VALID input had. -/
def movedTo (s : State) (n new : Nat) : State :=
  let s := (s.wr (K.IN_STAT_STATE n) new).raise 0x2001 (inIdx n) n (s.rd (K.IN_STAT_STATE n) * 256 + new)
  let s : State := if new < 2 then s.wr (K.IN_STAT_RATE n) 0 else s
  if new < 3 then ((s.wrs (unmeasured n)).setVec (H.meas n) []).setVec (H.measOk n) [] else s

/-- A VALID input loses its format and its phases (R135). -/
def unformatted (s : State) (n : Nat) : State :=
  (s.wrs [(K.IN_STAT_FORMAT n, 0), (H.validAt n, 0), (H.ringLive n, 0)]).upto 8
    (fun g t => (t.clr (K.IN_TIMING_PHASE n g)).setVec (H.phaseHist (8 * n + g)) [])

/-- The teardown of a VALID input (R135, R148, R153). -/
def unvalid (s : State) (n : Nat) : State := (((unformatted s n).refLose n).brFails n 0).readersCheck n

theorem inMove_of_ne {new : Nat} (hne : s.rd (K.IN_STAT_STATE n.val) ≠ new) :
    s.inMove n.val new = if s.rd (K.IN_STAT_STATE n.val) = 4 then unvalid (movedTo s n.val new) n.val else movedTo s n.val new := if_neg hne

theorem inMove_low {new : Nat} (hne : s.rd (K.IN_STAT_STATE n.val) ≠ new) (h4 : s.rd (K.IN_STAT_STATE n.val) ≠ 4) :
    s.inMove n.val new = movedTo s n.val new := by rw [inMove_of_ne hne, if_neg h4]

theorem movedTo_writ {old new : Nat} (hold : s.rd (K.IN_STAT_STATE n.val) = old) (_ : old * 256 + new < 2 ^ 32) :
    Writ (moveRegs n.val new) [moveEvent n.val old new] s (movedTo s n.val new) := by
  have hn : n.val % 2 ^ 32 = n.val := Nat.mod_eq_of_lt (by omega)
  have harg : (old * 256 + new) % 2 ^ 32 = old * 256 + new := Nat.mod_eq_of_lt (by omega)
  have hmove := (Writ.wrs s [(K.IN_STAT_STATE n.val, new)]).trans (.raise _ 0x2001 (inIdx n.val) n.val (old * 256 + new))
  rw [hn, harg] at hmove
  rw [movedTo, hold, moveRegs]
  split <;> split
  · exact (hmove.trans (.wrs _ [(K.IN_STAT_RATE n.val, 0)])).trans (((Writ.wrs _ (unmeasured n.val)).trans (.setVec ..)).trans (.setVec ..))
  · omega
  · exact hmove.trans (((Writ.wrs _ (unmeasured n.val)).trans (.setVec ..)).trans (.setVec ..))
  · exact hmove

/-- A move of an input that is not VALID. -/
theorem inMove_writ {old new : Nat} (hold : s.rd (K.IN_STAT_STATE n.val) = old) (hne : old ≠ new) (_ : old < 4) (_ : new < 4) :
    Writ (moveRegs n.val new) [moveEvent n.val old new] s (s.inMove n.val new) := by
  rw [inMove_low (by omega) (by omega)]
  exact movedTo_writ hold (by omega)

/-- No move writes the mode of the input's quad. -/
theorem quadMode_not_moved (new : Nat) : K.IN_QUAD_MODE (4 * (n.val / 4)) ∉ (moveRegs n.val new).map Prod.fst := by
  rw [moveRegs]
  split <;> split <;> simp (disch := (refine keys_ne rfl rfl ?_; omega)) [unmeasured, eq_false_of_keys_ne]

/-- The writes of a fall in the order the statement lists them. -/
theorem perm_fall {X T C C' U : List (Nat × Nat)} (hC : C.Perm C') : (X ++ T ++ C ++ U).Perm (C' ++ (X ++ U) ++ T) := by
  rw [← Multiset.coe_eq_coe] at hC ⊢
  simp only [← Multiset.coe_add, hC]
  abel

/-- The registers a receiver writes when it falls back to the search, each once. -/
theorem fallKeys_nodup : (K.IN_STAT_STATE n.val :: K.IN_STAT_RATE n.val :: H.cdrTry n.val :: H.cdrAt n.val ::
    (countKeys (K.IN_RUN n.val 6) ++ (unmeasured n.val).map Prod.fst)).Nodup := by
  simp (disch := (refine keys_ne rfl rfl ?_; omega)) [countKeys, unmeasured, eq_false_of_keys_ne]

theorem nodup_of_sublist_fallKeys {w : List (Nat × Nat)} (h : (w.map Prod.fst).Sublist (K.IN_STAT_STATE n.val :: K.IN_STAT_RATE n.val :: H.cdrTry n.val ::
    H.cdrAt n.val :: (countKeys (K.IN_RUN n.val 6) ++ (unmeasured n.val).map Prod.fst))) : (w.map Prod.fst).Nodup := fallKeys_nodup.sublist h

theorem moveRegs_nodup : ((moveRegs n.val 0).map Prod.fst).Nodup := by
  refine nodup_of_sublist_fallKeys (n := n) ?_
  exact .cons_cons _ (.cons_cons _ (.cons _ (.cons _ (List.sublist_append_right ..))))

/-! ## Search and lock (R135) -/

theorem rxEnergyPresent_idle (h : s.rd (K.IN_STAT_STATE n.val) ≠ 0 ∨ s.funcReady (8 + n.val / 4) (n.val % 4) = false) : Idles (.rxEnergyPresent n) s :=
  if_neg (fun ⟨h0, hr⟩ => h.elim (absurd h0) (fun hf => absurd hr (by simp [hf])))

theorem rxEnergyPresent_starts (h0 : s.rd (K.IN_STAT_STATE n.val) = 0) (hr : s.funcReady (8 + n.val / 4) (n.val % 4) = true) :
    Changes (.rxEnergyPresent n) s ([(K.IN_STAT_STATE n.val, 1), (K.IN_STAT_RATE n.val, 0), (H.cdrTry n.val, 0), (H.cdrAt n.val, s.now)] ++
      unmeasured n.val) [] [moveEvent n.val 0 1] := by
  have hmove := inMove_writ h0 (new := 1) (by decide) (by decide) (by decide)
  have hex : exec (.rxEnergyPresent n) s = .next ((s.inMove n.val 1).wrs [(H.cdrTry n.val, 0), (H.cdrAt n.val, s.now)]) := if_pos ⟨h0, hr⟩
  refine (hmove.trans (.wrs _ _)).changes hex rfl (.cons _ (.cons _ List.perm_append_comm)) (nodup_of_sublist_fallKeys (n := n) ?_)
  exact .cons_cons _ (.cons_cons _ (.cons_cons _ (.cons_cons _ (List.sublist_append_right ..))))

theorem cdrLock_idle {rate : Nat} (h : s.rd (K.IN_STAT_STATE n.val) ≠ 1 ∨ rate = 0 ∨ 9 < rate ∨ rateClassOf rate ≠ s.tries n.val) :
    Idles (.cdrLock n rate) s := if_neg (by omega)

theorem cdrLock_locks {rate : Nat} (h1 : s.rd (K.IN_STAT_STATE n.val) = 1) (hlo : 1 ≤ rate) (hhi : rate ≤ 9) (htry : rateClassOf rate = s.tries n.val) :
    Changes (.cdrLock n rate) s ([(K.IN_STAT_STATE n.val, 2), (K.IN_STAT_RATE n.val, rate)] ++ unmeasured n.val) [] [moveEvent n.val 1 2] := by
  have hex : exec (.cdrLock n rate) s = .next ((s.inMove n.val 2).wrs [(K.IN_STAT_RATE n.val, rate)]) := if_pos ⟨h1, hlo, hhi, htry⟩
  refine ((inMove_writ h1 (by decide) (by decide) (by decide)).trans (.wrs _ _)).changes hex rfl
    (.cons _ (List.perm_append_comm (l₁ := [(K.IN_STAT_RATE n.val, rate)]))) (nodup_of_sublist_fallKeys (n := n) ?_)
  exact .cons_cons _ (.cons_cons _ (.cons _ (.cons _ (List.sublist_append_right ..))))

theorem cdrDwellExpiry_tries (h : s.rd (K.IN_STAT_STATE n.val) = 1 ∧ s.rd (K.IN_CFG_RATE_MODE n.val) = 0 ∧ s.rd (H.cdrAt n.val) + 2000 ≤ s.now) :
    Does (.cdrDwellExpiry n) s [(H.cdrTry n.val, (s.rd (H.cdrTry n.val) + 1) % 5), (H.cdrAt n.val, s.now)] [] := by
  have hne : H.cdrTry n.val ≠ H.cdrAt n.val := keys_ne rfl rfl (by omega)
  exact does_of_wrs (if_pos h) (by simpa using hne)

/-! ## Alignment (R135, R154) -/

theorem trsAligned_aligns (mapping lines samples : Nat) (h2 : s.rd (K.IN_STAT_STATE n.val) = 2) : Does (.trsAligned n mapping lines samples) s
    [(K.IN_STAT_STATE n.val, 3), (K.IN_STAT_MAPPING n.val, mapping % 256), (K.IN_STAT_LINES n.val, lines % 65536),
      (K.IN_STAT_SAMPLES n.val, samples % 65536), (H.trsAt n.val, s.now), (H.trsRun n.val, 0)] [moveEvent n.val 2 3] := by
  let l := [(K.IN_STAT_MAPPING n.val, mapping % 256), (K.IN_STAT_LINES n.val, lines % 65536), (K.IN_STAT_SAMPLES n.val, samples % 65536),
    (H.trsAt n.val, s.now), (H.trsRun n.val, 0)]
  have hex : exec (.trsAligned n mapping lines samples) s = .next ((s.inMove n.val 3).wrs l) := if_neg (not_not_intro h2)
  have hmove : Writ ((K.IN_STAT_STATE n.val, 3) :: l) [moveEvent n.val 2 3] s ((s.inMove n.val 3).wrs l) :=
    (inMove_writ h2 (by decide) (by decide) (by decide)).trans (.wrs _ l)
  have hnd : (((K.IN_STAT_STATE n.val, 3) :: l).map Prod.fst).Nodup := by
    simp (disch := (refine keys_ne rfl rfl ?_; omega)) [l, eq_false_of_keys_ne]
  have honly : OnlyRegisters s (s.inMove n.val 3) := by
    rw [inMove_low (by omega) (by omega)]
    exact ((onlyRegisters_refl s).wr ..).raise ..
  exact ⟨_, hex, fun p hp => hmove.rd_mem hnd hp, hmove.touches.regs, hmove.events, State.wrs_keeps (fun _ _ _ h => h.wr _ _) l honly⟩

/-! ## Falling back outside a quad (R135) -/

section
variable (hq : s.rd (K.IN_QUAD_MODE (4 * (n.val / 4))) = 0)
include hq

/-- Outside a quad no other input follows. -/
theorem inDown_writ {old new : Nat} (hold : s.rd (K.IN_STAT_STATE n.val) = old) (hne : old ≠ new) (h4 : old < 4) (h4' : new < 4) :
    Writ (moveRegs n.val new) [moveEvent n.val old new] s (s.inDown n.val new) := by
  have hmove := inMove_writ hold hne h4 h4'
  have hquad : (s.inMove n.val new).rd (K.IN_QUAD_MODE (4 * (n.val / 4))) = 0 := (hmove.rd_ne (quadMode_not_moved new)).trans hq
  rw [State.inDown, if_neg (not_not_intro hquad)]
  exact hmove

/-- What a receiver counts that unlocks. -/
def unlockCount (s : State) (n : Nat) : List (Nat × Nat) :=
  [(H.cntWas (K.IN_RUN n 6), s.runWas (K.IN_RUN n 6)), (H.cntAt (K.IN_RUN n 6), s.now + 1), (K.IN_RUN n 6, min (s.rd (K.IN_RUN n 6) + 1) 0xFFFFFFFF)]

/-- What it writes. -/
def unlockRegs (s : State) (n : Nat) : List (Nat × Nat) := unlockCount s n ++ moveRegs n 1 ++ [(H.cdrTry n, 0), (H.cdrAt n, s.now)]

theorem cdrUnlock_writ {old : Nat} (hold : s.rd (K.IN_STAT_STATE n.val) = old) (_ : old = 2 ∨ old = 3) :
    Writ (unlockRegs s n.val) [moveEvent n.val old 1] s (s.cdrUnlock n.val) := by
  have hcount := Writ.wrs s (unlockCount s n.val)
  have hst := hcount.rd_ne (k := K.IN_STAT_STATE n.val) (by
    simp (disch := (refine keys_ne rfl rfl ?_; omega)) [unlockCount, eq_false_of_keys_ne])
  have hquad := hcount.rd_ne (k := K.IN_QUAD_MODE (4 * (n.val / 4))) (by
    simp (disch := (refine keys_ne rfl rfl ?_; omega)) [unlockCount, eq_false_of_keys_ne])
  rw [State.cdrUnlock, if_neg (by omega), count_eq_wrs (run_lt (by decide))]
  exact (hcount.trans (inDown_writ (hquad.trans hq) (hst.trans hold) (by omega) (by omega) (by decide))).trans (.wrs ..)

omit hq in
theorem unlockRegs_perm : ([(K.IN_STAT_STATE n.val, 1), (K.IN_STAT_RATE n.val, 0), (H.cdrTry n.val, 0), (H.cdrAt n.val, s.now)] ++
      [(K.IN_RUN n.val 6, min (s.rd (K.IN_RUN n.val 6) + 1) 0xFFFFFFFF), (H.cntWas (K.IN_RUN n.val 6), s.runWas (K.IN_RUN n.val 6)),
        (H.cntAt (K.IN_RUN n.val 6), s.now + 1)] ++ unmeasured n.val).Perm (unlockRegs s n.val) :=
  perm_fall (X := [(K.IN_STAT_STATE n.val, 1), (K.IN_STAT_RATE n.val, 0)]) (List.perm_append_comm (l₁ := [_]))

omit hq in
theorem unlockRegs_nodup : ((unlockRegs s n.val).map Prod.fst).Nodup := (unlockRegs_perm.map Prod.fst).nodup_iff.mp fallKeys_nodup

omit hq in
theorem warmPend_not_unlockRegs : H.warmPend ∉ (unlockRegs s n.val).map Prod.fst := by
  simp (disch := (refine keys_ne rfl rfl ?_; omega)) [unlockRegs, unlockCount, moveRegs, unmeasured, eq_false_of_keys_ne]

omit hq in
theorem rateMode_not_unlockRegs : K.IN_CFG_RATE_MODE n.val ∉ (unlockRegs s n.val).map Prod.fst := by
  simp (disch := (refine keys_ne rfl rfl ?_; omega)) [unlockRegs, unlockCount, moveRegs, unmeasured, eq_false_of_keys_ne]

theorem cdrUnlock_searches {old : Nat} (hold : s.rd (K.IN_STAT_STATE n.val) = old) (h23 : old = 2 ∨ old = 3) : Changes (.cdrUnlock n) s
    ([(K.IN_STAT_STATE n.val, 1), (K.IN_STAT_RATE n.val, 0), (H.cdrTry n.val, 0), (H.cdrAt n.val, s.now)] ++
      [(K.IN_RUN n.val 6, min (s.rd (K.IN_RUN n.val 6) + 1) 0xFFFFFFFF), (H.cntWas (K.IN_RUN n.val 6), s.runWas (K.IN_RUN n.val 6)),
        (H.cntAt (K.IN_RUN n.val 6), s.now + 1)] ++ unmeasured n.val) [] [moveEvent n.val old 1] :=
  (cdrUnlock_writ hq hold h23).changes rfl rfl unlockRegs_perm fallKeys_nodup

theorem rxEnergyLost_falls {old : Nat} (hold : s.rd (K.IN_STAT_STATE n.val) = old) (h1 : 1 ≤ old) (h3 : old ≤ 3) : Changes (.rxEnergyLost n) s
    ([(K.IN_STAT_STATE n.val, 0), (K.IN_STAT_RATE n.val, 0)] ++ unmeasured n.val) [] [moveEvent n.val old 0] := by
  have hmove : Writ (moveRegs n.val 0) [moveEvent n.val old 0] s (s.inDown n.val 0) := inDown_writ hq hold (by omega) (by omega) (by decide)
  refine hmove.changes rfl rfl (.refl _) moveRegs_nodup

theorem rxEnergyLost_idle (h0 : s.rd (K.IN_STAT_STATE n.val) = 0) : Idles (.rxEnergyLost n) s := by
  have hstay : s.inMove n.val 0 = s := if_pos h0
  refine congrArg Host.Outcome.next ?_
  rw [State.inDown, hstay, if_neg (not_not_intro hq)]

end

theorem cdrUnlock_idle (h : s.rd (K.IN_STAT_STATE n.val) < 2) : Idles (.cdrUnlock n) s := congrArg Host.Outcome.next (if_pos h)

/-! ## A written RATE_MODE (R135) -/

/-- An RW object whose write sets signal registers, each once. -/
theorem writes_rw {c : Instr} {q : Req} {i k : Nat} {f : State → State} {w : List (Nat × Nat)} (h : Serves s q i)
    (hex : exec c s = .next (wrote s q i k f)) (hf : f (arrived q i s) = (arrived q i s).wrs w) (hw : ∀ p ∈ w, SignalKey p.1)
    (hnd : (w.map Prod.fst).Nodup) : Writes c s q i k w [] := by
  obtain ⟨r, hreg, hrd⟩ := wrote_wrs (k := k) h hf hw
  have hcfg : ¬ SignalKey K.IDENT_CFG_SEQ := fun hk => absurd hk.1 (by decide)
  have hne {p : Nat × Nat} (hp : p ∈ w) : p.1 ≠ K.IDENT_CFG_SEQ := fun heq => hcfg (heq ▸ hw p hp)
  refine ⟨_, hex, fun p hp => ?_, fun j hj => ?_, ?_, ?_⟩
  · rw [hrd, State.inc, State.up, State.rd_wr_ne _ _ (hne hp), rd_wrs_of_mem hnd hp]
  · rw [hrd, wrote_id (slot_le h.named), replied_rd]
    by_cases hc : j = K.IDENT_CFG_SEQ
    · rw [hc, State.inc, State.up, State.rd_wr_self, State.inc, State.up, State.rd_wr_self, rd_wrs_signal hw hcfg]
    · rw [State.inc, State.up, State.rd_wr_ne _ _ hc, (Touches.wrs _ _).regs j hj, State.inc, State.up, State.rd_wr_ne _ _ hc]
  · rw [hreg, List.append_nil]
    rfl
  · rw [hreg]
    exact ⟨⟨fun _ => rfl, fun _ => rfl, rfl, rfl, rfl, rfl⟩, fun _ => rfl, rfl, rfl, rfl, rfl, rfl, rfl, rfl, rfl, rfl, rfl⟩

/-- Where RATE_MODE of an input lies. -/
def rateLoc (n : Nat) : Loc := ⟨.inp, n, 1, 1, ⟨1, 1, 1, .u 1, .rw, 0, 2, 0, .rng 0 5⟩⟩

theorem locate_rate : ∀ n : Fin 48, locate (K.IN_CFG_RATE_MODE n.val) = some (rateLoc n.val) := by decide

/-- What a written RATE_MODE does. -/
def rateTaken (n v : Nat) (u : State) : State := (rateModeWrite n v u).s

theorem writeEffect_rate (n k v : Nat) (c : Wctx) (u : State) : writeEffect (rateLoc n) k v c u = ⟨0, 0, rateTaken n v u⟩ := by
  show rateModeWrite n v u = _
  rw [rateTaken, rateModeWrite]
  split
  · rfl
  · split <;> rfl

section
variable {u : State} {v : Nat}

/-- The STATE in which a written RATE_MODE acts. -/
theorem state_rateSet : (u.wr (K.IN_CFG_RATE_MODE n.val) v).rd (K.IN_STAT_STATE n.val) = u.rd (K.IN_STAT_STATE n.val) :=
  State.rd_wr_ne _ _ (keys_ne rfl rfl (by omega))

theorem rate_rateSet : (u.wr (K.IN_CFG_RATE_MODE n.val) v).rd (K.IN_STAT_RATE n.val) = u.rd (K.IN_STAT_RATE n.val) :=
  State.rd_wr_ne _ _ (keys_ne rfl rfl (by omega))

theorem rateTaken_off (h : u.rd (K.IN_STAT_STATE n.val) = 0) : rateTaken n.val v u = u.wrs [(K.IN_CFG_RATE_MODE n.val, v)] := by
  rw [rateTaken, rateModeWrite, state_rateSet, h, if_neg (by omega), if_neg (by omega)]
  rfl

theorem rateTaken_searching (h : u.rd (K.IN_STAT_STATE n.val) = 1) :
    rateTaken n.val v u = u.wrs [(K.IN_CFG_RATE_MODE n.val, v), (H.cdrTry n.val, 0), (H.cdrAt n.val, u.now)] := by
  have hnow : (u.wr (K.IN_CFG_RATE_MODE n.val) v).now = u.now := State.rd_wr_ne _ _ (keys_ne rfl rfl (by omega))
  rw [rateTaken, rateModeWrite, state_rateSet, h, if_neg (by omega), if_pos rfl, hnow]
  rfl

theorem rateTaken_agrees (h : 2 ≤ u.rd (K.IN_STAT_STATE n.val)) (hv : v = 0 ∨ rateClassOf (u.rd (K.IN_STAT_RATE n.val)) = v) :
    rateTaken n.val v u = u.wrs [(K.IN_CFG_RATE_MODE n.val, v)] := by
  rw [rateTaken, rateModeWrite, state_rateSet, rate_rateSet, if_neg (by omega), if_neg (by omega)]
  rfl

theorem rateTaken_differs (h : 2 ≤ u.rd (K.IN_STAT_STATE n.val)) (h0 : v ≠ 0) (hv : rateClassOf (u.rd (K.IN_STAT_RATE n.val)) ≠ v) :
    rateTaken n.val v u = (u.wr (K.IN_CFG_RATE_MODE n.val) v).cdrUnlock n.val := by
  rw [rateTaken, rateModeWrite, state_rateSet, rate_rateSet, if_pos ⟨h, h0, hv⟩]
  rfl

end

theorem rate_signal : SignalKey (K.IN_CFG_RATE_MODE n.val) := signalKey_of rfl (by simp only [H.warmPend, H.hk]; omega)

section
variable {q : Req} {i v : Nat} (h : Serves s q i) (hr : holds (s.rd (K.SESS_RIGHTS i)) 2 = true) (hv : v ≤ 5)
include h

/-- An arrival leaves the objects of an input. -/
theorem arrived_input {k x y : Nat} (hk : k = x * 256 + y) (_ : 0x2000 ≤ x ∧ x < 2 ^ 16 ∧ y < 256) : (arrived q i s).rd k = s.rd k :=
  arrived_obj s q (slot_le h.named) (by omega) (by omega)

theorem arrived_state : (arrived q i s).rd (K.IN_STAT_STATE n.val) = s.rd (K.IN_STAT_STATE n.val) := arrived_input h rfl (by omega)

theorem arrived_rate : (arrived q i s).rd (K.IN_STAT_RATE n.val) = s.rd (K.IN_STAT_RATE n.val) := arrived_input h rfl (by omega)

include hr hv

theorem rateModeWrite_exec : exec (.rateModeWrite q n v) s = .next (wrote s q i (K.IN_CFG_RATE_MODE n.val) (rateTaken n.val v)) := by
  have hadm : (rateLoc n.val).admits (K.IN_CFG_RATE_MODE n.val) v = true := by
    simp [Loc.admits, rateLoc, Ty.valid, Rng.admits, hv]
  have hobj : K.IN_CFG_RATE_MODE n.val < 2 ^ 24 := by
    simp only [K.IN_CFG_RATE_MODE, K.at']
    omega
  exact put_wrote h hobj (locate_rate n) (.inl rfl) hr (by simp only [rateLoc, Ty.size]; omega) (show 1 ≤ 1396 by decide) hadm (Bool.or_true _) []
    (rateTaken n.val v) (writeEffect_rate ..)

theorem rateModeWrite_writes {w : List (Nat × Nat)} (hf : rateTaken n.val v (arrived q i s) = (arrived q i s).wrs w) (hw : ∀ p ∈ w, SignalKey p.1)
    (hnd : (w.map Prod.fst).Nodup) : Writes (.rateModeWrite q n v) s q i (K.IN_CFG_RATE_MODE n.val) w [] :=
  writes_rw h (rateModeWrite_exec h hr hv) hf hw hnd

theorem rateModeWrite_off (h0 : s.rd (K.IN_STAT_STATE n.val) = 0) :
    Writes (.rateModeWrite q n v) s q i (K.IN_CFG_RATE_MODE n.val) [(K.IN_CFG_RATE_MODE n.val, v)] [] :=
  rateModeWrite_writes h hr hv (rateTaken_off ((arrived_state h).trans h0)) (by simpa using rate_signal) (by simp)

theorem rateModeWrite_searching (h1 : s.rd (K.IN_STAT_STATE n.val) = 1) : Writes (.rateModeWrite q n v) s q i (K.IN_CFG_RATE_MODE n.val)
    [(K.IN_CFG_RATE_MODE n.val, v), (H.cdrTry n.val, 0), (H.cdrAt n.val, s.now)] [] := by
  have htaken := rateTaken_searching (v := v) ((arrived_state h).trans h1)
  rw [arrived_now s q (slot_le h.named)] at htaken
  have htry : SignalKey (H.cdrTry n.val) := signalKey_of rfl (by simp only [H.warmPend, H.hk]; omega)
  have hat : SignalKey (H.cdrAt n.val) := signalKey_of rfl (by simp only [H.warmPend, H.hk]; omega)
  refine rateModeWrite_writes h hr hv htaken (by simp [rate_signal, htry, hat]) ?_
  simp (disch := (refine keys_ne rfl rfl ?_; omega)) [eq_false_of_keys_ne]

theorem rateModeWrite_agrees (h2 : 2 ≤ s.rd (K.IN_STAT_STATE n.val)) (hrate : v = 0 ∨ rateClassOf (s.rd (K.IN_STAT_RATE n.val)) = v) :
    Writes (.rateModeWrite q n v) s q i (K.IN_CFG_RATE_MODE n.val) [(K.IN_CFG_RATE_MODE n.val, v)] [] := by
  refine rateModeWrite_writes h hr hv (rateTaken_agrees ?_ ?_) (by simpa using rate_signal) (by simp)
  · rwa [arrived_state h]
  · rwa [arrived_rate h]

/-- A rate that is no longer wanted is given up. -/
theorem rateModeWrite_unlocks {old : Nat} (hq : s.rd (K.IN_QUAD_MODE (4 * (n.val / 4))) = 0) (hold : s.rd (K.IN_STAT_STATE n.val) = old)
    (h23 : old = 2 ∨ old = 3) (h0 : v ≠ 0) (hrate : rateClassOf (s.rd (K.IN_STAT_RATE n.val)) ≠ v) : Ends (.rateModeWrite q n v) s (fun t =>
      t.rd (K.IN_STAT_STATE n.val) = 1 ∧ t.rd (K.IN_CFG_RATE_MODE n.val) = v ∧
      t.rd (K.IN_RUN n.val 6) = min (s.rd (K.IN_RUN n.val 6) + 1) 0xFFFFFFFF ∧ raisedOf t = raisedOf s ++ [moveEvent n.val old 1]) := by
  have hset {k x y : Nat} (hk : k = x * 256 + y) (hx : 0x2000 ≤ x ∧ x < 2 ^ 16 ∧ y < 256) (hne : k ≠ K.IN_CFG_RATE_MODE n.val) :
      ((arrived q i s).wr (K.IN_CFG_RATE_MODE n.val) v).rd k = s.rd k := (State.rd_wr_ne _ _ hne).trans (arrived_input h hk hx)
  have htaken := rateTaken_differs (n := n) (u := arrived q i s) (v := v) (by rw [arrived_state h]; omega) h0 (by rwa [arrived_rate h])
  have hmode : ((arrived q i s).wr (K.IN_CFG_RATE_MODE n.val) v).rd (K.IN_CFG_RATE_MODE n.val) = v := State.rd_wr_self ..
  have hpend : ((arrived q i s).wr (K.IN_CFG_RATE_MODE n.val) v).rd H.warmPend = 0 :=
    (State.rd_wr_ne _ _ (keys_ne rfl rfl (by omega))).trans (arrived_warmPend s q (slot_le h.named))
  have hraised : raisedOf ((arrived q i s).wr (K.IN_CFG_RATE_MODE n.val) v) = raisedOf s := congrArg (List.map _) (arrived_raised s q i)
  generalize (arrived q i s).wr (K.IN_CFG_RATE_MODE n.val) v = u at hset htaken hmode hpend hraised
  have hrun : u.rd (K.IN_RUN n.val 6) = s.rd (K.IN_RUN n.val 6) := hset rfl (by omega) (keys_ne rfl rfl (by omega))
  have hwrit := cdrUnlock_writ ((hset rfl (by omega) (keys_ne rfl rfl (by omega))).trans hq)
    ((hset rfl (by omega) (keys_ne rfl rfl (by omega))).trans hold) h23
  have hwarm : (rateTaken n.val v (arrived q i s)).rd H.warmPend ≠ 1 := by
    rw [htaken, hwrit.rd_ne warmPend_not_unlockRegs, hpend]
    decide
  have hrd (k : Nat) (hk : k ≠ K.IDENT_CFG_SEQ) :
      (wrote s q i (K.IN_CFG_RATE_MODE n.val) (rateTaken n.val v)).rd k = (u.cdrUnlock n.val).rd k := by rw [wrote_rd hwarm hk, htaken]
  refine ⟨_, rateModeWrite_exec h hr hv, ?_, ?_, ?_, ?_⟩
  · rw [hrd (K.IN_STAT_STATE n.val) (keys_ne rfl rfl (by omega))]
    exact hwrit.rd_mem unlockRegs_nodup (p := (K.IN_STAT_STATE n.val, 1)) (by simp [unlockRegs, moveRegs])
  · rw [hrd (K.IN_CFG_RATE_MODE n.val) (keys_ne rfl rfl (by omega)), hwrit.rd_ne rateMode_not_unlockRegs, hmode]
  · rw [hrd (K.IN_RUN n.val 6) (keys_ne rfl rfl (by omega)), ← hrun]
    exact hwrit.rd_mem unlockRegs_nodup (p := (K.IN_RUN n.val 6, min (u.rd (K.IN_RUN n.val 6) + 1) 0xFFFFFFFF)) (by simp [unlockRegs, unlockCount])
  · rw [wrote_raisedOf hwarm, htaken, hwrit.events, hraised]

end

/-! ## A VALID input that loses its energy (R135, R153) -/

/-- Where the readers of an input have their registers: outputs, layers and streams, and outside the dictionary. -/
def ReaderKey (k : Nat) : Prop := (0x300000 ≤ k ∧ k < 0x600000) ∨ 2 ^ 24 ≤ k

theorem readerKey_of {k x y : Nat} (hk : k = x * 256 + y) (_ : 0x3000 ≤ x ∧ x < 0x5FFF ∧ y < 256) : ReaderKey k := .inl (by omega)

theorem readerKey_hidden {c i : Nat} : ReaderKey (H.hk c i) := .inr (by rw [H.hk]; omega)

/-- From s to t only registers of readers may differ. -/
abbrev ReadersOnly (s t : State) : Prop := Confined ReaderKey (fun _ => True) s t

theorem readersOnly_wrs {t : State} (h : ReadersOnly s t) {l : List (Nat × Nat)} (hl : ∀ k ∈ l.map Prod.fst, ReaderKey k) : ReadersOnly s (t.wrs l) :=
  h.trans (.of_touches (.wrs t l) hl (by simp))

theorem routeLose_readers {m : Nat} (_ : m < 48) (cause : Nat) : ReadersOnly s (s.routeLose m cause) := by
  have hframes : ReaderKey (K.OUT_ROUTE_STAT_LOSS_FRAMES m) := readerKey_of rfl (by omega)
  have hstate : ReaderKey (K.OUT_ROUTE_STAT_STATE m) := readerKey_of rfl (by omega)
  have hcontract : ReaderKey (K.OUT_CONTRACT_STATE m) := readerKey_of rfl (by omega)
  have hphase : ReaderKey (H.lossPh m) := readerKey_hidden
  have hslot : ReaderKey (H.lossSlot m) := readerKey_hidden
  unfold State.routeLose
  extract_lets src u u'
  have hu : ReadersOnly s u := readersOnly_wrs (.refl s) (by simp [hframes, hstate, hphase, hslot])
  have hu' : ReadersOnly s u' := by
    simp only [u']
    split
    · exact hu.wr _ hcontract
    · exact hu
  split
  · exact .refl s
  · exact hu'.raise _ _ _ trivial

theorem keyCheck_readers (m : Nat) : ReadersOnly s (s.keyCheck m) := by
  rw [State.keyCheck]
  split
  · exact ((Confined.refl s).wr _ readerKey_hidden).raise _ _ _ trivial
  · exact .refl s

theorem layerLose_readers {x : Nat} (_ : x < 128) (cause : Nat) : ReadersOnly s (s.layerLose x cause) := by
  have hstate : ReaderKey (K.LAYER_LSTAT_SRC_STATE x) := readerKey_of rfl (by omega)
  have hlost : ReaderKey (H.layLost x) := readerKey_hidden
  have hcount : ReaderKey (H.layLostCnt x) := readerKey_hidden
  unfold State.layerLose
  extract_lets u u'
  have hu : ReadersOnly s u := readersOnly_wrs (.refl s) (by simp [hstate, hlost, hcount])
  have hu' : ReadersOnly s u' := by
    simp only [u']
    split
    · exact hu.wr _ readerKey_hidden
    · exact hu
  split
  · exact .refl s
  · exact hu'.raise _ _ _ trivial

theorem frcMove_readers {f k : Nat} (_ : f < 16) (_ : k < 4) (new : Nat) : ReadersOnly s (s.frcMove f k new) := by
  have hstate : ReaderKey (K.FRC_SSTAT_STATE f k) := readerKey_of rfl (by omega)
  unfold State.frcMove
  extract_lets old
  split
  · exact .refl s
  · exact ((Confined.refl s).wr _ hstate).raise _ _ _ trivial

theorem frcLose_readers {f k : Nat} (hf : f < 16) (hk : k < 4) (cause : Nat) : ReadersOnly s (s.frcLose f k cause) := by
  have hlat : ReaderKey (K.FRC_SSTAT_LAST_LAT f k) := readerKey_of rfl (by omega)
  have hcount : ReaderKey (H.frcLostCnt (frcX f k)) := readerKey_hidden
  have hwas : ReaderKey (H.frcWasLost (frcX f k)) := readerKey_hidden
  have hstale : ReaderKey (H.frcStale (frcX f k)) := readerKey_hidden
  unfold State.frcLose
  extract_lets x st u
  have hu : ReadersOnly s u := readersOnly_wrs (.refl s) (by simp [x, hlat, hcount, hwas, hstale])
  split
  · exact .refl s
  · exact (hu.raise _ _ _ trivial).trans (frcMove_readers hf hk 3)

/-- An input that stops serving changes only what reads it. -/
theorem readersCheck_readers (m : Nat) : ReadersOnly s (s.readersCheck m) := by
  unfold State.readersCheck
  refine (((Confined.refl s).upto 48 fun x hx t => ?_).upto 128 fun x hx t => ?_).upto 64 fun x hx t => ?_
  · extract_lets u src reads t'
    have hroute : ReadersOnly t t' := by
      simp only [t']
      split
      · split
        · exact .refl t
        · exact routeLose_readers hx _
        · exact .refl t
      · exact .refl t
    split
    · exact hroute.trans (keyCheck_readers x)
    · exact hroute
  · extract_lets id kind reads t'
    have hlayer : ReadersOnly t t' := by
      simp only [t']
      split
      · split
        · exact layerLose_readers hx _
        · exact .refl t
      · exact .refl t
    split
    · exact hlayer.trans (layerLose_readers hx _)
    · exact hlayer
  · extract_lets f k kind
    split
    · split
      · exact frcLose_readers (by omega) (by omega) _
      · exact .refl t
    · exact .refl t

theorem brFails_hidden (cause : Nat) {k : Nat} (_ : k < 2 ^ 24) : (s.brFails n.val cause).rd k = s.rd k := by
  rw [State.brFails]
  split
  · rfl
  · next p _ =>
    have hhealthy : k ≠ H.brHealthy p := by simp only [H.brHealthy, H.hk]; omega
    have hfail : k ≠ H.brFail n.val := by simp only [H.brFail, H.hk]; omega
    rw [State.rd_setVec, State.rd_wr_ne _ _ hhealthy, State.rd_wr_ne _ _ hfail]

/-- The format is gone, and what is not of the format stays. -/
theorem unformatted_rd {k x y : Nat} (hk : k = x * 256 + y) (_ : x < 2 ^ 16) (_ : y < 256) (_ : x ≠ 0x2033 + 0x40 * n.val) :
    (unformatted s n.val).rd k = if k = K.IN_STAT_FORMAT n.val then 0 else s.rd k := by
  have hphases : Confined (fun j => j / 256 = 0x2033 + 0x40 * n.val) (fun _ => True)
      (s.wrs [(K.IN_STAT_FORMAT n.val, 0), (H.validAt n.val, 0), (H.ringLive n.val, 0)]) (unformatted s n.val) :=
    (Confined.refl _).upto 8 fun g _ t => ((Confined.refl t).wr _ (by simp only [K.IN_TIMING_PHASE, K.at']; omega)).setVec ..
  have hvalid : k ≠ H.validAt n.val := by simp only [H.validAt, H.hk]; omega
  have hlive : k ≠ H.ringLive n.val := by simp only [H.ringLive, H.hk]; omega
  rw [hphases.rd k (by omega)]
  show (((s.wr (K.IN_STAT_FORMAT n.val) 0).wr (H.validAt n.val) 0).wr (H.ringLive n.val) 0).rd k = _
  rw [State.rd_wr_ne _ _ hlive, State.rd_wr_ne _ _ hvalid, State.rd_wr]

/-- Beyond the reference candidate the teardown shows nowhere but with the readers. -/
theorem unvalid_rd {k x y : Nat} (hk : k = x * 256 + y) (_ : x < 0x3000 ∨ 0x6000 ≤ x ∧ x < 2 ^ 16) (_ : y < 256) :
    (unvalid s n.val).rd k = ((unformatted s n.val).refLose n.val).rd k := by
  have hunread : ¬ ReaderKey k := by rw [ReaderKey]; omega
  rw [unvalid, (readersCheck_readers n.val).rd k hunread, brFails_hidden 0 (by omega)]

/-- What the teardown leaves of an input. -/
theorem unvalid_rd_input {k x y : Nat} (hk : k = x * 256 + y) (_ : 0x2000 ≤ x ∧ x < 0x3000) (_ : y < 256) (_ : x ≠ 0x2033 + 0x40 * n.val) :
    (unvalid s n.val).rd k = if k = K.IN_STAT_FORMAT n.val then 0 else s.rd k := by
  have href : k ∉ K.REF_STATE n.val :: lossKeys n.val ++ [K.SEL_STATUS 0, K.SEL_STATUS 1] := by
    simp (disch := exact keys_ne hk rfl (by omega)) [lossKeys, eq_false_of_keys_ne]
  rw [unvalid_rd hk (by omega) (by omega), refLose_rd (by omega) href, unformatted_rd hk (by omega) (by omega) (by omega)]

theorem rxEnergyLost_valid (hq : s.rd (K.IN_QUAD_MODE (4 * (n.val / 4))) = 0) (h4 : s.rd (K.IN_STAT_STATE n.val) = 4) :
    Ends (.rxEnergyLost n) s (fun t => t.rd (K.IN_STAT_STATE n.val) = 0 ∧ t.rd (K.IN_STAT_FORMAT n.val) = 0 ∧ t.rd (K.REF_STATE n.val) = 0 ∧
      StoresKept s t) := by
  have hmoved := movedTo_writ (new := 0) h4 (by decide)
  have hmove : s.inMove n.val 0 = unvalid (movedTo s n.val 0) n.val := by rw [inMove_of_ne (by omega), if_pos h4]
  have hmode : K.IN_QUAD_MODE (4 * (n.val / 4)) ≠ K.IN_STAT_FORMAT n.val := keys_ne rfl rfl (by omega)
  have hstate : K.IN_STAT_STATE n.val ≠ K.IN_STAT_FORMAT n.val := keys_ne rfl rfl (by omega)
  have hquad : (s.inMove n.val 0).rd (K.IN_QUAD_MODE (4 * (n.val / 4))) = 0 := by
    rw [hmove, unvalid_rd_input (k := K.IN_QUAD_MODE (4 * (n.val / 4))) rfl (by omega) (by omega) (by omega), if_neg hmode,
      hmoved.rd_ne (quadMode_not_moved 0), hq]
  have hex : exec (.rxEnergyLost n) s = .next (unvalid (movedTo s n.val 0) n.val) := by
    show Host.Outcome.next (s.inDown n.val 0) = _
    rw [State.inDown, if_neg (not_not_intro hquad), hmove]
  refine ⟨_, hex, ?_, ?_, ?_, storesKept_of_exec hex rfl⟩
  · rw [unvalid_rd_input (k := K.IN_STAT_STATE n.val) rfl (by omega) (by omega) (by omega), if_neg hstate]
    exact hmoved.rd_mem moveRegs_nodup (p := (K.IN_STAT_STATE n.val, 0)) (List.mem_cons_self ..)
  · rw [unvalid_rd_input (k := K.IN_STAT_FORMAT n.val) rfl (by omega) (by omega) (by omega), if_pos rfl]
  · rw [unvalid_rd (k := K.REF_STATE n.val) rfl (by omega) (by omega), refLose_state]

/-- Settles O37: a move of an input that is not VALID is the writes of `moveRegs` and its event (`inMove_writ`), to which each command adds its
own; one that is VALID is torn down too, of which `unvalid_rd` says where it shows. -/
theorem receiverFindsItsRate : Obligations.ReceiverFindsItsRate := by
  intro n s m st cleared moved run6 counted
  refine ⟨rxEnergyPresent_starts, rxEnergyPresent_idle, fun rate => ⟨cdrLock_locks, cdrLock_idle⟩, ⟨cdrDwellExpiry_tries, fun h => if_neg h⟩,
    fun mapping lines samples => ⟨trsAligned_aligns mapping lines samples, fun h => if_pos h⟩, fun hq => ⟨cdrUnlock_idle,
    cdrUnlock_searches hq rfl, rxEnergyLost_idle hq, rxEnergyLost_falls hq rfl, rxEnergyLost_valid hq, fun q i v h hr hv => ⟨rateModeWrite_off h hr hv,
    rateModeWrite_searching h hr hv, rateModeWrite_agrees h hr hv, fun h23 h0 hrate => rateModeWrite_unlocks h hr hv hq rfl h23 h0 hrate⟩⟩⟩

end
end Sys2Proof
end
